-- ==== Sys2Proof/Word.lean ====
section
/-! DEFINITION. The word types of the package and nothing else: widths that the spec names (registers of 32 bits,
scalar registers of 64, device addresses of 48, vector registers of 2,048, descriptors of 256 and 512). -/

namespace Sys2Proof

abbrev Byte := BitVec 8
abbrev Word32 := BitVec 32
abbrev Word64 := BitVec 64
/-- A device address (R26). -/
abbrev Addr := BitVec 48
/-- A 32-byte pipeline descriptor (R119). -/
abbrev Word256 := BitVec 256
/-- A 64-byte work item, completion record, ROUTE descriptor or stream entry (R205, R166, R184). -/
abbrev Word512 := BitVec 512
/-- A SHA-384 digest (R193, R231). -/
abbrev Digest := BitVec 384

end Sys2Proof
end

