-- ==== Sys2Proof/Syntax.lean ====
section
/-! DEFINITION. The commands of the block: one constructor of Instr for each row of spec/opcode_table.json, and the
operand types they carry. A command names the unit it reaches (a core, a region, a link, a dye) and carries the
fields or the outside facts (a sensor reading, a verdict of a signature check, bytes a host returns) that the spec
says the step depends on. -/

namespace Sys2Proof

/-- A dye, 0 to 15 (R243). Dye 0 is the management partition. -/
abbrev Dye := Fin 16
/-- A region number, die * 8 + region on die (after R17). -/
abbrev RegionNo := Fin 16
/-- A core's position in its region, CLUSTER * 4 + CORE (Table 1-2). -/
abbrev CorePos := Fin 64
/-- A slot number (R22). -/
abbrev SlotNo := Fin 64

/-- A core, by region number and logical position; the repair map below it is invisible (R13). -/
structure CoreId where
  region : RegionNo
  pos : CorePos
  deriving DecidableEq, Repr, Inhabited

/-- The issuing masters (R29, Table 4-1, R243). `vf d` is the host runtime of dye d through virtual function d;
`vf 0` is the management host runtime. -/
inductive Master where
  | regionController (r : RegionNo)
  | sequencer (c : CoreId)
  | matrixEngine (c : CoreId)
  | transferEngine (c : CoreId)
  | appendPath (r : RegionNo)
  | attention (r : RegionNo)
  | courier (r : RegionNo)
  | drover (e : Fin 8) (d : Dye)
  | clusterDma (r : RegionNo) (k : Fin 16)
  | innkeeper
  | tierManager
  | imageLoader
  | nightPorter
  | vf (d : Dye)
  deriving DecidableEq, Repr, Inhabited

/-- The register windows of Table 1-7, and BAR0 of each virtual function (Table 13-2). Region-group, CLU_ and CORE_
windows are named by region number and position, the form the management partition uses. -/
inductive Win where
  | pkg | inn | cnt | pwr | clk | thm | ldg | inj | tmx | sec | mgt | npt | pci
  | eth (p : Fin 2)
  | smf
  | tlk (l : Fin 6)
  | tier
  | die (d : Fin 2)
  | noc (d : Fin 2)
  | drv (e : Fin 8)
  | hbm (h : Fin 8)
  | rgn (r : RegionNo)
  | atp (r : RegionNo)
  | cou (r : RegionNo)
  | spd (r : RegionNo)
  | clu (r : RegionNo) (k : Fin 16)
  | core (c : CoreId)
  | vf (d : Dye)
  deriving DecidableEq, Repr, Inhabited

/-! ### The instruction word (R58, Table 3-3): every field but the major opcode, which the constructor gives -/

/-- Format R. -/
structure RWord where
  p : BitVec 3 := 0
  pneg : Bool := false
  d : BitVec 5 := 0
  a : BitVec 5 := 0
  b : BitVec 5 := 0
  c : BitVec 5 := 0
  fn : BitVec 8 := 0
  rsv : BitVec 24 := 0
  deriving DecidableEq, Repr, Inhabited

/-- Format I. -/
structure IWord where
  p : BitVec 3 := 0
  pneg : Bool := false
  d : BitVec 5 := 0
  a : BitVec 5 := 0
  rsv : BitVec 2 := 0
  fn : BitVec 8 := 0
  imm : BitVec 32 := 0
  deriving DecidableEq, Repr, Inhabited

/-- Format M. -/
structure MWord where
  p : BitVec 3 := 0
  pneg : Bool := false
  as : BitVec 4 := 0
  bank : BitVec 3 := 0
  wb : Bool := false
  accum : Bool := false
  row0 : BitVec 7 := 0
  mrows : BitVec 7 := 0
  rsv35 : Bool := false
  fmt : BitVec 4 := 0
  rsv : BitVec 24 := 0
  deriving DecidableEq, Repr, Inhabited

/-- Format X. -/
structure XWord where
  p : BitVec 3 := 0
  pneg : Bool := false
  ad : BitVec 4 := 0
  as : BitVec 4 := 0
  sa : BitVec 5 := 0
  sb : BitVec 5 := 0
  n : BitVec 4 := 0
  rsv : BitVec 6 := 0
  fn : BitVec 8 := 0
  imm16 : BitVec 16 := 0
  deriving DecidableEq, Repr, Inhabited

/-- Format B. -/
structure BWord where
  p : BitVec 3 := 0
  pneg : Bool := false
  sa : BitVec 5 := 0
  rsv : BitVec 15 := 0
  imm : BitVec 32 := 0
  deriving DecidableEq, Repr, Inhabited

/-! ### Memory and register transactions -/

/-- What an access does: a read of n bytes, a write of bytes, or the bit-set or bit-clear transaction of a 64-bit
mask (R102). -/
inductive Access where
  | read (n : Nat)
  | write (data : List Byte)
  | bitSet (mask : Word64)
  | bitClear (mask : Word64)
  deriving DecidableEq, Repr, Inhabited

/-- A host load or store through BAR2 (R289), or a host load from BAR0 of virtual function d (Table 13-2) or of the physical function (R287). -/
inductive HostAccess where
  | load (n : Nat)
  | store (data : List Byte)
  | bar0 (n : Nat)
  | pf (n : Nat)
  deriving DecidableEq, Repr, Inhabited

/-- What the detector of a read finds (R101, R139). -/
inductive EccOutcome where
  | clean | corrected | uncorrectable
  deriving DecidableEq, Repr, Inhabited

/-- How a host read ends (R288). -/
inductive HostReadEnd where
  | data (bytes : List Byte) | ur | ca | poisoned | timeout
  deriving DecidableEq, Repr, Inhabited

/-! ### Link packets (Table 12-4), fabric packets (Table 13-5) -/

structure LinkPacket where
  type : BitVec 4
  dye : Dye
  srcSlot : SlotNo
  dstSlot : SlotNo
  ttl : BitVec 4 := 12
  target : BitVec 16 := 0
  channel : BitVec 4 := 0
  epoch : BitVec 8 := 0
  seq : Word32 := 0
  offset : BitVec 20 := 0
  last : Bool := true
  payload : List Byte := []
  deriving DecidableEq, Repr, Inhabited

structure FabricPacket where
  op : BitVec 4
  dye : Dye
  srcSlot : SlotNo
  dstSlot : SlotNo
  port : Fin 2 := 0
  status : BitVec 8 := 0
  seq : Word32 := 0
  ackSeq : Word32 := 0
  offset : BitVec 40 := 0
  countM1 : BitVec 5 := 0
  epoch : BitVec 8 := 0
  tag : BitVec 16 := 0
  operand0 : Word64 := 0
  operand1 : Word64 := 0
  txc : Word64 := 0
  payload : List Byte := []
  /-- The verdict of the AES-256-GCM tag check at the receiver (R297). -/
  tagOk : Bool := true
  deriving DecidableEq, Repr, Inhabited

/-- The control-class messages that a CONTROL packet carries (R274, R282, R201, R213, R258, R331). -/
inductive ControlMsg where
  | snapshot (at_ : Word64) (scope : Dye)
  /-- The units of a scope have been captured there (R332). -/
  | snapped (scope : Dye)
  | jobStart (d : Dye) (at_ : Word64)
  | jobStop (d : Dye)
  | stopRegions (d : Dye)
  | tAct (d : Dye) (at_ : Word64)
  | resumeAt (d : Dye) (at_ : Word64)
  | courierGen (d : Dye) (gen : Byte)
  /-- A session placed by the front package on a package of its group (R204), freed, cold (R156), or at a new committed
  length, rolled back to it or not (R223). -/
  | context (d : Dye) (slot id cls : Nat) (temp : Word32) (topK : Nat) (topP : Word32) (seed : Word64) (maxLen : Nat)
      (home : Fin 2)
  | closed (d : Dye) (slot : Nat)
  | cold (d : Dye) (slot : Nat)
  | committed (d : Dye) (slot len : Nat) (rollback : Bool)
  /-- A token unit's result record on its way to the front package (R201). -/
  | result (d : Dye) (slot : Nat) (record : Word512)
  /-- A weight set's state on a package (R191, R194). -/
  | weightState (d : Dye) (wset : Fin 16) (st : Nat)
  /-- A fork from prefix index `index` (R149), and a hint (R158, R159), for a session's context slot. -/
  | fork (d : Dye) (slot index : Nat)
  | hint (d : Dye) (slot : Nat) (resume : Bool) (tier x : Nat)
  /-- A load that was refused on some package: code, package and place (R239). -/
  | imageStop (d : Dye) (code : Byte) (pkg : Fin 64) (sect : Byte) (ofs : Nat)
  /-- A kill on its way from the package that accepted it (R258). -/
  | kill (d : Dye)
  /-- The drain point of a region that a dye gives up, for its front package (R256); the vacant ordinals of a job on a package
  are filled again (R254). -/
  | drain (d : Dye) (at_ : Word64)
  /-- Every core of a job that this package holds has HALTED; a core of it has faulted (R260). -/
  | jobHalted (d : Dye)
  | jobFaulted (d : Dye)
  | restored (d : Dye)
  /-- A region ordinal moves between the lanes on every package at a counter value (R203); a prefix released (R148). -/
  | laneMove (d : Dye) (ord : Nat) (toPrefill : Bool) (at_ : Nat)
  | released (d : Dye) (index : Nat)
  /-- An exchange of the lane's Couriers has failed (R178). -/
  | exchangeFailed (d : Dye) (prefill : Bool) (code : Byte)
  /-- For the front package: a package has ended a step, with the pairs that its Couriers dropped in it (R174). -/
  | stepDrops (d : Dye) (step : Word32) (pairs : Nat)
  /-- For the front package: a package had no frames for a prefix (R148); a RELEASE given on another package (R150). -/
  | publishFailed (d : Dye) (index : Nat)
  | release (d : Dye) (handle : Word64)
  /-- An item of a step is admitted: its session's context slot, its step, the layers of its lane, the positions it starts at and those
  it adds (R146, R155). -/
  | admitted (d : Dye) (slot : Nat) (step : Word32) (layers base adds : Nat)
  /-- A failure on a package of a step, of one session or of every item, for the front package (R134, R174, R178, R191, R215). -/
  | failed (d : Dye) (step : Word32) (session : Option Nat) (code : Byte)
  /-- From the master, with its synchronisation messages: the wall-time offset (R280). -/
  | wallOfs (v : Word64)
  /-- From the front package: a step is over before its reports (R224). -/
  | stepOver (d : Dye) (step : Word32)
  deriving DecidableEq, Repr, Inhabited

/-! ### The structure image (R230 to R238), in field form -/

/-- A package record of a PARTITIONS entry (R234): the slot and the region number of each region ordinal. -/
structure PackageRec where
  slot : SlotNo
  regions : List RegionNo
  rsv : Bool := false
  deriving DecidableEq, Repr, Inhabited

/-- A PARTITIONS entry (Table 10-4). -/
structure PartEntry where
  dye : Dye
  mode : BitVec 2
  elastic : Bool
  rgnMin : Nat
  rgnMax : Nat
  priority : Byte
  share : Nat
  minT : List Nat
  imageKey : Digest
  packages : List PackageRec
  rsv : Bool := false
  deriving DecidableEq, Repr, Inhabited

/-- A regulator setting: resource window, dye, RATE in 1/256 and BURST in KiB (R246). -/
structure RegulatorEntry where
  win : Win
  dye : Dye
  rate : Nat
  burst : Nat
  deriving DecidableEq, Repr, Inhabited

/-- The TIERS data of one slot (R151, R157, Table 10-3). -/
structure TierEntry where
  slot : SlotNo
  donors : List SlotNo
  dbase : Nat
  low : List Nat
  high : List Nat
  tier2Rate : Nat
  tier3Rate : Nat
  tierCfg : Word32
  deriving DecidableEq, Repr, Inhabited

/-- An OWNERSHIP claim (R238). Claimants of spare comparators are 0 Innkeeper, 1 lease, 2 Ledger. -/
inductive OwnClaim where
  | comparator (slot : SlotNo) (n : Nat) (owner : Fin 3)
  | tmx (slot : SlotNo) (pin : Fin 4) (sel : Word32)
  deriving DecidableEq, Repr, Inhabited

/-- The TOPOLOGY section (Table 10-3): kind 0 torus, 1 mesh, 2 tree; axis sizes; each slot's coordinate (x, y, z); each
slot's neighbour slots on X+, X-, Y+, Y-, Z+, Z-. -/
structure Topology where
  kind : Nat
  axes : List Nat
  coords : List (SlotNo × (Nat × Nat × Nat))
  links : List (SlotNo × List (Option SlotNo))
  deriving DecidableEq, Repr, Inhabited

/-- A shape: region count per package and PREFILL_RGN (R233). -/
structure Shape where
  regions : Nat
  prefillRgn : Nat
  deriving DecidableEq, Repr, Inhabited

/-- A session group: the package ordinals and the context slots per package (Table 10-5). -/
structure SessionGroup where
  pkgs : Word64
  slots : Nat
  deriving DecidableEq, Repr, Inhabited

/-- PARTCFG (Table 10-5). -/
structure PartCfg where
  biOff : Bool := false
  degraded : Bool := false
  appendSr : Bool := false
  bucketsM1 : Nat := 0
  extra : Nat := 0
  prefillMin : Nat := 1
  prefillMax : Nat := 1
  reshareUs : Nat := 0
  sealLeadUs : Nat := 0
  minLeadUs : Nat := 0
  failGuardUs : Nat := 0
  res : Nat := 0
  fMin : Nat := 600
  fMax : Nat := 600
  bounds : List Nat := []
  draftAnc : List (BitVec 16) := []
  shapes : List Shape := []
  groups : List SessionGroup := []
  rsv : Bool := false
  deriving DecidableEq, Repr, Inhabited

/-- A COREMAP core entry (Table 10-6) with the core it serves. -/
structure CoreEntry where
  pkgOrd : Nat
  rgnOrd : Nat
  pos : CorePos
  program : Nat
  tileLimit : BitVec 15
  tgroup : Word32
  windows : List Word32
  kvMask : Byte
  schan : List Word32
  rchan : List Word32
  barid : List Word32
  deriving DecidableEq, Repr, Inhabited

/-- A cost-row layer group: N_G and the coefficients (A, B, C, X) of each phase (Table 10-7). -/
structure CostGroup where
  ng : Nat
  phases : List (Nat × Nat × Nat × Nat)
  deriving DecidableEq, Repr, Inhabited

/-- A cost row (Table 10-7). -/
structure CostRow where
  lane : Bool
  cls : BitVec 2
  bucket : Nat
  maxRows : Nat
  maxChunk : Nat
  stepCap : Nat
  tTok : Nat
  groups : List CostGroup
  deriving DecidableEq, Repr, Inhabited

/-- An expert entry of a route record (Table 7-4). -/
structure ExpertEntry where
  pkgOrd : Nat
  rgnOrd : Nat
  valid : Bool
  cap : Nat
  inAddr : Addr
  outAddr : Addr
  stream : BitVec 16
  bias : Word32 := 0
  deriving DecidableEq, Repr, Inhabited

/-- A route record (R167, Table 7-3). -/
structure RouteRecord where
  magic : BitVec 16 := 0x4F43
  version : Byte := 1
  k : Nat
  scoreFn : BitVec 2
  norm : Bool
  shared : Bool
  layer : BitVec 16
  gateScale : Word32
  dispUnits : Nat
  hBlk : Nat
  combFmt : Bool
  nsrc : Nat
  experts : List ExpertEntry
  rsv : Bool := false
  deriving DecidableEq, Repr, Inhabited

/-- A per-layer scale record (R54): C, channel scales, SIDE_SCALE, THRESHOLD and SIDE_FMT, with the LAYER it serves. -/
structure ScaleRecord where
  layer : BitVec 16
  channels : Nat
  scales : List Word32
  sideScale : Word32
  threshold : Word32
  sideFmt : Byte
  deriving DecidableEq, Repr, Inhabited

/-- A WEIGHTS entry (Table 10-3): set index, dies, frame count, MODE, the (K, N) shapes of converted matrices and the
allowed manifest key digests. -/
structure WeightEntry where
  wset : Fin 16
  dies : List (Fin 2)
  frames : Nat
  mode : BitVec 2
  dstFmt : BitVec 4 := 0
  matrices : List (Nat × Nat) := []
  keyDigests : List Digest := []
  rank : Nat := 0
  deriving DecidableEq, Repr, Inhabited

/-- The fixed tree of a collective (R43, R237): the operation and the layer that it serves, the program set (shape, lane, class and
bucket) whose cores run it, the elements of a chunk, its members by coordinate, and for each member the place of its parent among
them, its own at the root. -/
structure CollTree where
  op : Nat
  layer : BitVec 16
  shape : Nat := 0xFFFF
  lane : Bool := false
  cls : BitVec 2 := 0
  bucket : Nat := 0
  chunk : Nat := 32
  members : List (BitVec 16)
  parents : List Nat
  deriving DecidableEq, Repr, Inhabited

/-- The contents of a section (Table 10-3). -/
inductive SectionBody where
  | topology (t : Topology)
  | partitions (es : List PartEntry)
  | regulators (es : List RegulatorEntry)
  | tiers (es : List TierEntry)
  | ownership (cs : List OwnClaim)
  | partcfg (c : PartCfg)
  | programs (ps : List (List Word64))
  | coremap (lane : Bool) (cls : BitVec 2) (bucket : Nat) (macc : List Word32) (cores : List CoreEntry)
  | groups (tgroups : List (Nat × List (BitVec 16))) (barriers : List (Nat × List (BitVec 16))) (trees : List CollTree := [])
  | attention (lclass : List Word32) (splitPages : Nat) (shards : List (Nat × Nat)) (scales : List ScaleRecord)
  | quant (sites : List Word32)
  | routes (lane : Bool) (rs : List RouteRecord)
  | pools (lane : Bool) (ps : List (Nat × Nat × Addr × Addr))
  | streams (ts : List (Nat × List Word512))
  | weights (ws : List WeightEntry)
  | load (loader : Nat) (parents : List Nat)
  | costs (rows : List CostRow)
  | unknown
  deriving DecidableEq, Repr, Inhabited

/-- A section with its directory entry (Table 10-2); `crcOk` is whether its CRC-32C is right. -/
structure Section where
  type : Byte
  sver : Byte := 1
  shape : BitVec 16 := 0xFFFF
  offset : Nat
  len : Nat
  crcOk : Bool := true
  body : SectionBody
  deriving DecidableEq, Repr, Inhabited

/-- A structure image (R230, Table 10-1). `sigOk` is the verdict of the signature check of R193; `keyOk` is whether
the key in the key block hashes to KEY_DIGEST. -/
structure Image where
  magic : BitVec 16 := 0x4953
  version : Byte := 1
  kind : Byte
  archLevel : Byte := 1
  dye : Dye
  sigAlg : BitVec 4 := 1
  generation : Word32
  length : Nat
  keyDigest : Digest
  digest : Digest
  sections : List Section
  keyOk : Bool := true
  sigOk : Bool := true
  deriving DecidableEq, Repr, Inhabited

/-- A manifest's weight-set entry (Table 8-5). -/
structure ManifestSet where
  wset : Fin 16
  mode : BitVec 2
  srcFmt : BitVec 4
  dstFmt : BitVec 4
  firstUnit : Nat
  nUnits : Nat
  rsv : Bool := false
  deriving DecidableEq, Repr, Inhabited

/-- A manifest's unit entry (Table 8-5). -/
structure ManifestUnit where
  hash : Digest
  dest : Word64
  len : Nat
  deriving DecidableEq, Repr, Inhabited

/-- A load manifest (R193). -/
structure Manifest where
  magic : BitVec 16 := 0x4D57
  version : Byte := 1
  sigAlg : Byte := 1
  archLevel : Byte := 1
  keyDigest : Digest
  sets : List ManifestSet
  units : List ManifestUnit
  rsv : Bool := false
  keyOk : Bool := true
  sigOk : Bool := true
  deriving DecidableEq, Repr, Inhabited

/-- A debug token body (Table 16-6) with the digest of the key that signed it and the verdict of its signature. -/
structure DebugToken where
  magic : BitVec 16 := 0x5444
  version : Byte := 1
  dye : Dye
  scope : BitVec 4
  notAfter : Word64
  challenge : BitVec 256
  generation : Word32
  keyDigest : Digest
  sigOk : Bool := true
  rsv : Bool := false
  deriving DecidableEq, Repr, Inhabited

/-- A detector event on its way to the Ledger (R324, R327, Table 15-3). -/
structure LedgerEvent where
  type : BitVec 4
  detector : Byte
  dye : Dye
  severity : Nat
  region : RegionNo := 0
  core : Option CorePos := none
  lcoord : BitVec 16 := 0
  injected : Bool := false
  detail : List Nat := []
  deriving DecidableEq, Repr, Inhabited

/-- How the repeated verify pass of a clear ends (Table 4-6): its verdict, and the slice whose words fail where it fails. -/
structure VerifyPass where
  ok : Bool
  bad : CorePos
  deriving DecidableEq, Repr, Inhabited

/-- How the clears of a wake end (Table 4-6, Table 14-2): the verdict of the first verify pass, and the repeated one. -/
structure WakeClears where
  ok1 : Bool
  ok2 : VerifyPass
  deriving DecidableEq, Repr, Inhabited

/-- What the read of a page that moves brings (R143, R153): whether it was poisoned, and its bytes where they are not those that this
package stored. -/
structure MoveRead where
  poison : Bool
  data : Option (List Byte)
  deriving DecidableEq, Repr, Inhabited

/-- VIN power in mW, as the 10 µs samples give it (R316): what the last 20 µs stayed at or above, and the last 100 µs. -/
structure VinWindows where
  w20 : Nat
  w100 : Nat
  deriving DecidableEq, Repr, Inhabited

/-- The sensor readings of one 10 µs sample (R315): junction °C of each region, of each HBM stack and of the optical engine of each
link. -/
structure SensorSample where
  junction : List Nat
  hbm : List Nat
  optic : List Nat
  deriving DecidableEq, Repr, Inhabited

/-- What a training sequence finds (Table 12-2): the usable receive lanes, light, and the partner's identity. -/
structure TrainingResult where
  light : Bool
  lanes : BitVec 17
  slot : SlotNo
  coord : Nat × Nat × Nat
  archLevel : Byte
  generation : Word32
  delay : BitVec 16
  deriving DecidableEq, Repr, Inhabited

/-- A firmware copy's header as the boot ROM finds it (R344). -/
structure FirmwareCopy where
  fwVersion : Word32
  secVersion : Nat
  sigOk : Bool
  ready : Bool
  npDigest : Digest
  dieDigest : Digest
  deriving DecidableEq, Repr, Inhabited

/-- Which way a Drover granule's reads went (R189): the bytes as fetched and whether each read matched its CRC word
and was free of poison. -/
structure GranuleFetch where
  crc1 : Bool
  poison1 : Bool
  crc2 : Bool
  poison2 : Bool
  deriving DecidableEq, Repr, Inhabited

/-- A commanded SPDM or Vyarlan request arrives over MCTP or the in-band mailbox (R354, R357). -/
structure MgtPath where
  /-- The secured session that carries the request, if any. -/
  session : Option Nat := none
  /-- The request came over I3C. -/
  i3c : Bool := false
  /-- The request came through the NPT_ mailbox. -/
  mailbox : Bool := false
  deriving DecidableEq, Repr, Inhabited

/-- Where a register access goes: a device address (Table 1-6) or an offset of BAR0 of a virtual function
(Table 13-2). -/
inductive RegTarget where
  | device (a : Addr)
  | bar0 (d : Dye) (off : BitVec 16)
  deriving DecidableEq, Repr, Inhabited

/-- A phase plan in field form (R214, Table 9-4): per layer the eight offsets in ns from START; the regions of the
step on this package. -/
structure StepPlan where
  dye : Dye
  lane : Bool
  step : Word32
  start : Word64
  fPrice : Nat
  layers : List (List Nat)
  token : Nat
  endOfs : Nat
  /-- The class of the step and the buckets of its sub-batches (R211). -/
  cls : Nat := 0
  buckets : List Nat := []
  /-- The step's sessions: context slot, and the positions the step may append. -/
  work : List (Nat × Nat) := []
  deriving DecidableEq, Repr, Inhabited

/-- One grant of a home region to a source for one expert (R172). -/
structure Grant where
  expert : Nat
  bufFirst : Nat
  nBuf : Nat
  poolFirst : Nat
  nPool : Nat
  dropped : Nat
  deriving DecidableEq, Repr, Inhabited

/-- What a message of an exchange carries beside its data (R172): the exchange generation, the layer and the step's start value. -/
structure ExTag where
  gen : Byte
  layer : Nat
  start : Nat
  deriving DecidableEq, Repr, Inhabited

/-- The points at which a region controller opens a phase (R214). -/
inductive PlanPoint where
  | layerStart | attention | gate | select | dispatch | expert | combine | layerEnd | token | stepEnd
  deriving DecidableEq, Repr, Inhabited

/-- What moved the prices (R220). -/
inductive PriceCause where
  | linkWidth | frequency | regionFailed | controllerFailed | hostPort
  deriving DecidableEq, Repr, Inhabited

/-- A received Ethernet frame as the port classifies it (R295). -/
structure EthFrame where
  mac : BitVec 48
  vlan : BitVec 12
  /-- It matches the fabric MAC address, UDP port and priority. -/
  fabric : Bool
  /-- It carries an IEEE 1588 event message (R296). -/
  event1588 : Bool
  bytes : List Byte
  deriving DecidableEq, Repr, Inhabited

/-- The commands of the block, one constructor for each row of spec/opcode_table.json, in the table's order. The
docstring of each gives the rule of its row. -/
inductive Instr where
  /-- REGISTER_WRITE (R8). -/
  | registerWrite (m : Master) (t : RegTarget) (size : Nat) (v : Word32)
  /-- CNT_NOW_L_READ (R279). -/
  | cntNowLRead (m : Master)
  /-- NOP (R59). -/
  | nop (c : CoreId) (w : RWord)
  /-- ADD (R59). -/
  | add (c : CoreId) (w : RWord)
  /-- SUB (R59). -/
  | sub (c : CoreId) (w : RWord)
  /-- MUL (R59). -/
  | mul (c : CoreId) (w : RWord)
  /-- LOGIC (R59). -/
  | logic (c : CoreId) (w : RWord)
  /-- SHIFT (R59). -/
  | shift (c : CoreId) (w : RWord)
  /-- ADDI (R59). -/
  | addi (c : CoreId) (w : IWord)
  /-- MOVI (R59). -/
  | movi (c : CoreId) (w : IWord)
  /-- CMP (R59). -/
  | cmp (c : CoreId) (w : RWord)
  /-- CMPI (R59). -/
  | cmpi (c : CoreId) (w : IWord)
  /-- PLOG (R59). -/
  | plog (c : CoreId) (w : RWord)
  /-- LDS (R59). -/
  | lds (c : CoreId) (w : IWord)
  /-- STS (R59). -/
  | sts (c : CoreId) (w : IWord)
  /-- RDSR (R59). -/
  | rdsr (c : CoreId) (w : IWord)
  /-- AMOV (R59). -/
  | amov (c : CoreId) (w : RWord)
  /-- AADD (R59). -/
  | aadd (c : CoreId) (w : RWord)
  /-- AADDI (R59). -/
  | aaddi (c : CoreId) (w : IWord)
  /-- ARD (R59). -/
  | ard (c : CoreId) (w : RWord)
  /-- VLD (R59). -/
  | vld (c : CoreId) (w : IWord)
  /-- VST (R59). -/
  | vst (c : CoreId) (w : IWord)
  /-- VOP (R40). -/
  | vop (c : CoreId) (w : RWord)
  /-- VFMA (R40). -/
  | vfma (c : CoreId) (w : RWord)
  /-- VFUNC (R41). -/
  | vfunc (c : CoreId) (w : RWord)
  /-- VRED (R40). -/
  | vred (c : CoreId) (w : RWord)
  /-- VCVT (R36). -/
  | vcvt (c : CoreId) (w : RWord)
  /-- VQMX (R90). -/
  | vqmx (c : CoreId) (w : RWord)
  /-- VBCAST (R59). -/
  | vbcast (c : CoreId) (w : RWord)
  /-- VTAIL (R59). -/
  | vtail (c : CoreId) (w : RWord)
  /-- VACC (R59). -/
  | vacc (c : CoreId) (w : RWord)
  /-- MLOAD (R64). -/
  | mload (c : CoreId) (w : MWord)
  /-- MLOAD_COMPLETE (R64). -/
  | mloadComplete (c : CoreId)
  /-- MMA (R65). -/
  | mma (c : CoreId) (w : MWord)
  /-- MMA_ROW_WRITTEN (R65). -/
  | mmaRowWritten (c : CoreId)
  /-- DMA (R68). -/
  | dma (c : CoreId) (w : XWord)
  /-- DMA_COMPLETE (R68). -/
  | dmaComplete (c : CoreId) (ok : Bool) (data : List Byte)
  /-- DWAIT (R68). -/
  | dwait (c : CoreId) (w : XWord)
  /-- SEND (R72). -/
  | send (c : CoreId) (w : XWord)
  /-- SEND_COMPLETE (R73). -/
  | sendComplete (c : CoreId) (ok : Bool)
  /-- RECV (R72). -/
  | recv (c : CoreId) (w : XWord)
  /-- SWAIT (R73). -/
  | swait (c : CoreId) (w : XWord)
  /-- RWAIT (R73). -/
  | rwait (c : CoreId) (w : XWord)
  /-- SEMSET (R74). -/
  | semset (c : CoreId) (w : XWord)
  /-- SEMCLR (R74). -/
  | semclr (c : CoreId) (w : XWord)
  /-- SEMWAIT (R74). -/
  | semwait (c : CoreId) (w : XWord)
  /-- BARRIER (R75). -/
  | barrier (c : CoreId) (w : XWord)
  /-- BARRIER_RELEASE (R75). -/
  | barrierRelease (d : Dye) (g : Nat)
  /-- FENCE (R76). -/
  | fence (c : CoreId) (w : XWord)
  /-- BR (R60). -/
  | br (c : CoreId) (w : BWord)
  /-- LOOP (R60). -/
  | loop (c : CoreId) (w : BWord)
  /-- TBOUND (R78). -/
  | tbound (c : CoreId) (w : BWord)
  /-- HALT (R78). -/
  | halt (c : CoreId) (w : BWord)
  /-- TILE_GATE_OPEN (R79). -/
  | tileGateOpen (c : CoreId)
  /-- TILE_OVERRUN (R77). -/
  | tileOverrun (c : CoreId)
  /-- CORE_GO (R78). -/
  | coreGo (m : Master) (c : CoreId)
  /-- CORE_STOP (R81). -/
  | coreStop (m : Master) (c : CoreId)
  /-- CORE_FAULT_ACK (R89). -/
  | coreFaultAck (m : Master) (c : CoreId)
  /-- ABANDON_COMPLETE (R83). -/
  | abandonComplete (c : CoreId)
  /-- SCRATCHPAD_ACCESS (R96). -/
  | scratchpadAccess (m : Master) (a : Addr) (acc : Access)
  /-- BANK_GRANT (R93). -/
  | bankGrant (c : CoreId) (bank : Fin 32) (flips : BitVec 288)
  /-- ECC_WRITE_BACK (R101). -/
  | eccWriteBack (c : CoreId) (word : Fin 65536)
  /-- SPD_WIN_WRITE (R98). -/
  | spdWinWrite (m : Master) (r : RegionNo) (k : CorePos) (n : Fin 8) (v : Word32)
  /-- SPD_MACC_WRITE (R97). -/
  | spdMaccWrite (m : Master) (r : RegionNo) (i : Fin 10) (v : Word32)
  /-- SPD_CLEAR_REQUEST (R109). -/
  | spdClearRequest (m : Master) (r : RegionNo) (v : Word32)
  /-- CLEAR_START (R108). -/
  | clearStart (r : RegionNo)
  /-- CLEAR_DONE (R108). -/
  | clearDone (r : RegionNo) (ok1 : Bool) (ok2 : VerifyPass)
  /-- BIST_ROW_START (R105). -/
  | bistRowStart (c : CoreId)
  /-- BIST_ROW_RELEASE (R105). -/
  | bistRowRelease (c : CoreId) (marchOk : Bool)
  /-- ATP_DQ_PUSH (R119). -/
  | atpDqPush (m : Master) (r : RegionNo) (v : Word32)
  /-- ATP_AQ_PUSH (R119). -/
  | atpAqPush (m : Master) (r : RegionNo) (v : Word32)
  /-- ATP_TQ_PUSH (R119). -/
  | atpTqPush (m : Master) (r : RegionNo) (v : Word32)
  /-- ATP_PHASE_WRITE (R115). -/
  | atpPhaseWrite (m : Master) (r : RegionNo) (v : Word32)
  /-- ATP_STOP (R135). -/
  | atpStop (m : Master) (r : RegionNo)
  /-- ATP_GO (R135). -/
  | atpGo (m : Master) (r : RegionNo)
  /-- ATP_FLUSH (R135). -/
  | atpFlush (m : Master) (r : RegionNo)
  /-- ATP_ERR_ACK (R137). -/
  | atpErrAck (m : Master) (r : RegionNo)
  /-- ATTENTION_JOB (R123). -/
  | attentionJob (r : RegionNo)
  /-- MERGE (R124). -/
  | merge (r : RegionNo)
  /-- APPEND (R126). -/
  | append (r : RegionNo)
  /-- COMMIT (R127). -/
  | commit (r : RegionNo)
  /-- TOKEN (R132). -/
  | token (r : RegionNo)
  /-- ATP_CLEAR_DONE (R136). -/
  | atpClearDone (r : RegionNo)
  /-- HBM_ACCESS (R141). -/
  | hbmAccess (d : Dye) (a : Addr) (acc : Access) (ecc : List EccOutcome)
  /-- HBM_SCRUB_TICK (R139). -/
  | hbmScrubTick (h : Fin 8) (ecc : EccOutcome)
  /-- HBM_CONTROLLER_FAILED (R163). -/
  | hbmControllerFailed (h : Fin 8)
  /-- HBM_SELF_REFRESH_ENTRY (R304). -/
  | hbmSelfRefreshEntry (h : Fin 8)
  /-- HBM_SELF_REFRESH_EXIT (R304). -/
  | hbmSelfRefreshExit (h : Fin 8)
  /-- PUBLISH (R148). -/
  | publish (d : Dye) (session : BitVec 16) (len : Nat)
  /-- PUBLISH_AT_PACKAGE (R148). -/
  | publishAtPackage (d : Dye) (session : BitVec 16) (len : Nat) (index : Word32)
  /-- PUBLISH_RESULT (R148). -/
  | publishResult (d : Dye) (index : Word32)
  /-- RELEASE (R150). -/
  | release (d : Dye) (handle : Word64)
  /-- ADD_HOST_BUFFER (R154). -/
  | addHostBuffer (d : Dye) (a : Word64)
  /-- WITHDRAW_HOST_BUFFER (R154). -/
  | withdrawHostBuffer (d : Dye) (a : Word64)
  /-- PAGE_MOVE_COMPLETE (R143). -/
  | pageMoveComplete (move : Nat) (read : MoveRead) (dest : Word32)
  /-- BACKGROUND_DEMOTION (R157). -/
  | backgroundDemotion (tier : Fin 4)
  /-- PROMOTION_START (R159). -/
  | promotionStart (d : Dye) (session : Nat)
  /-- PIN_EXPIRY (R159). -/
  | pinExpiry (d : Dye) (session : Nat)
  /-- ROUTE_PUSH (R166). -/
  | routePush (m : Master) (r : RegionNo) (v : Word32)
  /-- COU_PHASE_WRITE (R165). -/
  | couPhaseWrite (m : Master) (r : RegionNo) (v : Word32)
  /-- COU_STOP (R179). -/
  | couStop (m : Master) (r : RegionNo)
  /-- COU_GO (R179). -/
  | couGo (m : Master) (r : RegionNo)
  /-- COU_FLUSH (R181). -/
  | couFlush (m : Master) (r : RegionNo)
  /-- COU_ERR_ACK (R181). -/
  | couErrAck (m : Master) (r : RegionNo)
  /-- SELECT (R168). -/
  | select (r : RegionNo)
  /-- COUNT_MESSAGE (R172). -/
  | countMessage (r : RegionNo) (srcPkg : Nat) (srcRgn : Nat) (x : ExTag) (counts : List (Nat × Nat))
  /-- GRANT_MESSAGE (R172). -/
  | grantMessage (r : RegionNo) (homePkg : Nat) (homeRgn : Nat) (x : ExTag) (grants : List Grant)
  /-- DISPATCH_ROW (R175). -/
  | dispatchRow (r : RegionNo) (x : ExTag) (expert : Nat) (row : Nat) (pool : Bool) (gid : Nat) (rank : Nat) (data : List Byte) (ok : Bool)
  /-- RETURN_ROW (R176). -/
  | returnRow (r : RegionNo) (x : ExTag) (t : Nat) (rank : Nat) (data : List Byte) (ok : Bool)
  /-- COU_CLEAR_DONE (R180). -/
  | couClearDone (r : RegionNo)
  /-- STREAM_START (R186). -/
  | streamStart (e : Fin 8) (d : Dye)
  /-- CHUNK_FETCH (R189). -/
  | chunkFetch (e : Fin 8) (d : Dye) (stream : BitVec 16) (g : GranuleFetch)
  /-- STREAM_END (R187). -/
  | streamEnd (e : Fin 8) (d : Dye) (stream : BitVec 16)
  /-- STREAM_READY_POINT (R187). -/
  | streamReadyPoint (e : Fin 8) (d : Dye) (stream : BitVec 16)
  /-- BUFFER_RELEASE (R186). -/
  | bufferRelease (e : Fin 8) (d : Dye) (layer : BitVec 16)
  /-- CANCELLATION (R192). -/
  | cancellation (e : Fin 8) (d : Dye) (stream : BitVec 16) (start : Word64)
  /-- DRV_STOP (R198). -/
  | drvStop (m : Master) (e : Fin 8) (d : Dye)
  /-- DRV_GO (R198). -/
  | drvGo (m : Master) (e : Fin 8) (d : Dye) (replay : Bool)
  /-- DRV_ERR_ACK (R200). -/
  | drvErrAck (m : Master) (e : Fin 8) (d : Dye)
  /-- DRV_PLAN_WRITE (R184). -/
  | drvPlanWrite (m : Master) (e : Fin 8) (d : Dye) (a : Addr)
  /-- DRV_SHARE_WRITE (R187). -/
  | drvShareWrite (m : Master) (e : Fin 8) (d : Dye) (v : Word32)
  /-- DRV_DYE_CLEAR (R199). -/
  | drvDyeClear (e : Fin 8) (d : Dye)
  /-- MANIFEST_CHECK (R193). -/
  | manifestCheck (d : Dye) (mf : Manifest)
  /-- LOAD_UNIT (R194). -/
  | loadUnit (d : Dye) (unit : Nat) (data : List Byte) (hash : Digest)
  /-- WEIGHT_SET_REPAIR (R191). -/
  | weightSetRepair (d : Dye) (w : Fin 16)
  /-- WEIGHT_REPLACEMENT (R197). -/
  | weightReplacement (d : Dye) (w : Fin 16)
  /-- OPEN (R204). -/
  | openSession (d : Dye)
  /-- PREFILL (R206). -/
  | prefill (d : Dye)
  /-- DECODE (R207). -/
  | decode (d : Dye)
  /-- VERIFY (R207). -/
  | verify (d : Dye)
  /-- SUSPEND (R158). -/
  | suspend (d : Dye)
  /-- RESUME (R159). -/
  | resume (d : Dye)
  /-- FORK (R149). -/
  | fork (d : Dye)
  /-- CLOSE (R150). -/
  | close (d : Dye)
  /-- STEP_SEAL (R213). -/
  | stepSeal (d : Dye) (step : Word32)
  /-- STEP_PLAN (R213). -/
  | stepPlan (p : StepPlan)
  /-- STEP_START (R213). -/
  | stepStart (d : Dye) (step : Word32)
  /-- PHASE_POINT (R215). -/
  | phasePoint (r : RegionNo) (step : Word32) (layer : Nat) (pt : PlanPoint)
  /-- STEP_REPORT (R211). -/
  | stepReport (d : Dye) (step : Word32)
  /-- RESHARE_TICK (R203). -/
  | reshareTick (d : Dye)
  /-- PRICE_CHANGE (R220). -/
  | priceChange (d : Dye) (cause : PriceCause)
  /-- FREQ_AMEND (R221). -/
  | freqAmend (d : Dye) (step : Word32) (f : Nat) (tsw : Word64)
  /-- FAIL_GUARD_CHECK (R222). -/
  | failGuardCheck (d : Dye) (tag : Word32)
  /-- ITEM_FAILURE (R224). -/
  | itemFailure (d : Dye) (step : Word32) (code : Byte)
  /-- STOP_ADMIT (R226). -/
  | stopAdmit (m : Master)
  /-- RESUME_ADMIT (R226). -/
  | resumeAdmit (m : Master)
  /-- LOAD (R239). -/
  | load (m : Master) (d : Dye)
  /-- ABORT (R239). -/
  | abort (m : Master) (d : Dye)
  /-- IMAGE_FETCH_DONE (R239). -/
  | imageFetchDone (d : Dye) (img : Image)
  /-- IMAGE_COPY (R239). -/
  | imageCopy (d : Dye) (img : Image)
  /-- IMAGE_VERIFY_REPORT (R239). -/
  | imageVerifyReport (d : Dye) (pkg : Fin 64) (code : Byte) (sect : Byte) (ofs : Nat)
  /-- IMAGE_INSTALL (R239). -/
  | imageInstall (d : Dye)
  /-- SYSTEM_IMAGE_SYNC (R229). -/
  | systemImageSync (img : Image)
  /-- MOVE (R255). -/
  | move (m : Master) (r : RegionNo) (toDye : Dye)
  /-- REGION_CLAIM (R257). -/
  | regionClaim (d : Dye) (r : RegionNo)
  /-- DRAIN_POINT (R256). -/
  | drainPoint (r : RegionNo)
  /-- PREEMPT_SAVE_DONE (R253). -/
  | preemptSaveDone (r : RegionNo)
  /-- REDYE_DONE (R253). -/
  | redyeDone (r : RegionNo)
  /-- RESTORE (R254). -/
  | restore (d : Dye) (r : RegionNo)
  /-- JOB_RESUME_POINT (R254). -/
  | jobResumePoint (d : Dye)
  /-- PART_CMD_KILL (R258). -/
  | partCmdKill (m : Master) (d : Dye)
  /-- KILL_ARRIVAL (R258). -/
  | killArrival (d : Dye)
  /-- KILL_SWEEP_DONE (R258). -/
  | killSweepDone (d : Dye)
  /-- JOB_START (R260). -/
  | jobStart (m : Master) (d : Dye)
  /-- JOB_STOP (R260). -/
  | jobStop (m : Master) (d : Dye)
  /-- JOB_GO_POINT (R260). -/
  | jobGoPoint (d : Dye)
  /-- LINK_TRAINING (R266). -/
  | linkTraining (l : Fin 6) (t : TrainingResult)
  /-- LANE_LOSS (R267). -/
  | laneLoss (l : Fin 6) (lane : Fin 17)
  /-- SPARE_LANE_READY (R267). -/
  | spareLaneReady (l : Fin 6)
  /-- FRAME_UNCORRECTABLE (R265). -/
  | frameUncorrectable (l : Fin 6) (replays : Nat)
  /-- LINK_ENABLE (R266). -/
  | linkEnable (m : Master) (l : Fin 6)
  /-- LINK_DISABLE (R270). -/
  | linkDisable (m : Master) (l : Fin 6)
  /-- LINK_RETRAIN (R269). -/
  | linkRetrain (m : Master) (l : Fin 6)
  /-- RECABLE (R276). -/
  | recable (m : Master)
  /-- HEARTBEAT_LOSS (R270). -/
  | heartbeatLoss (l : Fin 6)
  /-- LIGHT_LOSS (R270). -/
  | lightLoss (l : Fin 6)
  /-- LOSS_NOTICE (R271). -/
  | lossNotice (slot : SlotNo) (link : Fin 6)
  /-- MASTER_TAKEOVER (R24). -/
  | masterTakeover
  /-- MESSAGE_PACKET (R275). -/
  | messagePacket (p : LinkPacket)
  /-- CREDIT_PACKET (R72). -/
  | creditPacket (p : LinkPacket)
  /-- ACK_PACKET (R73). -/
  | ackPacket (p : LinkPacket)
  /-- REFUSED_PACKET (R84). -/
  | refusedPacket (p : LinkPacket)
  /-- BARRIER_PACKET (R75). -/
  | barrierPacket (p : LinkPacket)
  /-- SYNC_EXCHANGE (R278). -/
  | syncExchange (t1 : Word64) (t2 : Word64) (t3 : Word64) (t4 : Word64) (trim : BitVec 24)
  /-- COUNTER_FIRST_LOCK (R278). -/
  | counterFirstLock (v : Word64)
  /-- HOLDOVER (R278). -/
  | holdover
  /-- HOLDOVER_TIMEOUT (R278). -/
  | holdoverTimeout
  /-- COMPARATOR_FIRE (R281). -/
  | comparatorFire (n : Fin 64)
  /-- FREQ_PACKET (R282). -/
  | freqPacket (d : Dye) (f : Nat) (tsw : Word64)
  /-- SWITCH_POINT (R282). -/
  | switchPoint (d : Dye)
  /-- HOST_WINDOW_ACCESS (R288). -/
  | hostWindowAccess (d : Dye) (a : Addr) (acc : Access)
  /-- HOST_READ_COMPLETION (R288). -/
  | hostReadCompletion (d : Dye) (e : HostReadEnd)
  /-- BAR2_ACCESS (R289). -/
  | bar2Access (d : Dye) (off : BitVec 24) (acc : HostAccess)
  /-- SQ_TAIL_WRITE (R290). -/
  | sqTailWrite (d : Dye) (v : Word32)
  /-- RING_READ (R209). -/
  | ringRead (d : Dye) (item : Word512)
  /-- CQ_HEAD_WRITE (R291). -/
  | cqHeadWrite (d : Dye) (v : Word32)
  /-- RECORD_POST (R292). -/
  | recordPost (d : Dye)
  /-- INTERRUPT_COALESCE_TIMER (R292). -/
  | interruptCoalesceTimer (d : Dye)
  /-- ENABLE_RINGS (R290). -/
  | enableRings (d : Dye)
  /-- DISABLE_RINGS (R293). -/
  | disableRings (d : Dye)
  /-- FLR (R293). -/
  | flr (d : Dye)
  /-- SURPRISE_DOWN (R293). -/
  | surpriseDown
  /-- HOST_PORT_REDUCED (R293). -/
  | hostPortReduced (gtsLanes : Nat)
  /-- ETH_FRAME_RECEIVE (R295). -/
  | ethFrameReceive (p : Fin 2) (f : EthFrame)
  /-- ETH_TXQ_TAIL_WRITE (R295). -/
  | ethTxqTailWrite (d : Dye) (p : Fin 2) (v : Word32)
  /-- ETH_ENABLE (R294). -/
  | ethEnable (m : Master) (p : Fin 2)
  /-- ETH_DISABLE (R294). -/
  | ethDisable (m : Master) (p : Fin 2)
  /-- ETH_RETRAIN (R294). -/
  | ethRetrain (m : Master) (p : Fin 2)
  /-- ETH_WALL_OFS_WRITE (R296). -/
  | ethWallOfsWrite (m : Master) (p : Fin 2) (v : Word32)
  /-- FABRIC_READ (R298). -/
  | fabricRead (p : FabricPacket)
  /-- FABRIC_WRITE (R298). -/
  | fabricWrite (p : FabricPacket)
  /-- FABRIC_FETCH_ADD (R298). -/
  | fabricFetchAdd (p : FabricPacket)
  /-- FABRIC_CAS (R298). -/
  | fabricCas (p : FabricPacket)
  /-- FABRIC_SWAP (R298). -/
  | fabricSwap (p : FabricPacket)
  /-- FABRIC_ACQUIRE (R299). -/
  | fabricAcquire (p : FabricPacket)
  /-- FABRIC_RENEW (R299). -/
  | fabricRenew (p : FabricPacket)
  /-- FABRIC_RELEASE (R299). -/
  | fabricRelease (p : FabricPacket)
  /-- FABRIC_RESPONSE (R298). -/
  | fabricResponse (p : FabricPacket)
  /-- FABRIC_ACK (R301). -/
  | fabricAck (p : FabricPacket)
  /-- FABRIC_PROBE (R301). -/
  | fabricProbe (p : FabricPacket)
  /-- LEASE_EXPIRY (R299). -/
  | leaseExpiry (seg : Nat)
  /-- FABRIC_RETRANSMIT (R301). -/
  | fabricRetransmit (slot : SlotNo) (port : Fin 2)
  /-- FABRIC_DEAD (R301). -/
  | fabricDead (tag : BitVec 16)
  /-- PROBE_TIMER (R301). -/
  | probeTimer (slot : SlotNo)
  /-- SMF_ACQUIRE (R299). -/
  | smfAcquire (d : Dye) (a : Addr) (us : Nat)
  /-- SMF_RENEW (R299). -/
  | smfRenew (d : Dye) (a : Addr) (us : Nat)
  /-- SMF_RELEASE (R299). -/
  | smfRelease (d : Dye) (a : Addr)
  /-- SMF_FETCH_ADD (R298). -/
  | smfFetchAdd (d : Dye) (a : Addr) (v : Word64)
  /-- SMF_CAS (R298). -/
  | smfCas (d : Dye) (a : Addr) (cmp : Word64) (v : Word64)
  /-- SMF_SWAP (R298). -/
  | smfSwap (d : Dye) (a : Addr) (v : Word64)
  /-- SEG_ALLOC (R299). -/
  | segAlloc (d : Dye)
  /-- SEG_FREE (R299). -/
  | segFree (d : Dye) (a : Addr)
  /-- REGION_POWER_REQUEST (R307). -/
  | regionPowerRequest (m : Master) (r : RegionNo) (target : BitVec 2)
  /-- REGION_ENTRY_DONE (R306). -/
  | regionEntryDone (r : RegionNo)
  /-- REGION_WAKE_DONE (R308). -/
  | regionWakeDone (r : RegionNo) (clears : WakeClears)
  /-- IDLE_RET_TIMER (R307). -/
  | idleRetTimer (r : RegionNo)
  /-- IDLE_OFF_TIMER (R307). -/
  | idleOffTimer (r : RegionNo)
  /-- IVR_SHORT (R310). -/
  | ivrShort (r : RegionNo)
  /-- HICCUP_RETRY (R310). -/
  | hiccupRetry (r : RegionNo) (shorted : Bool)
  /-- REFERENCE_CLOCK_LOSS (R312). -/
  | referenceClockLoss
  /-- THERMAL_SAMPLE (R315). -/
  | thermalSample (t : SensorSample)
  /-- THROTTLE_REPEAT (R315). -/
  | throttleRepeat (r : RegionNo)
  /-- THERMAL_CEILING_RISE (R315). -/
  | thermalCeilingRise (d : Dye)
  /-- CEILING_CHANGE (R313). -/
  | ceilingChange (d : Dye) (slot : SlotNo) (mhz : Nat)
  /-- STRETCH_TIMEOUT (R314). -/
  | stretchTimeout (d : Dye)
  /-- BUDGET_TICK (R317). -/
  | budgetTick
  /-- FAST_POWER_LIMIT (R316). -/
  | fastPowerLimit (vin : VinWindows)
  /-- AGEING_SAMPLE (R319). -/
  | ageingSample (r : RegionNo) (monitor : Fin 8) (short : Bool)
  /-- CRIT_ACK (R315). -/
  | critAck (m : Master)
  /-- STANDBY_REQUEST (R305). -/
  | standbyRequest
  /-- WAKE_N (R305). -/
  | wakeN
  /-- PWR_WARN_N (R338). -/
  | pwrWarnN
  /-- FROZEN_CLEAR (R338). -/
  | frozenClear
  /-- LEDGER_EVENT (R327). -/
  | ledgerEvent (e : LedgerEvent)
  /-- LEDGER_PERIOD (R327). -/
  | ledgerPeriod
  /-- RECORD_COMMIT (R328). -/
  | recordCommit (readBack : Bool)
  /-- ALERT_ACK (R325). -/
  | alertAck (m : Master)
  /-- LDG_REC_LOAD (R340). -/
  | ldgRecLoad (m : Master)
  /-- LDG_D_REC_LOAD (R340). -/
  | ldgDRecLoad (m : Master) (d : Dye)
  /-- SNAPSHOT_PUSH (R331). -/
  | snapshotPush (m : Master) (sys : Bool)
  /-- DYE_SNAPSHOT_PUSH (R331). -/
  | dyeSnapshotPush (m : Master) (d : Dye) (sys : Bool)
  /-- SNAPSHOT_DONE (R332). -/
  | snapshotDone (d : Dye)
  /-- ARM (R334). -/
  | arm (m : Master)
  /-- DISARM (R334). -/
  | disarm (m : Master)
  /-- TMX_SEL_WRITE (R335). -/
  | tmxSelWrite (m : Master) (n : Fin 4) (v : Word32)
  /-- TMX_SWITCH_DONE (R335). -/
  | tmxSwitchDone (n : Fin 4)
  /-- PPS_PULSE (R280). -/
  | ppsPulse
  /-- BOOT_CHAIN (R345). -/
  | bootChain (a : FirmwareCopy) (b : FirmwareCopy)
  /-- FIRMWARE_UPDATE (R346). -/
  | firmwareUpdate (f : FirmwareCopy)
  /-- ACTIVATE_FIRMWARE (R346). -/
  | activateFirmware
  /-- PLDM_GET_SENSOR (R355). -/
  | pldmGetSensor (id : Nat)
  /-- CAP_EFFECTER (R316). -/
  | capEffecter (watts : Nat)
  /-- STANDBY_EFFECTER (R305). -/
  | standbyEffecter (wake : Bool)
  /-- GET_FIRMWARE_PARAMETERS (R5). -/
  | getFirmwareParameters
  /-- MCTP_CONTROL (R354). -/
  | mctpControl (p : MgtPath) (cmd : Byte) (arg : Byte)
  /-- GET_VERSION (R356). -/
  | getVersion (p : MgtPath)
  /-- GET_CAPABILITIES (R356). -/
  | getCapabilities (p : MgtPath)
  /-- NEGOTIATE_ALGORITHMS (R356). -/
  | negotiateAlgorithms (p : MgtPath) (baseAsym : Word32) (hash : Word32) (dhe : BitVec 16) (aead : BitVec 16)
  /-- GET_DIGESTS (R356). -/
  | getDigests (p : MgtPath)
  /-- GET_CERTIFICATE (R349). -/
  | getCertificate (p : MgtPath) (slot : Fin 8) (offset : Nat) (len : Nat)
  /-- CHALLENGE (R349). -/
  | challenge (p : MgtPath) (slot : Fin 8) (nonce : BitVec 256)
  /-- GET_MEASUREMENTS (R349). -/
  | getMeasurements (p : MgtPath) (index : Byte) (nonce : BitVec 256)
  /-- KEY_EXCHANGE (R356). -/
  | keyExchange (p : MgtPath) (slot : Fin 8) (sid : BitVec 16)
  /-- FINISH (R356). -/
  | finish (p : MgtPath) (sid : Nat) (requester : Option Digest) (macOk : Bool)
  /-- KEY_UPDATE (R356). -/
  | keyUpdate (p : MgtPath)
  /-- HEARTBEAT (R356). -/
  | heartbeat (p : MgtPath)
  /-- END_SESSION (R356). -/
  | endSession (p : MgtPath)
  /-- GET_BUDGET (R357). -/
  | getBudget (p : MgtPath)
  /-- SET_CAP (R357). -/
  | setCap (p : MgtPath) (watts : Nat)
  /-- SET_SHARE (R357). -/
  | setShare (p : MgtPath) (d : Dye) (v : Word32)
  /-- GET_PARTITIONS (R357). -/
  | getPartitions (p : MgtPath)
  /-- KILL (R357). -/
  | kill (p : MgtPath) (d : Dye)
  /-- ADMISSION_COMMAND (R357). -/
  | admissionCommand (p : MgtPath) (stop : Bool)
  /-- IMAGE_CHUNK (R357). -/
  | imageChunk (p : MgtPath) (data : List Byte)
  /-- IMAGE_LOAD (R357). -/
  | imageLoad (p : MgtPath) (img : Image)
  /-- INJECT_ENABLE (R357). -/
  | injectEnable (p : MgtPath)
  /-- INJECT_DISABLE (R357). -/
  | injectDisable (p : MgtPath)
  /-- DEBUG_CHALLENGE (R352). -/
  | debugChallenge (p : MgtPath) (d : Dye)
  /-- DEBUG_PRESENT (R352). -/
  | debugPresent (p : MgtPath) (t : DebugToken)
  /-- SET_AUTHORITY (R351). -/
  | setAuthority (p : MgtPath) (n : Fin 4) (digest : Digest)
  /-- STANDBY (R357). -/
  | standby (p : MgtPath)
  /-- SEC_DBG_CHALLENGE (R352). -/
  | secDbgChallenge (m : Master) (d : Dye)
  /-- SEC_DBG_PRESENT (R352). -/
  | secDbgPresent (m : Master) (t : DebugToken)
  /-- TOKEN_CHECK_DONE (R352). -/
  | tokenCheckDone
  /-- TOKEN_END (R353). -/
  | tokenEnd (d : Dye)
  /-- QUOTE (R350). -/
  | quote (m : Master) (d : Dye)
  /-- REVOKE (R353). -/
  | revoke (m : Master) (d : Dye)
  /-- VAON_APPLIED (R370). -/
  | vaonApplied (slotId : BitVec 6) (masterEn : Bool)
  /-- RESET_N_ASSERT (R371). -/
  | resetNAssert
  /-- RESET_N_RELEASE (R370). -/
  | resetNRelease (slotId : BitVec 6) (masterEn : Bool)
  /-- PERST_N (R371). -/
  | perstN
  /-- VIN_LOSS (R372). -/
  | vinLoss
  /-- VAON_BROWNOUT (R372). -/
  | vaonBrownout
  /-- VIN_APPLIED (R370). -/
  | vinApplied
  /-- SYS_REF_APPEARS (R369). -/
  | sysRefAppears
  /-- PWR_WARN_N_RELEASE (R338). -/
  | pwrWarnNRelease
  /-- PERST_N_RELEASE (R370). -/
  | perstNRelease
  /-- ETH_PORT_DOWN (R297). -/
  | ethPortDown (p : Fin 2)
  /-- ETH_FRAME_SENT (R296). -/
  | ethFrameSent (d : Dye) (p : Fin 2) (event1588 : Bool)
  /-- LEASE_RENEW_TIMER (R299). -/
  | leaseRenewTimer (seg : Nat)
  /-- RESTORE_DONE (R254). -/
  | restoreDone (d : Dye) (r : RegionNo)
  /-- QUOTE_DONE (R350). -/
  | quoteDone (d : Dye) (sig : List Byte)
  /-- CONTROL_PACKET (R274). -/
  | controlPacket (src : SlotNo) (msg : ControlMsg)
  /-- REGION_PLL_LOSS_OF_LOCK (R334). -/
  | regionPllLossOfLock (r : RegionNo)
  /-- RGN_CONTROLLER_WATCHDOG (R334). -/
  | rgnControllerWatchdog (r : RegionNo)
  /-- NIGHT_PORTER_WATCHDOG (R325). -/
  | nightPorterWatchdog
  /-- DIE_BRIDGE_FAILURE (R325). -/
  | dieBridgeFailure
  /-- DYNAMIC_ADDRESS_ASSIGNMENT (R354). -/
  | dynamicAddressAssignment (a : BitVec 7)
  deriving DecidableEq, Repr, Inhabited

end Sys2Proof
end

