-- ==== Sys2Proof/Decode.lean ====
section
/-! DEFINITION. The decoder of the opcode table's words. The table gives no row any bits (every row's "fields" is empty): a command
of this block is an event with operands, not a word. The words of tile programs (R58) are in Machine/Words.lean. -/

namespace Sys2Proof

/-- The command that a word spells by the table's bits: none, since no row of the table gives bits. -/
def decodeTableWord (_nbits _w : Nat) : Option Instr := none

end Sys2Proof
end

