-- ==== Sys2Proof/Config.lean ====
section
/-! DEFINITION. The free values: what the spec leaves open and the model therefore does not choose. Each is an opaque
constant without a body, so nothing can be proved of its value. The log entry of each is named beside it. -/

namespace Sys2Proof.Config

/-- The fused STEP_MAJOR, STEP_MINOR and which variant (R5, Table 0-3): fixed at manufacture. Log entry 2. -/
opaque stepMajor : BitVec 4
opaque stepMinor : BitVec 4
opaque variantQ : Bool

/-- Which core of a quarter its spare stands in for as manufactured (R12): by region * 4 + quarter, 1 to 16 for the core's place in
the quarter, any other number for none. The map is secret (R13). Log entry 73. -/
opaque mfgSpare : Nat → Nat

/-- The results of the vector functions (R41): each within 2 units in the last place, the same bits everywhere, the
bits themselves not stated. Log entry 3. -/
opaque exp2 : Word32 → Word32
opaque recip : Word32 → Word32
opaque rsqrt : Word32 → Word32
opaque log2 : Word32 → Word32
opaque tanh : Word32 → Word32

/-- Where a sampled counter reads between two reference edges, and other open numbers of ns: a fresh value for each
value of the state's counter of free draws. Log entry 4. -/
opaque freeNat : Nat → Nat
/-- Fresh open words. Log entry 4. -/
opaque freeWord : Nat → Word64
/-- Fresh open bytes. Log entry 4. -/
opaque freeByte : Nat → Nat → Byte
/-- A fresh open yes or no. Log entry 4. -/
opaque freeBool : Nat → Bool

/-- Cryptographic digests (SHA-384 of R193, R231, R350) of a value laid out as a number: the spec names the function
and the model does not compute it. Log entry 5. -/
opaque sha384 : Nat → Digest
/-- Signatures and message authentication codes that the package makes (R350, R356). Log entry 5. -/
opaque sign : Nat → List Byte
/-- AES-256-XTS of a page's granule on its way to a donor or the host (R153): key, tweak, plaintext. Log entry 5. -/
opaque xts : Nat → Nat → List Byte → List Byte
/-- Its inverse, for a read of local HBM under another key than that of the write (R142). Log entry 5. -/
opaque xtsDec : Nat → Nat → List Byte → List Byte
/-- A code table of a VP4 weight set (R51), by dye, set and index: the spec puts it in the weight set's header and does not
say where that lies. Log entry 16. -/
opaque vp4Table : Nat → Nat → Nat → Word64
/-- The FP32 scale of an FP8 source tensor (R195), by dye, set and matrix: the spec does not say where it comes from. Log
entry 16. -/
opaque tensorScale : Nat → Nat → Nat → Word32
/-- The 12-bit CHECK of a prefix handle under a dye's handle key (R147): key number and bits [51:0]. Log entry 5. -/
opaque handleCheck : Nat → Nat → BitVec 12

/-- Whether the verifier refuses an image in a class of Table 10-8 for what this model does not work out from the image:
0x06 rounding sites that a program does not fix, 0x07 tile lengths and what a program does not fix of R80 and R82, 0x0E the cost
bounds that follow from the programs, 0x10E how programs chunk their reductions (R235 to R237). The code of the class, and the image's digest. Log entry
52. -/
opaque verdict : Nat → Digest → Bool

/-- The MASTER_EN straps of other packages, by slot (R23): no command brings them to this package. Log entry 54. -/
opaque masterEn : Nat → Bool

/-- The verdict of the security block's check of a signature over a debug token's bytes, key block and signature block included (R193,
R352): the check is FIPS 186-5's or FIPS 204's. Log entry 80. -/
opaque sigVerdict : List Byte → Bool

/-- The certificate chain of slot 0 (R349): the spec names its certificates and not their bytes. Log entry 61. -/
opaque lotChain : List Byte

/-- Measurement 1, and what a firmware copy that was never seen at a boot holds (R343, R349): the spec names the digests and
the version and gives no values. Log entry 72. -/
opaque romDigest : Digest
opaque shippedNp : Digest
opaque shippedDie : Digest
opaque shippedVersion : Word32

end Sys2Proof.Config
end

