-- ==== Sys2Proof/Machine/Tab.lean ====
section
/-! DEFINITION. Sparse tables: what the state keeps by number (bytes of a memory, registers of a window, cores,
sessions). A table is a list of (key, value) pairs in one canonical form: keys strictly rising, and no entry equal to
what an unlisted key reads as. So equal tables are equal data. -/

namespace Sys2Proof.Machine

/-- A sparse table. -/
abbrev Tab (α : Type) := List (Nat × α)

/-- What key k holds; d says what an unlisted key reads as. -/
def tabGet {α : Type} (d : Nat → α) : Tab α → Nat → α
  | [], k => d k
  | p :: t, k => if p.1 = k then p.2 else tabGet d t k

/-- The entry put in its place among rising keys. -/
def tabPut {α : Type} (k : Nat) (v : α) : Tab α → Tab α
  | [] => [(k, v)]
  | p :: t => if k < p.1 then (k, v) :: p :: t else p :: tabPut k v t

/-- Every entry of key k taken out. -/
def tabDel {α : Type} (k : Nat) (t : Tab α) : Tab α := t.filter (fun p => decide (p.1 ≠ k))

/-- The entry put in its place among rising keys, or, where skip holds, nothing put. -/
def tabAdd {α : Type} (skip : Bool) (k : Nat) (v : α) : Tab α → Tab α
  | [] => if skip then [] else [(k, v)]
  | p :: t => if skip then p :: t else tabPut k v (p :: t)

/-- Key k made to hold v; the default value is held by listing nothing. -/
def tabSet {α : Type} [DecidableEq α] (d : Nat → α) (t : Tab α) (k : Nat) (v : α) : Tab α :=
  tabAdd (decide (v = d k)) k v (tabDel k t)

/-- The keys from lo up to hi, hi not included, made to read as the default. -/
def tabClear {α : Type} (t : Tab α) (lo hi : Nat) : Tab α := t.filter (fun p => decide (p.1 < lo ∨ hi ≤ p.1))

/-- Several keys in a row from k made to hold the values of a list. -/
def tabSetList {α : Type} [DecidableEq α] (d : Nat → α) (t : Tab α) (k : Nat) : List α → Tab α
  | [] => t
  | v :: vs => tabSetList d (tabSet d t k v) (k + 1) vs

/-- The n values from key k up. -/
def tabGetList {α : Type} (d : Nat → α) (t : Tab α) (k : Nat) : Nat → List α
  | 0 => []
  | n + 1 => tabGet d t k :: tabGetList d t (k + 1) n

/-- The canonical form: keys strictly rising, no entry equal to the default. -/
def tabWf {α : Type} [DecidableEq α] (d : Nat → α) (t : Tab α) : Bool :=
  decide (t.Pairwise (fun p q => p.1 < q.1)) && t.all (fun p => decide (p.2 ≠ d p.1))

/-- Bits lo up to lo + n of a word, as a number. -/
def bitsOf {w : Nat} (x : BitVec w) (lo n : Nat) : Nat := x.toNat / 2 ^ lo % 2 ^ n

/-- The word x with its n bits from lo replaced by the low n bits of v. -/
def putBits {w : Nat} (x : BitVec w) (lo n : Nat) (v : Nat) : BitVec w :=
  BitVec.ofNat w (x.toNat - bitsOf x lo n * 2 ^ lo + v % 2 ^ n * 2 ^ lo)

/-- One bit of a word. -/
def bitOf {w : Nat} (x : BitVec w) (i : Nat) : Bool := x.toNat / 2 ^ i % 2 == 1

def b2n (b : Bool) : Nat := if b then 1 else 0

/-- A number laid out as n little-endian bytes (the notation rule before R7). -/
def leBytes (v : Nat) : Nat → List Byte
  | 0 => []
  | n + 1 => BitVec.ofNat 8 v :: leBytes (v / 256) n

/-- The number that little-endian bytes spell. -/
def leNat : List Byte → Nat
  | [] => 0
  | b :: bs => b.toNat + 256 * leNat bs

/-- The first n values of a list, filled up with z where it is shorter. -/
def takePad {α : Type} (z : α) (n : Nat) (l : List α) : List α := l.take n ++ List.replicate (n - l.length) z

/-- CRC-32C as R189 gives it: reflected polynomial 0x82F6_3B78, initial value and final XOR all ones. -/
def crcBits : Nat → Nat → Nat
  | 0, c => c
  | n + 1, c => crcBits n (if c % 2 = 1 then Nat.xor (c / 2) 0x82F63B78 else c / 2)
def crcFold (c : Nat) (bs : List Byte) : Nat := bs.foldl (fun a b => crcBits 8 (Nat.xor a b.toNat)) c
def crc32c (bs : List Byte) : Word32 := BitVec.ofNat 32 (Nat.xor (crcFold 0xFFFFFFFF bs) 0xFFFFFFFF)

end Sys2Proof.Machine
end

