-- ==== Sys2Proof/Machine/Flags.lean ====
section
/-! DEFINITION. The arithmetic events of R37: INVALID, OVERFLOW, SATURATE and NAN_BLOCK, as counts that a computation
raises beside its result. The block has no processor flags; these four counts are what its arithmetic leaves. -/

namespace Sys2Proof.Machine

/-- What a computation counts (R37). -/
structure Ev where
  invalid : Nat := 0
  overflow : Nat := 0
  saturate : Nat := 0
  nanBlock : Nat := 0
  deriving DecidableEq, Repr, Inhabited

def Ev.none : Ev := {}

/-- Both computations' events. -/
def Ev.plus (a b : Ev) : Ev :=
  { invalid := a.invalid + b.invalid, overflow := a.overflow + b.overflow,
    saturate := a.saturate + b.saturate, nanBlock := a.nanBlock + b.nanBlock }

/-- All of a list's events. -/
def Ev.sum (l : List Ev) : Ev := l.foldl Ev.plus Ev.none

def Ev.inval : Ev := { invalid := 1 }
def Ev.over : Ev := { overflow := 1 }
def Ev.satur : Ev := { saturate := 1 }
def Ev.nanBlk : Ev := { nanBlock := 1 }

end Sys2Proof.Machine
end

