-- ==== Sys2Proof/Machine/Formats.lean ====
section
/-! DEFINITION. The number formats and the arithmetic of the chapter on number formats: element encodings (R30 to
R32), block scaling and quantisation (R33, R34), conversions (R36), rounding (R44, R46), the exact chunk sum (R39), the
vector operations and their reduction tree (R40, R41), Philox (R45). A value is exact: a sign, a magnitude m and an
exponent e stand for m * 2^e, so that nothing rounds but the one rounding that a rule names. -/

namespace Sys2Proof.Machine

/-- The value of a code: NaN, an infinity or plus or minus m * 2^e. The sign of a zero is kept (R31). -/
inductive FV where
  | nan
  | inf (neg : Bool)
  | fin (neg : Bool) (m : Nat) (e : Int)
  deriving DecidableEq, Repr, Inhabited

/-- The formats of Table 2-1. -/
inductive Elem where
  | e2m1 | e2m3 | e3m2 | e4m3 | e5m2 | int8 | bf16 | fp16 | fp32
  deriving DecidableEq, Repr, Inhabited

/-- Exponent bits, mantissa bits (Table 2-1). -/
def Elem.eb : Elem → Nat
  | .e2m1 => 2 | .e2m3 => 2 | .e3m2 => 3 | .e4m3 => 4 | .e5m2 => 5 | .int8 => 0 | .bf16 => 8 | .fp16 => 5 | .fp32 => 8
def Elem.mb : Elem → Nat
  | .e2m1 => 1 | .e2m3 => 3 | .e3m2 => 2 | .e4m3 => 3 | .e5m2 => 2 | .int8 => 6 | .bf16 => 7 | .fp16 => 10 | .fp32 => 23
/-- Width of a code in bits. -/
def Elem.width : Elem → Nat
  | .e2m1 => 4 | .e2m3 => 6 | .e3m2 => 6 | .e4m3 => 8 | .e5m2 => 8 | .int8 => 8 | .bf16 => 16 | .fp16 => 16 | .fp32 => 32
/-- The exponent bias (Table 2-1). -/
def Elem.bias (f : Elem) : Int := 2 ^ (f.eb - 1) - 1
/-- The formats that overflow to infinity (R36); the others saturate. -/
def Elem.ieee : Elem → Bool
  | .bf16 | .fp16 | .fp32 => true
  | _ => false
/-- The code of the largest finite magnitude. -/
def Elem.maxCode : Elem → Nat
  | .e2m1 => 7 | .e2m3 => 31 | .e3m2 => 31 | .e4m3 => 0x7E | .e5m2 => 0x7B | .int8 => 127
  | .bf16 => 0x7F7F | .fp16 => 0x7BFF | .fp32 => 0x7F7FFFFF
/-- emax of R34. -/
def Elem.emax : Elem → Int
  | .e2m1 => 2 | .e2m3 => 2 | .e3m2 => 4 | .e4m3 => 8 | .e5m2 => 15 | _ => 0
/-- The code a NaN source converts to (R32, Table 2-2). -/
def Elem.nanCode : Elem → Nat
  | .bf16 => 0x7FC0 | .fp16 => 0x7E00 | .fp32 => 0x7FC00000 | .e4m3 => 0x7F | .e5m2 => 0x7F | _ => 0

/-- The value of a code (R30, R31). -/
def decodeElem (f : Elem) (x : Nat) : FV :=
  match f with
  | .int8 =>
    let n := x % 256
    if n < 128 then .fin false n (-6) else .fin true (256 - n) (-6)
  | _ =>
    let s := x / 2 ^ (f.eb + f.mb) % 2 == 1
    let ex := x / 2 ^ f.mb % 2 ^ f.eb
    let mt := x % 2 ^ f.mb
    let top := ex == 2 ^ f.eb - 1
    if top && (f.ieee || f == .e5m2) then (if mt = 0 then .inf s else .nan)
    else if top && f == .e4m3 && mt == 7 then .nan
    else if ex = 0 then .fin s mt (1 - f.bias - f.mb)
    else .fin s (2 ^ f.mb + mt) (ex - f.bias - f.mb)

/-- The value of an E8M0 scale code is 2^(code - 127), or NaN for 0xFF (Table 2-1). -/
def decodeE8M0 (x : Nat) : FV := if x = 0xFF then .nan else .fin false 1 ((x : Int) - 127)

/-! ### Rounding -/

/-- How a unit rounds: to nearest even, or stochastically with the 16-bit draw r (R44, R46). -/
inductive Rnd where
  | rne
  | sr (r : Nat)
  deriving DecidableEq, Repr, Inhabited

/-- m / 2^k rounded to an integer (R44, R46). -/
def roundShift (md : Rnd) (m k : Nat) : Nat :=
  let q := m / 2 ^ k
  let fr := m % 2 ^ k
  match md with
  | .rne => if 2 * fr > 2 ^ k ∨ (2 * fr = 2 ^ k ∧ q % 2 = 1) then q + 1 else q
  | .sr r => if fr * 65536 / 2 ^ k + r ≥ 65536 then q + 1 else q

/-- m * 2^e rounded to a multiple of the quantum 2^q: the multiple. -/
def roundTo (md : Rnd) (m : Nat) (e q : Int) : Nat :=
  if q ≤ e then m * 2 ^ (e - q).toNat else roundShift md m (q - e).toNat

/-- The exponent of the leading bit of m * 2^e (m not 0). -/
def expOf (m : Nat) (e : Int) : Int := (Nat.log2 m : Int) + e

/-- A value written in a format, rounded once: the code, and OVERFLOW or SATURATE where Table 2-2 counts it. -/
def encodeElem (f : Elem) (md : Rnd) (v : FV) : Nat × Ev :=
  match f, v with
  | .int8, .nan => (0, Ev.inval)
  | .int8, .inf s => (if s then 0x81 else 0x7F, Ev.satur)
  | .int8, .fin s m e =>
    let n := roundTo md m e (-6)
    let c := min n 127
    (if s ∧ c ≠ 0 then 256 - c else c, if n > 127 then Ev.satur else Ev.none)
  | _, .nan => (f.nanCode, Ev.none)
  | _, .inf s =>
    let sg := b2n s * 2 ^ (f.eb + f.mb)
    if f.ieee then (sg + (2 ^ f.eb - 1) * 2 ^ f.mb, Ev.none) else (sg + f.maxCode, Ev.satur)
  | _, .fin s m e =>
    let sg := b2n s * 2 ^ (f.eb + f.mb)
    let qmin : Int := 1 - f.bias - f.mb
    if m = 0 then (sg, Ev.none) else
    let q := max (expOf m e - f.mb) qmin
    let n := roundTo md m e q
    let code := (q - qmin).toNat * 2 ^ f.mb + n
    if code > f.maxCode then
      (if f.ieee then (sg + (2 ^ f.eb - 1) * 2 ^ f.mb, Ev.over) else (sg + f.maxCode, Ev.satur))
    else (sg + code, Ev.none)

/-! ### Exact arithmetic on values -/

def FV.isNan : FV → Bool
  | .nan => true
  | _ => false
def FV.neg? : FV → Bool
  | .nan => false
  | .inf s => s
  | .fin s _ _ => s
def FV.isZero : FV → Bool
  | .fin _ m _ => m == 0
  | _ => false
def FV.flip : FV → FV
  | .nan => .nan
  | .inf s => .inf (!s)
  | .fin s m e => .fin (!s) m e
/-- The value times 2^k. -/
def FV.scale (k : Int) : FV → FV
  | .fin s m e => .fin s m (e + k)
  | v => v

/-- The exact sum; INVALID where infinities of both signs meet (R37). -/
def addFV (a b : FV) : FV × Ev :=
  match a, b with
  | .nan, _ => (.nan, Ev.none)
  | _, .nan => (.nan, Ev.none)
  | .inf s, .inf t => if s = t then (.inf s, Ev.none) else (.nan, Ev.inval)
  | .inf s, .fin _ _ _ => (.inf s, Ev.none)
  | .fin _ _ _, .inf t => (.inf t, Ev.none)
  | .fin s m e, .fin t n f =>
    if m = 0 ∧ n = 0 then (.fin (s && t) 0 0, Ev.none) else
    let lo := min e f
    let x : Int := (if s then -1 else 1) * (m * 2 ^ (e - lo).toNat : Nat)
    let y : Int := (if t then -1 else 1) * (n * 2 ^ (f - lo).toNat : Nat)
    let z := x + y
    (.fin (decide (z < 0)) z.natAbs lo, Ev.none)

/-- The exact product; INVALID for zero times infinity. -/
def mulFV (a b : FV) : FV × Ev :=
  match a, b with
  | .nan, _ => (.nan, Ev.none)
  | _, .nan => (.nan, Ev.none)
  | .inf s, .inf t => (.inf (s != t), Ev.none)
  | .inf s, .fin t n _ => if n = 0 then (.nan, Ev.inval) else (.inf (s != t), Ev.none)
  | .fin s m _, .inf t => if m = 0 then (.nan, Ev.inval) else (.inf (s != t), Ev.none)
  | .fin s m e, .fin t n f => (.fin (s != t) (m * n) (e + f), Ev.none)

/-- The quotient, exact as far as any rounding can see: 66 or more leading bits and a sticky bit below them. -/
def divFV (a b : FV) : FV × Ev :=
  match a, b with
  | .nan, _ => (.nan, Ev.none)
  | _, .nan => (.nan, Ev.none)
  | .inf _, .inf _ => (.nan, Ev.inval)
  | .inf s, .fin t _ _ => (.inf (s != t), Ev.none)
  | .fin s _ _, .inf t => (.fin (s != t) 0 0, Ev.none)
  | .fin s m e, .fin t n f =>
    if n = 0 then (if m = 0 then (.nan, Ev.inval) else (.inf (s != t), Ev.none))
    else if m = 0 then (.fin (s != t) 0 0, Ev.none)
    else
      let k := 66 + Nat.log2 n
      let q := m * 2 ^ k / n
      let r := m * 2 ^ k % n
      (.fin (s != t) (2 * q + (if r = 0 then 0 else 1)) (e - f - k - 1), Ev.none)

/-- Less than, of two values that are not NaN. -/
def ltFV (a b : FV) : Bool :=
  match a, b with
  | .nan, _ => false
  | _, .nan => false
  | .inf s, .inf t => s && !t
  | .inf s, .fin _ _ _ => s
  | .fin _ _ _, .inf t => !t
  | .fin s m e, .fin t n f =>
    let lo := min e f
    let x : Int := (if s then -1 else 1) * (m * 2 ^ (e - lo).toNat : Nat)
    let y : Int := (if t then -1 else 1) * (n * 2 ^ (f - lo).toNat : Nat)
    decide (x < y)

/-- The magnitude compared with another: |a| < |b|, both finite. -/
def ltMag (a b : FV) : Bool :=
  match a, b with
  | .fin _ m e, .fin _ n f => ltFV (.fin false m e) (.fin false n f)
  | .fin _ _ _, .inf _ => true
  | _, _ => false

/-! ### FP32 operations, each rounded once to nearest even (R40) -/

def fval (x : Word32) : FV := decodeElem .fp32 x.toNat
def toF32 (v : FV) : Word32 × Ev :=
  let r := encodeElem .fp32 .rne v
  (BitVec.ofNat 32 r.1, r.2)
/-- The canonical quiet NaN (R32). -/
def nan32 : Word32 := 0x7FC00000
def isNan32 (x : Word32) : Bool := (fval x).isNan

def rnd32 (r : FV × Ev) : Word32 × Ev := ((toF32 r.1).1, r.2.plus (toF32 r.1).2)

def fadd (a b : Word32) : Word32 × Ev := rnd32 (addFV (fval a) (fval b))
def fsub (a b : Word32) : Word32 × Ev := rnd32 (addFV (fval a) (fval b).flip)
def fmul (a b : Word32) : Word32 × Ev := rnd32 (mulFV (fval a) (fval b))
def fdiv (a b : Word32) : Word32 × Ev := rnd32 (divFV (fval a) (fval b))
/-- a * b + c, rounded once. A NaN input gives NaN and counts nothing. -/
def ffma (a b c : Word32) : Word32 × Ev :=
  if isNan32 a || isNan32 b || isNan32 c then (nan32, Ev.none) else
  let p := mulFV (fval a) (fval b)
  let q := addFV p.1 (fval c)
  rnd32 (q.1, p.2.plus q.2)
/-- Maximum: NaN wins, and of the two zeros +0 (R40). -/
def fmax (a b : Word32) : Word32 :=
  let x := fval a; let y := fval b
  if x.isNan || y.isNan then nan32
  else if x.isZero && y.isZero then (if x.neg? && y.neg? then 0x80000000 else 0)
  else if ltFV x y then b else a
/-- Minimum: NaN wins, and of the two zeros -0 (R40). -/
def fmin (a b : Word32) : Word32 :=
  let x := fval a; let y := fval b
  if x.isNan || y.isNan then nan32
  else if x.isZero && y.isZero then (if x.neg? || y.neg? then 0x80000000 else 0)
  else if ltFV y x then b else a
def fabs (a : Word32) : Word32 := if isNan32 a then nan32 else a &&& 0x7FFFFFFF
def fneg (a : Word32) : Word32 := if isNan32 a then nan32 else a ^^^ 0x80000000
def fgt (a b : Word32) : Bool := ltFV (fval b) (fval a)

/-- Whether an FP32 value is finite and greater than zero. -/
def posFinite (x : Word32) : Bool :=
  match fval x with
  | .fin false m _ => decide (m ≠ 0)
  | _ => false
def finite32 (x : Word32) : Bool :=
  match fval x with
  | .fin _ _ _ => true
  | _ => false

/-! #### The vector functions and their error (R41). A real result is worked out to some 190 bits, in fixed point with 200 bits below
the point; the free value of the function's name is held within two units in the last place of it. -/

def fixOne : Nat := 2 ^ 200
/-- e^y for y from 0 up to 1. -/
def expFix (y : Nat) : Nat :=
  ((List.range 60).foldl (fun (a : Nat × Nat) k =>
    let t := a.2 * y / fixOne / (k + 1)
    (a.1 + t, t)) (fixOne, fixOne)).1
/-- Twice the inverse hyperbolic tangent of u, for u up to 1/3. -/
def atanhFix (u : Nat) : Nat :=
  ((List.range 70).foldl (fun (a : Nat × Nat) k => (a.1 + 2 * a.2 / (2 * k + 1), a.2 * u / fixOne * u / fixOne)) (0, u)).1
def ln2Fix : Nat := atanhFix (fixOne / 3)
/-- The integer square root of n below 2^(2k), bit by bit. -/
def isqrt : Nat → Nat → Nat → Nat
  | 0, _, r => r
  | k + 1, n, r => isqrt k n (if (r + 2 ^ k) * (r + 2 ^ k) ≤ n then r + 2 ^ k else r)
/-- A real result as m * 2^e, m cut off, and whether nothing was cut off. -/
structure RealRes where
  neg : Bool := false
  m : Nat
  e : Int := -200
  exact : Bool := false
/-- The real value of each function at a finite operand; none where the function has no real value. -/
def exp2Real : FV → Option RealRes
  | .fin s m e =>
    let x : Int := (if s then -1 else 1) * (m * 2 ^ (e + 200).toNat : Nat)
    let i := x / fixOne
    let f := (x % fixOne).toNat
    some { m := expFix (f * ln2Fix / fixOne), e := max i (-400) - 200, exact := decide (f = 0) }
  | _ => none
def recipReal : FV → Option RealRes
  | .fin s m e => if m = 0 then none else some { neg := s, m := fixOne / m, e := -200 - e, exact := decide (fixOne % m = 0) }
  | _ => none
def rsqrtReal : FV → Option RealRes
  | .fin s m e =>
    if m = 0 ∨ s then none
    else
      let k := if e % 2 = 0 then m else 2 * m
      let r := isqrt 101 (fixOne / k) 0
      some { m := r, e := -100 - e / 2, exact := decide (r * r * k = fixOne) }
  | _ => none
def log2Real : FV → Option RealRes
  | .fin s m e =>
    if m = 0 ∨ s then none
    else
      let z := m * 2 ^ (200 - Nat.log2 m)
      let v : Int := expOf m e * fixOne + (atanhFix ((z - fixOne) * fixOne / (z + fixOne)) * fixOne / ln2Fix : Nat)
      some { neg := decide (v < 0), m := v.natAbs, exact := decide (z = fixOne) }
  | _ => none
/-- Below 2^-12 the value lies less than a unit below the operand; above 16, less than one below 1. -/
def tanhReal : FV → Option RealRes
  | .fin s m e =>
    if m = 0 then some { neg := s, m := 0, exact := true }
    else if expOf m e < -12 then some { neg := s, m := m * 2 ^ 64 - 1, e := e - 64 }
    else if 4 ≤ expOf m e then some { neg := s, m := fixOne - 1 }
    else
      let x := m * 2 ^ (e + 200).toNat
      let t := (List.range 6).foldl (fun v _ => v * v / fixOne) (expFix (x / 32))
      some { neg := s, m := (t - fixOne) * fixOne / (t + fixOne) }
  | _ => none
/-- FP32 codes in the order of their values. -/
def fcode (x : Word32) : Int := (if bitOf x 31 then -1 else 1) * (bitsOf x 0 31 : Nat)
def ofFcode (c : Int) : Word32 := BitVec.ofNat 32 (c.natAbs + if c < 0 then 2 ^ 31 else 0)
/-- The least and the greatest code within two units in the last place of a real value; one too large overflows to infinity (R36). -/
def ulpWindow (r : RealRes) : Int × Int :=
  let c : Nat := (encodeElem .fp32 (.sr 0) (.fin false r.m r.e)).1
  let onIt := r.exact && !ltMag (decodeElem .fp32 c) (.fin false r.m r.e)
  let w : Int × Int := if 0x7F800000 ≤ c then (0x7F800000, 0x7F800000)
    else ((c : Int) - (if onIt then 2 else 1), min 0x7F800000 (c + 2))
  if r.neg then (-w.2, -w.1) else w
/-- A free value held within its window. -/
def heldTo (r : Option RealRes) (x : Word32) : Word32 :=
  match r with
  | none => x
  | some v => if (ulpWindow v).1 ≤ fcode x ∧ fcode x ≤ (ulpWindow v).2 then x else ofFcode (ulpWindow v).1
def fnExp2 (x : Word32) : Word32 := heldTo (exp2Real (fval x)) (Config.exp2 x)
def fnRecip (x : Word32) : Word32 := heldTo (recipReal (fval x)) (Config.recip x)
def fnRsqrt (x : Word32) : Word32 := heldTo (rsqrtReal (fval x)) (Config.rsqrt x)
def fnLog2 (x : Word32) : Word32 := heldTo (log2Real (fval x)) (Config.log2 x)
def fnTanh (x : Word32) : Word32 := heldTo (tanhReal (fval x)) (Config.tanh x)

/-- The vector functions of R41. The result is the free value of the function's name, within its error; a NaN in or out is canonical
(R32), and a NaN made of an input that is none counts INVALID (R37). Log entry 3. -/
def vfun (f : Word32 → Word32) (x : Word32) : Word32 × Ev :=
  if isNan32 x then (nan32, Ev.none)
  else if isNan32 (f x) then (nan32, Ev.inval) else (f x, Ev.none)

/-- The lanes i and i + half combined, as one level of the tree of R40. -/
def treeLevel (op : Word32 → Word32 → Word32 × Ev) (l : List Word32) (half : Nat) : List (Word32 × Ev) :=
  List.zipWith op (l.take half) (l.drop half)

/-- The fixed pairwise tree over lanes (R40): offsets 32, 16, 8, 4, 2, 1 (or fewer for a shorter list). -/
def treeReduce (op : Word32 → Word32 → Word32 × Ev) : List Nat → List Word32 → Word32 × Ev
  | [], l => (l.headD 0, Ev.none)
  | h :: hs, l =>
    let lv := treeLevel op l h
    let r := treeReduce op hs (lv.map (·.1))
    (r.1, (Ev.sum (lv.map (·.2))).plus r.2)

def treeOffsets : List Nat := [32, 16, 8, 4, 2, 1]
def vsum (l : List Word32) : Word32 × Ev := treeReduce fadd treeOffsets l
def vmax (l : List Word32) : Word32 × Ev := treeReduce (fun a b => (fmax a b, Ev.none)) treeOffsets l

/-! ### Chunks of the matrix engine (R39) -/

/-- One chunk: the exact sum of the products and the accumulator, rounded once to FP32. -/
def chunkSum (acc : Word32) (terms : List (FV × FV)) : Word32 × Ev :=
  if isNan32 acc || terms.any (fun t => t.1.isNan || t.2.isNan) then (nan32, Ev.none) else
  let s := terms.foldl (fun a t => (addFV a (mulFV t.1 t.2).1).1) (fval acc)
  if s.isNan then (nan32, Ev.inval) else toF32 s

/-- Chunk after chunk in ascending order, each rounded once (R39). -/
def reduceChunks (acc : Word32) : List (List (FV × FV)) → Word32 × Ev
  | [] => (acc, Ev.none)
  | c :: cs =>
    let r := chunkSum acc c
    let t := reduceChunks r.1 cs
    (t.1, r.2.plus t.2)

/-! ### Blocks (R33, R34) -/

/-- The formats of Table 3-4. -/
def fmtElem (fmt : Nat) : Option Elem :=
  match fmt with
  | 0 => some .e2m1 | 1 => some .e2m3 | 2 => some .e3m2 | 3 => some .e4m3 | 4 => some .e5m2 | 5 => some .int8
  | 6 => some .e4m3 | 7 => some .e5m2 | 8 => some .bf16 | 9 => some .fp16
  | _ => none
/-- The MX formats, which carry E8M0 scales. -/
def fmtMx (fmt : Nat) : Bool := decide (fmt ≤ 5)

/-- One element of a block: element times 2^(scale - 127), or NaN where the scale is 0xFF (R33). -/
def mxElem (f : Elem) (scale code : Nat) : FV :=
  if scale = 0xFF then .nan else (decodeElem f code).scale ((scale : Int) - 127)

/-- The largest magnitude of a block's values. -/
def maxMag (l : List FV) : FV := l.foldl (fun a v => if ltMag a v then v else a) (.fin false 0 0)

/-- One value of a block as a code, divided by 2^x, rounded and saturated (R34, R46). SATURATE is counted for a value that lies above the
largest finite element after scaling. -/
def quantCode (f : Elem) (x : Int) (md : Rnd) (v : FV) : Nat × Ev :=
  let w := v.scale (-x)
  ((encodeElem f md w).1, if ltMag (decodeElem f f.maxCode) w then Ev.satur else Ev.none)

/-- A block quantised (R34): the scale code, the element codes and the events. draws gives the rounding of each
element. -/
def mxQuant (f : Elem) (draws : List Rnd) (vs : List FV) : Nat × List Nat × Ev :=
  if vs.any (fun v => match v with | .fin _ _ _ => false | _ => true) then
    (0xFF, vs.map (fun _ => 0), Ev.nanBlk)
  else
    let x0 : Int := match maxMag vs with
      | .fin _ m e => if m = 0 then -127 else expOf m e - f.emax
      | _ => -127
    let x := min 127 (max (-127) x0)
    let cs := List.zipWith (fun md v => quantCode f x md v) draws vs
    ((x + 127).toNat, cs.map (·.1), Ev.sum (cs.map (·.2)))

/-! ### Philox-4x32-10 (R45), with the published constants (log entry 6) -/

def philoxRound (k : Nat × Nat) (c : Nat × Nat × Nat × Nat) : Nat × Nat × Nat × Nat :=
  let p0 := 0xD2511F53 * c.1
  let p1 := 0xCD9E8D57 * c.2.2.1
  (Nat.xor (Nat.xor (p1 / 2 ^ 32) c.2.1) k.1 % 2 ^ 32, p1 % 2 ^ 32,
   Nat.xor (Nat.xor (p0 / 2 ^ 32) c.2.2.2) k.2 % 2 ^ 32, p0 % 2 ^ 32)

def philoxRounds : Nat → Nat × Nat → Nat × Nat × Nat × Nat → Nat × Nat × Nat × Nat
  | 0, _, c => c
  | n + 1, k, c =>
    philoxRounds n ((k.1 + 0x9E3779B9) % 2 ^ 32, (k.2 + 0xBB67AE85) % 2 ^ 32) (philoxRound k c)

/-- The 128-bit output for a key and a counter, as four words. -/
def philox (key : Word64) (c0 c1 c2 c3 : Nat) : List Nat :=
  let r := philoxRounds 10 (bitsOf key 0 32, bitsOf key 32 32) (c0 % 2 ^ 32, c1 % 2 ^ 32, c2 % 2 ^ 32, c3 % 2 ^ 32)
  [r.1, r.2.1, r.2.2.1, r.2.2.2]

/-- The 16-bit draw of element e at a position and a site word c2 (R45). -/
def srDraw (key : Word64) (e pos c2 : Nat) : Nat :=
  let j := e % 8
  ((philox key (e / 8) pos c2 0).getD (j / 2) 0) / 2 ^ (16 * (j % 2)) % 65536

/-! ### Packed codes and lanes -/

/-- Codes of w bits each, packed from bit 0 up. -/
def packCodes (w : Nat) : List Nat → Nat
  | [] => 0
  | c :: cs => c % 2 ^ w + 2 ^ w * packCodes w cs

/-- Code i of width w in a packed number. -/
def codeAt (w : Nat) (x i : Nat) : Nat := x / 2 ^ (w * i) % 2 ^ w

/-- The 64 FP32 lanes of a vector register (R40). -/
def lanes (v : BitVec 2048) : List Word32 := (List.range 64).map (fun i => BitVec.ofNat 32 (codeAt 32 v.toNat i))
def lane (v : BitVec 2048) (i : Nat) : Word32 := BitVec.ofNat 32 (codeAt 32 v.toNat i)
def ofLanes (l : List Word32) : BitVec 2048 := BitVec.ofNat 2048 (packCodes 32 (l.map BitVec.toNat))

/-- Lane by lane, with the events of all lanes. -/
def mapLanes (op : Word32 → Word32 × Ev) (v : BitVec 2048) : BitVec 2048 × Ev :=
  let r := (lanes v).map op
  (ofLanes (r.map (·.1)), Ev.sum (r.map (·.2)))
def zipLanes (op : Word32 → Word32 → Word32 × Ev) (a b : BitVec 2048) : BitVec 2048 × Ev :=
  let r := List.zipWith op (lanes a) (lanes b)
  (ofLanes (r.map (·.1)), Ev.sum (r.map (·.2)))

end Sys2Proof.Machine
end

