-- ==== Sys2Proof/Machine/Regs.lean ====
section
/-! DEFINITION. The registers of the spec's register tables: their offsets, the windows' numbers, and what each reads
as before anything has changed it (the Reset columns; R8 for an offset that has no register). -/

namespace Sys2Proof.Machine

/-- A number for each window of Table 1-7 and for BAR0 of each virtual function (Table 13-2). -/
def winIndex : Win → Nat
  | .pkg => 0 | .inn => 1 | .cnt => 2 | .pwr => 3 | .clk => 4 | .thm => 5 | .ldg => 6 | .inj => 7 | .tmx => 8
  | .sec => 9 | .mgt => 10 | .npt => 11 | .pci => 12
  | .eth p => 13 + p.val
  | .smf => 15
  | .tlk l => 16 + l.val
  | .tier => 22
  | .die d => 23 + d.val
  | .noc d => 25 + d.val
  | .drv e => 27 + e.val
  | .hbm h => 35 + h.val
  | .rgn r => 43 + r.val
  | .atp r => 59 + r.val
  | .cou r => 75 + r.val
  | .spd r => 91 + r.val
  | .clu r k => 107 + 16 * r.val + k.val
  | .core c => 363 + 64 * c.region.val + c.pos.val
  | .vf d => 1387 + d.val

/-- The key of a register in the register table: its window and its offset. -/
def regKey (w : Win) (o : Nat) : Nat := winIndex w * 0x10000 + o

/-- An offset in the page of dye d of a paged window (R378). -/
def pageOff (d : Dye) (o : Nat) : Nat := 0x1000 + d.val * 0x100 + o

/-! ### Offsets, by the names of the spec's tables. In a paged window the offset is the one within a page. -/

abbrev PKG_REVISION : Nat := 0x0
abbrev CORE_STATUS : Nat := 0x0
abbrev CORE_CTRL : Nat := 0x4
abbrev CORE_TGROUP : Nat := 0x8
abbrev CORE_PC : Nat := 0xC
abbrev CORE_TILE : Nat := 0x10
abbrev CORE_CKPT_PC : Nat := 0x14
abbrev CORE_TILE_LIMIT : Nat := 0x18
abbrev CORE_TILE_MAX : Nat := 0x1C
abbrev CORE_FAULT_PC : Nat := 0x20
abbrev CORE_FAULT_INFO : Nat := 0x24
abbrev CORE_EVT_INVALID : Nat := 0x28
abbrev CORE_EVT_OVERFLOW : Nat := 0x2C
abbrev CORE_EVT_SATURATE : Nat := 0x30
abbrev CORE_EVT_NANBLOCK : Nat := 0x34
abbrev CORE_STALL_REMOTE : Nat := 0x38
abbrev CORE_STALL_LOCAL : Nat := 0x3C
abbrev CORE_SCHAN : Nat := 0x40
abbrev CORE_RCHAN : Nat := 0x80
abbrev CORE_BARID : Nat := 0xC0
abbrev CORE_SHD : Nat := 0x100
abbrev CORE_SHD_SEQ : Nat := 0x118
abbrev CORE_ISTORE : Nat := 0x8000
abbrev SPD_STATUS : Nat := 0x0
abbrev SPD_CLR_CTRL : Nat := 0x4
abbrev SPD_CLR_STATUS : Nat := 0x8
abbrev SPD_BIST_CTRL : Nat := 0xC
abbrev SPD_BIST_STATUS : Nat := 0x10
abbrev SPD_ECC_CE : Nat := 0x14
abbrev SPD_ECC_UE : Nat := 0x18
abbrev SPD_ECC_LAST : Nat := 0x1C
abbrev SPD_ACC_ERR : Nat := 0x20
abbrev SPD_SHD_SEQ : Nat := 0x24
abbrev SPD_ECC_CE_SHD : Nat := 0x28
abbrev SPD_ECC_UE_SHD : Nat := 0x2C
abbrev SPD_MACC : Nat := 0x40
abbrev SPD_WIN : Nat := 0x1000
abbrev SPD_CONF : Nat := 0x4000
abbrev SPD_CONF_SHD : Nat := 0x6000
abbrev ATP_STATUS : Nat := 0x0
abbrev ATP_CTRL : Nat := 0x4
abbrev ATP_PHASE : Nat := 0x8
abbrev ATP_CFG : Nat := 0xC
abbrev ATP_DQ_STATUS : Nat := 0x10
abbrev ATP_AQ_STATUS : Nat := 0x14
abbrev ATP_TQ_STATUS : Nat := 0x18
abbrev ATP_ERR_LAST : Nat := 0x1C
abbrev ATP_ERR_COUNT : Nat := 0x20
abbrev ATP_JOBS_DONE : Nat := 0x24
abbrev ATP_APP_DONE : Nat := 0x28
abbrev ATP_TOK_DONE : Nat := 0x2C
abbrev ATP_EVT_MALFORMED : Nat := 0x30
abbrev ATP_EVT_NANROW : Nat := 0x34
abbrev ATP_EVT_EMPTYROW : Nat := 0x38
abbrev ATP_EVT_SATURATE : Nat := 0x3C
abbrev ATP_EVT_NANBLOCK : Nat := 0x40
abbrev ATP_EVT_KIB : Nat := 0x44
abbrev ATP_SHD_SEQ : Nat := 0x48
abbrev ATP_EVT_SHD : Nat := 0x50
abbrev ATP_LCLASS : Nat := 0x80
abbrev ATP_DQW : Nat := 0x100
abbrev ATP_DQ_PUSH : Nat := 0x120
abbrev ATP_AQW : Nat := 0x140
abbrev ATP_AQ_PUSH : Nat := 0x160
abbrev ATP_TQW : Nat := 0x180
abbrev ATP_TQ_PUSH : Nat := 0x1A0
abbrev TIER_STATUS : Nat := 0x0
abbrev TIER_CFG : Nat := 0x4
abbrev TIER_FREE : Nat := 0x8
abbrev TIER_DONATED : Nat := 0x18
abbrev TIER_CHECK_FAIL : Nat := 0x1C
abbrev TIER_SHD_SEQ : Nat := 0x20
abbrev TIER_SHD : Nat := 0x40
abbrev TIER_D_CMD : Nat := 0x0
abbrev TIER_D_PUSH : Nat := 0x10
abbrev TIER_D_RESULT0 : Nat := 0x14
abbrev TIER_D_RESULT : Nat := 0x18
abbrev TIER_D_MIN : Nat := 0x20
abbrev TIER_D_USED : Nat := 0x30
abbrev TIER_D_EVICT : Nat := 0x40
abbrev TIER_D_COLD : Nat := 0x44
abbrev TIER_D_PROMO_LATE : Nat := 0x48
abbrev TIER_D_STALE_RD : Nat := 0x4C
abbrev TIER_D_SHD_SEQ : Nat := 0x50
abbrev TIER_D_SHD : Nat := 0x60
abbrev HBM_STATUS : Nat := 0x0
abbrev HBM_KEYSLOTS : Nat := 0x4
abbrev HBM_SCRUB : Nat := 0x8
abbrev HBM_TEMP : Nat := 0xC
abbrev HBM_ECC_CE : Nat := 0x10
abbrev HBM_ECC_UE : Nat := 0x14
abbrev HBM_ECC_LAST : Nat := 0x18
abbrev HBM_STALE_RD : Nat := 0x1C
abbrev HBM_SHD_SEQ : Nat := 0x20
abbrev HBM_SHD : Nat := 0x24
abbrev COU_STATUS : Nat := 0x0
abbrev COU_CTRL : Nat := 0x4
abbrev COU_PHASE : Nat := 0x8
abbrev COU_CFG : Nat := 0xC
abbrev COU_OVF_IN_L : Nat := 0x10
abbrev COU_OVF_IN_H : Nat := 0x14
abbrev COU_OVF_OUT_L : Nat := 0x18
abbrev COU_OVF_OUT_H : Nat := 0x1C
abbrev COU_OVF_ROWS : Nat := 0x20
abbrev COU_GEN : Nat := 0x24
abbrev COU_ERR_LAST : Nat := 0x28
abbrev COU_ERR_COUNT : Nat := 0x2C
abbrev COU_EVT_TOKENS : Nat := 0x30
abbrev COU_EVT_ROWS : Nat := 0x34
abbrev COU_EVT_POOL : Nat := 0x38
abbrev COU_EVT_DROPS : Nat := 0x3C
abbrev COU_EVT_EMPTY : Nat := 0x40
abbrev COU_EVT_NANTOKEN : Nat := 0x44
abbrev COU_STEP_DROPS : Nat := 0x48
abbrev COU_SHD_SEQ : Nat := 0x4C
abbrev COU_EVT_SHD : Nat := 0x50
abbrev COU_DW : Nat := 0x100
abbrev COU_PUSH : Nat := 0x140
abbrev COU_Q_STATUS : Nat := 0x144
abbrev DRV_STATUS : Nat := 0x0
abbrev DRV_EFF : Nat := 0x4
abbrev DRV_SHARE : Nat := 0x10
abbrev DRV_EVT_KIB_STORED : Nat := 0x80
abbrev DRV_EVT_CRC_FAIL : Nat := 0x84
abbrev DRV_EVT_REREAD : Nat := 0x88
abbrev DRV_EVT_REJECT : Nat := 0x8C
abbrev DRV_SHD_SEQ : Nat := 0x90
abbrev DRV_SHD : Nat := 0xA0
abbrev DRV_D_STATUS : Nat := 0x0
abbrev DRV_D_CTRL : Nat := 0x4
abbrev DRV_D_TABLE_L : Nat := 0x8
abbrev DRV_D_TABLE_H : Nat := 0xC
abbrev DRV_D_PLAN_L : Nat := 0x10
abbrev DRV_D_PLAN_H : Nat := 0x14
abbrev DRV_D_ERR_LAST : Nat := 0x18
abbrev DRV_D_ERR_COUNT : Nat := 0x1C
abbrev DRV_D_CANCELLED : Nat := 0x20
abbrev DRV_D_LATE : Nat := 0x24
abbrev DRV_D_KIB_STORED : Nat := 0x28
abbrev DRV_D_KIB_WRITTEN : Nat := 0x2C
abbrev DRV_D_WSTATE : Nat := 0x30
abbrev DRV_D_SHD_SEQ : Nat := 0x38
abbrev DRV_D_SHD : Nat := 0x40
abbrev INN_STATUS : Nat := 0x0
abbrev INN_CTRL : Nat := 0x4
abbrev INN_CAL_USED : Nat := 0x8
abbrev INN_D_STATUS : Nat := 0x0
abbrev INN_D_FREQ : Nat := 0x4
abbrev INN_D_RESERVE : Nat := 0x8
abbrev INN_D_SESSIONS : Nat := 0xC
abbrev INN_D_PLANNED : Nat := 0x10
abbrev INN_D_REFUSE_LAST : Nat := 0x14
abbrev INN_D_ACCEPTED : Nat := 0x18
abbrev INN_D_REFUSED : Nat := 0x1C
abbrev INN_D_FAILED : Nat := 0x20
abbrev INN_D_LATE : Nat := 0x24
abbrev INN_D_DROPS : Nat := 0x28
abbrev INN_D_STEPS : Nat := 0x2C
abbrev INN_D_SHD_SEQ : Nat := 0x30
abbrev INN_D_SHD : Nat := 0x40
abbrev PKG_IMG_D_ADDR_L : Nat := 0x0
abbrev PKG_IMG_D_ADDR_H : Nat := 0x4
abbrev PKG_IMG_D_LEN : Nat := 0x8
abbrev PKG_IMG_D_CMD : Nat := 0xC
abbrev PKG_IMG_D_STATUS : Nat := 0x10
abbrev PKG_IMG_D_WHERE : Nat := 0x14
abbrev PKG_IMG_D_GEN : Nat := 0x18
abbrev PKG_IMG_D_DIGEST : Nat := 0x20
abbrev RGL_D_CFG : Nat := 0x0
abbrev RGL_D_KIB : Nat := 0x4
abbrev RGL_D_WAIT : Nat := 0x8
abbrev RGL_D_KIB_SHD : Nat := 0x10
abbrev RGL_D_WAIT_SHD : Nat := 0x14
abbrev RGL_SHD_SEQ : Nat := 0xF200
abbrev RGN_OWNER : Nat := 0x200
abbrev RGN_MOVE_CTRL : Nat := 0x204
abbrev RGN_MOVE_STATUS : Nat := 0x208
abbrev PKG_PART_CMD : Nat := 0x100
abbrev PKG_PART_STATUS : Nat := 0x140
abbrev PKG_JOB_D_CTRL : Nat := 0x80
abbrev PKG_JOB_D_AT_L : Nat := 0x84
abbrev PKG_JOB_D_AT_H : Nat := 0x88
abbrev PKG_JOB_D_STATUS : Nat := 0x8C
abbrev TLK_STATUS : Nat := 0x0
abbrev TLK_CTRL : Nat := 0x4
abbrev TLK_PARTNER : Nat := 0x8
abbrev TLK_LANE_LOCK : Nat := 0xC
abbrev TLK_LANE_MAP : Nat := 0x10
abbrev TLK_DELAY : Nat := 0x14
abbrev TLK_FEC_CORR : Nat := 0x18
abbrev TLK_FEC_UNCORR : Nat := 0x1C
abbrev TLK_REPLAY : Nat := 0x20
abbrev TLK_LANE_EVT : Nat := 0x24
abbrev TLK_DROPPED : Nat := 0x28
abbrev TLK_SHD_SEQ : Nat := 0x2C
abbrev TLK_SHD : Nat := 0x30
abbrev CNT_NOW_L : Nat := 0x0
abbrev CNT_NOW_H : Nat := 0x4
abbrev CNT_STATUS : Nat := 0x8
abbrev CNT_OFFSET : Nat := 0xC
abbrev CNT_RATE : Nat := 0x10
abbrev CNT_SYNC_LOSS : Nat := 0x14
abbrev CNT_WALL_OFS_L : Nat := 0x18
abbrev CNT_WALL_OFS_H : Nat := 0x1C
abbrev CNT_CMP_AT_L : Nat := 0x1000
abbrev CNT_CMP_AT_H : Nat := 0x1004
abbrev CNT_CMP_CFG : Nat := 0x1008
abbrev PCI_VF_STATUS : Nat := 0x0
abbrev PCI_VF_CTRL : Nat := 0x4
abbrev PCI_VF_SQ_BASE_L : Nat := 0x8
abbrev PCI_VF_SQ_BASE_H : Nat := 0xC
abbrev PCI_VF_SQ_SIZE : Nat := 0x10
abbrev PCI_VF_SQ_TAIL : Nat := 0x14
abbrev PCI_VF_SQ_HEAD : Nat := 0x18
abbrev PCI_VF_CQ_BASE_L : Nat := 0x20
abbrev PCI_VF_CQ_BASE_H : Nat := 0x24
abbrev PCI_VF_CQ_SIZE : Nat := 0x28
abbrev PCI_VF_CQ_HEAD : Nat := 0x2C
abbrev PCI_VF_CQ_TAIL : Nat := 0x30
abbrev PCI_VF_CQ_SHADOW_L : Nat := 0x34
abbrev PCI_VF_CQ_SHADOW_H : Nat := 0x38
abbrev PCI_VF_INT_COAL : Nat := 0x3C
abbrev PCI_VF_LOST_RECORDS : Nat := 0x40
abbrev PCI_VF_REFUSED : Nat := 0x44
abbrev PCI_VF_APERTURE_L : Nat := 0x48
abbrev PCI_VF_APERTURE_H : Nat := 0x4C
abbrev ETH_STATUS : Nat := 0x0
abbrev ETH_CTRL : Nat := 0x4
abbrev ETH_MODE : Nat := 0x8
abbrev ETH_FAB_MAC_L : Nat := 0x10
abbrev ETH_FAB_MAC_H : Nat := 0x14
abbrev ETH_WALL_OFS_L : Nat := 0x18
abbrev ETH_WALL_OFS_H : Nat := 0x1C
abbrev ETH_FEC_CORR : Nat := 0x20
abbrev ETH_FEC_UNCORR : Nat := 0x24
abbrev ETH_RX_DROP : Nat := 0x28
abbrev ETH_SHD_SEQ : Nat := 0x2C
abbrev ETH_SHD : Nat := 0x30
abbrev ETH_D_MAC_L : Nat := 0x0
abbrev ETH_D_MAC_H : Nat := 0x4
abbrev ETH_D_TXQ_BASE_L : Nat := 0x8
abbrev ETH_D_TXQ_BASE_H : Nat := 0xC
abbrev ETH_D_TXQ_TAIL : Nat := 0x10
abbrev ETH_D_TXQ_HEAD : Nat := 0x14
abbrev ETH_D_RXQ_BASE_L : Nat := 0x18
abbrev ETH_D_RXQ_BASE_H : Nat := 0x1C
abbrev ETH_D_RXQ_TAIL : Nat := 0x20
abbrev ETH_D_RXQ_HEAD : Nat := 0x24
abbrev ETH_D_QSIZE : Nat := 0x28
abbrev SMF_STATUS : Nat := 0x0
abbrev SMF_CFG : Nat := 0x4
abbrev SMF_PREFIX_L : Nat := 0x8
abbrev SMF_PREFIX_H : Nat := 0xC
abbrev SMF_RTT_MAX : Nat := 0x10
abbrev SMF_TIMEOUTS : Nat := 0x14
abbrev SMF_RETX : Nat := 0x18
abbrev SMF_ORPHANED : Nat := 0x1C
abbrev SMF_SHD_SEQ : Nat := 0x20
abbrev SMF_SHD : Nat := 0x24
abbrev SMF_PEER : Nat := 0x400
abbrev SMF_D_CMD : Nat := 0x0
abbrev SMF_D_PUSH : Nat := 0x18
abbrev SMF_D_RESULT0 : Nat := 0x1C
abbrev SMF_D_RESULT : Nat := 0x20
abbrev PWR_STATUS : Nat := 0x0
abbrev PWR_CAP : Nat := 0x4
abbrev PWR_FLOOR : Nat := 0x8
abbrev PWR_PKG_W : Nat := 0xC
abbrev PWR_IDLE : Nat := 0x10
abbrev PWR_RGN_CTRL : Nat := 0x40
abbrev PWR_RGN_STATUS : Nat := 0x80
abbrev PWR_RGN_TRIM : Nat := 0xC0
abbrev PWR_D_ENERGY_L : Nat := 0x0
abbrev PWR_D_ENERGY_H : Nat := 0x4
abbrev PWR_D_SHARE : Nat := 0x8
abbrev PWR_D_BUDGET : Nat := 0xC
abbrev PWR_D_CEIL : Nat := 0x10
abbrev PWR_D_STRETCH : Nat := 0x14
abbrev PWR_D_SHD_SEQ : Nat := 0x18
abbrev PWR_D_ENERGY_SHD_L : Nat := 0x20
abbrev PWR_D_ENERGY_SHD_H : Nat := 0x24
abbrev THM_STATUS : Nat := 0x0
abbrev THM_CTRL : Nat := 0x4
abbrev THM_LIMITS : Nat := 0x8
abbrev THM_MAX : Nat := 0xC
abbrev THM_EVENTS : Nat := 0x10
abbrev THM_RGN : Nat := 0x40
abbrev CLK_STATUS : Nat := 0x0
abbrev CLK_PLL_LOCK : Nat := 0x4
abbrev CLK_REF_LOSS : Nat := 0x8
abbrev LDG_STATUS : Nat := 0x0
abbrev LDG_CTRL : Nat := 0x4
abbrev LDG_HEAD : Nat := 0x8
abbrev LDG_TAIL : Nat := 0xC
abbrev LDG_LOST : Nat := 0x10
abbrev LDG_FOLDED : Nat := 0x14
abbrev LDG_PERIOD : Nat := 0x18
abbrev LDG_ALERT_LVL : Nat := 0x1C
abbrev LDG_REC_IDX : Nat := 0x20
abbrev LDG_REC : Nat := 0x40
abbrev LDG_SNAP_AT_L : Nat := 0x100
abbrev LDG_SNAP_AT_H : Nat := 0x104
abbrev LDG_SNAP_CMD : Nat := 0x108
abbrev LDG_SNAP_STATUS : Nat := 0x10C
abbrev LDG_SNAP_MISSED : Nat := 0x110
abbrev LDG_D_SNAP_AT_L : Nat := 0x0
abbrev LDG_D_SNAP_AT_H : Nat := 0x4
abbrev LDG_D_SNAP_CMD : Nat := 0x8
abbrev LDG_D_SNAP_STATUS : Nat := 0xC
abbrev LDG_D_SNAP_MISSED : Nat := 0x10
abbrev LDG_D_REC_IDX : Nat := 0x14
abbrev LDG_D_REC : Nat := 0x20
abbrev INJ_STATUS : Nat := 0x0
abbrev INJ_CTRL : Nat := 0x4
abbrev INJ_DETECTOR : Nat := 0x8
abbrev INJ_TARGET : Nat := 0xC
abbrev INJ_ADDR_L : Nat := 0x10
abbrev INJ_ADDR_H : Nat := 0x14
abbrev INJ_PATTERN : Nat := 0x18
abbrev INJ_COUNT : Nat := 0x1C
abbrev TMX_SEL : Nat := 0x0
abbrev TMX_STATUS : Nat := 0x10
abbrev SEC_STATUS : Nat := 0x0
abbrev SEC_FW_VERSION : Nat := 0x4
abbrev SEC_DBG_CMD : Nat := 0x10
abbrev SEC_DBG_STATUS : Nat := 0x14
abbrev SEC_DBG_CHAL : Nat := 0x20
abbrev SEC_DBG_ADDR_L : Nat := 0x40
abbrev SEC_DBG_ADDR_H : Nat := 0x44
abbrev SEC_DBG_LEN : Nat := 0x48
abbrev SEC_D_STATUS : Nat := 0x0
abbrev SEC_D_CTRL : Nat := 0x4
abbrev SEC_D_QADDR_L : Nat := 0x8
abbrev SEC_D_QADDR_H : Nat := 0xC
abbrev SEC_D_NONCE : Nat := 0x10
abbrev SEC_D_NOT_AFTER_L : Nat := 0x30
abbrev SEC_D_NOT_AFTER_H : Nat := 0x34
abbrev MGT_STATUS : Nat := 0x0
abbrev MGT_AUTH_SET : Nat := 0x4
abbrev NPT_STATUS : Nat := 0x0
abbrev NPT_MBOX_CMD : Nat := 0x4
abbrev NPT_MBOX_STATUS : Nat := 0x8
abbrev NPT_MBOX_DATA : Nat := 0x100
abbrev PKG_STRAPS : Nat := 0x4
abbrev PKG_RESET_CAUSE : Nat := 0x8
abbrev PKG_SUPPLY : Nat := 0xC

/-- PKG_REVISION (R5, Table 0-3): the fused fields are free values (log entry 2). -/
def pkgRevision : Word32 :=
  BitVec.ofNat 32 (0x02000001 + Config.stepMajor.toNat * 2 ^ 20 + Config.stepMinor.toNat * 2 ^ 16
    + (if Config.variantQ then 2 else 1) * 2 ^ 12)

/-- Whether an offset lies in the dye pages and is offset o of its page. -/
def inPage (off o : Nat) : Bool := decide (0x1000 ≤ off) && decide (off < 0x2000) && decide (off % 0x100 = o)

/-- What a register reads as after reset (the Reset columns); 0 where a table gives 0 or an offset has no register. -/
def regReset (k : Nat) : Word32 :=
  let w := k / 0x10000
  let o := k % 0x10000
  if w = 0 then
    (if o = PKG_REVISION then pkgRevision
     else if o = PKG_STRAPS then 0x3F        -- open straps, log entry 7
     else 0)
  else if w = 1 then (if inPage o INN_D_RESERVE then 0x32 else 0)
  else if w = 3 then
    (if o = PWR_STATUS then 1 else if o = PWR_CAP then 0xAF0 else if o = PWR_FLOOR then 0x28A
     else if 0x80 ≤ o ∧ o < 0xC0 ∧ o % 4 = 0 then 0x1B else if inPage o PWR_D_SHARE then 1 else 0)
  else if w = 4 then (if o = CLK_STATUS then 7 else 0)
  else if w = 5 then (if o = THM_LIMITS then 0x6E645F else 0)
  else if w = 6 then (if o = LDG_ALERT_LVL then 4 else 0)
  else if w = 9 then (if o = SEC_FW_VERSION then Config.shippedVersion else 0)
  else if w = 13 ∨ w = 14 then (if inPage o ETH_D_QSIZE then 0xCC else 0)
  else if w = 22 then (if o = TIER_CFG then 0x7D0 else 0)
  else if 27 ≤ w ∧ w < 35 then (if o = DRV_EFF then 0xE0 else 0)
  else if 35 ≤ w ∧ w < 43 then (if o = HBM_SCRUB then 0x18 else 0)
  else if 59 ≤ w ∧ w < 75 then
    (if o = ATP_DQ_STATUS then 0x1000 else if o = ATP_AQ_STATUS then 0x400 else if o = ATP_TQ_STATUS then 0x100 else 0)
  else if 75 ≤ w ∧ w < 91 then (if o = COU_Q_STATUS then 0x20 else 0)
  else if 91 ≤ w ∧ w < 107 then (if o = SPD_CLR_STATUS then 0x04400013 else 0)
  else if 1387 ≤ w then
    (if o = PCI_VF_SQ_SIZE then 0xC else if o = PCI_VF_CQ_SIZE then 0xE else if o = PCI_VF_INT_COAL then 1 else 0)
  else 0

end Sys2Proof.Machine
end

