-- ==== Sys2Proof/Machine/State.lean ====
section
/-! DEFINITION. The state of the block, as plain data: every register of the spec's register tables (in one sparse
table keyed by window and offset), every memory, queue, buffer, counter, mode and pin, the commands that are waiting,
and the outcomes of a step. A field's default value is its value after reset. -/

namespace Sys2Proof.Machine

/-- Why a step stops with a fault. -/
inductive Fault where
  /-- Raised by exec for a command whose operands no sender can form: a list of the wrong length. Safe: the block never
  sees such a command. -/
  | malformedCommand
  deriving DecidableEq, Repr

/-- Why a command has no meaning here. -/
inductive Refusal where
  /-- Raised by exec for a row of the opcode table that has no meaning yet. Safe: nothing is claimed of it. -/
  | notModelled (mnemonic : String)
  deriving DecidableEq, Repr

/-! ### The core (R56 to R90) -/

/-- CORE_STATUS.STATE (Table 3-13). -/
inductive RunState where
  | idle | running | gate | stopped | abandoned | halted | faulted
  deriving DecidableEq, Repr, Inhabited

/-- A place of the loop stack (R60): the first and the last word of the body, and the rounds left, this one included. -/
structure LoopEnt where
  first : Nat
  last : Nat
  left : Nat
  deriving DecidableEq, Repr, Inhabited

/-- What a checkpoint holds (R78): S1 to S31, A0 to A15, P1 to P7, the PC, the loop stack, the tile index, the counts
of sends issued and buffers posted per channel and of barrier arrivals per barrier number. -/
structure Ckpt where
  sregs : Tab Word64 := []
  aregs : Tab Addr := []
  preds : BitVec 8 := 0
  pc : Nat := 0
  loops : List LoopEnt := []
  tile : Nat := 0
  sends : Tab Nat := []
  posts : Tab Nat := []
  arrivals : Tab Nat := []
  deriving DecidableEq, Repr, Inhabited

/-- A weight buffer: the FMT of the latest MLOAD issued into it since the registers were last zeroed (R65), and the
block that the latest finished MLOAD left. -/
structure WBuf where
  issued : Option Nat := none
  fmt : Nat := 0
  block : List Byte := []
  deriving DecidableEq, Repr, Inhabited

/-- An entry of the 4-entry matrix queue (R67), with its offset in the own slice and the PC that issued it. -/
inductive MOp where
  | mload (wb : Bool) (fmt : Nat) (ofs : Nat) (pc : Nat)
  | mma (wb : Bool) (fmt : Nat) (ofs : Nat) (bank : Nat) (accum : Bool) (row0 m next : Nat) (pc : Nat)
  deriving DecidableEq, Repr, Inhabited

/-- An entry of the 8-entry transfer queue (R70): a DMA under a tag, or a SEND on a channel. -/
structure Xfer where
  send : Bool
  num : Nat
  src : Addr
  dst : Addr := 0
  bytes : Nat
  rows : Nat := 1
  srcStride : Nat := 0
  dstStride : Nat := 0
  pc : Nat
  seq : Nat := 0
  epoch : Byte := 0
  remote : Bool := false
  /-- It has taken its turn; the epoch of the credit a SEND holds (R84). -/
  started : Bool := false
  cepoch : Byte := 0
  deriving DecidableEq, Repr, Inhabited

/-- A credit held for a send channel: the number of the message it is for (Table 12-4: the buffers posted so far less one),
capacity and the epoch of the receiver (R72, R84). It is kept for a replay of the SEND. -/
structure Credit where
  num : Nat
  cap : Nat
  epoch : Byte
  deriving DecidableEq, Repr, Inhabited

/-- A buffer posted on a receive channel: offset in the own slice, capacity, the message number it takes, the epoch of its
credit, and the length received once it is full. -/
structure Posted where
  ofs : Nat
  cap : Nat
  seq : Nat
  epoch : Byte := 0
  filled : Option Nat := none
  /-- Bytes of a message from another package that have come (R275). -/
  got : Nat := 0
  /-- The PC of the RECV that posted it. -/
  pc : Nat := 0
  deriving DecidableEq, Repr, Inhabited

/-- A message that was delivered, kept for a replay of its tile (R85). -/
structure Delivered where
  ch : Nat
  seq : Nat
  data : List Byte
  deriving DecidableEq, Repr, Inhabited

/-- The instruction that the core is blocked on: its opcode and its word's fields (format X or B). -/
inductive Blocked where
  | x (op : Nat) (w : XWord)
  | b (op : Nat) (w : BWord)
  deriving DecidableEq, Repr, Inhabited

/-- One core (R56, R57, R88). -/
structure CoreSt where
  run : RunState := .idle
  stopPend : Bool := false
  remoteWait : Bool := false
  fault : Byte := 0
  epoch : Byte := 0
  tgroup : Word32 := 0
  pc : Nat := 0
  tile : Nat := 0
  tileLimit : Word32 := 0x4B00
  tileMax : Word32 := 0
  faultPc : Word32 := 0
  faultInfo : Word32 := 0
  evInvalid : Word32 := 0
  evOverflow : Word32 := 0
  evSaturate : Word32 := 0
  evNanBlock : Word32 := 0
  stallRemote : Word32 := 0
  stallLocal : Word32 := 0
  schan : Tab Word32 := []
  rchan : Tab Word32 := []
  barid : Tab Word32 := []
  shd : Tab Word32 := []
  shdSeq : Word32 := 0
  /-- The instruction store: the words of the loaded program (R60). -/
  istore : List Word64 := []
  sregs : Tab Word64 := []
  aregs : Tab Addr := []
  preds : BitVec 8 := 0
  vregs : Tab (BitVec 2048) := []
  loops : List LoopEnt := []
  ckpt : Ckpt := {}
  wb0 : WBuf := {}
  wb1 : WBuf := {}
  mq : List MOp := []
  xq : List Xfer := []
  /-- Sends that left the queue for another package and await their acknowledgement (R73). -/
  sent : List Xfer := []
  /-- Refused sends that wait for a credit again (R84). -/
  refusedSends : List Xfer := []
  /-- Tags and channels under which a transfer completed with an error (R68, R73). -/
  errTags : BitVec 8 := 0
  errSends : BitVec 16 := 0
  /-- Tags whose DMAs in flight touch tier 2 or tier 3, and tags under which the present tile issued such a DMA (R82). -/
  remoteTags : BitVec 8 := 0
  tileTags : BitVec 8 := 0
  sends : Tab Nat := []
  posts : Tab Nat := []
  arrivals : Tab Nat := []
  delivered : Tab Nat := []
  deliveredLog : List Delivered := []
  credits : Tab (List Credit) := []
  posted : Tab (List Posted) := []
  blocked : Option Blocked := none
  /-- Issue has stopped for an abandonment that is not complete (Table 3-9). -/
  abandoning : Bool := false
  /-- Counter values at the step's start, the tile's start and the start of the wait (for the cycle counts). -/
  stepAt : Nat := 0
  tileAt : Nat := 0
  waitAt : Nat := 0
  /-- The counter value at which the stop that is pending began: the watchdog is frozen from it on (R77). -/
  stopAt : Nat := 0
  /-- A write or alias has reached the word that a SEMWAIT waits on since it was read last (R74). -/
  semHit : Bool := false
  deriving DecidableEq, Repr, Inhabited

/-- A barrier group on this package (R75): generations completed, the members arrived in the present one, the packages
whose packet of a generation has come, and the counter values of the first and the last arrival. -/
structure BarrierSt where
  gen : Nat := 0
  arrived : List CoreId := []
  packets : List (SlotNo × Nat) := []
  firstAt : Nat := 0
  lastAt : Nat := 0
  deriving DecidableEq, Repr, Inhabited

/-! ### The scratchpad (R91 to R112) -/

/-- An access that waits for its bank (R93): the word, the bytes of it, the master's index and how long it has
waited. -/
structure BankReq where
  core : CoreId
  word : Nat
  first : Nat
  acc : Access
  idx : Nat
  master : Master
  age : Nat := 0
  deriving DecidableEq, Repr, Inhabited

/-- Why a region is cleared (Table 4-8, CAUSE). -/
inductive ClrCause where
  | request | wake | kill | move | classChange
  deriving DecidableEq, Repr, Inhabited

/-- A write of SPD_WINk_n that changes a class and waits, with the region controller held, until no clear is pending or in progress
(R98). -/
structure HeldWin where
  region : RegionNo
  pos : CorePos
  win : Fin 8
  value : Word32
  deriving DecidableEq, Repr, Inhabited

/-- A clear: the whole region, or rows first to last of one core or of every core (Table 4-7). -/
structure Clear where
  whole : Bool
  core : Option CorePos := none
  first : Nat := 0
  last : Nat := 511
  cause : ClrCause
  /-- The counter value at its start (Table 4-6). -/
  since : Nat := 0
  deriving DecidableEq, Repr, Inhabited

/-- The background tester of a slice (R105, R106): the row it tests or will test next, whether that row is redirected to the test
buffer now, the row that stays redirected for good, and the words of the row that are marked as copied into the buffer. The buffer's
bytes and their errors stand in sram and spdErr above those of the slices. -/
structure Bist where
  row : Nat := 0
  active : Bool := false
  failed : Option Nat := none
  marks : List Nat := []
  deriving DecidableEq, Repr, Inhabited

/-! ### The Ledger (R324 to R340) -/

/-- A Ledger record (Table 15-3). -/
structure LdgRec where
  type : BitVec 4
  detector : Byte
  dye : Dye
  severity : Nat
  region : RegionNo := 0
  core : Option CorePos := none
  lcoord : BitVec 16 := 0
  injected : Bool := false
  confirmed : Bool := false
  time : Nat := 0
  count : Nat := 1
  last : Nat := 0
  detail : List Nat := []
  seq : Nat := 0
  deriving DecidableEq, Repr, Inhabited

/-- A histogram with its extreme that are not yet committed: the kind (a number of the model), dye, unit, buckets, the smallest and the
largest value. -/
structure HistRec where
  kind : Nat
  dye : Dye
  unit : Nat
  buckets : List Nat
  firstAt : Nat
  lo : Nat := 0
  hi : Nat := 0
  deriving DecidableEq, Repr, Inhabited

/-- What the last access or read answered its issuer: whether it was refused and how, the poison flag, and data. -/
structure Resp where
  permission : Bool := false
  size : Bool := false
  address : Bool := false
  poison : Bool := false
  data : List Byte := []
  deriving DecidableEq, Repr, Inhabited

/-! ### Attention and token pipelines (R113 to R137) -/

/-- A pipeline's queues of descriptors, the arrival masks of its merge slots (R124), and the KV bytes read that do not
yet make a KiB; the descriptors of an interrupted phase that the region controller issues again at the resume, each with its unit's
number (R135). -/
structure AtpSt where
  dq : List Word256 := []
  aq : List Word256 := []
  tq : List Word256 := []
  masks : Tab Nat := []
  /-- The session slot of the split that arrived last at each merge slot. -/
  mergeSess : Tab Nat := []
  kvRem : Nat := 0
  reissue : List (Nat × Word256) := []
  deriving DecidableEq, Repr, Inhabited

/-- Page tables as they lie in HBM (R144), by offsets of local HBM: the layer root (0 where there is none yet), the frames of KIND 1 and
the granules of them in use, the L1 table of each layer, the L2 table of each layer * 64 + i. -/
structure TabDir where
  root : Nat := 0
  frames : List Nat := []
  used : Nat := 0
  l1 : Tab Nat := []
  l2 : Tab Nat := []
  deriving DecidableEq, Repr, Inhabited

/-- A session context on this package (R204, R205): the session, its sampling parameters and seed, its class, the most
positions it may have, its committed length, its home die, whether its KV is cold, and its page tables with the layer-root address. -/
structure Ctx where
  id : Nat
  cls : Nat := 0
  temp : Word32 := 0
  topK : Nat := 0
  topP : Word32 := 0x3F800000
  seed : Word64 := 0
  maxLen : Nat := 0
  len : Nat := 0
  home : Fin 2 := 0
  cold : Bool := false
  dir : TabDir := {}
  deriving DecidableEq, Repr, Inhabited

/-! ### HBM, KV pages and tiers (R138 to R163) -/

/-- A frame table entry (Table 6-1): state 0 FREE, 1 OWNED, 2 SHARED_RO, 3 DONATED, 4 PRIVATE. -/
structure Frame where
  owner : Dye := 0
  state : Nat := 0
  stale : BitVec 16 := 0xFFFF
  kind : Nat := 0
  deriving DecidableEq, Repr, Inhabited

/-- What an unlisted frame is once the night porter has written the table (R140). -/
def frameReset (f : Nat) : Frame :=
  if 16771072 ≤ f then { state := 4, stale := 0 } else {}

/-- A page-table entry of a session or of a shared-page array (Table 6-4), in field form. -/
structure Pte where
  tier : Nat := 1
  ro : Bool := false
  cold : Bool := false
  busy : Bool := false
  frame : Word32 := 0
  touch : Word32 := 0
  prefixIdx : Word32 := 0
  deriving DecidableEq, Repr, Inhabited

/-- A prefix record (R147 to R150), with its own tables as a list of (layer, page, shared-page index) and as they lie in HBM, the die of
its pages, and whether it has lost a page. -/
structure PrefixRec where
  live : Bool := false
  len : Nat := 0
  gen : Nat := 0
  count : Nat := 0
  retired : Bool := false
  released : Bool := false
  table : List (Nat × Nat × Nat) := []
  home : Fin 2 := 0
  dir : TabDir := {}
  lost : Bool := false
  deriving DecidableEq, Repr, Inhabited

/-- A page move in progress (R143): the page (session slot, or none for a shared page of index `page`), from tier to
tier, and what asked for it: 0 admission, 1 background, 2 a suspend hint or an idle region, 3 resume; the page's entry, where its tables are gone and the move
only finishes the page in progress (Table 6-6). -/
structure PageMove where
  dye : Dye
  session : Option Nat
  layer : Nat
  page : Nat
  fromTier : Nat
  toTier : Nat
  cause : Nat
  orphan : Option Pte := none
  deriving DecidableEq, Repr, Inhabited

/-- A promoted page that stays pinned until a counter value (R159): the session it was promoted for, and the page's key in the session
tables, or its shared-page index. -/
structure PagePin where
  dye : Dye
  session : Nat
  shared : Bool
  key : Nat
  until_ : Nat
  deriving DecidableEq, Repr, Inhabited

/-- The copy of a fork's partial page that waits for a frame of its reservation (R149, R155). -/
structure ForkCopy where
  dye : Dye
  slot : Nat
  layer : Nat
  page : Nat
  index : Nat
  len : Nat
  deriving DecidableEq, Repr, Inhabited

/-- A hint in force (R158, R159). -/
structure Hint where
  dye : Dye
  session : Nat
  resume : Bool
  tier : Nat := 0
  at_ : Nat := 0
  x : Nat := 0
  start : Nat := 0
  started : Bool := false
  deriving DecidableEq, Repr, Inhabited

/-- A tier-3 buffer given by a host runtime (R154): its host address, and whether it holds a page. -/
structure HostBuf where
  dye : Dye
  addr : Word64
  used : Bool := false
  deriving DecidableEq, Repr, Inhabited

/-- A donated 2 MiB segment that another package leases from this one (R152), or a fabric segment (R299). -/
structure Segment where
  dye : Dye := 0
  /-- 0 FREE, 1 HELD, 2 ORPHANED; absent segments are not listed. -/
  state : Nat := 0
  holder : SlotNo := 0
  epoch : Byte := 0
  expiry : Nat := 0
  donated : Bool := false
  deriving DecidableEq, Repr, Inhabited

/-! ### The Couriers (R164 to R181) -/

/-- An entry of a selection record (R171). -/
structure SelEnt where
  expert : Nat
  gate : Word32
  dropped : Bool := false
  deriving DecidableEq, Repr, Inhabited

/-- A row that a home region has received: where it lies, and its return tag (R172). -/
structure CouTag where
  expert : Nat
  row : Nat
  pool : Bool
  gid : Nat
  rank : Nat
  deriving DecidableEq, Repr, Inhabited

/-- What a home region placed for one of its experts (R173). -/
structure Placed where
  expert : Nat
  nBuf : Nat
  nPool : Nat
  poolFirst : Nat
  deriving DecidableEq, Repr, Inhabited

/-- A count message that has come, with the exchange it belongs to (R172). -/
structure CountMsg where
  layer : Nat
  start : Nat
  pkg : Nat
  rgn : Nat
  counts : List (Nat × Nat)
  deriving DecidableEq, Repr, Inhabited

/-- A Courier (R164): its queue, and in its buffer the descriptor and record it serves, the selections by token, the
tokens that are NaN-routed, the counts and grants that have come, what it placed as a home, the rows that have
arrived, the experts whose list headers are written, the pairs that this source dropped in the exchange, and the
tokens' return rows and combined tokens. -/
structure CouSt where
  queue : List Word512 := []
  cur : Option Word512 := none
  route : Option RouteRecord := none
  /-- The descriptor failed before DISPATCH and is served with zero counts (R178). -/
  failed : Bool := false
  selDone : Bool := false
  sels : List (List SelEnt) := []
  nans : List Nat := []
  counts : List CountMsg := []
  placed : Option (List Placed) := none
  grants : List (Nat × Nat) := []
  tags : List CouTag := []
  headers : List Nat := []
  dropped : Nat := 0
  returned : List (Nat × Nat) := []
  poisoned : List Nat := []
  combined : List Nat := []
  lastLayer : Option Nat := none
  /-- The phase whose work is kept while HELD (R165); grants that wait for it. -/
  heldIn : Nat := 0
  grantQ : List (Nat × Nat × List Grant) := []
  /-- The descriptor's combine is done; what it holds stays for a replay (R179). -/
  done : Bool := false
  /-- The descriptor has failed and is counted (R178); a list header of it could not be written (R175). -/
  erred : Bool := false
  hdrBad : Bool := false
  deriving DecidableEq, Repr, Inhabited

/-! ### The Drover (R182 to R200) -/

/-- A stream that an engine has started: its place in the table and its entry, the START of the plan it runs under, the
granule it fetches next, bytes fetched and not yet decoded, chunks or bytes written, and whether its last byte is
written (R185 to R189). -/
structure ActiveStream where
  idx : Nat
  entry : Word512
  start : Nat
  granule : Nat := 0
  carry : List Byte := []
  chunk : Nat := 0
  written : Nat := 0
  complete : Bool := false
  deriving DecidableEq, Repr, Inhabited

/-- A stream of a step, by the START of its plan and its place in the table. -/
def ActiveStream.key (a : ActiveStream) : Nat × Nat := (a.start, a.idx)

/-- A buffer that a started stream holds until it is released (R186). -/
structure BufHeld where
  idx : Nat
  buf : Nat
  layer : Nat
  start : Nat
  deriving DecidableEq, Repr, Inhabited

/-- A dye's context on an engine: active streams, oldest first, and buffers held; the streams that have ended, were cancelled,
have failed, or have released their buffer, each by its plan's START and its place in the table; the addresses of the latest plan of
each lane (log entry 133); the stream that had the latest turn, whether its turn still lasts, and the turns that the dye has had in the
engine's round of 256 (R186, R187); whether its clear is in progress (R199). -/
structure DrvCtx where
  active : List ActiveStream := []
  held : List BufHeld := []
  ended : List (Nat × Nat) := []
  skipped : List (Nat × Nat) := []
  failed : List (Nat × Nat) := []
  released : List (Nat × Nat) := []
  planD : Nat := 0
  planP : Nat := 0
  turn : Option (Nat × Nat) := none
  midTurn : Bool := false
  turns : Nat := 0
  clearing : Bool := false
  deriving DecidableEq, Repr, Inhabited

/-- A weight set's frames and load (R183, R191, R193, R194): its first frame on each die that the image names and the frame count
there, its entry and units, the units that have passed on this package, the failures of each unit, the bytes of units that are
converted, and the stored granules that have failed, by their place in the set. -/
structure WsetSt where
  bases : List Nat
  frames : Nat
  set : ManifestSet
  units : List ManifestUnit
  passed : List Nat := []
  fails : Tab Nat := []
  source : Tab Byte := []
  bad : List Nat := []
  deriving DecidableEq, Repr, Inhabited

/-! ### The Innkeeper (R201 to R226) -/

/-- A session of a partition that this package fronts: its context slot and group, its class and MAX_LEN, its committed
length, and a CLOSE that waits for its last record (R204, R206, R150). -/
structure Session where
  id : Nat
  slot : Nat
  group : Nat
  cls : Nat
  maxLen : Nat
  len : Nat := 0
  home : Fin 2 := 0
  cold : Bool := false
  closing : Bool := false
  order : Nat := 0
  deriving DecidableEq, Repr, Inhabited

/-- An admitted work item without its last record: its fields, its rows in a step, the step that carries it, the
completion entries it still holds, whether it has had a LATE_PENDING failure, and for a FORK the index of its prefix
record. -/
structure Item where
  uid : Nat
  dye : Dye
  raw : Word512
  rows : Nat := 0
  step : Option Word32 := none
  start : Nat := 0
  entries : Nat := 3
  late : Bool := false
  /-- The bucket, the positions it appends at most, and the session's length before it as projected at admission. -/
  bucket : Nat := 0
  adds : Nat := 0
  base : Nat := 0
  deriving DecidableEq, Repr, Inhabited

/-- A failure that a region controller, a Courier or a Drover engine has reported to the Innkeeper for a step: of one session's work by
its context slot, or of every item of the step (R134, R174, R178, R191), with its reason. -/
structure FailRep where
  dye : Dye
  step : Word32
  session : Option Nat
  code : Nat
  deriving DecidableEq, Repr, Inhabited

/-- The states of a step (R211). -/
inductive StepState where
  | isOpen | sealed | running | reported
  deriving DecidableEq, Repr, Inhabited

/-- A batch step on the front package (R211 to R217). -/
structure Step where
  dye : Dye
  prefill : Bool
  number : Word32
  cls : Nat
  start : Nat
  price : Nat
  state : StepState := .isOpen
  items : List Nat := []
  fPrice : Nat := 0
  tTok : Nat := 0
  load : Nat := 0
  deriving DecidableEq, Repr, Inhabited

/-- A step's plan on this package (R213, R214): its plan, whether it runs, and the regions whose tile groups have not been started,
since streams of the first layer have not ended (R187). -/
structure PlanSt where
  plan : StepPlan
  running : Bool := false
  waits : List RegionNo := []
  deriving DecidableEq, Repr, Inhabited

/-- A phase that a region could not open at its point (R215), and whether a stream holds it (R187). -/
structure Held where
  pt : PlanPoint
  layer : Nat
  since : Nat
  stream : Bool := false
  deriving DecidableEq, Repr, Inhabited

/-- What the loader of a dye is doing (R239): the image once it has come, reports by package ordinal, the T_act that was
set. -/
structure LoadSt where
  image : Option Image := none
  origin : Bool := false
  reports : List Nat := []
  tAct : Option Nat := none
  deriving DecidableEq, Repr, Inhabited

/-! ### Partitions, moves and saves (R249 to R263) -/

/-- A region move (R253 to R257): its destination and source, when it was ordered, whether a claimant's Innkeeper
ordered it as a loan, whether the source's state is saved, and whether the move waits for an image load. -/
structure MoveSt where
  toDye : Dye
  fromDye : Dye
  at_ : Nat
  loan : Bool := false
  save : Bool := false
  deferred : Bool := false
  /-- It waits for the drain point that the source's front package fixes (R256). -/
  asked : Bool := false
  ordinal : Nat := 0
  began : Nat := 0
  deriving DecidableEq, Repr, Inhabited

/-- What a save writes for a region (R249): its cores, pipeline and Courier in the control record, the rows of VALID
windows and the accumulators as listed cells relative to the region, the marks of poisoned words, the row classes, and
the SPD_, ATP_ and COU_ registers. -/
structure SaveArea where
  region : RegionNo
  cores : List (Nat × CoreSt) := []
  atp : AtpSt := {}
  cou : CouSt := {}
  sram : List Host.Cell := []
  acc : List Host.Cell := []
  errs : Tab (BitVec 288) := []
  cls : Tab Bool := []
  spd : Tab Word32 := []
  atpRegs : Tab Word32 := []
  couRegs : Tab Word32 := []
  deriving DecidableEq, Repr, Inhabited

/-! ### Links, the system counter and its comparators (R264 to R285) -/

/-- What leaves the package over the tensor links, in order. -/
inductive LinkOut where
  | packet (p : LinkPacket)
  | control (dst : SlotNo) (m : ControlMsg)
  | freq (d : Dye) (f : Nat) (tsw : Word64)
  | freqAck (d : Dye)
  | lossNotice (slot : SlotNo) (link : Fin 6)
  | recable
  | pathLoss (dst : SlotNo)
  | plan (p : StepPlan)
  | image (dst : SlotNo) (img : Image)
  | wallOfs (v : Word64)
  | exchange (dst : SlotNo) (rgn : Nat) (kind : Nat) (x : ExTag) (data : List Nat)
  | bulk (dst : SlotNo) (d : Dye) (unit : Nat) (data : List Byte)
  | innkeeper (dst : SlotNo) (kind : Nat) (data : List Nat)
  deriving DecidableEq, Repr, Inhabited

/-- What leaves the host port: writes, read requests and MSI-X messages (R288, R292). -/
inductive HostOut where
  | write (d : Dye) (a : Word64) (data : List Byte)
  | read (d : Dye) (a : Word64) (n : Nat)
  | msix (d : Dye) (vector : Nat)
  deriving DecidableEq, Repr, Inhabited

/-- What an event of a calendar is for (R281). -/
inductive CalWhat where
  | stepStart (d : Dye) (step : Word32)
  | freq (d : Dye) (f : Nat)
  | snapMgmt
  | snapDye (d : Dye)
  | lease (seg : Nat)
  | jobGo (d : Dye)
  | jobResume (d : Dye)
  | tAct (d : Dye)
  | drain (r : RegionNo)
  deriving DecidableEq, Repr, Inhabited

/-- A comparator (R281, Table 12-9): 0 Innkeeper, 1 lease, 2 Ledger, 3 unclaimed. -/
structure Cmp where
  owner : Nat := 0
  armed : Bool := false
  late : Bool := false
  value : Nat := 0
  what : Option CalWhat := none
  deriving DecidableEq, Repr, Inhabited

/-- An event of an owner's calendar that no comparator holds. -/
structure CalEv where
  owner : Nat
  value : Nat
  what : CalWhat
  deriving DecidableEq, Repr, Inhabited

/-- What a link is doing beside what TLK_STATUS shows: the lasers, the lost lanes, whether the spare lane is in use or
still training, and a command that waits for the operation in progress (Table 12-6). -/
structure LinkSt where
  lasers : Bool := false
  lost : BitVec 17 := 0
  spareTraining : Bool := false
  swapLane : Option (Fin 17) := none
  trainedSlot : Option SlotNo := none
  waiting : Option Bool := none
  bestOf8 : Bool := false
  deriving DecidableEq, Repr, Inhabited

/-! ### The host port, Ethernet and the fabric engine (R286 to R303) -/

/-- Who issued a fabric request. -/
inductive FabIssuer where
  | command (d : Dye)
  | core (c : CoreId)
  | tier
  | lease (seg : Nat)
  /-- Its result is discarded (Table 13-11). -/
  | dropped
  deriving DecidableEq, Repr, Inhabited

/-- A fabric request without its response yet (R301). -/
structure FabReq where
  tag : Nat
  dst : SlotNo
  port : Fin 2
  packet : FabricPacket
  issuer : FabIssuer
  sentAt : Nat
  deriving DecidableEq, Repr, Inhabited

/-- What the fabric engine keeps for a slot and port (R297, R301): the next SEQ, the packets not acknowledged, the next
SEQ expected from the other end, and the responses of the last 256 requests with their SEQ. -/
structure FabPair where
  seq : Nat := 0
  unacked : List FabricPacket := []
  rxNext : Nat := 0
  cache : List (Nat × FabricPacket) := []
  deriving DecidableEq, Repr, Inhabited

/-- A completion record on its way to a ring (R291, R292): the record, and whether it is an EVENT. -/
structure PostRec where
  dye : Dye
  data : Word512
  event : Bool := false
  deriving DecidableEq, Repr, Inhabited

/-- A frame sent on an Ethernet port for a dye, with its source MAC and VLAN (R295). -/
structure EthOut where
  port : Fin 2
  dye : Dye
  mac : BitVec 48
  vlan : BitVec 12
  index : Nat
  deriving DecidableEq, Repr, Inhabited

/-- A lease that this package holds on a segment of another home (R299): for a dye, or for the tier manager's donated
granules (R152). -/
structure LeaseHeld where
  slot : SlotNo
  seg : Nat
  expiry : Nat
  dye : Dye := 0
  epoch : Byte := 0
  us : Nat := 0
  tier : Bool := false
  deriving DecidableEq, Repr, Inhabited

/-! ### Power, clocks and thermal control (R304 to R322) -/

/-- A clock stretch of a dye's regions on this package (R314): for a fast power limit at 1/2, else at 3/4, with the
frequency requested and the counter value of its start. -/
structure Stretch where
  fast : Bool
  freq : Nat
  since : Nat
  deriving DecidableEq, Repr, Inhabited

/-- A pin of the test multiplexer (R335): the selection that will drive it after SWITCHING, and one that waits. -/
structure TmxSt where
  next : Word32 := 0
  waiting : Option Word32 := none
  deriving DecidableEq, Repr, Inhabited

/-- A snapshot scope that is armed (R331), and its value. -/
structure SnapSt where
  armed : Bool := false
  fired : Bool := false
  value : Nat := 0
  /-- With SYSTEM: the packages whose capture the requester waits for; elsewhere, the requester. -/
  waits : List SlotNo := []
  asker : Option SlotNo := none
  deriving DecidableEq, Repr, Inhabited

/-! ### Security and management (R342 to R360) -/

/-- A secured SPDM session (R356): its number, whether FINISH has completed it, the requester's authority digest if it was
authenticated, and an authority entry that leaves with it (R351). -/
structure SpdmSession where
  id : Nat
  finished : Bool := false
  requester : Option Digest := none
  removeAt : Option (Nat × Option Digest) := none
  updates : Nat := 0
  deriving DecidableEq, Repr, Inhabited

/-- An outstanding debug challenge (R352): the challenge and when it was issued. -/
structure Challenge where
  value : BitVec 256
  issuedAt : Nat
  deriving DecidableEq, Repr, Inhabited

/-- A response of the night porter (R354 to R357): over which path it leaves, its completion byte and its payload; or what it reports
over MCTP unasked (R22, R229, R355). -/
structure MgtOut where
  event : Bool := false
  path : MgtPath
  code : Nat := 0
  data : List Byte := []
  deriving DecidableEq, Repr, Inhabited

/-- A quote being made (R350): the host address and the nonce as written. -/
structure QuoteReq where
  addr : Word64
  nonce : List Word32
  deriving DecidableEq, Repr, Inhabited

/-- The physical core that a logical core, by region * 64 + position, was given at manufacture (R12, R13). -/
def mfgPhys (k : Nat) : Nat := if Config.mfgSpare (k / 16) = k % 16 + 1 then 64 + k / 16 % 4 else k % 64

/-- The cores and scratchpads (chapters 3 and 4). -/
structure TileUnits where
  /-- The cores, by region number * 64 + position. -/
  cores : Tab CoreSt := []
  /-- The barrier groups, by dye * 4096 + group index (R75). -/
  barriers : Tab BarrierSt := []
  /-- The scratchpad's data, by region number * 128 MiB + position * 2 MiB + offset (R91); from 2^31 on the test buffers, by
  (region * 64 + position) * 4 KiB + offset (R105). -/
  sram : List Host.Cell := []
  /-- What differs from the right codeword in each stored scratchpad word, by (region * 64 + position) * 65536 + word; from 2^26 on
  in the test buffers' words, by (region * 64 + position) * 128 + word. -/
  spdErr : Tab (BitVec 288) := []
  /-- The row-class table (R98): true is activation class; by (region * 64 + position) * 512 + row. -/
  rowCls : Tab Bool := []
  /-- Uncorrectable words seen, for R330: 1 seen, 2 written since, 3 seen again; by the key of spdErr. -/
  ueSeen : Tab Nat := []
  /-- The accumulators, by (region * 64 + position) * 256 KiB + byte (R69). -/
  acc : List Host.Cell := []
  /-- The accesses that wait for a bank (R93). -/
  bankQ : List BankReq := []
  /-- Corrected words that wait for their write-back (R101), by the key of spdErr. -/
  writeBack : List Nat := []
  /-- The clear in progress and the clear pending of each region (R109). -/
  clrNow : Tab (Option Clear) := []
  clrPend : Tab (Option Clear) := []
  /-- Window writes that wait for the clearing engine, oldest first (R98). -/
  heldWins : List HeldWin := []
  /-- The background testers, by region * 64 + position. -/
  bist : Tab Bist := []
  /-- Regions marked failed (R110, R310): given to no partition until the next cold start. -/
  failedRgns : List RegionNo := []
  /-- The fused repair map (R13): the physical core that stands in for each logical core, by region * 64 + position; 64 to 67 are
  the spares of the quarters (R12). What field repair has fused is listed, the rest is as manufactured. -/
  repairMap : Tab Nat := []
  /-- Regions with a confirmed fault in a quarter without a spare left (R14), and the SEQ of the records that a cold start has acted
  on. -/
  repairFailed : List RegionNo := []
  repairSeen : List Nat := []
  /-- The translation tables of the cluster routers and region crossbars, as the latest cold start loaded them from the map (R13,
  R19). No access reads them. -/
  routerTable : Tab Nat := []
  deriving DecidableEq, Repr, Inhabited

/-- The attention pipelines, local HBM, page tables, prefixes and tiers (chapters 5 and 6). -/
structure MemoryUnits where
  /-- The attention and token pipelines, by region. -/
  atps : Tab AtpSt := []
  /-- Session contexts of this package, by dye * 65536 + context slot (R204). -/
  ctxs : Tab (Option Ctx) := []
  /-- Local HBM's data (plaintext), by offset from 0x0100_0000_0000 (R138). -/
  hbm : List Host.Cell := []
  /-- The number + 1 of the key under which a granule was written, by offset / 4096 (R142). -/
  hbmKey : Tab Nat := []
  /-- Units of 64 bytes whose stored code word is beyond correction, by offset / 64 (R139). -/
  hbmBad : Tab Bool := []
  /-- The frame table (R140), by frame number. -/
  frames : Tab Frame := []
  /-- Session PTEs by ((dye * 65536 + session) * 4096 + layer) * 16384 + page; shared pages by dye * 2^32 + index. -/
  ptes : Tab (Option Pte) := []
  shared : Tab (Option Pte) := []
  prefixes : Tab PrefixRec := []
  /-- The frames of KIND 5 of a dye's shared-page array, by dye, and of its prefix records, by 16 + dye (R147). -/
  kind5 : Tab (List Nat) := []
  /-- Prefixes that a session holds: (dye, session, index). -/
  prefixRefs : List (Dye × Nat × Nat) := []
  pageMoves : List PageMove := []
  hints : List Hint := []
  /-- Promoted pages that are pinned (R159). -/
  pins : List PagePin := []
  /-- Sessions with work that the front package has admitted and not yet reported, on the other packages (R146): dye and context slot,
  once for each item. -/
  admitted : List (Dye × Nat) := []
  forkWait : List ForkCopy := []
  hostBufs : List HostBuf := []
  /-- Check records of pages in tiers 2 and 3, by (tier * 2^32 + frame index) * 16 + granule: the CRC-32C of the plaintext (R153). -/
  checkRecs : Tab Word32 := []
  /-- The bytes of pages in tiers 2 and 3 as this package last stored them, by (tier * 2^32 + frame) * 65536 + byte. -/
  farPages : Tab Byte := []
  /-- Frames reserved at admission (R155): dye, step, tier, frames. -/
  reserved : List (Dye × Nat × Nat × Nat) := []
  /-- A TIER_ command that the front package is carrying out (R148): dye and index. -/
  publishing : List (Dye × Nat) := []
  /-- Tiers whose background demotion runs (R157). -/
  demoting : List Nat := []
  /-- How often the keys of a dye have been replaced (R161): with the dye, the number of its keys. -/
  keyGen : Tab Nat := []
  /-- The unit the patrol scrubber of each controller reads next (R139). -/
  scrubAt : Tab Nat := []
  /-- Tokens of bytes carried that do not yet make a KiB, by window number * 16 + dye (R247). -/
  rglRem : Tab Nat := []
  /-- The token buckets of the regulators (R246), by window number * 16 + dye: what a bucket held, in 1/256000 of a byte, at a counter
  value. -/
  rglTok : Tab (Nat × Nat) := []
  deriving DecidableEq, Repr, Inhabited

/-- The Couriers, the Drover and the weight sets (chapters 7 and 8). -/
structure StreamUnits where
  /-- The Couriers, by region. -/
  cous : Tab CouSt := []
  /-- Cancellations that the Couriers sent to the Drover engines of their die (R175): region, stream. -/
  cancels : List (RegionNo × Nat) := []
  /-- The Drover contexts, by engine * 16 + dye; bytes written that do not yet make a KiB, likewise. -/
  drvs : Tab DrvCtx := []
  drvRem : Tab Nat := []
  /-- Weight sets with frames, by dye * 16 + set; sets that drain for a replacement (R197). -/
  wsets : Tab (Option WsetSt) := []
  /-- The states of the same sets on other packages, as those have said, by (slot * 16 + dye) * 16 + set. -/
  peerWsets : Tab Nat := []
  draining : List (Dye × Nat) := []
  /-- The image area of a dye in tier 1: first frame and count; its phase-plan area (R214, R232). -/
  imgArea : Tab (Option (Nat × Nat)) := []
  planArea : Tab Nat := []
  deriving DecidableEq, Repr, Inhabited

/-- The Innkeeper: sessions, items, steps and plans (chapter 9). -/
structure InnkeeperUnits where
  /-- Sessions of the partitions that this package fronts, by dye * 2^18 + session ID (R204). -/
  sessions : Tab (Option Session) := []
  /-- Admitted items without their last record, in admission order; the number of the next. -/
  items : List Item := []
  itemNo : Nat := 0
  /-- Steps that this package planned as front, in start order within a lane; the next number of each dye. -/
  steps : List Step := []
  stepNo : Tab Nat := []
  /-- The phase-plan area (R214). -/
  plans : List PlanSt := []
  /-- Regions of the prefill lane (R202), by region number; moves between lanes that wait: region, to the prefill lane,
  counter value (R203). -/
  prefillLane : Tab Bool := []
  laneMoves : List (RegionNo × Bool × Nat) := []
  /-- Lanes whose next step from a counter value on includes the load time of a region that they took (R203). -/
  loadOwed : List (Dye × Bool × Nat) := []
  /-- The die that the next session of a dye gets as its home here (R204). -/
  homeTurn : Tab Nat := []
  /-- Phases not opened yet (R215), by region. -/
  held : Tab (Option Held) := []
  /-- The token units' result records since the session's latest report (Table 5-8), by dye * 65536 + context slot. -/
  tokenRecs : Tab (Option Word512) := []
  /-- The program set that a region's cores hold, as lane * 32 + class * 8 + bucket + 1 (R232). -/
  progSet : Tab Nat := []
  /-- Failures reported to the Innkeeper for the running steps, oldest first. -/
  failReps : List FailRep := []
  /-- Pairs dropped in a step on the other packages, as they have said (R174): dye, step, pairs. -/
  farDrops : List (Dye × Word32 × Nat) := []
  deriving DecidableEq, Repr, Inhabited

/-- Structure images and partitions (chapters 10 and 11). -/
structure ImageUnits where
  /-- The active system image, the active partition images by dye, and what each dye's loader is doing (R227 to R242). -/
  sysImage : Option Image := none
  images : Tab (Option Image) := []
  loads : Tab LoadSt := []
  /-- Moves in progress and moves that wait behind them, by region; regions claimed by an Innkeeper (R255 to R257). -/
  moves : Tab (Option MoveSt) := []
  movesNext : Tab (Option MoveSt) := []
  claims : List (RegionNo × Dye) := []
  /-- Save areas, by dye * 16 + ordinal (R249); vacant ordinals of NORLA partitions with their die (R254). -/
  saves : Tab (Option SaveArea) := []
  vacant : List (Dye × Nat × Nat) := []
  /-- Resume values that wait (R254), by dye, as value + 1. -/
  resumeAt : Tab Nat := []
  /-- Drain points that no step opened since may start before (R256); packages of a NORLA partition with vacant ordinals, as
  the front package knows them (R254). -/
  drains : List (Dye × Nat) := []
  jobShort : List (Dye × SlotNo) := []
  /-- Packages on which every core of a dye's job has HALTED (R260). -/
  jobHalted : List (Dye × SlotNo) := []
  deriving DecidableEq, Repr, Inhabited

/-- The tensor links and the system counter (chapter 12). -/
structure LinkUnits where
  /-- The system counter in ns, and the fractional accumulator of its trim in 10^-9 ns (R277). -/
  now : Nat := 0
  nowFrac : Int := 0
  /-- The high word that a read of CNT_NOW_L latched. -/
  nowHigh : Word32 := 0
  /-- The latest value RDSR 0 returned, which the next one is not below (R279). -/
  lastRdsr : Nat := 0
  cmps : Tab Cmp := []
  calendar : List CalEv := []
  links : Tab LinkSt := []
  /-- The packages and the links that a loss notice or this package has found lost (R271). -/
  lostSlots : List SlotNo := []
  lostLinks : List (SlotNo × Nat) := []
  /-- The slots elected master and backup master (R23). -/
  master : Option SlotNo := none
  backup : Option SlotNo := none
  /-- This package lost mastership and may not take it back before the next event (R24). -/
  lostMastership : Bool := false
  /-- Since when HOLDOVER lasts, and whether it outlasted 1 ms (R278). -/
  holdoverAt : Nat := 0
  treatedAsLost : Bool := false
  /-- When the master was found lost, and when the master was found lost whose backup is master now, as counter value + 1 (R25);
  the packages that have lost mastership since the last election by R23 (R24). -/
  masterLostAt : Nat := 0
  tookOverAt : Nat := 0
  exMasters : List SlotNo := []
  /-- The master's synchronisation state, its wall-time offset, as the backup master has it (R24). -/
  syncCopy : Option Word64 := none
  /-- The coordinate that the neighbours give this package, and whether its strap stands at another one (R22). -/
  coord : Option (Nat × Nat × Nat) := none
  outOfSystem : Bool := false
  /-- A re-cabling event is under way (R276). -/
  recabling : Bool := false
  linkTx : List LinkOut := []
  hostTx : List HostOut := []
  /-- Switch points that wait for their counter value: dye, frequency and T_sw (R282). -/
  switchPoints : List (Dye × Nat × Nat) := []
  /-- The start of the re-cabling event under way. -/
  recableAt : Nat := 0
  deriving DecidableEq, Repr, Inhabited

/-- The host interface, the Ethernet ports and the fabric (chapter 13). -/
structure HostUnits where
  /-- Completion-ring entries reserved for items already read (R291), by dye; records not signalled yet (R292). -/
  cqReserved : Tab Nat := []
  unsignalled : Tab Nat := []
  postQ : List PostRec := []
  /-- Host-window reads that wait for their completion, oldest first (R288): dye, host address, bytes. -/
  hostReads : List (Dye × Word64 × Nat) := []
  /-- Work items that the Innkeeper has read and not yet answered (R209). -/
  inbox : List (Dye × Word512) := []
  /-- The dye whose ring the round robin reads next (R209). -/
  ringTurn : Nat := 0
  ethTx : List EthOut := []
  ethRx : List (Dye × Fin 2 × List Byte) := []
  /-- The word of ETH_WALL_OFS_L that waits for the commit of the high word (R296), by port. -/
  wallOfsL : Tab Word32 := []
  fabPairs : Tab FabPair := []
  fabTxc : Tab Nat := []
  fabRxTxc : Tab Nat := []
  fabReqs : List FabReq := []
  fabTag : Nat := 0
  fabTx : List FabricPacket := []
  fabDead : Tab Nat := []
  unreachable : List SlotNo := []
  /-- Segments of this home, by number (R299), and the leases that this package holds. -/
  segments : Tab (Option Segment) := []
  leases : List LeaseHeld := []
  /-- A dye's SMF_ command that waits for its response. -/
  smfBusy : Tab Bool := []
  /-- Rate times width of the host port, in GT/s-lanes (R293). -/
  hostGts : Nat := 1024
  deriving DecidableEq, Repr, Inhabited

/-- Power, clocks and thermal limits (chapter 14). -/
structure PowerUnits where
  /-- Requests of the power sequencers that wait, as target + 1, and the state a wake started from, by region (R306 to
  R309); regions whose IVR short waits for a retry (R310). -/
  rgnPend : Tab Nat := []
  wakeFrom : Tab Nat := []
  ivrShort : Tab Bool := []
  /-- Ageing trims that wait for the next wake or switch point (R319), in steps. -/
  trimPend : Tab Nat := []
  stretch : Tab (Option Stretch) := []
  /-- Ceilings reported to a front, by dye * 64 + slot, in MHz (R313). -/
  ceils : Tab Nat := []
  /-- Counter value + 1 of a region's latest throttle (R315); counter value + 1 since which every sensor has been below
  its warn level. -/
  hotAt : Tab Nat := []
  coolAt : Nat := 0
  /-- Counter value + 1 of a dye's latest thermal ceiling rise (R315). -/
  riseAt : Tab Nat := []
  /-- Regions that would need an eleventh trim step: failed at their next wake (R319). -/
  trimOver : List RegionNo := []
  /-- Counter value + 1 at which the agent put a region away after its step, or the region changed hands (R307). -/
  idleAt : Tab Nat := []
  /-- Counter value + 1 of each HBM controller's latest access (R304). -/
  hbmAt : Tab Nat := []
  /-- The partitions and their region counts for which the budget was divided last (R317). -/
  dividedFor : List (Dye × Nat) := []
  /-- A wake of the dies that waits until VIN and SYS_REF have been there for 1 ms (R370, Table 17-10). -/
  wakeWaits : Bool := false
  /-- Energy in pJ that does not yet make a millijoule, by dye (R318). -/
  energyRem : Tab Nat := []
  /-- The package is in Standby (R305); its die rails are up. -/
  standby : Bool := false
  /-- The high word that a read of a dye's PWR_D_ENERGY_L latched (R321). -/
  energyHigh : Tab Word32 := []
  deriving DecidableEq, Repr, Inhabited

/-- The Ledger, snapshots and injection (chapter 15). -/
structure LedgerUnits where
  /-- The Ledger: ingress, open records, histograms, records that wait to be committed, the ring and the persistent
  area, newest last (R327, R328). -/
  ldgIngress : List LedgerEvent := []
  ldgOpen : List LdgRec := []
  ldgHist : List HistRec := []
  ldgCommit : List LdgRec := []
  ldgRing : List LdgRec := []
  ldgPersist : List LdgRec := []
  /-- The SEQ of the next record, and how many records ALERT_ACK has acknowledged (R325). -/
  ldgSeq : Nat := 0
  ldgAcked : Nat := 0
  /-- Counter value + 1 of the latest commit (R325, R328). -/
  ldgAt : Nat := 0
  /-- Ingress is closed by a power warning (R338). -/
  ldgClosed : Bool := false
  /-- Snapshot requests: 0 is the management scope, d + 1 the scope of dye d. -/
  snaps : Tab SnapSt := []
  /-- Events seen by the armed detector since arming (MODE 1 of INJ_DETECTOR). -/
  injSeen : Nat := 0
  tmx : Tab TmxSt := []
  /-- The pins that the package drives (Table 17-1): FAULT_N and PWR_WARN_N asserted, TMX_OUT levels, PPS. -/
  pinFault : Bool := false
  pinPwrWarn : Bool := false
  tmxOut : Tab Bool := []
  /-- The counter value at which a pulse on a TMX_OUT pin ends (R335). -/
  tmxUntil : Tab Nat := []
  ppsHigh : Bool := false
  /-- The counter value + 1 at which PWR_WARN_N was released with FROZEN set (R338). -/
  warnReleased : Nat := 0
  deriving DecidableEq, Repr, Inhabited

/-- Firmware, keys, tokens and the management interface (chapter 16). -/
structure SecurityUnits where
  /-- A system image whose TOPOLOGY, TIERS or OWNERSHIP waits for a re-cabling event (R241). -/
  pendingSys : Option Image := none
  /-- Generation floors by dye (R231). -/
  genFloor : Tab Nat := []
  /-- The NOR (R343): firmware copies A and B, which is preferred, its failures in a row, the stored system image, the
  authority digests and the ageing trims by region; the security floor fuses (R344). -/
  fwCopies : Tab (Option FirmwareCopy) := []
  preferredB : Bool := false
  bootFails : Nat := 0
  norImage : Option Image := none
  /-- The other copy of the NOR, the older one, and the counter value + 1 at which the newer one was written (R229). -/
  norOlder : Option Image := none
  norAt : Nat := 0
  authority : Tab (Option Digest) := []
  /-- Counter value + 1 of the latest write of an authority digest, and the digests before it: the other persistent copy (R343, R358). -/
  authWas : Option (Nat × Tab (Option Digest)) := none
  norTrims : Tab Nat := []
  secFloor : Nat := 0
  /-- The running copy, and an update that is not activated (R346). -/
  runningB : Bool := false
  updateWritten : Bool := false
  /-- The copy that is not running has been written and is being verified (R346). -/
  updChecking : Bool := false
  /-- How often link keys and the system fabric key have been made (R347). -/
  linkKeys : Tab Nat := []
  fabKey : Nat := 0
  /-- Debug tokens (R352, R353): outstanding challenges by dye, a token under check with the challenge it was given, and the
  tokens in force by dye. -/
  challenges : Tab (Option Challenge) := []
  checking : Option (DebugToken × Option Challenge) := none
  tokens : Tab (Option DebugToken) := []
  /-- SPDM (R356): how far the negotiation is (0 none, 1 version, 2 capabilities, 3 algorithms), and secured sessions. -/
  spdmStage : Nat := 0
  spdm : List SpdmSession := []
  spdmNext : Nat := 0
  /-- The session that set INJ_STATUS.ENABLE (R357). -/
  injSession : Option Nat := none
  /-- The system-image staging area (R357). -/
  imgStage : List Byte := []
  /-- Responses of the night porter. -/
  mgtTx : List MgtOut := []
  /-- Quotes being made, by dye (R350). -/
  quotes : Tab (Option QuoteReq) := []
  deriving DecidableEq, Repr, Inhabited

/-- Supplies and pins (chapter 17). -/
structure PinUnits where
  /-- Supplies and inputs (R367 to R374): VAON present, VIN in range and since when, SYS_REF present and since when, RESET_N
  and PERST_N high; the night porter runs; the die rails are up; the host port is up. -/
  vaon : Bool := true
  vin : Bool := true
  vinAt : Nat := 0
  sysRef : Bool := true
  sysRefAt : Nat := 0
  resetN : Bool := true
  perstN : Bool := true
  npRuns : Bool := true
  rails : Bool := true
  hostUp : Bool := true
  /-- Why and how the die rails went off, for PKG_RESET_CAUSE: the cause, and whether a warning came before. -/
  offCause : Nat := 0
  offWarned : Bool := false
  /-- When the die rails went off at an assertion of RESET_N (R371). -/
  offAt : Nat := 0
  /-- Neither firmware copy boots: only the ROM's firmware-update service answers (R344). Records of the ring with a bad CRC that
  the next cold start finds (R328, R337). -/
  romOnly : Bool := false
  ldgTorn : Nat := 0
  /-- Counter value + 1 of a dye's latest REVOKE (R358). -/
  revokeAt : Tab Nat := []
  deriving DecidableEq, Repr, Inhabited

/-- The state of the block: the queue, the register tables, and the units by chapter of the spec. -/
structure State extends TileUnits, MemoryUnits, StreamUnits, InnkeeperUnits, ImageUnits, LinkUnits,
    HostUnits, PowerUnits, LedgerUnits, SecurityUnits, PinUnits where
  /-- The commands that wait, first in, first out. -/
  pending : List Instr := []
  /-- Every register of a register table but the CORE_ windows (Tables 0-2 to 17-11), by window and offset. -/
  regs : Tab Word32 := []
  /-- What the last access or read answered its issuer. -/
  resp : Resp := {}
  /-- W1C bits that hardware has set, by register key * 32 + bit: the counter value + 1 of the latest time (R9). -/
  w1cAt : Tab Nat := []
  /-- Draws taken from the free values so far (the model's own field, log entry 4). -/
  freeCtr : Nat := 0
  deriving DecidableEq, Repr, Inhabited

/-- The block right after a cold start has released the dies (log entry 1): every register at its Reset column, every
memory and queue empty, the counter at 0. -/
def State.reset : State := {}

end Sys2Proof.Machine
end

