-- ==== Sys2Proof/Machine/Ops.lean ====
section
/-! DEFINITION. The named operations over the state: registers and their fields, cores, who owns what, the Ledger's
intake, the device address map, and reads and writes of every memory. Every meaning is written over these. -/

namespace Sys2Proof.Machine

/-- A quotient rounded up. -/
def ceilDiv (a b : Nat) : Nat := if b = 0 then 0 else (a + b - 1) / b
/-- What a step answers. -/
abbrev Out := Host.Outcome State Fault Refusal

/-! ### Registers -/

def State.rd (s : State) (w : Win) (o : Nat) : Word32 := tabGet regReset s.regs (regKey w o)
def State.wr (s : State) (w : Win) (o : Nat) (v : Word32) : State :=
  { s with regs := tabSet regReset s.regs (regKey w o) v }
/-- Bits lo to lo + n - 1 of a register. -/
def State.fld (s : State) (w : Win) (o lo n : Nat) : Nat := bitsOf (s.rd w o) lo n
def State.setFld (s : State) (w : Win) (o lo n v : Nat) : State := s.wr w o (putBits (s.rd w o) lo n v)
def State.bit (s : State) (w : Win) (o i : Nat) : Bool := bitOf (s.rd w o) i
def State.setBit (s : State) (w : Win) (o i : Nat) (b : Bool) : State := s.setFld w o i 1 (b2n b)
/-- Hardware sets a W1C bit; the counter value is kept, for a write that meets it in the same cycle (R9). -/
def State.setW1c (s : State) (w : Win) (o i : Nat) : State :=
  { (s.setBit w o i true) with w1cAt := tabSet (fun _ => 0) s.w1cAt (regKey w o * 32 + i) (s.now + 1) }
/-- A counter register raised by n; it wraps. -/
def State.bump (s : State) (w : Win) (o : Nat) (n : Nat := 1) : State := s.wr w o (s.rd w o + BitVec.ofNat 32 n)
/-- Several registers in a row. -/
def State.wrList (s : State) (w : Win) (o : Nat) : List Word32 → State
  | [] => s
  | v :: vs => (s.wr w o v).wrList w (o + 4) vs
def State.rdList (s : State) (w : Win) (o : Nat) (n : Nat) : List Word32 :=
  (List.range n).map (fun i => s.rd w (o + 4 * i))
/-- A register of dye d's page (R378). -/
def State.rdP (s : State) (w : Win) (d : Dye) (o : Nat) : Word32 := s.rd w (pageOff d o)
def State.wrP (s : State) (w : Win) (d : Dye) (o : Nat) (v : Word32) : State := s.wr w (pageOff d o) v
def State.bumpP (s : State) (w : Win) (d : Dye) (o : Nat) (n : Nat := 1) : State := s.bump w (pageOff d o) n
/-- A 64-bit value held in two registers, low word first. -/
def State.rd64 (s : State) (w : Win) (o : Nat) : Word64 :=
  BitVec.ofNat 64 ((s.rd w o).toNat + (s.rd w (o + 4)).toNat * 2 ^ 32)
def State.wr64 (s : State) (w : Win) (o : Nat) (v : Word64) : State :=
  (s.wr w o (BitVec.ofNat 32 (bitsOf v 0 32))).wr w (o + 4) (BitVec.ofNat 32 (bitsOf v 32 32))
/-- Counters copied into their shadows, n of them, and the sequence number raised (R331). -/
def State.shadow (s : State) (w : Win) (src dst seq n : Nat) : State :=
  (s.wrList w dst (s.rdList w src n)).bump w seq
/-- Registers lo up to hi of a window back at their reset values. -/
def State.resetWin (s : State) (w : Win) (lo hi : Nat) : State :=
  { s with regs := tabClear s.regs (regKey w lo) (regKey w hi) }

/-! ### Free values -/

/-- A fresh draw: its number, and the state that has taken it. -/
def State.draw (s : State) : Nat × State := (s.freeCtr, { s with freeCtr := s.freeCtr + 1 })

/-! ### Cores -/

def coreKey (c : CoreId) : Nat := c.region.val * 64 + c.pos.val
def coreReset (_ : Nat) : CoreSt := {}
def State.core (s : State) (c : CoreId) : CoreSt := tabGet coreReset s.cores (coreKey c)
def State.setCore (s : State) (c : CoreId) (k : CoreSt) : State :=
  { s with cores := tabSet coreReset s.cores (coreKey c) k }
def State.onCore (s : State) (c : CoreId) (f : CoreSt → CoreSt) : State := s.setCore c (f (s.core c))
def allCores (r : RegionNo) : List CoreId := (List.finRange 64).map (fun p => { region := r, pos := p })
def allRegions : List RegionNo := List.finRange 16

def CoreSt.s (k : CoreSt) (i : Nat) : Word64 := if i = 0 then 0 else tabGet (fun _ => 0) k.sregs i
/-- S0 always reads zero, and writes to it are discarded (R57). -/
def CoreSt.setS (k : CoreSt) (i : Nat) (v : Word64) : CoreSt :=
  if i = 0 then k else { k with sregs := tabSet (fun _ => 0) k.sregs i v }
def CoreSt.a (k : CoreSt) (i : Nat) : Addr := tabGet (fun _ => 0) k.aregs i
def CoreSt.setA (k : CoreSt) (i : Nat) (v : Addr) : CoreSt := { k with aregs := tabSet (fun _ => 0) k.aregs i v }
/-- P0 always reads 1 (R57). -/
def CoreSt.p (k : CoreSt) (i : Nat) : Bool := i == 0 || bitOf k.preds i
def CoreSt.setP (k : CoreSt) (i : Nat) (b : Bool) : CoreSt := { k with preds := putBits k.preds i 1 (b2n b) }
def CoreSt.v (k : CoreSt) (i : Nat) : BitVec 2048 := tabGet (fun _ => 0) k.vregs i
def CoreSt.setV (k : CoreSt) (i : Nat) (v : BitVec 2048) : CoreSt :=
  { k with vregs := tabSet (fun _ => 0) k.vregs i v }
/-- The arithmetic events counted (R37, R88). -/
def CoreSt.addEv (k : CoreSt) (e : Ev) : CoreSt :=
  { k with evInvalid := k.evInvalid + BitVec.ofNat 32 e.invalid, evOverflow := k.evOverflow + BitVec.ofNat 32 e.overflow,
           evSaturate := k.evSaturate + BitVec.ofNat 32 e.saturate,
           evNanBlock := k.evNanBlock + BitVec.ofNat 32 e.nanBlock }
def natGet (t : Tab Nat) (i : Nat) : Nat := tabGet (fun _ => 0) t i
def natSet (t : Tab Nat) (i v : Nat) : Tab Nat := tabSet (fun _ => 0) t i v
def natBump (t : Tab Nat) (i : Nat) : Tab Nat := natSet t i (natGet t i + 1)

/-! ### Slots, owners and coordinates (R16 to R19, R22) -/

def State.slot (s : State) : SlotNo := Fin.ofNat 64 (s.fld .pkg PKG_STRAPS 0 6)
/-- The dye that owns a region on this package, and the region's ordinal in its list (R262). -/
def State.owner (s : State) (r : RegionNo) : Dye := Fin.ofNat 16 (s.fld (.rgn r) RGN_OWNER 0 4)
def State.ordinal (s : State) (r : RegionNo) : Nat := s.fld (.rgn r) RGN_OWNER 4 4
/-- The region that dye d names by ordinal o. The management partition names a region it holds by number. -/
def State.regionOf (s : State) (d : Dye) (o : Nat) : Option RegionNo :=
  allRegions.find? (fun r => s.owner r == d && (if d = 0 then r.val == o else s.ordinal r == o))
/-- The regions of a dye on this package. -/
def State.regionsOf (s : State) (d : Dye) : List RegionNo := allRegions.filter (fun r => s.owner r == d)
/-- The core that logical core index c of dye d names (R18, R26). -/
def State.coreAt (s : State) (d : Dye) (c : Nat) : Option CoreId :=
  (s.regionOf d (c / 64)).map (fun r => { region := r, pos := Fin.ofNat 64 (c % 64) })

/-- PARTITIONS entries of the active system image (R234). -/
def State.partEntries (s : State) : List PartEntry :=
  match s.sysImage with
  | none => []
  | some i => i.sections.flatMap (fun x => match x.body with | .partitions es => es | _ => [])
def State.partEntry (s : State) (d : Dye) : Option PartEntry := s.partEntries.find? (fun e => e.dye == d)
/-- The partition's package table (R19): the slot of each package ordinal. -/
def State.pkgTable (s : State) (d : Dye) : List PackageRec := ((s.partEntry d).map (·.packages)).getD []
/-- This package's ordinal in a partition. -/
def State.pkgOrd (s : State) (d : Dye) : Nat := (s.pkgTable d).findIdx (fun p => p.slot == s.slot)
/-- The slot of a package ordinal. -/
def State.slotOf (s : State) (d : Dye) (ord : Nat) : Option SlotNo := ((s.pkgTable d)[ord]?).map (·.slot)
/-- The front package is the one with ordinal 0 (R17). -/
def State.isFront (s : State) (d : Dye) : Bool := s.pkgOrd d == 0
/-- A core's logical coordinate (R18, Table 1-2). -/
def State.lcoord (s : State) (c : CoreId) : BitVec 16 :=
  BitVec.ofNat 16 (s.pkgOrd (s.owner c.region) * 1024 + s.ordinal c.region * 64 + c.pos.val)
/-- A coordinate of dye d resolved (R19): the slot, and on this package the core. -/
def State.resolve (s : State) (d : Dye) (lc : BitVec 16) : Option (SlotNo × Option CoreId) :=
  match s.slotOf d (bitsOf lc 10 6) with
  | none => none
  | some sl =>
    if sl = s.slot then (s.coreAt d (bitsOf lc 0 10)).map (fun c => (sl, some c))
    else
      match (s.pkgTable d)[bitsOf lc 10 6]? with
      | none => none
      | some p => if bitsOf lc 6 4 < p.regions.length then some (sl, none) else none

/-- The dye of a master. -/
def State.dyeOf (s : State) : Master → Dye
  | .regionController r => s.owner r
  | .sequencer c => s.owner c.region
  | .matrixEngine c => s.owner c.region
  | .transferEngine c => s.owner c.region
  | .appendPath r => s.owner r
  | .attention r => s.owner r
  | .courier r => s.owner r
  | .drover _ d => d
  | .clusterDma r _ => s.owner r
  | .innkeeper => 0
  | .tierManager => 0
  | .imageLoader => 0
  | .nightPorter => 0
  | .vf d => d

/-- The index of Table 4-1 under which a master reaches a core's slice. A master that the table does not list has
none. -/
def masterIndex (m : Master) (c : CoreId) : Option Nat :=
  match m with
  | .regionController _ => some 0
  | .sequencer k => if k = c then some 1 else some 9
  | .matrixEngine k => if k = c then some 2 else some 9
  | .transferEngine k => if k = c then some 3 else some 9
  | .appendPath _ => some 4
  | .attention _ => some 5
  | .courier _ => some 6
  | .drover _ _ => some 7
  | .clusterDma _ _ => some 8
  | _ => none
/-- The issuing master's index in a refusal's DETAIL (Table 15-3): Table 4-1's, whatever slice it is; Table 4-1 numbers no master
that reaches no slice, so 10 to 14 are the model's (DESIGN CHOICE, log entry 119). -/
def masterNo (m : Master) : Nat :=
  match m with
  | .regionController _ => 0 | .sequencer _ => 1 | .matrixEngine _ => 2 | .transferEngine _ => 3 | .appendPath _ => 4
  | .attention _ => 5 | .courier _ => 6 | .drover _ _ => 7 | .clusterDma _ _ => 8 | .innkeeper => 10
  | .tierManager => 11 | .imageLoader => 12 | .nightPorter => 13 | .vf _ => 14

/-! ### Power state of a region (Table 14-10) -/

def State.rgnState (s : State) (r : RegionNo) : Nat := s.fld .pwr (PWR_RGN_STATUS + 4 * r.val) 0 3
def State.rgnActive (s : State) (r : RegionNo) : Bool := s.rgnState r == 0
def State.rgnFreq (s : State) (r : RegionNo) : Nat := s.fld .pwr (PWR_RGN_STATUS + 4 * r.val) 16 11

/-! ### The Ledger's intake (R324, R327) -/

/-- An event enters the Ledger: the ingress queue of 4,096, or LDG_FOLDED where that is full. While ingress is closed by
a power warning (R338) it folds into the open record of its kind or is only counted in LDG_FOLDED; after FROZEN it
enters nothing. -/
def sameKind (r : LdgRec) (e : LedgerEvent) : Bool :=
  r.type == e.type && r.detector == e.detector && r.dye == e.dye && r.region == e.region && r.core == e.core &&
  r.lcoord == e.lcoord && r.severity == e.severity && r.injected == e.injected
def foldInto (now : Nat) (r : LdgRec) : LdgRec :=
  { r with count := min (r.count + 1) 0xFFFFFFFF, last := min ((now - r.time) / 1000) 0xFFFFFFFF }
/-- The first open record of the event's kind takes one more event. -/
def foldOpen (now : Nat) (e : LedgerEvent) : List LdgRec → List LdgRec
  | [] => []
  | r :: rs => if sameKind r e then foldInto now r :: rs else r :: foldOpen now e rs
def State.ledger (s : State) (e : LedgerEvent) : State :=
  if s.bit .ldg LDG_STATUS 1 then s
  else if s.ldgClosed then
    if s.ldgOpen.any (fun r => sameKind r e) then { s with ldgOpen := foldOpen s.now e s.ldgOpen }
    else s.bump .ldg LDG_FOLDED
  else if s.ldgIngress.length < 4096 then { s with ldgIngress := s.ldgIngress ++ [e] }
  else { (s.bump .ldg LDG_FOLDED) with ldgOpen := foldOpen s.now e s.ldgOpen }

/-- The severity of a detector (Table 15-4), where it has one value. -/
def detectorSeverity (d : Nat) : Nat :=
  if d ∈ [0x01, 0x03, 0x07, 0x09, 0x0E, 0x10, 0x1F, 0x21, 0x23, 0x24] then 1
  else if d ∈ [0x06, 0x15, 0x19, 0x1B, 0x1C, 0x1E, 0x29, 0x2A, 0x2C] then 2
  else if d ∈ [0x05, 0x12, 0x1A] then 4
  else if d = 0x2B then 5
  else if d = 0x1D ∨ d = 0 then 0
  else 3
/-- A detector's event at a core. -/
def State.detectCore (s : State) (d : Nat) (c : CoreId) (detail : List Nat := []) : State :=
  s.ledger { type := 1, detector := BitVec.ofNat 8 d, dye := s.owner c.region, severity := detectorSeverity d,
             region := c.region, core := some c.pos, lcoord := s.lcoord c, detail := detail }
/-- A detector's event at a region. -/
def State.detectRgn (s : State) (d : Nat) (r : RegionNo) (detail : List Nat := []) : State :=
  s.ledger { type := 1, detector := BitVec.ofNat 8 d, dye := s.owner r, severity := detectorSeverity d,
             region := r, detail := detail }
/-- A detector's event of a package unit, by unit index. -/
def State.detectUnit (s : State) (d : Nat) (dye : Dye) (unit : Nat) (detail : List Nat := []) : State :=
  s.ledger { type := 1, detector := BitVec.ofNat 8 d, dye := dye, severity := detectorSeverity d,
             lcoord := BitVec.ofNat 16 unit, detail := detail }
/-- An INFO record of CONFIG type (severity 0). -/
def State.info (s : State) (d : Dye) (detail : List Nat) : State :=
  s.ledger { type := 5, detector := 0, dye := d, severity := 0, detail := detail }
/-- A value counted in a histogram (R327, Table 15-3): bucket b takes values from 2^b up to 2^(b+1). -/
def histAdd (now : Nat) (kind : Nat) (d : Dye) (unit v : Nat) : List HistRec → List HistRec
  | [] => [{ kind := kind, dye := d, unit := unit, firstAt := now, lo := v, hi := v,
             buckets := (List.replicate 16 0).set (min (Nat.log2 v) 15) 1 }]
  | h :: hs =>
    if h.kind = kind ∧ h.dye = d ∧ h.unit = unit then
      { h with lo := min h.lo v, hi := max h.hi v,
               buckets := h.buckets.set (min (Nat.log2 v) 15)
                 (min (h.buckets.getD (min (Nat.log2 v) 15) 0 + 1) 0xFFFF) } :: hs
    else h :: histAdd now kind d unit v hs
/-- A value enters the histogram and the extreme of its quantity (R327): up to 128 records, two of each quantity (log entry 57). -/
def State.hist (s : State) (kind : Nat) (d : Dye) (unit v : Nat) : State :=
  if s.ldgClosed then s else
  if s.ldgHist.length < 64 ∨ s.ldgHist.any (fun h => h.kind == kind && h.dye == d && h.unit == unit) then
    { s with ldgHist := histAdd s.now kind d unit v s.ldgHist } else s

/-- An event that a selection of the test multiplexer shows as a 100 ns pulse (Table 15-5), on the pins that drive it. -/
def State.pulse (s : State) (sel : Nat) (hit : Nat → Bool) : State :=
  (List.finRange 4).foldl (fun (t : State) n =>
    if t.fld .tmx (TMX_STATUS + 4 * n.val) 0 2 = 1 ∧ t.fld .tmx (TMX_SEL + 4 * n.val) 0 8 = sel ∧ hit (t.fld .tmx (TMX_SEL + 4 * n.val) 8 8) then
      { t with tmxOut := tabSet (fun _ => false) t.tmxOut n.val true, tmxUntil := natSet t.tmxUntil n.val (t.now + 100) } else t) s

/-! ### Answers to an issuer -/

def State.answer (s : State) (data : List Byte) (poison : Bool := false) : State :=
  { s with resp := { data := data, poison := poison } }
def State.permissionError (s : State) (n : Nat := 4) : State :=
  { s with resp := { permission := true, data := List.replicate n 0 } }

/-- A refused access (R27): folded into a FAULT record of severity INFO under the refusing dye, with the target's region and core
where it has one, the master's index and the refused address. -/
def State.refuseRec (s : State) (m : Master) (a : Nat) (c : Option CoreId := none) (r : Option RegionNo := none) : State :=
  s.ledger { type := 1, detector := 0, dye := s.dyeOf m, severity := 0,
             region := ((c.map (·.region)).getD (r.getD 0)), core := c.map (·.pos),
             lcoord := ((c.map s.lcoord).getD 0), detail := [masterNo m, a] }
/-- A refused access answered: a read of n bytes returns all ones with the poison flag (R27). -/
def State.refuse (s : State) (m : Master) (a : Nat) (n : Nat) (c : Option CoreId := none) : State :=
  { (s.refuseRec m a c) with resp := { address := true, poison := true, data := List.replicate n 0xFF } }

/-! ### The device address map (R26 to R28) -/

/-- Where a device address lies, with the offset inside. -/
inductive Place where
  | slice (c : CoreId) (o : Nat)
  | accum (c : CoreId) (o : Nat)
  | regs (o : Nat)
  | hbm (o : Nat)
  | shared (slot : SlotNo) (o : Nat)
  | host (o : Nat)
  | none
  deriving DecidableEq, Repr, Inhabited

/-- The place an address names for a master of dye d (Table 1-6). Shared space of the own slot is local HBM (R28). -/
def State.place (s : State) (d : Dye) (a : Nat) : Place :=
  if a < 0x80000000 then
    match s.coreAt d (a / 0x200000) with
    | some c => .slice c (a % 0x200000)
    | none => .none
  else if a < 0x90000000 then
    match s.coreAt d ((a - 0x80000000) / 0x40000) with
    | some c => .accum c (a % 0x40000)
    | none => .none
  else if 0xC0000000 ≤ a ∧ a < 0x100000000 then .regs (a - 0xC0000000)
  else if 0x10000000000 ≤ a ∧ a < 0x20000000000 then .hbm (a - 0x10000000000)
  else if 0x400000000000 ≤ a ∧ a < 0x800000000000 then
    let sl : SlotNo := Fin.ofNat 64 ((a - 0x400000000000) / 2 ^ 40)
    if sl = s.slot then .hbm (a % 2 ^ 40) else .shared sl (a % 2 ^ 40)
  else if 0x800000000000 ≤ a ∧ a < 0xC00000000000 then .host (a - 0x800000000000)
  else .none

/-! ### Scratchpad bytes and their protection (R91, R92, R95 to R101) -/

def sliceKey (c : CoreId) (o : Nat) : Nat := coreKey c * 0x200000 + o
def wordKey (c : CoreId) (w : Nat) : Nat := coreKey c * 65536 + w
/-- What a byte that nothing has written reads as: 0, the state that a clear leaves (R98). Log entry 8. -/
def byteReset (_ : Nat) : Byte := 0
/-- The bank of a byte offset (R92): o[9:5] XOR o[14:10]. -/
def bankOf (o : Nat) : Nat := Nat.xor (o / 32 % 32) (o / 1024 % 32)
def lineOf (o : Nat) : Nat := o / 1024 % 2048
def rowOf (o : Nat) : Nat := o / 4096 % 512
def State.win (s : State) (c : CoreId) (n : Nat) : Word32 := s.rd (.spd c.region) (SPD_WIN + c.pos.val * 0x20 + n * 4)
def winValid (w : Word32) : Bool := bitOf w 31
def winCovers (w : Word32) (row : Nat) : Bool :=
  winValid w && decide (bitsOf w 0 9 ≤ row) && decide (row < bitsOf w 10 10)
/-- The window that governs a row: the lowest-numbered VALID one that covers it (R95). -/
def State.winOf (s : State) (c : CoreId) (row : Nat) : Option Nat :=
  (List.range 8).find? (fun n => winCovers (s.win c n) row)
/-- The kinds of access that SPD_MACCm permits (Table 4-4): 0 read, 1 write, 2 alias. -/
def State.maccAllows (s : State) (r : RegionNo) (m kind n : Nat) : Bool :=
  bitOf (s.rd (.spd r) (SPD_MACC + 4 * m)) (8 * kind + n)
/-- Whether a clear is pending or in progress in a region (R110). -/
def State.clearing (s : State) (r : RegionNo) : Bool :=
  (tabGet (fun _ => none) s.clrNow r.val).isSome || (tabGet (fun _ => none) s.clrPend r.val).isSome
/-- Whether the window rules let master index m make this kind of access to bytes o to o + n - 1 of a slice (R95). -/
def State.winAllows (s : State) (c : CoreId) (m kind o n : Nat) : Bool :=
  decide (o + n ≤ 0x200000) &&
  (List.range (rowOf (o + n - 1) - rowOf o + 1)).all (fun i =>
    match s.winOf c (rowOf o + i) with
    | some w => s.maccAllows c.region m kind w
    | none => false)
/-- R96: the region is Active, no clear is pending or in progress, and the windows permit it. -/
def State.sliceOk (s : State) (c : CoreId) (m kind o n : Nat) : Bool :=
  s.rgnActive c.region && !s.clearing c.region && (decide (n = 0) || s.winAllows c m kind o n)

def State.cls (s : State) (c : CoreId) (row : Nat) : Bool := tabGet (fun _ => false) s.rowCls (coreKey c * 512 + row)

/-! #### The two codes. Both are linear, so what a decoder does depends only on what differs from the right word. -/

/-- Multiplication in GF(2^8) with x^8 + x^4 + x^3 + x^2 + 1 (R99). -/
def gfTimes2 (x : Nat) : Nat := if x < 128 then 2 * x else Nat.xor (2 * x) 0x11D
def gfMulFuel : Nat → Nat → Nat → Nat
  | 0, _, _ => 0
  | n + 1, x, y => Nat.xor (if y % 2 = 1 then x else 0) (gfMulFuel n (gfTimes2 x) (y / 2))
def gfMul (x y : Nat) : Nat := gfMulFuel 8 x y
def gfPow2 : Nat → Nat
  | 0 => 1
  | n + 1 => gfTimes2 (gfPow2 n)
/-- Symbol i of a 288-bit word: s_0 to s_3 are the check bytes in bits [287:256], s_4 to s_35 the data bytes (R99). -/
def rsSym (e : BitVec 288) (i : Nat) : Nat := if i < 4 then bitsOf e (256 + 8 * i) 8 else bitsOf e (8 * (i - 4)) 8
def rsSyndrome (e : BitVec 288) (j : Nat) : Nat :=
  (List.range 36).foldl (fun a i => Nat.xor a (gfMul (rsSym e i) (gfPow2 (j * i % 255)))) 0
/-- What the reader of a word gets: which bits still differ after correction, and how the detector called it. -/
def rsDecode (e : BitVec 288) : BitVec 288 × EccOutcome :=
  let s0 := rsSyndrome e 0; let s1 := rsSyndrome e 1; let s2 := rsSyndrome e 2; let s3 := rsSyndrome e 3
  if s0 = 0 ∧ s1 = 0 ∧ s2 = 0 ∧ s3 = 0 then (e, .clean)
  else
    match (List.range 36).find? (fun i =>
        decide (s0 ≠ 0) && gfMul s0 (gfPow2 i) == s1 && gfMul s1 (gfPow2 i) == s2 && gfMul s2 (gfPow2 i) == s3) with
    | some i =>
      let lo := if i < 4 then 256 + 8 * i else 8 * (i - 4)
      (putBits e lo 8 (Nat.xor (rsSym e i) s0), .corrected)
    | none => (e, .uncorrectable)

/-- The positions 1 to 136 that are not powers of two, in ascending order: where the data bits of a half stand (R100). -/
def hamPos : List Nat := (List.range 137).filter (fun p => decide (p ≠ 0) && decide (2 ^ Nat.log2 p ≠ p))
/-- The error bits of half h, each with its position: data bits, then the check bits at the powers of two. -/
def hamErr (e : BitVec 288) (h : Nat) : List Nat :=
  (List.zipIdx hamPos).filterMap (fun p => if bitOf e (128 * h + p.2) then some p.1 else none) ++
  (List.range 8).filterMap (fun j => if bitOf e (256 + 9 * h + j) then some (2 ^ j) else none)
def hamDecodeHalf (e : BitVec 288) (h : Nat) : BitVec 288 × EccOutcome :=
  let errs := hamErr e h
  let syn := errs.foldl Nat.xor 0
  let par := (errs.length + b2n (bitOf e (256 + 9 * h + 8))) % 2
  if syn = 0 ∧ par = 0 then (e, .clean)
  else if par = 0 then (e, .uncorrectable)
  else if syn = 0 then (putBits e (256 + 9 * h + 8) 1 (b2n (!bitOf e (256 + 9 * h + 8))), .corrected)
  else if 2 ^ Nat.log2 syn = syn then
    let i := 256 + 9 * h + Nat.log2 syn
    (putBits e i 1 (b2n (!bitOf e i)), .corrected)
  else
    match hamPos.findIdx? (fun p => p == syn) with
    | some k => (putBits e (128 * h + k) 1 (b2n (!bitOf e (128 * h + k))), .corrected)
    | none => (e, .uncorrectable)
/-- The worse of two outcomes. -/
def eccWorse (a b : EccOutcome) : EccOutcome :=
  match a, b with
  | .uncorrectable, _ => .uncorrectable
  | _, .uncorrectable => .uncorrectable
  | .corrected, _ => .corrected
  | _, .corrected => .corrected
  | _, _ => .clean
def hamDecode (e : BitVec 288) : BitVec 288 × EccOutcome :=
  let a := hamDecodeHalf e 0
  let b := hamDecodeHalf a.1 1
  let top := bitsOf b.1 274 14
  (putBits b.1 274 14 0, eccWorse (eccWorse a.2 b.2) (if top = 0 then .clean else .corrected))
/-- The decoder of a row's class (R98). -/
def eccDecode (activation : Bool) (e : BitVec 288) : BitVec 288 × EccOutcome :=
  if e = 0 then (0, .clean) else if activation then hamDecode e else rsDecode e

/-! #### The background tester's redirect (R105, R106): where a word stands, the slice or the test buffer -/

def bistReset (_ : Nat) : Bist := {}
def State.bistOf (s : State) (c : CoreId) : Bist := tabGet bistReset s.bist (coreKey c)
def State.setBist (s : State) (c : CoreId) (b : Bist) : State := { s with bist := tabSet bistReset s.bist (coreKey c) b }
/-- The row whose accesses the test buffer serves: the one under test, or the one redirected for good. -/
def Bist.redirect (b : Bist) : Option Nat := if b.active then some b.row else b.failed
/-- Whether the test buffer holds a word: it is marked as copied, or the whole row stays redirected. -/
def Bist.holds (b : Bist) (w : Nat) : Bool :=
  b.redirect == some (w / 128) && (!b.active || b.marks.contains (w % 128))
/-- The test buffer of a slice: the key of its first byte, and of its first word's error. -/
def bufKey (c : CoreId) : Nat := 0x80000000 + coreKey c * 4096
def bufErrKey (c : CoreId) : Nat := 0x4000000 + coreKey c * 128
/-- Where byte o of a slice stands. -/
def State.byteKey (s : State) (c : CoreId) (o : Nat) : Nat :=
  if (s.bistOf c).holds (o / 32) then bufKey c + o % 4096 else sliceKey c o
/-- Where the error of word w of a slice stands. -/
def State.errKey (s : State) (c : CoreId) (w : Nat) : Nat :=
  if (s.bistOf c).holds w then bufErrKey c + w % 128 else wordKey c w

def errReset (_ : Nat) : BitVec 288 := 0
def State.errAt (s : State) (c : CoreId) (w : Nat) : BitVec 288 := tabGet errReset s.spdErr (s.errKey c w)
def State.setErr (s : State) (c : CoreId) (w : Nat) (e : BitVec 288) : State :=
  { s with spdErr := tabSet errReset s.spdErr (s.errKey c w) e }
/-- The byte that a slice holds at offset o, no error applied: the live one, wherever it stands. -/
def State.liveByte (s : State) (c : CoreId) (o : Nat) : Byte := tabGet byteReset s.sram (s.byteKey c o)
/-- The right data of n bytes of a slice, no error applied. -/
def State.sliceRaw (s : State) (c : CoreId) (o n : Nat) : List Byte :=
  if (s.bistOf c).redirect = none then tabGetList byteReset s.sram (sliceKey c o) n
  else (List.range n).map (fun i => s.liveByte c (o + i))
def State.sliceSet (s : State) (c : CoreId) (o : Nat) (bs : List Byte) : State :=
  if (s.bistOf c).redirect = none then { s with sram := tabSetList byteReset s.sram (sliceKey c o) bs }
  else { s with sram := (List.zipIdx bs).foldl (fun t p => tabSet byteReset t (s.byteKey c (o + p.2)) p.1) s.sram }
/-- A word of the row under test is copied to the test buffer and marked, with whatever its code word holds (R105). -/
def State.bufTake (s : State) (c : CoreId) (w : Nat) : State :=
  let b := s.bistOf c
  if b.redirect == some (w / 128) && !b.holds w then
    ({ s with sram := tabSetList byteReset s.sram (bufKey c + w % 128 * 32) (tabGetList byteReset s.sram (sliceKey c (32 * w)) 32),
              spdErr := tabSet errReset s.spdErr (bufErrKey c + w % 128) (tabGet errReset s.spdErr (wordKey c w)) }).setBist c
      { b with marks := b.marks ++ [w % 128] }
  else s
/-- SPD_ECC_LAST (Table 4-9). -/
def eccLast (w pos : Nat) (cls ue : Bool) : Word32 :=
  BitVec.ofNat 32 (w + pos * 2 ^ 16 + b2n cls * 2 ^ 22 + b2n ue * 2 ^ 23 + 2 ^ 31)
/-! #### Error injection (R334): it changes what a detector sees and nothing that is stored -/

/-- One more injection fired; MODE 0 disarms. -/
def State.injFired (s : State) : State :=
  let s1 := ((s.bump .inj INJ_COUNT).setBit .inj INJ_STATUS 2 true).pulse 9 (fun _ => true)
  if s.fld .inj INJ_DETECTOR 8 2 = 0 then s1.setBit .inj INJ_STATUS 1 false else s1
/-- The armed injection falls due at this event: once, at every Nth, or always. -/
def State.injDue (s : State) : Bool × State :=
  let n := max 1 (s.fld .inj INJ_DETECTOR 16 16)
  let k := s.injSeen + 1
  if s.fld .inj INJ_DETECTOR 8 2 = 1 then (k % n == 0, { s with injSeen := k }) else (true, { s with injSeen := k })
/-- Whether an injection of a scratchpad detector is armed at a word. -/
def State.injAims (s : State) (c : CoreId) (word : Nat) : Bool :=
  let d := s.fld .inj INJ_DETECTOR 0 8
  s.bit .inj INJ_STATUS 1 && decide (1 ≤ d) && decide (d ≤ 4) && s.fld .inj INJ_TARGET 0 4 == c.region.val &&
  s.fld .inj INJ_TARGET 4 6 == c.pos.val && (s.rd64 .inj INJ_ADDR_L).toNat % 0x200000 / 32 == word
/-- Events that joined the ingress queue since it held n are marked INJECTED. -/
def State.injMark (s : State) (n : Nat) : State :=
  { s with ldgIngress := s.ldgIngress.take n ++ (s.ldgIngress.drop n).map (fun e => { e with injected := true }) }

/-- A word has shown an uncorrectable error: for the first time, or again after a write to it (R330). -/
def State.ueMark (s : State) (k : Nat) : State :=
  let seen := natGet s.ueSeen k
  { s with ueSeen := natSet s.ueSeen k (if seen = 2 then 3 else max 1 seen) }
/-- The words from lo up to hi have been written since. -/
def ueWritten (lo hi : Nat) (t : Tab Nat) : Tab Nat :=
  t.map (fun e => if lo ≤ e.1 ∧ e.1 < hi ∧ e.2 = 1 then (e.1, 2) else e)
/-- The keys, for R330, of an accumulator's pairs of lanes and of a core's instruction-store words. -/
def accUeKey (c : CoreId) (o : Nat) : Nat := 0x10000000 + coreKey c * 0x8000 + o / 8
def istoreUeKey (c : CoreId) (w : Nat) : Nat := 0x40000000 + coreKey c * 0x10000 + w
/-- A detector sees e as the error of a word that is read (R101): the counts, the Ledger, the write-back that then waits. Answers
the bits by which the returned data differ, and whether it is poisoned. -/
def State.eccSee (s : State) (c : CoreId) (w : Nat) (e : BitVec 288) : (BitVec 288 × Bool) × State :=
  if e = 0 then ((0, false), s) else
  let cl := s.cls c (w / 128)
  let r := eccDecode cl e
  match r.2 with
  | .clean => ((r.1, false), s)
  | .corrected =>
    ((r.1, false),
     let s1 := (s.bump (.spd c.region) SPD_ECC_CE).wr (.spd c.region) SPD_ECC_LAST (eccLast w c.pos.val cl false)
     { s1.detectCore (if cl then 0x03 else 0x01) c [w] with writeBack := s1.writeBack ++ [wordKey c w] })
  | .uncorrectable =>
    ((e, true),
     let s1 := (s.bump (.spd c.region) SPD_ECC_UE).wr (.spd c.region) SPD_ECC_LAST (eccLast w c.pos.val cl true)
     (s1.detectCore (if cl then 0x04 else 0x02) c [w]).ueMark (wordKey c w))
/-- A read of one word meets its stored error, and the pattern of an injection that is armed there and falls due (R101, R334). -/
def State.eccRead (s : State) (c : CoreId) (w : Nat) : (BitVec 288 × Bool) × State :=
  if s.injAims c w then
    let due := s.injDue
    if due.1 then
      let r := due.2.eccSee c w (s.errAt c w ^^^ (s.rd .inj INJ_PATTERN).setWidth 288)
      (r.1, ((({ r.2 with writeBack := s.writeBack, ueSeen := s.ueSeen } : State).injMark s.ldgIngress.length).injFired))
    else due.2.eccSee c w (s.errAt c w)
  else s.eccSee c w (s.errAt c w)
/-- The words that bytes o to o + n - 1 touch. -/
def wordsOf (o n : Nat) : List Nat := if n = 0 then [] else (List.range ((o + n - 1) / 32 - o / 32 + 1)).map (· + o / 32)
/-- Every word of a read meets its error. -/
def State.eccReads (s : State) (c : CoreId) : List Nat → (List (Nat × BitVec 288) × Bool) × State
  | [] => (([], false), s)
  | w :: ws =>
    let r := s.eccRead c w
    let t := r.2.eccReads c ws
    (((w, r.1.1) :: t.1.1, r.1.2 || t.1.2), t.2)
/-- The bytes that a read of a slice returns: the stored data, with the bits that no decoder corrected (R101). -/
def State.sliceRead (s : State) (c : CoreId) (o n : Nat) : (List Byte × Bool) × State :=
  let r := s.eccReads c (wordsOf o n)
  let raw := s.sliceRaw c o n
  let bytes := if r.1.1.all (fun p => decide (p.2 = 0)) then raw else
    (List.zipIdx raw).map (fun p =>
      let w := (o + p.2) / 32
      match r.1.1.find? (fun q => q.1 == w) with
      | some q => p.1 ^^^ BitVec.ofNat 8 (bitsOf q.2 (8 * ((o + p.2) % 32)) 8)
      | none => p.1)
  ((bytes, r.1.2), r.2)
/-- Whether a write of bytes o to o + n - 1 leaves some byte of the group of g bytes that starts at b as it was, so
that the group must be read and merged (Table 4-2). -/
def partly (o n b g : Nat) : Bool :=
  (decide (o < b + g) && decide (b < o + n)) && !(decide (o ≤ b) && decide (b + g ≤ o + n))
/-- A write meets the stored errors of the words it touches (R101): a part that is written whole is right from then on;
a read-merge-write that meets an uncorrectable error is not performed. Answers the words whose write is not performed. -/
def State.eccWrite (s : State) (c : CoreId) (o n : Nat) : List Nat → List Nat × State
  | [] => ([], s)
  | w :: ws =>
    let cl := s.cls c (w / 128)
    let merge := if cl then partly o n (32 * w) 16 || partly o n (32 * w + 16) 16 else partly o n (32 * w) 32
    let s0 := if natGet s.ueSeen (wordKey c w) = 1 then { s with ueSeen := natSet s.ueSeen (wordKey c w) 2 } else s
    let r := if merge then
        let e := s0.eccRead c w
        if e.1.2 then ([w], e.2)
        else if e.2.errAt c w = 0 then ([], e.2) else ([], e.2.setErr c w e.1.1)
      else if s0.errAt c w = 0 then ([], s0)
      else if cl then
        -- A half written whole becomes right, its check bits with it; bits [287:274] are written as zero (R100).
        let e := putBits (s0.errAt c w) 274 14 0
        let e1 := if o ≤ 32 * w ∧ 32 * w + 16 ≤ o + n then putBits (putBits e 0 128 0) 256 9 0 else e
        let e2 := if o ≤ 32 * w + 16 ∧ 32 * w + 32 ≤ o + n then putBits (putBits e1 128 128 0) 265 9 0 else e1
        ([], s0.setErr c w e2)
      else ([], s0.setErr c w 0)
    let t := r.2.eccWrite c o n ws
    (r.1 ++ t.1, if w ∈ r.1 then t.2 else { t.2 with writeBack := t.2.writeBack.filter (· ≠ wordKey c w) })
/-- Bytes written to a slice; the first component says that an uncorrectable error kept some word from being written. A write to the
row under test goes to the test buffer and marks its words (R105). -/
def State.sliceWrite (s : State) (c : CoreId) (o : Nat) (bs : List Byte) : Bool × State :=
  let ws := wordsOf o bs.length
  let s0 := if (s.bistOf c).redirect = none then s else ws.foldl (fun t w => t.bufTake c w) s
  let r := s0.eccWrite c o bs.length ws
  if r.1 = [] then (false, r.2.sliceSet c o bs)
  else (true, (ws.filter (fun w => !r.1.contains w)).foldl (fun t w =>
    let lo := max o (32 * w)
    t.sliceSet c lo ((bs.drop (lo - o)).take (min (o + bs.length) (32 * w + 32) - lo))) r.2)

/-! ### Accumulators (R69) -/

def accKey (c : CoreId) (o : Nat) : Nat := coreKey c * 0x40000 + o
def State.accRead (s : State) (c : CoreId) (o n : Nat) : List Byte := tabGetList byteReset s.acc (accKey c o) n
def State.accWrite (s : State) (c : CoreId) (o : Nat) (bs : List Byte) : State :=
  { s with acc := tabSetList byteReset s.acc (accKey c o) bs, ueSeen := ueWritten (accUeKey c o) (accUeKey c (o + bs.length + 7)) s.ueSeen }
/-- A whole bank cleared to zero. -/
def State.accClear (s : State) (c : CoreId) (bank : Nat) : State :=
  { s with acc := tabClear s.acc (accKey c (bank * 0x8000)) (accKey c ((bank + 1) * 0x8000)),
           ueSeen := ueWritten (accUeKey c (bank * 0x8000)) (accUeKey c ((bank + 1) * 0x8000)) s.ueSeen }
/-- Row r of bank b as lanes (R69). -/
def bytesNat : List Byte → Nat := leNat
def State.accRow (s : State) (c : CoreId) (b r : Nat) : BitVec 2048 :=
  BitVec.ofNat 2048 (leNat (s.accRead c (b * 0x8000 + r * 256) 256))
def State.setAccRow (s : State) (c : CoreId) (b r : Nat) (v : BitVec 2048) : State :=
  s.accWrite c (b * 0x8000 + r * 256) (leBytes v.toNat 256)

/-! ### Regulators (R246, R247) -/

/-- Energy in pJ charged to a dye (R318): PWR_D_ENERGY counts whole millijoules, the remainder is carried forward. -/
def State.charge (s : State) (d : Dye) (pj : Nat) : State :=
  let t := natGet s.energyRem d.val + pj
  let e := s.rd64 .pwr (pageOff d PWR_D_ENERGY_L) + BitVec.ofNat 64 (t / 1000000000)
  { (s.wr64 .pwr (pageOff d PWR_D_ENERGY_L) e) with energyRem := natSet s.energyRem d.val (t % 1000000000) }
/-- pJ per byte of a regulated resource (Table 14-7). -/
def pjPerByte : Win → Nat
  | .hbm _ => 12
  | .noc _ => 5
  | .tlk _ => 30
  | .eth _ => 40
  | .pci => 25
  | _ => 0
/-- The peak of a regulated resource in bytes per µs, as its own chapter gives it (Tables 8-1, 1-4, 12-1, 13-1, 13-4). -/
def peakOf : Win → Nat
  | .hbm _ => 2457600
  | .noc _ => 3200000
  | .tlk _ => 400000
  | .eth _ => 100000
  | .pci => 110000
  | _ => 0
def tokReset (_ : Nat) : Nat × Nat := (0, 0)
/-- What a dye's bucket holds now (R246): it fills at RATE / 256 of the peak, up to BURST KiB. -/
def State.bucket (s : State) (w : Win) (d : Dye) : Nat :=
  let c := s.rd w (0xF000 + d.val * 0x20 + RGL_D_CFG)
  let t := tabGet tokReset s.rglTok (winIndex w * 16 + d.val)
  min (bitsOf c 16 16 * 1024 * 256000) (t.1 + bitsOf c 0 9 * peakOf w * (s.now - t.2))
/-- Bytes carried for a dye on a regulated resource: its bucket is debited, and _RGL_D_KIB counts whole KiB. What is carried beyond the
tokens is lent (log entry 138). -/
def State.carry (s : State) (w : Win) (d : Dye) (bytes : Nat) : State :=
  let k := winIndex w * 16 + d.val
  let t := natGet s.rglRem k + bytes
  { ((s.bump w (0xF000 + d.val * 0x20 + RGL_D_KIB) (t / 1024)).charge d (pjPerByte w * bytes)) with
    rglRem := natSet s.rglRem k (t % 1024),
    rglTok := tabSet tokReset s.rglTok k (s.bucket w d - bytes * 256000, s.now) }

/-! ### Local HBM (R138 to R142) -/

/-- Die 0 holds regions 0 to 7, die 1 regions 8 to 15 (Table 1-3). -/
def regionDie (r : RegionNo) : Nat := r.val / 8
/-- The controller of an offset (R138). -/
def hbmCtl (o : Nat) : Fin 8 := Fin.ofNat 8 (o / 2 ^ 39 % 2 * 4 + Nat.xor (o / 4096 % 4) (o / 2 ^ 20 % 4))
def State.frame (s : State) (f : Nat) : Frame := tabGet frameReset s.frames f
def State.setFrame (s : State) (f : Nat) (x : Frame) : State := { s with frames := tabSet frameReset s.frames f x }
/-- TIER_D_USED_Tn moved by a count. -/
def State.useFrames (s : State) (d : Dye) (tier : Nat) (up : Bool) (n : Nat := 1) : State :=
  let o := pageOff d (TIER_D_USED + 4 * tier)
  let v := (s.rd .tier o).toNat
  s.wr .tier o (BitVec.ofNat 32 (if up then v + n else v - n))
/-- A frame that counts as held by its owner: OWNED or SHARED_RO. -/
def Frame.held (f : Frame) : Bool := f.state == 1 || f.state == 2
/-- A frame made FREE: every STALE bit set (R141), its bytes no longer held. -/
def State.freeFrame (s : State) (f : Nat) : State :=
  let s1 := if (s.frame f).held then s.useFrames (s.frame f).owner 1 false else s
  { (s1.setFrame f {}) with hbm := tabClear s1.hbm (f * 65536) ((f + 1) * 65536) }
/-- A FREE frame given to a dye, counted in TIER_D_USED_T1. -/
def State.grantFrame (s : State) (f : Nat) (d : Dye) (state kind : Nat) : State :=
  (s.setFrame f { owner := d, state := state, stale := 0xFFFF, kind := kind }).useFrames d 1 true
/-- Whether dye d reaches a byte of local HBM for a read or a write (R27, R140). A SHARED_RO segment is read by every
dye; page tables are written by the tier manager and the region controllers alone (R145). -/
def State.hbmReach (s : State) (d : Dye) (write : Bool) (o : Nat) : Bool :=
  let f := s.frame (o / 65536)
  (f.state == 1 && f.owner == d && !(write && f.kind == 1)) || (f.state == 2 && !write)
/-- A FAILED controller makes every frame of its die unusable, since frames interleave across the die's four stacks (R163). -/
def State.dieFailed (s : State) (die : Nat) : Bool :=
  (List.range 4).any (fun k => s.fld (.hbm (Fin.ofNat 8 (die * 4 + k))) HBM_STATUS 0 2 == 3)
def State.hbmFailed (s : State) (o : Nat) : Bool := s.dieFailed (o / 2 ^ 39 % 2)
/-- The number of a dye's keys; and of the key that a frame's granules are encrypted under, none for PRIVATE and DONATED frames
(R142). -/
def State.keyNo (s : State) (d : Dye) : Nat := d.val * 2 ^ 32 + natGet s.keyGen d.val
def State.frameKey (s : State) (f : Frame) : Option Nat :=
  if f.held then some (2 ^ 40 + s.keyNo (if f.state = 2 then 0 else f.owner)) else none
/-- A granule was written under another key than the frame's present one. -/
def State.otherKey (s : State) (f : Frame) (g : Nat) : Bool :=
  match s.frameKey f with
  | none => false
  | some k => natGet s.hbmKey g != 0 && natGet s.hbmKey g != k + 1
/-- The 4 KiB that decrypt from such a granule, whose tweak is its index (R142). -/
def State.underKey (s : State) (f : Frame) (g : Nat) : List Byte :=
  takePad 0 4096 (Config.xtsDec ((s.frameKey f).getD 0) g (Config.xts (natGet s.hbmKey g - 1) g (tabGetList byteReset s.hbm (g * 4096) 4096)))
/-- An uncorrectable unit that a read met (R139): counted, and recorded with the owner and the frame's offset. -/
def State.hbmUe (s : State) (u : Nat) : State :=
  let h := hbmCtl (u * 64)
  let f := s.frame (u / 1024)
  ((s.bump (.hbm h) HBM_ECC_UE).wr (.hbm h) HBM_ECC_LAST
    (BitVec.ofNat 32 (u / 1024 % 2 ^ 24 + f.owner.val * 2 ^ 24 + 2 ^ 28 + 2 ^ 31))).detectUnit 0x11 f.owner h.val [u / 1024 * 65536]
/-- One granule's part of a read: n bytes at o. STALE granules answer zeros and are counted; an unloaded key slot or a
word beyond correction answers all ones and poison (R139, R141, R142). -/
def State.hbmReadG (s : State) (d : Dye) (o n : Nat) : (List Byte × Bool) × State :=
  let f := s.frame (o / 65536)
  let key := if f.state = 2 then 0 else f.owner.val
  if f.state ≠ 4 ∧ bitOf f.stale (o / 4096 % 16) then
    ((List.replicate n 0, false), (s.bump (.hbm (hbmCtl o)) HBM_STALE_RD).bumpP .tier d TIER_D_STALE_RD)
  else if s.hbmFailed o then ((List.replicate n 0xFF, true), s)
  else if f.held ∧ !s.bit (.hbm (hbmCtl o)) HBM_KEYSLOTS key then
    ((List.replicate n 0xFF, true), s.detectUnit 0x13 d (hbmCtl o).val)
  else
    let bad := ((List.range ((o + n - 1) / 64 - o / 64 + 1)).map (· + o / 64)).filter (tabGet (fun _ => false) s.hbmBad)
    if bad ≠ [] then ((List.replicate n 0xFF, true), bad.foldl (fun (t : State) u => t.hbmUe u) s)
    else if s.otherKey f (o / 4096) then ((takePad 0 n ((s.underKey f (o / 4096)).drop (o % 4096)), false), s)
    else ((tabGetList byteReset s.hbm o n, false), s)
/-- The rest of granule g of frame f as a write to the granule leaves it: the first write to a STALE granule writes the whole granule,
zeros elsewhere (R141); what was written under another key stays what it decrypts to (R142). -/
def State.hbmFresh (s : State) (f g : Nat) : State :=
  let x := s.frame f
  if x.state ≠ 4 ∧ bitOf x.stale (g % 16) then
    ({ s with hbm := tabClear s.hbm (g * 4096) ((g + 1) * 4096), hbmBad := tabClear s.hbmBad (g * 64) ((g + 1) * 64) } : State).setFrame f
      { x with stale := putBits x.stale (g % 16) 1 0 }
  else if s.otherKey x g then { s with hbm := tabSetList byteReset s.hbm (g * 4096) (s.underKey x g) }
  else s
/-- One granule's part of a write (R141, R142). A die out of service takes no write. -/
def State.hbmWriteG (s : State) (o : Nat) (bs : List Byte) : State :=
  let f := s.frame (o / 65536)
  let g := o / 4096
  if f.state ≠ 4 ∧ s.hbmFailed o then s
  else
    let s1 := s.hbmFresh (o / 65536) g
    { s1 with hbm := tabSetList byteReset s1.hbm o bs,
              hbmBad := tabClear s1.hbmBad ((o + 63) / 64) ((o + bs.length) / 64),
              hbmKey := natSet s1.hbmKey g (((s.frameKey f).map (· + 1)).getD 0) }
/-- PWR_STATUS.PKG_STATE: ACTIVE while a region is not Off or an HBM controller is not in self-refresh (Table 14-1). -/
def State.pkgFollow (s : State) : State :=
  let on := allRegions.any (fun r => !(s.rgnState r == 3 || s.rgnState r == 6)) ||
    (List.finRange 8).any (fun h => s.fld (.hbm h) HBM_STATUS 0 2 == 1)
  s.setFld .pwr PWR_STATUS 0 2 (if on then 2 else 1)
/-- A controller leaves self-refresh (R304, Table 14-3). -/
def State.hbmAwake (s : State) (h : Fin 8) : State :=
  if s.fld (.hbm h) HBM_STATUS 0 2 = 2 then (s.setFld (.hbm h) HBM_STATUS 0 2 1).pkgFollow else s
/-- An access of dye d to n bytes of one granule: its controller leaves self-refresh (R304), and carries the bytes (R246, R318). -/
def State.hbmUse (s : State) (d : Dye) (o n : Nat) : State :=
  let h := hbmCtl o
  let s1 := (s.hbmAwake h).carry (.hbm h) d n
  { s1 with hbmAt := natSet s1.hbmAt h.val (s.now + 1) }
/-- A read in pieces that stay inside granules; fuel counts granules. -/
def State.hbmReadF (s : State) (d : Dye) : Nat → Nat → Nat → (List Byte × Bool) × State
  | 0, _, _ => (([], false), s)
  | k + 1, o, n =>
    if n = 0 then (([], false), s) else
    let m := min n (4096 - o % 4096)
    let r := (s.hbmUse d o m).hbmReadG d o m
    let t := r.2.hbmReadF d k (o + m) (n - m)
    ((r.1.1 ++ t.1.1, r.1.2 || t.1.2), t.2)
def State.hbmRead (s : State) (d : Dye) (o n : Nat) : (List Byte × Bool) × State := s.hbmReadF d (n / 4096 + 2) o n
def State.hbmWriteF (s : State) : Nat → Nat → List Byte → State
  | 0, _, _ => s
  | k + 1, o, bs =>
    if bs = [] then s else
    let m := min bs.length (4096 - o % 4096)
    ((s.hbmUse (s.frame (o / 65536)).owner o m).hbmWriteG o (bs.take m)).hbmWriteF k (o + m) (bs.drop m)
def State.hbmWrite (s : State) (o : Nat) (bs : List Byte) : State := s.hbmWriteF (bs.length / 4096 + 2) o bs

/-! ### Comparators and calendars (R281) -/

def cmpReset (_ : Nat) : Cmp := {}
/-- The owner to which OWNERSHIP gives a spare comparator of this package (R238); none where it is unclaimed. -/
def State.spareClaim (s : State) (n : Nat) : Option Nat :=
  s.sysImage.bind (fun (i : Image) => i.sections.findSome? (fun x => match x.body with
    | .ownership cs => cs.findSome? (fun c => match c with
      | .comparator sl k o => if sl = s.slot ∧ k + 56 = n then some o.val else none
      | _ => none)
    | _ => none))
/-- The comparators an owner may use: its allotment, then the spares. -/
def cmpsOf (o : Nat) : List Nat :=
  if o = 0 then List.range 32 ++ (List.range 8).map (· + 56)
  else if o = 1 then (List.range 16).map (· + 32)
  else (List.range 8).map (· + 48) ++ (List.range 8).map (· + 56)
/-- A comparator that is not armed: a spare that no image claims is unclaimed again. -/
def State.cmpFree (s : State) (n : Nat) (c : Cmp) : Cmp :=
  { c with armed := false, what := none, owner := if 56 ≤ n ∧ (s.spareClaim n).isNone then 3 else c.owner }
/-- An event put on a free comparator of its owner (a spare that is held or claimed is TAKEN), or on the owner's calendar where every one
is armed, or where the counter has not locked yet: no comparator is armed before (R278, R281). -/
def State.armCmp (s : State) (o value : Nat) (what : CalWhat) : State :=
  match (if s.fld .cnt CNT_STATUS 0 2 < 2 then none else (cmpsOf o).find? (fun n =>
      !(tabGet cmpReset s.cmps n).armed && (decide (n < 56) || (s.spareClaim n).all (fun k => k == o)))) with
  | some n => { s with cmps := tabSet cmpReset s.cmps n { owner := o, armed := true, late := decide (value < s.now), value := value, what := some what } }
  | none => { s with calendar := s.calendar ++ [{ owner := o, value := value, what := what }] }
/-- The earliest event of an owner's calendar goes onto a comparator that is free. -/
def State.rearm (s : State) (o : Nat) : State :=
  let mine := s.calendar.filter (fun e => e.owner == o)
  match mine.foldl (fun (b : Option CalEv) e => match b with
      | none => some e
      | some q => if e.value < q.value then some e else some q) none with
  | none => s
  | some e => ({ s with calendar := s.calendar.erase e } : State).armCmp o e.value e.what
/-- The counter has locked: the owners arm the events of their calendars. -/
def State.rearmAll (s : State) : State :=
  (List.range s.calendar.length).foldl (fun (t : State) _ => ([0, 1, 2] : List Nat).foldl (fun (u : State) o => u.rearm o) t) s
/-- Every event of a kind taken off the comparators and calendars. -/
def State.disarm (s : State) (p : CalWhat → Bool) : State :=
  { s with calendar := s.calendar.filter (fun e => !p e.what),
           cmps := s.cmps.foldl (fun t e => if (e.2.what.map p).getD false then tabSet cmpReset t e.1 (s.cmpFree e.1 e.2) else t) s.cmps }

end Sys2Proof.Machine
end

