-- ==== Sys2Proof/Machine/Operands.lean ====
section
/-! DEFINITION. The operand forms of the tile instruction set: the five formats of Table 3-3 as 64-bit words, the
opcodes of Table 3-5, which words are illegal (R58), and how an instruction's fields name registers and addresses. -/

namespace Sys2Proof.Machine

/-! ### Words (R58, Table 3-3) -/

/-- Bits [11:0], common to all formats. -/
def headBits (op : Nat) (p : BitVec 3) (pneg : Bool) : Nat := op % 256 + p.toNat * 2 ^ 8 + b2n pneg * 2 ^ 11
def encodeR (op : Nat) (w : RWord) : Word64 :=
  BitVec.ofNat 64 (headBits op w.p w.pneg + w.d.toNat * 2 ^ 12 + w.a.toNat * 2 ^ 17 + w.b.toNat * 2 ^ 22
    + w.c.toNat * 2 ^ 27 + w.fn.toNat * 2 ^ 32 + w.rsv.toNat * 2 ^ 40)
def encodeI (op : Nat) (w : IWord) : Word64 :=
  BitVec.ofNat 64 (headBits op w.p w.pneg + w.d.toNat * 2 ^ 12 + w.a.toNat * 2 ^ 17 + w.rsv.toNat * 2 ^ 22
    + w.fn.toNat * 2 ^ 24 + w.imm.toNat * 2 ^ 32)
def encodeM (op : Nat) (w : MWord) : Word64 :=
  BitVec.ofNat 64 (headBits op w.p w.pneg + w.as.toNat * 2 ^ 12 + w.bank.toNat * 2 ^ 16 + b2n w.wb * 2 ^ 19
    + b2n w.accum * 2 ^ 20 + w.row0.toNat * 2 ^ 21 + w.mrows.toNat * 2 ^ 28 + b2n w.rsv35 * 2 ^ 35
    + w.fmt.toNat * 2 ^ 36 + w.rsv.toNat * 2 ^ 40)
def encodeX (op : Nat) (w : XWord) : Word64 :=
  BitVec.ofNat 64 (headBits op w.p w.pneg + w.ad.toNat * 2 ^ 12 + w.as.toNat * 2 ^ 16 + w.sa.toNat * 2 ^ 20
    + w.sb.toNat * 2 ^ 25 + w.n.toNat * 2 ^ 30 + w.rsv.toNat * 2 ^ 34 + w.fn.toNat * 2 ^ 40 + w.imm16.toNat * 2 ^ 48)
def encodeB (op : Nat) (w : BWord) : Word64 :=
  BitVec.ofNat 64 (headBits op w.p w.pneg + w.sa.toNat * 2 ^ 12 + w.rsv.toNat * 2 ^ 17 + w.imm.toNat * 2 ^ 32)

/-- The fields that a word of each format spells. -/
def fieldsR (x : Word64) : RWord :=
  { p := x.extractLsb' 8 3, pneg := bitOf x 11, d := x.extractLsb' 12 5, a := x.extractLsb' 17 5,
    b := x.extractLsb' 22 5, c := x.extractLsb' 27 5, fn := x.extractLsb' 32 8, rsv := x.extractLsb' 40 24 }
def fieldsI (x : Word64) : IWord :=
  { p := x.extractLsb' 8 3, pneg := bitOf x 11, d := x.extractLsb' 12 5, a := x.extractLsb' 17 5,
    rsv := x.extractLsb' 22 2, fn := x.extractLsb' 24 8, imm := x.extractLsb' 32 32 }
def fieldsM (x : Word64) : MWord :=
  { p := x.extractLsb' 8 3, pneg := bitOf x 11, as := x.extractLsb' 12 4, bank := x.extractLsb' 16 3, wb := bitOf x 19,
    accum := bitOf x 20, row0 := x.extractLsb' 21 7, mrows := x.extractLsb' 28 7, rsv35 := bitOf x 35,
    fmt := x.extractLsb' 36 4, rsv := x.extractLsb' 40 24 }
def fieldsX (x : Word64) : XWord :=
  { p := x.extractLsb' 8 3, pneg := bitOf x 11, ad := x.extractLsb' 12 4, as := x.extractLsb' 16 4,
    sa := x.extractLsb' 20 5, sb := x.extractLsb' 25 5, n := x.extractLsb' 30 4, rsv := x.extractLsb' 34 6,
    fn := x.extractLsb' 40 8, imm16 := x.extractLsb' 48 16 }
def fieldsB (x : Word64) : BWord :=
  { p := x.extractLsb' 8 3, pneg := bitOf x 11, sa := x.extractLsb' 12 5, rsv := x.extractLsb' 17 15,
    imm := x.extractLsb' 32 32 }
def opcodeOf (x : Word64) : Nat := bitsOf x 0 8

/-- The opcodes of Table 3-5. -/
def opNOP : Nat := 0x00
def opADD : Nat := 0x01
def opSUB : Nat := 0x02
def opMUL : Nat := 0x03
def opLOGIC : Nat := 0x04
def opSHIFT : Nat := 0x05
def opADDI : Nat := 0x06
def opMOVI : Nat := 0x07
def opCMP : Nat := 0x08
def opCMPI : Nat := 0x09
def opPLOG : Nat := 0x0A
def opLDS : Nat := 0x0B
def opSTS : Nat := 0x0C
def opRDSR : Nat := 0x0D
def opAMOV : Nat := 0x10
def opAADD : Nat := 0x11
def opAADDI : Nat := 0x12
def opARD : Nat := 0x13
def opVLD : Nat := 0x20
def opVST : Nat := 0x21
def opVOP : Nat := 0x22
def opVFMA : Nat := 0x23
def opVFUNC : Nat := 0x24
def opVRED : Nat := 0x25
def opVCVT : Nat := 0x26
def opVQMX : Nat := 0x27
def opVBCAST : Nat := 0x28
def opVTAIL : Nat := 0x29
def opVACC : Nat := 0x2A
def opMLOAD : Nat := 0x30
def opMMA : Nat := 0x31
def opDMA : Nat := 0x40
def opDWAIT : Nat := 0x41
def opSEND : Nat := 0x50
def opRECV : Nat := 0x51
def opSWAIT : Nat := 0x52
def opRWAIT : Nat := 0x53
def opSEMSET : Nat := 0x60
def opSEMCLR : Nat := 0x61
def opSEMWAIT : Nat := 0x62
def opBARRIER : Nat := 0x63
def opFENCE : Nat := 0x64
def opBR : Nat := 0x70
def opLOOP : Nat := 0x71
def opTBOUND : Nat := 0x72
def opHALT : Nat := 0x73
/-- All other opcodes are illegal (R59). -/
def opDefined (op : Nat) : Bool :=
  decide (op ≤ 0x0D) || (decide (0x10 ≤ op) && decide (op ≤ 0x13)) || (decide (0x20 ≤ op) && decide (op ≤ 0x2A)) ||
  op == 0x30 || op == 0x31 || op == 0x40 || op == 0x41 || (decide (0x50 ≤ op) && decide (op ≤ 0x53)) ||
  (decide (0x60 ≤ op) && decide (op ≤ 0x64)) || (decide (0x70 ≤ op) && decide (op ≤ 0x73))

/-! ### Fault codes (Table 3-10) -/

def fILLOP : Nat := 0x01
def fOPERAND : Nat := 0x02
def fADDRESS : Nat := 0x03
def fPERMISSION : Nat := 0x04
def fECC : Nat := 0x05
def fCHANNEL : Nat := 0x06
def fOVERRUN : Nat := 0x07
def fTILESTATE : Nat := 0x08
def fLOOP : Nat := 0x09
def fPOISON : Nat := 0x0A

/-! ### Illegal words (R58). Each form answers 0 for a legal word, or the fault code of Table 3-10. -/

/-- What a field of format R or I must look like: unused, any of 32 registers, or one of fewer with its high bits
reserved. -/
inductive Fld where
  | unused
  | all
  | low (bits : Nat)
  deriving DecidableEq, Repr

def fldOk (k : Fld) (v : BitVec 5) : Bool :=
  match k with
  | .unused => v == 0
  | .all => true
  | .low b => decide (v.toNat < 2 ^ b)

/-- A word of format R: reserved bits 0, FN among the defined ones, each field as its operation names it. -/
def checkR (w : RWord) (fnOk : Bool) (d a b c : Fld) : Nat :=
  if w.rsv = 0 && fnOk && fldOk d w.d && fldOk a w.a && fldOk b w.b && fldOk c w.c then 0 else fILLOP
/-- A word of format I. -/
def checkI (w : IWord) (fnOk : Bool) (d a : Fld) : Nat :=
  if w.rsv = 0 && fnOk && fldOk d w.d && fldOk a w.a then 0 else fILLOP
/-- A destination predicate must not be P0 (R57). -/
def checkPd (code : Nat) (d : BitVec 5) : Nat := if code ≠ 0 then code else if d = 0 then fOPERAND else 0
/-- A word of format X: which of AD, AS, SA, SB, N and IMM16 the operation names. -/
def checkX (w : XWord) (fnOk ad as sa sb n imm : Bool) : Nat :=
  if w.rsv = 0 && fnOk && (ad || w.ad = 0) && (as || w.as = 0) && (sa || w.sa = 0) && (sb || w.sb = 0) &&
     (n || w.n = 0) && (imm || w.imm16 = 0) then 0 else fILLOP

def sext64 (x : BitVec 32) : Word64 := x.signExtend 64
def sext48 (x : BitVec 32) : Addr := x.signExtend 48

/-! ### Addresses of the own slice (R59, R66) -/

/-- The offset in the own slice of the n bytes at a device address, if they all lie there and the address is aligned. -/
def State.ownOfs (s : State) (c : CoreId) (a : Addr) (n align : Nat) : Option Nat :=
  match s.place (s.owner c.region) a.toNat with
  | .slice k o => if k = c ∧ a.toNat % align = 0 ∧ o + n ≤ 0x200000 then some o else none
  | _ => none

end Sys2Proof.Machine
end

