-- ==== Sys2Proof/Machine/Faults.lean ====
section
/-! DEFINITION. The PC and the loop stack (R60), cycles and stalls, tile groups and remote-dependent tiles (R79, R82), abandonment
(R83) and faults (R86). -/

namespace Sys2Proof.Machine

/-! ### The PC and the loop stack (R60) -/

/-- Where the PC goes when word pc has been executed: back to the start of a body whose last word it is while rounds
are left, else on. -/
def backEdge (pc : Nat) : List LoopEnt → Nat × List LoopEnt
  | [] => (pc + 1, [])
  | e :: es =>
    if e.last = pc then
      if 1 < e.left then (e.first, { e with left := e.left - 1 } :: es) else backEdge pc es
    else (pc + 1, e :: es)
def CoreSt.advance (k : CoreSt) : CoreSt :=
  let r := backEdge k.pc k.loops
  { k with pc := r.1, loops := r.2 }

/-! ### Cycles (log entry 12): the counter's ns since a moment, at the region's frequency -/

def State.cyclesSince (s : State) (r : RegionNo) (t : Nat) : Nat := (s.now - t) * s.rgnFreq r / 1000

/-- Stall cycles of the wait that ends now, however it ends: remote waits and all others (Table 3-12). -/
def State.countStall (s : State) (c : CoreId) : State :=
  let n := BitVec.ofNat 32 (s.cyclesSince c.region (s.core c).waitAt)
  s.onCore c (fun k => if k.remoteWait then { k with stallRemote := k.stallRemote + n }
                       else { k with stallLocal := k.stallLocal + n })
/-- A wait, on an instruction or at the gate, that a fault, a stop or an abandonment cuts. -/
def State.cutWait (s : State) (c : CoreId) : State :=
  let k := s.core c
  if k.blocked.isSome || k.run == .gate then s.countStall c else s

/-! ### Tile groups and remote-dependent tiles -/

def coreOfKey (k : Nat) : CoreId := { region := Fin.ofNat 16 (k / 64), pos := Fin.ofNat 64 (k % 64) }
/-- The members of a core's tile group (R79): a group of its own where CORE_TGROUP is not VALID. -/
def State.groupOf (s : State) (c : CoreId) : List CoreId :=
  let g := (s.core c).tgroup
  if bitOf g 31 then
    (s.cores.map (fun e => coreOfKey e.1)).filter (fun k =>
      s.owner k.region == s.owner c.region && bitOf (s.core k).tgroup 31 &&
      bitsOf (s.core k).tgroup 0 12 == bitsOf g 0 12)
  else [c]

def CoreSt.schanOf (k : CoreSt) (n : Nat) : Word32 := tabGet (fun _ => 0) k.schan n
def CoreSt.rchanOf (k : CoreSt) (n : Nat) : Word32 := tabGet (fun _ => 0) k.rchan n
def CoreSt.baridOf (k : CoreSt) (n : Nat) : Word32 := tabGet (fun _ => 0) k.barid n
/-- Whether a binding (Table 3-15) names a core on another package. -/
def State.bindRemote (s : State) (c : CoreId) (b : Word32) : Bool :=
  bitOf b 31 && (match s.resolve (s.owner c.region) (BitVec.ofNat 16 (bitsOf b 0 16)) with
    | some (_, some _) => false
    | _ => true)
/-- The core on this package that a binding names. -/
def State.bindLocal (s : State) (c : CoreId) (b : Word32) : Option CoreId :=
  if bitOf b 31 then
    match s.resolve (s.owner c.region) (BitVec.ofNat 16 (bitsOf b 0 16)) with
    | some (_, some k) => some k
    | _ => none
  else none

/-- Barrier groups of a partition's active image (Table 10-3): the members' coordinates. -/
def State.barrierMembers (s : State) (d : Dye) (g : Nat) : List (BitVec 16) :=
  match tabGet (fun _ => none) s.images d.val with
  | none => []
  | some i => i.sections.flatMap (fun x => match x.body with
      | .groups _ bs _ => (bs.filter (fun b => b.1 == g)).flatMap (·.2)
      | _ => [])
def State.barrierSpans (s : State) (d : Dye) (g : Nat) : Bool :=
  (s.barrierMembers d g).any (fun m => bitsOf m 10 6 != s.pkgOrd d)

/-- Whether word x, run by core c, is a wait that can depend on another package or the host (R82, first list). -/
def State.remoteWord (s : State) (c : CoreId) (x : Word64) : Bool :=
  let k := s.core c
  let w := fieldsX x
  let op := opcodeOf x
  if op = opRWAIT then s.bindRemote c (k.rchanOf w.n.toNat)
  else if op = opSEND then s.bindRemote c (k.schanOf w.n.toNat)
  else if op = opSWAIT then (List.range 16).any (fun n => bitOf w.imm16 n && s.bindRemote c (k.schanOf n))
  else if op = opDWAIT then Nat.land w.imm16.toNat k.tileTags.toNat != 0
  else if op = opBARRIER then s.barrierSpans (s.owner c.region) (bitsOf (k.baridOf w.n.toNat) 0 12)
  else false
/-- What is reached from a list of points, level by level; fuel levels are followed. -/
def closure (succ : Nat → List Nat) : Nat → List Nat → List Nat → List Nat
  | 0, seen, _ => seen
  | n + 1, seen, todo =>
    let new := ((todo.flatMap succ).filter (fun x => !seen.contains x)).eraseDups
    if new == [] then seen else closure succ n (seen ++ new) new
/-- Where the sequencer may go after the word at pc, inside its tile: a TBOUND or HALT ends it, a BR may branch, a LOOP may
skip its body, and the last word of a loop body may lead back to the first. -/
def CoreSt.nextPcs (k : CoreSt) (pc : Nat) : List Nat :=
  match k.istore[pc]? with
  | none => []
  | some x =>
    let op := opcodeOf x
    let w := fieldsB x
    if op = opTBOUND ∨ op = opHALT then []
    else
      (pc + 1) :: ((if op = opBR ∨ op = opLOOP then
          [((pc : Int) + w.imm.toInt + (if op = opLOOP then 1 else 0)).toNat] else []) ++
        (k.ckpt.loops.filter (fun e => e.last == pc)).map (·.first) ++
        ((List.range pc).filter (fun l => match k.istore[l]? with
          | some y => opcodeOf y == opLOOP && l + (fieldsB y).imm.toNat == pc
          | none => false)).map (· + 1))
/-- The words of the core's present tile: those reached from its checkpoint before the next TBOUND or HALT (R80, R82). -/
def State.tileOf (s : State) (c : CoreId) : List Word64 :=
  let k := s.core c
  (closure k.nextPcs k.istore.length [k.ckpt.pc] [k.ckpt.pc]).filterMap (fun pc => k.istore[pc]?)
/-- The cores on this package that a wait of the present tile pairs with (R82, second list). -/
def State.partners (s : State) (c : CoreId) : List CoreId :=
  let k := s.core c
  (s.tileOf c).flatMap (fun x =>
    let w := fieldsX x
    let op := opcodeOf x
    if op = opRWAIT then (s.bindLocal c (k.rchanOf w.n.toNat)).toList
    else if op = opSEND then (s.bindLocal c (k.schanOf w.n.toNat)).toList
    else if op = opSWAIT then
      (List.range 16).flatMap (fun n => if bitOf w.imm16 n then (s.bindLocal c (k.schanOf n)).toList else [])
    else if op = opBARRIER then
      (s.barrierMembers (s.owner c.region) (bitsOf (k.baridOf w.n.toNat) 0 12)).filterMap (fun m =>
        match s.resolve (s.owner c.region) m with
        | some (_, some q) => some q
        | _ => none)
    else [])
/-- Whether the core's present tile is remote-dependent (R82): a wait of it, or of a tile that it depends on through partners
on this package, can depend on another package or the host. -/
def State.remoteDep (s : State) (c : CoreId) : Bool :=
  (closure (fun q => (s.partners (coreOfKey q)).map coreKey) 1024 [coreKey c] [coreKey c]).any
    (fun q => (s.tileOf (coreOfKey q)).any (s.remoteWord (coreOfKey q)))

/-! ### Abandonment (R83, Table 3-9) -/

/-- Whether a transfer stays on the package (Table 3-9, local DMAs and SENDs). -/
def localXfer (x : Xfer) : Bool := !x.remote
/-- The part of a queue that is in progress: its first transfer, if that is local. -/
def inProgress : List Xfer → List Xfer
  | [] => []
  | x :: _ => if localXfer x then [x] else []
def CoreSt.creditsOf (k : CoreSt) (n : Nat) : List Credit := tabGet (fun _ => []) k.credits n
def CoreSt.setCredits (k : CoreSt) (n : Nat) (l : List Credit) : CoreSt :=
  { k with credits := tabSet (fun _ => []) k.credits n l }
/-- The credit held for message m of a channel. -/
def CoreSt.creditFor (k : CoreSt) (n m : Nat) : Option Credit := (k.creditsOf n).find? (fun e => e.num == m)
/-- A credit comes; it takes the place of an earlier one for the same message. -/
def CoreSt.addCredit (k : CoreSt) (n : Nat) (cr : Credit) : CoreSt :=
  k.setCredits n ((k.creditsOf n).filter (fun e => e.num != cr.num) ++ [cr])
/-- A SEND was refused against its credit (R84): the credit is gone, and the SEND waits for the next. -/
def CoreSt.refuseSend (k : CoreSt) (x : Xfer) : CoreSt :=
  { (k.setCredits x.num ((k.creditsOf x.num).filter (fun e => e.num != x.seq || e.epoch != x.cepoch))) with
    refusedSends := k.refusedSends ++ [x] }
/-- Issue stops, EPOCH rises, REMOTE_WAIT clears; queued operations that have not started are discarded and remote
requests forgotten (Table 3-9). -/
def CoreSt.beginAbandon (k : CoreSt) : CoreSt :=
  { k with abandoning := true, epoch := k.epoch + 1, remoteWait := false, blocked := none, mq := [],
           xq := inProgress k.xq, sent := [], refusedSends := [] }
/-- The core abandons its tile when a stop is pending or a member of its group has faulted, and it is blocked in a
remote-dependent tile (R83). -/
def State.mustAbandon (s : State) (c : CoreId) : Bool :=
  let k := s.core c
  k.run == .running && !k.abandoning && k.blocked.isSome &&
  (k.stopPend || (s.groupOf c).any (fun q => (s.core q).run == .faulted)) &&
  s.remoteDep c
def State.checkAbandon (s : State) (c : CoreId) : State :=
  if s.mustAbandon c then (s.cutWait c).onCore c CoreSt.beginAbandon else s
def State.checkAbandons (s : State) (cs : List CoreId) : State := cs.foldl State.checkAbandon s

/-! ### Faults (R86) -/

/-- CORE_FAULT_INFO (Table 3-12). -/
def faultInfoOf (num op : Nat) : Word32 := BitVec.ofNat 32 (num % 256 + op % 256 * 256)
def CoreSt.faulted (k : CoreSt) (code pc num op : Nat) : CoreSt :=
  { k with run := .faulted, fault := BitVec.ofNat 8 code, faultPc := BitVec.ofNat 32 pc, faultInfo := faultInfoOf num op,
           epoch := k.epoch + 1, stopPend := false, remoteWait := false, blocked := none, mq := [],
           xq := inProgress k.xq, sent := [], refusedSends := [], errTags := 0, errSends := 0, remoteTags := 0,
           credits := [] }
/-- Whether an error that becomes known now is only recorded (R86): the core abandons, or has left RUNNING and GATE. -/
def CoreSt.quiet (k : CoreSt) : Bool := k.abandoning || !(k.run == .running || k.run == .gate)
/-- A fault's Ledger record: FAULT, no detector, severity STEP, under the core's LCOORD and dye. -/
def State.faultRec (s : State) (c : CoreId) (code : Nat) : State :=
  s.ledger { type := 1, detector := 0, dye := s.owner c.region, severity := 3, region := c.region, core := some c.pos,
             lcoord := s.lcoord c, detail := [code] }
/-- A stop is requested of a core that runs or waits at its gate; the watchdog is frozen from the first request on (R77). -/
def CoreSt.askStop (now : Nat) (k : CoreSt) : CoreSt :=
  if k.run == .running || k.run == .gate then
    { k with stopPend := true, stopAt := if k.stopPend then k.stopAt else now }
  else k
/-- A core takes a fault: it stops issue and the region controller stops the rest of its tile group (R86). An error that becomes
known after the core has left RUNNING and GATE, or while it abandons, is only recorded. -/
def State.coreFault (s : State) (c : CoreId) (code pc num op : Nat) : State :=
  if (s.core c).quiet then s.faultRec c code
  else
    let s1 := ((s.cutWait c).onCore c (fun k => k.faulted code pc num op)).faultRec c code
    let others := (s1.groupOf c).filter (fun q => q ≠ c && ((s1.core q).run == .running || (s1.core q).run == .gate))
    (others.foldl (fun t q => t.onCore q (CoreSt.askStop s.now)) s1).checkAbandons others
/-- A fault at the instruction that is issuing. -/
def State.faultHere (s : State) (c : CoreId) (code num op : Nat) : State := s.coreFault c code (s.core c).pc num op

/-- A transfer of a core ended in an error that no wait will meet: the core has left RUNNING and GATE, or abandons. It is recorded in the
Ledger (R86); f is what the error leaves otherwise. -/
def State.lateError (s : State) (c : CoreId) (f : CoreSt → CoreSt) (late : CoreSt → CoreSt) : State :=
  if (s.core c).quiet then (s.onCore c late).faultRec c fPOISON else s.onCore c f
/-- The instruction that issued the access of a master of a core: its PC, its channel or tag, and its opcode (R86). -/
def CoreSt.issuer (k : CoreSt) (m : Master) : Nat × Nat × Nat :=
  match m with
  | .matrixEngine _ =>
    (match k.mq with
     | .mload _ _ _ pc :: _ => (pc, 0, opMLOAD)
     | .mma _ _ _ _ _ _ _ _ pc :: _ => (pc, 0, opMMA)
     | [] => (k.pc, 0, ((k.istore[k.pc]?).map opcodeOf).getD 0))
  | .transferEngine _ =>
    (match k.xq with
     | x :: _ => (x.pc, x.num, if x.send then opSEND else opDMA)
     | [] => (k.pc, 0, ((k.istore[k.pc]?).map opcodeOf).getD 0))
  | _ => (k.pc, 0, ((k.istore[k.pc]?).map opcodeOf).getD 0)
/-- A fault of the core whose port master m is, at the instruction that issued the access. -/
def State.masterFault (s : State) (m : Master) (c : CoreId) (code : Nat) : State :=
  let i := (s.core c).issuer m
  s.coreFault c code i.1 i.2.1 i.2.2

end Sys2Proof.Machine
end

