-- ==== Sys2Proof/Machine/Bank.lean ====
section
/-! DEFINITION. The banks of a slice: who is served when several accesses need one bank (R93), what meets at one word (R103), the
conflict counters (R104), the aliases (R102), and the port by which every access of a master reads or writes a slice. -/

namespace Sys2Proof.Machine

/-! ### Masters and accesses (Table 4-1) -/

/-- The core whose port a master is, which takes the faults of its accesses. -/
def masterCore : Master → Option CoreId
  | .sequencer c => some c
  | .matrixEngine c => some c
  | .transferEngine c => some c
  | _ => none
/-- Bank priority (Table 4-1; 1 is highest). -/
def bankPriority (idx : Nat) : Nat :=
  match idx with
  | 0 => 1
  | 1 => 2
  | 2 => 3
  | 3 => 4
  | 4 => 5
  | 5 => 5
  | 6 => 5
  | 7 => 6
  | _ => 7
/-- Which permission of Table 4-4 an access needs, and how many bytes it touches. -/
def accKind : Access → Nat
  | .read _ => 0
  | .write _ => 1
  | .bitSet _ => 2
  | .bitClear _ => 2
def accBytes : Access → Nat
  | .read n => n
  | .write bs => bs.length
  | .bitSet _ => 8
  | .bitClear _ => 8

/-! ### Aliases (R102) -/

/-- The 64-bit word after an alias. -/
def aliasWord (set : Bool) (old mask : Word64) : Word64 := if set then old ||| mask else old &&& ~~~mask
/-- An alias applied at bytes o to o + 7 of a slice: the first component says that an uncorrectable error kept it from
being performed (R101). -/
def State.applyMask (s : State) (q : CoreId) (o : Nat) (set : Bool) (mask : Word64) : Bool × State :=
  s.sliceWrite q o (leBytes (aliasWord set (BitVec.ofNat 64 (leNat (s.sliceRaw q o 8))) mask).toNat 8)

/-! ### A core's SEMWAIT sees a write to its word (R74) -/

/-- The word of the own slice that a core's SEMWAIT waits on. -/
def State.semWord (s : State) (c : CoreId) : Option Nat :=
  match (s.core c).blocked with
  | some (.x op w) => if op = opSEMWAIT then (s.ownOfs c ((s.core c).a w.as.toNat) 8 8).map (· / 32) else none
  | _ => none
/-- Words of a slice have been written: a SEMWAIT on one of them will be read again. -/
def State.semTouch (s : State) (c : CoreId) (ws : List Nat) : State :=
  match s.semWord c with
  | some w => if w ∈ ws then s.onCore c (fun k => { k with semHit := true }) else s
  | none => s

/-! ### One grant (R93, R103, R104) -/

/-- The request that wins a bank among those that wait for it (R93): one that has waited 8 cycles goes ahead of every
priority, the lower index first; else the highest priority, then the lower index. -/
def bankBefore (a b : BankReq) : Bool :=
  let ra := if 8 ≤ a.age then (0, 0, a.idx) else (1, bankPriority a.idx, a.idx)
  let rb := if 8 ≤ b.age then (0, 0, b.idx) else (1, bankPriority b.idx, b.idx)
  decide (ra.1 < rb.1) || (ra.1 == rb.1 && (decide (ra.2.1 < rb.2.1) || (ra.2.1 == rb.2.1 && decide (ra.2.2 < rb.2.2))))
def bankWinner : List BankReq → Option BankReq
  | [] => none
  | r :: rs =>
    match bankWinner rs with
    | none => some r
    | some w => if bankBefore w r then some w else some r
/-- The order within a grant (Table 4-5): reads, then writes, then clears, then sets. -/
def grantRank : Access → Nat
  | .read _ => 0
  | .write _ => 1
  | .bitClear _ => 2
  | .bitSet _ => 3
/-- An uncorrectable error that an access met, for its issuer (R101). -/
def State.ueAnswer (s : State) (r : BankReq) (n : Nat) : State :=
  let t : State := { s with resp := { poison := true, data := List.replicate n 0xFF } }
  match masterCore r.master with
  | some k => t.masterFault r.master k fECC
  | none => t
/-- One request served. -/
def State.serve (s : State) (r : BankReq) : State :=
  let o := 32 * r.word + r.first
  match r.acc with
  | .read n =>
    let d := s.sliceRead r.core o n
    if d.1.2 then
      match masterCore r.master with
      | some k => (d.2.answer d.1.1 true).masterFault r.master k fECC
      | none => d.2.answer d.1.1 true
    else d.2.answer d.1.1
  | .write bs =>
    let d := s.sliceWrite r.core o bs
    if d.1 then d.2.ueAnswer r bs.length else d.2.semTouch r.core [r.word]
  | .bitSet k =>
    let d := s.applyMask r.core o true k
    if d.1 then d.2.ueAnswer r 8 else d.2.semTouch r.core [r.word]
  | .bitClear k =>
    let d := s.applyMask r.core o false k
    if d.1 then d.2.ueAnswer r 8 else d.2.semTouch r.core [r.word]
/-- A request that waits for a bank of core c's slice. -/
def waitsAt (c : CoreId) (bank : Nat) (r : BankReq) : Bool := r.core == c && bankOf (32 * r.word) == bank
/-- What waits for a bank at another word than w loses a cycle: each waits one more, each such word counts one conflict, and n more
words count that are not in the queue (R93, R104). -/
def State.bankLose (s : State) (c : CoreId) (bank w n : Nat) : State :=
  let lost := s.bankQ.filter (fun r => waitsAt c bank r && r.word != w)
  (({ s with bankQ := s.bankQ.map (fun (r : BankReq) => if waitsAt c bank r && r.word != w then { r with age := r.age + 1 } else r) } : State)).bump
    (.spd c.region) (SPD_CONF + c.pos.val * 0x80 + bank * 4) ((lost.map (fun (r : BankReq) => r.word)).dedup.length + n)
/-- The requests at word w with a rank from lo on and below hi leave the queue and take effect, in Table 4-5's order. -/
def State.serveWord (s : State) (c : CoreId) (w lo hi : Nat) : State :=
  let here := fun (r : BankReq) => r.core == c && r.word == w && decide (lo ≤ grantRank r.acc) && decide (grantRank r.acc < hi)
  let met := s.bankQ.filter here
  if met = [] then s
  else
    (List.range 4).foldl (fun t k => (met.filter (fun r => grantRank r.acc == k)).foldl State.serve t)
      { s with bankQ := s.bankQ.filter (fun r => !here r) }

/-! ### The port of a slice: an access of a command of its own meets what waits for its banks -/

/-- Bank arbitration of master index i at one word; age counts the cycles that this access has waited (R93). A winner at another word
is served first, with all that meets it there; when the grant is this access's own, what meets it and comes before it in Table 4-5
takes effect first. -/
def State.bankWin1 (c : CoreId) (i w rank : Nat) : Nat → Nat → State → State
  | 0, _, s => s
  | n + 1, age, s =>
    let bank := bankOf (32 * w)
    let here := s.bankQ.filter (waitsAt c bank)
    if here = [] then s
    else
      let me : BankReq := { core := c, word := w, first := 0, acc := .read 0, idx := i, master := .regionController c.region, age := age }
      match bankWinner (here ++ [me]) with
      | none => s
      | some x =>
        if x.word = w then (s.bankLose c bank w 0).serveWord c w 0 rank
        else
          ((s.bankLose c bank x.word (if here.any (fun r => r.word == w) then 0 else 1)).serveWord c x.word 0 4).bankWin1 c i w rank n
            (age + 1)
/-- The same for every word of an access, in ascending order. -/
def State.bankWin (s : State) (c : CoreId) (i rank : Nat) (ws : List Nat) : State :=
  if s.bankQ.any (fun r => r.core == c) then ws.foldl (fun t w => t.bankWin1 c i w rank (t.bankQ.length + 1) 0) s else s
/-- What meets an access and comes after it in Table 4-5. -/
def State.bankRest (s : State) (c : CoreId) (ws : List Nat) : State :=
  if s.bankQ.any (fun r => r.core == c) then ws.foldl (fun t w => t.serveWord c w 0 4) s else s
/-- A read of a slice by master index i. -/
def State.portRead (s : State) (c : CoreId) (i o n : Nat) : (List Byte × Bool) × State :=
  let ws := wordsOf o n
  let r := (s.bankWin c i 0 ws).sliceRead c o n
  (r.1, r.2.bankRest c ws)
/-- A write of a slice by master index i; the first component is that of sliceWrite. -/
def State.portWrite (s : State) (c : CoreId) (i o : Nat) (bs : List Byte) : Bool × State :=
  let ws := wordsOf o bs.length
  let r := (s.bankWin c i 1 ws).sliceWrite c o bs
  (r.1, (r.2.semTouch c ws).bankRest c ws)
/-- An alias by master index i. -/
def State.portAlias (s : State) (c : CoreId) (i o : Nat) (set : Bool) (mask : Word64) : Bool × State :=
  let ws := [o / 32]
  let r := (s.bankWin c i (if set then 3 else 2) ws).applyMask c o set mask
  (r.1, (r.2.semTouch c ws).bankRest c ws)

/-! ### Refusals at a slice (R96) -/

/-- A refusal at a slice, by master: counted, recorded, and for a core's own masters an address fault. -/
def State.refuseSlice (s : State) (m : Master) (q : CoreId) (a n : Nat) : State :=
  let s1 := (s.bump (.spd q.region) SPD_ACC_ERR).refuse m a n (some q)
  match masterCore m with
  | some k => s1.masterFault m k fADDRESS
  | none => s1

end Sys2Proof.Machine
end

