-- ==== Sys2Proof/Machine/Access.lean ====
section
/-! DEFINITION. Accesses by device address: which register an address names (Table 1-7), which bytes a master reaches (R27), reads and
writes piece by piece over the places of Table 1-6 (R27's consecutive pieces), and requests that leave through the fabric engine
(R297) and the host port (R288). -/

namespace Sys2Proof.Machine

/-! ### Where a register lies (Table 1-7) -/

/-- What an address of the register range names: a window and an offset in it, no window, or a window of a unit that the dye does
not own. -/
inductive RegAt where
  | at (w : Win) (o : Nat)
  | hole
  | foreign
  deriving DecidableEq, Repr, Inhabited

/-- A region as a master of dye d names it: a tenant by ordinal, the management partition by region number (R19, R29). -/
def State.regionNamed (s : State) (d : Dye) (k : Nat) : Option RegionNo :=
  if d = 0 then some (Fin.ofNat 16 k) else s.regionOf d k
def State.atRegion (s : State) (d : Dye) (k : Nat) (f : RegionNo → RegAt) : RegAt :=
  match s.regionNamed d k with
  | some r => f r
  | none => .foreign
/-- The window at an offset of the register range, for a master of dye d. -/
def State.regAt (s : State) (d : Dye) (a : Nat) : RegAt :=
  let n := a / 0x10000
  let o := a % 0x10000
  if a < 0x1000000 then
    (if n = 0 then .at .pkg o else if n = 1 then .at .inn o else if n = 2 then .at .cnt o else if n = 3 then .at .pwr o
     else if n = 4 then .at .clk o else if n = 5 then .at .thm o else if n = 6 then .at .ldg o else if n = 7 then .at .inj o
     else if n = 8 then .at .tmx o else if n = 9 then .at .sec o else if n = 10 then .at .mgt o else if n = 11 then .at .npt o
     else if n = 12 then .at .pci o else if n = 13 ∨ n = 14 then .at (.eth (Fin.ofNat 2 (n - 13))) o else if n = 15 then .at .smf o
     else if n < 22 then .at (.tlk (Fin.ofNat 6 (n - 16))) o else if n = 22 then .at .tier o else .hole)
  else if a < 0x2000000 then
    let die := (a - 0x1000000) / 0x800000
    let k := (a - 0x1000000) % 0x800000 / 0x10000
    (if k = 0 then .at (.die (Fin.ofNat 2 die)) o else if k = 1 then .at (.noc (Fin.ofNat 2 die)) o
     else if k < 6 then .at (.drv (Fin.ofNat 8 (4 * die + k - 2))) o else if k < 10 then .at (.hbm (Fin.ofNat 8 (4 * die + k - 6))) o
     else .hole)
  else if 0x4000000 ≤ a ∧ a < 0x5000000 then
    let k := (a - 0x4000000) % 0x100000 / 0x10000
    (if 4 ≤ k then .hole
     else s.atRegion d ((a - 0x4000000) / 0x100000) (fun r =>
       if k = 0 then .at (.rgn r) o else if k = 1 then .at (.atp r) o else if k = 2 then .at (.cou r) o else .at (.spd r) o))
  else if 0x8000000 ≤ a ∧ a < 0x9000000 then
    let k := (a - 0x8000000) / 0x10000
    s.atRegion d (k / 16) (fun r => .at (.clu r (Fin.ofNat 16 k)) o)
  else if 0x10000000 ≤ a ∧ a < 0x14000000 then
    let k := (a - 0x10000000) / 0x10000
    s.atRegion d (k / 64) (fun r => .at (.core { region := r, pos := Fin.ofNat 64 k }) o)
  else .hole
/-- The region of a unit's window, which belongs to the partition that owns the region. -/
def unitRegion : Win → Option RegionNo
  | .core c => some c.region
  | .clu r _ => some r
  | .spd r => some r
  | .atp r => some r
  | .cou r => some r
  | _ => none
/-- The region and core that a register belongs to, for the record of a refusal (R7, R27). -/
def RegAt.core : RegAt → Option CoreId
  | .at (.core c) _ => some c
  | _ => none
def RegAt.region : RegAt → Option RegionNo
  | .at (.rgn r) _ => some r
  | .at w _ => unitRegion w
  | _ => none

/-! ### Fabric requests (R297, R301) -/

def pairKey (sl : SlotNo) (p : Fin 2) : Nat := sl.val * 2 + p.val
def pairReset (_ : Nat) : FabPair := {}
def State.ethUp (s : State) (p : Fin 2) : Bool := s.fld (.eth p) ETH_STATUS 0 2 == 2
/-- The port to a slot: (s + own slot) mod 2, or the other one while that is down (R297). -/
def State.fabPort (s : State) (dst : SlotNo) : Fin 2 :=
  let p : Fin 2 := Fin.ofNat 2 (dst.val + s.slot.val)
  if s.ethUp p then p else if s.ethUp (p + 1) then p + 1 else p
/-- A packet leaves for a slot: it takes the next SEQ of the pair and the next TXC of the key, and stays unacknowledged
until the other end's ACK_SEQ covers it. -/
def State.fabSend (s : State) (p : FabricPacket) : State :=
  let port := s.fabPort p.dstSlot
  let k := pairKey p.dstSlot port
  let pr := tabGet pairReset s.fabPairs k
  let q := { p with srcSlot := s.slot, port := port, seq := BitVec.ofNat 32 pr.seq,
                    ackSeq := BitVec.ofNat 32 (pr.rxNext + 0xFFFFFFFF),
                    txc := BitVec.ofNat 64 (natGet s.fabTxc (k * 16 + p.dye.val)) }
  { s with fabTx := s.fabTx ++ [q],
           fabPairs := tabSet pairReset s.fabPairs k { pr with seq := pr.seq + 1, unacked := pr.unacked ++ [q] },
           fabTxc := natBump s.fabTxc (k * 16 + p.dye.val) }
/-- A request of this package to another home (R301). Answers whether it could leave: a lost or unreachable peer fails
it at once. -/
def State.fabRequest (s : State) (p : FabricPacket) (who : FabIssuer) : Bool × State :=
  if p.dstSlot ∈ s.lostSlots ∨ p.dstSlot ∈ s.unreachable then (false, s.bump .smf SMF_TIMEOUTS) else
  let s1 := s.fabSend { p with tag := BitVec.ofNat 16 s.fabTag }
  (true, { s1 with fabTag := s1.fabTag + 1,
                   fabReqs := s1.fabReqs ++ [{ tag := s.fabTag % 65536, dst := p.dstSlot, port := s.fabPort p.dstSlot,
                                               packet := { p with tag := BitVec.ofNat 16 s.fabTag }, issuer := who,
                                               sentAt := s.now }] })

/-- R300: this package holds a lease on the segment, and its expiry is less than 50 µs away: a write or an atomic is not
issued, with status EXPIRED. -/
def State.leaseLate (s : State) (d : Dye) (sl : SlotNo) (o : Nat) : Bool :=
  s.leases.any (fun (x : LeaseHeld) => x.slot == sl && x.seg == o / 2097152 && x.dye == d && decide (x.expiry < s.now + 50000))

/-! ### Which bytes are reachable (R27) -/

/-- Whether a DMA of core c may read or write the byte at a (R27, R68): any slice of its partition, its own
accumulators, its HBM pages, shared space of other slots and the host window. -/
def State.dmaByteOk (s : State) (c : CoreId) (write : Bool) (a : Nat) : Bool :=
  match s.place (s.owner c.region) a with
  | .slice _ _ => true
  | .accum k _ => k == c
  | .hbm o => s.hbmReach (s.owner c.region) write o
  | .shared _ _ => true
  | .host _ => true
  | _ => false
/-- The same for a range. Places and frames change only at multiples of 64 KiB, so one byte of each block decides. -/
def State.dmaRangeOk (s : State) (c : CoreId) (write : Bool) (a n : Nat) : Bool :=
  decide (a + n ≤ 2 ^ 48) &&
  (List.range ((a + n - 1) / 65536 - a / 65536 + 1)).all (fun i =>
    s.dmaByteOk c write (max a ((a / 65536 + i) * 65536)))

/-- Whether an address range touches tier 2 or tier 3: shared space of another slot or the host window. -/
def State.farRange (s : State) (d : Dye) (a n : Nat) : Bool :=
  (List.range ((a + n - 1) / 65536 - a / 65536 + 1)).any (fun i =>
    match s.place d (max a ((a / 65536 + i) * 65536)) with
    | .shared _ _ => true
    | .host _ => true
    | _ => false)

/-! ### Piecewise reads and writes -/

/-- What a piecewise read gives: the bytes, the poison flag, whether the access was refused (R27, R96), and what is left
of the bytes that came from outside. -/
structure RdRes where
  data : List Byte := []
  poison : Bool := false
  refused : Bool := false
  far : List Byte := []
  deriving DecidableEq, Repr, Inhabited

/-- Whether master m reaches the n bytes at a, which lie in one 64 KiB block: every range of Table 1-6, every slice, accumulator and
frame begins at a multiple of 64 KiB. A Drover engine reads HBM of its own die only (R182). -/
def State.pieceOk (s : State) (m : Master) (write : Bool) (a n : Nat) : Bool :=
  let d := s.dyeOf m
  match s.place d a with
  | .slice c o =>
    (match masterIndex m c with
     | some i => s.sliceOk c i (b2n write) o n
     | none => false)
  | .accum c _ => decide (m = .transferEngine c) || decide (m = .regionController c.region)
  | .hbm o =>
    s.hbmReach d write o && (match m with
      | .drover e _ => decide (o / 2 ^ 39 = e.val / 4)
      | _ => true)
  | .shared _ _ => true
  | .host _ => true
  | _ => false
/-- The first address of n bytes at a that master m does not reach; fuel counts 64 KiB blocks. -/
def State.firstBad (s : State) (m : Master) (write : Bool) : Nat → Nat → Nat → Option Nat
  | 0, _, _ => none
  | k + 1, a, n =>
    if n = 0 then none
    else
      let w := min n (65536 - a % 65536)
      if s.pieceOk m write a w then s.firstBad m write k (a + w) (n - w) else some a
def State.refusedAt (s : State) (m : Master) (write : Bool) (a n : Nat) : Option Nat :=
  s.firstBad m write (n / 65536 + 2) a n
/-- One record of an access that is refused whole, at the first address that it does not reach (R27, R96; R7 for a register window). -/
def State.refusedRec (s : State) (m : Master) (b : Nat) : State :=
  match s.place (s.dyeOf m) b with
  | .slice c _ => (s.bump (.spd c.region) SPD_ACC_ERR).refuseRec m b (some c)
  | .accum c _ => s.refuseRec m b (some c)
  | .regs o => s.refuseRec m b (s.regAt (s.dyeOf m) o).core (s.regAt (s.dyeOf m) o).region
  | _ => s.refuseRec m b
/-- What a read that is refused whole returns: all ones and the poison flag (R27), or from a register window zeros (R7). -/
def State.refusedRead (s : State) (m : Master) (b n : Nat) (far : List Byte) : RdRes :=
  match s.place (s.dyeOf m) b with
  | .regs _ => { data := List.replicate n 0, refused := true, far := far }
  | _ => { data := List.replicate n 0xFF, poison := true, refused := true, far := far }

/-- The die on which a master's unit lies; none for a unit of the package. -/
def masterDie : Master → Option Nat
  | .regionController r => some (regionDie r)
  | .sequencer c => some (regionDie c.region)
  | .matrixEngine c => some (regionDie c.region)
  | .transferEngine c => some (regionDie c.region)
  | .appendPath r => some (regionDie r)
  | .attention r => some (regionDie r)
  | .courier r => some (regionDie r)
  | .drover e _ => some (e.val / 4)
  | .clusterDma r _ => some (regionDie r)
  | _ => none
/-- Bytes that a master reads from or writes to a die. Where its unit lies on the other die they cross the bridge, and are regulated in
the NOC_ window of the sending die (R246). -/
def State.bridge (s : State) (m : Master) (die : Nat) (write : Bool) (n : Nat) : State :=
  match masterDie m with
  | some k => if k = die then s else s.carry (.noc (Fin.ofNat 2 (if write then k else die))) (s.dyeOf m) n
  | none => s
/-- One piece of a read by master m at a, of n bytes that lie in one 64 KiB block and that it reaches. far holds the bytes that the
outside (another package, the host) returns, in order. -/
def State.readPiece (s : State) (m : Master) (a n : Nat) (far : List Byte) : RdRes × State :=
  let d := s.dyeOf m
  match s.place d a with
  | .slice c o =>
    let r := (s.bridge m (regionDie c.region) false n).portRead c ((masterIndex m c).getD 0) o n
    ({ data := r.1.1, poison := r.1.2, far := far }, r.2)
  | .accum c o => ({ data := s.accRead c o n, far := far }, s)
  | .hbm o =>
    let r := (s.bridge m (o / 2 ^ 39) false n).hbmRead d o n
    ({ data := r.1.1, poison := r.1.2, far := far }, r.2)
  | .shared _ _ => ({ data := takePad 0 n far, far := far.drop n }, s)
  | .host _ => ({ data := takePad 0 n far, far := far.drop n }, s.carry .pci d n)
  | _ => (s.refusedRead m a n far, s)

/-- A read in consecutive pieces, ascending (R27); fuel counts 64 KiB blocks. -/
def State.readF (s : State) (m : Master) : Nat → Nat → Nat → List Byte → RdRes × State
  | 0, _, _, far => ({ far := far }, s)
  | k + 1, a, n, far =>
    if n = 0 then ({ far := far }, s) else
    let w := min n (65536 - a % 65536)
    let r := s.readPiece m a w far
    let t := r.2.readF m k (a + w) (n - w) r.1.far
    ({ data := r.1.data ++ t.1.data, poison := r.1.poison || t.1.poison, refused := r.1.refused || t.1.refused,
       far := t.1.far }, t.2)
/-- A read of n bytes at a by master m: refused whole when a byte of it is out of reach (R27), else carried out in pieces. -/
def State.read (s : State) (m : Master) (a n : Nat) (far : List Byte := []) : RdRes × State :=
  match s.refusedAt m false a n with
  | some b => (s.refusedRead m b n far, s.refusedRec m b)
  | none => s.readF m (n / 65536 + 2) a n far

/-- How a write ends: done, refused (R27, R96), or not performed, for an uncorrectable error in a merge (R101) or a lease
about to expire (R300). -/
inductive WrRes where
  | ok | refused | ue
  deriving DecidableEq, Repr, Inhabited
def WrRes.plus (a b : WrRes) : WrRes := if a = .ok then b else a

/-- One piece of a write that the master reaches. A write to the host window leaves as a posted write (R288), one to another slot's
shared space as fabric writes of up to 32 lines (R298); OFFSET is that of the first byte written (log entry 69). -/
def State.writePiece (s : State) (m : Master) (a : Nat) (bs : List Byte) : WrRes × State :=
  let d := s.dyeOf m
  match s.place d a with
  | .slice c o =>
    let r := (s.bridge m (regionDie c.region) true bs.length).portWrite c ((masterIndex m c).getD 0) o bs
    (if r.1 then .ue else .ok, r.2)
  | .accum c o => (.ok, s.accWrite c o bs)
  | .hbm o => (.ok, (s.bridge m (o / 2 ^ 39) true bs.length).hbmWrite o bs)
  | .shared sl o =>
    if s.leaseLate d sl o then (.ue, s) else
    let lines := (o % 128 + bs.length + 127) / 128
    let who : FabIssuer := match m with
      | .transferEngine c => .core c
      | .vf d => .command d
      | _ => .tier
    let r := (s.carry (.eth (s.fabPort sl)) d bs.length).fabRequest
      { op := 2, dye := d, srcSlot := s.slot, dstSlot := sl, offset := BitVec.ofNat 40 o,
        countM1 := BitVec.ofNat 5 (lines - 1), payload := bs,
        epoch := match m with | .transferEngine c => (s.core c).epoch | _ => 0 } who
    (.ok, r.2)
  | .host o => (.ok, { s.carry .pci d bs.length with hostTx := s.hostTx ++ [.write d (BitVec.ofNat 64 o) bs] })
  | _ => (.refused, s)

/-- A write in consecutive pieces of at most 4 KiB; every piece is one that its place takes whole. -/
def State.writeF (s : State) (m : Master) : Nat → Nat → List Byte → WrRes × State
  | 0, _, _ => (.ok, s)
  | k + 1, a, bs =>
    if bs = [] then (.ok, s) else
    let w := min bs.length (4096 - a % 4096)
    let r := s.writePiece m a (bs.take w)
    let t := r.2.writeF m k (a + w) (bs.drop w)
    (r.1.plus t.1, t.2)
/-- A write by master m at a: discarded whole when a byte of it is out of reach (R27), else carried out in pieces. -/
def State.write (s : State) (m : Master) (a : Nat) (bs : List Byte) : WrRes × State :=
  match s.refusedAt m true a bs.length with
  | some b => (.refused, s.refusedRec m b)
  | none => s.writeF m (bs.length / 4096 + 2) a bs

/-! ### Requests of a read that leaves the package (R68, R288, R298) -/

/-- One piece of a source that lies outside: fabric READs of up to 32 lines, or host-port reads. -/
def State.askPiece (s : State) (m : Master) (a n : Nat) : State :=
  let d := s.dyeOf m
  match s.place d a with
  | .shared sl o =>
    (s.fabRequest
      { op := 1, dye := d, srcSlot := s.slot, dstSlot := sl, offset := BitVec.ofNat 40 (o / 128 * 128),
        countM1 := BitVec.ofNat 5 ((o % 128 + n + 127) / 128 - 1),
        epoch := match m with | .transferEngine c => (s.core c).epoch | _ => 0 }
      (match m with | .transferEngine c => .core c | .vf d => .command d | _ => .tier)).2
  | .host o => { s with hostTx := s.hostTx ++ [.read d (BitVec.ofNat 64 o) n] }
  | _ => s
def State.askF (s : State) (m : Master) : Nat → Nat → Nat → State
  | 0, _, _ => s
  | k + 1, a, n =>
    if n = 0 then s else
    let w := min n (3968 - a % 128)
    (s.askPiece m a w).askF m k (a + w) (n - w)
/-- Every outside part of a source range is asked for. -/
def State.ask (s : State) (m : Master) (a n : Nat) : State := if s.farRange (s.dyeOf m) a n then s.askF m (n / 3840 + 2) a n else s

end Sys2Proof.Machine
end

