-- ==== Sys2Proof/Machine/Routes.lean ====
section
/-! DEFINITION. Topology, live links and routes (R22, R23, R271 to R273). Every package computes the same routes. -/

namespace Sys2Proof.Machine

/-- The TOPOLOGY of the active system image (Table 10-3). -/
def State.topology (s : State) : Option Topology :=
  s.sysImage.bind (fun (i : Image) => i.sections.findSome? (fun x => match x.body with | .topology t => some t | _ => none))
def neighbour (t : Topology) (a : SlotNo) (l : Nat) : Option SlotNo :=
  ((t.links.find? (fun e => e.1 == a)).bind (fun e => e.2[l]?)).join
def coordOf (t : Topology) (a : SlotNo) : Option (Nat × Nat × Nat) := (t.coords.find? (fun e => e.1 == a)).map (·.2)
/-- The link of the opposite direction: X+ and X-, Y+ and Y-, Z+ and Z-. -/
def opposite (l : Nat) : Nat := if l % 2 = 0 then l + 1 else l - 1
/-- Coordinates ordered by z, then y, then x (R23). -/
def coordNo (c : Nat × Nat × Nat) : Nat := c.2.2 * 4096 + c.2.1 * 64 + c.1
/-- TLK_STATUS.STATE (Table 12-8). -/
def State.linkState (s : State) (l : Fin 6) : Nat := s.fld (.tlk l) TLK_STATUS 0 3
def State.linkUp (s : State) (l : Fin 6) : Bool := let x := s.linkState l; x == 2 || x == 3 || x == 4
/-- A link of the topology that no loss names at either end; this package's own links by their state. -/
def State.linkLive (s : State) (t : Topology) (a : SlotNo) (l : Nat) : Bool :=
  match neighbour t a l with
  | none => false
  | some b =>
    !s.lostLinks.contains (a, l) && !s.lostLinks.contains (b, opposite l) &&
    (a != s.slot || s.linkUp (Fin.ofNat 6 l)) && (b != s.slot || s.linkUp (Fin.ofNat 6 (opposite l)))
/-- The slots one hop nearer by one: distances to a destination, breadth first. -/
def State.distances (s : State) (t : Topology) : Nat → List (SlotNo × Nat) → List (SlotNo × Nat)
  | 0, l => l
  | n + 1, l =>
    let far := (l.map (·.2)).foldl max 0
    let next := (t.coords.map (·.1)).filter (fun a => !l.any (fun e => e.1 == a) &&
      (List.range 6).any (fun k => s.linkLive t a k && (match neighbour t a k with
        | some b => l.any (fun e => e.1 == b && e.2 == far)
        | none => false)))
    if next = [] then l else s.distances t n (l ++ next.map (fun a => (a, far + 1)))
/-- The distance to a slot; none where no live path is left. -/
def State.hopsTo (s : State) (dst : SlotNo) : Option Nat :=
  s.topology.bind (fun t => ((s.distances t 64 [(dst, 0)]).find? (fun e => e.1 == s.slot)).map (·.2))
/-- The link on which a packet to a slot leaves: on a shortest path, the earlier axis first, + before - (R272). -/
def State.nextLink (s : State) (dst : SlotNo) : Option (Fin 6) :=
  match s.topology with
  | none => none
  | some t =>
    let d := s.distances t 64 [(dst, 0)]
    match d.find? (fun e => e.1 == s.slot) with
    | none => none
    | some (_, n) =>
      (List.finRange 6).find? (fun l => s.linkLive t s.slot l.val && (match neighbour t s.slot l.val with
        | some b => d.any (fun e => e.1 == b && e.2 + 1 == n)
        | none => false))
/-- A packet leaves over the link of its route: header and payload are carried for its dye on that link (R246, R275). -/
def State.overLink (s : State) (dst : SlotNo) (d : Dye) (bytes : Nat) : State :=
  match s.nextLink dst with
  | some l => s.carry (.tlk l) d (32 + bytes)
  | none => s
def State.sendPacket (s : State) (p : LinkPacket) : State :=
  let s1 := s.overLink p.dstSlot p.dye p.payload.length
  { s1 with linkTx := s1.linkTx ++ [.packet p] }
/-- The packages of TOPOLOGY that no live path reaches from here. -/
def State.cutOff (s : State) : List SlotNo :=
  match s.topology with
  | none => []
  | some t => (t.coords.map (·.1)).filter (fun a => a != s.slot && (s.hopsTo a).isNone)
/-- The links that a partition's exchanges use here, by TOPOLOGY with every link live. -/
def State.usedLinks (s : State) (d : Dye) : List (Fin 6) :=
  match s.topology with
  | none => if 1 < (s.pkgTable d).length then List.finRange 6 else []
  | some t =>
    let whole : State := { sysImage := s.sysImage, regs := (List.finRange 6).foldl (fun r l =>
      tabSet regReset r (regKey (.tlk l) TLK_STATUS) 2) (tabClear s.regs (regKey (.tlk 0) 0) (regKey (.tlk 5) 0xFFFF)) }
    let others := ((s.pkgTable d).map (·.slot)).filter (· ≠ s.slot)
    if t.links = [] then (if others = [] then [] else List.finRange 6) else (others.filterMap whole.nextLink).dedup

end Sys2Proof.Machine
end

