-- ==== Sys2Proof/Machine/CoreOps.lean ====
section
/-! DEFINITION. What the instructions of a core share: issue (R58, R60), channels and credits (R72 to R74, R84, R85), barriers (R75),
the transfer queue (R68, R70), and waits that end when what they wait for has come. -/

namespace Sys2Proof.Machine

/-! ### Issue (R58, R60) -/

/-- Whether the sequencer can issue: the core is RUNNING, not blocked on a wait and not abandoning. -/
def CoreSt.canIssue (k : CoreSt) : Bool := k.run == .running && !k.abandoning && k.blocked.isNone
/-- Whether the predicate of an instruction holds (R58). -/
def CoreSt.predicate (k : CoreSt) (p : BitVec 3) (pneg : Bool) : Bool := k.p p.toNat != pneg
/-- One issue. The sequencer takes the word at the PC: beyond the program it takes a loop fault, an opcode that is not
in Table 3-5 takes an illegal-opcode fault, a word other than this instruction's means that this instruction is not the
one that issues. A legal word whose predicate fails acts as NOP; otherwise body is its effect. -/
def State.issue (s : State) (c : CoreId) (word : Word64) (illegal num : Nat) (p : BitVec 3) (pneg : Bool)
    (body : State → State) : State :=
  let k := s.core c
  if !k.canIssue then s
  else
    match k.istore[k.pc]? with
    | none => s.faultHere c fLOOP 0 0
    | some x =>
      if !opDefined (opcodeOf x) then s.faultHere c fILLOP 0 (opcodeOf x)
      else if x ≠ word then s
      else if illegal ≠ 0 then s.faultHere c illegal num (opcodeOf x)
      else if !k.predicate p pneg then s.onCore c CoreSt.advance
      else body s
/-- An effect on the core alone, after which the PC moves on. -/
def State.retire (s : State) (c : CoreId) (f : CoreSt → CoreSt) : State := s.onCore c (fun k => (f k).advance)

/-! ### Copying (R68, R70) -/

/-- Row by row: read from the source, write to the destination. far holds what remote sources returned. Answers whether
a source was poisoned (or a merge failed), and whether a slice refused. -/
def State.copyRows (s : State) (c : CoreId) (x : Xfer) : Nat → Nat → List Byte → (Bool × Bool) × State
  | 0, _, _ => ((false, false), s)
  | n + 1, i, far =>
    let r := s.read (.transferEngine c) (x.src.toNat + i * x.srcStride) x.bytes far
    if r.1.refused then ((false, true), r.2)
    else
      let w := r.2.write (.transferEngine c) (x.dst.toNat + i * x.dstStride) r.1.data
      let t := w.2.copyRows c x n (i + 1) r.1.far
      ((r.1.poison || w.1 == .ue || t.1.1, w.1 == .refused || t.1.2), t.2)

/-! ### Channels (R71 to R73, R84, R85) -/

def CoreSt.postedOf (k : CoreSt) (n : Nat) : List Posted := tabGet (fun _ => []) k.posted n
def CoreSt.setPosted (k : CoreSt) (n : Nat) (l : List Posted) : CoreSt :=
  { k with posted := tabSet (fun _ => []) k.posted n l }
/-- The message put into the oldest posted buffer of a channel that is not full. -/
def fillFirst (len : Nat) : List Posted → List Posted
  | [] => []
  | b :: bs => if b.filled.isNone then { b with filled := some len } :: bs else b :: fillFirst len bs
/-- How a message ends at its receiver: written, delivered before, refused against its credit, or not written because the slice did
not take the bytes. -/
inductive Delivery where
  | written | again | refused | lost
  deriving DecidableEq, Repr
/-- A message fill that the receiver's slice did not take: refused (R96), an address fault of the receiver; or a merge that met an
uncorrectable error (R101), an ECC fault of the receiver. The fault names the RECV that posted the buffer (R86). -/
def State.fillFault (s : State) (q : CoreId) (ch : Nat) (b : Posted) (w : WrRes) : State :=
  s.coreFault q (if w = .refused then fADDRESS else fECC) b.pc ch opRECV
/-- A message of number seq reaches channel ch of core q (R73, R84, R85): a number already delivered is acknowledged
and discarded; without a posted buffer that waits for it, or against a revoked credit, it is refused; else its bytes are written
into the oldest one. -/
def State.deliver (s : State) (q : CoreId) (ch seq : Nat) (epoch : Byte) (data : List Byte) : Delivery × State :=
  let k := s.core q
  if seq < natGet k.delivered ch then (.again, s) else
  match (k.postedOf ch).find? (fun b => b.filled.isNone) with
  | none => (.refused, s)
  | some b =>
    if b.epoch ≠ epoch ∨ b.seq ≠ seq then (.refused, s) else
    let w := s.write (.transferEngine q) ((s.ordinal q.region * 64 + q.pos.val) * 0x200000 + b.ofs) data
    if w.1 ≠ .ok then (.lost, w.2.fillFault q ch b w.1) else
    (.written, w.2.onCore q (fun k =>
      { (k.setPosted ch (fillFirst data.length (k.postedOf ch))) with
          delivered := natBump k.delivered ch,
          deliveredLog := k.deliveredLog ++ [{ ch := ch, seq := seq, data := data }] }))
/-- A credit of capacity cap goes to the sender bound to receive channel ch of core c (R72). Answers the core on this
package that it reached. -/
def State.giveCredit (s : State) (c : CoreId) (ch cap : Nat) : List CoreId × State :=
  let k := s.core c
  let b := k.rchanOf ch
  match s.bindLocal c b with
  | some q => ([q], s.onCore q (fun x =>
      x.addCredit (bitsOf b 16 4) { num := natGet k.posts ch - 1, cap := cap, epoch := k.epoch }))
  | none =>
    match s.resolve (s.owner c.region) (BitVec.ofNat 16 (bitsOf b 0 16)) with
    | some (sl, none) =>
      ([], s.sendPacket
        { type := 2, dye := s.owner c.region, srcSlot := s.slot, dstSlot := sl,
          target := BitVec.ofNat 16 (bitsOf b 0 16), channel := BitVec.ofNat 4 (bitsOf b 16 4), epoch := k.epoch,
          seq := BitVec.ofNat 32 (natGet k.posts ch), offset := BitVec.ofNat 20 (cap / 32) })
    | _ => ([], s)
/-- A message in packets of up to 4 KiB (R275). -/
def messagePackets (p : LinkPacket) : Nat → Nat → List Byte → List LinkPacket
  | 0, _, _ => []
  | n + 1, ofs, data =>
    if data.length ≤ 4096 then [{ p with offset := BitVec.ofNat 20 (ofs / 32), last := true, payload := data }]
    else { p with offset := BitVec.ofNat 20 (ofs / 32), last := false, payload := data.take 4096 } ::
      messagePackets p n (ofs + 4096) (data.drop 4096)
/-- A transfer whose start is recorded. -/
def CoreSt.markStarted (k : CoreSt) : CoreSt :=
  match k.xq with
  | [] => k
  | x :: xs => { k with xq := { x with started := true } :: xs }
/-- The outside parts of a DMA's source are asked for, row by row. -/
def State.askRows (s : State) (c : CoreId) (x : Xfer) : Nat → State
  | 0 => s
  | n + 1 => (s.askRows c x n).ask (.transferEngine c) (x.src.toNat + n * x.srcStride) x.bytes
/-- A SEND to another package at its turn: its source is read, and it leaves as MESSAGE packets and waits in `sent` for
its acknowledgement. A refused source is an address fault, a poisoned one an error of the send. -/
def State.launchSend (s : State) (c : CoreId) (x : Xfer) (xs : List Xfer) : State :=
  let b := (s.core c).schanOf x.num
  let r := s.read (.transferEngine c) x.src.toNat x.bytes
  let pop := fun (k : CoreSt) => { k with xq := xs }
  let fail := fun (k : CoreSt) => { k with xq := xs, errSends := putBits k.errSends x.num 1 1 }
  if r.1.refused then (r.2.onCore c pop).coreFault c fADDRESS x.pc x.num opSEND
  else if r.1.poison then r.2.lateError c fail pop
  else
    match s.resolve (s.owner c.region) (BitVec.ofNat 16 (bitsOf b 0 16)) with
    | some (sl, _) =>
      if sl ∈ s.lostSlots then r.2.lateError c fail pop
      else
        let p : LinkPacket :=
          { type := 1, dye := s.owner c.region, srcSlot := s.slot, dstSlot := sl,
            target := BitVec.ofNat 16 (bitsOf b 0 16), channel := BitVec.ofNat 4 (bitsOf b 16 4), epoch := x.epoch,
            seq := BitVec.ofNat 32 x.seq }
        let s1 := r.2.onCore c (fun k => { k with xq := xs, sent := k.sent ++ [x] })
        (messagePackets p (x.bytes / 4096 + 1) 0 r.1.data).foldl State.sendPacket s1
    | none => r.2.lateError c fail pop
/-- The first transfer of a core's queue takes its turn (R70); what follows a SEND that left takes its turn then. -/
def State.startXfers (s : State) (c : CoreId) : Nat → State
  | 0 => s
  | n + 1 =>
    match (s.core c).xq with
    | [] => s
    | x :: xs =>
      if x.send && x.remote then (s.launchSend c x xs).startXfers c n
      else if x.started then s
      else if x.send then s.onCore c CoreSt.markStarted
      else (s.onCore c CoreSt.markStarted).askRows c x x.rows

/-- A refused SEND holds its next credit (R84): a length above the capacity takes a channel fault recorded against the
SEND; otherwise it joins the queue again, at its end (DESIGN CHOICE, log entry 121), as soon as the 8-deep queue has a place (R56,
R70). -/
def State.retrySends (s : State) (c : CoreId) (ch : Nat) : State :=
  let k := s.core c
  match k.refusedSends.find? (fun x => x.num == ch) with
  | none => s
  | some x =>
    match k.creditFor ch x.seq with
    | none => s
    | some cr =>
      if cr.cap < x.bytes then s.coreFault c fCHANNEL x.pc ch opSEND
      else if 8 ≤ k.xq.length then s
      else (s.onCore c (fun k => { k with
        refusedSends := k.refusedSends.filter (fun y => y ≠ x),
        xq := k.xq ++ [{ x with started := false, cepoch := cr.epoch, epoch := k.epoch }] })).startXfers c 8

/-- A transfer has left the queue: the next takes its turn, and a refused SEND that holds a credit takes the place. -/
def State.nextXfers (s : State) (c : CoreId) : State :=
  (List.range 16).foldl (fun (t : State) ch => t.retrySends c ch) (s.startXfers c 8)

/-! ### Barriers (R75, R85) -/

def barKey (d : Dye) (g : Nat) : Nat := d.val * 4096 + g
def barReset (_ : Nat) : BarrierSt := {}
def State.bar (s : State) (d : Dye) (g : Nat) : BarrierSt := tabGet barReset s.barriers (barKey d g)
def State.setBar (s : State) (d : Dye) (g : Nat) (b : BarrierSt) : State :=
  { s with barriers := tabSet barReset s.barriers (barKey d g) b }
/-- The members of a group on this package. -/
def State.barrierLocal (s : State) (d : Dye) (g : Nat) : List CoreId :=
  (s.barrierMembers d g).filterMap (fun m => match s.resolve d m with
    | some (_, some q) => some q
    | _ => none)
/-- The slots of a group's other packages. -/
def State.barrierSlots (s : State) (d : Dye) (g : Nat) : List SlotNo :=
  ((s.barrierMembers d g).filterMap (fun m =>
    if bitsOf m 10 6 = s.pkgOrd d then none else s.slotOf d (bitsOf m 10 6))).dedup
def State.barrierAllHere (s : State) (d : Dye) (g : Nat) : Bool :=
  (s.barrierLocal d g).all (fun q => (s.bar d g).arrived.contains q)
/-- Every package of the group has sent its packet of the present generation. -/
def State.barrierAllThere (s : State) (d : Dye) (g : Nat) : Bool :=
  (s.barrierSlots d g).all (fun sl => (s.bar d g).packets.contains (sl, (s.bar d g).gen))
/-- A core arrives at the present generation, once (R85: a replayed arrival is not counted again); the last member of this package makes it send BARRIER packets to every
other package of the group. -/
def State.barrierArrive (s : State) (c : CoreId) (g : Nat) : State :=
  let d := s.owner c.region
  let b := s.bar d g
  let b1 := if b.arrived.contains c then b
    else { b with arrived := b.arrived ++ [c], firstAt := if b.arrived = [] then s.now else b.firstAt, lastAt := s.now }
  let s1 := s.setBar d g b1
  if s1.barrierAllHere d g && !s.barrierAllHere d g then
    (s.barrierSlots d g).foldl (fun (t : State) sl => t.sendPacket
      { type := 4, dye := d, srcSlot := s.slot, dstSlot := sl, target := BitVec.ofNat 16 g, seq := BitVec.ofNat 32 b.gen }) s1
  else s1

/-! ### Waits. Each tries its instruction -/

/-- What trying a wait gives: it must wait, with the state that the look has left, or it ends, with the cores to look at again. -/
inductive Tried where
  | waits (t : State)
  | ends (t : State) (wake : List CoreId)

def done (s : State) (c : CoreId) (wake : List CoreId := []) : Tried := .ends (s.onCore c CoreSt.advance) wake

/-- The tags of DMAs in the queue. -/
def CoreSt.tagBusy (k : CoreSt) (t : Nat) : Bool := k.xq.any (fun x => !x.send && x.num == t)
/-- The channels on which a send is not complete. -/
def CoreSt.sendBusy (k : CoreSt) (n : Nat) : Bool :=
  k.xq.any (fun x => x.send && x.num == n) || k.sent.any (fun x => x.num == n) || k.refusedSends.any (fun x => x.num == n)
def lowestBit (mask n : Nat) : Nat := ((List.range n).find? (fun i => mask / 2 ^ i % 2 == 1)).getD 0

/-- DWAIT (R68): waits for the tags of IMM16[7:0]; a poison fault where one of their DMAs ended with an error. -/
def tryDwait (w : XWord) (c : CoreId) (s : State) : Tried :=
  let k := s.core c
  let mask := bitsOf w.imm16 0 8
  if (List.range 8).any (fun t => mask / 2 ^ t % 2 == 1 && k.tagBusy t) then .waits s
  else
    let bad := Nat.land mask k.errTags.toNat
    let clear := fun (k : CoreSt) => { k with errTags := BitVec.ofNat 8 (Nat.land k.errTags.toNat (255 - mask)),
                                              remoteTags := BitVec.ofNat 8 (Nat.land k.remoteTags.toNat (255 - mask)) }
    if bad ≠ 0 then .ends ((s.onCore c clear).faultHere c fPOISON (lowestBit bad 8) opDWAIT) []
    else done (s.onCore c clear) c

/-- SWAIT (R73). -/
def trySwait (w : XWord) (c : CoreId) (s : State) : Tried :=
  let k := s.core c
  if (List.range 16).any (fun n => bitOf w.imm16 n && k.sendBusy n) then .waits s
  else
    let bad := Nat.land w.imm16.toNat k.errSends.toNat
    let clear := fun (k : CoreSt) => { k with errSends := BitVec.ofNat 16 (Nat.land k.errSends.toNat (65535 - w.imm16.toNat)) }
    if bad ≠ 0 then .ends ((s.onCore c clear).faultHere c fPOISON (lowestBit bad 16) opSWAIT) []
    else done (s.onCore c clear) c

/-- RWAIT (R73): the oldest posted buffer of the channel is full; SB takes the length, the buffer is released. -/
def tryRwait (w : XWord) (c : CoreId) (s : State) : Tried :=
  match (s.core c).postedOf w.n.toNat with
  | [] => .waits s
  | b :: bs =>
    match b.filled with
    | none => .waits s
    | some len => done (s.onCore c (fun k => (k.setS w.sb.toNat (BitVec.ofNat 64 len)).setPosted w.n.toNat bs)) c

/-- SEND (R72): the credit for its message, then the length check, then a place in the transfer queue. -/
def trySend (w : XWord) (c : CoreId) (s : State) : Tried :=
  let k := s.core c
  let n := w.n.toNat
  let len := (k.s w.sa.toNat).toNat
  match k.creditFor n (natGet k.sends n) with
  | none => .waits s
  | some cr =>
    if len % 32 ≠ 0 ∨ len < 32 ∨ 2 ^ 20 < len ∨ cr.cap < len then .ends (s.faultHere c fCHANNEL n opSEND) []
    else if 8 ≤ k.xq.length then .waits s
    else
      let x : Xfer := { send := true, num := n, src := k.a w.as.toNat, bytes := len, pc := k.pc,
                        seq := natGet k.sends n, epoch := k.epoch, remote := s.bindRemote c (k.schanOf n),
                        cepoch := cr.epoch }
      let s1 := s.onCore c (fun k => ({ k with xq := k.xq ++ [x], sends := natBump k.sends n }))
      done (s1.startXfers c 8) c

/-- RECV (R72): at most two posted buffers; the buffer is posted and a credit sent. A buffer for a message that has
already been delivered is filled at once from that delivery (R85). -/
def tryRecv (w : XWord) (c : CoreId) (s : State) : Tried :=
  let k := s.core c
  let n := w.n.toNat
  if 2 ≤ (k.postedOf n).length then .waits s
  else
    let seq := natGet k.posts n
    let cap := (k.s w.sa.toNat).toNat
    match s.ownOfs c (k.a w.ad.toNat) cap 1 with
    | none => .ends (s.faultHere c fADDRESS n opRECV) []
    | some o =>
      let old := k.deliveredLog.find? (fun e => e.ch == n && e.seq == seq)
      if seq < natGet k.delivered n then
        let f : WrRes × State := match old with
          | some e => s.write (.transferEngine c) (k.a w.ad.toNat).toNat e.data
          | none => (.ok, s)
        let len := (old.map (fun e => e.data.length)).getD 0
        if f.1 ≠ .ok then .ends (f.2.faultHere c (if f.1 = .refused then fADDRESS else fECC) n opRECV) []
        else done (f.2.onCore c (fun k => { (k.setPosted n (k.postedOf n ++
          [{ ofs := o, cap := cap, seq := seq, filled := some len, pc := k.pc }])) with posts := natBump k.posts n })) c
      else
        let s1 := s.onCore c (fun k => { (k.setPosted n (k.postedOf n ++ [{ ofs := o, cap := cap, seq := seq, epoch := k.epoch, pc := k.pc }])) with
          posts := natBump k.posts n })
        let g := s1.giveCredit c n (cap / 32 * 32)
        done (g.1.foldl (fun t q => t.retrySends q (bitsOf (k.rchanOf n) 16 4)) g.2) c g.1

/-- SEMWAIT (R74): one ordinary read of the word by master 1, with all that a read does; where the condition does not hold, the core
waits with the state that the read has left. -/
def trySemwait (w : XWord) (c : CoreId) (s : State) : Tried :=
  let k := s.core c
  match s.ownOfs c (k.a w.as.toNat) 8 8 with
  | none => .ends (s.faultHere c fADDRESS 0 opSEMWAIT) []
  | some o =>
    if !s.sliceOk c 1 0 o 8 then
      .ends (((s.bump (.spd c.region) SPD_ACC_ERR).refuseRec (.sequencer c) (k.a w.as.toNat).toNat (some c)).faultHere c
        fADDRESS 0 opSEMWAIT) []
    else
      let r := s.portRead c 1 o 8
      if r.1.2 then .ends (r.2.faultHere c fECC 0 opSEMWAIT) []
      else
        let v := BitVec.ofNat 64 (leNat r.1.1)
        if v &&& k.s w.sa.toNat = k.s w.sb.toNat &&& k.s w.sa.toNat then done r.2 c else .waits r.2

/-- BARRIER (R75): waits for the release of the generation it arrived at; a generation already completed returns at
once (R85). The arrival is made when the instruction issues. -/
def tryBarrier (w : XWord) (c : CoreId) (s : State) : Tried :=
  let k := s.core c
  let g := bitsOf (k.baridOf w.n.toNat) 0 12
  if natGet k.arrivals w.n.toNat ≤ (s.bar (s.owner c.region) g).gen then done s c else .waits s

/-- FENCE (R76): each condition that IMM16 names; bit 3 holds at once, for a store is visible when it is made. An error
of a DMA or a send that it covers is a poison fault (Table 3-10). Of several it names the lowest, tags before channels (DESIGN CHOICE,
log entry 121). -/
def tryFence (w : XWord) (c : CoreId) (s : State) : Tried :=
  let k := s.core c
  if (bitOf w.imm16 0 && k.mq != []) || (bitOf w.imm16 1 && (List.range 8).any k.tagBusy) ||
     (bitOf w.imm16 2 && (List.range 16).any k.sendBusy) then .waits s
  else if bitOf w.imm16 1 && k.errTags ≠ 0 then
    .ends ((s.onCore c (fun k => { k with errTags := 0 })).faultHere c fPOISON (lowestBit k.errTags.toNat 8) opFENCE) []
  else if bitOf w.imm16 2 && k.errSends ≠ 0 then
    .ends ((s.onCore c (fun k => { k with errSends := 0 })).faultHere c fPOISON (lowestBit k.errSends.toNat 16) opFENCE) []
  else done (s.onCore c (fun k => if bitOf w.imm16 1 then { k with remoteTags := 0 } else k)) c

/-- What a checkpoint takes (R78): the PC is that of the next instruction. -/
def CoreSt.checkpoint (k : CoreSt) : CoreSt :=
  let r := backEdge k.pc k.loops
  { k with ckpt := { sregs := k.sregs, aregs := k.aregs, preds := k.preds, pc := r.1, loops := r.2, tile := k.tile,
                     sends := k.sends, posts := k.posts, arrivals := k.arrivals } }
/-- The cycles of the tile that ends, kept if they are the most of this step (Table 3-12). -/
def State.tileMaxNow (s : State) (c : CoreId) : State :=
  s.onCore c (fun k => { k with tileMax := BitVec.ofNat 32 (max k.tileMax.toNat (s.cyclesSince c.region k.tileAt)) })
/-- TBOUND and HALT (R78): drain; a tile-state fault if a posted buffer is not filled; checkpoint; then the gate, or
HALTED. -/
def tryTile (halt : Bool) (c : CoreId) (s : State) : Tried :=
  let k := s.core c
  let op := if halt then opHALT else opTBOUND
  if k.mq ≠ [] ∨ k.xq ≠ [] ∨ k.sent ≠ [] ∨ k.refusedSends ≠ [] then .waits s
  else
    match (List.range 16).find? (fun n => (k.postedOf n).any (fun b => b.filled.isNone)) with
    | some n => .ends (s.faultHere c fTILESTATE n op) []
    | none =>
      let s1 := s.onCore c (fun k => { (k.checkpoint) with deliveredLog := [], tileTags := 0 })
      if halt then .ends ((s1.tileMaxNow c).onCore c (fun k => { k with
        run := .halted, stopPend := false, remoteWait := false, credits := [] })) []
      else .ends (s1.onCore c (fun k => { k with run := .gate, waitAt := s.now })) []

def tryBlocked (b : Blocked) (c : CoreId) (s : State) : Tried :=
  match b with
  | .x op w =>
    if op = opDWAIT then tryDwait w c s
    else if op = opSWAIT then trySwait w c s
    else if op = opRWAIT then tryRwait w c s
    else if op = opSEND then trySend w c s
    else if op = opRECV then tryRecv w c s
    else if op = opSEMWAIT then trySemwait w c s
    else if op = opBARRIER then tryBarrier w c s
    else tryFence w c s
  | .b op _ => tryTile (op == opHALT) c s

/-- Whether the wait that blocks a core is on another package (REMOTE_WAIT, Table 3-13). -/
def State.blockedRemote (s : State) (c : CoreId) (b : Blocked) : Bool :=
  match b with
  | .x op w =>
    if op = opDWAIT then
      (List.range 8).any (fun t => bitOf w.imm16 t && bitOf (s.core c).remoteTags t && (s.core c).tagBusy t)
    else s.remoteWord c (encodeX op w)
  | .b _ _ => false

/-- The wait that blocked a core, as k stood before, has ended: its stall cycles are counted. A fault has counted them already. -/
def State.endWait (t : State) (c : CoreId) (k : CoreSt) : State :=
  if (t.core c).blocked.isSome then
    let n := BitVec.ofNat 32 (t.cyclesSince c.region k.waitAt)
    t.onCore c (fun x => { x with
      blocked := none, remoteWait := false, stallRemote := if k.remoteWait then x.stallRemote + n else x.stallRemote,
      stallLocal := if k.remoteWait then x.stallLocal else x.stallLocal + n })
  else t
def Blocked.isSem : Blocked → Bool
  | .x op _ => op == opSEMWAIT
  | .b _ _ => false
/-- A blocked core looked at again: its wait ends if what it waits for has come. A SEMWAIT reads its word again only after a write or
alias to it (R74). -/
def State.settle1 (s : State) (c : CoreId) : State × List CoreId :=
  let k := s.core c
  if k.run ≠ .running ∨ k.abandoning then (s, []) else
  match k.blocked with
  | none => (s, [])
  | some b =>
    if b.isSem && !k.semHit then (s, [])
    else
      match tryBlocked b c (s.onCore c (fun k => { k with semHit := false })) with
      | .waits t => (if b.isSem then t else s, [])
      | .ends t wake => (t.endWait c k, wake)
def State.settleF : Nat → List CoreId → State → State
  | 0, _, s => s
  | _, [], s => s
  | n + 1, c :: cs, s =>
    let r := s.settle1 c
    State.settleF n (cs ++ r.2) r.1
/-- Every core that a listed change could have set free. -/
def State.listed (s : State) : List CoreId := s.cores.map (fun e => coreOfKey e.1)
/-- Cores looked at again, and those that they in turn set free. -/
def State.settle (s : State) (cs : List CoreId) : State := State.settleF (2 * cs.length + 8) cs s
/-- Every core looked at again: bytes of slices, transfers or barriers have changed. -/
def State.settleAll (s : State) : State := s.settle s.listed
/-- A waiting instruction issues: it completes now, or the core is blocked on it. -/
def State.waitOn (s : State) (c : CoreId) (b : Blocked) : State :=
  match tryBlocked b c s with
  | .ends t wake => t.settle wake
  | .waits t =>
    (t.onCore c (fun k => { k with
      blocked := some b, remoteWait := s.blockedRemote c b, waitAt := s.now, semHit := false })).checkAbandon c

end Sys2Proof.Machine
end

