-- ==== Sys2Proof/Machine/Tables.lean ====
section
/-! DEFINITION. Frames of local HBM and the page tables in them (R138, R140, R144 to R147): which frames are granted, session and
prefix tables in field form beside their bytes in frames of KIND 1, the shared-page array in frames of KIND 5, and TOUCH. -/

namespace Sys2Proof.Machine

/-! ### Frames -/

/-- The first FREE frame of a die from a number on, wrapping within the die. -/
def State.freeFrom (s : State) (die : Fin 2) : Nat → Nat → Option Nat
  | 0, _ => none
  | n + 1, f =>
    let g := die.val * 2 ^ 23 + f % 2 ^ 23
    if (s.frame g).state = 0 then some g else s.freeFrom die n (f + 1)
/-- The die whose frames are reserved in place of a die out of service: the other one (R163). -/
def State.useDie (s : State) (die : Fin 2) : Fin 2 := if s.dieFailed die.val then Fin.ofNat 2 (die.val + 1) else die
/-- A frame for a dye on a die: which free one is the tier manager's choice, a free value (log entry 4). -/
def State.takeFrame (s : State) (d : Dye) (die : Fin 2) (kind : Nat) : Option Nat × State :=
  let t := s.draw
  if s.dieFailed (s.useDie die).val then (none, t.2)
  else
    match t.2.freeFrom (s.useDie die) (s.frames.length + 6145) (Config.freeNat t.1) with
    | none => (none, t.2)
    | some f => (some f, t.2.grantFrame f d 1 kind)
def State.tierUsed (s : State) (d : Dye) (tier : Nat) : Nat := (s.rdP .tier d (TIER_D_USED + 4 * tier)).toNat
def State.tierMin (s : State) (d : Dye) (tier : Nat) : Nat := (s.rdP .tier d (TIER_D_MIN + 4 * tier)).toNat
/-- The die of the first region of a dye, for what belongs to no session. -/
def State.firstDie (s : State) (d : Dye) : Fin 2 := Fin.ofNat 2 (((s.regionsOf d).head?.map regionDie).getD 0)

/-! ### Session contexts -/

def ctxKey (d : Dye) (slot : Nat) : Nat := d.val * 65536 + slot
def State.ctx (s : State) (d : Dye) (slot : Nat) : Option Ctx := tabGet (fun _ => none) s.ctxs (ctxKey d slot)
def State.setCtx (s : State) (d : Dye) (slot : Nat) (c : Option Ctx) : State :=
  { s with ctxs := tabSet (fun _ => none) s.ctxs (ctxKey d slot) c }

/-! ### Tables as bytes (R144, Table 6-4) -/

/-- A page-table entry's 16 bytes. -/
def pteBytes (p : Option Pte) : List Byte :=
  match p with
  | none => List.replicate 16 0
  | some p => leBytes (1 + p.tier % 4 * 2 + b2n p.ro * 2 ^ 3 + b2n p.cold * 2 ^ 4 + b2n p.busy * 2 ^ 5 + p.frame.toNat * 2 ^ 16 +
      p.touch.toNat * 2 ^ 64 + p.prefixIdx.toNat * 2 ^ 96) 16
/-- A layer-root or L1 entry that names the table at an offset of local HBM. -/
def dirEntry (o : Nat) : List Byte := leBytes (1 + 0x10000000000 + o) 8
/-- A granule for a table on the session's die, in a frame of KIND 1. How tables share frames is the model's choice (log entry 130). -/
def State.dirGrow (s : State) (d : Dye) (die : Fin 2) (x : TabDir) : Option Nat × TabDir × State :=
  match x.frames[x.used / 16]? with
  | some f => (some (f * 65536 + x.used % 16 * 4096), { x with used := x.used + 1 }, s)
  | none =>
    let t := s.takeFrame d die 1
    match t.1 with
    | none => (none, x, t.2)
    | some f => (some (f * 65536), { x with frames := x.frames ++ [f], used := x.used + 1 }, t.2)
/-- The layer root: 8 bytes for each of up to 4,096 layers, at the start of the first frame. -/
def State.dirRoot (s : State) (d : Dye) (die : Fin 2) (x : TabDir) : TabDir × State :=
  if x.root ≠ 0 then (x, s)
  else
    let t := s.dirGrow d die x
    match t.1 with
    | none => (t.2.1, t.2.2)
    | some o => ({ t.2.1 with root := 0x10000000000 + o, used := t.2.1.used + 7 }, t.2.2)
/-- The L1 table of a layer, allocated with its first page. -/
def State.dirL1 (s : State) (d : Dye) (die : Fin 2) (x : TabDir) (layer : Nat) : TabDir × State :=
  if x.root = 0 ∨ natGet x.l1 layer ≠ 0 then (x, s)
  else
    let t := s.dirGrow d die x
    match t.1 with
    | none => (t.2.1, t.2.2)
    | some o => ({ t.2.1 with l1 := natSet t.2.1.l1 layer (o + 1) }, t.2.2.hbmWrite (x.root - 0x10000000000 + 8 * layer) (dirEntry o))
/-- The L2 table of 256 pages of a layer, allocated with the first page in its range. -/
def State.dirL2 (s : State) (d : Dye) (die : Fin 2) (x : TabDir) (layer i : Nat) : TabDir × State :=
  if natGet x.l1 layer = 0 ∨ natGet x.l2 (layer * 64 + i) ≠ 0 then (x, s)
  else
    let t := s.dirGrow d die x
    match t.1 with
    | none => (t.2.1, t.2.2)
    | some o => ({ t.2.1 with l2 := natSet t.2.1.l2 (layer * 64 + i) (o + 1) },
        t.2.2.hbmWrite (natGet x.l1 layer - 1 + 8 * i) (dirEntry o))
/-- The entry of a page written into the tables; an entry that goes away needs no table. -/
def State.dirSet (s : State) (d : Dye) (die : Fin 2) (x : TabDir) (layer page : Nat) (p : Option Pte) : TabDir × State :=
  let i := page / 256
  let a := if p.isNone then (x, s) else s.dirRoot d die x
  let b := if p.isNone then a else a.2.dirL1 d die a.1 layer
  let c := if p.isNone then b else b.2.dirL2 d die b.1 layer i
  match natGet c.1.l2 (layer * 64 + i) with
  | 0 => c
  | o + 1 => (c.1, c.2.hbmWrite (o + 16 * (page % 256)) (pteBytes p))
/-- The frames of tables that are no longer needed. -/
def State.dirFree (s : State) (x : TabDir) : State := x.frames.foldl (fun (t : State) f => t.freeFrame f) s

/-! ### Entries of sessions (R145) -/

def pteKey (d : Dye) (slot layer page : Nat) : Nat := ((d.val * 65536 + slot) * 4096 + layer) * 16384 + page
def pteLayer (k : Nat) : Nat := k / 16384 % 4096
def ptePage (k : Nat) : Nat := k % 16384
def pteSlot (k : Nat) : Nat := k / (16384 * 4096) % 65536
def pteDye (k : Nat) : Dye := Fin.ofNat 16 (k / (16384 * 4096 * 65536))
def State.pte (s : State) (d : Dye) (slot layer page : Nat) : Option Pte :=
  tabGet (fun _ => none) s.ptes (pteKey d slot layer page)
/-- A session's entry, and the same in its tables in HBM. -/
def State.setPte (s : State) (k : Nat) (p : Option Pte) : State :=
  let s1 : State := { s with ptes := tabSet (fun _ => none) s.ptes k p }
  match s.ctx (pteDye k) (pteSlot k) with
  | none => s1
  | some c =>
    let r := s1.dirSet (pteDye k) c.home c.dir (pteLayer k) (ptePage k) p
    r.2.setCtx (pteDye k) (pteSlot k) (some { c with dir := r.1 })
/-- The entries of a session's tables: key and entry. -/
def State.sessionPtes (s : State) (d : Dye) (slot : Nat) : List (Nat × Pte) :=
  s.ptes.filterMap (fun e =>
    if pteKey d slot 0 0 ≤ e.1 ∧ e.1 < pteKey d (slot + 1) 0 0 then e.2.map (fun p => (e.1, p)) else none)
/-- TOUCH at a counter value (Table 6-4). -/
def touchOf (now : Nat) : Word32 := BitVec.ofNat 32 (now / 2 ^ 20)

/-! ### The shared-page array and the prefix records (R147) -/

def sharedKey (d : Dye) (i : Nat) : Nat := d.val * 2 ^ 32 + i
def State.sharedPte (s : State) (d : Dye) (i : Nat) : Option Pte := tabGet (fun _ => none) s.shared (sharedKey d i)
/-- The frames of KIND 5 under a key of kind5 that hold the first n places of 64 KiB / size each. -/
def State.kind5Grow (s : State) (key : Nat) (d : Dye) : Nat → State
  | 0 => s
  | n + 1 =>
    if n < (tabGet (fun _ => []) s.kind5 key).length then s
    else
      let s1 := s.kind5Grow key d n
      let t := s1.takeFrame d (s.firstDie d) 5
      match t.1 with
      | none => t.2
      | some f => { t.2 with kind5 := tabSet (fun _ => []) t.2.kind5 key (tabGet (fun _ => []) t.2.kind5 key ++ [f]) }
/-- An entry of the shared-page array, 4,096 to a frame. -/
def State.setShared (s : State) (k : Nat) (p : Option Pte) : State :=
  let d : Dye := Fin.ofNat 16 (k / 2 ^ 32)
  let i := k % 2 ^ 32
  let s1 : State := { s with shared := tabSet (fun _ => none) s.shared k p }
  let s2 := if p.isNone then s1 else s1.kind5Grow d.val d (i / 4096 + 1)
  match (tabGet (fun _ => []) s2.kind5 d.val)[i / 4096]? with
  | none => s2
  | some f => s2.hbmWrite (f * 65536 + i % 4096 * 16) (pteBytes p)
def prefixReset (_ : Nat) : PrefixRec := {}
def State.prefixRec (s : State) (d : Dye) (i : Nat) : PrefixRec := tabGet prefixReset s.prefixes (sharedKey d i)
/-- A prefix record, 1,024 to a frame. The spec gives a record no layout, so its bytes are not laid out (log entry 130). -/
def State.setPrefix (s : State) (d : Dye) (i : Nat) (p : PrefixRec) : State :=
  { (if p.live then s.kind5Grow (16 + d.val) d (i / 1024 + 1) else s) with prefixes := tabSet prefixReset s.prefixes (sharedKey d i) p }

/-! ### Pages by address -/

/-- The step that runs in a region's lane starts here; with none, the present counter value (R146). -/
def State.stepStart (s : State) (r : RegionNo) : Nat :=
  ((s.plans.find? (fun q => q.running && q.plan.dye == s.owner r && q.plan.lane == tabGet (fun _ => false) s.prefillLane r.val)).map
    (fun q => q.plan.start.toNat)).getD s.now
/-- A page in tier 0 or tier 1 at a device address. -/
def Pte.at (p : Pte) (a : Nat) : Bool := !p.ro && decide (p.tier ≤ 1) && decide (p.frame.toNat = a / 65536)
/-- The session entries of a dye that name the page at an address. -/
def State.ptesAt (s : State) (d : Dye) (a : Nat) : List (Nat × Pte) :=
  s.ptes.filterMap (fun e => e.2.bind (fun p => if pteDye e.1 = d ∧ p.at a then some (e.1, p) else none))
/-- A page that a prefix handle shares is read-only for the dye (R128). -/
def State.sharedAt (s : State) (d : Dye) (a : Nat) : Bool :=
  s.shared.any (fun e => e.1 / 2 ^ 32 == d.val && e.2.any (fun p => p.at a))
/-- An append or commit that writes a page touches it (R146). -/
def State.touchPage (s : State) (r : RegionNo) (a : Nat) : State :=
  (s.ptesAt (s.owner r) a).foldl (fun (t : State) e => t.setPte e.1 (some { e.2 with touch := touchOf (s.stepStart r) })) s

end Sys2Proof.Machine
end

