-- ==== Sys2Proof/Machine/Pipeline.lean ====
section
/-! DEFINITION. What the three units of an attention and token pipeline share: unit states, queues, errors and the
register commands (R113 to R119, R134 to R137). -/

namespace Sys2Proof.Machine

def atpReset (_ : Nat) : AtpSt := {}
def State.atp (s : State) (r : RegionNo) : AtpSt := tabGet atpReset s.atps r.val
def State.setAtp (s : State) (r : RegionNo) (a : AtpSt) : State := { s with atps := tabSet atpReset s.atps r.val a }

/-- The units of a pipeline, in the order of ATP_STATUS and ATP_ERR_LAST. -/
inductive AtpUnit where
  | att | app | tok
  deriving DecidableEq, Repr, Inhabited
def AtpUnit.no : AtpUnit → Nat
  | .att => 0
  | .app => 1
  | .tok => 2
/-- The phase in which a unit takes work (R115). -/
def AtpUnit.phase : AtpUnit → Nat
  | .att => 2
  | .app => 1
  | .tok => 3
def AtpUnit.queue (u : AtpUnit) (a : AtpSt) : List Word256 :=
  match u with
  | .att => a.dq
  | .app => a.aq
  | .tok => a.tq
def AtpUnit.setQueue (u : AtpUnit) (a : AtpSt) (q : List Word256) : AtpSt :=
  match u with
  | .att => { a with dq := q }
  | .app => { a with aq := q }
  | .tok => { a with tq := q }
def AtpUnit.size : AtpUnit → Nat
  | .att => 4096
  | .app => 1024
  | .tok => 256
def AtpUnit.statusReg : AtpUnit → Nat
  | .att => ATP_DQ_STATUS
  | .app => ATP_AQ_STATUS
  | .tok => ATP_TQ_STATUS
/-- Where the eight staged words of a unit lie. -/
def AtpUnit.staging : AtpUnit → Nat
  | .att => ATP_DQW
  | .app => ATP_AQW
  | .tok => ATP_TQW
/-- Unit states (Table 5-13): 0 IDLE, 1 RUNNING, 2 HELD, 3 STOPPED. -/
def State.unitState (s : State) (r : RegionNo) (u : AtpUnit) : Nat := s.fld (.atp r) ATP_STATUS (2 * u.no) 2
def State.setUnit (s : State) (r : RegionNo) (u : AtpUnit) (v : Nat) : State := s.setFld (.atp r) ATP_STATUS (2 * u.no) 2 v
def State.atpPhase (s : State) (r : RegionNo) : Nat := s.fld (.atp r) ATP_PHASE 0 2
def allUnits : List AtpUnit := [.att, .app, .tok]
/-- A unit that is not STOPPED or HELD runs while it holds work of the present phase, else it is IDLE. A HELD unit runs
again when its phase returns, and is IDLE once its queue is empty. -/
def State.unitFollow (s : State) (r : RegionNo) (u : AtpUnit) : State :=
  let st := s.unitState r u
  let work := decide (u.queue (s.atp r) ≠ [])
  let here := s.atpPhase r == u.phase
  if st = 3 then s
  else if work && here then s.setUnit r u 1
  else if st = 2 && work then s
  else s.setUnit r u 0
/-- The free-entry count of a queue follows the queue. -/
def State.freeFollow (s : State) (r : RegionNo) (u : AtpUnit) : State :=
  s.setFld (.atp r) u.statusReg 0 13 (u.size - (u.queue (s.atp r)).length)
def State.putQueue (s : State) (r : RegionNo) (u : AtpUnit) (q : List Word256) : State :=
  let s1 := s.setAtp r (u.setQueue (s.atp r) q)
  (s1.freeFollow r u).unitFollow r u
/-- Whether a unit takes work now: its phase, not STOPPED, no clear, the region Active (R115, R135, R136). -/
def State.unitTakes (s : State) (r : RegionNo) (u : AtpUnit) : Bool :=
  s.rgnActive r && s.atpPhase r == u.phase && s.unitState r u != 3 && !s.bit (.atp r) ATP_STATUS 9

/-- A failure reported to the Innkeeper, of the step that runs in the region's lane, if one does (R134). -/
def State.reportFail (s : State) (r : RegionNo) (session : Option Nat) (code : Nat) : State :=
  let d := s.owner r
  let lane := tabGet (fun _ => false) s.prefillLane r.val
  match s.plans.find? (fun q => q.running && q.plan.dye == d && q.plan.lane == lane) with
  | some q => { s with failReps := s.failReps ++ [{ dye := d, step := q.plan.step, session := session, code := code }] }
  | none => s
/-- A descriptor fails (R134): ATP_ERR_LAST, ATP_ERR_COUNT, ERR and a Ledger record under the session slot and dye. -/
def State.atpFault (s : State) (r : RegionNo) (u : AtpUnit) (code session : Nat) : State :=
  let s1 := s.wr (.atp r) ATP_ERR_LAST (BitVec.ofNat 32 (code + u.no * 2 ^ 8 + 2 ^ 15 + session * 2 ^ 16))
  ((s1.bump (.atp r) ATP_ERR_COUNT).setBit (.atp r) ATP_STATUS 8 true).ledger
    { type := 1, detector := 0, dye := s.owner r, severity := 3, region := r, lcoord := BitVec.ofNat 16 session,
      detail := [code, u.no] }
/-- The same, with the session reported to the Innkeeper (HW_FAULT). -/
def State.atpError (s : State) (r : RegionNo) (u : AtpUnit) (code session : Nat) : State :=
  (s.atpFault r u code session).reportFail r (some session) 1

/-- Only the region controller writes the window; while a clear runs a write does nothing (R136, R137). -/
def State.atpCtrl (s : State) (m : Master) (r : RegionNo) (f : State → State) : State :=
  if m ≠ .regionController r then s.permissionError
  else if s.bit (.atp r) ATP_STATUS 9 then s.answer []
  else (f s).answer []

/-! ### Pushes -/

/-- The staged words of a unit as one descriptor, word 0 as bits [31:0]. -/
def State.staged (s : State) (r : RegionNo) (u : AtpUnit) : Word256 :=
  BitVec.ofNat 256 (packCodes 32 ((s.rdList (.atp r) u.staging 8).map BitVec.toNat))
/-- SESSION of a descriptor, for its error record. -/
def descSession (u : AtpUnit) (d : Word256) : Nat := if u = .att then bitsOf d 32 16 else bitsOf d 16 16
/-- A move of the page at an address is in progress. -/
def State.busyAt (s : State) (d : Dye) (a : Nat) : Bool :=
  (s.ptesAt d a).any (fun e => e.2.busy) || s.shared.any (fun e => e.1 / 2 ^ 32 == d.val && e.2.any (fun p => p.at a && p.busy))
/-- The walk emits no descriptor for a page that is BUSY: a pricing error, which fails its session's items (R145). -/
def State.mispricedPage (s : State) (r : RegionNo) (a : Nat) : State :=
  ((s.ptesAt (s.owner r) a).filter (fun e => e.2.busy)).foldl
    (fun (t : State) e => (t.detectRgn 0x2A r [pteSlot e.1]).reportFail r (some (pteSlot e.1)) 2) s
/-- A push (R119, Table 5-11): a full queue loses the descriptor, sets OVERRUN and is an error. -/
def State.atpPush (s : State) (r : RegionNo) (u : AtpUnit) (v : Word32) : State :=
  if !bitOf v 0 then s
  else
    let d := s.staged r u
    let q := u.queue (s.atp r)
    if u = .att ∧ bitsOf d 0 4 = 2 ∧ !bitOf d 14 ∧ s.busyAt (s.owner r) (bitsOf d 16 48) then s.mispricedPage r (bitsOf d 16 48)
    else if u.size ≤ q.length then
      (s.setW1c (.atp r) u.statusReg 13).atpError r u 0x09 (descSession u d)
    else s.putQueue r u (q ++ [d])

/-- ATP_DQ_PUSH. -/
def execAtpDqPush (m : Master) (r : RegionNo) (v : Word32) (s : State) : Out :=
  .next (s.atpCtrl m r (fun s => s.atpPush r .att v))
/-- ATP_AQ_PUSH. -/
def execAtpAqPush (m : Master) (r : RegionNo) (v : Word32) (s : State) : Out :=
  .next (s.atpCtrl m r (fun s => s.atpPush r .app v))
/-- ATP_TQ_PUSH. -/
def execAtpTqPush (m : Master) (r : RegionNo) (v : Word32) (s : State) : Out :=
  .next (s.atpCtrl m r (fun s => s.atpPush r .tok v))

/-! ### Descriptors of the descriptor queue (Tables 5-2 to 5-5) -/

def descType (d : Word256) : Nat := bitsOf d 0 4
structure JobD where
  mode : Nat
  mask : Nat
  rows : Nat
  g : Nat
  split : Nat
  nsplit : Nat
  lclass : Nat
  session : Nat
  layer : Nat
  q : Nat
  o : Nat
  base : Nat
  mergeRgn : Nat
  aux : Nat
  mergeId : Nat
  scale : Word32
  deriving DecidableEq, Repr, Inhabited
def jobOf (d : Word256) : JobD :=
  { mode := bitsOf d 4 2, mask := bitsOf d 6 2, rows := bitsOf d 8 7 + 1, g := bitsOf d 16 4 + 1, split := bitsOf d 20 4,
    nsplit := bitsOf d 24 4 + 1, lclass := bitsOf d 28 4, session := bitsOf d 32 16, layer := bitsOf d 48 16,
    q := bitsOf d 64 48, o := bitsOf d 112 48, base := bitsOf d 160 22, mergeRgn := bitsOf d 182 4, aux := bitsOf d 192 22,
    mergeId := bitsOf d 214 8, scale := d.extractLsb' 224 32 }
/-- Reserved bits and values of a JOB (Table 5-2). -/
def jobReserved (d : Word256) : Bool :=
  bitsOf d 4 2 == 3 || bitOf d 15 || bitsOf d 186 6 != 0 || bitsOf d 222 2 != 0 || (bitsOf d 6 2 != 3 && bitsOf d 192 22 != 0)
structure PageD where
  npos : Nat
  last : Bool
  side : Bool
  addr : Nat
  no : Nat
  deriving DecidableEq, Repr, Inhabited
def pageOf (d : Word256) : PageD :=
  { npos := bitsOf d 4 9, last := bitOf d 13, side := bitOf d 14, addr := bitsOf d 16 48, no := bitsOf d 64 14 }
def pageReserved (d : Word256) : Bool := bitOf d 15 || bitsOf d 78 178 != 0
/-- The ancestor mask of a node (Table 5-4). -/
def treeAnc (d : Word256) (n : Nat) : Nat := if n = 0 then 1 else bitsOf d (16 * n) 16
def treeReserved (d : Word256) : Bool := bitsOf d 4 12 != 0
structure MergeD where
  nsplit : Nat
  rows : Nat
  lclass : Nat
  mergeId : Nat
  part : Nat
  o : Nat
  stride : Nat
  deriving DecidableEq, Repr, Inhabited
def mergeOf (d : Word256) : MergeD :=
  { nsplit := bitsOf d 4 4 + 1, rows := bitsOf d 8 7 + 1, lclass := bitsOf d 16 4, mergeId := bitsOf d 20 8,
    part := bitsOf d 32 48, o := bitsOf d 80 48, stride := bitsOf d 128 24 }
def mergeReserved (d : Word256) : Bool :=
  bitOf d 15 || bitsOf d 28 4 != 0 || bitsOf d 152 104 != 0 || bitsOf d 4 4 == 0

/-! ### Layer classes (Table 5-9, R116) -/

structure LClass where
  dk : Nat
  koff : Nat
  dv : Nat
  voff : Nat
  ch : Nat
  valid : Bool
  deriving DecidableEq, Repr, Inhabited
def State.lclass (s : State) (r : RegionNo) (k : Nat) : LClass :=
  let w := s.rd (.atp r) (ATP_LCLASS + 4 * k)
  { dk := bitsOf w 0 4, koff := bitsOf w 4 4, dv := bitsOf w 8 4, voff := bitsOf w 12 4, ch := bitsOf w 16 4,
    valid := bitOf w 31 }
/-- Whether a class may be used: VALID, sizes in range, and both ranges within the page's channels. -/
def LClass.ok (c : LClass) : Bool :=
  c.valid && decide (1 ≤ c.dk) && decide (c.dk ≤ 12) && decide (1 ≤ c.dv) && decide (c.dv ≤ 8) && decide (1 ≤ c.ch) &&
  decide (c.ch ≤ 12) && decide (c.koff + c.dk ≤ c.ch) && decide (c.voff + c.dv ≤ c.ch)
/-- The stride of an output row and of a query row (R117). -/
def outStride (dv : Nat) : Nat := (4 * (32 * dv) + 255) / 256 * 256
def queryStride (dk : Nat) : Nat := (2 * (32 * dk) + 255) / 256 * 256

/-- FP32 values as bytes. -/
def f32Bytes (l : List Word32) : List Byte := l.flatMap (fun x => leBytes x.toNat 4)
def bytesF32 (bs : List Byte) (n : Nat) : List Word32 :=
  let x := leNat bs
  (List.range n).map (fun i => BitVec.ofNat 32 (codeAt 32 x i))

/-- Whether n bytes at an address lie in tier 0 of the partition on this package (R117). -/
def State.tier0 (s : State) (d : Dye) (a n : Nat) : Bool :=
  match s.place d a, s.place d (a + n - 1) with
  | .slice _ _, .slice _ _ => true
  | _, _ => false
/-- Output rows and row states written at an address by the attention unit. -/
def State.writeOutputs (s : State) (r : RegionNo) (a dv : Nat) (rows : List (List Word32)) (ml : List (Word32 × Word32)) :
    WrRes × State :=
  let w := (List.zipIdx rows).foldl (fun (t : WrRes × State) p =>
    let u := t.2.write (.attention r) (a + p.2 * outStride dv) (f32Bytes p.1)
    (t.1.plus u.1, u.2)) (.ok, s)
  let u := w.2.write (.attention r) (a + rows.length * outStride dv) (ml.flatMap (fun p => f32Bytes [p.1, p.2]))
  (w.1.plus u.1, u.2)

/-- Canonical NaN in every output row of a job or merge that fails, and in its n (m, l) pairs (R134); an output outside tier 0 is not
written (R117). -/
def State.nanOutputs (s : State) (r : RegionNo) (o dv rows n : Nat) : State :=
  if s.tier0 (s.owner r) o (rows * outStride dv + 8 * n) then
    (s.writeOutputs r o dv (List.replicate rows (List.replicate (32 * dv) nan32)) (List.replicate n (nan32, nan32))).2
  else s

/-! ### Phase, STOP, GO, FLUSH, ERR_ACK and the clear -/

/-- A MERGE at the head whose splits have not all arrived when the attention phase ends (R134). -/
def State.endMerge (s : State) (r : RegionNo) : State :=
  match (s.atp r).dq with
  | [] => s
  | d :: q =>
    if descType d = 3 then
      let m := mergeOf d
      if natGet (s.atp r).masks m.mergeId % 2 ^ m.nsplit = 2 ^ m.nsplit - 1 then s
      else
        (((s.nanOutputs r m.o (s.lclass r m.lclass).dv m.rows 0).atpError r .att 0x0D (natGet (s.atp r).mergeSess m.mergeId)).bump (.atp r) ATP_JOBS_DONE).putQueue r .att q
    else s
/-- A unit whose phase ends while it still holds queued work is HELD, with a Ledger record of a mispriced phase. -/
def State.holdUnit (s : State) (r : RegionNo) (old new : Nat) (u : AtpUnit) : State :=
  if u.phase = old ∧ old ≠ new ∧ u.queue (s.atp r) ≠ [] ∧ s.unitState r u ≠ 3 then
    (s.setUnit r u 2).detectRgn 0x2A r [u.no]
  else s
/-- ATP_PHASE written (R115): the done counts start again when their phase begins. -/
def State.phaseWrite (s : State) (r : RegionNo) (v : Word32) : State :=
  let old := s.atpPhase r
  let new := bitsOf v 0 2
  let s0 := if old = 2 ∧ new ≠ 2 ∧ s.unitState r .att ≠ 3 then s.endMerge r else s
  let s1 := allUnits.foldl (fun t u => t.holdUnit r old new u) s0
  let s2 := (s1.wr (.atp r) ATP_PHASE (BitVec.ofNat 32 new)).setFld (.atp r) ATP_STATUS 6 2 new
  let s3 := if old = new then s2
    else if new = 2 then s2.wr (.atp r) ATP_JOBS_DONE 0
    else if new = 1 then s2.wr (.atp r) ATP_APP_DONE 0
    else if new = 3 then s2.wr (.atp r) ATP_TOK_DONE 0
    else s2
  allUnits.foldl (fun t u => t.unitFollow r u) s3

/-- ATP_PHASE_WRITE. -/
def execAtpPhaseWrite (m : Master) (r : RegionNo) (v : Word32) (s : State) : Out :=
  .next (s.atpCtrl m r (fun s => s.phaseWrite r v))

/-! #### TOKEN descriptors and their records -/

/-- A TOKEN descriptor (Table 5-7). -/
structure TokD where
  kind : Nat
  nodes : Nat
  extra : Nat
  session : Nat
  logits : Nat
  cand : Nat
  vocab : Nat
  pos : Nat
  out : Nat
  deriving DecidableEq, Repr, Inhabited
def tokOf (d : Word256) : TokD :=
  { kind := bitsOf d 4 2, nodes := bitsOf d 6 4 + 1, extra := bitsOf d 10 4, session := bitsOf d 16 16,
    logits := bitsOf d 32 48, cand := bitsOf d 80 48, vocab := bitsOf d 128 18 + 1, pos := bitsOf d 146 22,
    out := bitsOf d 176 48 }
def tokReserved (d : Word256) : Bool :=
  bitsOf d 4 2 == 3 || bitsOf d 14 2 != 0 || bitsOf d 168 8 != 0 || bitsOf d 224 32 != 0 ||
  (bitsOf d 4 2 != 1 && bitsOf d 10 4 != 0)

/-- The result record (Table 5-8). -/
def resultRecord (x : TokD) (status : Nat) (toks acc : List Nat) (props : List Nat) : List Byte :=
  let n := (x.session + (if status = 0 then toks.length else 0) * 2 ^ 16 + status * 2 ^ 20 + x.kind * 2 ^ 24
    + (x.pos + 1) % 2 ^ 22 * 2 ^ 32 + packCodes 18 (toks.take 9) * 2 ^ 64
    + (acc.foldl (fun a b => a + 2 ^ b) 0) * 2 ^ 226
    + packCodes 32 ((List.zipIdx props).map (fun p => p.1 + p.2 * 2 ^ 20 + 2 ^ 31)) * 2 ^ 256)
  leBytes n 64
/-- A token unit that runs when STOP comes abandons its descriptor: its record says so (R135, Table 5-8). The descriptor stays at the
head of the queue, and a GO lets the unit decide it anew (DESIGN CHOICE, log entry 128). -/
def State.abandonToken (s : State) (r : RegionNo) : State :=
  match (s.atp r).tq with
  | [] => s
  | d :: _ =>
    let x := tokOf d
    if s.unitState r .tok ≠ 1 ∨ descType d ≠ 8 ∨ tokReserved d ∨ x.out % 32 ≠ 0 then s
    else (s.write (.attention r) x.out (resultRecord x 4 [] [] [])).2
/-- STOP: every unit is STOPPED; queues and masks are kept (R135). -/
def State.atpStop (s : State) (r : RegionNo) : State := allUnits.foldl (fun t u => t.setUnit r u 3) (s.abandonToken r)
/-- GO restarts the units that are STOPPED. -/
def State.atpGo (s : State) (r : RegionNo) : State :=
  allUnits.foldl (fun t u => if t.unitState r u = 3 then (t.setUnit r u 0).unitFollow r u else t) s
/-- FLUSH discards all queues, while every unit is STOPPED. -/
def State.atpFlush (s : State) (r : RegionNo) : State :=
  if allUnits.all (fun u => s.unitState r u == 3) then allUnits.foldl (fun t u => t.putQueue r u []) s else s

/-- ATP_STOP. -/
def execAtpStop (m : Master) (r : RegionNo) (s : State) : Out := .next (s.atpCtrl m r (fun s => s.atpStop r))
/-- ATP_GO. -/
def execAtpGo (m : Master) (r : RegionNo) (s : State) : Out := .next (s.atpCtrl m r (fun s => s.atpGo r))
/-- ATP_FLUSH. -/
def execAtpFlush (m : Master) (r : RegionNo) (s : State) : Out := .next (s.atpCtrl m r (fun s => s.atpFlush r))
/-- ATP_ERR_ACK. -/
def execAtpErrAck (m : Master) (r : RegionNo) (s : State) : Out :=
  .next (s.atpCtrl m r (fun s => s.setBit (.atp r) ATP_STATUS 8 false))

/-- A clear of the pipeline begins (R136): units stop, buffers, queues, masks and staging are cleared. -/
def State.atpClearStart (s : State) (r : RegionNo) : State :=
  ((s.setAtp r {}).resetWin (.atp r) 0 0x10000).setBit (.atp r) ATP_STATUS 9 true
/-- ATP_CLEAR_DONE: the clear ends and every ATP_ register holds its reset value. -/
def execAtpClearDone (r : RegionNo) (s : State) : Out :=
  if s.bit (.atp r) ATP_STATUS 9 then .next (s.resetWin (.atp r) 0 0x10000) else .next s

end Sys2Proof.Machine
end

