-- ==== Sys2Proof/Machine/KvPage.lean ====
section
/-! DEFINITION. The split-precision KV page (R53 to R55, Tables 2-5 and 2-6): its layout, decoding one position and
encoding one token. -/

namespace Sys2Proof.Machine

def kvHeaderAt : Nat := 0xEA00
def kvScalesAt : Nat := 0xE400
def kvBodyAt (t : Nat) : Nat := t * 192
def kvBodyScalesAt (t : Nat) : Nat := 0xC000 + t * 12
def kvSideAt (t : Nat) : Nat := 0xCC00 + t * 24

/-- The page header (Table 2-6). -/
structure KvHeader where
  magic : Nat := 0x4B56
  version : Nat := 1
  chBlocks : Nat
  valid : Nat
  layer : Nat
  sideScale : Word32
  threshold : Word32
  sideFmt : Nat
  deriving DecidableEq, Repr, Inhabited
def kvHeaderOf (bs : List Byte) : KvHeader :=
  let x := leNat bs
  { magic := x % 2 ^ 16, version := x / 2 ^ 16 % 256, chBlocks := x / 2 ^ 24 % 256, valid := x / 2 ^ 32 % 2 ^ 16,
    layer := x / 2 ^ 48 % 2 ^ 16, sideScale := BitVec.ofNat 32 (x / 2 ^ 64), threshold := BitVec.ofNat 32 (x / 2 ^ 96),
    sideFmt := x / 2 ^ 128 % 256 }
def kvHeaderBytes (h : KvHeader) : List Byte :=
  leBytes (h.magic + h.version * 2 ^ 16 + h.chBlocks * 2 ^ 24 + h.valid * 2 ^ 32 + h.layer * 2 ^ 48
    + h.sideScale.toNat * 2 ^ 64 + h.threshold.toNat * 2 ^ 96 + h.sideFmt * 2 ^ 128) 64
def kvSideElem (fmt : Nat) : Elem := if fmt = 0 then .e4m3 else .e5m2

/-! ### Decoding (R55) -/

/-- The bytes of one position: body, body scales, sidecar. -/
structure KvToken where
  body : List Byte
  scales : List Byte
  side : List Byte
  deriving DecidableEq, Repr, Inhabited
/-- The VALID sidecar entries in ascending order: (channel, value code). -/
def sideEntries (t : KvToken) : List (Nat × Nat) :=
  (List.range 8).filterMap (fun k =>
    let w := leNat ((t.side.drop (2 * k)).take 2)
    if w / 2 ^ 15 % 2 = 1 then some (w % 512, (t.side.getD (16 + k) 0).toNat) else none)
/-- The page is malformed: an entry names a channel at or above C, or several name one channel. -/
def sideMalformed (c : Nat) (t : KvToken) : Bool :=
  let es := sideEntries t
  es.any (fun e => decide (c ≤ e.1)) || decide ((es.map (·.1)).dedup.length < es.length)
/-- The FP32 value of a channel: the lowest sidecar entry that names it, else the body element times the channel's
scale; each one multiplication. -/
def kvChannel (h : KvHeader) (chScale : Nat → Word32) (t : KvToken) (j : Nat) : Word32 :=
  match (sideEntries t).find? (fun e => e.1 == j && decide (j < 32 * h.chBlocks)) with
  | some e => (fmul (toF32 (decodeElem (kvSideElem h.sideFmt) e.2)).1 h.sideScale).1
  | none =>
    let code := codeAt 4 (leNat t.body) j
    (rnd32 (mulFV (mxElem .e2m1 (t.scales.getD (j / 32) 0).toNat code) (fval (chScale j)))).1

/-! ### Encoding (R54) -/

/-- Insertion of a channel among outliers ordered by |y|, the lower channel first on ties. -/
def outlierPut (y : Nat → FV) (j : Nat) : List Nat → List Nat
  | [] => [j]
  | k :: ks => if ltMag (y k) (y j) then j :: k :: ks else k :: outlierPut y j ks
/-- The channels with |y| above the threshold: the 8 largest, in ascending channel order. -/
def outliers (threshold : Word32) (ys : List Word32) : List Nat :=
  let y := fun (j : Nat) => fval (ys.getD j 0)
  let cand := (List.range ys.length).filter (fun j => !(y j).isNan && ltFV (fval threshold) (fval (fabs (ys.getD j 0))))
  let top := (cand.foldl (fun l j => outlierPut y j l) []).take 8
  (List.range ys.length).filter (fun j => top.contains j)
/-- One token encoded: its body, scales and sidecar, with the events. rnd gives the rounding of each channel. A sidecar value is rounded
to FP32 as the quotient x_j / SIDE_SCALE and then converted to SIDE_FMT: R54 does not say whether the quotient is rounded before the
conversion (DESIGN CHOICE, log entry 126). -/
def kvEncode (h : KvHeader) (chScale : Nat → Word32) (rnd : Nat → Rnd) (xs : List Word32) : KvToken × Ev :=
  let ys := (List.zipIdx xs).map (fun p => (fdiv p.1 (chScale p.2)).1)
  let outs := outliers h.threshold ys
  let vals := outs.map (fun j => encodeElem (kvSideElem h.sideFmt) .rne (fval (fdiv (xs.getD j 0) h.sideScale).1))
  let ys0 := (List.zipIdx ys).map (fun p => if outs.contains p.2 then .fin false 0 0 else fval p.1)
  let blocks := (List.range h.chBlocks).map (fun b =>
    mxQuant .e2m1 ((List.range 32).map (fun i => rnd (32 * b + i))) ((ys0.drop (32 * b)).take 32))
  let body := leBytes (packCodes 4 (blocks.flatMap (fun b => b.2.1))) 192
  let scales := takePad 0 12 (blocks.map (fun b => BitVec.ofNat 8 b.1))
  let idx := takePad 0 16 (outs.flatMap (fun j => leBytes (j + 2 ^ 15) 2))
  let vb := takePad 0 8 (vals.map (fun v => BitVec.ofNat 8 v.1))
  ({ body := body, scales := scales, side := idx ++ vb },
   (Ev.sum (vals.map (·.2))).plus (Ev.sum (blocks.map (fun b => b.2.2))))

end Sys2Proof.Machine
end

