-- ==== Sys2Proof/Machine/Attention.lean ====
section
/-! DEFINITION. The attention unit (R116 to R125): one job over its pages, and the merge of splits. -/

namespace Sys2Proof.Machine

/-! ### Jobs in the descriptor queue (R119, R120) -/

/-- The descriptors of the job at the head of the queue: through the first PAGE with LAST, or up to the next JOB or
MERGE; none while neither has come. -/
def jobRun : List Word256 → Option (List Word256 × List Word256)
  | [] => none
  | d :: ds =>
    if descType d = 2 ∧ bitOf d 13 then some ([d], ds)
    else if descType d = 1 ∨ descType d = 3 then some ([], d :: ds)
    else (jobRun ds).map (fun r => (d :: r.1, r.2))

/-- The parts of a job: its JOB descriptor, its TREE if any, its pages. -/
structure Job where
  j : JobD
  tree : Option Word256
  pages : List PageD
  deriving DecidableEq, Repr, Inhabited
/-- The depth of a node (R122): from its ancestor mask; without a TREE the nodes form a chain. -/
def Job.depth (x : Job) (n : Nat) : Nat :=
  match x.tree with
  | some t => ((List.range 16).filter (fun m => treeAnc t n / 2 ^ m % 2 == 1)).length - 1
  | none => n
def strictlyRises : List Nat → Bool
  | a :: b :: t => decide (a < b) && strictlyRises (b :: t)
  | _ => true
/-- The split counts that R121 gives a job's session: from its committed pages before the step up to the pages of the last position
that the step or the job adds, by SPLIT_PAGES; lens is the session's committed length and the positions that running plans add (none
where no context is held, and then any count is taken). Log entry 127. -/
def splitsOk (splitPages : Nat) (j : JobD) (lens : Option (Nat × Nat)) : Bool :=
  decide (j.split < j.nsplit) &&
  match lens with
  | none => true
  | some (len, adds) =>
    let splits := fun (positions : Nat) => max 1 (ceilDiv (ceilDiv positions 256) (max splitPages 1))
    decide (splits len ≤ j.nsplit) && decide (j.nsplit ≤ splits (max (len + adds + 16) (j.base + (j.rows - 1) / j.g + 1)))
/-- The checks of R119, R120 and R121; 0, or the error code of Table 5-10. -/
def jobCheck (splitPages : Nat) (lens : Option (Nat × Nat)) (d : Word256) (rest : List Word256) : Nat × Job :=
  let j := jobOf d
  let tree := rest.head?.bind (fun t => if descType t = 4 then some t else none)
  let pds := if tree.isSome then rest.drop 1 else rest
  let pages := pds.map pageOf
  let com := pages.filter (fun p => !p.side)
  let x : Job := { j := j, tree := tree, pages := pages }
  let typeBad := jobReserved d || (tree.map treeReserved).getD false ||
    pds.any (fun p => (descType p == 2 && pageReserved p) || !(descType p == 2 || descType p == 4))
  let orderBad := (decide (j.mask = 2) != tree.isSome) || pds.any (fun p => descType p != 2) || pages = [] ||
    !((pages.getLast?.map (·.last)).getD false) || !strictlyRises (com.map (·.no)) ||
    com.dropLast.any (fun p => p.npos != 256) || pages.any (fun p => p.npos == 0 || decide (256 < p.npos)) ||
    pages.dropLast.any (·.side) || (pages.any (·.side) && j.mode != 1) ||
    com.any (fun p => p.no / max splitPages 1 != j.split) || !splitsOk splitPages j lens
  let rowsBad := (decide (j.mode < 2) && decide (16 < j.rows)) || j.rows % j.g != 0
  (if typeBad then 0x01 else if orderBad then 0x02 else if rowsBad then 0x03 else 0, x)

/-! ### Pages -/

/-- A KV entry that a job can see: its absolute position, the side-page node it stands for, its keys and values. -/
structure KvEnt where
  pos : Nat
  node : Option Nat
  k : List Word32
  v : List Word32
  deriving DecidableEq, Repr, Inhabited
/-- What reading a page gives: an error code, the entries, whether the page is malformed. -/
structure PageRead where
  err : Nat := 0
  ents : List KvEnt := []
  malformed : Bool := false
  deriving DecidableEq, Repr, Inhabited

/-- Whether an address lies in tier 0 or tier 1 (R114). -/
def State.nearPlace (s : State) (d : Dye) (a : Nat) : Bool :=
  match s.place d a with
  | .slice _ _ => true
  | .hbm _ => true
  | _ => false
/-- A session's committed length on this package, and the positions that a running step adds to it at most (R214). -/
def State.sessionLens (s : State) (d : Dye) (slot : Nat) : Option (Nat × Nat) :=
  (tabGet (fun _ => none) s.ctxs (d.val * 65536 + slot)).map (fun (c : Ctx) =>
    (c.len, ((s.plans.filter (fun q => q.running && q.plan.dye == d)).map (fun q =>
      ((q.plan.work.filter (fun w => w.1 == slot)).map (·.2)).sum)).sum))
/-- The KV bytes of a page that a job reads (R125). -/
def kvBytes (ch npos : Nat) : Nat := 64 + 4 * (32 * ch) + 228 * npos
def State.readPage (s : State) (r : RegionNo) (x : Job) (c : LClass) (splitPages : Nat) (p : PageD) : PageRead × State :=
  let m := Master.attention r
  if p.addr % 65536 ≠ 0 ∨ !s.nearPlace (s.owner r) p.addr then ({ err := 0x07 }, s)
  else
    let h0 := s.read m (p.addr + kvHeaderAt) 64
    if h0.1.refused then ({ err := 0x07 }, h0.2)
    else if h0.1.poison then ({ err := 0x08 }, h0.2)
    else
      let h := kvHeaderOf h0.1.data
      if h.magic ≠ 0x4B56 ∨ h.version ≠ 1 ∨ h.layer ≠ x.j.layer ∨ h.chBlocks ≠ c.ch then ({ err := 0x05 }, h0.2)
      else if h.valid < p.npos then ({ err := 0x06 }, h0.2)
      else
        let sc := h0.2.read m (p.addr + kvScalesAt) (4 * (32 * c.ch))
        let bd := sc.2.read m (p.addr + kvBodyAt 0) (192 * p.npos)
        let bs := bd.2.read m (p.addr + kvBodyScalesAt 0) (12 * p.npos)
        let sd := bs.2.read m (p.addr + kvSideAt 0) (24 * p.npos)
        if sc.1.refused || bd.1.refused || bs.1.refused || sd.1.refused then ({ err := 0x07 }, sd.2)
        else if sc.1.poison || bd.1.poison || bs.1.poison || sd.1.poison then ({ err := 0x08 }, sd.2)
        else
          let scales := bytesF32 sc.1.data (32 * c.ch)
          let tok := fun (t : Nat) => KvToken.mk ((bd.1.data.drop (192 * t)).take 192)
            ((bs.1.data.drop (12 * t)).take 12) ((sd.1.data.drop (24 * t)).take 24)
          let chan := fun (t j : Nat) => kvChannel h (fun i => scales.getD i 0) (tok t) j
          let ents := (List.range p.npos).filterMap (fun t =>
            let pos := if p.side then x.j.base + x.depth t else p.no * 256 + t
            if p.side && pos / 256 / max splitPages 1 != x.j.split then none
            else some { pos := pos, node := if p.side then some t else none,
                        k := (List.range (32 * c.dk)).map (fun i => chan t (32 * c.koff + i)),
                        v := (List.range (32 * c.dv)).map (fun i => chan t (32 * c.voff + i)) })
          ({ ents := ents, malformed := (List.range p.npos).any (fun t => sideMalformed (32 * c.ch) (tok t)) }, sd.2)
def State.readPages (s : State) (r : RegionNo) (x : Job) (c : LClass) (sp : Nat) : List PageD → PageRead × State
  | [] => ({}, s)
  | p :: ps =>
    let a := s.readPage r x c sp p
    if a.1.err ≠ 0 then a
    else
      let s1 := if a.1.malformed then a.2.bump (.atp r) ATP_EVT_MALFORMED else a.2
      let b := s1.readPages r x c sp ps
      ({ b.1 with ents := a.1.ents ++ b.1.ents }, b.2)

/-! ### The computation (R122, R123) -/

/-- Whether row n's query sees an entry. -/
def visible (x : Job) (row : Nat) (e : KvEnt) : Bool :=
  let n := row / x.j.g
  match x.j.mask with
  | 0 => true
  | 1 => decide (e.pos ≤ x.j.base + n)
  | 3 => decide (e.pos < x.j.aux) || decide (e.pos ≤ x.j.base + n)
  | _ =>
    match e.node with
    | none => decide (e.pos < x.j.base)
    | some m => (match x.tree with
      | some t => treeAnc t n / 2 ^ m % 2 == 1
      | none => false)

def exp2f (x : Word32) : Word32 := (vfun fnExp2 x).1
def recipf (x : Word32) : Word32 := (vfun fnRecip x).1
def negInf : Word32 := 0xFF800000
/-- Chunks of 32 of a list. -/
def chunks32 {α : Type} (l : List α) : List (List α) := (List.range ((l.length + 31) / 32)).map (fun i => (l.drop (32 * i)).take 32)
/-- A dot product in chunks of 32, ascending, from +0 (R39). -/
def dotf (q k : List Word32) : Word32 := (reduceChunks 0 (chunks32 ((List.zip q k).map (fun p => (fval p.1, fval p.2))))).1
/-- The running state of a row. -/
structure RowSt where
  m : Word32 := 0xFF800000
  l : Word32 := 0
  o : List Word32
  deriving DecidableEq, Repr, Inhabited
/-- The FP32 values of 64 lanes, where a lane without an entry holds z. -/
def laneVals (z : Word32) (es : List (Nat × Word32)) : List Word32 :=
  (List.range 64).map (fun i => ((es.find? (fun e => e.1 == i)).map (·.2)).getD z)
/-- One block of 64 positions folded into a row (R123). es are the visible entries of the block, by lane. -/
def rowBlock (scale : Word32) (q : List Word32) (st : RowSt) (es : List (Nat × KvEnt)) : RowSt :=
  let sc := es.map (fun e => (e.1, (fmul (dotf q e.2.k) scale).1))
  let mn := fmax st.m (vmax (laneVals negInf sc)).1
  if mn = negInf then st
  else
    let a := if st.m = negInf then 0 else exp2f (fsub st.m mn).1
    let p := sc.map (fun e => (e.1, exp2f (fsub e.2 mn).1))
    let l := (ffma st.l a (vsum (laneVals 0 p)).1).1
    let half := fun (lo : Nat) (c : Nat) (acc : Word32) =>
      (chunkSum acc ((List.zip p es).filterMap (fun pe =>
        if lo ≤ pe.1.1 ∧ pe.1.1 < lo + 32 then some (fval pe.1.2, fval (pe.2.2.v.getD c 0)) else none))).1
    { m := mn, l := l,
      o := (List.zipIdx st.o).map (fun oc => half 32 oc.2 (half 0 oc.2 (fmul oc.1 a).1)) }
/-- One row over all its blocks, ascending. -/
def attRow (x : Job) (dv : Nat) (q : List Word32) (ents : List KvEnt) (row : Nat) : RowSt :=
  let vis := ents.filter (visible x row)
  let blocks := ((vis.map (fun e => e.pos / 64)).dedup).mergeSort
  blocks.foldl (fun st b => rowBlock x.j.scale q st
    ((vis.filter (fun e => e.pos / 64 == b)).map (fun e => (e.pos % 64, e)))) { o := List.replicate (32 * dv) 0 }
/-- The output values of a row: normalised where the job is not split. -/
def rowOut (nsplit : Nat) (st : RowSt) : List Word32 :=
  if fval st.l |>.isZero then st.o.map (fun _ => 0)
  else if nsplit = 1 then st.o.map (fun v => (fmul v (recipf st.l)).1) else st.o

/-- The query rows, BF16 widened to FP32 (R117). -/
def State.readQueries (s : State) (r : RegionNo) (a dk : Nat) : Nat → (List (List Word32) × Nat) × State
  | 0 => (([], 0), s)
  | n + 1 =>
    let t := s.readQueries r a dk n
    let q := t.2.read (.attention r) (a + n * queryStride dk) (2 * (32 * dk))
    let e := if t.1.2 ≠ 0 then t.1.2 else if q.1.refused then 0x07 else if q.1.poison then 0x08 else 0
    ((t.1.1 ++ [(List.range (32 * dk)).map (fun i => (toF32 (decodeElem .bf16 (codeAt 16 (leNat q.1.data) i))).1)], e), q.2)

/-- A failed job: the error, canonical NaN in every output row and pair, no arrival (R134). -/
def State.failJob (s : State) (r : RegionNo) (j : JobD) (code : Nat) : State :=
  (s.nanOutputs r j.o (s.lclass r j.lclass).dv j.rows j.rows).atpError r .att code j.session
/-- KiB of KV read (ATP_EVT_KIB). -/
def State.kvRead (s : State) (r : RegionNo) (n : Nat) : State :=
  let a := s.atp r
  (s.bump (.atp r) ATP_EVT_KIB ((a.kvRem + n) / 1024)).setAtp r { a with kvRem := (a.kvRem + n) % 1024 }
/-- A split that has ended arrives at the pipeline that merges it (R124). -/
def State.mergeArrive (s : State) (d : Dye) (rgn id split session : Nat) : State :=
  match s.regionOf d rgn with
  | none => s
  | some q => s.setAtp q { (s.atp q) with
      masks := natSet (s.atp q).masks id (Nat.lor (natGet (s.atp q).masks id) (2 ^ split)),
      mergeSess := natSet (s.atp q).mergeSess id session }

/-- A job run (R123). -/
def State.runJob (s : State) (r : RegionNo) (x : Job) : State :=
  let j := x.j
  let c := s.lclass r j.lclass
  let sp := s.fld (.atp r) ATP_CFG 16 14
  if !c.ok then s.failJob r j 0x04
  else if j.q % 256 ≠ 0 ∨ j.o % 256 ≠ 0 ∨ !s.tier0 (s.owner r) j.q (j.rows * queryStride c.dk) ∨
      !s.tier0 (s.owner r) j.o (j.rows * (outStride c.dv + 8)) then s.failJob r j 0x07
  else
    let q := s.readQueries r j.q c.dk j.rows
    if q.1.2 ≠ 0 then q.2.failJob r j q.1.2
    else
      let p := q.2.readPages r x c sp x.pages
      let s1 := p.2.kvRead r ((x.pages.map (fun g => kvBytes c.ch g.npos)).sum)
      if p.1.err ≠ 0 then p.2.failJob r j p.1.err
      else
        let rows := (List.zipIdx q.1.1).map (fun qr => attRow x c.dv qr.1 p.1.ents qr.2)
        let outs := rows.map (rowOut j.nsplit)
        let w := s1.writeOutputs r j.o c.dv outs (rows.map (fun st => (st.m, st.l)))
        if w.1 ≠ .ok then w.2.atpError r .att (if w.1 = .ue then 0x08 else 0x07) j.session
        else
          let s2 := w.2.bump (.atp r) ATP_EVT_EMPTYROW ((rows.filter (fun st => (fval st.l).isZero)).length)
          let s3 := s2.bump (.atp r) ATP_EVT_NANROW ((outs.filter (fun o => o.any isNan32)).length)
          if j.nsplit = 1 then s3 else s3.mergeArrive (s.owner r) j.mergeRgn j.mergeId j.split j.session

/-- ATTENTION_JOB: the job at the head of the descriptor queue, once its last descriptor is queued. -/
def execAttentionJob (r : RegionNo) (s : State) : Out :=
  if !s.unitTakes r .att then .next s
  else
    match (s.atp r).dq with
    | [] => .next s
    | d :: ds =>
      if descType d = 3 then .next s
      else if descType d ≠ 1 then
        -- No job begins here (R119, R120): it fails at once, and what is queued of it up to LAST is discarded.
        .next ((s.putQueue r .att (((jobRun ds).map (·.2)).getD [])).atpError r .att
          (if descType d = 2 ∨ descType d = 4 then 0x02 else 0x01) (descSession .att d))
      else
        match jobRun ds with
        | none => .next s
        | some (run, rest) =>
            let s1 := s.putQueue r .att rest
            let k := jobCheck (s.fld (.atp r) ATP_CFG 16 14) (s.sessionLens (s.owner r) (bitsOf d 32 16)) d run
            let s2 := if k.1 ≠ 0 then s1.failJob r k.2.j k.1 else s1.runJob r k.2
            .next ((s2.bump (.atp r) ATP_JOBS_DONE).settleAll)

/-! ### Merge (R124) -/

/-- The partial of one split: its output rows and (m, l) pairs. -/
def State.readPartial (s : State) (r : RegionNo) (a dv rows : Nat) : (List (List Word32) × List (Word32 × Word32) × Nat) × State :=
  let b := s.read (.attention r) a (rows * outStride dv + 8 * rows)
  let err := if b.1.refused then 0x07 else if b.1.poison then 0x08 else 0
  let o := (List.range rows).map (fun i => bytesF32 ((b.1.data.drop (i * outStride dv)).take (4 * (32 * dv))) (32 * dv))
  let ml := (List.range rows).map (fun i =>
    let x := bytesF32 ((b.1.data.drop (rows * outStride dv + 8 * i)).take 8) 2
    (x.getD 0 0, x.getD 1 0))
  ((o, ml, err), b.2)
/-- A further split folded into a row. -/
def mergeRow (a b : RowSt) : RowSt :=
  if b.m = negInf then a
  else
    let m := fmax a.m b.m
    let x := if a.m = negInf then 0 else exp2f (fsub a.m m).1
    let y := exp2f (fsub b.m m).1
    { m := m, l := (ffma a.l x (fmul b.l y).1).1,
      o := List.zipWith (fun p q => (ffma p x (fmul q y).1).1) a.o b.o }
def State.readPartials (s : State) (r : RegionNo) (m : MergeD) (dv : Nat) : Nat → (List (List RowSt) × Nat) × State
  | 0 => (([], 0), s)
  | n + 1 =>
    let t := s.readPartials r m dv n
    let p := t.2.readPartial r (m.part + n * m.stride * 256) dv m.rows
    let rows := List.zipWith (fun o ml => ({ m := ml.1, l := ml.2, o := o } : RowSt)) p.1.1 p.1.2.1
    ((t.1.1 ++ [rows], if t.1.2 ≠ 0 then t.1.2 else p.1.2.2), p.2)
/-- The merged output of a row over its splits, ascending. -/
def mergedRow (splits : List (List RowSt)) (row : Nat) : RowSt :=
  match splits.map (fun l => l.getD row default) with
  | [] => default
  | a :: rest => rest.foldl mergeRow a

/-- MERGE: folds the splits once bits 0 to NSPLIT - 1 of its slot are all set, and clears the mask. -/
def execMerge (r : RegionNo) (s : State) : Out :=
  if !s.unitTakes r .att then .next s
  else
    match (s.atp r).dq with
    | [] => .next s
    | d :: q =>
      if descType d ≠ 3 then .next s
      else
        let m := mergeOf d
        let c := s.lclass r m.lclass
        let fin := fun (t : State) => (Host.Outcome.next (((t.bump (.atp r) ATP_JOBS_DONE).putQueue r .att q).settleAll) : Out)
        let nan := fun (t : State) (code : Nat) =>
          (t.nanOutputs r m.o c.dv m.rows 0).atpError r .att code (natGet (s.atp r).mergeSess m.mergeId)
        if mergeReserved d then fin (nan s 0x01)
        else if natGet (s.atp r).masks m.mergeId % 2 ^ m.nsplit ≠ 2 ^ m.nsplit - 1 then .next s
        else
          let s0 := s.setAtp r { (s.atp r) with masks := natSet (s.atp r).masks m.mergeId 0 }
          if !c.ok then fin (nan s0 0x04)
          else if m.o % 256 ≠ 0 ∨ m.part % 256 ≠ 0 ∨ !s.tier0 (s.owner r) m.o (m.rows * outStride c.dv) ∨
              !s.tier0 (s.owner r) m.part ((m.nsplit - 1) * m.stride * 256 + m.rows * (outStride c.dv + 8)) then fin (nan s0 0x07)
          else
            let p := s0.readPartials r m c.dv m.nsplit
            if p.1.2 ≠ 0 then fin (nan p.2 p.1.2)
            else
              let outs := (List.range m.rows).map (fun i => rowOut 1 (mergedRow p.1.1 i))
              let w := p.2.writeOutputs r m.o c.dv outs []
              if w.1 ≠ .ok then fin (w.2.atpError r .att (if w.1 = .ue then 0x08 else 0x07) (natGet (s.atp r).mergeSess m.mergeId))
              else fin (w.2.bump (.atp r) ATP_EVT_NANROW ((outs.filter (fun o => o.any isNan32)).length))

end Sys2Proof.Machine
end

