-- ==== Sys2Proof/Machine/Append.lean ====
section
/-! DEFINITION. The K/V append path (R54, R126 to R128): APPEND and COMMIT. -/

namespace Sys2Proof.Machine

/-- An APPEND or COMMIT descriptor (Table 5-6). -/
structure AppD where
  commit : Bool
  side : Bool
  sr : Bool
  node : Nat
  session : Nat
  layer : Nat
  n : Nat
  src : Nat
  page : Nat
  scale : Nat
  pos : Nat
  site : Nat
  deriving DecidableEq, Repr, Inhabited
def appOf (d : Word256) : AppD :=
  { commit := descType d = 6, side := bitOf d 4, sr := bitOf d 5, node := bitsOf d 6 4, session := bitsOf d 16 16,
    layer := bitsOf d 32 16, n := bitsOf d 48 8 + 1, src := bitsOf d 64 48, page := bitsOf d 112 48,
    scale := bitsOf d 160 48, pos := bitsOf d 208 22,
    site := bitsOf d 240 16 }
def appReserved (d : Word256) : Bool :=
  bitsOf d 10 6 != 0 || bitsOf d 56 8 != 0 || bitsOf d 230 10 != 0 ||
  (descType d == 6 && (bitsOf d 4 2 != 0 || bitsOf d 48 8 != 0 || bitsOf d 160 48 != 0))

/-- A read or write of a page by the append path: an error code beside. -/
def readCode (r : RdRes) : Nat := if r.refused then 0x07 else if r.poison then 0x08 else 0
def writeCode (w : WrRes) : Nat :=
  match w with
  | .ok => 0
  | .refused => 0x07
  | .ue => 0x08
/-- Writes one after another, each at its offset in a page; the first error stops. -/
def State.writeParts (s : State) (m : Master) (page : Nat) : List (Nat × List Byte) → Nat × State
  | [] => (0, s)
  | p :: ps =>
    let w := s.write m (page + p.1) p.2
    if w.1 ≠ .ok then (writeCode w.1, w.2) else w.2.writeParts m page ps

/-- The header of a page initialised from the layer's scale record (R54): header, channel scales, reserved bytes. -/
def initParts (h : KvHeader) (scales : List Word32) : List (Nat × List Byte) :=
  [(kvScalesAt, takePad 0 1536 (f32Bytes scales)), (kvHeaderAt, kvHeaderBytes h), (0xEA40, List.replicate 5568 0)]
/-- The scale record at an address of the image area (R54, R126): a 64-byte head with LAYER in bits [15:0], C in [31:16], SIDE_SCALE
in [63:32], THRESHOLD in [95:64] and SIDE_FMT in [103:96], then C scales. The spec gives the record no layout (log entry 15). Answers
an error code, the header that it initialises and the scales. -/
def State.scaleRecord (s : State) (m : Master) (a : Nat) : (Nat × KvHeader × List Word32) × State :=
  let h := s.read m a 64
  let x := leNat h.1.data
  let ch := min 12 (x / 2 ^ 16 % 2 ^ 16 / 32)
  let sc := h.2.read m (a + 64) (4 * (32 * ch))
  ((if readCode h.1 ≠ 0 then readCode h.1 else readCode sc.1,
    { chBlocks := ch, valid := 0, layer := x % 2 ^ 16, sideScale := BitVec.ofNat 32 (x / 2 ^ 32),
      threshold := BitVec.ofNat 32 (x / 2 ^ 64), sideFmt := x / 2 ^ 96 % 256 },
    bytesF32 sc.1.data (32 * ch)), sc.2)
def tokenParts (slot : Nat) (t : KvToken) : List (Nat × List Byte) :=
  [(kvBodyAt slot, t.body), (kvBodyScalesAt slot, t.scales), (kvSideAt slot, t.side)]

/-- What a token of a descriptor does: done, skipped under REPLAY, or an error. -/
inductive AppEnd where
  | done | skipped | err (code : Nat)
  deriving DecidableEq, Repr, Inhabited

/-- One token encoded into a page (R54, R126): the slot, its position, its FP32 row. -/
def State.appendToken (s : State) (r : RegionNo) (x : AppD) (i : Nat) : AppEnd × State :=
  let m := Master.appendPath r
  let pos := x.pos + i
  let slot := if x.side then x.node + i else pos % 256
  let h0 := s.read m (x.page + kvHeaderAt) 64
  if readCode h0.1 ≠ 0 then (.err (readCode h0.1), h0.2)
  else
    let old := kvHeaderOf h0.1.data
    if s.bit (.atp r) ATP_CFG 1 && decide (slot < old.valid) then (.skipped, h0.2)
    else if x.side && (decide (15 < slot) || (slot ≠ 0 && decide (slot < old.valid))) then (.err 0x0A, h0.2)
    else if !x.side && slot != old.valid then (.err 0x0A, h0.2)
    else
      let rec_ := if slot = 0 then h0.2.scaleRecord m x.scale else ((0, old, []), h0.2)
      if rec_.1.1 ≠ 0 then (.err rec_.1.1, rec_.2)
      else
        let hd := rec_.1.2.1
        let i0 := if slot = 0 then rec_.2.writeParts m x.page (initParts hd rec_.1.2.2) else (0, rec_.2)
        if i0.1 ≠ 0 then (.err i0.1, i0.2)
        else
          let c := 32 * hd.chBlocks
          let sc := i0.2.read m (x.page + kvScalesAt) (4 * c)
          let row := sc.2.read m (x.src + i * ((4 * c + 255) / 256 * 256)) (4 * c)
          if readCode sc.1 ≠ 0 then (.err (readCode sc.1), row.2)
          else if readCode row.1 ≠ 0 then (.err (readCode row.1), row.2)
          else
            let scales := bytesF32 sc.1.data c
            let seed := ((s.ctx (s.owner r) x.session).map (·.seed)).getD 0
            let c2 := x.layer * 65536 + x.site
            let rnd := fun (j : Nat) =>
              if x.sr && s.bit (.atp r) ATP_CFG 0 then Rnd.sr (srDraw seed j pos c2) else Rnd.rne
            let t := kvEncode hd (fun j => scales.getD j 0) rnd (bytesF32 row.1.data c)
            let w := row.2.writeParts m x.page (tokenParts slot t.1 ++
              [(kvHeaderAt, kvHeaderBytes { hd with valid := slot + 1 })])
            if w.1 ≠ 0 then (.err w.1, w.2)
            else (.done, (((w.2.bump (.atp r) ATP_EVT_SATURATE t.2.saturate).bump (.atp r) ATP_EVT_NANBLOCK
              t.2.nanBlock).bump (.atp r) ATP_APP_DONE).touchPage r x.page)

/-- The tokens of an APPEND in order; it stops at a failing token. -/
def State.appendTokens (s : State) (r : RegionNo) (x : AppD) : Nat → Nat × State
  | 0 => (0, s)
  | n + 1 =>
    let t := s.appendTokens r x n
    if t.1 ≠ 0 then t
    else
      let u := t.2.appendToken r x n
      match u.1 with
      | .err code => (code, u.2)
      | _ => (0, u.2)

/-- The head of the append queue taken off, with its error if any. -/
def State.endAppend (s : State) (r : RegionNo) (x : AppD) (code : Nat) (rest : List Word256) : State :=
  let s1 := if code ≠ 0 then s.atpError r .app code x.session else s
  (s1.putQueue r .app rest).settleAll

/-- APPEND: the descriptor at the head of the append queue encodes its rows into the page. A destination outside tier 0
and tier 1, not aligned, or read-only is an address error; a token past the page's last slot is out of order, and those before it stay
(R128). -/
def execAppend (r : RegionNo) (s : State) : Out :=
  if !s.unitTakes r .app then .next s
  else
    match (s.atp r).aq with
    | [] => .next s
    | d :: rest =>
      let x := appOf d
      if descType d = 6 then .next s
      else if descType d ≠ 5 ∨ appReserved d then .next (s.endAppend r x 0x01 rest)
      else if x.page % 65536 ≠ 0 ∨ !s.nearPlace (s.owner r) x.page ∨ s.sharedAt (s.owner r) x.page then .next (s.endAppend r x 0x07 rest)
      else
        let fits := if x.side then x.n else min x.n (256 - x.pos % 256)
        let t := s.appendTokens r x fits
        .next (t.2.endAppend r x (if t.1 = 0 ∧ fits < x.n then 0x0A else t.1) rest)

/-- COMMIT: side-page node NODE copied unchanged to slot POS mod 256 of the page (R127). At slot 0 the side page's
header is copied with TOKENS_VALID 0, and the channel scales with it (log entry 14). -/
def State.commitNode (s : State) (r : RegionNo) (x : AppD) : AppEnd × State :=
  let m := Master.appendPath r
  let slot := x.pos % 256
  let h0 := s.read m (x.page + kvHeaderAt) 64
  if readCode h0.1 ≠ 0 then (.err (readCode h0.1), h0.2)
  else
    let old := kvHeaderOf h0.1.data
    if s.bit (.atp r) ATP_CFG 1 && decide (slot < old.valid) then (.skipped, h0.2)
    else if slot ≠ old.valid then (.err 0x0A, h0.2)
    else
      let hd := h0.2.read m (x.src + kvHeaderAt) 64
      let sc := hd.2.read m (x.src + kvScalesAt) 1536
      let bd := sc.2.read m (x.src + kvBodyAt x.node) 192
      let bs := bd.2.read m (x.src + kvBodyScalesAt x.node) 12
      let sd := bs.2.read m (x.src + kvSideAt x.node) 24
      let bad := [hd.1, sc.1, bd.1, bs.1, sd.1].map readCode |>.find? (· ≠ 0)
      match bad with
      | some code => (.err code, sd.2)
      | none =>
        let h := if slot = 0 then { kvHeaderOf hd.1.data with valid := 0 } else old
        let w := sd.2.writeParts m x.page ((if slot = 0 then [(kvScalesAt, sc.1.data)] else []) ++
          tokenParts slot { body := bd.1.data, scales := bs.1.data, side := sd.1.data } ++
          [(kvHeaderAt, kvHeaderBytes { h with valid := slot + 1 })])
        if w.1 ≠ 0 then (.err w.1, w.2) else (.done, (w.2.bump (.atp r) ATP_APP_DONE).touchPage r x.page)

/-- COMMIT. -/
def execCommit (r : RegionNo) (s : State) : Out :=
  if !s.unitTakes r .app then .next s
  else
    match (s.atp r).aq with
    | [] => .next s
    | d :: rest =>
      let x := appOf d
      if descType d ≠ 6 then .next s
      else if appReserved d then .next (s.endAppend r x 0x01 rest)
      else if x.page % 65536 ≠ 0 ∨ x.src % 65536 ≠ 0 ∨ !s.nearPlace (s.owner r) x.page ∨ !s.nearPlace (s.owner r) x.src ∨
          s.sharedAt (s.owner r) x.page then
        .next (s.endAppend r x 0x07 rest)
      else
        let t := s.commitNode r x
        .next (t.2.endAppend r x (match t.1 with | .err code => code | _ => 0) rest)

end Sys2Proof.Machine
end

