-- ==== Sys2Proof/Machine/Scalar.lean ====
section
/-! DEFINITION. The scalar and address instructions of Table 3-5 (R57 to R59): NOP to RDSR and AMOV to ARD. -/

namespace Sys2Proof.Machine

/-! ### Loads and stores of the own slice (LDS, STS, VLD, VST; R59, R95, R96, R101) -/

/-- A refusal at the slice under R96: counted, recorded, and an address fault of the core. -/
def State.sliceRefusal (s : State) (c : CoreId) (a : Addr) (op : Nat) : State :=
  ((s.bump (.spd c.region) SPD_ACC_ERR).refuseRec (.sequencer c) a.toNat (some c)).faultHere c fADDRESS 0 op

/-- A load of n bytes by the sequencer; f puts the bytes into the core. -/
def State.ownLoad (s : State) (c : CoreId) (a : Addr) (n align op : Nat) (f : List Byte → CoreSt → CoreSt) : State :=
  match s.ownOfs c a n align with
  | none => s.faultHere c fADDRESS 0 op
  | some o =>
    if s.sliceOk c 1 0 o n then
      let r := s.portRead c 1 o n
      if r.1.2 then r.2.faultHere c fECC 0 op else r.2.retire c (f r.1.1)
    else s.sliceRefusal c a op

/-- A store of bytes by the sequencer. A merge that meets an uncorrectable error is not performed (R101). -/
def State.ownStore (s : State) (c : CoreId) (a : Addr) (align op : Nat) (bs : List Byte) : State :=
  match s.ownOfs c a bs.length align with
  | none => s.faultHere c fADDRESS 0 op
  | some o =>
    if s.sliceOk c 1 1 o bs.length then
      let r := s.portWrite c 1 o bs
      if r.1 then r.2.faultHere c fECC 0 op else r.2.retire c id
    else s.sliceRefusal c a op

/-! ### Computations -/

/-- LOGIC on 64 bits. -/
def logicOp (fn : Nat) (x y : Word64) : Word64 :=
  match fn with
  | 0 => x &&& y
  | 1 => x ||| y
  | 2 => x ^^^ y
  | _ => x &&& ~~~y
/-- SHIFT by Sb[5:0]. -/
def shiftOp (fn : Nat) (x y : Word64) : Word64 :=
  match fn with
  | 0 => x <<< bitsOf y 0 6
  | 1 => x >>> bitsOf y 0 6
  | _ => x.sshiftRight (bitsOf y 0 6)
/-- The condition of CMP and CMPI. -/
def condOp (fn : Nat) (x y : Word64) : Bool :=
  match fn with
  | 0 => x == y
  | 1 => x != y
  | 2 => x.slt y
  | 3 => !x.slt y
  | 4 => x.ult y
  | _ => !x.ult y
/-- PLOG. -/
def plogOp (fn : Nat) (x y : Bool) : Bool :=
  match fn with
  | 0 => x && y
  | 1 => x || y
  | 2 => x != y
  | _ => x && !y
/-- MOVI: FN 0 sign-extends; FN 1 replaces the high half. -/
def moviOp (fn : Nat) (old : Word64) (imm : Word32) : Word64 :=
  if fn = 0 then sext64 imm else imm ++ old.extractLsb' 0 32

/-- NOP: no effect; every field is unused. -/
def execNop (c : CoreId) (w : RWord) (s : State) : Out :=
  .next (s.issue c (encodeR opNOP w) (checkR w (w.fn == 0) .unused .unused .unused .unused) 0 w.p w.pneg
    (fun s => s.retire c id))

/-- ADD: Sd ← Sa + Sb, modulo 2^64. -/
def execAdd (c : CoreId) (w : RWord) (s : State) : Out :=
  .next (s.issue c (encodeR opADD w) (checkR w (w.fn == 0) .all .all .all .unused) 0 w.p w.pneg
    (fun s => s.retire c (fun k => k.setS w.d.toNat (k.s w.a.toNat + k.s w.b.toNat))))

/-- SUB: Sd ← Sa − Sb, modulo 2^64. -/
def execSub (c : CoreId) (w : RWord) (s : State) : Out :=
  .next (s.issue c (encodeR opSUB w) (checkR w (w.fn == 0) .all .all .all .unused) 0 w.p w.pneg
    (fun s => s.retire c (fun k => k.setS w.d.toNat (k.s w.a.toNat - k.s w.b.toNat))))

/-- MUL: Sd ← low 64 bits of Sa × Sb. -/
def execMul (c : CoreId) (w : RWord) (s : State) : Out :=
  .next (s.issue c (encodeR opMUL w) (checkR w (w.fn == 0) .all .all .all .unused) 0 w.p w.pneg
    (fun s => s.retire c (fun k => k.setS w.d.toNat (k.s w.a.toNat * k.s w.b.toNat))))

/-- LOGIC: Sd ← Sa op Sb, FN 0 to 3. -/
def execLogic (c : CoreId) (w : RWord) (s : State) : Out :=
  .next (s.issue c (encodeR opLOGIC w) (checkR w (decide (w.fn.toNat ≤ 3)) .all .all .all .unused) 0 w.p w.pneg
    (fun s => s.retire c (fun k => k.setS w.d.toNat (logicOp w.fn.toNat (k.s w.a.toNat) (k.s w.b.toNat)))))

/-- SHIFT: Sd ← Sa shifted by Sb[5:0], FN 0 to 2. -/
def execShift (c : CoreId) (w : RWord) (s : State) : Out :=
  .next (s.issue c (encodeR opSHIFT w) (checkR w (decide (w.fn.toNat ≤ 2)) .all .all .all .unused) 0 w.p w.pneg
    (fun s => s.retire c (fun k => k.setS w.d.toNat (shiftOp w.fn.toNat (k.s w.a.toNat) (k.s w.b.toNat)))))

/-- ADDI: Sd ← Sa + IMM. -/
def execAddi (c : CoreId) (w : IWord) (s : State) : Out :=
  .next (s.issue c (encodeI opADDI w) (checkI w (w.fn == 0) .all .all) 0 w.p w.pneg
    (fun s => s.retire c (fun k => k.setS w.d.toNat (k.s w.a.toNat + sext64 w.imm))))

/-- MOVI: FN 0 and 1. -/
def execMovi (c : CoreId) (w : IWord) (s : State) : Out :=
  .next (s.issue c (encodeI opMOVI w) (checkI w (decide (w.fn.toNat ≤ 1)) .all .unused) 0 w.p w.pneg
    (fun s => s.retire c (fun k => k.setS w.d.toNat (moviOp w.fn.toNat (k.s w.d.toNat) w.imm))))

/-- CMP: Pd ← (Sa cond Sb), FN 0 to 5. -/
def execCmp (c : CoreId) (w : RWord) (s : State) : Out :=
  .next (s.issue c (encodeR opCMP w)
    (checkPd (checkR w (decide (w.fn.toNat ≤ 5)) (.low 3) .all .all .unused) w.d) 0 w.p w.pneg
    (fun s => s.retire c (fun k => k.setP w.d.toNat (condOp w.fn.toNat (k.s w.a.toNat) (k.s w.b.toNat)))))

/-- CMPI: Pd ← (Sa cond IMM). -/
def execCmpi (c : CoreId) (w : IWord) (s : State) : Out :=
  .next (s.issue c (encodeI opCMPI w)
    (checkPd (checkI w (decide (w.fn.toNat ≤ 5)) (.low 3) .all) w.d) 0 w.p w.pneg
    (fun s => s.retire c (fun k => k.setP w.d.toNat (condOp w.fn.toNat (k.s w.a.toNat) (sext64 w.imm)))))

/-- PLOG: Pd ← Pa op Pb, FN 0 to 3. -/
def execPlog (c : CoreId) (w : RWord) (s : State) : Out :=
  .next (s.issue c (encodeR opPLOG w)
    (checkPd (checkR w (decide (w.fn.toNat ≤ 3)) (.low 3) (.low 3) (.low 3) .unused) w.d) 0 w.p w.pneg
    (fun s => s.retire c (fun k => k.setP w.d.toNat (plogOp w.fn.toNat (k.p w.a.toNat) (k.p w.b.toNat)))))

/-- LDS: Sd ← the 64-bit word at [Aa + IMM], 8-byte aligned, in the own slice. -/
def execLds (c : CoreId) (w : IWord) (s : State) : Out :=
  .next (s.issue c (encodeI opLDS w) (checkI w (w.fn == 0) .all (.low 4)) 0 w.p w.pneg
    (fun s => s.ownLoad c ((s.core c).a w.a.toNat + sext48 w.imm) 8 8 opLDS
      (fun bs k => k.setS w.d.toNat (BitVec.ofNat 64 (leNat bs)))))

/-- STS: the 64-bit word at [Aa + IMM] ← Sd. -/
def execSts (c : CoreId) (w : IWord) (s : State) : Out :=
  .next (s.issue c (encodeI opSTS w) (checkI w (w.fn == 0) .all (.low 4)) 0 w.p w.pneg
    (fun s => s.ownStore c ((s.core c).a w.a.toNat + sext48 w.imm) 8 opSTS
      (leBytes ((s.core c).s w.d.toNat).toNat 8)))

/-- RDSR 0: the counter interpolated to 1 ns, within 2 ns of the package counter and never below the read before
(R279). Where inside it lies is a free value (log entry 4). -/
def State.rdsrCounter (s : State) : Nat × State :=
  let d := s.draw
  let v := max s.lastRdsr (s.now + Config.freeNat d.1 % 5 - 2)
  (v, { d.2 with lastRdsr := v })

/-- RDSR: Sd ← special value number IMM, 0 to 5; other values are illegal operands (Table 3-10). -/
def execRdsr (c : CoreId) (w : IWord) (s : State) : Out :=
  let leg := checkI w (w.fn == 0) .all .unused
  .next (s.issue c (encodeI opRDSR w) (if leg ≠ 0 then leg else if w.imm.toNat ≤ 5 then 0 else fOPERAND) 0 w.p w.pneg
    (fun s =>
      let k := s.core c
      if w.imm = 0 then
        let r := s.rdsrCounter
        r.2.retire c (fun k => k.setS w.d.toNat (BitVec.ofNat 64 r.1))
      else
        let v := if w.imm = 1 then (s.lcoord c).toNat else if w.imm = 2 then k.tile else if w.imm = 3 then k.epoch.toNat
          else if w.imm = 4 then s.cyclesSince c.region k.stepAt else s.rgnFreq c.region
        s.retire c (fun k => k.setS w.d.toNat (BitVec.ofNat 64 v))))

/-- AMOV: Ad ← Sa[47:0]. -/
def execAmov (c : CoreId) (w : RWord) (s : State) : Out :=
  .next (s.issue c (encodeR opAMOV w) (checkR w (w.fn == 0) (.low 4) .all .unused .unused) 0 w.p w.pneg
    (fun s => s.retire c (fun k => k.setA w.d.toNat ((k.s w.a.toNat).extractLsb' 0 48))))

/-- AADD: Ad ← Aa + (Sb << FN), FN 0 to 7, modulo 2^48. -/
def execAadd (c : CoreId) (w : RWord) (s : State) : Out :=
  .next (s.issue c (encodeR opAADD w) (checkR w (decide (w.fn.toNat ≤ 7)) (.low 4) (.low 4) .all .unused) 0 w.p w.pneg
    (fun s => s.retire c (fun k =>
      k.setA w.d.toNat (k.a w.a.toNat + (k.s w.b.toNat <<< w.fn.toNat).extractLsb' 0 48))))

/-- AADDI: Ad ← Aa + IMM. -/
def execAaddi (c : CoreId) (w : IWord) (s : State) : Out :=
  .next (s.issue c (encodeI opAADDI w) (checkI w (w.fn == 0) (.low 4) (.low 4)) 0 w.p w.pneg
    (fun s => s.retire c (fun k => k.setA w.d.toNat (k.a w.a.toNat + sext48 w.imm))))

/-- ARD: Sd ← Aa, zero-extended. -/
def execArd (c : CoreId) (w : RWord) (s : State) : Out :=
  .next (s.issue c (encodeR opARD w) (checkR w (w.fn == 0) .all (.low 4) .unused .unused) 0 w.p w.pneg
    (fun s => s.retire c (fun k => k.setS w.d.toNat ((k.a w.a.toNat).setWidth 64))))

end Sys2Proof.Machine
end

