-- ==== Sys2Proof/Machine/Vector.lean ====
section
/-! DEFINITION. The vector instructions of Table 3-5 (R36, R40, R41, R90): VLD to VACC. -/

namespace Sys2Proof.Machine

/-- Whether a queued MMA still targets a bank (the interlock of R61). -/
def CoreSt.mmaInto (k : CoreSt) (bank : Nat) : Bool :=
  k.mq.any (fun o => match o with
    | .mma _ _ _ b _ _ _ _ _ => b == bank
    | .mload _ _ _ _ => false)

/-- VLD: Vd ← 256 bytes at [Aa + IMM], 32-byte aligned, in the own slice. -/
def execVld (c : CoreId) (w : IWord) (s : State) : Out :=
  .next (s.issue c (encodeI opVLD w) (checkI w (w.fn == 0) .all (.low 4)) 0 w.p w.pneg
    (fun s => s.ownLoad c ((s.core c).a w.a.toNat + sext48 w.imm) 256 32 opVLD
      (fun bs k => k.setV w.d.toNat (BitVec.ofNat 2048 (leNat bs)))))

/-- VST: the 256 bytes at [Aa + IMM] ← Vd. -/
def execVst (c : CoreId) (w : IWord) (s : State) : Out :=
  .next (s.issue c (encodeI opVST w) (checkI w (w.fn == 0) .all (.low 4)) 0 w.p w.pneg
    (fun s => s.ownStore c ((s.core c).a w.a.toNat + sext48 w.imm) 32 opVST
      (leBytes ((s.core c).v w.d.toNat).toNat 256)))

/-- The lane operation of VOP. -/
def vopLane (fn : Nat) (a b : Word32) : Word32 × Ev :=
  match fn with
  | 0 => fadd a b
  | 1 => fsub a b
  | 2 => fmul a b
  | 3 => (fmax a b, Ev.none)
  | 4 => (fmin a b, Ev.none)
  | 5 => (fabs a, Ev.none)
  | _ => (fneg a, Ev.none)

/-- VOP: Vd ← Va op Vb in each lane, FN 0 to 6; FN 5 and 6 leave B unused. -/
def execVop (c : CoreId) (w : RWord) (s : State) : Out :=
  .next (s.issue c (encodeR opVOP w)
    (checkR w (decide (w.fn.toNat ≤ 6)) .all .all (if w.fn.toNat < 5 then .all else .unused) .unused) 0 w.p w.pneg
    (fun s => s.retire c (fun k =>
      let r := zipLanes (vopLane w.fn.toNat) (k.v w.a.toNat) (k.v w.b.toNat)
      (k.setV w.d.toNat r.1).addEv r.2)))

/-- VFMA: Vd ← Va × Vb + Vc, rounded once. -/
def execVfma (c : CoreId) (w : RWord) (s : State) : Out :=
  .next (s.issue c (encodeR opVFMA w) (checkR w (w.fn == 0) .all .all .all .all) 0 w.p w.pneg
    (fun s => s.retire c (fun k =>
      let r := List.zipWith (fun p z => ffma p.1 p.2 z)
        (List.zip (lanes (k.v w.a.toNat)) (lanes (k.v w.b.toNat))) (lanes (k.v w.c.toNat))
      (k.setV w.d.toNat (ofLanes (r.map (·.1)))).addEv (Ev.sum (r.map (·.2))))))

/-- The function of VFUNC (R41). -/
def vfuncOp (fn : Nat) : Word32 → Word32 :=
  match fn with
  | 0 => fnExp2
  | 1 => fnRecip
  | 2 => fnRsqrt
  | 3 => fnLog2
  | _ => fnTanh

/-- VFUNC: Vd ← f(Va), FN 0 to 4. -/
def execVfunc (c : CoreId) (w : RWord) (s : State) : Out :=
  .next (s.issue c (encodeR opVFUNC w) (checkR w (decide (w.fn.toNat ≤ 4)) .all .all .unused .unused) 0 w.p w.pneg
    (fun s => s.retire c (fun k =>
      let r := mapLanes (vfun (vfuncOp w.fn.toNat)) (k.v w.a.toNat)
      (k.setV w.d.toNat r.1).addEv r.2)))

/-- VRED: Sd ← FP32 bits of the reduction of Va, FN 0 SUM, 1 MAX. -/
def execVred (c : CoreId) (w : RWord) (s : State) : Out :=
  .next (s.issue c (encodeR opVRED w) (checkR w (decide (w.fn.toNat ≤ 1)) .all .all .unused .unused) 0 w.p w.pneg
    (fun s => s.retire c (fun k =>
      let r := if w.fn = 0 then vsum (lanes (k.v w.a.toNat)) else vmax (lanes (k.v w.a.toNat))
      (k.setS w.d.toNat (r.1.setWidth 64)).addEv r.2)))

/-! ### VCVT -/

/-- The narrow format of a VCVT FN. -/
def vcvtElem (fn : Nat) : Elem :=
  match fn with
  | 0 => .bf16
  | 1 => .fp16
  | 2 => .bf16
  | 3 => .fp16
  | 4 => .e4m3
  | 5 => .e5m2
  | 6 => .e4m3
  | _ => .e5m2
/-- One lane narrowed: FN 0 and 1 convert, FN 4 and 5 divide by the scale first (two roundings). -/
def vcvtNarrow (fn : Nat) (scale x : Word32) : Nat × Ev :=
  if fn < 4 then encodeElem (vcvtElem fn) .rne (fval x)
  else
    let q := fdiv x scale
    let r := encodeElem (vcvtElem fn) .rne (fval q.1)
    (r.1, q.2.plus r.2)
/-- One code widened: exactly, and for FN 6 and 7 then multiplied by the scale. -/
def vcvtWiden (fn : Nat) (scale : Word32) (x : Nat) : Word32 × Ev :=
  let v := (toF32 (decodeElem (vcvtElem fn) x)).1
  if fn < 4 then (v, Ev.none) else fmul v scale
/-- VCVT of a register. -/
def vcvtOp (fn : Nat) (scale : Word32) (v : BitVec 2048) : BitVec 2048 × Ev :=
  let wd := (vcvtElem fn).width
  if fn = 0 ∨ fn = 1 ∨ fn = 4 ∨ fn = 5 then
    let r := (lanes v).map (vcvtNarrow fn scale)
    (BitVec.ofNat 2048 (packCodes wd (r.map (·.1))), Ev.sum (r.map (·.2)))
  else
    let r := (List.range 64).map (fun i => vcvtWiden fn scale (codeAt wd v.toNat i))
    (ofLanes (r.map (·.1)), Ev.sum (r.map (·.2)))

/-- VCVT: FN 0 to 7; FN 4 to 7 take the FP32 scale in Sb. -/
def execVcvt (c : CoreId) (w : RWord) (s : State) : Out :=
  .next (s.issue c (encodeR opVCVT w)
    (checkR w (decide (w.fn.toNat ≤ 7)) .all .all (if w.fn.toNat < 4 then .unused else .all) .unused) 0 w.p w.pneg
    (fun s => s.retire c (fun k =>
      let r := vcvtOp w.fn.toNat ((k.s w.b.toNat).extractLsb' 0 32) (k.v w.a.toNat)
      (k.setV w.d.toNat r.1).addEv r.2)))

/-! ### VQMX (R34, R45, R90) -/

/-- Whether the active image of a dye enables stochastic rounding at a site, named by its c2 value (Table 10-3). -/
def State.srSite (s : State) (d : Dye) (c2 : Nat) : Bool :=
  match tabGet (fun _ => none) s.images d.val with
  | none => false
  | some i => i.sections.any (fun x => match x.body with
      | .quant sites => sites.any (fun v => v.toNat == c2)
      | _ => false)
/-- The rounding of lane l of a VQMX. -/
def vqmxRnd (sr : Bool) (key info : Word64) (c2 l : Nat) : Rnd :=
  if sr then .sr (srDraw key (bitsOf info 32 32 + l) (bitsOf info 0 32) c2) else .rne
/-- Two blocks of 32 lanes quantised: codes from byte 0, the scales in bytes 254 and 255. -/
def vqmxOp (f : Elem) (rnd : Nat → Rnd) (v : BitVec 2048) : BitVec 2048 × Ev :=
  let vs := (lanes v).map fval
  let a := mxQuant f ((List.range 32).map rnd) (vs.take 32)
  let b := mxQuant f ((List.range 32).map (fun i => rnd (i + 32))) (vs.drop 32)
  (BitVec.ofNat 2048 (packCodes f.width (a.2.1 ++ b.2.1) + a.1 * 2 ^ (8 * 254) + b.1 * 2 ^ (8 * 255)),
   a.2.2.plus b.2.2)

/-- VQMX: FN[3:0] is the FMT 0 to 5, FN[4] asks for stochastic rounding with S[b] to S[b + 2]; B above 29 is then an
illegal operand. -/
def execVqmx (c : CoreId) (w : RWord) (s : State) : Out :=
  let fmt := bitsOf w.fn 0 4
  let sr := bitOf w.fn 4
  let leg := checkR w (decide (fmt ≤ 5) && decide (bitsOf w.fn 5 3 = 0)) .all .all (if sr then .all else .unused) .unused
  .next (s.issue c (encodeR opVQMX w) (if leg ≠ 0 then leg else if sr && decide (29 < w.b.toNat) then fOPERAND else 0)
    0 w.p w.pneg
    (fun s => s.retire c (fun k =>
      let c2 := bitsOf (k.s (w.b.toNat + 2)) 0 32
      let on := sr && s.srSite (s.owner c.region) c2
      let r := vqmxOp ((fmtElem fmt).getD .e2m1) (vqmxRnd on (k.s w.b.toNat) (k.s (w.b.toNat + 1)) c2) (k.v w.a.toNat)
      (k.setV w.d.toNat r.1).addEv r.2)))

/-- VBCAST: FN 0 from Sa[31:0], FN 1 from lane Sb[5:0] of Va. -/
def execVbcast (c : CoreId) (w : RWord) (s : State) : Out :=
  .next (s.issue c (encodeR opVBCAST w)
    (checkR w (decide (w.fn.toNat ≤ 1)) .all .all (if w.fn = 0 then .unused else .all) .unused) 0 w.p w.pneg
    (fun s => s.retire c (fun k =>
      let x := if w.fn = 0 then (k.s w.a.toNat).extractLsb' 0 32 else lane (k.v w.a.toNat) (bitsOf (k.s w.b.toNat) 0 6)
      k.setV w.d.toNat (ofLanes (List.replicate 64 x)))))

/-- VTAIL: every lane at or above Sb[6:0] set to +0. -/
def execVtail (c : CoreId) (w : RWord) (s : State) : Out :=
  .next (s.issue c (encodeR opVTAIL w) (checkR w (w.fn == 0) .all .all .all .unused) 0 w.p w.pneg
    (fun s => s.retire c (fun k =>
      k.setV w.d.toNat (ofLanes (takePad 0 64 ((lanes (k.v w.a.toNat)).take (bitsOf (k.s w.b.toNat) 0 7)))))))

/-! ### VACC (R35, R61, R69) -/

/-- A row read out with a per-tensor scale (R35): a scale that is not finite and positive makes every element NaN and
counts INVALID for each. -/
def readoutScaled (scale : Word32) (row : BitVec 2048) : BitVec 2048 × Ev :=
  if posFinite scale then mapLanes (fun x => fmul x scale) row
  else (ofLanes (List.replicate 64 nan32), { invalid := 64 })

/-- VACC: FN 0 read a row, 1 read it scaled by Sc, 2 write it, 3 zero the bank. It waits for earlier MMAs into the bank
(R61): until then the state does not change. A row above 127 is an illegal operand. FN 3 names no row: B is taken as unused there, so
that a non-zero B is an illegal word (DESIGN CHOICE, log entry 121). -/
def execVacc (c : CoreId) (w : RWord) (s : State) : Out :=
  let leg := checkR w (decide (w.fn.toNat ≤ 3)) (if w.fn = 3 then .unused else .all) (.low 3)
    (if w.fn = 3 then .unused else .all) (if w.fn = 1 then .all else .unused)
  .next (s.issue c (encodeR opVACC w) leg 0 w.p w.pneg
    (fun s =>
      let k := s.core c
      let row := (k.s w.b.toNat).toNat
      let bank := w.a.toNat
      if w.fn ≠ 3 ∧ 127 < row then s.faultHere c fOPERAND 0 opVACC
      else if k.mmaInto bank then s
      else if w.fn = 0 then s.retire c (fun k => k.setV w.d.toNat (s.accRow c bank row))
      else if w.fn = 1 then
        s.retire c (fun k =>
          let r := readoutScaled ((k.s w.c.toNat).extractLsb' 0 32) (s.accRow c bank row)
          (k.setV w.d.toNat r.1).addEv r.2)
      else if w.fn = 2 then (s.setAccRow c bank row (k.v w.d.toNat)).retire c id
      else (s.accClear c bank).retire c id))

end Sys2Proof.Machine
end

