-- ==== Sys2Proof/Machine/Matrix.lean ====
section
/-! DEFINITION. The matrix engine (R38, R39, R61, R64 to R67): MLOAD, MMA and the events by which a block finishes
loading and a row is written. A block and a row are read, computed and written at their event. -/

namespace Sys2Proof.Machine

/-- The operand pairs of Table 2-3, by FMT of the block and of the stream. -/
def pairOk (wf sf : Nat) : Bool :=
  let fp8 := sf == 3 || sf == 4 || sf == 6 || sf == 7
  match wf with
  | 0 => sf == 0 || fp8
  | 1 => sf == 1 || sf == 2 || fp8
  | 2 => sf == 1 || sf == 2 || fp8
  | 3 => fp8
  | 4 => fp8
  | 6 => fp8
  | 7 => fp8
  | 5 => sf == 5
  | 8 => sf == 8
  | 9 => sf == 9
  | _ => false
/-- K of a block, which is K per streamed row (Table 3-7). -/
def blockK (wf : Nat) : Nat := if wf = 0 then 128 else 64
def fmtWidth (fmt : Nat) : Nat := ((fmtElem fmt).map Elem.width).getD 8
/-- Bytes loaded (Table 3-7): codes, then scales for MX formats. -/
def blockCodeBytes (wf : Nat) : Nat := 64 * blockK wf * fmtWidth wf / 8
def blockBytes (wf : Nat) : Nat := blockCodeBytes wf + (if fmtMx wf then 64 * (blockK wf / 32) else 0)
/-- A streamed row record and its stride (R66). -/
def recBytes (k sf : Nat) : Nat := k * fmtWidth sf / 8
def recStride (k sf : Nat) : Nat := (recBytes k sf + 31) / 32 * 32
/-- Bytes from the base to the end of a streamed operand of m rows. -/
def streamBytes (k sf m : Nat) : Nat :=
  if fmtMx sf then m * recStride k sf + m * (k / 32) else (m - 1) * recStride k sf + recBytes k sf

/-- Values of codes, each with the scale code of its block of 32 where the format is MX. -/
def operandVals (fmt : Nat) (codes scales : List Byte) (n : Nat) : List FV :=
  let f := (fmtElem fmt).getD .e4m3
  let x := leNat codes
  (List.range n).map (fun i =>
    if fmtMx fmt then mxElem f ((scales.getD (i / 32) 0).toNat) (codeAt f.width x i)
    else decodeElem f (codeAt f.width x i))
/-- Column n of a block (R66). -/
def blockColumn (fmt : Nat) (block : List Byte) (n : Nat) : List FV :=
  let k := blockK fmt
  let cb := k * fmtWidth fmt / 8
  operandVals fmt ((block.drop (n * cb)).take cb) ((block.drop (blockCodeBytes fmt + n * (k / 32))).take (k / 32)) k
/-- Pairs of values in chunks of 32, ascending (R39). -/
def chunksOf32 : Nat → List (FV × FV) → List (List (FV × FV))
  | 0, _ => []
  | n + 1, l => l.take 32 :: chunksOf32 n (l.drop 32)
/-- One streamed row through a block into 64 accumulators (R39, R65). -/
def mmaRow (wfmt : Nat) (block : List Byte) (row : List FV) (acc : List Word32) : List Word32 × Ev :=
  let r := (List.zipIdx acc).map (fun p =>
    reduceChunks p.1 (chunksOf32 (blockK wfmt / 32) (List.zip (blockColumn wfmt block p.2) row)))
  (r.map (·.1), Ev.sum (r.map (·.2)))

def CoreSt.wbuf (k : CoreSt) (wb : Bool) : WBuf := if wb then k.wb1 else k.wb0
def CoreSt.setWbuf (k : CoreSt) (wb : Bool) (b : WBuf) : CoreSt := if wb then { k with wb1 := b } else { k with wb0 := b }

/-- Whether a queued DMA touches a bank of the own accumulators (R69). -/
def State.dmaOnBank (s : State) (c : CoreId) (bank : Nat) : Bool :=
  let touches := fun (a n : Nat) => decide (n ≠ 0) &&
    (List.range ((a + n - 1) / 0x8000 - a / 0x8000 + 1)).any (fun i =>
      match s.place (s.owner c.region) (max a ((a / 0x8000 + i) * 0x8000)) with
      | .accum q o => q == c && o / 0x8000 == bank
      | _ => false)
  (s.core c).xq.any (fun x => !x.send &&
    ((List.range x.rows).any (fun i => touches (x.src.toNat + i * x.srcStride) x.bytes ||
      touches (x.dst.toNat + i * x.dstStride) x.bytes)))

/-- MLOAD: queues the load of a block of FMT from [AS] into WB. A reserved FMT is an illegal operand, a base that is not
32-byte aligned or a byte outside the own slice an address fault. A full queue stalls: the state does not change. -/
def execMload (c : CoreId) (w : MWord) (s : State) : Out :=
  let leg := if w.rsv = 0 && !w.rsv35 && w.bank = 0 && !w.accum && w.row0 = 0 && w.mrows = 0 then 0 else fILLOP
  .next (s.issue c (encodeM opMLOAD w) (if leg ≠ 0 then leg else if w.fmt.toNat ≤ 9 then 0 else fOPERAND) 0 w.p w.pneg
    (fun s =>
      let k := s.core c
      let f := w.fmt.toNat
      match s.ownOfs c (k.a w.as.toNat) (blockBytes f) 32 with
      | none => s.faultHere c fADDRESS 0 opMLOAD
      | some o =>
        if 4 ≤ k.mq.length then s
        else s.retire c (fun k => { (k.setWbuf w.wb { k.wbuf w.wb with issued := some f }) with
          mq := k.mq ++ [.mload w.wb f o k.pc] })))

/-- MMA: the three checks of R65, the reach of R66, then a place in the queue. It stalls while the queue is full and
while an earlier DMA on the bank is not finished (R69). -/
def execMma (c : CoreId) (w : MWord) (s : State) : Out :=
  let leg := if w.rsv = 0 && !w.rsv35 then 0 else fILLOP
  .next (s.issue c (encodeM opMMA w) (if leg ≠ 0 then leg else if w.fmt.toNat ≤ 9 then 0 else fOPERAND) 0 w.p w.pneg
    (fun s =>
      let k := s.core c
      let f := w.fmt.toNat
      let m := w.mrows.toNat + 1
      match (k.wbuf w.wb).issued with
      | none => s.faultHere c fOPERAND 0 opMMA
      | some wf =>
        if !pairOk wf f ∨ 128 < w.row0.toNat + m then s.faultHere c fOPERAND 0 opMMA
        else
          match s.ownOfs c (k.a w.as.toNat) (streamBytes (blockK wf) f m) 32 with
          | none => s.faultHere c fADDRESS 0 opMMA
          | some o =>
            if 4 ≤ k.mq.length ∨ s.dmaOnBank c w.bank.toNat then s
            else s.retire c (fun k => { k with
              mq := k.mq ++ [.mma w.wb f o w.bank.toNat w.accum w.row0.toNat m 0 k.pc] })))

/-- A read of an operand by the matrix engine, or the fault that it makes known (R86, R96, R101). -/
def State.engineRead (s : State) (c : CoreId) (o n pc op : Nat) : Option (List Byte) × State :=
  if s.sliceOk c 2 0 o n then
    let r := s.portRead c 2 o n
    if r.1.2 then (none, r.2.coreFault c fECC pc 0 op) else (some r.1.1, r.2)
  else
    (none, ((s.bump (.spd c.region) SPD_ACC_ERR).refuseRec (.matrixEngine c)
      ((s.ordinal c.region * 64 + c.pos.val) * 0x200000 + o) (some c)).coreFault c fADDRESS pc 0 op)

/-- The MLOAD that can run now: the first of the queue, or the one behind a first MMA that uses the other buffer
(R61, R67); with what precedes it and what follows. -/
def nextMload : List MOp → Option ((Bool × Nat × Nat × Nat) × List MOp)
  | .mload wb f o pc :: rest => some ((wb, f, o, pc), rest)
  | .mma wb1 f1 o1 b a r0 m nx pc1 :: .mload wb f o pc :: rest =>
    if wb1 = wb then none else some ((wb, f, o, pc), .mma wb1 f1 o1 b a r0 m nx pc1 :: rest)
  | _ => none

/-- MLOAD_COMPLETE: the block is in its buffer. -/
def execMloadComplete (c : CoreId) (s : State) : Out :=
  match nextMload (s.core c).mq with
  | none => .next s
  | some ((wb, f, o, pc), rest) =>
    let r := s.engineRead c o (blockBytes f) pc opMLOAD
    match r.1 with
    | none => .next (r.2.checkAbandon c)
    | some bs =>
      .next ((r.2.onCore c (fun k => { (k.setWbuf wb { k.wbuf wb with fmt := f, block := bs }) with mq := rest })).settle
        [c])

/-- The MMA that can stream now: the first of the queue, or the one behind a first MLOAD into the other buffer. -/
def nextMma : List MOp → Option ((Bool × Nat × Nat × Nat × Bool × Nat × Nat × Nat × Nat) × (Option MOp → List MOp))
  | .mma wb f o b a r0 m nx pc :: rest => some ((wb, f, o, b, a, r0, m, nx, pc), fun x => x.toList ++ rest)
  | .mload wb1 f1 o1 pc1 :: .mma wb f o b a r0 m nx pc :: rest =>
    if wb1 = wb then none
    else some ((wb, f, o, b, a, r0, m, nx, pc), fun x => .mload wb1 f1 o1 pc1 :: (x.toList ++ rest))
  | _ => none

/-- MMA_ROW_WRITTEN: the next row of the MMA that streams is computed and written into the bank. -/
def execMmaRowWritten (c : CoreId) (s : State) : Out :=
  match nextMma (s.core c).mq with
  | none => .next s
  | some ((wb, f, o, bank, accum, row0, m, nx, pc), put) =>
    let b := (s.core c).wbuf wb
    let k := blockK b.fmt
    let r := s.engineRead c (o + nx * recStride k f) (recBytes k f) pc opMMA
    match r.1 with
    | none => .next (r.2.checkAbandon c)
    | some codes =>
      let t := if fmtMx f then r.2.engineRead c (o + m * recStride k f + nx * (k / 32)) (k / 32) pc opMMA
        else (some [], r.2)
      match t.1 with
      | none => .next (t.2.checkAbandon c)
      | some scales =>
        let acc := if accum then lanes (t.2.accRow c bank (row0 + nx)) else List.replicate 64 0
        let v := mmaRow b.fmt b.block (operandVals f codes scales k) acc
        let left := if nx + 1 < m then some (MOp.mma wb f o bank accum row0 m (nx + 1) pc) else none
        .next (((t.2.setAccRow c bank (row0 + nx) (ofLanes v.1)).onCore c
          (fun k => { (k.addEv v.2) with mq := put left })).settle [c])

end Sys2Proof.Machine
end

