-- ==== Sys2Proof/Machine/Courier.lean ====
section
/-! DEFINITION. The Couriers (R164 to R181): ROUTE descriptors and route records, selection, the three rounds of
DISPATCH, the combine, stops, errors and the clear. -/

namespace Sys2Proof.Machine

def couReset (_ : Nat) : CouSt := {}
def State.cou (s : State) (r : RegionNo) : CouSt := tabGet couReset s.cous r.val
def State.setCou (s : State) (r : RegionNo) (c : CouSt) : State := { s with cous := tabSet couReset s.cous r.val c }

/-! ### States and phases (Tables 7-9 and 7-10) -/

def cIDLE : Nat := 0
def cSELECT : Nat := 1
def cCOUNT : Nat := 2
def cGRANT : Nat := 3
def cDATA : Nat := 4
def cWAIT : Nat := 5
def cRETURN : Nat := 6
def cCOMBINE : Nat := 7
def cHELD : Nat := 8
def cSTOPPED : Nat := 9
def State.couState (s : State) (r : RegionNo) : Nat := s.fld (.cou r) COU_STATUS 0 4
def State.setCouState (s : State) (r : RegionNo) (v : Nat) : State := s.setFld (.cou r) COU_STATUS 0 4 v
def State.couPhase (s : State) (r : RegionNo) : Nat := s.fld (.cou r) COU_PHASE 0 3
def State.couGen (s : State) (r : RegionNo) : Nat := s.fld (.cou r) COU_GEN 0 8
def State.couClearing (s : State) (r : RegionNo) : Bool := s.bit (.cou r) COU_STATUS 10
/-- Whether the Courier works at all: its region Active, not STOPPED, not HELD, no clear. -/
def State.couRuns (s : State) (r : RegionNo) : Bool :=
  s.rgnActive r && s.couState r != cSTOPPED && s.couState r != cHELD && !s.couClearing r
/-- Only the region controller writes the window; during a clear a write does nothing (R180, R181). -/
def State.couCtrl (s : State) (m : Master) (r : RegionNo) (f : State → State) : State :=
  if m ≠ .regionController r then s.permissionError
  else if s.couClearing r then s.answer []
  else (f s).answer []

/-! ### The ROUTE descriptor (Table 7-2) and the route record (Tables 7-3 and 7-4) -/

structure RouteD where
  nTok : Nat
  layer : Nat
  g : Nat
  x : Nat
  sh : Nat
  out : Nat
  record : Nat
  res : Nat
  sel : Nat
  deriving DecidableEq, Repr, Inhabited
def routeOf (d : Word512) : RouteD :=
  { nTok := bitsOf d 4 11, layer := bitsOf d 16 16, g := bitsOf d 64 48, x := bitsOf d 112 48, sh := bitsOf d 160 48,
    out := bitsOf d 208 48, record := bitsOf d 256 48, res := bitsOf d 304 48, sel := bitsOf d 352 48 }
def routeBad (d : Word512) : Bool :=
  bitsOf d 0 4 != 1 || bitOf d 15 || bitsOf d 32 32 != 0 || bitsOf d 400 112 != 0
/-- The header and entries as the bytes at ROUTE_ADDR spell them. -/
def expertOf (b : Word32) (x : Nat) : ExpertEntry :=
  { pkgOrd := x % 64, rgnOrd := x / 2 ^ 6 % 16, valid := x / 2 ^ 15 % 2 == 1, cap := x / 2 ^ 16 % 2 ^ 16,
    inAddr := BitVec.ofNat 48 (x / 2 ^ 32), outAddr := BitVec.ofNat 48 (x / 2 ^ 80),
    stream := BitVec.ofNat 16 (x / 2 ^ 128), bias := b }
def recordHead (h : Nat) : RouteRecord :=
  { magic := BitVec.ofNat 16 h, version := BitVec.ofNat 8 (h / 2 ^ 16), k := h / 2 ^ 33 % 16 + 1,
    scoreFn := BitVec.ofNat 2 (h / 2 ^ 37), norm := h / 2 ^ 39 % 2 == 1, shared := h / 2 ^ 40 % 2 == 1,
    layer := BitVec.ofNat 16 (h / 2 ^ 48), gateScale := BitVec.ofNat 32 (h / 2 ^ 64), dispUnits := h / 2 ^ 96 % 2 ^ 16,
    -- A width of 512 blocks does not fit the 9 bits; a field of 0 spells it (DESIGN CHOICE, log entry 132).
    hBlk := if h / 2 ^ 112 % 2 ^ 9 = 0 then 512 else h / 2 ^ 112 % 2 ^ 9, combFmt := h / 2 ^ 121 % 2 == 1, nsrc := h / 2 ^ 128 % 2 ^ 11, experts := [] }
def headExperts (h : Nat) : Nat := h / 2 ^ 24 % 2 ^ 9 + 1
/-- The bytes of the biases, padded to 64. -/
def biasBytes (e : Nat) : Nat := (4 * e + 63) / 64 * 64
def dispOf (x : RouteRecord) : Nat := x.dispUnits * 32
def hiddenOf (x : RouteRecord) : Nat := x.hBlk * 32
def combOf (x : RouteRecord) : Nat := if x.combFmt then 4 * hiddenOf x else 2 * hiddenOf x
def pad256 (n : Nat) : Nat := (n + 255) / 256 * 256
/-- The record read from tier 1 by the Courier: an error code (0 for none) and the record. -/
def State.readRecord (s : State) (r : RegionNo) (a : Nat) : (Nat × RouteRecord) × State :=
  let m := Master.courier r
  let h := s.read m a 64
  let n := leNat h.1.data
  let e := headExperts n
  let b := h.2.read m (a + 64) (4 * e)
  let x := b.2.read m (a + 64 + biasBytes e) (32 * e)
  let bs := bytesF32 b.1.data e
  let rec' := { recordHead n with experts := (List.range e).map (fun i =>
    expertOf (bs.getD i 0) (leNat ((x.1.data.drop (32 * i)).take 32))) }
  let code := if h.1.refused || b.1.refused || x.1.refused then 0x03
    else if h.1.poison || b.1.poison || x.1.poison then 0x04 else 0
  ((code, rec'), x.2)
/-- Every address of a descriptor is a 32-byte-aligned tier-0 address of this package, ROUTE_ADDR in tier 1, SH_ADDR 0
where it is not used (R166). -/
def State.routeAddrs (s : State) (r : RegionNo) (x : RouteD) : Bool :=
  let d := s.owner r
  let t0 := fun (a : Nat) => a % 32 == 0 && s.tier0 d a 1
  let t1 := fun (a : Nat) => a % 32 == 0 && (match s.place d a with | .hbm _ => true | _ => false)
  t0 x.g && t0 x.x && (x.sh == 0 || t0 x.sh) && t0 x.out && t1 x.record && t0 x.res && t0 x.sel

/-! ### Errors (R178) -/

/-- A descriptor fails: COU_ERR_LAST, COU_ERR_COUNT, ERR, a Ledger record under the dye, and a report to the Innkeeper, for which a
Courier fault fails every item of the step (R178, R224). -/
def State.couError (s : State) (r : RegionNo) (code layer : Nat) : State :=
  let s1 := s.wr (.cou r) COU_ERR_LAST (BitVec.ofNat 32 (code + 2 ^ 15 + layer * 2 ^ 16))
  (((s1.bump (.cou r) COU_ERR_COUNT).setBit (.cou r) COU_STATUS 9 true).ledger
    { type := 1, detector := 0, dye := s.owner r, severity := 3, region := r, detail := [code, layer] }).reportFail r none
      (if code = 6 then 5 else 1)
def State.couLayer (s : State) (r : RegionNo) : Nat := (((s.cou r).cur.map routeOf).map (·.layer)).getD 0
/-- The descriptor in service fails; it counts once. -/
def State.couFail (s : State) (r : RegionNo) (code : Nat) : State :=
  if (s.cou r).erred then s
  else
    let s1 := s.couError r code (s.couLayer r)
    s1.setCou r { (s1.cou r) with erred := true }
/-- A descriptor is in service. -/
def CouSt.active (c : CouSt) : Bool := c.cur.isSome && !c.done
/-- The descriptor in service is over, nothing of it kept. -/
def CouSt.over (c : CouSt) : CouSt := { queue := c.queue, lastLayer := c.lastLayer, counts := c.counts }
/-- The Couriers of an exchange on this package: the regions of the dye in the lane (R165). -/
def State.couLane (s : State) (d : Dye) (prefill : Bool) : List RegionNo :=
  (s.regionsOf d).filter (fun q => tabGet (fun _ => false) s.prefillLane q.val == prefill)
/-- An exchange ends for the Couriers of this package. -/
def State.exchangeEnds (s : State) (d : Dye) (prefill : Bool) (code : Nat) : State :=
  (s.couLane d prefill).foldl (fun t q =>
    if (t.cou q).active then
      let u := t.couFail q code
      let v := u.setCou q { (u.cou q).over with counts := [] }
      if v.couState q = cSTOPPED then v else v.setCouState q cIDLE
    else t) s
/-- A failure of the exchange itself fails it for every Courier (R178): here at once, elsewhere by a message. -/
def State.exchangeFail (s : State) (r : RegionNo) (code : Nat) : State :=
  let d := s.owner r
  let lane := tabGet (fun _ => false) s.prefillLane r.val
  let s1 := s.exchangeEnds d lane code
  { s1 with linkTx := s1.linkTx ++ (((s.pkgTable d).map (·.slot)).filter (· ≠ s.slot)).map (fun x =>
      LinkOut.control x (.exchangeFailed d lane (BitVec.ofNat 8 code))) }

/-! ### Selection (R168 to R171) -/

/-- log2(e) as FP32. -/
def log2e32 : Word32 := 0x3FB8AA3B
/-- A sum in chunks of 64 in ascending index, each by the R40 tree, the chunk results added in ascending order. -/
def chunkSums (l : List Word32) : Word32 :=
  let n := (l.length + 63) / 64
  let cs := (List.range n).map (fun i => (vsum (takePad 0 64 ((l.drop (64 * i)).take 64))).1)
  match cs with
  | [] => 0
  | c :: t => t.foldl (fun a b => (fadd a b).1) c
/-- The scores of the experts, and whether S is NaN. An expert that is not VALID takes no part. -/
def scoresOf (x : RouteRecord) (z : List Word32) : List Word32 × Bool :=
  let valid := x.experts.map (·.valid)
  if x.scoreFn = 0 then
    let y := z.map (fun v => (fmul v log2e32).1)
    let live := (List.zip valid y).filterMap (fun p => if p.1 then some p.2 else none)
    let m := match live with | [] => 0 | a :: t => t.foldl fmax a
    let ex := List.zipWith (fun v b => if v then (vfun fnExp2 (fsub b m).1).1 else 0) valid y
    let t := chunkSums ex
    let q := (vfun fnRecip t).1
    (ex.map (fun a => (fmul a q).1), isNan32 t)
  else if x.scoreFn = 1 then
    (z.map (fun v => (vfun fnRecip (fadd 0x3F800000 (vfun fnExp2 (fmul (fneg v) log2e32).1).1).1).1), false)
  else (z, false)
/-- A larger key, or an equal one of a lower index, goes first. -/
def keyBefore (a b : Nat × Word32) : Bool :=
  fgt a.2 b.2 || (!fgt b.2 a.2 && decide (a.1 < b.1))
/-- The k experts with the largest keys, in ascending index; none for a NaN-routed token (R169). -/
def selectExperts (x : RouteRecord) (z : List Word32) : Option (List (Nat × Word32)) :=
  let sc := scoresOf x z
  let ents := (List.zip x.experts sc.1).zipIdx.filterMap (fun p =>
    if p.1.1.valid then some (p.2, p.1.2, (fadd p.1.2 p.1.1.bias).1) else none)
  if sc.2 || ents.any (fun e => isNan32 e.2.1 || isNan32 e.2.2) then none
  else
    let best := ((ents.map (fun e => (e.1, e.2.2))).mergeSort keyBefore).take x.k
    let idx := (best.map (·.1)).mergeSort
    some (idx.map (fun i => (i, sc.1.getD i 0)))
/-- The gates (R170). -/
def gatesOf (x : RouteRecord) (l : List (Nat × Word32)) : List SelEnt :=
  let t := match l with | [] => 0 | a :: r => r.foldl (fun u v => (fadd u v.2).1) a.2
  let inv := (vfun fnRecip t).1
  l.map (fun p =>
    let w := if x.norm then (fmul p.2 inv).1 else p.2
    { expert := p.1, gate := (fmul w x.gateScale).1 })
/-- A token's selection record: 16 entries of 8 bytes (R171). -/
def selBytes (l : List SelEnt) : List Byte :=
  (List.range 16).flatMap (fun j => match l[j]? with
    | some e => leBytes (e.expert + b2n e.dropped * 2 ^ 16 + e.gate.toNat * 2 ^ 32) 8
    | none => leBytes 0 8)
/-- Token t and those after it: logits read, experts selected, records written. -/
def State.selectTokens (s : State) (r : RegionNo) (x : RouteD) (rr : RouteRecord) :
    Nat → (Nat × List (List SelEnt) × List Nat) × State
  | 0 => ((0, [], []), s)
  | t + 1 =>
    let p := s.selectTokens r x rr t
    if p.1.1 ≠ 0 then p
    else
      let e := rr.experts.length
      let z := p.2.read (.courier r) (x.g + t * pad256 (4 * e)) (4 * e)
      if z.1.refused then ((0x03, p.1.2), z.2)
      else if z.1.poison then ((0x04, p.1.2), z.2)
      else
        let sel := selectExperts rr (bytesF32 z.1.data e)
        let ents := (sel.map (gatesOf rr)).getD []
        let w := z.2.write (.courier r) (x.sel + t * 128) (selBytes ents)
        let nan := if sel.isNone then p.1.2.2 ++ [t] else p.1.2.2
        ((if w.1 = .ok then 0 else if w.1 = .ue then 0x04 else 0x03, p.1.2.1 ++ [ents], nan), w.2)

/-! ### Messages of the exchange (R172) -/

/-- What the messages of the exchange in service carry: COU_GEN, the layer, and the start value of the step that runs in the lane. -/
def State.couTag (s : State) (r : RegionNo) : ExTag :=
  { gen := BitVec.ofNat 8 (s.couGen r), layer := s.couLayer r,
    start := ((s.plans.find? (fun q => q.running && q.plan.dye == s.owner r &&
      q.plan.lane == tabGet (fun _ => false) s.prefillLane r.val)).map (fun q => q.plan.start.toNat)).getD 0 }
/-- A message to a region of the partition, named by package and region ordinal: kind 0 count, 1 grant, 2 row, 3
return row. It leaves with its destination in front of its data. -/
def State.couTell (s : State) (r : RegionNo) (pkg rgn kind : Nat) (data : List Nat) : State :=
  match s.slotOf (s.owner r) pkg with
  | none => s
  | some sl =>
    let s1 := s.overLink sl (s.owner r) (if kind < 2 then 4 * data.length else data.length)
    { s1 with linkTx := s1.linkTx ++ [LinkOut.exchange sl r.val kind (s.couTag r) (rgn :: data)] }
/-- This region by package and region ordinal. -/
def State.homeName (s : State) (r : RegionNo) : Nat × Nat := (s.pkgOrd (s.owner r), s.ordinal r)
/-- The home regions of a record, and the experts that a home hosts (VALID entries), ascending. -/
def homesOf (x : RouteRecord) : List (Nat × Nat) :=
  ((x.experts.filter (·.valid)).map (fun e => (e.pkgOrd, e.rgnOrd))).dedup
def hostedBy (x : RouteRecord) (h : Nat × Nat) : List (Nat × ExpertEntry) :=
  x.experts.zipIdx.filterMap (fun p => if p.1.valid ∧ (p.1.pkgOrd, p.1.rgnOrd) = h then some (p.2, p.1) else none)
/-- The tokens of this source that selected an expert, with their rank, in ascending t. -/
def CouSt.tokensFor (c : CouSt) (e : Nat) : List (Nat × Nat) :=
  c.sels.zipIdx.filterMap (fun p => (p.1.findIdx? (fun x => x.expert == e)).map (fun j => (p.2, j)))
/-- The counts for a home's experts. -/
def CouSt.countsFor (c : CouSt) (x : RouteRecord) (h : Nat × Nat) : List (Nat × Nat) :=
  (hostedBy x h).map (fun p => (p.1, if c.failed then 0 else (c.tokensFor p.1).length))
/-- Round 1: a count message to each home. -/
def State.sendCounts (s : State) (r : RegionNo) : State :=
  match (s.cou r).route with
  | none => s
  | some x =>
    (homesOf x).foldl (fun t h =>
      t.couTell r h.1 h.2 0 ([(s.homeName r).1, (s.homeName r).2] ++
        ((s.cou r).countsFor x h).flatMap (fun p => [p.1, p.2]))) s

/-- Arrivals of one expert in ascending gid: sources in order of (package, region), each with its count. -/
def sortedCounts (l : List CountMsg) : List (Nat × Nat × List (Nat × Nat)) :=
  (l.map (fun m => (m.pkg, m.rgn, m.counts))).mergeSort (fun a b => decide (a.1 * 16 + a.2.1 ≤ b.1 * 16 + b.2.1))
def countOf (l : List (Nat × Nat)) (e : Nat) : Nat := ((l.find? (fun p => p.1 == e)).map (·.2)).getD 0
/-- What a source gets for one expert (R172, round 2). -/
structure SrcGrant where
  expert : Nat
  pkg : Nat
  rgn : Nat
  g : Grant
  deriving DecidableEq, Repr, Inhabited
structure Placement where
  placed : List Placed := []
  grants : List SrcGrant := []
  poolUsed : Nat := 0
  drops : Nat := 0
  deriving DecidableEq, Repr, Inhabited
/-- One expert placed (R173): what each source gets, with running totals of list rows and pool rows. -/
def placeExpert (e cap poolRows : Nat) : List (Nat × Nat × Nat) → Nat → Nat → List SrcGrant × Nat × Nat
  | [], b, p => ([], b, p)
  | (pk, rg, n) :: t, b, p =>
    let nb := min n (cap - b)
    let np := min (n - nb) (poolRows - p)
    let rest := placeExpert e cap poolRows t (b + nb) (p + np)
    ({ expert := e, pkg := pk, rgn := rg, g := Grant.mk e b nb p np (n - nb - np) } :: rest.1, rest.2)
/-- The hosted experts placed one at a time, in ascending index. -/
def placeAll (poolRows : Nat) (srcs : List (Nat × Nat × List (Nat × Nat))) :
    List (Nat × ExpertEntry) → Nat → Placement
  | [], p => { poolUsed := p }
  | (e, x) :: t, p =>
    let r := placeExpert e x.cap poolRows (srcs.map (fun q => (q.1, q.2.1, countOf q.2.2 e))) 0 p
    let rest := placeAll poolRows srcs t r.2.2
    { placed := { expert := e, nBuf := r.2.1, nPool := r.2.2 - p, poolFirst := p } :: rest.placed,
      grants := r.1 ++ rest.grants,
      poolUsed := rest.poolUsed,
      drops := (r.1.map (fun g => g.g.dropped)).sum + rest.drops }
/-- A list header (Table 7-5). -/
def headerBytes (p : Placed) (gen : Nat) : List Byte :=
  leBytes (p.nBuf + p.nPool * 2 ^ 32 + p.poolFirst * 2 ^ 64 + b2n (p.nBuf + p.nPool == 0) * 2 ^ 96 + gen * 2 ^ 104) 64
/-- Headers of the experts whose last granted row has come; DISPATCH_DONE once every hosted expert has one (R175). A header that the slice
refuses fails the descriptor, and DISPATCH_DONE stays 0. -/
def State.writeHeaders (s : State) (r : RegionNo) : State :=
  let c := s.cou r
  match c.route, c.placed with
  | some x, some ps =>
    let due := ps.filter (fun p => !c.headers.contains p.expert &&
      decide (p.nBuf + p.nPool ≤ (c.tags.filter (fun t => t.expert == p.expert)).length))
    let s1 := due.foldl (fun (t : State) p =>
      let a := ((x.experts[p.expert]?).map (fun e => e.inAddr.toNat)).getD 0
      let w := t.write (.courier r) a (headerBytes p (s.couGen r))
      if w.1 = .ok then w.2
      else
        let u := w.2.couFail r (if w.1 = .ue then 0x04 else 0x03)
        u.setCou r { (u.cou r) with hdrBad := true }) s
    let c1 := { (s1.cou r) with headers := c.headers ++ due.map (·.expert) }
    let s2 := s1.setCou r c1
    if ps.all (fun p => c1.headers.contains p.expert) && !c1.hdrBad then s2.setBit (.cou r) COU_STATUS 7 true else s2
  | _, _ => s
/-- Round 2, once counts from all NSRC sources are present: rows placed, grants sent, empty experts counted and their
streams cancelled (R172 to R175). -/
def State.grantRound (s : State) (r : RegionNo) : State :=
  let c := s.cou r
  match c.route with
  | none => s
  | some x =>
    let mine := hostedBy x (s.homeName r)
    let tag := s.couTag r
    let here := c.counts.filter (fun m => m.layer == tag.layer && m.start == tag.start)
    let later := c.counts.filter (fun m => !(m.layer == tag.layer && m.start == tag.start))
    if c.placed.isSome then s
    else if mine = [] then (s.setCou r { c with placed := some [], counts := later }).writeHeaders r
    else if here.length < x.nsrc then s
    else
      let srcs := sortedCounts here
      let p := placeAll (s.fld (.cou r) COU_OVF_ROWS 0 24) srcs mine 0
      if p.drops ≠ 0 ∧ !s.bit (.cou r) COU_CFG 0 then s.exchangeFail r 0x07
      else
        let empty := p.placed.filter (fun q => q.nBuf + q.nPool == 0)
        let s1 := s.setCou r { c with placed := some p.placed, counts := later }
        let s2 := ((s1.bump (.cou r) COU_EVT_DROPS p.drops).bump (.cou r) COU_EVT_POOL p.poolUsed).bump (.cou r)
          COU_EVT_EMPTY empty.length
        let s3 := srcs.foldl (fun t q =>
          t.couTell r q.1 q.2.1 1 ([(s.homeName r).1, (s.homeName r).2] ++
            (p.grants.filter (fun x => x.pkg == q.1 && x.rgn == q.2.1)).flatMap (fun x =>
              [x.expert, x.g.bufFirst, x.g.nBuf, x.g.poolFirst, x.g.nPool, x.g.dropped]))) s2
        let cut := empty.filterMap (fun q => (mine.find? (fun e => e.1 == q.expert)).bind (fun e =>
          if e.2.stream = 0xFFFF then none else some (r, e.2.stream.toNat)))
        ({ s3 with cancels := s3.cancels ++ cut } : State).writeHeaders r

/-- What the Courier shows in DISPATCH (Table 7-10): COUNT until its own grants are out, GRANT until every home has
granted, DATA until its hosted lists are complete. -/
def State.dispatchState (s : State) (r : RegionNo) : Nat :=
  let c := s.cou r
  match c.route with
  | none => cIDLE
  | some x =>
    if c.placed.isNone then cCOUNT
    else if c.grants.length < (homesOf x).length then cGRANT
    else if (c.placed.getD []).all (fun p => c.headers.contains p.expert) && !c.hdrBad then cWAIT
    else cDATA

/-! #### Round 3: the rows of a grant -/

def gidOf (pkg rgn t : Nat) : Nat := pkg * 16384 + rgn * 1024 + t
/-- The rows of one grant sent: the first N_BUF tokens to the list, the next N_POOL to the pool, the rest DROPPED (R172). A row whose
read is refused or poisoned leaves as poison; a refusal fails the descriptor. -/
def State.sendRows (s : State) (r : RegionNo) (x : RouteD) (rr : RouteRecord) (h : Nat × Nat) (g : Grant) : State :=
  let toks := (s.cou r).tokensFor g.expert
  let rows := (toks.take (g.nBuf + g.nPool)).zipIdx
  let name := s.homeName r
  let s1 := rows.foldl (fun (t : State) p =>
    let v := t.read (.courier r) (x.x + p.1.1 * (dispOf rr)) (dispOf rr)
    let pool := decide (g.nBuf ≤ p.2)
    let row := if pool then g.poolFirst + (p.2 - g.nBuf) else g.bufFirst + p.2
    let u := if v.1.refused then v.2.couFail r 0x03 else v.2
    u.couTell r h.1 h.2 2 ([g.expert, row, b2n pool, gidOf name.1 name.2 p.1.1, p.1.2,
      b2n (!(v.1.poison || v.1.refused))] ++ v.1.data.map BitVec.toNat)) s
  let late := toks.drop (g.nBuf + g.nPool)
  let c := s1.cou r
  let sels := c.sels.zipIdx.map (fun p => if late.any (fun q => q.1 == p.2) then
    p.1.map (fun e => if e.expert = g.expert then { e with dropped := true } else e) else p.1)
  let s2 := (s1.setCou r { c with sels := sels, dropped := c.dropped + late.length }).bump (.cou r) COU_STEP_DROPS
    late.length
  let s3 := late.foldl (fun (t : State) q =>
    let w := t.write (.courier r) (x.sel + q.1 * 128) (selBytes (sels.getD q.1 []))
    if w.1 = .ok then w.2 else w.2.couFail r (if w.1 = .ue then 0x04 else 0x03)) s2
  s3.bump (.cou r) COU_EVT_ROWS rows.length
/-- The grants that have come are served. -/
def State.takeGrants (s : State) (r : RegionNo) : State :=
  let c := s.cou r
  match c.cur.map routeOf, c.route with
  | some x, some rr =>
    let s1 := s.setCou r { c with grantQ := [], grants := c.grants ++ c.grantQ.map (fun q => (q.1, q.2.1)) }
    c.grantQ.foldl (fun t q => q.2.2.foldl (fun u g => u.sendRows r x rr (q.1, q.2.1) g) t) s1
  | _, _ => s
/-- Progress in DISPATCH after a message, unless the Courier is held, stopped or in another phase. -/
def State.couProgress (s : State) (r : RegionNo) : State :=
  if !s.couRuns r || s.couPhase r != 2 || !(s.cou r).selDone || !(s.cou r).active then s
  else
    let s1 := (s.grantRound r).takeGrants r
    if (s1.cou r).active then s1.setCouState r (s1.dispatchState r) else s1

/-! ### The combine (R176) -/

/-- The output of a granted row, read at the home. -/
def State.outputRow (s : State) (r : RegionNo) (x : RouteRecord) (g : CouTag) : RdRes × State :=
  let base := if g.pool then (s.rd64 (.cou r) COU_OVF_OUT_L).toNat % 2 ^ 48
    else ((x.experts[g.expert]?).map (fun e => e.outAddr.toNat)).getD 0
  s.read (.courier r) (base + g.row * (combOf x)) (combOf x)
/-- Return rows sent to their sources: tag, poison flag, bytes. -/
def State.sendReturns (s : State) (r : RegionNo) : State :=
  let c := s.cou r
  match c.route with
  | none => s
  | some x =>
    c.tags.foldl (fun t g =>
      let o := t.outputRow r x g
      (if o.1.refused then o.2.couFail r 0x03 else o.2).couTell r (g.gid / 16384) (g.gid / 1024 % 16) 3
        ([g.gid % 1024, g.rank, b2n (!(o.1.poison || o.1.refused))] ++ o.1.data.map BitVec.toNat)) s
/-- The output of a token (R176): from the shared output or +0, one fma for each selection in ascending rank. -/
def combineRow (h : Nat) (init : List Word32) (parts : List (Word32 × List Word32)) : List Word32 :=
  (List.range h).map (fun c => parts.foldl (fun a p => (ffma p.1 (p.2.getD c 0) a).1) (init.getD c 0))
/-- A row of expert outputs as FP32. -/
def rowValues (x : RouteRecord) (bs : List Byte) : List Word32 :=
  if x.combFmt then bytesF32 bs (hiddenOf x)
  else
    let n := leNat bs
    (List.range (hiddenOf x)).map (fun i => BitVec.ofNat 32 (codeAt 16 n i * 65536))
/-- Whether every selection of a token that was not dropped has returned. -/
def CouSt.ready (c : CouSt) (t : Nat) : Bool :=
  (c.sels.getD t []).zipIdx.all (fun p => p.1.dropped || c.returned.contains (t, p.2))
/-- One token combined. -/
def State.combineToken (s : State) (r : RegionNo) (x : RouteD) (rr : RouteRecord) (t : Nat) : State :=
  let c := s.cou r
  let m := Master.courier r
  let sels := c.sels.getD t []
  let stride := pad256 (4 * (hiddenOf rr))
  let sh := if rr.shared then s.read m (x.sh + t * stride) (4 * (hiddenOf rr)) else (({} : RdRes), s)
  let init := if rr.shared then bytesF32 sh.1.data (hiddenOf rr) else List.replicate (hiddenOf rr) 0
  let rows := (sels.zipIdx.filter (fun p => !p.1.dropped)).foldl (fun (u : List (Word32 × List Word32) × Bool × State) p =>
    let v := u.2.2.read m (x.res + (t * rr.k + p.2) * (combOf rr)) (combOf rr)
    (u.1 ++ [(p.1.gate, rowValues rr v.1.data)], u.2.1 || v.1.poison || v.1.refused,
      if v.1.refused then v.2.couFail r 0x03 else v.2)) ([], sh.1.poison || sh.1.refused, if sh.1.refused then sh.2.couFail r 0x03 else sh.2)
  let poison := c.poisoned.contains t || rows.2.1
  let out := if poison || c.nans.contains t then List.replicate (hiddenOf rr) nan32 else combineRow (hiddenOf rr) init rows.1
  let w := rows.2.2.write m (x.out + t * stride) (f32Bytes out)
  let s1 := w.2.setCou r { (w.2.cou r) with combined := c.combined ++ [t] }
  let s2 := if poison then s1.couFail r 0x04 else s1
  if w.1 = .ok then s2 else s2.couFail r (if w.1 = .ue then 0x04 else 0x03)
/-- Every ready token combined; once all are, the descriptor is done. -/
def State.combineReady (s : State) (r : RegionNo) : State :=
  let c := s.cou r
  match c.cur.map routeOf, c.route with
  | some x, some rr =>
    if !s.couRuns r || s.couPhase r != 4 || c.done then s
    else
      let n := if c.failed then 0 else x.nTok
      let todo := (List.range n).filter (fun t => !c.combined.contains t && c.ready t)
      let s1 := todo.foldl (fun u t => u.combineToken r x rr t) s
      if (List.range n).all (fun t => (s1.cou r).combined.contains t) then
        ((s1.setCou r { (s1.cou r) with done := true }).setCouState r cIDLE).setBit (.cou r) COU_STATUS 8 true
      else s1.setCouState r (if (s1.cou r).returned = [] then cRETURN else cCOMBINE)
  | _, _ => s

/-! ### Phases (R165) -/

/-- Work of phase p that is not finished. -/
def State.couUnfinished (s : State) (r : RegionNo) (p : Nat) : Bool :=
  let c := s.cou r
  if p = 1 then (!c.active && c.queue != []) || (c.active && !c.selDone)
  else if p = 2 then c.active && c.selDone && s.dispatchState r != cWAIT
  else if p = 4 then c.active
  else false
/-- A phase opens, or opens again at its first sub-step. -/
def State.couEnter (s : State) (r : RegionNo) (p : Nat) : State :=
  let c := s.cou r
  if p = 1 then
    let next := c.queue.head?.map (fun d => (routeOf d).layer)
    let first := match c.lastLayer, next with | some a, some b => decide (b ≤ a) | _, _ => true
    let s1 := (s.setBit (.cou r) COU_STATUS 7 false).setBit (.cou r) COU_STATUS 8 false
    let s2 := if !c.active && c.queue != [] && first && !s.bit (.cou r) COU_CFG 1 then s1.wr (.cou r) COU_STEP_DROPS 0 else s1
    s2.setCouState r (if s.couUnfinished r 1 then cSELECT else cIDLE)
  else if p = 2 then
    if c.active && c.selDone then ((s.setCouState r cCOUNT).sendCounts r).couProgress r else s
  else if p = 3 then
    if c.active then s.setCouState r cWAIT else s.setCouState r cIDLE
  else if p = 4 then
    if c.active then ((s.setCouState r cRETURN).sendReturns r).combineReady r else s
  else if c.active then s else s.setCouState r cIDLE
/-- The phase whose work a HELD Courier keeps returns, and its work goes on (R165). -/
def State.couResume (s : State) (r : RegionNo) (p : Nat) : State :=
  let s1 := s.setCou r { (s.cou r) with heldIn := 0 }
  if p = 1 then s1.setCouState r (if s1.couUnfinished r 1 then cSELECT else cIDLE)
  else if p = 2 then (s1.setCouState r (s1.dispatchState r)).couProgress r
  else (s1.setCouState r cCOMBINE).combineReady r
/-- COU_PHASE written: work that is left makes the Courier HELD, with a Ledger record of a mispriced phase. A HELD Courier goes on when
the phase of that work returns. -/
def State.couPhaseWrite (s : State) (r : RegionNo) (v : Word32) : State :=
  let old := s.couPhase r
  let new := bitsOf v 0 3
  if 5 ≤ new then s
  else
    let s1 := (s.wr (.cou r) COU_PHASE (BitVec.ofNat 32 new)).setFld (.cou r) COU_STATUS 4 3 new
    let st := s.couState r
    if st = cSTOPPED then s1
    else if st = cHELD then (if new = (s.cou r).heldIn then s1.couResume r new else s1)
    else if old ≠ new ∧ s.couUnfinished r old then
      ((s1.setCou r { (s1.cou r) with heldIn := old }).setCouState r cHELD).detectRgn 0x2A r [3, old]
    else if old = new then s1
    else s1.couEnter r new

/-- ROUTE_PUSH (R166): a full queue loses the descriptor. -/
def execRoutePush (m : Master) (r : RegionNo) (v : Word32) (s : State) : Out :=
  .next (s.couCtrl m r (fun s =>
    if !bitOf v 0 then s
    else
      let d : Word512 := BitVec.ofNat 512 (packCodes 32 ((s.rdList (.cou r) COU_DW 16).map BitVec.toNat))
      let c := s.cou r
      if 32 ≤ c.queue.length then (s.setW1c (.cou r) COU_Q_STATUS 13).couError r 0x05 (routeOf d).layer
      else
        let s1 := (s.setCou r { c with queue := c.queue ++ [d] }).setFld (.cou r) COU_Q_STATUS 0 6 (31 - c.queue.length)
        if s1.couPhase r = 1 ∧ s1.couState r = cIDLE then s1.couEnter r 1 else s1))
/-- COU_PHASE_WRITE. -/
def execCouPhaseWrite (m : Master) (r : RegionNo) (v : Word32) (s : State) : Out :=
  .next (s.couCtrl m r (fun s => s.couPhaseWrite r v))

/-- SELECT: the descriptor at the head of the queue is served. One that fails here takes part in the count round with
zero counts (R178). -/
def execSelect (r : RegionNo) (s : State) : Out :=
  let c := s.cou r
  if !s.couRuns r || s.couPhase r != 1 || c.active then .next s
  else
    match c.queue with
    | [] => .next s
    | d :: q =>
      let x := routeOf d
      let rd := s.readRecord r x.record
      let rr := rd.1.2
      let code := if routeBad d then 0x01
        else if !s.routeAddrs r x then 0x03
        else if rd.1.1 ≠ 0 then rd.1.1
        else if rr.magic ≠ 0x4F43 ∨ rr.version ≠ 1 ∨ rr.layer.toNat ≠ x.layer then 0x02
        else 0
      let t := if code = 0 then rd.2.selectTokens r x rr x.nTok else ((code, [], []), rd.2)
      let bad := t.1.1 ≠ 0
      let c1 : CouSt := { queue := q, cur := some d, route := some rr, failed := bad, selDone := true,
                          sels := if bad then [] else t.1.2.1, nans := if bad then [] else t.1.2.2, counts := c.counts,
                          lastLayer := some x.layer, erred := bad }
      let s1 := (t.2.setCou r c1).setFld (.cou r) COU_Q_STATUS 0 6 (32 - q.length)
      let s2 := if bad then s1.couError r t.1.1 x.layer
        else (s1.bump (.cou r) COU_EVT_TOKENS x.nTok).bump (.cou r) COU_EVT_NANTOKEN t.1.2.2.length
      .next (s2.setCouState r cSELECT).settleAll

/-- A message of another generation is discarded (R172); so is everything while a clear runs. -/
def State.couTakes (s : State) (r : RegionNo) (x : ExTag) : Bool :=
  decide (x.gen.toNat = s.couGen r) && !s.couClearing r && s.rgnActive r && s.couState r != cSTOPPED
/-- A message of the exchange in service: its layer and its step. -/
def State.couOurs (s : State) (r : RegionNo) (x : ExTag) : Bool := s.couTakes r x && x == s.couTag r && (s.cou r).active

/-- COUNT_MESSAGE: kept until this Courier serves its exchange. -/
def execCountMessage (r : RegionNo) (srcPkg srcRgn : Nat) (x : ExTag) (counts : List (Nat × Nat)) (s : State) : Out :=
  if !s.couTakes r x then .next s
  else
    let c := s.cou r
    let m : CountMsg := { layer := x.layer, start := x.start, pkg := srcPkg, rgn := srcRgn, counts := counts }
    if c.counts.any (fun q => q.layer == m.layer && q.start == m.start && q.pkg == srcPkg && q.rgn == srcRgn) then .next s
    else .next ((s.setCou r { c with counts := c.counts ++ [m] }).couProgress r)

/-- GRANT_MESSAGE: served at once in DISPATCH, kept while HELD. -/
def execGrantMessage (r : RegionNo) (homePkg homeRgn : Nat) (x : ExTag) (grants : List Grant) (s : State) : Out :=
  let c := s.cou r
  if !s.couOurs r x || !c.selDone || c.grants.contains (homePkg, homeRgn) || c.grantQ.any (fun q => q.1 == homePkg && q.2.1 == homeRgn) then
    .next s
  else .next ((s.setCou r { c with grantQ := c.grantQ ++ [(homePkg, homeRgn, grants)] }).couProgress r).settleAll

/-- DISPATCH_ROW: a row put into its expert's list or the pool. A row that failed or is poisoned fails the exchange. -/
def execDispatchRow (r : RegionNo) (x : ExTag) (expert row : Nat) (pool : Bool) (gid rank : Nat) (data : List Byte)
    (ok : Bool) (s : State) : Out :=
  let c := s.cou r
  if !s.couOurs r x then .next s
  else
    match c.route, c.placed with
    | some rr, some _ =>
      if !ok then .next (s.exchangeFail r 0x04)
      else
        let a := if pool then (s.rd64 (.cou r) COU_OVF_IN_L).toNat % 2 ^ 48 + row * (dispOf rr)
          else ((rr.experts[expert]?).map (fun e => e.inAddr.toNat)).getD 0 + 256 + row * (dispOf rr)
        let w := s.write (.courier r) a (takePad 0 (dispOf rr) data)
        if w.1 ≠ .ok then .next (w.2.exchangeFail r (if w.1 = .ue then 0x04 else 0x03))
        else
          let g : CouTag := { expert := expert, row := row, pool := pool, gid := gid, rank := rank }
          .next (((w.2.setCou r { (w.2.cou r) with tags := c.tags ++ [g] }).writeHeaders r).couProgress r).settleAll
    | _, _ => .next s

/-- RETURN_ROW: an expert's output for selection `rank` of token t. A poisoned row makes the token canonical NaN; a refused write of it
fails the descriptor with ADDRESS. -/
def execReturnRow (r : RegionNo) (x : ExTag) (t rank : Nat) (data : List Byte) (ok : Bool) (s : State) : Out :=
  let c := s.cou r
  if !s.couOurs r x then .next s
  else
    match c.cur.map routeOf, c.route with
    | some d, some rr =>
      if c.returned.contains (t, rank) then .next s
      else
        let w := s.write (.courier r) (d.res + (t * rr.k + rank) * (combOf rr)) (takePad 0 (combOf rr) data)
        let s1 := if w.1 = .refused then w.2.couFail r 0x03 else w.2
        let c1 := { (s1.cou r) with returned := c.returned ++ [(t, rank)],
                                    poisoned := if ok && decide (w.1 = .ok) then c.poisoned else c.poisoned ++ [t] }
        .next ((s1.setCou r c1).combineReady r).settleAll
    | _, _ => .next s

/-! ### STOP, GO, FLUSH, ERR_ACK and the clear (R179 to R181) -/

/-- What an abandoned phase leaves: the queue, the selections and the return table of a finished DISPATCH. Drops that
the phase had marked are taken back, for its replay decides them again. -/
def CouSt.abandon (c : CouSt) (p : Nat) : CouSt :=
  if p = 4 then { c with returned := [], poisoned := [], combined := [], done := false, heldIn := 0 }
  else { c with counts := [], placed := none, grants := [], grantQ := [], tags := [], headers := [], dropped := 0, hdrBad := false,
                heldIn := 0, sels := c.sels.map (fun l => l.map (fun e => { e with dropped := false })) }
def State.couAbandon (s : State) (r : RegionNo) (p : Nat) : State :=
  let c := s.cou r
  let s1 := s.setCou r (c.abandon p)
  if p = 2 then (s1.wr (.cou r) COU_STEP_DROPS (s.rd (.cou r) COU_STEP_DROPS - BitVec.ofNat 32 c.dropped)).setBit (.cou r) COU_STATUS 7 false
  else s1.setBit (.cou r) COU_STATUS 8 false
/-- STOP: a Courier that waits on others abandons the phase and raises COU_GEN, with which the messages still on their way, and what
was granted to them, have no effect (R179). -/
def State.couStop (s : State) (r : RegionNo) : State :=
  let st := s.couState r
  if st = cSTOPPED then s
  else
    let held := (s.cou r).heldIn
    let s1 := if st ∈ [cCOUNT, cGRANT, cDATA, cRETURN, cCOMBINE] ∨ (st = cHELD ∧ (held = 2 ∨ held = 4)) then
        (s.couAbandon r (if st = cHELD then held else s.couPhase r)).setFld (.cou r) COU_GEN 0 8 (s.couGen r + 1)
      else s
    s1.setCouState r cSTOPPED
/-- GO: a STOPPED Courier goes on. With REPLAY set the phase runs again from its first sub-step, also where this Courier had finished it;
a SELECT whose record is complete is skipped (R179). -/
def State.couGo (s : State) (r : RegionNo) : State :=
  if s.couState r ≠ cSTOPPED then s
  else
    let p := s.couPhase r
    let s1 := s.setCouState r cIDLE
    if s.bit (.cou r) COU_CFG 1 ∧ (p = 2 ∨ p = 4) ∧ (s.cou r).cur.isSome then (s1.couAbandon r p).couEnter r p
    else if s.couUnfinished r p then s1.couEnter r p
    else s1.setCouState r (if (s.cou r).active then (if p = 1 then cSELECT else cWAIT) else cIDLE)
/-- FLUSH discards the queue while STOPPED. -/
def State.couFlush (s : State) (r : RegionNo) : State :=
  if s.couState r = cSTOPPED then (s.setCou r { (s.cou r) with queue := [] }).setFld (.cou r) COU_Q_STATUS 0 6 32 else s

/-- COU_STOP. -/
def execCouStop (m : Master) (r : RegionNo) (s : State) : Out := .next (s.couCtrl m r (fun s => s.couStop r))
/-- COU_GO. -/
def execCouGo (m : Master) (r : RegionNo) (s : State) : Out := .next (s.couCtrl m r (fun s => s.couGo r))
/-- COU_FLUSH. -/
def execCouFlush (m : Master) (r : RegionNo) (s : State) : Out := .next (s.couCtrl m r (fun s => s.couFlush r))
/-- COU_ERR_ACK. -/
def execCouErrAck (m : Master) (r : RegionNo) (s : State) : Out :=
  .next (s.couCtrl m r (fun s => s.setBit (.cou r) COU_STATUS 9 false))

/-- A clear of the Courier begins (R180). -/
def State.couClearStart (s : State) (r : RegionNo) : State :=
  ((s.setCou r {}).resetWin (.cou r) 0 0x10000).setBit (.cou r) COU_STATUS 10 true
/-- COU_CLEAR_DONE: the clear ends and every COU_ register holds its reset value. -/
def execCouClearDone (r : RegionNo) (s : State) : Out :=
  if s.couClearing r then .next (s.resetWin (.cou r) 0 0x10000) else .next s
/-- A package of the partition is lost, or a path to it: every exchange in progress fails with PEER_LOST (R178). -/
def State.couPeerLost (s : State) (d : Dye) : State :=
  (s.regionsOf d).foldl (fun t r => if (t.cou r).active ∧ t.couState r ∈ [cCOUNT, cGRANT, cDATA, cRETURN, cCOMBINE, cHELD] then
    t.exchangeFail r 0x06 else t) s

end Sys2Proof.Machine
end

