-- ==== Sys2Proof/Machine/Stream.lean ====
section
/-! DEFINITION. The stream, message and sync instructions of Table 3-5 and the events that complete them (R68 to R76,
R84, R85): DMA to RWAIT, SEMSET to FENCE, DMA_COMPLETE, SEND_COMPLETE, BARRIER_RELEASE. -/

namespace Sys2Proof.Machine

/-! ### DMA -/

/-- The transfer that a DMA word asks for. -/
def dmaXfer (k : CoreSt) (w : XWord) : Xfer :=
  let sb := k.s w.sb.toNat
  { send := false, num := w.n.toNat, src := k.a w.as.toNat, dst := k.a w.ad.toNat, bytes := (k.s w.sa.toNat).toNat,
    rows := if w.fn = 0 then 1 else bitsOf sb 0 16, srcStride := if w.fn = 0 then 0 else bitsOf sb 16 24,
    dstStride := if w.fn = 0 then 0 else bitsOf sb 40 24, pc := k.pc, epoch := k.epoch }
/-- Every byte of a DMA is reachable (R68). -/
def State.dmaReach (s : State) (c : CoreId) (x : Xfer) : Bool :=
  (List.range x.rows).all (fun i => s.dmaRangeOk c false (x.src.toNat + i * x.srcStride) x.bytes &&
    s.dmaRangeOk c true (x.dst.toNat + i * x.dstStride) x.bytes)
/-- The first address of a DMA that is out of reach: row by row, the source before the destination. -/
def State.dmaBad (s : State) (c : CoreId) (x : Xfer) : Nat :=
  let blocks := fun (write : Bool) (a : Nat) =>
    ((List.range ((a + x.bytes - 1) / 65536 - a / 65536 + 1)).map (fun i => max a ((a / 65536 + i) * 65536))).find? (fun b =>
      decide (2 ^ 48 ≤ b) || !s.dmaByteOk c write b)
  ((List.range x.rows).findSome? (fun i =>
    match blocks false (x.src.toNat + i * x.srcStride) with
    | some b => some b
    | none => blocks true (x.dst.toNat + i * x.dstStride))).getD (x.src.toNat + x.bytes)
/-- Whether a DMA touches tier 2 or tier 3. -/
def State.dmaFar (s : State) (c : CoreId) (x : Xfer) : Bool :=
  (List.range x.rows).any (fun i => s.farRange (s.owner c.region) (x.src.toNat + i * x.srcStride) x.bytes ||
    s.farRange (s.owner c.region) (x.dst.toNat + i * x.dstStride) x.bytes)

/-- DMA: copies under tag N. Zero bytes move nothing, take no place and are checked against no address; a byte out of
reach is an address fault; a full queue stalls. -/
def execDma (c : CoreId) (w : XWord) (s : State) : Out :=
  let two := w.fn = 1
  .next (s.issue c (encodeX opDMA w)
    (checkX w (decide (w.fn.toNat ≤ 1) && decide (w.n.toNat < 8)) true true true two true false) w.n.toNat w.p w.pneg
    (fun s =>
      let k := s.core c
      let x := dmaXfer k w
      if x.bytes = 0 ∨ x.rows = 0 then s.retire c id
      else if !s.dmaReach c x then
        (s.refusedRec (.transferEngine c) (s.dmaBad c x)).faultHere c fADDRESS w.n.toNat opDMA
      else if 8 ≤ k.xq.length then s
      else
        let far := s.dmaFar c x
        ((s.onCore c (fun k => { k with
            xq := k.xq ++ [{ x with remote := far }], tileTags := if far then putBits k.tileTags w.n.toNat 1 1 else k.tileTags,
            remoteTags := if far then putBits k.remoteTags w.n.toNat 1 1 else k.remoteTags })).startXfers c 8).retire c id))

/-- A local DMA that abandonment cuts at its next 4 KiB boundary (Table 3-9): where it stands is a free value
(log entry 4), so how many 4 KiB pieces it moves is. A two-dimensional one is cut between rows. -/
def cutXfer (x : Xfer) (free : Nat) : Xfer :=
  if x.rows = 1 then { x with bytes := min x.bytes (free % (x.bytes / 4096 + 2) * 4096) }
  else { x with rows := free % (x.rows + 1) }

/-- DMA_COMPLETE: the first transfer of the queue, a DMA, writes its last byte, or ends in an error. It waits while a
queued MMA targets a bank it touches (R69). A poisoned source is an error of its tag; a slice that refuses it (R96) is
an address fault of the core. -/
def execDmaComplete (c : CoreId) (ok : Bool) (data : List Byte) (s : State) : Out :=
  match (s.core c).xq with
  | [] => .next s
  | x :: xs =>
    if x.send then .next s
    else if (List.range 8).any (fun b => s.dmaOnBank c b && (s.core c).mmaInto b) then .next s
    else
      let pop := fun (k : CoreSt) => { k with xq := xs }
      let fail := fun (k : CoreSt) => { k with xq := xs, errTags := putBits k.errTags x.num 1 1 }
      if !ok then .next (((s.lateError c fail pop).nextXfers c).settleAll)
      else
        let r := s.copyRows c x x.rows 0 data
        if r.1.2 then .next (((r.2.onCore c pop).coreFault c fADDRESS x.pc x.num opDMA).settleAll)
        else if r.1.1 then .next (((r.2.lateError c fail pop).nextXfers c).settleAll)
        else .next (((r.2.onCore c pop).nextXfers c).settleAll)

/-- DWAIT. IMM16[15:8] names no tag and is ignored (DESIGN CHOICE, log entry 121). -/
def execDwait (c : CoreId) (w : XWord) (s : State) : Out :=
  .next (s.issue c (encodeX opDWAIT w) (checkX w (w.fn == 0) false false false false false true) 0 w.p w.pneg
    (fun s => s.waitOn c (.x opDWAIT w)))

/-! ### Messages -/

/-- Whether a binding's coordinate names a core (R19): its PKG_ORD lies in the package table and its RGN_ORD within the region count
there. -/
def State.peerNamed (s : State) (c : CoreId) (b : Word32) : Bool :=
  (s.resolve (s.owner c.region) (BitVec.ofNat 16 (bitsOf b 0 16))).isSome

/-- SEND: the binding, the coordinate it names (R19), the reach of the own slice, then the wait for a credit and the length check of R72. -/
def execSend (c : CoreId) (w : XWord) (s : State) : Out :=
  .next (s.issue c (encodeX opSEND w) (checkX w (w.fn == 0) false true true false true false) w.n.toNat w.p w.pneg
    (fun s =>
      let k := s.core c
      if !bitOf (k.schanOf w.n.toNat) 31 then s.faultHere c fCHANNEL w.n.toNat opSEND
      else if !s.peerNamed c (k.schanOf w.n.toNat) then s.faultHere c fADDRESS w.n.toNat opSEND
      else if (s.ownOfs c (k.a w.as.toNat) (k.s w.sa.toNat).toNat 1).isNone then
        s.faultHere c fADDRESS w.n.toNat opSEND
      else s.waitOn c (.x opSEND w)))

/-- A core on this package that a send is refused by or delivered to, and its channel. -/
def State.sendTarget (s : State) (c : CoreId) (n : Nat) : Option (CoreId × Nat) :=
  (s.bindLocal c ((s.core c).schanOf n)).map (fun q => (q, bitsOf ((s.core c).schanOf n) 16 4))

/-- SEND_COMPLETE: the send at the head of the queue, to a core on this package, is written and acknowledged; or it, or
one that waits for another package, ends in an error. A refusal (R84) makes it wait for a credit again. -/
def execSendComplete (c : CoreId) (ok : Bool) (s : State) : Out :=
  match (s.core c).xq with
  | x :: xs =>
    if !x.send then .next s
    else
      let pop := fun (k : CoreSt) => { k with xq := xs }
      let fail := fun (k : CoreSt) => { k with xq := xs, errSends := putBits k.errSends x.num 1 1 }
      if !ok then .next (((s.lateError c fail pop).nextXfers c).settleAll)
      else
        match s.sendTarget c x.num with
        | none => .next (((s.lateError c fail pop).nextXfers c).settleAll)
        | some (q, ch) =>
          let r := s.read (.transferEngine c) x.src.toNat x.bytes
          if r.1.refused then .next (((r.2.onCore c pop).coreFault c fADDRESS x.pc x.num opSEND).settleAll)
          else if r.1.poison then .next (((r.2.lateError c fail pop).nextXfers c).settleAll)
          else
            let d := r.2.deliver q ch x.seq x.cepoch r.1.data
            match d.1 with
            | .refused =>
              .next (((d.2.onCore c (fun k => { (k.refuseSend x) with xq := xs })).nextXfers c).settleAll)
            | .lost => .next (((d.2.lateError c fail pop).nextXfers c).settleAll)
            | _ => .next (((d.2.onCore c pop).nextXfers c).settleAll)
  | [] =>
    match (s.core c).sent with
    | [] => .next s
    | x :: xs =>
      if ok then .next s
      else .next ((s.lateError c (fun k => { k with sent := xs, errSends := putBits k.errSends x.num 1 1 })
        (fun k => { k with sent := xs })).settle [c])

/-- RECV: the binding, the coordinate it names, the reach of the own slice, then a place for the buffer and its credit. -/
def execRecv (c : CoreId) (w : XWord) (s : State) : Out :=
  .next (s.issue c (encodeX opRECV w) (checkX w (w.fn == 0) true false true false true false) w.n.toNat w.p w.pneg
    (fun s =>
      let k := s.core c
      if !bitOf (k.rchanOf w.n.toNat) 31 then s.faultHere c fCHANNEL w.n.toNat opRECV
      else if !s.peerNamed c (k.rchanOf w.n.toNat) then s.faultHere c fADDRESS w.n.toNat opRECV
      else if (s.ownOfs c (k.a w.ad.toNat) (k.s w.sa.toNat).toNat 1).isNone then
        s.faultHere c fADDRESS w.n.toNat opRECV
      else s.waitOn c (.x opRECV w)))

/-- SWAIT. -/
def execSwait (c : CoreId) (w : XWord) (s : State) : Out :=
  .next (s.issue c (encodeX opSWAIT w) (checkX w (w.fn == 0) false false false false false true) 0 w.p w.pneg
    (fun s => s.waitOn c (.x opSWAIT w)))

/-- RWAIT. -/
def execRwait (c : CoreId) (w : XWord) (s : State) : Out :=
  .next (s.issue c (encodeX opRWAIT w) (checkX w (w.fn == 0) false false false true true false) w.n.toNat w.p w.pneg
    (fun s => s.waitOn c (.x opRWAIT w)))

/-! ### Semaphores (R74, R102) -/

/-- SEMSET and SEMCLR: the word [AS] may lie in any slice of the partition on this package, 8-byte aligned. One that is misaligned
is refused at the slice as R96 states (R102); an address that is no slice's is refused under R27. -/
def State.semaphore (s : State) (c : CoreId) (a : Addr) (set : Bool) (mask : Word64) (op : Nat) : State :=
  match s.place (s.owner c.region) a.toNat with
  | .slice q o =>
    let i := if q = c then 1 else 9
    if o % 8 = 0 && s.sliceOk q i 2 o 8 then
      let r := s.portAlias q i o set mask
      if r.1 then r.2.faultHere c fECC 0 op else (r.2.retire c id).settle [q]
    else ((s.bump (.spd q.region) SPD_ACC_ERR).refuseRec (.sequencer c) a.toNat (some q)).faultHere c fADDRESS 0 op
  | _ => (s.refusedRec (.sequencer c) a.toNat).faultHere c fADDRESS 0 op

/-- SEMSET. -/
def execSemset (c : CoreId) (w : XWord) (s : State) : Out :=
  .next (s.issue c (encodeX opSEMSET w) (checkX w (w.fn == 0) false true true false false false) 0 w.p w.pneg
    (fun s => s.semaphore c ((s.core c).a w.as.toNat) true ((s.core c).s w.sa.toNat) opSEMSET))

/-- SEMCLR. -/
def execSemclr (c : CoreId) (w : XWord) (s : State) : Out :=
  .next (s.issue c (encodeX opSEMCLR w) (checkX w (w.fn == 0) false true true false false false) 0 w.p w.pneg
    (fun s => s.semaphore c ((s.core c).a w.as.toNat) false ((s.core c).s w.sa.toNat) opSEMCLR))

/-- SEMWAIT: waits until ([AS] & SA) = (SB & SA). -/
def execSemwait (c : CoreId) (w : XWord) (s : State) : Out :=
  .next (s.issue c (encodeX opSEMWAIT w) (checkX w (w.fn == 0) false true true true false false) 0 w.p w.pneg
    (fun s => s.waitOn c (.x opSEMWAIT w)))

/-! ### Barriers and fences -/

/-- BARRIER: a channel fault where CORE_BARIDn is not VALID or its group does not include the core; else the core
arrives, at a generation that is not complete, and waits. -/
def execBarrier (c : CoreId) (w : XWord) (s : State) : Out :=
  .next (s.issue c (encodeX opBARRIER w) (checkX w (w.fn == 0) false false false false true false) w.n.toNat w.p w.pneg
    (fun s =>
      let n := w.n.toNat
      let b := (s.core c).baridOf n
      let g := bitsOf b 0 12
      let d := s.owner c.region
      if !bitOf b 31 || !(s.barrierMembers d g).contains (s.lcoord c) then s.faultHere c fCHANNEL n opBARRIER
      else
        let s1 := s.onCore c (fun k => { k with arrivals := natBump k.arrivals n })
        let s2 := if (s.bar d g).gen < natGet (s1.core c).arrivals n then s1.barrierArrive c g else s1
        s2.waitOn c (.x opBARRIER w)))

/-- BARRIER_RELEASE: the generation completes once every member here has arrived and every other package has sent its
packet; the skew of the arrivals enters the histogram of the group. -/
def execBarrierRelease (d : Dye) (g : Nat) (s : State) : Out :=
  let b := s.bar d g
  if s.barrierLocal d g ≠ [] && s.barrierAllHere d g && s.barrierAllThere d g then
    .next (((s.setBar d g { gen := b.gen + 1, arrived := [], packets := b.packets.filter (fun p => p.2 ≠ b.gen) }).hist 0
      d g (b.lastAt - b.firstAt)).settle (s.barrierLocal d g))
  else .next s

/-- FENCE. IMM16[15:4] names no condition and is ignored (DESIGN CHOICE, log entry 121). -/
def execFence (c : CoreId) (w : XWord) (s : State) : Out :=
  .next (s.issue c (encodeX opFENCE w) (checkX w (w.fn == 0) false false false false false true) 0 w.p w.pneg
    (fun s => s.waitOn c (.x opFENCE w)))

end Sys2Proof.Machine
end

