-- ==== Sys2Proof/Machine/Tiles.lean ====
section
/-! DEFINITION. The control instructions of Table 3-5 and the tile commands (R60, R77 to R89): BR, LOOP, TBOUND, HALT,
the tile gate, the watchdog, GO, STOP, FAULT_ACK and the end of an abandonment. -/

namespace Sys2Proof.Machine

/-- A legal word of format B. -/
def checkB (w : BWord) (sa imm : Bool) : Nat :=
  if w.rsv = 0 && (sa || w.sa = 0) && (imm || w.imm = 0) then 0 else fILLOP

/-- A branch that is taken (R60): a loop fault where the target lies outside the program or outside a LOOP body. -/
def State.branch (s : State) (c : CoreId) (imm : Word32) : State :=
  let k := s.core c
  let t : Int := k.pc + imm.toInt
  if t < 0 ∨ (k.istore.length : Int) ≤ t then s.faultHere c fLOOP 0 opBR
  else if k.loops.any (fun e => decide (t.toNat < e.first) || decide (e.last < t.toNat)) then s.faultHere c fLOOP 0 opBR
  else s.onCore c (fun k => { k with pc := t.toNat })

/-- BR: if the predicate holds, PC ← PC + IMM. -/
def execBr (c : CoreId) (w : BWord) (s : State) : Out :=
  .next (s.issue c (encodeB opBR w) (checkB w false true) 0 w.p w.pneg (fun s => s.branch c w.imm))

/-- LOOP: an empty body is a NOP; a body beyond the program or a fifth loop is a loop fault; Sa = 0 skips the body. -/
def State.loopIn (s : State) (c : CoreId) (sa n : Nat) : State :=
  let k := s.core c
  if n = 0 then s.retire c id
  else if k.istore.length ≤ k.pc + n then s.faultHere c fLOOP 0 opLOOP
  else if 4 ≤ k.loops.length then s.faultHere c fLOOP 0 opLOOP
  else if k.s sa = 0 then
    s.onCore c (fun k =>
      let r := backEdge (k.pc + n) k.loops
      { k with pc := r.1, loops := r.2 })
  else s.onCore c (fun k => { k with
    pc := k.pc + 1, loops := { first := k.pc + 1, last := k.pc + n, left := (k.s sa).toNat } :: k.loops })

/-- LOOP: runs the following IMM[15:0] instructions Sa times; IMM[31:16] are reserved. -/
def execLoop (c : CoreId) (w : BWord) (s : State) : Out :=
  .next (s.issue c (encodeB opLOOP w) (if bitsOf w.imm 16 16 = 0 then checkB w true true else fILLOP) 0 w.p w.pneg
    (fun s => s.loopIn c w.sa.toNat (bitsOf w.imm 0 16)))

/-- TBOUND and HALT must be unpredicated (R60). -/
def checkTile (w : BWord) : Nat :=
  let leg := checkB w false false
  if leg ≠ 0 then leg else if w.p = 0 && !w.pneg then 0 else fTILESTATE

/-- TBOUND: drain, check, checkpoint, and the tile gate. -/
def execTbound (c : CoreId) (w : BWord) (s : State) : Out :=
  .next (s.issue c (encodeB opTBOUND w) (checkTile w) 0 w.p w.pneg (fun s => s.waitOn c (.b opTBOUND w)))

/-- HALT: the same drain, check and checkpoint, and then HALTED. -/
def execHalt (c : CoreId) (w : BWord) (s : State) : Out :=
  .next (s.issue c (encodeB opHALT w) (checkTile w) 0 w.p w.pneg (fun s => s.waitOn c (.b opHALT w)))

/-! ### The gate and the watchdog -/

/-- A member at the gate stops there, a stop being pending (R81). -/
def CoreSt.gateStop (k : CoreSt) : CoreSt :=
  if k.run == .gate && k.stopPend then { k with run := .stopped, stopPend := false } else k
/-- A member at the gate starts the next tile (R79). -/
def CoreSt.gateOpen (now : Nat) (k : CoreSt) : CoreSt :=
  if k.run == .gate then
    { k with run := .running, tile := k.tile + 1, pc := k.ckpt.pc, loops := k.ckpt.loops, tileAt := now }
  else k
/-- A member's wait at the gate ends: its cycles are stall cycles, and where the gate opens its tile ends (Table 3-12). -/
def State.gateLeave (s : State) (c : CoreId) (opens : Bool) : State :=
  if (s.core c).run == .gate then (if opens then (s.countStall c).tileMaxNow c else s.countStall c) else s
/-- TILE_GATE_OPEN: members with a stop pending stop at the gate; where no member runs, replays or has stopped, the gate
opens for all that wait, unless the region controller holds the group back for a stream that has not ended (R187). -/
def execTileGateOpen (c : CoreId) (s : State) : Out :=
  let g := s.groupOf c
  let s1 := g.foldl (fun t q => if (t.core q).stopPend then (t.gateLeave q false).onCore q CoreSt.gateStop else t) s
  let holds := g.any (fun q => let r := (s1.core q).run
    r == .running || r == .abandoned || r == .stopped || (tabGet (fun _ => none) s1.held q.region.val).any (fun h => h.stream))
  if holds then .next s1
  else .next (g.foldl (fun t q => (t.gateLeave q true).onCore q (CoreSt.gateOpen s.now)) s1)

/-- TILE_OVERRUN: the tile has lasted CORE_TILE_LIMIT cycles, the gate wait included; frozen from the moment a stop or
an abandonment begins (R77). -/
def execTileOverrun (c : CoreId) (s : State) : Out :=
  let k := s.core c
  if (k.run == .running || k.run == .gate) && !k.stopPend && !k.abandoning &&
     decide (bitsOf k.tileLimit 0 32 ≤ s.cyclesSince c.region k.tileAt) then
    .next (s.coreFault c fOVERRUN k.pc 0 (((k.istore[k.pc]?).map opcodeOf).getD 0))
  else .next s

/-! ### CORE_CTRL (R78, R81, R89, Table 3-14) -/

/-- The checkpoint put back. -/
def CoreSt.restoreCkpt (k : CoreSt) : CoreSt :=
  { k with sregs := k.ckpt.sregs, aregs := k.ckpt.aregs, preds := k.ckpt.preds, pc := k.ckpt.pc, loops := k.ckpt.loops,
           sends := k.ckpt.sends, posts := k.ckpt.posts, arrivals := k.ckpt.arrivals }
/-- GO from IDLE: the program's entry, tile 0, the first checkpoint (R78); the counts of the step start at 0. -/
def CoreSt.start (now : Nat) (k : CoreSt) : CoreSt :=
  { k with run := .running, pc := 0, tile := 0, loops := [], sends := [], posts := [], arrivals := [], delivered := [],
           deliveredLog := [], tileMax := 0, stallRemote := 0, stallLocal := 0, stepAt := now, tileAt := now,
           tileTags := 0, posted := [],
           ckpt := { sregs := k.sregs, aregs := k.aregs, preds := k.preds } }
/-- The barrier groups of a core that starts begin the step at generation 0, unless a member already runs. -/
def State.startBarriers (s : State) (c : CoreId) : State :=
  let d := s.owner c.region
  (List.range 16).foldl (fun t n =>
    let b := (s.core c).baridOf n
    let g := bitsOf b 0 12
    if bitOf b 31 && (s.barrierLocal d g).all (fun q => (s.core q).run == .idle || (s.core q).run == .halted) then
      t.setBar d g { packets := (t.bar d g).packets }
    else t) s
/-- GO. It is ignored in every state but IDLE, STOPPED and ABANDONED (Table 3-11). The tile of a STOPPED core goes on with the cycles
that it had when the stop began; an abandoned one starts again (R77). -/
def State.coreGo (s : State) (c : CoreId) : State :=
  match (s.core c).run with
  | .idle => (s.startBarriers c).onCore c (CoreSt.start s.now)
  | .stopped => s.onCore c (fun k => { (k.restoreCkpt) with
      run := .gate, tileAt := s.now - (k.stopAt - k.tileAt), waitAt := s.now })
  | .abandoned => s.onCore c (fun k => { (k.restoreCkpt) with run := .running, tileAt := s.now })
  | _ => s
/-- STOP: a stop is requested of the core, while it runs or waits at its gate, and with it of every such member of its tile
group (R81; log entry 114). -/
def State.coreStop (s : State) (c : CoreId) : State :=
  let k := s.core c
  if k.run == .running || k.run == .gate then
    let g := s.groupOf c
    (g.foldl (fun t q => t.onCore q (CoreSt.askStop s.now)) s).checkAbandons g
  else s
/-- FAULT_ACK: from FAULTED, clear FAULT and enter IDLE. -/
def State.coreFaultAck (s : State) (c : CoreId) : State :=
  if (s.core c).run == .faulted then s.onCore c (fun k => { k with run := .idle, fault := 0 }) else s
/-- Only the region controller of the core's region writes CORE_CTRL (R89). -/
def State.ctrlFrom (s : State) (m : Master) (c : CoreId) (f : State → State) : State :=
  if m = .regionController c.region then (f s).answer [] else s.permissionError

/-- CORE_GO. -/
def execCoreGo (m : Master) (c : CoreId) (s : State) : Out := .next (s.ctrlFrom m c (fun s => s.coreGo c))
/-- CORE_STOP. -/
def execCoreStop (m : Master) (c : CoreId) (s : State) : Out := .next (s.ctrlFrom m c (fun s => s.coreStop c))
/-- CORE_FAULT_ACK. -/
def execCoreFaultAck (m : Master) (c : CoreId) (s : State) : Out := .next (s.ctrlFrom m c (fun s => s.coreFaultAck c))

/-! ### The end of an abandonment (Table 3-9, R84, R85) -/

/-- The transfer in progress: a local DMA is cut and completed, a local SEND is cut and not delivered. -/
def State.cutHead (s : State) (c : CoreId) : State :=
  match (s.core c).xq with
  | [] => s
  | x :: _ =>
    if x.send then s.onCore c (fun k => { k with xq := [] })
    else
      let d := s.draw
      let y := cutXfer x (Config.freeNat d.1)
      (d.2.copyRows c y y.rows 0 []).2.onCore c (fun k => { k with xq := [] })
/-- ABANDON_COMPLETE: transfers are cut, posted buffers taken back, which revokes the credits that name them (a message against
such a credit is refused by its epoch, R84), the checkpoint restored; the core is ABANDONED. -/
def execAbandonComplete (c : CoreId) (s : State) : Out :=
  if (s.core c).abandoning then
    .next (((s.cutHead c).onCore c (fun k => { (k.restoreCkpt) with
      run := .abandoned, abandoning := false, stopPend := false, remoteWait := false, posted := [], errTags := 0,
      errSends := 0, remoteTags := 0 })).settleAll)
  else .next s

end Sys2Proof.Machine
end

