-- ==== Sys2Proof/Machine/Scratchpad.lean ====
section
/-! DEFINITION. The scratchpad commands (R91 to R112): accesses that reach a slice, bank grants, write-backs, windows and
master access, the clearing engine and the background tester. -/

namespace Sys2Proof.Machine

/-! ### Accesses (R93, R96, R102, R103) -/

/-- Bytes lo up to lo + n of what an access reads or writes. -/
def accPart (acc : Access) (lo n : Nat) : Access :=
  match acc with
  | .read _ => .read n
  | .write bs => .write ((bs.drop lo).take n)
  | x => x
/-- The words of an access as requests, one for each word touched. -/
def bankReqs (q : CoreId) (o idx : Nat) (m : Master) (acc : Access) : List BankReq :=
  (wordsOf o (accBytes acc)).map (fun w =>
    let lo := max o (32 * w)
    let hi := min (o + accBytes acc) (32 * w + 32)
    { core := q, word := w, first := lo - 32 * w, idx := idx, master := m, acc := accPart acc (lo - o) (hi - lo) })
/-- The requests of an access at device address a, slice by slice (R27), or the first address that its slice refuses or that lies in no
slice (R96, R102); fuel counts slices, and done bytes of the access lie before a. -/
def State.sliceReqs (s : State) (m : Master) (acc : Access) : Nat → Nat → Nat → Sum Nat (List BankReq)
  | 0, _, _ => .inr []
  | k + 1, a, done =>
    if accBytes acc ≤ done then .inr []
    else
      match s.place (s.dyeOf m) a with
      | .slice q o =>
        let n := min (accBytes acc - done) (0x200000 - o)
        (match masterIndex m q with
         | some i =>
           if s.sliceOk q i (accKind acc) o n && (accKind acc != 2 || o % 8 == 0) then
             (match s.sliceReqs m acc k (a + n) (done + n) with
              | .inl b => .inl b
              | .inr l => .inr (bankReqs q o i m (accPart acc done n) ++ l))
           else .inl a
         | none => .inl a)
      | _ => .inl a

/-- SCRATCHPAD_ACCESS: checked when it reaches the slice (R96, R110); an allowed one waits for its banks. An access over several
slices is allowed when every byte is, and else refused whole, with one record (R27). An alias to an address that is not 8-byte aligned
is refused (R102). -/
def execScratchpadAccess (m : Master) (a : Addr) (acc : Access) (s : State) : Out :=
  match s.sliceReqs m acc (accBytes acc / 0x200000 + 2) a.toNat 0 with
  | .inr l => .next { s with bankQ := s.bankQ ++ l }
  | .inl b =>
    match s.place (s.dyeOf m) b with
    | .slice q _ => .next (s.refuseSlice m q b (accBytes acc))
    | _ => .next (s.refuse m b (accBytes acc))

/-- BANK_GRANT: the bank serves the winner and every access that meets it at its word in one grant; each other word that
waits for the bank counts one conflict (R93, R103, R104). flips are the bits of the stored word that an upset has
changed since it was last served. -/
def execBankGrant (c : CoreId) (bank : Fin 32) (flips : BitVec 288) (s : State) : Out :=
  match bankWinner (s.bankQ.filter (waitsAt c bank.val)) with
  | none => .next s
  | some w =>
    let s0 := if flips = 0 then s else s.setErr c w.word (s.errAt c w.word ^^^ flips)
    .next (((s0.bankLose c bank.val w.word 0).serveWord c w.word 0 4).settle [c])

/-- ECC_WRITE_BACK: a corrected word is written back, unless a write has come meanwhile (R101). -/
def execEccWriteBack (c : CoreId) (word : Fin 65536) (s : State) : Out :=
  let k := wordKey c word.val
  if k ∈ s.writeBack then
    .next { (s.setErr c word.val (eccDecode (s.cls c (word.val / 128)) (s.errAt c word.val)).1) with
      writeBack := s.writeBack.filter (· ≠ k) }
  else .next s

/-! ### The test buffer (R105 to R107, Table 4-5) -/

/-- The test buffer of a slice holds nothing any more. -/
def State.bufClear (s : State) (c : CoreId) : State :=
  { s with sram := tabClear s.sram (bufKey c) (bufKey c + 4096), spdErr := tabClear s.spdErr (bufErrKey c) (bufErrKey c + 128) }
/-- A word is copied back from the test buffer to its row, with whatever its code word holds. -/
def State.bufBack (s : State) (c : CoreId) (w : Nat) : State :=
  { s with sram := tabSetList byteReset s.sram (sliceKey c (32 * w)) (tabGetList byteReset s.sram (bufKey c + w % 128 * 32) 32),
           spdErr := tabSet errReset s.spdErr (wordKey c w) (tabGet errReset s.spdErr (bufErrKey c + w % 128)) }
/-- A word is copied to the test buffer from its row. -/
def State.bufFill (s : State) (c : CoreId) (w : Nat) : State :=
  { s with sram := tabSetList byteReset s.sram (bufKey c + w % 128 * 32) (tabGetList byteReset s.sram (sliceKey c (32 * w)) 32),
           spdErr := tabSet errReset s.spdErr (bufErrKey c + w % 128) (tabGet errReset s.spdErr (wordKey c w)) }
/-- The words of a row. -/
def rowWords (row : Nat) : List Nat := (List.range 128).map (· + row * 128)
/-- The row of a test in progress gets back every word that the buffer holds; the buffer is empty from then on. -/
def State.testRestore (s : State) (c : CoreId) : State :=
  let b := s.bistOf c
  (((rowWords b.row).filter b.holds).foldl (fun (t : State) w => t.bufBack c w) s).bufClear c
/-- BIST_ACTIVE and BIST_FAIL of SPD_STATUS follow the testers. -/
def State.bistBits (s : State) (r : RegionNo) : State :=
  (s.setBit (.spd r) SPD_STATUS 1 ((allCores r).any (fun c => (s.bistOf c).active || (s.bistOf c).failed.isSome))).setBit
    (.spd r) SPD_STATUS 2 ((allCores r).any (fun c => (s.bistOf c).failed.isSome))
/-- A row under test is released: the tester goes on to the next, and after row 511 a pass is counted. SPD_BIST_STATUS is one register
for 64 testers: PASSES counts every slice's release of row 511 (DESIGN CHOICE, log entry 122). -/
def State.testRelease (s : State) (c : CoreId) : State :=
  let b := s.bistOf c
  let s1 := s.setBist c { b with active := false, marks := [], row := (b.row + 1) % 512 }
  if b.row = 511 then
    s1.setFld (.spd c.region) SPD_BIST_STATUS 24 8 (s1.fld (.spd c.region) SPD_BIST_STATUS 24 8 + 1)
  else s1
/-- A region's rows with every word in its own place, as reads through the redirects show them (Table 4-5: a save reads the test
buffer). -/
def State.liveRows (s : State) (r : RegionNo) : State :=
  if (allCores r).any (fun c => (s.bistOf c).redirect.isSome) then
    (allCores r).foldl (fun (t : State) c => match (s.bistOf c).redirect with
      | some row => ((rowWords row).filter (s.bistOf c).holds).foldl (fun (u : State) w => u.bufBack c w) t
      | none => t) s
  else s
/-- Before Retention every row under test in a region is restored and released (R107). -/
def State.testsEnd (s : State) (r : RegionNo) : State :=
  if (allCores r).any (fun c => (s.bistOf c).active) then
    ((allCores r).foldl (fun (t : State) c => if (t.bistOf c).active then (t.testRestore c).testRelease c else t) s).bistBits r
  else s
/-- A clear of rows first to last - 1 of a slice drops the redirect of its test (Table 4-5, Table 4-6): a row that is cleared is
abandoned without restore, the test buffer cleared with it; another row gets its words back first. ROW returns to 0 (R107). -/
def State.testDrop (s : State) (c : CoreId) (first last : Nat) : State :=
  let b := s.bistOf c
  if b.active then
    let s1 := if first ≤ b.row ∧ b.row < last then s.bufClear c else s.testRestore c
    s1.setBist c { b with active := false, marks := [], row := 0 }
  else s.setBist c { b with row := 0 }

/-! ### Windows and master access (R97, R98) -/

/-- No core of the region is RUNNING or at a gate. -/
def State.coresStill (s : State) (r : RegionNo) : Bool :=
  (allCores r).all (fun c => let k := (s.core c).run; !(k == .running || k == .gate))
/-- A window word that R97 turns away. -/
def winBad (v : Word32) : Bool :=
  bitOf v 31 && (decide (bitsOf v 10 10 ≤ bitsOf v 0 9) || decide (512 < bitsOf v 10 10))
/-- Rows first to last - 1 of a core cleared: data and check bits zero; of a row that stays redirected, those of the test buffer. -/
def State.zeroRows (s : State) (c : CoreId) (first last : Nat) : State :=
  let s0 := match (s.bistOf c).redirect with
    | some row => if first ≤ row ∧ row < last then s.bufClear c else s
    | none => s
  { s0 with sram := tabClear s0.sram (sliceKey c (first * 4096)) (sliceKey c (last * 4096)),
            spdErr := tabClear s0.spdErr (wordKey c (first * 128)) (wordKey c (last * 128)),
            ueSeen := tabClear s.ueSeen (wordKey c (first * 128)) (wordKey c (last * 128)),
            writeBack := s.writeBack.filter (fun k => decide (k < wordKey c (first * 128)) ||
              decide (wordKey c (last * 128) ≤ k)) }
/-- The rows of a window whose stored class differs from the one it asks for. -/
def State.classRows (s : State) (c : CoreId) (v : Word32) : List Nat :=
  if bitOf v 31 then
    (List.range 512).filter (fun r => winCovers v r && s.cls c r != bitOf v 20)
  else []
/-- A row cleared and put into the other class (R98); a test of the row is abandoned (R107). -/
def State.flipRow (s : State) (c : CoreId) (act : Bool) (r : Nat) : State :=
  let s1 := ((if (s.bistOf c).active then s.testDrop c r (r + 1) else s)).zeroRows c r (r + 1)
  { s1 with rowCls := tabSet (fun _ => false) s1.rowCls (coreKey c * 512 + r) act }
/-- SPD_CLR_STATUS fields of a clear that has ended. -/
def State.clrEnd (s : State) (r : RegionNo) (st cause cycles : Nat) (retried : Bool) : State :=
  (((s.setFld (.spd r) SPD_CLR_STATUS 0 3 st).setFld (.spd r) SPD_CLR_STATUS 4 3 cause).setBit (.spd r) SPD_CLR_STATUS 9
    retried).setFld (.spd r) SPD_CLR_STATUS 16 16 (min cycles 0xFFFF)

/-- The defined bits of Table 4-3 and Table 4-4; reserved bits read as 0 (R8). -/
def winMask : Word32 := 0x801FFDFF
def maccMask : Word32 := 0x00FFFFFF

/-- A write of a window whose rows change class: they are cleared and put into the class, and then the write completes (R98). -/
def State.classWrite (s : State) (c : CoreId) (n : Fin 8) (v : Word32) : State :=
  let r := c.region
  let rows := s.classRows c v
  let put := fun (t : State) => (t.wr (.spd r) (SPD_WIN + c.pos.val * 0x20 + n.val * 4) (v &&& winMask)).answer []
  if rows = [] then put s
  else
    let s1 := rows.foldl (fun (t : State) row => t.flipRow c (bitOf v 20) row) s
    put (((s1.setFld (.spd r) SPD_BIST_STATUS 0 9 0).bistBits r).clrEnd r 3 4 (64 + 2 * rows.length) false)
/-- SPD_WIN_WRITE: by the region controller while no core runs; a bad window is a permission error. A change of class
clears the rows first, which the write waits for; while another clear is pending or in progress the region controller
is held, and the write is made when the engine has neither (R98). -/
def State.winWrite (s : State) (m : Master) (r : RegionNo) (k : CorePos) (n : Fin 8) (v : Word32) : State :=
  if m ≠ .regionController r ∨ !s.coresStill r ∨ winBad v then s.permissionError
  else
    let c : CoreId := { region := r, pos := k }
    if s.classRows c v ≠ [] && s.clearing r then
      { s with heldWins := s.heldWins ++ [{ region := r, pos := k, win := n, value := v }] }
    else s.classWrite c n v
/-- The clearing engine of a region has no clear left: the window writes that waited for it are made, in their order. -/
def State.heldRun (s : State) (r : RegionNo) : State :=
  if s.clearing r || !s.heldWins.any (fun h => h.region == r) then s
  else
    (s.heldWins.filter (fun h => h.region == r)).foldl (fun (t : State) h => t.classWrite { region := h.region, pos := h.pos } h.win h.value)
      { s with heldWins := s.heldWins.filter (fun h => h.region != r) }
def execSpdWinWrite (m : Master) (r : RegionNo) (k : CorePos) (n : Fin 8) (v : Word32) (s : State) : Out :=
  .next (s.winWrite m r k n v)

/-- SPD_MACC_WRITE: under the same conditions. -/
def State.maccWrite (s : State) (m : Master) (r : RegionNo) (i : Fin 10) (v : Word32) : State :=
  if m ≠ .regionController r ∨ !s.coresStill r then s.permissionError
  else (s.wr (.spd r) (SPD_MACC + 4 * i.val) (v &&& maccMask)).answer []
def execSpdMaccWrite (m : Master) (r : RegionNo) (i : Fin 10) (v : Word32) (s : State) : Out := .next (s.maccWrite m r i v)

/-! ### Clearing (R108 to R112) -/

def clrGet (t : Tab (Option Clear)) (r : RegionNo) : Option Clear := tabGet (fun _ => none) t r.val
def clrSet (t : Tab (Option Clear)) (r : RegionNo) (c : Option Clear) : Tab (Option Clear) := tabSet (fun _ => none) t r.val c
def causeNo : ClrCause → Nat
  | .request => 0
  | .wake => 1
  | .kill => 2
  | .move => 3
  | .classChange => 4
/-- The PENDING and CLEARING bits follow the engine. -/
def State.clrBits (s : State) (r : RegionNo) : State :=
  (s.setBit (.spd r) SPD_CLR_STATUS 3 ((clrGet s.clrNow r).isSome && (clrGet s.clrPend r).isSome)).setBit (.spd r)
    SPD_STATUS 0 (s.clearing r)
/-- A clear joins the engine as the pending one. -/
def State.clrPut (s : State) (r : RegionNo) (c : Clear) : State :=
  ({ s with clrPend := clrSet s.clrPend r (some c) }).clrBits r
/-- A clear caused by hardware is never refused; a pending request becomes a whole-region clear with its cause (R109). -/
def State.hwClear (s : State) (r : RegionNo) (cause : ClrCause) : State := s.clrPut r { whole := true, cause := cause }
/-- No core of the region but in IDLE, STOPPED, HALTED or FAULTED (R109). -/
def State.coresIdle (s : State) (r : RegionNo) : Bool :=
  (allCores r).all (fun c => let k := (s.core c).run; k == .idle || k == .stopped || k == .halted || k == .faulted)

/-- SPD_CLEAR_REQUEST: a write of SPD_CLR_CTRL by the region controller. -/
def State.clearRequest (s : State) (m : Master) (r : RegionNo) (v : Word32) : State :=
  if m ≠ .regionController r then s.permissionError
  else if !bitOf v 0 then s.answer []
  else
    let whole := bitOf v 1
    let bad := !whole && decide (bitsOf v 17 9 < bitsOf v 8 9)
    if bad || (clrGet s.clrPend r).isSome || !s.coresIdle r then (s.setW1c (.spd r) SPD_CLR_STATUS 7).answer []
    else (s.clrPut r { whole := whole, core := if bitOf v 26 then none else some (Fin.ofNat 64 (bitsOf v 2 6)),
                       first := if whole then 0 else bitsOf v 8 9, last := if whole then 511 else bitsOf v 17 9,
                       cause := .request }).answer []
def execSpdClearRequest (m : Master) (r : RegionNo) (v : Word32) (s : State) : Out := .next (s.clearRequest m r v)

/-- The cores a clear covers. -/
def clearCores (r : RegionNo) (c : Clear) : List CoreId :=
  match c.whole, c.core with
  | false, some p => [{ region := r, pos := p }]
  | _, _ => allCores r
/-- CLEAR_START: the pending clear begins; tests in progress on its slices are dropped (Table 4-5, Table 4-6, R107). Accesses that
waited for a bank are refused with it (R110). -/
def execClearStart (r : RegionNo) (s : State) : Out :=
  match clrGet s.clrNow r, clrGet s.clrPend r with
  | none, some c =>
    let s1 := { s with clrNow := clrSet s.clrNow r (some { c with since := s.now }), clrPend := clrSet s.clrPend r none }
    let s2 := (clearCores r c).foldl (fun t q => t.testDrop q c.first (c.last + 1)) s1
    let s3 := ((s2.setFld (.spd r) SPD_CLR_STATUS 0 3 1).setFld (.spd r) SPD_CLR_STATUS 4 3 (causeNo c.cause)).setFld
      (.spd r) SPD_BIST_STATUS 0 9 0
    let gone := s3.bankQ.filter (fun q => q.core.region == r)
    let s4 := gone.foldl (fun t q => t.refuseSlice q.master q.core (32 * q.word + q.first) (accBytes q.acc))
      { s3 with bankQ := s3.bankQ.filter (fun q => q.core.region != r) }
    -- R136, R180: the pipelines and the Courier of the region are cleared with the whole region.
    let s5 := if c.whole then (s4.atpClearStart r).couClearStart r else s4
    .next ((s5.clrBits r).bistBits r)
  | _, _ => .next s

/-- Every register of the SPD_ window but SPD_CLR_STATUS at its reset value (R111, R112), and no write of one still waits. -/
def State.spdReset (s : State) (r : RegionNo) : State :=
  let s1 := (s.resetWin (.spd r) 0 SPD_CLR_STATUS).resetWin (.spd r) (SPD_CLR_STATUS + 4) 0x10000
  { s1 with heldWins := s1.heldWins.filter (fun h => h.region != r) }
/-- Background-test state of a region back at reset. -/
def State.foldBist (s : State) (r : RegionNo) : State :=
  { s with bist := tabClear s.bist (r.val * 64) ((r.val + 1) * 64) }
/-- A region loses the contents of its cores: every register at reset, the accumulators zero, nothing queued (R57, R69, R88). -/
def State.dropCores (s : State) (r : RegionNo) : State :=
  { s with cores := tabClear s.cores (r.val * 64) ((r.val + 1) * 64),
           acc := tabClear s.acc (r.val * 64 * 0x40000) ((r.val + 1) * 64 * 0x40000),
           ueSeen := ueWritten (0x10000000 + r.val * 64 * 0x8000) (0x10000000 + (r.val + 1) * 64 * 0x8000)
             (ueWritten (0x40000000 + r.val * 64 * 0x10000) (0x40000000 + (r.val + 1) * 64 * 0x10000) s.ueSeen),
           bankQ := s.bankQ.filter (fun q => q.core.region != r) }
/-- The state of SPD_CLR_STATUS while a clear runs, by the cycles since its start (Table 4-6): the write pass, the verify pass, and both
once more. -/
def State.clearState (s : State) (r : RegionNo) (c : Clear) : Nat :=
  let n := c.last + 1 - c.first
  let k := s.cyclesSince r c.since
  if k < 64 + n ∨ (64 + 2 * n ≤ k ∧ k < 64 + 3 * n) then 1 else 2
/-- A clear was abandoned because its region enters Off (R111): the engine has none left. -/
def State.clearAbandon (s : State) (r : RegionNo) : State :=
  if s.clearing r then
    let s1 := (s.setW1c (.spd r) SPD_CLR_STATUS 8).setFld (.spd r) SPD_CLR_STATUS 0 3 0
    ({ s1 with clrNow := clrSet s1.clrNow r none, clrPend := clrSet s1.clrPend r none,
               heldWins := s1.heldWins.filter (fun h => h.region != r) }).clrBits r
  else s
/-- The Ledger record of a clear whose repeated verify fails, under the logical core index of the slice, without dye data (R110).
The spec does not say which slice where several fail: q is the one that the verify names (DESIGN CHOICE, log entry 122). -/
def State.clearFailRec (s : State) (q : CoreId) : State :=
  s.ledger { type := 1, detector := 0x05, dye := 0, severity := 4, region := q.region, core := some q.pos,
             lcoord := BitVec.ofNat 16 (s.ordinal q.region * 64 + q.pos.val) }
/-- The rows of a clear are zero; after a whole-slice clear every row is weight class (R98, R108). -/
def State.clearRows (s : State) (r : RegionNo) (c : Clear) : State :=
  let s1 := (clearCores r c).foldl (fun t q => t.zeroRows q c.first (c.last + 1)) s
  if c.whole then { s1 with rowCls := tabClear s1.rowCls (r.val * 64 * 512) ((r.val + 1) * 64 * 512) } else s1
/-- CLEAR_DONE: ok1 is the verdict of the first verify pass and ok2 the repeated one (Table 4-6). A clear that fails both marks the region failed (R110). A whole-region clear leaves every core register at its reset value
(R57, R88). -/
def execClearDone (r : RegionNo) (ok1 : Bool) (ok2 : VerifyPass) (s : State) : Out :=
  match clrGet s.clrNow r with
  | none => .next s
  | some c =>
    let n := c.last + 1 - c.first
    let s0 := if c.whole then s.dropCores r else s
    let s1 := { (s0.clearRows r c) with clrNow := clrSet s0.clrNow r none }
    let s2 := s1.clrEnd r (if ok1 || ok2.ok then 3 else 4) (causeNo c.cause) (64 + (if ok1 then 2 else 4) * n) (!ok1)
    let s3 := match c.cause with
      | .kill => (s2.spdReset r).foldBist r
      | .move => (s2.spdReset r).foldBist r
      | .wake => ((s2.spdReset r).foldBist r).setBit (.spd r) SPD_STATUS 3 true
      | _ => s2
    if ok1 || ok2.ok then .next ((s3.clrBits r).heldRun r)
    else
      .next (((({ (s3.setBit (.spd r) SPD_STATUS 4 true) with
          failedRgns := if r ∈ s3.failedRgns then s3.failedRgns else s3.failedRgns ++ [r] }.clrBits r)).heldRun r).clearFailRec
        { region := r, pos := ok2.bad })

/-! ### The background tester (R105 to R107) -/

/-- BIST_ROW_START: the tester of a slice redirects its next row to the test buffer. SPD_BIST_STATUS is one register for 64 testers: ROW
shows the row that a slice began last (DESIGN CHOICE, log entry 122). -/
def execBistRowStart (c : CoreId) (s : State) : Out :=
  let b := s.bistOf c
  if s.bit (.spd c.region) SPD_BIST_CTRL 0 && s.rgnActive c.region && !s.clearing c.region && !b.active &&
     b.failed.isNone then
    .next (((s.setBist c { b with active := true, marks := [] }).setFld (.spd c.region) SPD_BIST_STATUS 0 9 b.row).bistBits c.region)
  else .next s

/-- BIST_ROW_RELEASE: what is left of a row's test, in an Active region (R107: it pauses in Clock-gated). Copy: every word not yet
marked is copied to the buffer. March: it overwrites the row, and leaves it all zero. Then restore and release: every word is back, the
redirect ends; or, where the March test reads a value that it did not write, the buffer stands in for the row for good (R106). -/
def execBistRowRelease (c : CoreId) (marchOk : Bool) (s : State) : Out :=
  let b := s.bistOf c
  if !b.active || !s.rgnActive c.region then .next s
  else
    let copied := (rowWords b.row).foldl (fun (t : State) w => t.bufTake c w) s
    let marched : State := { copied with
      sram := tabClear copied.sram (sliceKey c (b.row * 4096)) (sliceKey c ((b.row + 1) * 4096)),
      spdErr := tabClear copied.spdErr (wordKey c (b.row * 128)) (wordKey c ((b.row + 1) * 128)) }
    if marchOk then .next (((marched.testRestore c).testRelease c).bistBits c.region)
    else
      let s1 := marched.setBist c { b with active := false, failed := some b.row }
      let s2 := (s1.setFld (.spd c.region) SPD_BIST_STATUS 16 6 c.pos.val).setBit (.spd c.region) SPD_BIST_STATUS 22 true
      .next ((s2.bistBits c.region).detectCore 0x06 c [b.row])

end Sys2Proof.Machine
end

