-- ==== Sys2Proof/Machine/Sessions.lean ====
section
/-! DEFINITION. Work items, sessions and completion records as the Innkeeper and the tier manager keep them (R204 to
R206, Tables 9-2, 9-5 and 9-6). -/

namespace Sys2Proof.Machine

/-! ### The fields of a work item (Table 9-2) -/

def Item.kind (i : Item) : Nat := bitsOf i.raw 0 4
def Item.cls (i : Item) : Nat := bitsOf i.raw 4 2
def Item.sample (i : Item) : Bool := bitOf i.raw 6
def Item.session (i : Item) : Nat := bitsOf i.raw 8 18
def Item.tag (i : Item) : Nat := bitsOf i.raw 32 32
/-- DEADLINE, rounded down to a multiple of 1,000. -/
def Item.deadline (i : Item) : Nat := bitsOf i.raw 64 64 / 1000 * 1000
def Item.nTok (i : Item) : Nat := bitsOf i.raw 128 16
def Item.topK (i : Item) : Nat := bitsOf i.raw 144 16
def Item.temp (i : Item) : Word32 := i.raw.extractLsb' 160 32
def Item.topP (i : Item) : Word32 := i.raw.extractLsb' 192 32
def Item.arg (i : Item) : Nat := bitsOf i.raw 224 32
def Item.addr (i : Item) : Word64 := i.raw.extractLsb' 256 64
def Item.seed (i : Item) : Word64 := i.raw.extractLsb' 320 64

/-! ### Sessions -/

def sessKey (d : Dye) (id : Nat) : Nat := d.val * 2 ^ 18 + id
def State.sess (s : State) (d : Dye) (id : Nat) : Option Session := tabGet (fun _ => none) s.sessions (sessKey d id)
def State.setSess (s : State) (d : Dye) (id : Nat) (x : Option Session) : State :=
  { s with sessions := tabSet (fun _ => none) s.sessions (sessKey d id) x }
/-- The open sessions of a dye. -/
def State.sessOf (s : State) (d : Dye) : List Session :=
  s.sessions.filterMap (fun e => if e.1 / 2 ^ 18 = d.val then e.2 else none)
/-- INN_D_SESSIONS follows the table. -/
def State.countSess (s : State) (d : Dye) : State := s.wrP .inn d INN_D_SESSIONS (BitVec.ofNat 32 (s.sessOf d).length)
/-- The admitted items of a session that have not had their last record (R206). -/
def State.sessItems (s : State) (d : Dye) (id : Nat) : List Item :=
  s.items.filter (fun i => i.dye == d && i.session == id)
def State.sessionBusy (s : State) (d : Dye) (id : Nat) : Bool := s.sessItems d id != []

/-! ### Completion records (Table 9-5) -/

/-- A record without the fields of one RTYPE alone. -/
def recordOf (rtype kind code : Nat) (fate tag session time deadline step : Nat) : Word512 :=
  BitVec.ofNat 512 (rtype + kind * 2 ^ 4 + code * 2 ^ 8 + fate * 2 ^ 17 + tag * 2 ^ 32 + session * 2 ^ 64 + time * 2 ^ 96 +
    deadline * 2 ^ 160 + step * 2 ^ 224)
/-- A record on its way to the completion ring. Records of a dye whose rings are off are discarded and counted
(R293). -/
def State.postRec (s : State) (p : PostRec) : State :=
  if s.bit (.vf p.dye) PCI_VF_STATUS 0 then { s with postQ := s.postQ ++ [p] }
  else s.bump (.vf p.dye) PCI_VF_LOST_RECORDS
/-- Completion entries given back. -/
def State.giveEntries (s : State) (d : Dye) (n : Nat) : State :=
  { s with cqReserved := natSet s.cqReserved d.val (natGet s.cqReserved d.val - n) }
/-- The step number in a record: all ones for work outside steps. -/
def Item.stepNo (i : Item) : Nat := (i.step.map BitVec.toNat).getD 0xFFFFFFFF
/-- A FAILURE of an item (Table 9-6): fate 0 ROLLED_BACK, 1 LATE_PENDING. -/
def State.postFailure (s : State) (i : Item) (code fate : Nat) : State :=
  let s1 := (s.postRec { dye := i.dye, data := recordOf 3 i.kind code fate i.tag i.session s.now i.deadline i.stepNo }).bumpP
    .inn i.dye INN_D_FAILED
  if code = 4 then s1.bumpP .inn i.dye INN_D_LATE else s1
/-- An EVENT record (Table 9-6). Where the 64 entries kept for events are full it is dropped and EVT_OVERFLOW set
(R291). -/
def State.postEventRec (s : State) (d : Dye) (code session : Nat) : State :=
  let used := (s.rd (.vf d) PCI_VF_CQ_TAIL - s.rd (.vf d) PCI_VF_CQ_HEAD).toNat + (s.postQ.filter (fun p => p.dye == d)).length
  let size := 2 ^ s.fld (.vf d) PCI_VF_CQ_SIZE 0 5
  if s.bit (.vf d) PCI_VF_STATUS 0 && decide (size ≤ used + natGet s.cqReserved d.val) then
    { (s.setW1c (.vf d) PCI_VF_STATUS 2) with hostTx := s.hostTx ++ [.msix d 2] }
  else s.postRec { dye := d, data := recordOf 4 code 0 0 0 session s.now 0 0xFFFFFFFF, event := true }

end Sys2Proof.Machine
end

