-- ==== Sys2Proof/Machine/Tiers.lean ====
section
/-! DEFINITION. Local HBM and the tier manager (R138 to R163): accesses, scrubbing, controller states, page tables in
field form, prefix handles, page moves, eviction, hints, and sessions that go cold. -/

namespace Sys2Proof.Machine

/-! ### HBM accesses and errors (R138 to R142) -/

/-- Whether every byte of a range of local HBM is reachable by a dye (R27, R140); frames decide. -/
def State.hbmRangeOk (s : State) (d : Dye) (write : Bool) (o n : Nat) : Bool :=
  decide (o + n ≤ 2 ^ 40) &&
  (List.range ((o + n - 1) / 65536 - o / 65536 + 1)).all (fun i => s.hbmReach d write (max o ((o / 65536 + i) * 65536)))
/-- HBM_ECC_LAST: the frame number within the stack's controller space, the owner, and whether it was uncorrectable. -/
def State.hbmLast (s : State) (h : Fin 8) (o : Nat) (ue : Bool) : State :=
  s.wr (.hbm h) HBM_ECC_LAST (BitVec.ofNat 32 (o / 65536 % 2 ^ 24 + (s.frame (o / 65536)).owner.val * 2 ^ 24
    + b2n ue * 2 ^ 28 + 2 ^ 31))
/-- A corrected unit: counted, written back (R139). -/
def State.hbmCorrected (s : State) (o : Nat) : State :=
  let h := hbmCtl o
  ((s.bump (.hbm h) HBM_ECC_CE).hbmLast h o false).detectUnit 0x10 (s.frame (o / 65536)).owner h.val [o / 65536 * 65536]
def State.markBad (s : State) (o : Nat) : State := { s with hbmBad := tabSet (fun _ => false) s.hbmBad (o / 64) true }
/-- A read of the unit at an offset reaches HBM: its granule is not STALE, its die is in service, its key slot is loaded. -/
def State.unitRead (s : State) (o : Nat) : Bool :=
  let f := s.frame (o / 65536)
  !(f.state != 4 && bitOf f.stale (o / 4096 % 16)) && !s.hbmFailed o &&
  !(f.held && !s.bit (.hbm (hbmCtl o)) HBM_KEYSLOTS (if f.state = 2 then 0 else f.owner.val))
/-- What the code shows in each 64-byte unit of a read, in order, meets the units that are read (R139). -/
def State.unitEccs (s : State) (o : Nat) : List EccOutcome → State
  | [] => s
  | e :: es =>
    let s1 := if !s.unitRead o then s else match e with
      | .clean => s
      | .corrected => s.hbmCorrected o
      | .uncorrectable => s.markBad o
    s1.unitEccs (o / 64 * 64 + 64) es

/-- An access to local HBM by a master of dye d. ecc says what the code shows in each unit that a read touches, in order; a unit without
an outcome is clean. -/
def State.hbmServe (s : State) (d : Dye) (a : Addr) (acc : Access) (ecc : List EccOutcome) : Out :=
  match s.place d a.toNat with
  | .hbm o =>
    match acc with
    | .read n =>
      if n = 0 then .next (s.answer [])
      else if !s.hbmRangeOk d false o n then .next (s.refuse (.vf d) a.toNat n)
      else
        let s0 := s.unitEccs o (ecc.take ((o + n - 1) / 64 - o / 64 + 1))
        let r := s0.hbmRead d o n
        .next (r.2.answer r.1.1 r.1.2)
    | .write bs =>
      if bs = [] then .next (s.answer [])
      else if !s.hbmRangeOk d true o bs.length then .next (s.refuse (.vf d) a.toNat 0)
      else .next ((s.hbmWrite o bs).answer [])
    | _ => .next (s.refuse (.vf d) a.toNat 8)
  | _ => .next (s.refuse (.vf d) a.toNat (match acc with | .read n => n | _ => 0))

/-- An armed injection of an HBM detector at a 64-byte unit that a read touches (R334). -/
def State.hbmAimed (s : State) (a : Nat) (acc : Access) : Bool :=
  let d := s.fld .inj INJ_DETECTOR 0 8
  let u := (s.rd64 .inj INJ_ADDR_L).toNat / 64
  s.bit .inj INJ_STATUS 1 && (d == 0x10 || d == 0x11) &&
  (match acc with | .read n => decide (a / 64 ≤ u) && decide (u * 64 < a + n) | _ => false)
/-- HBM_ACCESS: a read or a write of local HBM by a master of dye d. An injection that falls due changes what this read sees and
leaves the stored data as they are. -/
def execHbmAccess (d : Dye) (a : Addr) (acc : Access) (ecc : List EccOutcome) (s : State) : Out :=
  if !s.hbmAimed a.toNat acc then s.hbmServe d a acc ecc
  else
    let due := s.injDue
    if !due.1 then due.2.hbmServe d a acc ecc
    else
      let hit : EccOutcome := if s.fld .inj INJ_DETECTOR 0 8 = 0x10 then .corrected else .uncorrectable
      match due.2.hbmServe d a acc (takePad .clean ((s.rd64 .inj INJ_ADDR_L).toNat / 64 - a.toNat / 64) ecc ++ [hit]) with
      | .next t => .next (({ t with hbmBad := s.hbmBad } : State).injMark s.ldgIngress.length).injFired
      | o => o

/-- The HBM offset of unit u of a controller: the mapping of R138, backwards. -/
def unitOffset (h : Fin 8) (u : Nat) : Nat :=
  let up := u / 64 % 2 ^ 25
  h.val / 4 * 2 ^ 39 + up * 2 ^ 14 + Nat.xor (h.val % 4) (up / 64 % 4) * 4096 + u % 64 * 64
/-- HBM_SCRUB_TICK: the patrol scrubber reads its next unit. -/
def execHbmScrubTick (h : Fin 8) (ecc : EccOutcome) (s : State) : Out :=
  if s.fld (.hbm h) HBM_STATUS 0 2 ≠ 1 then .next s
  else
    let u := natGet s.scrubAt h.val
    let o := unitOffset h u
    let s1 := { s with scrubAt := natSet s.scrubAt h.val ((u + 1) % 2 ^ 31) }
    match ecc with
    | .clean => .next s1
    | .corrected => .next (s1.hbmCorrected o)
    | .uncorrectable =>
      .next ((((s1.markBad o).bump (.hbm h) HBM_ECC_UE).hbmLast h o true).detectUnit 0x11
        (s.frame (o / 65536)).owner h.val [o / 65536 * 65536])

/-- A controller may enter self-refresh (R304): no access for 100 µs, and every region of its die Off. -/
def State.hbmQuiet (s : State) (h : Fin 8) : Bool :=
  decide (natGet s.hbmAt h.val + 100000 ≤ s.now + 1) &&
  allRegions.all (fun r => regionDie r != h.val / 4 || s.rgnState r == 3 || s.rgnState r == 6)
/-- HBM_SELF_REFRESH_ENTRY: from RUNNING, where the controller is quiet. -/
def execHbmSelfRefreshEntry (h : Fin 8) (s : State) : Out :=
  if s.fld (.hbm h) HBM_STATUS 0 2 = 1 ∧ s.hbmQuiet h then .next (s.setFld (.hbm h) HBM_STATUS 0 2 2).pkgFollow else .next s
/-- HBM_SELF_REFRESH_EXIT: the next access has come. -/
def execHbmSelfRefreshExit (h : Fin 8) (s : State) : Out := .next (s.hbmAwake h)

/-! ### Frames and pools -/

/-- What a page held in a tier occupies is given back: a frame becomes FREE, a host buffer is no longer used. -/
def State.dropPage (s : State) (d : Dye) (p : Pte) : State :=
  match p.tier with
  | 1 => s.freeFrame (p.frame.toNat % 2 ^ 24)
  | 3 =>
    let s1 := s.useFrames d 3 false
    { s1 with hostBufs := (List.zipIdx s1.hostBufs).map (fun e =>
      if e.2 = p.frame.toNat ∧ e.1.dye = d then { e.1 with used := false } else e.1) }
  | t => s.useFrames d t false

/-! ### Prefix records (R147 to R150) -/

/-- The handle of a record (Table 6-5). -/
def State.handleOf (s : State) (d : Dye) (i : Nat) : Word64 :=
  let low := i % 2 ^ 32 + (s.prefixRec d i).gen % 65536 * 2 ^ 32 + d.val * 2 ^ 48
  BitVec.ofNat 64 (low + (Config.handleCheck (s.keyNo d) low).toNat * 2 ^ 52)
/-- R147: the record index that a handle names, if it is valid for the dye. -/
def State.handleIndex (s : State) (d : Dye) (h : Word64) : Option Nat :=
  let i := bitsOf h 0 32
  if bitsOf h 48 4 = d.val ∧ (s.prefixRec d i).live ∧ h = s.handleOf d i ∧ !(s.prefixRec d i).released then some i
  else none
/-- A page whose entry goes away: what it occupies is given back, or, where a move of it runs, the move finishes the page in progress and
the page is then freed (Table 6-6). -/
def State.retirePage (s : State) (d : Dye) (p : Pte) (mine : PageMove → Bool) : State :=
  if p.busy && s.pageMoves.any mine then
    { s with pageMoves := s.pageMoves.map (fun m => if mine m then { m with orphan := some p } else m) }
  else s.dropPage d p
/-- A record and its shared pages freed when its count reaches 0 (R150). -/
def State.freePrefix (s : State) (d : Dye) (i : Nat) : State :=
  let mine := s.shared.filterMap (fun e =>
    if e.1 / 2 ^ 32 = d.val then (match e.2 with
      | some p => if p.prefixIdx.toNat = i then some (e.1, p) else none
      | none => none) else none)
  let s1 := mine.foldl (fun t e => (t.retirePage d e.2 (fun m => m.dye == d && m.session.isNone && m.page == e.1 % 2 ^ 32)).setShared
    e.1 none) s
  (s1.dirFree (s.prefixRec d i).dir).setPrefix d i { gen := (s.prefixRec d i).gen, retired := (s.prefixRec d i).retired }
/-- A reference given back. -/
def State.derefPrefix (s : State) (d : Dye) (i : Nat) : State :=
  let p := s.prefixRec d i
  if p.count ≤ 1 then s.freePrefix d i else s.setPrefix d i { p with count := p.count - 1 }
/-- The references of a session given back: by a close, or as it goes cold (R150). -/
def State.derefSession (s : State) (d : Dye) (slot : Nat) : State :=
  let mine := s.prefixRefs.filter (fun r => r.1 == d && r.2.1 == slot)
  let s1 := mine.foldl (fun t r => t.derefPrefix d r.2.2) s
  { s1 with prefixRefs := s1.prefixRefs.filter (fun r => !(r.1 == d && r.2.1 == slot)) }
/-- Every frame and table of a session freed (R141, R144). -/
def State.freeTables (s : State) (d : Dye) (slot : Nat) : State :=
  let s0 : State := (s.sessionPtes d slot).foldl (fun t e =>
    (if e.2.ro then t else t.retirePage d e.2 (fun m => m.dye == d && m.session == some slot && m.layer == pteLayer e.1 &&
      m.page == ptePage e.1)).setPte e.1 none) s
  let s1 := match s0.ctx d slot with
    | none => s0
    | some c => (s0.dirFree c.dir).setCtx d slot (some { c with dir := {} })
  { (s1.derefSession d slot) with
    hints := s1.hints.filter (fun h => !(h.dye == d && h.session == slot)),
    pins := s1.pins.filter (fun p => !(p.dye == d && p.session == slot)),
    admitted := s1.admitted.filter (fun p => p ≠ (d, slot)),
    forkWait := s1.forkWait.filter (fun w => !(w.dye == d && w.slot == slot)) }
/-- COLD set in every entry of a session at once (R156). -/
def State.markCold (s : State) (d : Dye) (slot : Nat) : State :=
  match s.ctx d slot with
  | none => s
  | some c =>
    let s1 := (s.sessionPtes d slot).foldl (fun (t : State) e => t.setPte e.1 (some { e.2 with cold := true })) s
    (s1.setCtx d slot (some { ((s1.ctx d slot).getD c) with cold := true })).bumpP .tier d TIER_D_COLD
/-- A session goes cold (R156): COLD is set in its entries, and through the front package every package frees its frames and tables and
gives its references back; the front posts one COLD event. -/
def State.goCold (s : State) (d : Dye) (slot : Nat) : State :=
  match s.ctx d slot with
  | none => s
  | some c =>
    if c.cold then s
    else if s.isFront d then
      let s1 := (s.markCold d slot).freeTables d slot
      let s2 := (s1.setSess d c.id ((s1.sess d c.id).map (fun x => { x with cold := true }))).postEventRec d 1 c.id
      let others := ((s.pkgTable d).map (·.slot)).filter (· ≠ s.slot)
      { s2 with linkTx := s2.linkTx ++ others.map (fun sl => LinkOut.control sl (.cold d slot)) }
    else
      let s1 := s.markCold d slot
      { s1 with linkTx := s1.linkTx ++ [.control ((s.slotOf d 0).getD s.slot) (.cold d slot)] }
/-- The front package says that a session is cold, or hears so from another package. -/
def State.coldArrives (s : State) (d : Dye) (slot : Nat) : State :=
  if s.isFront d then s.goCold d slot
  else
    match s.ctx d slot with
    | none => s
    | some c => (if c.cold then s else s.markCold d slot).freeTables d slot
/-- The sessions that hold a page the test names, directly or through a shared page. -/
def State.sessionsWith (s : State) (test : Dye → Pte → Bool) : List (Dye × Nat) :=
  (s.ptes.filterMap (fun e => e.2.bind (fun p =>
    let d := pteDye e.1
    let hit := if p.ro then ((s.sharedPte d p.frame.toNat).map (test d)).getD false else test d p
    if hit then some (d, pteSlot e.1) else none))).dedup

/-- Pages that a test names are lost: their sessions go cold, and a shared page of a prefix goes with what it occupies; the prefix's
handle names no complete prefix any more (R156; log entry 131). -/
def State.losePages (s : State) (test : Dye → Pte → Bool) : State :=
  let s1 := (s.sessionsWith test).foldl (fun (t : State) e => t.goCold e.1 e.2) s
  s1.shared.foldl (fun (t : State) e => match e.2 with
    | none => t
    | some p =>
      let d : Dye := Fin.ofNat 16 (e.1 / 2 ^ 32)
      if !test d p then t
      else
        let i := p.prefixIdx.toNat
        let u := (t.retirePage d p (fun m => m.dye == d && m.session.isNone && m.page == e.1 % 2 ^ 32)).setShared e.1 none
        u.setPrefix d i { (u.prefixRec d i) with lost := true }) s1
/-- A controller fails (R163): every frame on the die becomes unusable and its pages are lost. -/
def State.controllerFailed (s : State) (h : Fin 8) : State :=
  ((s.setFld (.hbm h) HBM_STATUS 0 2 3).detectUnit 0x12 0 h.val).losePages
    (fun _ p => decide (p.tier = 1) && decide (p.frame.toNat % 2 ^ 24 / 2 ^ 23 = h.val / 4))

/-! ### The TIER_ commands (R148, R150, R154, Table 6-8) -/

/-- TIER_D_RESULT0: a status with DONE. -/
def State.tierDone (s : State) (d : Dye) (status : Nat) : State := s.wrP .tier d TIER_D_RESULT0 (BitVec.ofNat 32 (status + 256))
def tOK : Nat := 0
def tBADHANDLE : Nat := 1
def tNOSPACE : Nat := 2
def tBUSY : Nat := 3
def tINUSE : Nat := 4
def tBADCMD : Nat := 5
/-- A command of the dye is not finished; a further push is refused with BUSY. -/
def State.tierBusy (s : State) (d : Dye) : Bool := s.publishing.any (fun p => p.1 == d)
/-- The lowest index that may be issued (R150). -/
def State.freeIndex (s : State) (d : Dye) : Nat :=
  ((List.range (s.prefixes.length + 1)).find? (fun i => !(s.prefixRec d i).live && !(s.prefixRec d i).retired)).getD 0
/-- The other packages of a partition. -/
def State.peers (s : State) (d : Dye) : List SlotNo := ((s.pkgTable d).map (·.slot)).filter (· ≠ s.slot)
/-- A message of the tier managers or the Innkeepers to every other package of the partition. -/
def State.tellPeers (s : State) (d : Dye) (kind : Nat) (data : List Nat) : State :=
  { s with linkTx := s.linkTx ++ (s.peers d).map (fun sl => .innkeeper sl kind (d.val :: data)) }

/-- A control message to every other package of a partition. -/
def State.tellAll (s : State) (d : Dye) (m : ControlMsg) : State :=
  { s with linkTx := s.linkTx ++ (s.peers d).map (fun sl => LinkOut.control sl m) }

/-- PUBLISH at the front package: checked, an index taken, and the command passed to every package. -/
def execPublish (d : Dye) (session : BitVec 16) (len : Nat) (s : State) : Out :=
  if s.tierBusy d then .next (s.tierDone d tBUSY)
  else if !s.isFront d then
    .next { s with linkTx := s.linkTx ++ [.innkeeper ((s.slotOf d 0).getD s.slot) 2 [d.val, session.toNat, len]] }
  else
    match s.ctx d session.toNat with
    | none => .next (s.tierDone d tBADCMD)
    | some c =>
      if len = 0 ∨ c.len < len ∨ c.cold then .next (s.tierDone d tBADCMD)
      else if s.sessionBusy d c.id then .next (s.tierDone d tBUSY)
      else
        let i := s.freeIndex d
        .next (({ s with publishing := s.publishing ++ [(d, i)] }.wrP .tier d TIER_D_RESULT0 0).tellPeers d 3
          [session.toNat, len, i])

/-- The bytes of a page where it lies, and whether the read is poisoned. Of tiers 2 and 3 it is what this package stored there. -/
def farKey (tier frame : Nat) : Nat := (tier * 2 ^ 32 + frame) * 65536
def State.pageBytes (s : State) (d : Dye) (p : Pte) : (List Byte × Bool) × State :=
  match p.tier with
  | 0 => (match s.place d (p.frame.toNat * 65536) with
      | .slice c o => s.sliceRead c o 65536
      | _ => ((List.replicate 65536 0xFF, true), s))
  | 1 => s.hbmRead d (p.frame.toNat % 2 ^ 24 * 65536) 65536
  | t => ((tabGetList byteReset s.farPages (farKey t p.frame.toNat) 65536, false), s)
/-- A partial page copied into a fresh frame on a die, with TOKENS_VALID set (R148, R149). A poisoned page leaves a poisoned copy. -/
def State.copyPage (s : State) (d : Dye) (p : Pte) (die : Fin 2) (valid : Nat) : Option Word32 × State :=
  let t := s.takeFrame d die 0
  match t.1 with
  | none => (none, t.2)
  | some f =>
    let r := t.2.pageBytes d p
    let bytes := (r.1.1.take (kvHeaderAt + 4)) ++ leBytes valid 2 ++ r.1.1.drop (kvHeaderAt + 6)
    let u := r.2.hbmWrite (f * 65536) bytes
    (some (BitVec.ofNat 32 (0x1000000 + f)),
      if r.1.2 then { u with hbmBad := tabSetList (fun _ => false) u.hbmBad (f * 1024) (List.replicate 1024 true) } else u)
/-- The page tables of a session below LEN become shared pages of a prefix (R148, steps 1 and 2); a move of a page goes on under its
shared index. Answers whether frames sufficed, the prefix's own table, and the earlier prefixes whose pages pass into it. -/
def State.sharePages (s : State) (d : Dye) (index len : Nat) (home : Fin 2) :
    List (Nat × Pte) → Nat → (Bool × List (Nat × Nat × Nat) × List Nat) × State
  | [], _ => ((true, [], []), s)
  | (k, p) :: rest, next =>
    let page := ptePage k
    if p.ro ∧ page * 256 < len then
      let old := ((s.sharedPte d p.frame.toNat).map (fun q => q.prefixIdx.toNat)).getD 0
      let t := s.sharePages d index len home rest next
      ((t.1.1, (pteLayer k, page, p.frame.toNat) :: t.1.2.1, old :: t.1.2.2), t.2)
    else if (page + 1) * 256 ≤ len then
      let s1 := (s.setShared (sharedKey d next) (some { p with prefixIdx := BitVec.ofNat 32 index })).setPte k
        (some { ro := true, frame := BitVec.ofNat 32 next, touch := p.touch })
      let s2 : State := { s1 with pageMoves := s1.pageMoves.map (fun m =>
        if m.dye = d ∧ m.session = some (pteSlot k) ∧ m.layer = pteLayer k ∧ m.page = page then
          { m with session := none, layer := 0, page := next } else m) }
      let t := s2.sharePages d index len home rest (next + 1)
      ((t.1.1, (pteLayer k, page, next) :: t.1.2.1, t.1.2.2), t.2)
    else if page * 256 < len then
      let c := s.copyPage d p home (len % 256)
      match c.1 with
      | none => ((false, [], []), c.2)
      | some f =>
        let q : Pte := { tier := 1, frame := f, touch := p.touch, prefixIdx := BitVec.ofNat 32 index }
        let s1 := c.2.setShared (sharedKey d next) (some q)
        let t := s1.sharePages d index len home rest (next + 1)
        ((t.1.1, (pteLayer k, page, next) :: t.1.2.1, t.1.2.2), t.2)
    else s.sharePages d index len home rest next
/-- A prefix's own tables, whose entries are RO (R148, step 3). -/
def State.layPrefix (s : State) (d : Dye) (home : Fin 2) (table : List (Nat × Nat × Nat)) : TabDir × State :=
  table.foldl (fun (a : TabDir × State) e =>
    a.2.dirSet d home a.1 e.1 e.2.1 (some { ro := true, frame := BitVec.ofNat 32 e.2.2 })) ({}, s)
/-- The first shared-page index above every listed one. -/
def State.nextShared (s : State) (d : Dye) : Nat :=
  s.shared.foldl (fun a e => if e.1 / 2 ^ 32 = d.val then max a (e.1 % 2 ^ 32 + 1) else a) 0

/-- A prefix released (R150): its generation rises and its handle's reference is given back; at generation 0xFFFF the index is
retired. -/
def State.releasePrefix (s : State) (d : Dye) (i : Nat) : State :=
  let p := s.prefixRec d i
  (s.setPrefix d i { p with gen := if p.gen = 0xFFFF then p.gen else p.gen + 1, released := true,
                            retired := p.retired || p.gen == 0xFFFF }).derefPrefix d i
/-- A package had no frames for a prefix: the front package answers NO_SPACE, and the prefix goes from every package. -/
def State.publishFails (s : State) (d : Dye) (i : Nat) : State :=
  if s.publishing.contains (d, i) then
    let s1 := ({ s with publishing := s.publishing.filter (fun p => p ≠ (d, i)) } : State).tierDone d tNOSPACE
    (if (s.prefixRec d i).live then s1.releasePrefix d i else s1).tellAll d (.released d i)
  else s
/-- PUBLISH_AT_PACKAGE: the three steps of R148 on this package. -/
def execPublishAtPackage (d : Dye) (session : BitVec 16) (len : Nat) (index : Word32) (s : State) : Out :=
  let i := index.toNat
  match s.ctx d session.toNat with
  | none => .next s
  | some c =>
    if (s.prefixRec d i).live then .next s
    else
      let t := s.sharePages d i len c.home (s.sessionPtes d session.toNat) (s.nextShared d)
      if !t.1.1 then
        .next (if s.isFront d then s.publishFails d i
          else { s with linkTx := s.linkTx ++ [.control ((s.slotOf d 0).getD s.slot) (.publishFailed d i)] })
      else
        let olds := t.1.2.2.dedup
        let s1 := olds.foldl (fun u o => u.setPrefix d o { (u.prefixRec d o) with count := (u.prefixRec d o).count + 1 }) t.2
        let r := s1.layPrefix d c.home t.1.2.1
        let q : PrefixRec := { live := true, len := len, gen := (s.prefixRec d i).gen, count := 2, table := t.1.2.1, home := c.home,
                               dir := r.1 }
        .next { (r.2.setPrefix d i q) with
          prefixRefs := r.2.prefixRefs ++ [(d, session.toNat, i)] ++ olds.map (fun o => (d, session.toNat, o)) }

/-- PUBLISH_RESULT: the front package returns the handle, or NO_SPACE. -/
def execPublishResult (d : Dye) (index : Word32) (s : State) : Out :=
  let i := index.toNat
  if s.publishing.contains (d, i) then
    let s1 := { s with publishing := s.publishing.filter (fun p => p ≠ (d, i)) }
    if (s.prefixRec d i).live then
      let h := s.handleOf d i
      .next (((s1.wrP .tier d TIER_D_RESULT (BitVec.ofNat 32 (bitsOf h 0 32))).wrP .tier d (TIER_D_RESULT + 4)
        (BitVec.ofNat 32 (bitsOf h 32 32))).tierDone d tOK)
    else .next (s1.tierDone d tNOSPACE)
  else .next s

/-- RELEASE: carried out by the front package, which passes it to the others; another package passes a valid handle to it. -/
def execRelease (d : Dye) (handle : Word64) (s : State) : Out :=
  if s.tierBusy d then .next (s.tierDone d tBUSY)
  else
    match s.handleIndex d handle with
    | none => .next (s.tierDone d tBADHANDLE)
    | some i =>
      if s.isFront d then .next (((s.releasePrefix d i).tellAll d (.released d i)).tierDone d tOK)
      else .next (({ s with linkTx := s.linkTx ++ [.control ((s.slotOf d 0).getD s.slot) (.release d handle)] } : State).tierDone d tOK)

/-- ADD_HOST_BUFFER: a 64 KiB-aligned host address. -/
def execAddHostBuffer (d : Dye) (a : Word64) (s : State) : Out :=
  if s.tierBusy d then .next (s.tierDone d tBUSY)
  else if a.toNat % 65536 ≠ 0 ∨ s.hostBufs.any (fun b => b.dye == d && b.addr == a) then .next (s.tierDone d tBADCMD)
  else .next (({ s with hostBufs := s.hostBufs ++ [{ dye := d, addr := a }] } : State).tierDone d tOK)
/-- WITHDRAW_HOST_BUFFER: refused with IN_USE while the buffer holds a page. -/
def execWithdrawHostBuffer (d : Dye) (a : Word64) (s : State) : Out :=
  if s.tierBusy d then .next (s.tierDone d tBUSY)
  else
    match s.hostBufs.find? (fun b => b.dye == d && b.addr == a) with
    | none => .next (s.tierDone d tBADCMD)
    | some b =>
      if b.used then .next (s.tierDone d tINUSE)
      else
        let bufs := s.hostBufs.map (fun x => if x.dye = d ∧ x.addr = a then { x with addr := 0, dye := 0 } else x)
        .next (({ s with hostBufs := bufs } : State).tierDone d tOK)

/-! ### Page moves (R143, R151, R153, R156 to R159) -/

/-- The TIERS data of this package's slot in the active system image. -/
def State.tierEntry (s : State) : Option TierEntry :=
  match s.sysImage with
  | none => none
  | some i => (i.sections.flatMap (fun x => match x.body with | .tiers es => es | _ => [])).find? (fun e => e.slot == s.slot)
/-- Where granule n of tier 2 lies (R151): the donor's slot and its local offset. -/
def granuleAt (t : TierEntry) (n : Nat) : SlotNo × Nat :=
  (t.donors.getD (n % t.donors.length) 0, t.dbase + n / t.donors.length * 4096)
def segBytes : Nat := 2097152
/-- The donors of a tier-2 frame's granules (R151): slot and segment number. -/
def frameSegs (t : TierEntry) (frame : Nat) : List (SlotNo × Nat) :=
  ((List.range 16).map (fun g => let w := granuleAt t (16 * frame + g); (w.1, w.2 / segBytes))).dedup
/-- The tier manager leases the next segment of every donor (R152, R299). The spec gives the lease's length no value: a free
one within R299's bounds (log entry 62). -/
def State.borrow (s : State) : State :=
  match s.tierEntry with
  | none => s
  | some t => t.donors.dedup.foldl (fun (u : State) sl =>
      let n := (u.leases.filter (fun (x : LeaseHeld) => x.tier && x.slot == sl)).length
      let ofs := t.dbase + n * segBytes
      if u.fabReqs.any (fun q => q.dst == sl && q.packet.op == 6 && q.issuer == .tier) then u
      else
        let dr := u.draw
        (dr.2.fabRequest { op := 6, dye := 0, srcSlot := u.slot, dstSlot := sl, offset := BitVec.ofNat 40 ofs,
                           operand0 := BitVec.ofNat 64 (100 + Config.freeNat dr.1 % 9999901) } .tier).2) s
/-- Donors have vanished: every page with a granule on one of them is lost (R152). -/
def State.loseDonors (s : State) (gone : List SlotNo) : State :=
  match s.tierEntry with
  | none => s
  | some t =>
    if !t.donors.any (fun a => gone.contains a) then s
    else s.losePages (fun _ p => p.tier == 2 && (frameSegs t p.frame.toNat).any (fun w => gone.contains w.1))
/-- The tweak of R153. -/
def tierTweak (tier slot n : Nat) : Nat := tier * 2 ^ 56 + slot * 2 ^ 48 + n
/-- A page's 16 granules sent to their donors under dye 0 (R299), or to a host buffer, encrypted under the dye's transit
key. -/
def State.sendPage (s : State) (d : Dye) (tier frame : Nat) (bytes : List Byte) : State :=
  let part := fun (g : Nat) => Config.xts (s.keyNo d) (tierTweak tier s.slot.val (16 * frame + g)) ((bytes.drop (4096 * g)).take 4096)
  if tier = 2 then
    match s.tierEntry with
    | none => s
    | some t => (List.range 16).foldl (fun u g =>
        let w := granuleAt t (16 * frame + g)
        (u.fabRequest { op := 2, dye := 0, srcSlot := s.slot, dstSlot := w.1, offset := BitVec.ofNat 40 w.2, countM1 := 31,
                        payload := part g } .tier).2) s
  else
    match s.hostBufs[frame]? with
    | none => s
    | some b => { s with hostTx := s.hostTx ++ [.write d b.addr ((List.range 16).flatMap part)] }
/-- The reads of a promotion (R151). -/
def State.askPage (s : State) (d : Dye) (tier frame : Nat) : State :=
  if tier = 2 then
    match s.tierEntry with
    | none => s
    | some t => (List.range 16).foldl (fun u g =>
        let w := granuleAt t (16 * frame + g)
        (u.fabRequest { op := 1, dye := 0, srcSlot := s.slot, dstSlot := w.1, offset := BitVec.ofNat 40 w.2, countM1 := 31 }
          .tier).2) s
  else if tier = 3 then
    match s.hostBufs[frame]? with
    | none => s
    | some b => { s with hostTx := s.hostTx ++ [.read d b.addr 65536] }
  else s
/-- A page's entry, and its entry put back. -/
def State.movePte (s : State) (m : PageMove) : Option Pte :=
  match m.session with
  | some slot => s.pte m.dye slot m.layer m.page
  | none => s.sharedPte m.dye m.page
def State.setMovePte (s : State) (m : PageMove) (p : Pte) : State :=
  match m.session with
  | some slot => s.setPte (pteKey m.dye slot m.layer m.page) (some p)
  | none => s.setShared (sharedKey m.dye m.page) (some p)
/-- The sessions whose page a move's page is. -/
def State.moveSessions (s : State) (m : PageMove) : List (Dye × Nat) :=
  match m.session with
  | some slot => [(m.dye, slot)]
  | none => (s.ptes.filterMap (fun e => e.2.bind (fun p =>
      if p.ro ∧ pteDye e.1 = m.dye ∧ p.frame.toNat = m.page then some (m.dye, pteSlot e.1) else none))).dedup
/-- A running step is in its attention phase and its work reads the session's pages. -/
def State.attending (s : State) (d : Dye) (slot : Nat) : Bool :=
  s.plans.any (fun q => q.running && q.plan.dye == d && q.plan.work.any (fun w => w.1 == slot) &&
    (s.regionsOf d).any (fun r => tabGet (fun _ => false) s.prefillLane r.val == q.plan.lane && s.atpPhase r == 2))
/-- A move begins: the page is BUSY, and the reads of a promotion leave. No move begins in an attention phase on the same frames
(R143). -/
def State.startMove (s : State) (m : PageMove) : State :=
  match s.movePte m with
  | none => s
  | some p =>
    if p.busy || (s.moveSessions m).any (fun x => s.attending x.1 x.2) then s
    else
      let s1 := s.setMovePte m { p with busy := true }
      ({ s1 with pageMoves := s1.pageMoves ++ [m] }).askPage m.dye m.fromTier p.frame.toNat
/-- A page that is lost: its sessions go cold, and a shared page goes with what it occupies (R153, R156). -/
def State.losePage (s : State) (m : PageMove) : State :=
  let s1 := (s.moveSessions m).foldl (fun t e => t.goCold e.1 e.2) s
  match m.session with
  | some _ => s1
  | none =>
    match s1.sharedPte m.dye m.page with
    | none => s1
    | some p =>
      let u := (s1.dropPage m.dye p).setShared (sharedKey m.dye m.page) none
      u.setPrefix m.dye p.prefixIdx.toNat { (u.prefixRec m.dye p.prefixIdx.toNat) with lost := true }

/-- The windows of a core that a dye's image marks for KV: each with its number, where the core's live window is the image's
(Table 10-6). -/
def State.kvWins (s : State) (d : Dye) (cls : Option Nat) (c : CoreId) : List Nat :=
  (List.range 8).filter (fun n =>
    (((tabGet (fun _ => none) s.images d.val).map (fun (i : Image) => i.sections)).getD []).any (fun x => match x.body with
      | .coremap _ k _ _ cs => (cls.getD k.toNat == k.toNat) && cs.any (fun e => e.pkgOrd == s.pkgOrd d && e.rgnOrd == s.ordinal c.region &&
          e.pos == c.pos && bitOf e.kvMask n && e.windows.getD n 0 == s.win c n && winValid (s.win c n))
      | _ => false))
/-- The image keeps a class's pages in scratchpad (R143). -/
def State.kvClass (s : State) (d : Dye) (cls : Nat) : Bool :=
  (s.regionsOf d).any (fun r => (allCores r).any (fun c => s.kvWins d (some cls) c != []))
/-- Tier-0 frames of a dye here: rows of the windows marked for KV, 16 to a frame. -/
def State.kvFrames (s : State) (d : Dye) : Nat :=
  if d = 0 ∨ (tabGet (fun _ => none) s.images d.val).isNone then 0 else
  ((s.regionsOf d).map (fun r => ((allCores r).map (fun c => ((s.kvWins d none c).map (fun n =>
    (bitsOf (s.win c n) 10 10 - bitsOf (s.win c n) 0 9) / 16)).sum)).sum)).sum
/-- The entries of this package's pages, session and shared, with their dyes. -/
def State.allPages (s : State) : List (Dye × Pte) :=
  s.ptes.filterMap (fun e => e.2.bind (fun p => if p.ro then none else some (pteDye e.1, p))) ++
  s.shared.filterMap (fun e => e.2.map (fun p => (Fin.ofNat 16 (e.1 / 2 ^ 32), p)))
/-- No page lies at a place of a tier. -/
def State.placeFree (s : State) (d : Dye) (tier : Nat) (dest : Word32) : Bool :=
  !(s.allPages).any (fun e => e.2.tier == tier && e.2.frame == dest && (tier != 0 || e.1 == d))
/-- The die of a page: its session's home, or its prefix's (R138). -/
def State.homeOf (s : State) (m : PageMove) : Fin 2 :=
  match m.session with
  | some slot => ((s.ctx m.dye slot).map (·.home)).getD 0
  | none => ((s.sharedPte m.dye m.page).map (fun p => (s.prefixRec m.dye p.prefixIdx.toNat).home)).getD 0
/-- Where a page goes can take it: 16 whole rows of a window marked for KV; a FREE frame of tier 1 on its die; leased segments of
donors, or a host buffer of the dye, that hold no page, while this package has fewer than 4,194,304 pages in those tiers (R153). -/
def State.destOk (s : State) (m : PageMove) (dest : Word32) : Bool :=
  let far := decide (((List.finRange 16).map (fun d => s.tierUsed d 2 + s.tierUsed d 3)).sum < 4194304) || decide (1 < m.fromTier)
  match m.toTier with
  | 0 => (match s.place m.dye (dest.toNat * 65536) with
      | .slice c o => s.placeFree m.dye 0 dest && (List.range 16).all (fun k =>
          (s.kvWins m.dye none c).any (fun n => winCovers (s.win c n) (rowOf o + k)))
      | _ => false)
  | 1 => decide (dest.toNat / 2 ^ 24 = 1) && (s.frame (dest.toNat % 2 ^ 24)).state == 0 &&
      decide (dest.toNat / 2 ^ 23 % 2 = (s.useDie (s.homeOf m)).val) && !s.dieFailed (dest.toNat / 2 ^ 23 % 2)
  | 3 => far && (match s.hostBufs[dest.toNat]? with | some b => b.dye == m.dye && m.dye != 0 && !b.used | none => false)
  | _ => far && s.placeFree m.dye 2 dest && (match s.tierEntry with
      | some t => (frameSegs t dest.toNat).all (fun w => s.leases.any (fun (x : LeaseHeld) => x.tier && x.slot == w.1 && x.seg == w.2))
      | none => false)
/-- The check record of a page: one CRC-32C for each granule (R153). -/
def crcs (bytes : List Byte) : List Word32 := (List.range 16).map (fun g => crc32c ((bytes.drop (4096 * g)).take 4096))
/-- A page's bytes put where it goes. -/
def State.landPage (s : State) (d : Dye) (tier : Nat) (dest : Word32) (bytes : List Byte) : State :=
  match tier with
  | 0 => (match s.place d (dest.toNat * 65536) with
      | .slice c o => ((s.useFrames d 0 true).sliceWrite c o bytes).2
      | _ => s)
  | 1 => (s.grantFrame (dest.toNat % 2 ^ 24) d 1 0).hbmWrite (dest.toNat % 2 ^ 24 * 65536) bytes
  | t =>
    let s1 := s.useFrames d t true
    let bufs := if t = 3 then (List.zipIdx s1.hostBufs).map (fun e =>
      if e.2 = dest.toNat then { e.1 with used := true } else e.1) else s1.hostBufs
    let s2 : State := { s1 with
      farPages := tabSetList byteReset s1.farPages (farKey t dest.toNat) bytes,
      checkRecs := tabSetList (fun _ => 0) s1.checkRecs ((t * 2 ^ 32 + dest.toNat) * 16) (crcs bytes),
      hostBufs := bufs }
    s2.sendPage d t dest.toNat bytes

/-! ### Pins (R146, R159) -/

/-- Whether a session's pages are pinned: it has admitted work, here or as the front package has said. -/
def State.pinned (s : State) (d : Dye) (slot : Nat) : Bool :=
  (match s.ctx d slot with | some c => s.sessionBusy d c.id | none => false) || s.admitted.contains (d, slot)
/-- The key of a page under which a promotion pins it. -/
def pageKey (m : PageMove) : Nat := match m.session with
  | some slot => pteKey m.dye slot m.layer m.page
  | none => m.page
/-- Whether a page is pinned: one of its sessions is, or a promotion keeps it. -/
def State.pagePinned (s : State) (m : PageMove) : Bool :=
  (s.moveSessions m).any (fun x => s.pinned x.1 x.2) ||
  s.pins.any (fun q => q.dye == m.dye && q.shared == m.session.isNone && q.key == pageKey m && decide (s.now < q.until_))

/-! ### Promotion (R159, R160) and the end of a move -/

/-- The pages of a session that lie below tier 1, those that it shares with them: the move that brings each up, and its entry. -/
def State.belowTier1 (s : State) (d : Dye) (slot : Nat) : List (PageMove × Pte) :=
  (s.sessionPtes d slot).filterMap (fun e =>
    if e.2.ro then (s.sharedPte d e.2.frame.toNat).bind (fun p =>
      if 1 < p.tier then some ({ dye := d, session := none, layer := 0, page := e.2.frame.toNat, fromTier := p.tier, toTier := 1,
                                 cause := 3 }, p) else none)
    else if 1 < e.2.tier then
      some ({ dye := d, session := some slot, layer := pteLayer e.1, page := ptePage e.1, fromTier := e.2.tier, toTier := 1,
              cause := 3 }, e.2)
    else none)
def State.resumeHint (s : State) (d : Dye) (slot : Nat) : Option Hint :=
  s.hints.find? (fun h => h.dye == d && h.session == slot && h.resume)
def State.promoMargin (s : State) : Nat := s.fld .tier TIER_CFG 0 16 * 1000
/-- A session's pages below tier 1 begin to come up; those of a resume hint are pinned until now + X + PROMO_MARGIN. -/
def State.promote (s : State) (d : Dye) (slot cause : Nat) : State :=
  let pages := s.belowTier1 d slot
  let s1 := match s.resumeHint d slot with
    | none => s
    | some h => { s with
        hints := s.hints.map (fun x => if x = h then { x with started := true } else x),
        pins := s.pins ++ pages.map (fun e => { dye := d, session := slot, shared := e.1.session.isNone, key := pageKey e.1,
                                                until_ := h.at_ + h.x * 1000 + s.promoMargin }) }
  pages.foldl (fun t e => t.startMove { e.1 with cause := cause }) s1
/-- A resume hint whose promotion is complete goes; it counts as late after now + X - PROMO_MARGIN. -/
def State.promoLate (s : State) (d : Dye) (slot : Nat) : State :=
  match s.resumeHint d slot with
  | none => s
  | some h =>
    if h.started && s.belowTier1 d slot == [] then
      let s1 := { s with hints := s.hints.filter (fun x => x ≠ h) }
      if h.at_ + h.x * 1000 < s.now + s.promoMargin then
        (s1.bumpP .tier d TIER_D_PROMO_LATE).hist 5 d 0 (s.now + s.promoMargin - (h.at_ + h.x * 1000))
      else s1
    else s
/-- A suspend hint goes once the session's private pages have reached its tier (R158). -/
def State.endSuspends (s : State) : State :=
  { s with hints := s.hints.filter (fun h => h.resume || s.pinned h.dye h.session ||
      (s.sessionPtes h.dye h.session).any (fun e => !e.2.ro && decide (e.2.tier < h.tier))) }
/-- One frame of tier 1 that a dye has reserved is used (R155). -/
def useReserved (d : Dye) : List (Dye × Nat × Nat × Nat) → List (Dye × Nat × Nat × Nat)
  | [] => []
  | r :: rs => if r.1 = d ∧ r.2.2.1 = 1 ∧ r.2.2.2 ≠ 0 then (r.1, r.2.1, r.2.2.1, r.2.2.2 - 1) :: rs else r :: useReserved d rs
/-- The copy of a fork's partial page (R149); it waits where no frame is free yet. -/
def State.forkCopy (s : State) (w : ForkCopy) : State :=
  match s.ctx w.dye w.slot, s.sharedPte w.dye w.index with
  | some c, some q =>
    let r := s.copyPage w.dye q c.home (w.len % 256)
    match r.1 with
    | none => { r.2 with forkWait := r.2.forkWait ++ [w] }
    | some f => r.2.setPte (pteKey w.dye w.slot w.layer w.page) (some { tier := 1, frame := f, touch := touchOf s.now })
  | _, _ => s
/-- The copies that waited are tried again. -/
def State.forkRetry (s : State) : State :=
  s.forkWait.foldl (fun (t : State) w => t.forkCopy w) { s with forkWait := [] }
/-- Whether a tier has a free frame beyond those that moves on their way will take. -/
def State.hasRoom (s : State) (free : Nat → Nat) (tier : Nat) : Bool :=
  decide ((s.pageMoves.filter (fun m => m.toTier == tier)).length < free tier)
/-! ### Pools and victims (R155 to R157) -/

/-- Frames of this package's save areas: RGN_MAX areas of 2,304 frames for each partition that it holds regions of (R234,
R249). -/
def State.saveFrames (s : State) : Nat :=
  ((s.partEntries.filter (fun e => e.packages.any (fun p => p.slot == s.slot))).map (fun e => e.rgnMax * 2304)).sum
/-- FREE frames of a die; none of a die out of service (R163). -/
def State.dieFree (s : State) (die : Nat) : Nat :=
  if s.dieFailed die then 0
  else (if die = 0 then 8388608 else 8382464) -
    (s.frames.filter (fun e => decide (e.1 < 16771072) && decide (e.1 / 2 ^ 23 = die) && e.2.state != 0)).length
/-- Frames of a tier that no dye holds: tier 2 has the frames of the leased segments, 32 to a segment; tier 3 the buffers given and not
withdrawn. -/
def State.freeTotal (s : State) (tier : Nat) : Nat :=
  let used := ((List.finRange 16).map (fun d => s.tierUsed d tier)).sum
  match tier with
  | 0 => ((List.finRange 16).map s.kvFrames).sum - used
  | 1 => s.dieFree 0 + s.dieFree 1 - s.saveFrames
  | 2 => 32 * (s.leases.filter (·.tier)).length - used
  | _ => (s.hostBufs.filter (fun b => b.dye != 0 && !b.used)).length
/-- The free frames of a tier's shared pool: those beyond what partitions may still take of their minimum (R155). -/
def State.tierFree (s : State) (tier : Nat) : Nat :=
  s.freeTotal tier - ((List.finRange 16).map (fun d => s.tierMin d tier - s.tierUsed d tier)).sum
/-- TIER_FREE_Tn and the LOW bits of TIER_STATUS follow the pools. -/
def State.tierFollow (s : State) : State :=
  (List.range 4).foldl (fun (t : State) k =>
    (t.wr .tier (TIER_FREE + 4 * k) (BitVec.ofNat 32 (s.tierFree k))).setBit .tier TIER_STATUS (1 + k)
      (decide (s.tierFree k < (s.tierEntry.map (fun e => e.low.getD k 0)).getD 0))) s
/-- After a cold start the controllers that are in INIT train and become ACTIVE, and the frame table is written: READY (R140, R163). -/
def State.hbmReady (s : State) : State :=
  let s1 := (List.finRange 8).foldl (fun (t : State) h =>
    if t.fld (.hbm h) HBM_STATUS 0 2 = 0 then (t.setFld (.hbm h) HBM_STATUS 0 3 6).setBit (.hbm h) HBM_KEYSLOTS 0 true else t) s
  s1.setBit .tier TIER_STATUS 0 true

/-- The pages of a tier that may move one tier down. A shared page is never discarded (R150). -/
def State.candidates (s : State) (tier : Nat) : List (PageMove × Pte) :=
  (s.ptes.filterMap (fun e => e.2.bind (fun p =>
    let m : PageMove := { dye := pteDye e.1, session := some (pteSlot e.1), layer := pteLayer e.1, page := ptePage e.1,
                          fromTier := tier, toTier := tier + 1, cause := 1 }
    if p.ro ∨ p.busy ∨ p.tier ≠ tier ∨ s.pagePinned m then none else some (m, p)))) ++
  (if tier = 3 then [] else s.shared.filterMap (fun e => e.2.bind (fun p =>
    let m : PageMove := { dye := Fin.ofNat 16 (e.1 / 2 ^ 32), session := none, layer := 0, page := e.1 % 2 ^ 32,
                          fromTier := tier, toTier := tier + 1, cause := 1 }
    if p.busy ∨ p.tier ≠ tier ∨ s.pagePinned m then none else some (m, p))))
def State.ageOf (s : State) (p : Pte) : Nat := (touchOf s.now - p.touch).toNat
/-- The victim: the highest non-empty bucket, the page that entered it first, then the lower dye, the lower frame. -/
def victimBefore (s : State) (a b : PageMove × Pte) : Bool :=
  let x := s.ageOf a.2
  let y := s.ageOf b.2
  decide (y < x) || (x == y && (decide (a.1.dye < b.1.dye) || (a.1.dye == b.1.dye && decide (a.2.frame.toNat ≤ b.2.frame.toNat))))
/-- The pages that may be victims, the first victim first. -/
def State.victims (s : State) (tier : Nat) : List (PageMove × Pte) :=
  ((s.candidates tier).filter (fun c => decide (s.tierMin c.1.dye tier < s.tierUsed c.1.dye tier))).mergeSort (victimBefore s)
/-- A page that a suspend hint sends down: oldest first, until it is in the tier of the hint (R158). -/
def State.suspendPage (s : State) (tier : Nat) : Option (PageMove × Pte) :=
  (((s.candidates tier).filter (fun c => c.1.session.isSome && s.hints.any (fun h =>
    h.dye == c.1.dye && some h.session == c.1.session && !h.resume && decide (tier < h.tier)))).mergeSort
      (victimBefore s)).head?
/-- A page begins to move one tier down, if the tier below has room; where tier 2 has none, segments of donors are leased first. -/
def State.demote (s : State) (m : PageMove) : State :=
  if s.hasRoom s.freeTotal m.toTier then s.startMove m
  else if m.toTier = 2 then s.borrow
  else s
/-- BACKGROUND_DEMOTION: one page of the tier begins to move one tier down: a page that a suspend hint names, or a victim while the
tier's free frames are below the low-water mark, until they reach the high-water mark. A victim in tier 3 is discarded. Moves of
admitted work go first: while one is in progress nothing begins (R157). -/
def execBackgroundDemotion (tier : Fin 4) (s0 : State) : Out :=
  let t := tier.val
  let s := s0.endSuspends
  if s.pageMoves.any (fun m => m.cause == 0) then .next s
  else
    match (if t < 3 then s.suspendPage t else none) with
    | some c => .next (s.demote { c.1 with cause := 2 })
    | none =>
      let low := (s.tierEntry.map (fun e => e.low.getD t 0)).getD 0
      let high := (s.tierEntry.map (fun e => e.high.getD t 0)).getD 0
      let go := decide (s.tierFree t < low) || (s.demoting.contains t && decide (s.tierFree t < high))
      let s1 := { s with demoting := if go then (if s.demoting.contains t then s.demoting else t :: s.demoting)
                                     else s.demoting.filter (· ≠ t) }
      if !go then .next s1
      else
        match (s.victims t).head? with
        | none => .next s1
        | some c => if t = 3 then .next (s1.losePage c.1) else .next (s1.demote c.1)

/-- A page that has come up to tier 1 goes on to tier 0 where the image keeps its class there and a frame is free (R143); one that has
gone down while its session is to come back is promoted again (Table 6-6). -/
def State.moveOn (s : State) (m : PageMove) : State :=
  let owners := s.moveSessions m
  if m.toTier = 1 ∧ 1 < m.fromTier ∧ owners.any (fun x => (s.ctx x.1 x.2).any (fun c => s.kvClass x.1 c.cls)) ∧ s.hasRoom s.freeTotal 0 then
    s.startMove { m with fromTier := 1, toTier := 0 }
  else if 1 < m.toTier ∧ owners.any (fun x => (s.resumeHint x.1 x.2).any (·.started)) then
    s.startMove { m with fromTier := m.toTier, toTier := 1, cause := 3 }
  else s
/-- PAGE_MOVE_COMPLETE: the page is in its new tier at dest. read is what the read of a promotion brought. A CRC that does not match, or a poisoned read, loses the page (R153). -/
def execPageMoveComplete (move : Nat) (read : MoveRead) (dest : Word32) (s : State) : Out :=
  match s.pageMoves[move]? with
  | none => .next s
  | some m =>
    let s0 := { s with pageMoves := s.pageMoves.eraseIdx move }
    match m.orphan with
    | some p => .next (s0.dropPage m.dye p)
    | none =>
      match s.movePte m with
      | none => .next s0
      | some p =>
        let b := s0.pageBytes m.dye p
        let bytes := if 1 < m.fromTier then takePad 0 65536 (read.data.getD b.1.1) else b.1.1
        let match_ := decide (m.fromTier ≤ 1) ||
          crcs bytes == tabGetList (fun _ => 0) s.checkRecs ((m.fromTier * 2 ^ 32 + p.frame.toNat) * 16) 16
        if read.poison || b.1.2 then .next ((b.2.setMovePte m { p with busy := false }).losePage m)
        else if !match_ then
          .next ((((b.2.bump .tier TIER_CHECK_FAIL).detectUnit 0x14 m.dye 0 [m.layer, m.page]).setMovePte m { p with busy := false }).losePage m)
        else if !s.destOk m dest then .next s
        else
          let s1 := (b.2.dropPage m.dye p).landPage m.dye m.toTier dest bytes
          let s2 := s1.setMovePte m { p with tier := m.toTier, frame := dest, busy := false }
          let s3 := if m.cause ≤ 1 ∧ m.fromTier < m.toTier then s2.bumpP .tier m.dye TIER_D_EVICT else s2
          let s4 := if m.cause = 0 ∧ m.toTier = 1 ∧ 1 < m.fromTier then { s3 with reserved := useReserved m.dye s3.reserved } else s3
          let s5 := (s4.moveSessions m).foldl (fun (t : State) x => t.promoLate x.1 x.2) s4
          .next ((s5.moveOn m).endSuspends.forkRetry)

/-- PROMOTION_START: at the hint's start, or when work for the session arrives before it, the pages below tier 1 begin
to move up and are pinned until now + X + PROMO_MARGIN (R159). -/
def execPromotionStart (d : Dye) (session : Nat) (s : State) : Out :=
  match s.resumeHint d session with
  | none => .next s
  | some h =>
    if h.started || (decide (s.now < h.start) && !s.pinned d session) then .next s
    else if s.belowTier1 d session = [] then .next { s with hints := s.hints.filter (fun x => x ≠ h) }
    else .next (s.promote d session 3)

/-- PIN_EXPIRY: pins whose counter value has come are gone; the pages age normally. -/
def execPinExpiry (d : Dye) (session : Nat) (s : State) : Out :=
  .next { s with pins := s.pins.filter (fun p => !(p.dye == d && p.session == session && decide (p.until_ ≤ s.now))) }

end Sys2Proof.Machine
end

