-- ==== Sys2Proof/Machine/Drover.lean ====
section
/-! DEFINITION. The Drover (R182 to R200): stream tables and gates, fetch, check and decode (R50 to R52), cancellation,
stops and clears, and the load, repair and replacement of weight sets. -/

namespace Sys2Proof.Machine

/-! ### VP4 (R50 to R52) -/

/-- Codewords of a table in canonical order: length, codeword, symbol. -/
def vp4Codes (t : Word64) : List (Nat × Nat × Nat) :=
  let syms := (List.range 12).flatMap (fun l => (List.range 16).filterMap (fun s =>
    if bitsOf t (4 * s) 4 = l + 1 then some (l + 1, s) else none))
  (syms.foldl (fun (a : List (Nat × Nat × Nat) × Nat × Nat) p =>
    let code := if a.1 = [] then 0 else (a.2.1 + 1) * 2 ^ (p.1 - a.2.2)
    (a.1 ++ [(p.1, code, p.2)], code, p.1)) ([], 0, 0)).1
/-- Whether a table is valid: lengths 0 to 12, Kraft sum 1, or one present code of length 1. -/
def vp4TableOk (t : Word64) : Bool :=
  let ls := ((List.range 16).map (fun s => bitsOf t (4 * s) 4)).filter (· ≠ 0)
  ls.all (fun l => decide (l ≤ 12)) && ((ls.map (fun l => 2 ^ (12 - l))).sum == 4096 || ls == [1])
/-- n codes decoded from a bitstream: the codeword grows bit by bit, most significant bit first. fuel counts bits. Answers
the codes and the bits used, or none for a codeword that is not in the table. -/
def vp4Decode (cs : List (Nat × Nat × Nat)) : Nat → Nat → Nat → Nat → Nat → Nat → Option (List Nat × Nat)
  | 0, _, _, _, _, _ => none
  | fuel + 1, n, bits, len, code, used =>
    if n = 0 then some ([], used)
    else
      let code' := 2 * code + bits % 2
      match cs.find? (fun c => c.1 == len + 1 && c.2.1 == code') with
      | some c => (vp4Decode cs fuel (n - 1) (bits / 2) 0 0 (used + 1)).map (fun r => (c.2.2 :: r.1, r.2))
      | none => if 12 ≤ len then none else vp4Decode cs fuel n (bits / 2) (len + 1) code' (used + 1)
/-- The bytes that a chunk occupies, by its header. -/
def vp4Size (h : Nat) : Nat := (16 + h / 2 ^ 32 % 2 ^ 16 + 63) / 64 * 64
/-- R52 rejects a chunk by its header alone: MAGIC, VERSION or MODE is invalid, a reserved field is not zero, or CHUNK_SEQ is not the
expected ordinal. A PAYLOAD_LEN outside Table 2-4's range, which R52 does not list, is rejected with them: the model's choice (log
entry 126). -/
def vp4HeadBad (seq h : Nat) : Bool :=
  let mode := h / 2 ^ 24 % 256
  let len := h / 2 ^ 32 % 2 ^ 16
  h % 2 ^ 16 != 0x5634 || h / 2 ^ 16 % 256 != 1 || decide (1 < mode) || h / 2 ^ 52 % 2 ^ 12 != 0 || h / 2 ^ 96 != 0 ||
  h / 2 ^ 64 % 2 ^ 32 != seq || (if mode = 1 then len != 4352 else decide (len < 256) || decide (4352 ≤ len))
/-- A chunk as a stationary block: 4,096 code bytes, then 256 scales (R185); none where R52 rejects it. The bytes after the payload are
not looked at: R50 says that they are zero, and R52 does not list others as a reason. -/
def vp4Block (tables : Nat → Word64) (seq : Nat) (bs : List Byte) : Option (List Byte) :=
  let h := leNat (bs.take 16)
  let len := h / 2 ^ 32 % 2 ^ 16
  let payload := (bs.drop 16).take len
  if vp4HeadBad seq h then none
  else if h / 2 ^ 24 % 256 = 1 then some (payload.drop 256 ++ payload.take 256)
  else
    let t := tables (h / 2 ^ 48 % 16)
    let stream := leNat (payload.drop 256)
    let bitsLen := 8 * (len - 256)
    if !vp4TableOk t then none
    else
      match vp4Decode (vp4Codes t) (8192 * 13 + 1) 8192 stream 0 0 0 with
      | none => none
      | some (codes, used) =>
        if bitsLen < used ∨ used + 8 ≤ bitsLen ∨ stream / 2 ^ used ≠ 0 then none
        else some (leBytes (packCodes 4 codes) 4096 ++ payload.take 256)

/-! ### Stream entries (Table 8-3) and the phase plan (R214) -/

structure StreamD where
  mode : Nat
  routed : Bool
  last : Bool
  stream : Nat
  layer : Nat
  gateLayer : Nat
  gatePoint : Nat
  wset : Nat
  isShared : Bool
  src : Nat
  len : Nat
  firstSeq : Nat
  rgnOrd : Nat
  firstCore : Nat
  nCores : Nat
  perCore : Nat
  dst : Nat
  buf : Nat
  crc : Nat
  deriving DecidableEq, Repr, Inhabited
def streamOf (x : Word512) : StreamD :=
  { mode := bitsOf x 4 2, routed := bitOf x 6, last := bitOf x 7, stream := bitsOf x 8 16, layer := bitsOf x 24 16,
    gateLayer := bitsOf x 40 16, gatePoint := bitsOf x 56 3, wset := bitsOf x 59 4, isShared := bitOf x 63,
    src := bitsOf x 64 48, len := bitsOf x 112 32, firstSeq := bitsOf x 144 32, rgnOrd := bitsOf x 176 4,
    firstCore := bitsOf x 180 6, nCores := bitsOf x 186 7, perCore := bitsOf x 193 15, dst := bitsOf x 208 21,
    buf := bitsOf x 229 8, crc := bitsOf x 256 48 }
/-- The die of an engine (R182). -/
def engineDie (e : Fin 8) : Nat := e.val / 4
/-- The destination region of an entry, if it lies on the engine's die. -/
def State.streamRegion (s : State) (e : Fin 8) (d : Dye) (x : StreamD) : Option RegionNo :=
  (s.regionOf d x.rgnOrd).bind (fun r => if regionDie r = engineDie e then some r else none)
/-- Whether n bytes from an address on lie in the HBM of the engine's die. -/
def State.onDie (s : State) (e : Fin 8) (d : Dye) (a n : Nat) : Bool :=
  ([a, a + n - 1] : List Nat).all (fun b => match s.place d b with | .hbm o => o / 2 ^ 39 % 2 == engineDie e | _ => false)
/-- ENTRY (Table 8-4): bad TYPE, MODE or GATE_POINT, a reserved bit, a source or destination off the die. -/
def State.entryBad (s : State) (e : Fin 8) (d : Dye) (x : Word512) : Bool :=
  let t := streamOf x
  bitsOf x 0 4 != 1 || decide (1 < t.mode) || decide (5 < t.gatePoint) || bitsOf x 237 19 != 0 || bitsOf x 304 208 != 0 ||
  (s.streamRegion e d t).isNone || !s.onDie e d t.src (max 1 t.len)
/-- Misalignment and core range. -/
def streamAddrBad (t : StreamD) : Bool :=
  t.src % 4096 != 0 || t.dst % 32 != 0 || t.nCores == 0 || decide (64 < t.firstCore + t.nCores) || t.len == 0

def drvKey (e : Fin 8) (d : Dye) : Nat := e.val * 16 + d.val
def drvReset (_ : Nat) : DrvCtx := {}
def State.drv (s : State) (e : Fin 8) (d : Dye) : DrvCtx := tabGet drvReset s.drvs (drvKey e d)
def State.setDrv (s : State) (e : Fin 8) (d : Dye) (c : DrvCtx) : State :=
  { s with drvs := tabSet drvReset s.drvs (drvKey e d) c }
/-- The stream table of a context, read from tier 1 up to its LAST entry. One of TYPE 0, a read that is refused or poisoned, and the
end of the stream numbers without LAST end it with an entry of zeros, which fails with ENTRY (R184, Table 8-4). -/
def State.tableF (s : State) (e : Fin 8) (d : Dye) : Nat → Nat → List Word512
  | 0, _ => [0]
  | n + 1, a =>
    let b := (s.read (.drover e d) a 64).1
    let x : Word512 := BitVec.ofNat 512 (leNat b.data)
    if b.refused || b.poison || bitsOf x 0 4 == 0 then [0] else if bitOf x 7 then [x] else x :: s.tableF e d n (a + 64)
def State.table (s : State) (e : Fin 8) (d : Dye) : List Word512 :=
  let a := (s.rd64 (.drv e) (pageOff d DRV_D_TABLE_L)).toNat % 2 ^ 48
  if a = 0 then [] else s.tableF e d 65534 a
/-- A phase plan as a package writes it (R214, Table 9-4). -/
def planBytes (p : StepPlan) : List Byte :=
  leBytes (0x5050 + 2 ^ 16 + b2n p.lane * 2 ^ 24 + p.step.toNat * 2 ^ 32 + p.start.toNat * 2 ^ 64 + p.layers.length * 2 ^ 128 +
    p.fPrice * 2 ^ 144 + p.token * 2 ^ 160 + p.endOfs * 2 ^ 192) 64 ++
  p.layers.flatMap (fun l => (takePad 0 8 l).flatMap (fun o => leBytes o 4))
/-- The plan that DRV_D_PLAN points to. -/
def State.planAt (s : State) (e : Fin 8) (d : Dye) : Nat := (s.rd64 (.drv e) (pageOff d DRV_D_PLAN_L)).toNat % 2 ^ 48
/-- START and LANE of a plan in tier 1 (Table 9-4). -/
def State.planStart (s : State) (e : Fin 8) (d : Dye) (a : Nat) : Nat := leNat ((s.read (.drover e d) (a + 8) 8).1.data)
def State.planLane (s : State) (e : Fin 8) (d : Dye) (a : Nat) : Bool :=
  leNat ((s.read (.drover e d) (a + 3) 1).1.data) % 2 == 1
/-- Whether a stream's region is in the prefill lane. A table lists both lanes' streams, and each is of its lane's step (log entry
133). -/
def State.streamLane (s : State) (e : Fin 8) (d : Dye) (x : StreamD) : Bool :=
  ((s.streamRegion e d x).map (fun r => tabGet (fun _ => false) s.prefillLane r.val)).getD false
/-- The current phase plan of a stream, and its START: the latest plan of its lane; 0 for none. -/
def State.planFor (s : State) (e : Fin 8) (d : Dye) (x : StreamD) : Nat :=
  if s.streamLane e d x then (s.drv e d).planP else (s.drv e d).planD
def State.startFor (s : State) (e : Fin 8) (d : Dye) (x : StreamD) : Nat := s.planStart e d (s.planFor e d x)
/-- The place of a gate point in a layer's entry. -/
def gateIdx (g : Nat) : Nat :=
  match g with
  | 0 => 0
  | 1 => 1
  | 2 => 3
  | 3 => 5
  | _ => 7
/-- The bytes that a stream writes. -/
def StreamD.written (t : StreamD) : Nat := if t.mode = 0 then t.nCores * t.perCore * 4352 else t.len
/-- Streams that share one gate (R188). -/
def sameGate (x y : StreamD) : Bool := x.gatePoint == y.gatePoint && (x.gatePoint == 5 || x.gateLayer == y.gateLayer)
/-- The price in ns of a group of streams that share one gate on one engine, at a frequency in MHz (R188): stored bytes at rate / 65,536
bytes per µs, written bytes at 4.0 TB/s, and each region's bytes at its crossbar port's rate, 1.6 TB/s at 1.5 GHz. A dye without a share
has no end. -/
def groupNs (rate f : Nat) (ts : List StreamD) : Nat :=
  let sum := fun (g : StreamD → Nat) (l : List StreamD) => (l.map g).sum
  let port := (List.range 16).map (fun r => ceilDiv (sum StreamD.written (ts.filter (fun t => t.rgnOrd == r)) * 1500000) (1600000 * f))
  if rate = 0 then 2 ^ 64 - 1
  else 500 + max (ceilDiv (sum StreamD.len ts * 65536000) rate)
    (max (ceilDiv (sum StreamD.written ts * 1000) 4000000) (port.foldl max 0))
/-- The rate that the cost tables price for a dye on an engine, in bytes per µs / 65,536: 2,457.6 GB/s × EFF/256 × SHARE/256. -/
def State.drvRate (s : State) (e : Fin 8) (d : Dye) : Nat :=
  2457600 * s.fld (.drv e) DRV_EFF 0 8 * s.fld (.drv e) (DRV_SHARE + 4 * d.val) 0 9
/-- The priced time of a stream at its region's frequency: that of its group, the streams of its step that share its gate on the
engine (log entry 133). -/
def State.streamPrice (s : State) (e : Fin 8) (d : Dye) (t : StreamD) : Nat :=
  let group := ((s.table e d).map streamOf).filter (fun y => sameGate y t && s.streamLane e d y == s.streamLane e d t)
  groupNs (s.drvRate e d) (((s.streamRegion e d t).map s.rgnFreq).getD 600) group
/-- The counter value of point k of a layer in the plan of a stream. -/
def State.pointFor (s : State) (e : Fin 8) (d : Dye) (t : StreamD) (layer k : Nat) : Nat :=
  s.startFor e d t + leNat ((s.read (.drover e d) (s.planFor e d t + 64 + 32 * layer + 4 * k) 4).1.data)
/-- The counter value of a stream's gate (R186). -/
def State.gateOf (s : State) (e : Fin 8) (d : Dye) (t : StreamD) : Nat :=
  if t.gatePoint = 5 then s.startFor e d t - s.streamPrice e d t else s.pointFor e d t t.gateLayer (gateIdx t.gatePoint)
/-- Its ready point: LAYER_START of its layer, or EXPERT (R188). -/
def State.readyPoint (s : State) (e : Fin 8) (d : Dye) (t : StreamD) : Nat :=
  s.pointFor e d t t.layer (if t.routed then 5 else 0)

/-! ### Weight-set states (Table 8-2) -/

def wEMPTY : Nat := 0
def wLOADING : Nat := 1
def wVERIFIED : Nat := 2
def wDAMAGED : Nat := 3
def wREPAIRING : Nat := 4
def State.wstate (s : State) (d : Dye) (w : Nat) : Nat := s.fld (.drv 0) (pageOff d (DRV_D_WSTATE + 4 * (w / 8))) (4 * (w % 8)) 4
/-- The state code, the same on every engine of the package. -/
def State.setWstate (s : State) (d : Dye) (w v : Nat) : State :=
  (List.finRange 8).foldl (fun t e => t.setFld (.drv e) (pageOff d (DRV_D_WSTATE + 4 * (w / 8))) (4 * (w % 8)) 4 v) s
def wsetKey (d : Dye) (w : Nat) : Nat := d.val * 16 + w
def State.wset (s : State) (d : Dye) (w : Nat) : Option WsetSt := tabGet (fun _ => none) s.wsets (wsetKey d w)
def State.setWset (s : State) (d : Dye) (w : Nat) (x : Option WsetSt) : State :=
  { s with wsets := tabSet (fun _ => none) s.wsets (wsetKey d w) x }
/-- A set returns to EMPTY, its frames freed (R141, R183). -/
def State.emptyWset (s : State) (d : Dye) (w : Nat) : State :=
  let s1 := match s.wset d w with
    | none => s
    | some x => x.bases.foldl (fun t b => (List.range x.frames).foldl (fun u i => u.freeFrame (b + i)) t) s
  (s1.setWset d w none).setWstate d w wEMPTY
/-- A set takes a state that the partition's other packages hear of (R191, R194). -/
def State.tellWstate (s : State) (d : Dye) (w v : Nat) : State :=
  (s.setWstate d w v).tellAll d (.weightState d (Fin.ofNat 16 w) v)
def peerKey (sl : SlotNo) (d : Dye) (w : Nat) : Nat := (sl.val * 16 + d.val) * 16 + w
/-- VERIFIED on this package and, as far as the others of a partition have said, on every package of it (R194). -/
def State.usable (s : State) (part d : Dye) (w : Nat) : Bool :=
  s.wstate d w == wVERIFIED && (s.peers part).all (fun sl => natGet s.peerWsets (peerKey sl d w) == wVERIFIED)
/-- The bytes of a set's run on one die; where a byte of the set lies in HBM, its runs on the named dies following one another; and
the place in the set of a byte of HBM. -/
def WsetSt.size (x : WsetSt) : Nat := x.frames * 65536
def WsetSt.hbmOf (x : WsetSt) (o : Nat) : Option Nat := (x.bases[o / x.size]?).map (fun b => b * 65536 + o % x.size)
def WsetSt.placeOf (x : WsetSt) (h : Nat) : Option Nat :=
  (List.zipIdx x.bases).findSome? (fun b =>
    if b.1 * 65536 ≤ h ∧ h < b.1 * 65536 + x.size then some (b.2 * x.size + (h - b.1 * 65536)) else none)
/-- A set becomes DAMAGED on every package of the partition (R191); the granules that failed, by address, are remembered for its
repair. -/
def State.damageWset (s : State) (d : Dye) (w : Nat) (addrs : List Nat) : State :=
  let s1 := match s.wset d w with
    | none => s
    | some x => s.setWset d w (some { x with bad := (x.bad ++ addrs.filterMap (fun a => match s.place d a with
        | .hbm o => (x.placeOf o).map (· / 4096)
        | _ => none)).dedup })
  s1.tellWstate d w wDAMAGED

/-! ### Context state (Tables 8-8 and 8-9) -/

def State.drvStopped (s : State) (e : Fin 8) (d : Dye) : Bool := s.fld (.drv e) (pageOff d DRV_D_STATUS) 0 3 == 3
/-- Streams active on an engine, of every dye (R182: at most 8). -/
def State.activeOn (s : State) (e : Fin 8) : Nat := ((List.finRange 16).map (fun d => (s.drv e d).active.length)).sum
/-- How a stream of a plan stands: that it has ended or was cancelled; that nothing more is started of it. -/
def DrvCtx.over (c : DrvCtx) (k : Nat × Nat) : Bool := c.ended.contains k || c.skipped.contains k
def DrvCtx.seen (c : DrvCtx) (k : Nat × Nat) : Bool := c.over k || c.failed.contains k || c.active.any (fun a => a.key == k)
/-- DRV_D_STATUS and DRV_STATUS follow. While a context is cleared its page reads 0 (R199). -/
def State.drvFollow (s : State) (e : Fin 8) (d : Dye) : State :=
  let c := s.drv e d
  let waits := (List.zipIdx (s.table e d)).any (fun p => let y := streamOf p.1
    s.planFor e d y != 0 && !c.seen (s.startFor e d y, p.2))
  let st := if s.drvStopped e d then 3 else if c.active ≠ [] then 2 else if waits then 1 else 0
  let oldest := match c.active with | [] => 0xFFFF | a :: _ => (streamOf a.entry).stream
  let s1 := if c.clearing then s else
    (s.setFld (.drv e) (pageOff d DRV_D_STATUS) 0 3 st).setFld (.drv e) (pageOff d DRV_D_STATUS) 16 16 oldest
  let n := s1.activeOn e
  let loading := (List.finRange 16).any (fun q => (List.range 16).any (fun w => s1.wstate q w == wLOADING))
  let clears := (List.finRange 16).any (fun q => (s1.drv e q).clearing)
  if s1.fld (.drv e) DRV_STATUS 0 3 = 4 then s1
  else (s1.setFld (.drv e) DRV_STATUS 0 3 (if clears then 3 else if n ≠ 0 then 1 else if loading then 2 else 0)).setFld (.drv e)
    DRV_STATUS 3 8 n

/-- The step whose plan has a START: its failure is reported to the Innkeeper (R191). -/
def State.failStart (s : State) (d : Dye) (start code : Nat) : State :=
  match s.plans.find? (fun q => q.plan.dye == d && q.plan.start.toNat == start) with
  | some q => { s with failReps := s.failReps ++ [{ dye := d, step := q.plan.step, session := none, code := code }] }
  | none => s
/-- The controller of the destination region stops the tile groups of a stream's step, where that step runs (R191). -/
def State.stopStep (s : State) (d : Dye) (r : RegionNo) (start : Nat) : State :=
  if s.plans.any (fun q => q.running && q.plan.dye == d && q.plan.start.toNat == start) then
    (allCores r).foldl (fun (u : State) (q : CoreId) => u.coreStop q) s
  else s
/-- A stream fails (R191): its code, the Ledger, the Innkeeper, the step's tile groups of its region stopped; CRC, CHUNK and POISON
damage the weight set, in the granules given. -/
def State.streamFail (s : State) (e : Fin 8) (d : Dye) (key : Nat × Nat) (x : Word512) (code : Nat) (grans : List Nat := []) : State :=
  let t := streamOf x
  let c := s.drv e d
  let s1 := s.setDrv e d { c with active := c.active.filter (fun a => a.key != key), failed := c.failed ++ [key] }
  let s2 := ((s1.wrP (.drv e) d DRV_D_ERR_LAST (BitVec.ofNat 32 (code + 2 ^ 15 + t.stream * 2 ^ 16))).bumpP (.drv e) d
    DRV_D_ERR_COUNT).setBit (.drv e) (pageOff d DRV_D_STATUS) 4 true
  let s3 := s2.ledger { type := 1, detector := (if code = 5 then 0x0E else if code = 4 then 0x0F else 0), dye := d,
                        severity := 3, lcoord := BitVec.ofNat 16 e.val, detail := [code, t.stream] }
  let s4 := if code ∈ [4, 5, 6] then s3.damageWset (if t.isShared then 0 else d) t.wset grans else s3
  let s5 := match s4.streamRegion e d t with
    | some r => s4.stopStep d r key.1
    | none => s4
  (s5.failStart d key.1 1).drvFollow e d

/-! ### Streams -/

/-- Whether a stream of the table may start (R186): gate reached, earlier streams of its buffer released. -/
def State.mayStart (s : State) (e : Fin 8) (d : Dye) (tab : List Word512) (i : Nat) (x : Word512) : Bool :=
  let c := s.drv e d
  let t := streamOf x
  let start := s.startFor e d t
  s.planFor e d t != 0 && !c.seen (start, i) && decide (s.gateOf e d t ≤ s.now) && !c.held.any (fun h => h.buf == t.buf) &&
  (List.zipIdx (tab.take i)).all (fun p => let y := streamOf p.1
    y.buf != t.buf || s.streamLane e d y != s.streamLane e d t || c.released.contains (start, p.2) || c.skipped.contains (start, p.2))

/-- STREAM_START: the first stream in schedule order that may start takes a slot. -/
def execStreamStart (e : Fin 8) (d : Dye) (s : State) : Out :=
  if s.drvStopped e d ∨ (s.drv e d).clearing ∨ 8 ≤ s.activeOn e then .next s
  else
    let tab := s.table e d
    match (List.zipIdx tab).find? (fun p => s.mayStart e d tab p.2 p.1) with
    | none => .next s
    | some (x, i) =>
      let t := streamOf x
      let c := s.drv e d
      let start := s.startFor e d t
      let code := if s.entryBad e d x then 0x01
        else if streamAddrBad t then 0x02
        else if s.wstate (if t.isShared then 0 else d) t.wset ≠ wVERIFIED then 0x07
        else if t.mode = 1 ∧ t.len ≠ t.nCores * t.perCore * 32 then 0x03
        else 0
      let h : BufHeld := { idx := i, buf := t.buf, layer := t.layer, start := start }
      let s1 := s.setDrv e d { c with held := c.held ++ [h] }
      if code ≠ 0 then .next (s1.streamFail e d (start, i) x code)
      else
        let a : ActiveStream := { idx := i, entry := x, start := start }
        .next ((s1.setDrv e d { (s1.drv e d) with active := (s1.drv e d).active ++ [a] }).drvFollow e d)

/-! #### Turns (R186, R187) -/

/-- Schedule order: by the step's start, then by the place in the table. -/
def turnBefore (a b : Nat × Nat) : Bool := decide (a.1 < b.1) || (a.1 == b.1 && decide (a.2 < b.2))
def firstOf (l : List ActiveStream) : Option ActiveStream :=
  l.foldl (fun b a => match b with
    | none => some a
    | some q => if turnBefore a.key q.key then some a else some q) none
/-- The active streams that have bytes left to write. -/
def DrvCtx.ready (c : DrvCtx) : List ActiveStream := c.active.filter (fun a => !a.complete)
/-- The stream whose turn it is: the one whose turn lasts, else the next in schedule order after the one served last. -/
def DrvCtx.nextTurn (c : DrvCtx) : Option ActiveStream :=
  match c.turn with
  | none => firstOf c.ready
  | some k =>
    match c.ready.find? (fun a => c.midTurn && a.key == k) with
    | some a => some a
    | none =>
      match firstOf (c.ready.filter (fun a => turnBefore k a.key)) with
      | some a => some a
      | none => firstOf c.ready
/-- A dye may take the engine's next turn: in each round of 256 turns dye q has DRV_SHAREq turns, and a turn beyond its own is free for a
dye where enough are left for those of the others that have work (R187; log entry 133). -/
def State.mayTake (s : State) (e : Fin 8) (d : Dye) : Bool :=
  let share := fun (q : Dye) => s.fld (.drv e) (DRV_SHARE + 4 * q.val) 0 9
  let used := ((List.finRange 16).map (fun q => (s.drv e q).turns)).sum
  let works := (List.finRange 16).filter (fun q => q != d && !s.drvStopped e q && (s.drv e q).ready != [])
  decide ((s.drv e d).turns < share d) || decide ((works.map (fun q => share q - (s.drv e q).turns)).sum < 256 - used)
/-- A turn of a stream begins or goes on, and ends: the last turn of a round begins the next round. -/
def State.turnOn (s : State) (e : Fin 8) (d : Dye) (key : Nat × Nat) : State :=
  s.setDrv e d { (s.drv e d) with turn := some key, midTurn := true }
def State.turnEnd (s : State) (e : Fin 8) (d : Dye) : State :=
  let s1 := s.setDrv e d { (s.drv e d) with midTurn := false, turns := (s.drv e d).turns + 1 }
  if ((List.finRange 16).map (fun q => (s1.drv e q).turns)).sum < 256 then s1
  else (List.finRange 16).foldl (fun (t : State) q => t.setDrv e q { (t.drv e q) with turns := 0 }) s1

/-- Bytes written for a dye: DRV_D_KIB_WRITTEN counts whole KiB. -/
def State.kibWritten (s : State) (e : Fin 8) (d : Dye) (n : Nat) : State :=
  let t := natGet s.drvRem (drvKey e d) + n
  { ((s.bumpP (.drv e) d DRV_D_KIB_WRITTEN (t / 1024)).charge d (3 * n)) with drvRem := natSet s.drvRem (drvKey e d) (t % 1024) }
/-- Bytes of a stream written to a slice by master 7; answers a code of Table 8-4, 0 for none. -/
def State.laySlice (s : State) (e : Fin 8) (d : Dye) (r : RegionNo) (core o : Nat) (bs : List Byte) : Nat × State :=
  let q : CoreId := { region := r, pos := Fin.ofNat 64 core }
  if s.sliceOk q 7 1 o bs.length then
    let w := s.portWrite q 7 o bs
    if w.1 then (6, w.2) else (0, w.2.kibWritten e d bs.length)
  else (2, (s.bump (.spd r) SPD_ACC_ERR).refuseRec (.drover e d) (sliceKey q o) (some q))
/-- A RAW stream's bytes laid core by core (R185). fuel counts cores. -/
def State.layRaw (s : State) (e : Fin 8) (d : Dye) (r : RegionNo) (t : StreamD) : Nat → Nat → List Byte → Nat × State
  | 0, _, _ => (0, s)
  | k + 1, p, bs =>
    if bs = [] then (0, s)
    else
      let per := t.perCore * 32
      let n := min bs.length (per - p % per)
      let w := s.laySlice e d r (t.firstCore + p / per) (t.dst + p % per) (bs.take n)
      if w.1 ≠ 0 then w else w.2.layRaw e d r t k (p + n) (bs.drop n)
/-- What a turn comes to: a code of Table 8-4, 0 for none, the stream after it, the granules that a rejected chunk lies in, and the
state. -/
structure TurnRes where
  code : Nat := 0
  stream : ActiveStream
  grans : List Nat := []
  state : State
/-- The next chunk, where the decode buffer holds its header and R52 rejects it by that, or holds all of it: decoded and written (R190).
A stream keeps less than one chunk and one granule in the buffer, so an engine's eight streams stay far below 4 MiB (Table 8-1). -/
def State.layChunk (s : State) (e : Fin 8) (d : Dye) (r : RegionNo) (t : StreamD) (a : ActiveStream) : Option TurnRes :=
  let h := leNat (a.carry.take 16)
  let seq := (t.firstSeq + a.chunk) % 2 ^ 32
  let tables := fun i => Config.vp4Table (if t.isShared then 0 else d.val) t.wset i
  let at_ := min (4096 * a.granule) t.len - a.carry.length
  let rejected : TurnRes := { code := 4, stream := a, state := s.bump (.drv e) DRV_EVT_REJECT,
                              grans := (List.range a.granule).filterMap (fun g =>
                                if at_ / 4096 ≤ g ∧ 4096 * g < at_ + vp4Size h then some (t.src + 4096 * g) else none) }
  if a.carry.length < 16 then none
  else if vp4HeadBad seq h then some rejected
  else if a.carry.length < vp4Size h then none
  else
    match vp4Block tables seq (a.carry.take (vp4Size h)) with
    | none => some rejected
    | some blk =>
      let w := s.laySlice e d r (t.firstCore + a.chunk / t.perCore) (t.dst + a.chunk % t.perCore * 4352) blk
      let a1 := { a with carry := a.carry.drop (vp4Size h), chunk := a.chunk + 1 }
      let all := decide (t.nCores * t.perCore ≤ a1.chunk)
      let fills := a1.carry == [] && decide (t.len ≤ 4096 * a.granule)
      some { code := if w.1 ≠ 0 then w.1 else if all && !fills then 3 else 0, stream := { a1 with complete := all }, state := w.2 }

/-- Whether a Courier's cancellation of the stream is on its way to the engine (R175, R192). -/
def State.cancelling (s : State) (e : Fin 8) (d : Dye) (stream : Nat) : Bool :=
  s.cancels.any (fun x => s.owner x.1 == d && regionDie x.1 == engineDie e && x.2 == stream)
/-- A turn is over: a failure ends the stream, else it goes on from where it is. -/
def TurnRes.done (x : TurnRes) (e : Fin 8) (d : Dye) : State :=
  let s := x.state.turnEnd e d
  if x.code ≠ 0 then s.streamFail e d x.stream.key x.stream.entry x.code x.grans
  else s.setDrv e d { (s.drv e d) with active := (s.drv e d).active.map (fun y => if y.key = x.stream.key then x.stream else y) }
/-- A granule of a stream that has passed its check: copied, which is a RAW stream's turn, or put behind what the decode buffer holds,
which is a VP4 stream's turn once it makes a whole chunk. -/
def State.takeGranule (s : State) (e : Fin 8) (d : Dye) (r : RegionNo) (a : ActiveStream) (bytes : List Byte) : State :=
  let t := streamOf a.entry
  let a1 := { a with granule := a.granule + 1 }
  if t.mode = 1 then
    let u := s.layRaw e d r t 65 a.written bytes
    ({ code := u.1, state := u.2,
       stream := { a1 with written := a.written + bytes.length, complete := decide (t.len ≤ 4096 * a1.granule) } } : TurnRes).done e d
  else
    let a2 := { a1 with carry := a.carry ++ bytes }
    match s.layChunk e d r t a2 with
    | some x => x.done e d
    | none => s.setDrv e d { (s.drv e d) with active := (s.drv e d).active.map (fun y => if y.key = a.key then a2 else y) }
/-- CHUNK_FETCH: the stream whose turn it is takes it. Where a whole chunk is at hand it is decoded; else the next granule is fetched,
checked (R189), and decoded or copied. g says which of its two reads came back damaged or poisoned on the way. Where a cancellation of
the stream is on its way, a CRC failure is counted and damages the set, and the step does not fail (Table 8-7; log entry 118). -/
def execChunkFetch (e : Fin 8) (d : Dye) (stream : BitVec 16) (g : GranuleFetch) (s : State) : Out :=
  let c := s.drv e d
  match c.nextTurn with
  | none => .next s
  | some a =>
    let t := streamOf a.entry
    let set := if t.isShared then 0 else d
    if s.drvStopped e d ∨ t.stream ≠ stream.toNat ∨ (c.midTurn = false ∧ s.mayTake e d = false) then .next s
    else if s.wstate set t.wset ≠ wVERIFIED then .next (s.streamFail e d a.key a.entry 0x07).settleAll
    else
      match s.streamRegion e d t with
      | none => .next (s.streamFail e d a.key a.entry 0x01).settleAll
      | some r =>
        let s0 := s.turnOn e d a.key
        match (if t.mode = 0 then s0.layChunk e d r t a else none) with
        | some x => .next (x.done e d).settleAll
        | none =>
          let left := t.len - 4096 * a.granule
          if left = 0 then .next ((({ code := 3, stream := a, state := s0 } : TurnRes).done e d).settleAll)
          else
            let m := Master.drover e d
            let at_ := t.src + 4096 * a.granule
            let x := s0.read m at_ 4096
            let w := x.2.read m (t.crc + 4 * a.granule) 4
            let s1 := (w.2.bump (.drv e) DRV_EVT_KIB_STORED 4).bumpP (.drv e) d DRV_D_KIB_STORED 4
            let good := decide ((crc32c x.1.data).toNat = leNat w.1.data)
            let bad1 := x.1.poison || g.poison1
            let bad2 := x.1.poison || g.poison2
            let ok1 := g.crc1 && good && !bad1
            let ok2 := g.crc2 && good && !bad2
            let fails := fun (t : State) (code : Nat) =>
              ((({ code := code, stream := a, grans := [at_], state := t } : TurnRes).done e d).settleAll : State)
            if x.1.refused || w.1.refused || !s.onDie e d at_ (min left 4096) || !s.onDie e d (t.crc + 4 * a.granule) 4 then
              .next (fails s1 0x02)
            else if !ok1 && !ok2 && !(bad1 && bad2) && s.cancelling e d stream.toNat then
              .next ((s1.bump (.drv e) DRV_EVT_CRC_FAIL).damageWset set t.wset [at_])
            else if !ok1 && !ok2 then
              .next (fails (s1.bump (.drv e) DRV_EVT_CRC_FAIL) (if bad1 && bad2 then 0x06 else 0x05))
            else
              let ev : LedgerEvent := { type := 1, detector := 0x0E, dye := d, severity := 1, detail := [t.stream] }
              let s2 := if ok1 then s1 else
                (s1.bump (.drv e) DRV_EVT_REREAD).ledger { ev with lcoord := BitVec.ofNat 16 e.val }
              .next (s2.takeGranule e d r a (x.1.data.take (min left 4096))).settleAll

/-- STREAM_END: a stream whose last byte is written ends. -/
def execStreamEnd (e : Fin 8) (d : Dye) (stream : BitVec 16) (s : State) : Out :=
  let c := s.drv e d
  match c.active.find? (fun a => (streamOf a.entry).stream == stream.toNat && a.complete) with
  | none => .next s
  | some a =>
    .next ((s.setDrv e d { c with active := c.active.filter (fun y => y.key != a.key), ended := c.ended ++ [a.key] }).drvFollow
      e d)

/-- STREAM_READY_POINT: a stream that has not ended by its ready point delays its layer. -/
def execStreamReadyPoint (e : Fin 8) (d : Dye) (stream : BitVec 16) (s : State) : Out :=
  let c := s.drv e d
  match (List.zipIdx (s.table e d)).find? (fun p => (streamOf p.1).stream == stream.toNat) with
  | none => .next s
  | some (x, i) =>
    let t := streamOf x
    if c.over (s.startFor e d t, i) ∨ s.planFor e d t = 0 ∨ s.now < s.readyPoint e d t then .next s
    else .next ((s.bumpP (.drv e) d DRV_D_LATE).detectUnit 0x2A d e.val [stream.toNat])

/-- LAYER_END of a layer has come in the step of a START, or that step is over. -/
def State.layerEnded (s : State) (d : Dye) (start layer : Nat) : Bool :=
  match s.plans.find? (fun q => q.plan.dye == d && q.plan.start.toNat == start) with
  | some q => decide (start + (q.plan.layers.getD layer []).getD 7 0 ≤ s.now)
  | none => true
/-- BUFFER_RELEASE: at LAYER_END of a layer, the buffers that it consumed. -/
def execBufferRelease (e : Fin 8) (d : Dye) (layer : BitVec 16) (s : State) : Out :=
  let c := s.drv e d
  let goes := fun (h : BufHeld) => h.layer == layer.toNat && s.layerEnded d h.start h.layer
  .next (s.setDrv e d { c with held := c.held.filter (fun h => !goes h),
                               released := c.released ++ (c.held.filter goes).map (fun h => (h.start, h.idx)) })

/-- CANCELLATION (R192): one of another plan is ignored. -/
def execCancellation (e : Fin 8) (d : Dye) (stream : BitVec 16) (start : Word64) (s : State) : Out :=
  let c := s.drv e d
  let s0 := { s with cancels := s.cancels.filter (fun x =>
    !(s.owner x.1 == d && regionDie x.1 == engineDie e && x.2 == stream.toNat)) }
  match (List.zipIdx (s.table e d)).find? (fun p => (streamOf p.1).stream == stream.toNat) with
  | none => .next s0
  | some (x, i) =>
    let k := (start.toNat, i)
    if start.toNat ≠ s.startFor e d (streamOf x) then .next s0
    else
      let past := c.ended.contains k || c.failed.contains k
      let c1 := { c with active := c.active.filter (fun a => a.key != k),
                         held := c.held.filter (fun h => (h.start, h.idx) != k),
                         skipped := if past then c.skipped else c.skipped ++ [k],
                         released := c.released ++ [k] }
      .next (((s0.setDrv e d c1).bumpP (.drv e) d DRV_D_CANCELLED).drvFollow e d)

/-! ### Control (R187, R198 to R200) -/

/-- DRV_D_CTRL is written by the dye's region controllers of the die and by the management partition. -/
def State.drvCtrl (s : State) (m : Master) (e : Fin 8) (d : Dye) (f : State → State) : State :=
  let ok := match m with
    | .regionController r => (s.owner r == d && regionDie r == engineDie e) || s.owner r == 0
    | .vf q => q == 0
    | _ => false
  if ok then (f s).answer [] else s.permissionError
/-- STOP: progress of the active streams is forgotten, their slots are kept. -/
def State.drvStop (s : State) (e : Fin 8) (d : Dye) : State :=
  let c := s.drv e d
  let c1 := { c with active := c.active.map (fun a => { idx := a.idx, entry := a.entry, start := a.start }) }
  ((s.setDrv e d c1).setFld (.drv e) (pageOff d DRV_D_STATUS) 0 3 3).drvFollow e d
/-- GO to a STOPPED context: every stream that had not ended starts from its first chunk. -/
def State.drvGo (s : State) (e : Fin 8) (d : Dye) : State :=
  if s.drvStopped e d then (s.setFld (.drv e) (pageOff d DRV_D_STATUS) 0 3 0).drvFollow e d else s
/-- DRV_STOP. -/
def execDrvStop (m : Master) (e : Fin 8) (d : Dye) (s : State) : Out := .next (s.drvCtrl m e d (fun s => s.drvStop e d))
/-- DRV_GO. -/
def execDrvGo (m : Master) (e : Fin 8) (d : Dye) (_replay : Bool) (s : State) : Out :=
  .next (s.drvCtrl m e d (fun s => s.drvGo e d))
/-- DRV_ERR_ACK. -/
def execDrvErrAck (m : Master) (e : Fin 8) (d : Dye) (s : State) : Out :=
  .next (s.drvCtrl m e d (fun s => s.setBit (.drv e) (pageOff d DRV_D_STATUS) 4 false))
/-- DRV_D_PLAN written: it is its lane's plan from now on. Streams of the earlier step go on under theirs; new gates use the new one. What is
known of the streams of steps that are over is dropped. -/
def State.drvPlan (s : State) (e : Fin 8) (d : Dye) (a : Addr) : State :=
  let lane := s.planLane e d a.toNat
  let s1 := s.wr64 (.drv e) (pageOff d DRV_D_PLAN_L) (BitVec.ofNat 64 a.toNat)
  let c := s.drv e d
  let c1 := if lane then { c with planP := a.toNat } else { c with planD := a.toNat }
  let known := [s.planStart e d c1.planD, s.planStart e d c1.planP] ++
    (s.plans.filter (fun q => q.plan.dye == d)).map (fun q => q.plan.start.toNat)
  let keep := fun (l : List (Nat × Nat)) => l.filter (fun k => known.contains k.1)
  (s1.setDrv e d { c1 with ended := keep c.ended, skipped := keep c.skipped, failed := keep c.failed,
                           released := keep c.released }).drvFollow e d
/-- DRV_PLAN_WRITE. -/
def execDrvPlanWrite (m : Master) (e : Fin 8) (d : Dye) (a : Addr) (s : State) : Out :=
  if m = .innkeeper then .next ((s.drvPlan e d a).answer []) else .next s.permissionError
/-- DRV_SHARE_WRITE: refused where the shares would sum above 256 (Table 8-7). -/
def execDrvShareWrite (m : Master) (e : Fin 8) (d : Dye) (v : Word32) (s : State) : Out :=
  let others := ((List.finRange 16).filter (· ≠ d)).map (fun q => s.fld (.drv e) (DRV_SHARE + 4 * q.val) 0 9)
  if s.dyeOf m ≠ 0 ∨ 256 < others.sum + bitsOf v 0 9 then .next s.permissionError
  else .next ((s.wr (.drv e) (DRV_SHARE + 4 * d.val) (BitVec.ofNat 32 (bitsOf v 0 9))).answer [])
/-- A dye's context on an engine is cleared (R199): its streams end, its decode-buffer entries and its page read 0, its weight sets
become EMPTY. The clear is in progress until DRV_DYE_CLEAR. -/
def State.drvClear (s : State) (e : Fin 8) (d : Dye) : State :=
  let s1 := (List.range 16).foldl (fun t w => t.emptyWset d w) s
  let s2 := (s1.setDrv e d { clearing := true }).resetWin (.drv e) (pageOff d 0) (pageOff d 0x100)
  { (s2.drvFollow e d) with drvRem := natSet s2.drvRem (drvKey e d) 0 }
/-- DRV_DYE_CLEAR: the clear ends, with the page at its reset values. -/
def execDrvDyeClear (e : Fin 8) (d : Dye) (s : State) : Out :=
  let s1 := s.drvClear e d
  .next (((s1.setDrv e d {}).drvFollow e d).resetWin (.drv e) (pageOff d 0) (pageOff d 0x100))

/-! ### Loading (R193 to R197) -/

/-- The WEIGHTS entries of the image that governs a dye's sets: the system image for dye 0, else its partition image. -/
def State.weightEntries (s : State) (d : Dye) : List WeightEntry :=
  let img := if d = 0 then s.sysImage else tabGet (fun _ => none) s.images d.val
  match img with
  | none => []
  | some i => i.sections.flatMap (fun x => match x.body with | .weights ws => ws | _ => [])
def State.weightEntry (s : State) (d : Dye) (w : Nat) : Option WeightEntry := (s.weightEntries d).find? (fun e => e.wset.val == w)
/-- R193: the checks that a package makes of a manifest by itself. -/
def State.manifestOk (s : State) (d : Dye) (mf : Manifest) : Bool :=
  mf.magic == 0x4D57 && mf.version == 1 && (mf.sigAlg == 1 || mf.sigAlg == 2) && mf.archLevel == 1 && !mf.rsv &&
  decide (1 ≤ mf.sets.length) && decide (mf.sets.length ≤ 16) && mf.keyOk && mf.sigOk &&
  mf.sets.all (fun x => !x.rsv && decide (x.mode.toNat ≤ 2) && decide (x.firstUnit + x.nUnits ≤ mf.units.length) &&
    (decide (x.mode.toNat = 2) == decide (d = 0)) &&
    (x.mode != 1 || (decide (6 ≤ x.srcFmt.toNat) && decide (x.srcFmt.toNat ≤ 8) && decide (x.dstFmt.toNat ≤ 5))) &&
    ((mf.units.drop x.firstUnit).take (x.nUnits - 1)).all (fun u => u.len == 1048576) &&
    (match s.weightEntry d x.wset.val with
     | some e => e.keyDigests.contains mf.keyDigest && e.mode == x.mode
     | none => false)) &&
  mf.units.all (fun u => decide (1 ≤ u.len) && decide (u.len ≤ 1048576))
/-- A run of n FREE frames on a die from a number on; where it lies is the loader's choice, a free value (log entry 4). -/
def State.runFree (s : State) (f n : Nat) : Bool := (List.range n).all (fun i => (s.frame (f + i)).state == 0)
def State.takeRun (s : State) (d : Dye) (die : Nat) (n : Nat) (st : Nat) : Option Nat × State :=
  let dr := s.draw
  let lo := die * 2 ^ 23
  let at_ := lo + Config.freeNat dr.1 % (2 ^ 22)
  let top := s.frames.foldl (fun a e => if e.1 / 2 ^ 23 = die ∧ e.1 < 16771072 then max a (e.1 + 1) else a) lo
  let base := if s.runFree at_ n then at_ else top
  if n ≤ 2 ^ 22 ∧ s.runFree base n ∧ base + n ≤ lo + 2 ^ 23 then
    (some base, (List.range n).foldl (fun t i =>
      t.grantFrame (base + i) d st 2) dr.2)
  else (none, dr.2)

/-- A run of n frames on each of some dies, or none at all. -/
def State.takeRuns (s : State) (d : Dye) (n st : Nat) : List (Fin 2) → List Nat → Option (List Nat) × State
  | [], l => (some l, s)
  | die :: ds, l =>
    let f := s.takeRun d die.val n st
    match f.1 with
    | some b => f.2.takeRuns d n st ds (l ++ [b])
    | none => (none, l.foldl (fun t b => (List.range n).foldl (fun u i => u.freeFrame (b + i)) t) f.2)
/-- MANIFEST_CHECK: every set named that is EMPTY begins to load, with its frames on every die that the image names. -/
def execManifestCheck (d : Dye) (mf : Manifest) (s : State) : Out :=
  if !s.manifestOk d mf then
    .next (s.ledger { type := 1, detector := 0, dye := d, severity := 2, detail := [0x5EC] })
  else
    .next (mf.sets.foldl (fun t x =>
      if t.wstate d x.wset.val ≠ wEMPTY then t
      else
        let e := t.weightEntry d x.wset.val
        let n := (e.map (·.frames)).getD 0
        let f := t.takeRuns d n (if x.mode = 2 then 2 else 1) ((e.map (·.dies)).getD []) []
        match f.1 with
        | none => f.2
        | some bases =>
          let w : WsetSt := { bases := bases, frames := n, set := x, units := mf.units }
          (f.2.setWset d x.wset.val (some w)).setWstate d x.wset.val wLOADING) s)

/-- The units of a set that a package stores, in order. -/
def WsetSt.unitsOf (x : WsetSt) (ord : Nat) : List Nat :=
  ((List.range x.set.nUnits).map (· + x.set.firstUnit)).filter (fun u =>
    ((x.units[u]?).map (fun e => e.dest.toNat / 2 ^ ord % 2 == 1)).getD false)
/-- The CRC words of the granules from offset o, n bytes, of local HBM, put where the dye's stream tables look for them. -/
def State.writeCrcs (s : State) (d : Dye) (o n : Nat) : State :=
  (List.finRange 8).foldl (fun t e => (t.table e d).foldl (fun u x =>
    let y := streamOf x
    (List.range ((n + 4095) / 4096)).foldl (fun v i =>
      let a := 0x10000000000 + o + 4096 * i
      if y.src ≤ a ∧ a < y.src + y.len then
        let b := tabGetList byteReset v.hbm (a - 0x10000000000) 4096
        v.hbmWrite (y.crc - 0x10000000000 + 4 * ((a - y.src) / 4096)) (leBytes (crc32c b).toNat 4)
      else v) u) t) s

/-! #### Conversion on arrival (R195) -/

/-- The source value of an element: BF16, or FP8 times its per-tensor scale with one rounding. -/
def sourceValue (fmt : Nat) (scale : Word32) (bs : List Byte) : Word32 :=
  if fmt = 8 then BitVec.ofNat 32 (leNat bs * 65536)
  else (rnd32 (mulFV (decodeElem (if fmt = 7 then .e5m2 else .e4m3) (leNat bs)) (fval scale))).1
/-- Stationary blocks of one matrix: column groups of 64 ascending, then K slices ascending; in each block the codes
column by column, then the scales. -/
def convertMatrix (src dst k n : Nat) (scale : Word32) (el : Nat → Nat → List Byte) : List (List Byte) :=
  let kb := blockK dst
  let f := (fmtElem dst).getD .e2m1
  (List.range (n / 64)).flatMap (fun cg => (List.range (k / kb)).map (fun ks =>
    let cols := (List.range 64).map (fun c =>
      (List.range (kb / 32)).map (fun b =>
        mxQuant f (List.replicate 32 Rnd.rne)
          ((List.range 32).map (fun i => fval (sourceValue src scale (el (ks * kb + b * 32 + i) (cg * 64 + c)))))))
    let codes := packCodes f.width (cols.flatMap (fun c => c.flatMap (fun q => q.2.1)))
    leBytes codes (blockCodeBytes dst) ++ cols.flatMap (fun c => c.map (fun q => BitVec.ofNat 8 q.1))))
/-- A block as a VP4 chunk in stored mode. -/
def storedChunk (seq : Nat) (blk : List Byte) : List Byte :=
  leBytes (0x5634 + 2 ^ 16 + 2 ^ 24 + 4352 * 2 ^ 32 + seq % 2 ^ 32 * 2 ^ 64) 16 ++ blk.drop 4096 ++ blk.take 4096 ++
    List.replicate 48 0
/-- Every matrix of a set converted, in the order of the WEIGHTS entry. -/
def convertSet (d w src dst : Nat) (get : Nat → Byte) : List (Nat × Nat) → Nat → Nat → Nat → List Byte
  | [], _, _, _ => []
  | (k, n) :: t, i, at_, seq =>
    let sz := if src = 8 then 2 else 1
    let el := fun r c => (List.range sz).map (fun b => get (at_ + (c * k + r) * sz + b))
    let blks := convertMatrix src dst k n (Config.tensorScale d w i) el
    let out := if dst = 0 then blks.zipIdx.flatMap (fun p => storedChunk (seq + p.2) p.1) else blks.flatten
    out ++ convertSet d w src dst get t (i + 1) (at_ + k * n * sz) (seq + blks.length)

/-- The sets that a partition's steps use: its own, and the shared base sets that its image or its stream tables name (R196). -/
def State.usedSets (s : State) (d : Dye) : List (Dye × Nat) :=
  ((s.weightEntries d).map (fun e => (if e.mode = 2 then 0 else d, e.wset.val)) ++
   (List.finRange 8).flatMap (fun e => (s.table e d).filterMap (fun x =>
     if (streamOf x).isShared then some ((0 : Dye), (streamOf x).wset) else none))).dedup
/-- A replacement of a set that a partition uses is in progress; INN_D_STATUS.DRAINING says so (Table 9-11). -/
def State.dyeDrains (s : State) (d : Dye) : Bool :=
  s.draining.any (fun w => w.1 == d) || (s.draining.any (fun w => w.1 == 0) && (s.usedSets d).any (fun p => s.draining.contains p))
def State.drainFollow (s : State) : State :=
  (List.finRange 16).foldl (fun (t : State) q => t.setBit .inn (pageOff q INN_D_STATUS) 3 (s.dyeDrains q)) s
/-- Bytes of a set written from a place in it on, over its runs, with the CRC words of their granules. fuel counts runs. -/
def State.writeSet (s : State) (d : Dye) (x : WsetSt) : Nat → Nat → List Byte → State
  | 0, _, _ => s
  | k + 1, o, bs =>
    match x.hbmOf o with
    | none => s
    | some h =>
      let n := min bs.length (x.size - o % x.size)
      ((s.hbmWrite h (bs.take n)).writeCrcs d h n).writeSet d x k (o + n) (bs.drop n)
/-- All units of this package have passed: VERIFIED here. A converted set is written whole as it loads, and in the granules that failed
as it is repaired. -/
def State.wsetDone (s : State) (d : Dye) (w : Nat) (x : WsetSt) : State :=
  let s1 := if x.set.mode = 1 then
      let e := s.weightEntry d w
      let bytes := convertSet d.val w x.set.srcFmt.toNat x.set.dstFmt.toNat (tabGet byteReset x.source)
        ((e.map (·.matrices)).getD []) 0 0 0
      if x.bad = [] then s.writeSet d x 3 0 bytes
      else x.bad.foldl (fun (t : State) g => t.writeSet d x 3 (4096 * g) ((bytes.drop (4096 * g)).take 4096)) s
    else s
  let s2 := (s1.setWset d w (some { x with bad := [] })).tellWstate d w wVERIFIED
  if s2.draining.contains (d, w) then ({ s2 with draining := s2.draining.filter (fun p => p ≠ (d, w)) } : State).drainFollow else s2

/-- The set of a dye that a unit belongs to, among those that load or are repaired. -/
def State.unitSet (s : State) (d : Dye) (unit : Nat) : Option (Nat × WsetSt) :=
  (List.range 16).findSome? (fun w => (s.wset d w).bind (fun x =>
    if (s.wstate d w = wLOADING ∨ s.wstate d w = wREPAIRING) ∧ x.set.firstUnit ≤ unit ∧ unit < x.set.firstUnit + x.set.nUnits
    then some (w, x) else none))
/-- Slots below a package in the load tree (R194), by package ordinal; fuel bounds the depth. -/
def subtree (parents : List Nat) : Nat → Nat → List Nat
  | 0, p => [p]
  | n + 1, p => p :: ((parents.zipIdx.filter (fun q => q.1 == p && q.2 != p)).map (·.2)).flatMap (subtree parents n)
def State.loadParents (s : State) (d : Dye) : List Nat :=
  match tabGet (fun _ => none) s.images d.val with
  | none => []
  | some i => (i.sections.findSome? (fun x => match x.body with | .load _ ps => some ps | _ => none)).getD []
/-- A unit passed on to each child whose subtree stores it. -/
def State.forwardUnit (s : State) (d : Dye) (unit : Nat) (dest : Word64) (data : List Byte) : State :=
  let ps := s.loadParents d
  let me := s.pkgOrd d
  let kids := (ps.zipIdx.filter (fun q => q.1 == me && q.2 != me)).map (·.2)
  kids.foldl (fun t k =>
    if (subtree ps 6 k).any (fun o => dest.toNat / 2 ^ o % 2 == 1) then
      match t.slotOf d k with
      | some sl =>
        let u := t.overLink sl d (data.length + data.length / 4096 * 32)
        { u with linkTx := u.linkTx ++ [.bulk sl d unit data] }
      | none => t
    else t) s

/-- LOAD_UNIT: a unit reaches this package; hash is what the package computes over its index and bytes. -/
def execLoadUnit (d : Dye) (unit : Nat) (data : List Byte) (hash : Digest) (s : State) : Out :=
  match s.unitSet d unit with
  | none => .next s
  | some (w, x) =>
    match x.units[unit]? with
    | none => .next s
    | some u =>
      let s1 := s.forwardUnit d unit u.dest data
      let mine := x.unitsOf (s.pkgOrd d)
      match mine.findIdx? (· == unit) with
      | none => .next s1
      | some k =>
        if x.passed.contains unit then .next s1
        else if hash ≠ u.hash ∨ data.length ≠ u.len then
          let n := natGet x.fails unit + 1
          if 4 ≤ n then
            if s.wstate d w = wREPAIRING then .next (s1.tellWstate d w wDAMAGED)
            else .next ((s1.emptyWset d w).tellWstate d w wEMPTY)
          else .next ((s1.setWset d w (some { x with fails := natSet x.fails unit n })).tellPeers d 17 [w, unit])
        else
          let x1 := { x with passed := x.passed ++ [unit] }
          let s2 := if x.set.mode = 1 then
              s1.setWset d w (some { x1 with source := tabSetList byteReset x.source (k * 1048576) data })
            else (s1.writeSet d x 3 (k * 1048576) data).setWset d w (some x1)
          let x2 := (s2.wset d w).getD x1
          if mine.all (fun v => x2.passed.contains v) then .next (s2.wsetDone d w x2) else .next s2

/-! #### Repair (R191) -/

/-- The units, by number among those stored, from which the bytes of a converted set's granule come: for each matrix, its blocks that
the granule overlaps, and of those the runs of K in each of the 64 columns. -/
def convertCover (src dst g : Nat) : List (Nat × Nat) → Nat → Nat → List Nat
  | [], _, _ => []
  | (k, n) :: t, out, at_ =>
    let sz := if src = 8 then 2 else 1
    let kb := blockK dst
    let per := if dst = 0 then 4416 else blockBytes dst
    let slices := k / kb
    let blks := (List.range (n / 64 * slices)).filter (fun b =>
      decide (out + b * per < 4096 * g + 4096) && decide (4096 * g < out + b * per + per))
    (blks.flatMap (fun b => (List.range 64).flatMap (fun c =>
      let from_ := at_ + ((b / slices * 64 + c) * k + b % slices * kb) * sz
      [from_ / 1048576, (from_ + kb * sz - 1) / 1048576]))).dedup ++
    convertCover src dst g t (out + n / 64 * slices * per) (at_ + k * n * sz)
/-- The units of a package that cover the failed granules of a set. -/
def State.unitsNeeded (s : State) (d : Dye) (w : Nat) (x : WsetSt) : List Nat :=
  let mine := x.unitsOf (s.pkgOrd d)
  let places := if x.set.mode = 1 then
      x.bad.flatMap (fun g => convertCover x.set.srcFmt.toNat x.set.dstFmt.toNat g (((s.weightEntry d w).map (·.matrices)).getD []) 0 0)
    else x.bad.map (fun g => g * 4096 / 1048576)
  mine.zipIdx.filterMap (fun p => if places.contains p.2 then some p.1 else none)
/-- A repair of a DAMAGED set begins on this package: the units that cover its failed granules are asked for again; where none failed
here, the set is VERIFIED again. -/
def State.repairWset (s : State) (d : Dye) (w : Nat) : State :=
  match s.wset d w with
  | none => s
  | some x =>
    if s.wstate d w ≠ wDAMAGED then s
    else
      let need := s.unitsNeeded d w x
      let x1 := { x with passed := (x.unitsOf (s.pkgOrd d)).filter (fun u => !need.contains u), fails := [] }
      let s1 := (s.setWset d w (some x1)).setWstate d w wREPAIRING
      if need = [] then s1.wsetDone d w x1
      else need.foldl (fun (t : State) u => t.tellPeers d 17 [w, u]) s1
/-- WEIGHT_SET_REPAIR: the repair of a DAMAGED set begins on every package of the partition. -/
def execWeightSetRepair (d : Dye) (w : Fin 16) (s : State) : Out :=
  if (s.wset d w.val).isNone ∨ s.wstate d w.val ≠ wDAMAGED then .next s
  else .next ((s.tellAll d (.weightState d w wREPAIRING)).repairWset d w.val)
/-- Another package of a partition says a set's state there: DAMAGED holds for every package, a load that failed fails everywhere, and
a repair begins everywhere (R191, R194). -/
def State.hearWstate (s0 : State) (sl : SlotNo) (d : Dye) (w v : Nat) : State :=
  let s : State := { s0 with peerWsets := natSet s0.peerWsets (peerKey sl d w) v }
  if v = wDAMAGED ∧ (s.wstate d w = wVERIFIED ∨ s.wstate d w = wREPAIRING) then s.setWstate d w wDAMAGED
  else if v = wEMPTY ∧ s.wstate d w = wLOADING then s.emptyWset d w
  else if v = wREPAIRING then s.repairWset d w
  else s

/-! #### Replacement (R197) -/

/-- No work of a partition is admitted or runs on this package. -/
def State.drained (s : State) (d : Dye) : Bool :=
  !(s.items.any (fun i => i.dye == d) || s.plans.any (fun q => q.plan.dye == d) || s.admitted.any (fun p => p.1 == d))
/-- What drains is freed once every partition that uses it has no admitted item left (Table 8-6). -/
def State.drainWeights (s : State) : State :=
  s.draining.foldl (fun t p =>
    if (List.finRange 16).all (fun q => s.drained q || !(q == p.1 || (s.usedSets q).contains p)) ∧ t.wstate p.1 p.2 ≠ wLOADING ∧
        t.wstate p.1 p.2 ≠ wEMPTY then
      (t.emptyWset p.1 p.2).tellWstate p.1 p.2 wEMPTY
    else t) s
/-- WEIGHT_REPLACEMENT: new work is refused until the set has drained, loaded and become VERIFIED. -/
def execWeightReplacement (d : Dye) (w : Fin 16) (s : State) : Out :=
  if s.wstate d w.val = wEMPTY ∨ s.draining.contains (d, w.val) then .next s
  else
    .next (({ s with draining := s.draining ++ [(d, w.val)] } : State).drainFollow.drainWeights)

end Sys2Proof.Machine
end

