-- ==== Sys2Proof/Machine/Power.lean ====
section
/-! DEFINITION. Region power states and the power sequencers (R306 to R309), and the IVR's shorts and hiccups (R310). -/

namespace Sys2Proof.Machine

/-! ### Region states (Table 14-10): 0 ACTIVE, 1 CLOCK_GATED, 2 RETENTION, 3 OFF, 4 ENTERING, 5 WAKING, 6 FAILED -/

def rgnReg (r : RegionNo) : Nat := PWR_RGN_STATUS + 4 * r.val
def State.setRgnState (s : State) (r : RegionNo) (v : Nat) : State := s.setFld .pwr (rgnReg r) 0 3 v
def State.rgnTarget (s : State) (r : RegionNo) : Nat := s.fld .pwr (rgnReg r) 3 2
def State.setRgnTarget (s : State) (r : RegionNo) (v : Nat) : State := s.setFld .pwr (rgnReg r) 3 2 v
def State.setRgnFreq (s : State) (r : RegionNo) (f : Nat) : State := s.setFld .pwr (rgnReg r) 16 11 f
def State.pll (s : State) (r : RegionNo) (b : Bool) : State := s.setBit .clk CLK_PLL_LOCK r.val b
/-- The common frequency of a dye (INN_D_FREQ). -/
def State.commonFreq (s : State) (d : Dye) : Nat := s.fld .inn (pageOff d INN_D_FREQ) 0 16

/-- A region may leave Active (R306): every core IDLE, STOPPED, HALTED or FAULTED; its pipeline, Courier and the Drover
contexts of its dye on its die IDLE or STOPPED. -/
def State.mayLeave (s : State) (r : RegionNo) : Bool :=
  s.coresIdle r && allUnits.all (fun u => s.unitState r u == 0 || s.unitState r u == 3) &&
  (s.couState r == 0 || s.couState r == 9) &&
  (List.finRange 8).all (fun e => engineDie e != regionDie r || (s.drv e (s.owner r)).active == [] ||
    s.drvStopped e (s.owner r))

/-- A wake from Off clears the slices, the pipeline and the Courier (R108, R136, R180): their windows show it until it ends. -/
def State.wakeClearing (s : State) (r : RegionNo) : State :=
  (((((s.atpClearStart r).couClearStart r).setFld (.spd r) SPD_CLR_STATUS 0 3 1).setFld (.spd r) SPD_CLR_STATUS 4 3
    (causeNo .wake)).setBit (.spd r) SPD_STATUS 0 true)
/-- The HBM controllers of a die leave self-refresh. -/
def State.dieAwake (s : State) (die : Nat) : State :=
  (List.range 4).foldl (fun (t : State) k => t.hbmAwake (Fin.ofNat 8 (die * 4 + k))) s
/-- A wake or a raise begins, from a stable state. One from Off is a first soft start (HICCUPS 0), and the controllers of its die leave
self-refresh (R308). -/
def State.beginWake (s : State) (r : RegionNo) (from_ target : Nat) : State :=
  let s1 := if from_ = 3 then ((s.wakeClearing r).dieAwake (regionDie r)).setFld .pwr (rgnReg r) 7 2 0 else s
  { (s1.setRgnState r 5).setRgnTarget r target with wakeFrom := natSet s.wakeFrom r.val from_ }
/-- A lower state is entered; the region does no work from here on, and its FREQ reads 0. Before Retention the rows under test are
restored and released (R107). -/
def State.beginEntry (s : State) (r : RegionNo) (target : Nat) : State :=
  (((if target = 2 then s.testsEnd r else s).setRgnState r 4).setRgnTarget r target).setRgnFreq r 0
def State.pend (s : State) (r : RegionNo) (target : Option Nat) : State :=
  { s with rgnPend := natSet s.rgnPend r.val ((target.map (· + 1)).getD 0) }
/-- No region is woken while a power warning stands (R320), nor after a critical temperature until CRIT_ACK (R315). -/
def State.noWake (s : State) : Bool := s.bit .pwr PWR_STATUS 4 || s.bit .thm THM_STATUS 2
/-- A request to the power sequencer (R306, R307, R309). While a hiccup retry is due, the region is about to wake: a lower state waits
until then (R310). -/
def State.rgnRequest (s : State) (r : RegionNo) (target : Nat) : State :=
  let st := s.rgnState r
  if (s.owner r == 0 && target != 3) || (s.noWake && (target == 0 || (st == 3 && target != 3))) || r ∈ s.failedRgns then s
  else if st = 6 then s
  else if tabGet (fun _ => false) s.ivrShort r.val then s.pend r (if target = 0 then none else some target)
  else if st = 5 then
    if target = 0 then (s.setRgnTarget r 0).pend r none else s.pend r (some target)
  else if st = 4 then
    if target = 0 then (s.setFld .pwr (rgnReg r) 6 1 1).pend r (some 0) else s.pend r (some target)
  else if target = st then s.pend r none
  else if target = 0 then
    ((s.setFld .pwr (rgnReg r) 6 1 0).pend r none).beginWake r st 0
  else if st = 0 then
    if s.mayLeave r then ((s.beginEntry r target).pend r none).pkgFollow else s.pend r (some target)
  else if st < target then (s.beginEntry r target).pend r none
  else (s.beginWake r st target).pend r none

/-- REGION_POWER_REQUEST: PWR_RGNn_CTRL answers only the management partition; the Innkeeper's agent requests for the
regions of its lanes. -/
def execRegionPowerRequest (m : Master) (r : RegionNo) (target : BitVec 2) (s : State) : Out :=
  if m = .innkeeper ∨ s.dyeOf m = 0 then .next ((s.rgnRequest r target.toNat).answer []) else .next s.permissionError

/-- What a region loses in Off (R107, R111): its cores' contents, the tests of its slices, a clear that was pending or in progress. -/
def State.offEntered (s : State) (r : RegionNo) : State :=
  ((((s.pll r false).dropCores r).clearAbandon r).foldBist r).bistBits r
/-- REGION_ENTRY_DONE: the target of the entry is reached; an enable that came meanwhile starts the full wake from it
(R309). An entry that had waited for the region's units begins and ends here. -/
def execRegionEntryDone (r : RegionNo) (s : State) : Out :=
  let st := s.rgnState r
  let p := natGet s.rgnPend r.val
  if st = 4 then
    let t := s.rgnTarget r
    let s1 := s.setRgnState r t
    let s2 := if t = 3 then s1.offEntered r else s1
    if p = 1 ∧ s.noWake then .next (s2.pend r none).pkgFollow
    else if p = 1 then
      .next ((((s2.setFld .pwr (rgnReg r) 5 1 (if t = 3 then 1 else 0)).pend r none).beginWake r t 0).pkgFollow)
    else if p ≠ 0 then .next ((((s2.pend r none).rgnRequest r (p - 1))).pkgFollow)
    else .next s2.pkgFollow
  else if st = 0 ∧ 1 < p ∧ s.mayLeave r then
    let s1 := ((s.beginEntry r (p - 1)).setRgnState r (p - 1)).pend r none
    .next (if p = 4 then (s1.offEntered r).pkgFollow else s1.pkgFollow)
  else .next s

/-- What a wake from Off leaves (R308, R57, R108, R136, R180): slices, accumulators, pipeline, Courier and core registers
cleared, WAKE_CLEARED set. ok1 and ok2 are the verdicts of the clear's first and repeated verify pass (Table 4-6). -/
def State.wakeClear (s : State) (r : RegionNo) (ok1 ok2 : Bool) : State :=
  let c : Clear := { whole := true, cause := .wake }
  let s1 := ((s.dropCores r).clearRows r c)
  let s2 := ((s1.setAtp r {}).resetWin (.atp r) 0 0x10000)
  let s3 := ((s2.setCou r {}).resetWin (.cou r) 0 0x10000)
  let s4 := ((s3.spdReset r).foldBist r).clrEnd r (if ok1 || ok2 then 3 else 4) (causeNo .wake) (64 + (if ok1 then 2 else 4) * 512) (!ok1)
  let s5 := { s4 with clrNow := tabSet (fun _ => none) s4.clrNow r.val none,
                      clrPend := tabSet (fun _ => none) s4.clrPend r.val none }
  (s5.setBit (.spd r) SPD_STATUS 3 true).clrBits r
/-- A trim that waits is applied at a wake (R319). -/
def State.applyTrim (s : State) (r : RegionNo) : State := { s with trimPend := natSet s.trimPend r.val 0 }
/-- A region that would need an eleventh step is failed at its next wake. -/
def State.overTrimmed (s : State) (r : RegionNo) : Bool := s.trimOver.contains r
/-- A region marked failed: its rail latched off and its contents lost (Table 14-2), and given to nobody until the next cold start
(R14). -/
def State.failRegion (s : State) (r : RegionNo) : State :=
  { ((s.offEntered r).setRgnState r 6).setRgnFreq r 0 with
    failedRgns := if r ∈ s.failedRgns then s.failedRgns else s.failedRgns ++ [r],
    rgnPend := natSet s.rgnPend r.val 0 }

/-- REGION_WAKE_DONE: the wake has run its course. After Off the clears end; one that fails its verification fails the
region (R110), and so does one whose trims are used up (R319). -/
def execRegionWakeDone (r : RegionNo) (clears : WakeClears) (s : State) : Out :=
  if s.rgnState r ≠ 5 then .next s
  else
    let from_ := natGet s.wakeFrom r.val
    let t := s.rgnTarget r
    if from_ = 3 ∧ !clears.ok1 ∧ !clears.ok2.ok then
      let s1 := ((s.wakeClear r false false).failRegion r).setBit (.spd r) SPD_STATUS 4 true
      .next (s1.clearFailRec { region := r, pos := clears.ok2.bad }).pkgFollow
    else if s.overTrimmed r then
      .next ({ s.failRegion r with trimOver := s.trimOver.filter (· ≠ r) } : State).pkgFollow
    else
      let s1 := if from_ = 3 then s.wakeClear r clears.ok1 clears.ok2.ok else s.setBit (.spd r) SPD_STATUS 3 false
      let s2 := ((s1.applyTrim r).pll r true).setRgnState r t
      let s3 := if t = 0 then s2.setRgnFreq r (s2.commonFreq (s2.owner r)) else s2
      let p := natGet s.rgnPend r.val
      .next (if p ≠ 0 then ((s3.pend r none).rgnRequest r (p - 1)).pkgFollow else s3.pkgFollow)

/-- The region voltage in mV at a frequency before trim (R311, Table 14-5): linear between listed points, rounded up to 5 mV. -/
def voltageMv (f : Nat) : Nat :=
  let pts : List (Nat × Nat × Nat × Nat) := [(600, 620, 900, 680), (900, 680, 1200, 750), (1200, 750, 1500, 820), (1500, 820, 1800, 900)]
  match pts.find? (fun p => decide (f ≤ p.2.2.1)) with
  | some p => (p.2.1 * 300 + (p.2.2.2 - p.2.1) * (f - p.1) + 1499) / 1500 * 5
  | none => 900
/-- The trim in mV that a region's rail carries: its steps of 5 mV without those that wait (R319). -/
def State.trimMv (s : State) (r : RegionNo) : Nat := 5 * (s.fld .pwr (PWR_RGN_TRIM + 4 * r.val) 0 4 - natGet s.trimPend r.val)
/-- The voltage of a region's rail in mV (Table 14-2, R311, R319), ramps and soft starts ended. -/
def State.railMv (s : State) (r : RegionNo) : Nat :=
  let run := voltageMv (s.commonFreq (s.owner r)) + s.trimMv r
  let stable := fun (st : Nat) => if st = 2 then 500 else if st = 3 ∨ st = 6 then 0 else run
  let st := s.rgnState r
  if st = 4 ∨ st = 5 then stable (s.rgnTarget r) else stable st

/-- The ns from a state to Active (Table 14-2), for pricing (R212). -/
def State.wakeNs (s : State) (r : RegionNo) : Nat :=
  match s.rgnState r with
  | 0 => 0
  | 1 => 500
  | 2 => 8000
  | 3 => 25000
  | 4 => (match s.rgnTarget r with | 1 => 700 | 2 => 8000 + 5000 + 256 * 1000 / 600 | _ => 35000)
  | 5 => (match natGet s.wakeFrom r.val with | 1 => 500 | 2 => 8000 | _ => 25000)
  | _ => 0

end Sys2Proof.Machine
end

