-- ==== Sys2Proof/Machine/Lanes.lean ====
section
/-! DEFINITION. What the Innkeeper takes from a partition's image: its configuration with the defaults of Table 10-5, its
lanes and shapes (R202, R203, R233), its program sets (Table 10-6), and where a session's pages lie (R204, R217). -/

namespace Sys2Proof.Machine

/-! ### PARTCFG (Table 10-5) -/

def State.image (s : State) (d : Dye) : Option Image := tabGet (fun _ => none) s.images d.val
def imageSections (i : Option Image) : List Section := (i.map (·.sections)).getD []
def cfgIn (i : Option Image) : PartCfg :=
  ((imageSections i).findSome? (fun x => match x.body with | .partcfg c => some c | _ => none)).getD {}
def State.cfg (s : State) (d : Dye) : PartCfg := cfgIn (s.image d)
def orDefault (v d : Nat) : Nat := if v = 0 then d else v
def cfgReserve (c : PartCfg) : Nat := orDefault c.res 50
def cfgSeal (c : PartCfg) : Nat := orDefault c.sealLeadUs 50 * 1000
/-- MIN_LEAD is never less than SEAL_LEAD + 20 µs (R212). -/
def cfgLead (c : PartCfg) : Nat := max (orDefault c.minLeadUs 100 * 1000) (cfgSeal c + 20000)
def cfgGuard (c : PartCfg) : Nat := orDefault c.failGuardUs 10 * 1000
def cfgReshare (c : PartCfg) : Nat := orDefault c.reshareUs 1000 * 1000
/-- The bucket of a committed length: the lowest b with L < BOUND(b + 1), else the top one. -/
def cfgBucket (c : PartCfg) (len : Nat) : Nat :=
  ((List.range c.bucketsM1).find? (fun b => decide (len < c.bounds.getD b (2 ^ 32)))).getD c.bucketsM1
/-- Nodes of the agent class's draft tree. -/
def cfgTree (c : PartCfg) : Nat := 1 + (c.draftAnc.filter (· ≠ 0)).length

/-! ### Lanes and shapes -/

def State.inPrefill (s : State) (r : RegionNo) : Bool := tabGet (fun _ => false) s.prefillLane r.val
def State.laneRegs (s : State) (d : Dye) (prefill : Bool) : List RegionNo :=
  (s.regionsOf d).filter (fun r => s.inPrefill r == prefill && !s.failedRgns.contains r)
/-- The dies on which the dye holds regions here. -/
def State.diesOf (s : State) (d : Dye) : List Nat := ([0, 1] : List Nat).filter (fun k => (s.regionsOf d).any (fun r => regionDie r == k))
/-- A lane keeps a region on every die on which the dye holds regions (R202). -/
def State.laneOk (s : State) (d : Dye) (prefill : Bool) : Bool :=
  (s.diesOf d).all (fun k => (s.laneRegs d prefill).any (fun r => regionDie r == k))
def State.prefillCount (s : State) (d : Dye) : Nat := ((s.regionsOf d).filter s.inPrefill).length
/-- The index of the shape that the partition is in (R233). -/
def State.shape (s : State) (d : Dye) : Nat :=
  (s.cfg d).shapes.findIdx (fun x => x.regions == (s.regionsOf d).length && x.prefillRgn == s.prefillCount d)
/-- The sections of the active image that serve the present shape. -/
def State.shapeSections (s : State) (d : Dye) : List Section :=
  (imageSections (s.image d)).filter (fun x => x.shape.toNat == 0xFFFF || x.shape.toNat == s.shape d)
/-- The prefill lane as installed: PREFILL_MIN regions, one on each die first, then the lowest ordinals (log entry 40). -/
def prefillOf (regs : List RegionNo) (n : Nat) : List RegionNo :=
  let firsts := if regs.any (fun r => r.val < 8) && regs.any (fun r => 8 ≤ r.val) then
    (regs.find? (fun r => r.val < 8)).toList ++ (regs.find? (fun r => 8 ≤ r.val)).toList else []
  firsts ++ ((regs.filter (fun r => !firsts.contains r)).take (n - firsts.length))
/-- The regions of a package ordinal's lane: those with the ordinals that the lane has here (log entry 40). -/
def State.laneOn (s : State) (d : Dye) (prefill : Bool) (pkg : Nat) : List RegionNo :=
  let regs := (((s.pkgTable d)[pkg]?).map (·.regions)).getD []
  let ords := (s.laneRegs d prefill).map s.ordinal
  (List.zipIdx regs).filterMap (fun e => if ords.contains e.2 then some e.1 else none)
/-- The home die of the n-th session placed on a package: alternating where the partition holds both dies (R204). -/
def State.homeOn (s : State) (d : Dye) (pkg n : Nat) : Nat :=
  let regs := (((s.pkgTable d)[pkg]?).map (·.regions)).getD []
  let dies := ([0, 1] : List Nat).filter (fun k => regs.any (fun r => regionDie r == k))
  dies.getD (n % max 1 dies.length) 0

/-! ### Where a session's pages lie -/

def attentionOf (i : Option Image) : Option (Nat × List (Nat × Nat)) :=
  (imageSections i).findSome? (fun x => match x.body with | .attention _ sp sh _ => some (sp, sh) | _ => none)
/-- Pages of a session of a length, per layer, that a package ordinal stores: the splits that the shard map gives it, or
all where the map is empty. -/
def State.pagesOn (s : State) (d : Dye) (pkg len : Nat) : Nat :=
  let pages := (len + 255) / 256
  match attentionOf (s.image d) with
  | none => pages
  | some (sp, shards) =>
    if shards = [] then pages
    else ((List.range 16).map (fun j =>
      if shards.contains (pkg, j) then min sp (pages - j * sp) else 0)).sum
/-- Whether this package stores page n of a session. -/
def State.holdsPage (s : State) (d : Dye) (n : Nat) : Bool :=
  match attentionOf (s.image d) with
  | none => true
  | some (sp, shards) => shards = [] || shards.contains (s.pkgOrd d, n / max 1 sp)

/-! ### Cost rows (Table 10-7) -/

def State.costRows (s : State) (d : Dye) : List CostRow :=
  (s.shapeSections d).flatMap (fun x => match x.body with | .costs rs => rs | _ => [])
def State.costRow (s : State) (d : Dye) (prefill : Bool) (cls bucket : Nat) : Option CostRow :=
  (s.costRows d).find? (fun r => r.lane == prefill && r.cls.toNat == cls && r.bucket == bucket)
/-- Layers of the model, by the cost rows of a lane. -/
def rowLayers (r : CostRow) : Nat := (r.groups.map (·.ng)).sum

/-! ### Program sets (Table 10-6) -/

def programsOf (i : Option Image) : List (List Word64) :=
  (imageSections i).flatMap (fun x => match x.body with | .programs ps => ps | _ => [])
/-- The COREMAP of a lane, class and bucket under the present shape. -/
def State.coreMap (s : State) (d : Dye) (prefill : Bool) (cls bucket : Nat) : Option (List Word32 × List CoreEntry) :=
  (s.shapeSections d).findSome? (fun x => match x.body with
    | .coremap l c b macc cores => if l = prefill ∧ c.toNat = cls ∧ b = bucket then some (macc, cores) else none
    | _ => none)
/-- One core takes its entry: program, tile limit, tile group, channels and barriers. -/
def CoreSt.loadEntry (k : CoreSt) (progs : List (List Word64)) (e : CoreEntry) : CoreSt :=
  let put := fun (l : List Word32) => (List.zipIdx (takePad 0 16 l)).foldl
    (fun (t : Tab Word32) p => tabSet (fun _ => 0) t p.2 p.1) []
  { k with istore := progs.getD e.program [], tileLimit := BitVec.ofNat 32 e.tileLimit.toNat, tgroup := e.tgroup,
           schan := put e.schan, rchan := put e.rchan, barid := put e.barid }
/-- A program set loaded into a region's cores by its controller: the map values of the scratchpad too. -/
def State.loadSet (s : State) (r : RegionNo) (macc : List Word32) (progs : List (List Word64)) (cores : List CoreEntry) :
    State :=
  let d := s.owner r
  let mine := cores.filter (fun e => e.pkgOrd == s.pkgOrd d && e.rgnOrd == s.ordinal r)
  let s1 := (List.finRange 10).foldl (fun (t : State) i => t.maccWrite (.regionController r) r i (macc.getD i.val 0)) s
  mine.foldl (fun (t : State) e =>
    let u := (List.finRange 8).foldl (fun (t : State) n => t.winWrite (.regionController r) r e.pos n (e.windows.getD n.val 0)) t
    let c : CoreId := { region := r, pos := e.pos }
    { (u.onCore c (fun k => k.loadEntry progs e)) with ueSeen := ueWritten (istoreUeKey c 0) (istoreUeKey c 0x10000) u.ueSeen }) s1
def setNo (prefill : Bool) (cls bucket : Nat) : Nat := b2n prefill * 32 + cls * 8 + bucket + 1
/-- The set that a step needs, loaded where the region's cores hold another one and are still. -/
def State.needSet (s : State) (r : RegionNo) (prefill : Bool) (cls bucket : Nat) : State :=
  let d := s.owner r
  if natGet s.progSet r.val = setNo prefill cls bucket ∨ !s.coresStill r then s
  else
    match s.coreMap d prefill cls bucket with
    | none => s
    | some (macc, cores) =>
      { (s.loadSet r macc (programsOf (s.image d)) cores) with progSet := natSet s.progSet r.val (setNo prefill cls bucket) }

/-! ### What depends on the shape: the pools and the stream tables (R173, R184, R233) -/

/-- Where a dye's image area begins, as a device address. -/
def State.areaAt (s : State) (d : Dye) : Option Nat :=
  (tabGet (fun _ => none) s.imgArea d.val).map (fun (a : Nat × Nat) => 0x10000000000 + a.1 * 65536)
/-- COU_OVF of the regions of a lane, from the POOLS of the present shape; a pool is named by package ordinal * 16 + region
ordinal, its places by offsets into the image area. -/
def State.loadPools (s : State) (d : Dye) : State :=
  (s.regionsOf d).foldl (fun (t : State) r =>
    let key := s.pkgOrd d * 16 + s.ordinal r
    match (s.shapeSections d).findSome? (fun x => match x.body with
        | .pools l ps => if l = s.inPrefill r then ps.find? (fun p => p.1 == key) else none
        | _ => none) with
    | none => t
    | some (_, rows, a, b) =>
      let base := BitVec.ofNat 64 ((s.areaAt d).getD 0)
      ((t.wr64 (.cou r) COU_OVF_IN_L (base + a.setWidth 64)).wr64 (.cou r) COU_OVF_OUT_L (base + b.setWidth 64)).wr (.cou r) COU_OVF_ROWS
        (BitVec.ofNat 32 (rows % 2 ^ 24))) s
/-- Places of the stream tables of a STREAMS section: engine and offset. -/
def tablePlaces : List (Nat × List Word512) → Nat → List (Nat × Nat)
  | [], _ => []
  | t :: ts, o => (t.1, o) :: tablePlaces ts (o + 64 * t.2.length)
/-- DRV_D_TABLE of every engine points at the table of the present shape. -/
def State.pointTables (s : State) (d : Dye) : State :=
  match s.areaAt d with
  | none => s
  | some a =>
    let places := (s.shapeSections d).flatMap (fun x => match x.body with | .streams ts => tablePlaces ts x.offset | _ => [])
    (List.finRange 8).foldl (fun (t : State) e =>
      let v := match places.find? (fun p => p.1 == e.val) with | some p => a + p.2 | none => 0
      t.wr64 (.drv e) (pageOff d DRV_D_TABLE_L) (BitVec.ofNat 64 v)) s
def State.shapeFollow (s : State) (d : Dye) : State := (s.loadPools d).pointTables d

end Sys2Proof.Machine
end

