-- ==== Sys2Proof/Machine/Pricing.lean ====
section
/-! DEFINITION. What the Innkeeper prices: phases and steps (R217), the frames that a step needs (R155), promotions (R160)
and region moves (R218). -/

namespace Sys2Proof.Machine

def stretchNs : Nat := 50000

/-! ### The price of a step (R217) -/

/-- An item as pricing sees it: bucket, rows, the session's positions after it, and the number of its session's placement. -/
structure Priced where
  bucket : Nat
  rows : Nat
  len : Nat
  order : Nat
  deriving DecidableEq, Repr, Inhabited

def State.priced (s : State) (i : Item) : Priced :=
  { bucket := i.bucket, rows := i.rows, len := i.base + i.adds, order := ((s.sess i.dye i.session).map (·.order)).getD 0 }
def State.stepItems (s : State) (p : Step) : List Item := p.items.filterMap (fun u => s.items.find? (fun i => i.uid == u))

/-- The sum of C * K on each pipeline of a lane on a package, where a session goes to the region of its home die with the
fewest pages so far, the lower ordinal on ties (R204): loads are (region, pages, weighted pages). -/
def assignPages (home : Priced → Nat) (pages : Priced → Nat) (coef : Nat → Nat) :
    List Priced → List (RegionNo × Nat × Nat) → List (RegionNo × Nat × Nat)
  | [], l => l
  | x :: xs, l =>
    let cand := l.filter (fun e => regionDie e.1 == home x)
    let pool := if cand = [] then l else cand
    let best := pool.foldl (fun (b : Option (RegionNo × Nat × Nat)) e => match b with
      | none => some e
      | some q => if e.2.1 < q.2.1 then some e else some q) none
    let k := pages x
    let l' := match best with
      | none => l
      | some b => l.map (fun e => if e.1 = b.1 then (e.1, e.2.1 + k, e.2.2 + k * coef x.bucket) else e)
    assignPages home pages coef xs l'
/-- The busiest pipeline's cycles over every package of the partition. -/
def State.busiest (s : State) (d : Dye) (prefill : Bool) (coef : Nat → Nat) (xs : List Priced) : Nat :=
  (List.range (max 1 (s.pkgTable d).length)).foldl (fun m p =>
    let loads := assignPages (fun x => s.homeOn d p x.order) (fun x => s.pagesOn d p x.len) coef xs
      ((s.laneOn d prefill p).map (fun r => (r, 0, 0)))
    (loads.map (fun e => e.2.2)).foldl max m) 0
/-- The narrowest width among the links that the partition's exchanges use: 8 where one is UP8, or where a link of an axis that they use
has ended DOWN (R268). -/
def State.priceWidth (s : State) (d : Dye) : Nat :=
  let used := s.usedLinks d
  if used.any (fun l => s.linkState l == 4) || used.any (fun l => s.linkState l == 5 || s.linkState (Fin.ofNat 6 (opposite l.val)) == 5)
  then 8 else 16
def fPriceOf (f res : Nat) : Nat := f * (1000 - res) / 1000

/-- Rows of each sub-batch, by bucket. -/
def rowsIn (xs : List Priced) (b : Nat) : Nat := ((xs.filter (fun x => x.bucket == b)).map (·.rows)).sum
def bucketsIn (xs : List Priced) : List Nat := (List.range 8).filter (fun b => xs.any (fun x => x.bucket == b))
/-- The phase times of each layer group: n_g and t[p] for the seven phases. None where the rows of the buckets do not
agree in their layer groups. X is the largest of the rows (log entry 41). -/
def State.phaseTimes (s : State) (d : Dye) (prefill : Bool) (fp : Nat) (rows : List (Nat × CostRow)) (xs : List Priced) :
    Option (List (Nat × List Nat)) :=
  match rows with
  | [] => none
  | (_, r0) :: _ =>
    if rows.any (fun r => r.2.groups.map (fun g => (g.ng, g.phases.length)) != r0.groups.map (fun g => (g.ng, g.phases.length)))
    then none
    else some ((List.zipIdx r0.groups).map (fun g => (g.1.ng, (List.range 7).map (fun p =>
      let co := fun (b : Nat) => ((rows.find? (fun r => r.1 == b)).bind (fun r => (r.2.groups[g.2]?).bind (fun q => q.phases[p]?))).getD
        (0, 0, 0, 0)
      let cyc := (rows.map (fun r => (co r.1).1 + (co r.1).2.1 * rowsIn xs r.1)).sum +
        s.busiest d prefill (fun b => (co b).2.2.1) xs
      let x := (rows.map (fun r => (co r.1).2.2.2)).foldl max 0
      ceilDiv (cyc * 1000) fp + x * 16 / s.priceWidth d))))
/-- A priced step: the price, f_price, the largest T_TOK, the phase times, the least STEP_CAP of its rows, and the load time that comes
before its first layer (R203). -/
structure Quote where
  price : Nat
  fPrice : Nat
  tTok : Nat
  groups : List (Nat × List Nat)
  cap : Nat := 0
  lead : Nat := 0
  deriving DecidableEq, Repr, Inhabited
/-- The price at a common frequency; none where the rows or STEP_CAP of the cost rows do not allow it (R211). -/
def State.quoteAt (s : State) (d : Dye) (prefill : Bool) (cls f : Nat) (xs : List Priced) : Option Quote :=
  let bs := bucketsIn xs
  let rows := bs.filterMap (fun b => (s.costRow d prefill cls b).map (fun r => (b, r)))
  if rows.length ≠ bs.length ∨ rows.any (fun r => decide (r.2.maxRows < rowsIn xs r.1)) then none
  else
    let fp := fPriceOf f (cfgReserve (s.cfg d))
    (s.phaseTimes d prefill fp rows xs).bind (fun gs =>
      let t := (rows.map (fun r => r.2.tTok)).foldl max 0
      let price := (gs.map (fun g => g.1 * g.2.sum)).sum + t + stretchNs
      if rows.any (fun r => decide (r.2.stepCap < price)) then none
      else some { price := price, fPrice := fp, tTok := t, groups := gs,
                  cap := (rows.map (fun r => r.2.stepCap)).foldl min 4000000000 })
/-- The price of a step that starts at S: at the lower of the common frequency and any change scheduled to take effect
before its end. -/
def State.quoteF (s : State) (d : Dye) (prefill : Bool) (cls start : Nat) (xs : List Priced) : Nat → Nat → Option Quote
  | 0, f => s.quoteAt d prefill cls f xs
  | n + 1, f =>
    (s.quoteAt d prefill cls f xs).bind (fun q =>
      let f' := (s.switchPoints.filter (fun w => w.1 == d && decide (w.2.2 < start + q.price))).foldl (fun m w => min m w.2.1) f
      if f' = f then some q else s.quoteF d prefill cls start xs n f')
/-- The lanes as they are from a counter value on: region moves between them that are due by then are done (R203). -/
def State.lanesBy (s : State) (start : Nat) : State :=
  { s with prefillLane := s.laneMoves.foldl (fun t m => if m.2.2 ≤ start then tabSet (fun _ => false) t m.1.val m.2.1 else t)
             s.prefillLane }
/-- The load time that the first step of a lane that starts after it took a region includes: RESHARE_US (R203). -/
def State.loadFor (s : State) (d : Dye) (prefill : Bool) (start : Nat) : Nat :=
  if s.loadOwed.any (fun o => o.1 == d && o.2.1 == prefill && decide (o.2.2 ≤ start)) then cfgReshare (s.cfg d) else 0
/-- The quote of a step of a lane with a load time before it. -/
def Quote.after (q : Quote) (load : Nat) : Option Quote :=
  if load = 0 then some q else if q.cap < q.price + load then none else some { q with price := q.price + load, lead := load }
def State.quoteStep (s : State) (d : Dye) (prefill : Bool) (cls start : Nat) (xs : List Priced) (load : Nat := 0) : Option Quote :=
  ((s.lanesBy start).quoteF d prefill cls start xs s.switchPoints.length (s.commonFreq d)).bind (fun q => q.after load)
/-- The eight offsets of every layer (R214): each is the previous one plus the priced phase time. -/
def layerOffsets : List (Nat × List Nat) → Nat → List (List Nat)
  | [], _ => []
  | (n, ts) :: gs, at_ =>
    let one := fun (o : Nat) => (List.range 8).map (fun k => o + (ts.take k).sum)
    ((List.range n).map (fun j => one (at_ + j * ts.sum))) ++ layerOffsets gs (at_ + n * ts.sum)
def Quote.tokenOfs (q : Quote) : Nat := q.price - q.tTok - stretchNs

/-! ### Frames and promotions (R155, R160, Table 6-3) -/

/-- ns for a number of pages at a rate in bytes per µs. -/
def movesNs (pages rate : Nat) : Nat := ceilDiv (pages * 65536 * 1000) rate
def State.tier2Rate (s : State) : Nat := orDefault ((s.tierEntry.map (·.tier2Rate)).getD 0) 100 * 1000
/-- TIER3_RATE, scaled while the host port runs below 64 GT/s x16 (R293). -/
def State.tier3Rate (s : State) : Nat :=
  let r := orDefault ((s.tierEntry.map (·.tier3Rate)).getD 0) 50 * 1000
  if s.hostGts < 1024 then r * s.hostGts / 1024 else r
def State.tier0Rate (s : State) : Nat := 400000 * orDefault (s.fld .tier TIER_CFG 16 8) 128 / 256
/-- The time that a session's pages below tier 1 take to come up, the shared ones with them; one of tier 2 adds SMF_RTT_MAX once
(R303). -/
def State.promoNs (s : State) (d : Dye) (slot : Nat) : Nat :=
  let l := s.belowTier1 d slot
  let far := (l.filter (fun e => e.2.tier == 2)).length
  movesNs far s.tier2Rate + (if far = 0 then 0 else (s.rd .smf SMF_RTT_MAX).toNat) +
    movesNs (l.filter (fun e => e.2.tier == 3)).length s.tier3Rate
/-- New pages of a session on this package, in every layer, for positions that it adds to the first ones. -/
def State.newFrames (s : State) (d : Dye) (layers base adds : Nat) : Nat :=
  let p := s.pkgOrd d
  layers * (s.pagesOn d p (base + adds) - s.pagesOn d p base)
def State.reservedOf (s : State) (d : Dye) (tier : Nat) : Nat :=
  ((s.reserved.filter (fun r => r.1 == d && r.2.2.1 == tier)).map (fun r => r.2.2.2)).sum
/-- Frames of the shared pool of a tier: free frames beyond what each partition may still claim of its minimum or has
reserved. -/
def State.poolFree (s : State) (tier : Nat) : Nat :=
  s.freeTotal tier - ((List.finRange 16).map (fun q => max (s.tierMin q tier - s.tierUsed q tier) (s.reservedOf q tier))).sum
/-- How many frames of tier 1 must be demoted first for a reservation of n (R155). -/
def State.shortBy (s : State) (d : Dye) (n : Nat) : Nat :=
  let mine := s.tierMin d 1 - (s.tierUsed d 1 + s.reservedOf d 1)
  (n - mine) - s.poolFree 1
/-- The counter value at which n frames of tier 1 can be reserved; none where no victim is left. -/
def State.framesReady (s : State) (d : Dye) (n : Nat) : Option Nat :=
  let k := s.shortBy d n
  if k = 0 then some s.now
  else if (s.victims 1).length < k then none
  else some (s.now + movesNs k s.tier2Rate)
/-- Victims that a reservation of n frames of tier 1 needs are demoted at once (R155). -/
def State.demoteFor (s : State) (d : Dye) (n : Nat) : State :=
  ((s.victims 1).take (s.shortBy d n)).foldl (fun (t : State) c => t.demote { c.1 with cause := 0 }) s

/-! ### Region moves (R218) -/

/-- Bytes that a save writes of a region: rows of VALID windows and the accumulators (R249). -/
def State.saveBytes (s : State) (r : RegionNo) : Nat :=
  ((allCores r).map (fun c => 0x40000 + ((List.range 8).map (fun n =>
    let w := s.win c n
    if winValid w then (bitsOf w 10 10 - bitsOf w 0 9) * 4096 else 0)).sum)).sum
/-- The priced time of a move: the victim's tile limit at its frequency, its save at 12 TB/s + 20 µs, the clear, the load. -/
def State.moveNs (s : State) (r : RegionNo) : Nat :=
  let f := max 1 (s.rgnFreq r)
  let limit := ((allCores r).map (fun c => (s.core c).tileLimit.toNat)).foldl max 0
  if s.owner r = 0 then 25000 + ceilDiv (1344 * 1000) 600 + 10000
  else ceilDiv (limit * 1000) f + ceilDiv (s.saveBytes r) 12000 + 20000 + ceilDiv (1344 * 1000) f + 10000
/-- When the moves to a dye that are under way end. -/
def State.movesEnd (s : State) (d : Dye) : Option Nat :=
  let ms := (List.finRange 16).filterMap (fun r => (tabGet (fun _ => none) s.moves r.val).bind (fun (m : MoveSt) =>
    if m.toDye = d ∧ m.loan then some (m.at_ + s.moveNs r) else none))
  if ms = [] then none else some (ms.foldl max 0)

end Sys2Proof.Machine
end

