-- ==== Sys2Proof/Machine/Innkeeper.lean ====
section
/-! DEFINITION. Work items and their answers (R201 to R210, R218, R219, Tables 9-1 to 9-3): the checks, the search for a
step, and the effect of each kind of item at admission. -/

namespace Sys2Proof.Machine

/-! ### Answers (Tables 9-3 and 9-5) -/

def aFORMAT : Nat := 0x01
def aSESSION : Nat := 0x02
def aSTATE : Nat := 0x03
def aLIMIT : Nat := 0x04
def aRANGE : Nat := 0x05
def aLOAD : Nat := 0x06
def aMEMORY : Nat := 0x07
def aPROMOTION : Nat := 0x08
def aPREEMPT : Nat := 0x09
def aWEIGHTS : Nat := 0x0A
def aNOTFRONT : Nat := 0x0B
def aHARDWARE : Nat := 0x0C
def aMODE : Nat := 0x0D
def aHANDLE : Nat := 0x0E
def aPOWER : Nat := 0x0F
def aSTOPPED : Nat := 0x10
def allOnes64 : Nat := 2 ^ 64 - 1
def tenSeconds : Nat := 10000000000

/-- The calendar entries in use: start, seal and end of each step that is not RUNNING or done, and the deadline checks of
its items (R213). -/
def State.calUsed (s : State) : Nat :=
  ((s.steps.filter (fun p => p.state != .reported)).map (fun p =>
    (match p.state with | .isOpen => 3 | .sealed => 2 | _ => 1) + p.items.length)).sum
/-- The INN_ registers that follow the Innkeeper's state (Tables 9-10, 9-11). -/
def State.innFollow (s : State) (d : Dye) : State :=
  let planned := fun (l : Bool) => min 255 ((s.steps.filter (fun p => p.dye == d && p.prefill == l && p.state != .reported)).length)
  let c := s.cfg d
  let norla := ((s.partEntry d).map (fun e => e.mode == 1)).getD false
  let front := (s.partEntry d).isSome && s.isFront d
  let open_ := !s.bit .inn INN_STATUS 1 && !s.bit .inn INN_STATUS 2
  let adm := front && !norla && open_ && (s.image d).isSome
  let st := b2n front + b2n adm * 2 + b2n norla * 4 + b2n (s.dyeDrains d) * 8 +
    (if (s.image d).isSome then s.prefillCount d * 2 ^ 8 + c.prefillMin * 2 ^ 16 + c.prefillMax * 2 ^ 24 else 0)
  let f := s.commonFreq d
  let s1 := s.wrP .inn d INN_D_STATUS (BitVec.ofNat 32 st)
  let s2 := s1.wrP .inn d INN_D_FREQ (BitVec.ofNat 32 (f + fPriceOf f (cfgReserve c) * 2 ^ 16))
  let s3 := s2.wrP .inn d INN_D_RESERVE (BitVec.ofNat 32 (cfgReserve c + (if (s.image d).isSome then s.priceWidth d * 2 ^ 16 else 0)))
  let s4 := s3.wrP .inn d INN_D_PLANNED (BitVec.ofNat 32 (planned false + planned true * 2 ^ 8))
  let s5 := s4.wr .inn INN_CAL_USED (BitVec.ofNat 32 (min 4096 s.calUsed))
  (s5.setBit .inn INN_STATUS 0 (open_ && ((List.finRange 16).any (fun q => (s.image q).isSome && s.isFront q)))).countSess d

/-- An ANSWER record: START and PRICED_END where the item is accepted, EARLIEST where it is refused. -/
def State.answerItem (s : State) (i : Item) (code time pricedEnd : Nat) : State :=
  let base := recordOf 1 i.kind code 0 i.tag i.session time (if code = 0 then i.deadline else 0) i.stepNo
  let rec_ := if code = 0 then base ||| BitVec.ofNat 512 (pricedEnd * 2 ^ 256) else base
  s.postRec { dye := i.dye, data := rec_ }
/-- A refusal: counted, and the two entries that the item will not use given back (R291). -/
def State.refuseItem (s : State) (i : Item) (code earliest : Nat) : State :=
  let s1 := (s.answerItem i code earliest 0).bumpP .inn i.dye INN_D_REFUSED
  (s1.wrP .inn i.dye INN_D_REFUSE_LAST (BitVec.ofNat 32 (code + 2 ^ 31))).giveEntries i.dye (i.entries - 1)
/-- EARLIEST within 10 s, or all ones. -/
def State.earliest (s : State) (best : Nat) : Nat := if s.now + tenSeconds < best then allOnes64 else best

/-! ### Checks (R201, R205 to R208) -/

/-- R205: KIND or CLASS invalid, a reserved bit set, or a field that the kind does not use. A SUSPEND to tier 0 is taken
as such a field (log entry 42). -/
def Item.formatBad (i : Item) : Bool :=
  let k := i.kind
  let opens := k == 1 || k == 7
  !(decide (1 ≤ k) && decide (k ≤ 8)) || i.cls == 3 || bitOf i.raw 7 || bitsOf i.raw 26 6 != 0 || bitsOf i.raw 384 128 != 0 ||
  (i.sample && k != 2) || (bitsOf i.raw 64 64 != 0 && !(k == 2 || k == 3 || k == 4 || k == 7)) ||
  (i.nTok != 0 && !(k == 2 || k == 4)) || (!opens && (i.topK != 0 || i.temp != 0 || i.topP != 0 || i.seed != 0)) ||
  (i.arg != 0 && !(opens || k == 5 || k == 6)) || (k == 5 && (i.arg == 0 || decide (3 < i.arg))) ||
  (i.addr != 0 && !(k == 2 || k == 4 || k == 7))
/-- FP32 greater than 0 and at most 1.0; finite and not negative. -/
def topPOk (x : Word32) : Bool := !bitOf x 31 && decide (0 < x.toNat) && decide (x.toNat ≤ 0x3F800000)
def tempOk (x : Word32) : Bool := bitsOf x 23 8 != 0xFF && (!bitOf x 31 || x == 0x80000000)
/-- Values outside their range are LIMIT (Table 9-3; log entry 42). -/
def Item.limitBad (i : Item) : Bool :=
  if i.kind = 1 ∨ i.kind = 7 then
    !tempOk i.temp || decide (1024 < i.topK) || !topPOk i.topP || i.arg == 0 || decide (4194304 < i.arg)
  else if i.kind = 2 then i.nTok == 0
  else if i.kind = 4 then decide (i.nTok < 2) || decide (16 < i.nTok)
  else false
def Item.stepKind (i : Item) : Bool := i.kind == 2 || i.kind == 3 || i.kind == 4
def Item.prefill (i : Item) : Bool := i.kind == 2
/-- Rows of an item in a step (R207, R217). -/
def State.itemRows (s : State) (i : Item) : Nat :=
  if i.kind = 3 then
    (match i.cls with | 0 => 1 + (s.cfg i.dye).extra | 1 => cfgTree (s.cfg i.dye) | _ => 1)
  else i.nTok
/-- The positions an item adds at least: the chunk of a PREFILL, one of a DECODE or VERIFY (log entry 43). -/
def Item.fewest (i : Item) : Nat := if i.kind = 2 then i.nTok else if i.kind = 3 ∨ i.kind = 4 then 1 else 0
/-- The committed length after every admitted item of a session. -/
def State.projected (s : State) (d : Dye) (x : Session) : Nat := x.len + ((s.sessItems d x.id).map Item.fewest).sum
/-- R206 for an item that names a session. -/
def State.stateBad (s : State) (i : Item) (x : Session) : Bool :=
  x.closing || (x.cold && i.kind != 8) || i.cls != x.cls ||
  (i.kind != 5 && i.kind != 6 && decide (2 ≤ (s.sessItems i.dye x.id).length))
/-- R206 and R207 limits for an item in a step. -/
def State.lengthBad (s : State) (i : Item) (x : Session) : Bool :=
  decide (min x.maxLen 4194304 < s.projected i.dye x + i.fewest) ||
  (i.kind == 4 && (i.cls == 2 || (i.cls == 0 && decide (5 < i.nTok)))) ||
  (i.kind == 2 && ((s.costRow i.dye true i.cls (cfgBucket (s.cfg i.dye) (s.projected i.dye x))).map
    (fun r => decide (r.maxChunk < i.nTok))).getD false)
/-- New work waits for its weights: a set is not VERIFIED on every package, or a replacement is in progress (R191, R194, R197). -/
def State.weightsBad (s : State) (d : Dye) : Bool :=
  (s.usedSets d).any (fun p => s.draining.contains p || !s.usable d p.1 p.2)

/-! ### The search for a step (R212, R219) -/

/-- Why a step cannot take the item, or the end it would have: LOAD where rows, STEP_CAP, the next step or a deadline stand
against it. -/
structure Fit where
  end_ : Nat
  quote : Quote
  deriving DecidableEq, Repr, Inhabited

def Step.end_ (p : Step) : Nat := p.start + p.price
/-- The ends of the session's admitted items: a new item's step starts after them (R206). -/
def State.afterItems (s : State) (i : Item) : Nat :=
  ((s.sessItems i.dye i.session).map (fun j => match s.steps.find? (fun p => p.items.contains j.uid) with
    | some p => p.end_
    | none => 0)).foldl max 0
/-- Layers that an item's lane has, for its frames. -/
def State.layersFor (s : State) (i : Item) : Nat := ((s.costRow i.dye i.prefill i.cls i.bucket).map rowLayers).getD 0
/-- The counter value from which the item's frames and promoted pages are there; none where frames never are. -/
def State.readyAt (s : State) (i : Item) (x : Session) : Option Nat × Nat :=
  (s.framesReady i.dye (s.newFrames i.dye (s.layersFor i) i.base i.adds + (s.belowTier1 i.dye x.slot).length),
   s.now + s.promoNs i.dye x.slot)
/-- An open step of the lane and class takes the item: its end with the item, and whether rows and STEP_CAP, the step
after it and the deadlines in it allow that. -/
def State.fits (s : State) (i : Item) (p : Step) (next : Option Step) (frames promo : Nat) : Option Fit :=
  match s.quoteStep i.dye p.prefill p.cls p.start ((s.stepItems p).map s.priced ++ [s.priced i]) p.load with
  | none => none
  | some q =>
    let e := p.start + q.price
    if frames ≤ p.start ∧ promo ≤ p.start ∧ (next.all (fun n => decide (e ≤ n.start))) ∧
        (s.stepItems p).all (fun j => decide (e ≤ j.deadline)) then some { end_ := e, quote := q } else none
/-- The steps of a lane in start order. -/
def State.laneSteps (s : State) (d : Dye) (prefill : Bool) : List Step :=
  s.steps.filter (fun p => p.dye == d && p.prefill == prefill && p.state != .reported)
/-- Open steps that could take the item by its deadline, and the best end otherwise. -/
def State.searchSteps (s : State) (i : Item) (after frames promo : Nat) : List Step → Nat → Option (Step × Fit) × Nat
  | [], best => (none, best)
  | p :: ps, best =>
    if p.state ≠ .isOpen ∨ p.cls ≠ i.cls ∨ p.start < after ∨ p.start ≤ s.now + cfgSeal (s.cfg i.dye) then
      s.searchSteps i after frames promo ps best
    else
      match s.fits i p ps.head? frames promo with
      | none => s.searchSteps i after frames promo ps best
      | some f => if f.end_ ≤ i.deadline then (some (p, f), best) else s.searchSteps i after frames promo ps (min best f.end_)
/-- The place after the previous step's last LAYER_END that its PRESTEP streams leave (R186, R212). -/
def State.prestepStart (s : State) (d : Dye) (prev : Step) : Nat :=
  let w := (List.finRange 8).flatMap (fun e => (s.table e d).map (fun x => (e, streamOf x)))
  let longest := ((w.filter (fun x => x.2.gatePoint == 5 && s.streamLane x.1 d x.2 == prev.prefill)).map (fun x =>
    s.streamPrice x.1 d x.2)).foldl max 0
  prev.end_ - prev.tTok - stretchNs + longest
/-- The terms of the start of a new step (R212), each with the answer code it stands for. -/
def State.startTerms (s : State) (i : Item) (after frames promo : Nat) : List (Nat × Nat) :=
  let d := i.dye
  let lane := s.laneSteps d i.prefill
  let wake := ((s.laneRegs d i.prefill).map s.wakeNs).foldl max 0
  let prev := lane.getLast?
  [(s.now + cfgLead (s.cfg d), aLOAD), ((prev.map Step.end_).getD 0, aLOAD), ((prev.map (s.prestepStart d)).getD 0, aLOAD),
   (after, aLOAD), (s.now + wake, aLOAD), ((s.movesEnd d).getD 0 + (if (s.movesEnd d).isSome then wake else 0), aPREEMPT),
   (promo, aPROMOTION), (frames, aMEMORY), (((s.drains.filter (fun w => w.1 == d)).map (·.2)).foldl max 0, aLOAD)]
/-- The latest term and its code; LOAD keeps a tie. -/
def latestTerm : List (Nat × Nat) → Nat × Nat
  | [] => (0, aLOAD)
  | t :: ts => ts.foldl (fun m x => if m.1 < x.1 then x else m) t
/-- What R219 finds: a step to join, a new step, or a refusal with its code and EARLIEST. -/
inductive Found where
  | joins (p : Step) (f : Fit)
  | opens (start : Nat) (q : Quote)
  | refused (code best : Nat)
  deriving DecidableEq, Repr, Inhabited

def State.findStep (s : State) (i : Item) (x : Session) (deadline : Option Nat) : Found :=
  let i' := { i with raw := match deadline with | none => i.raw | some v => putBits i.raw 64 64 v }
  let after := s.afterItems i
  match s.readyAt i x with
  | (none, _) => .refused aMEMORY allOnes64
  | (some frames, promo) =>
    match s.searchSteps i' after frames promo (s.laneSteps i.dye i.prefill) allOnes64 with
    | (some (p, f), _) => .joins p f
    | (none, best) =>
      let t := latestTerm (s.startTerms i after frames promo)
      match s.quoteStep i.dye i.prefill i.cls t.1 [s.priced i] (s.loadFor i.dye i.prefill t.1) with
      | none => .refused aLOAD (s.earliest best)
      | some q =>
        if t.1 + q.price ≤ i'.deadline then .opens t.1 q
        else if t.1 + q.price ≤ best then .refused t.2 (s.earliest (t.1 + q.price))
        else .refused aLOAD (s.earliest best)

/-! ### Admission -/

/-- The item is admitted: it waits for its records. -/
def State.admitItem (s : State) (i : Item) (entries : Nat) (step : Option Word32) (start : Nat) : State :=
  { (s.bumpP .inn i.dye INN_D_ACCEPTED) with
    items := s.items ++ [{ i with uid := s.itemNo, entries := entries, step := step, start := start }], itemNo := s.itemNo + 1 }
/-- Frames and promoted pages of an accepted item on this package (R155, R159, R160): victims are demoted at once where the
reservation needs them, frames are reserved for its new pages and for its promotions, and the session's pages below tier 1 begin to
come up. -/
def State.claimPages (s : State) (d : Dye) (slot : Nat) (step : Word32) (layers base adds : Nat) : State :=
  let n := s.newFrames d layers base adds + (s.belowTier1 d slot).length
  let s1 := s.demoteFor d n
  let s2 := if n = 0 then s1 else { s1 with reserved := s1.reserved ++ [(d, step.toNat, 1, n)] }
  s2.promote d slot 0
/-- An item joins a step. -/
def State.joinStep (s : State) (i : Item) (x : Session) (p : Step) (q : Quote) : State :=
  let layers := s.layersFor i
  let s1 := ((s.claimPages i.dye x.slot p.number layers i.base i.adds).tellAll i.dye
    (.admitted i.dye x.slot p.number layers i.base i.adds)).admitItem i (i.entries - 1) (some p.number) p.start
  let p' := { p with items := p.items ++ [s.itemNo], price := q.price, fPrice := q.fPrice, tTok := q.tTok }
  let s2 := { s1 with steps := s1.steps.map (fun (w : Step) => if w.dye = p.dye ∧ w.number = p.number then p' else w) }
  (s2.answerItem { i with step := some p.number } 0 p.start (p.start + q.price)).innFollow i.dye
/-- A new step holding the item alone. -/
def State.openStep (s : State) (i : Item) (x : Session) (start : Nat) (q : Quote) : State :=
  let no : Word32 := BitVec.ofNat 32 (natGet s.stepNo i.dye.val)
  let p : Step := { dye := i.dye, prefill := i.prefill, number := no, cls := i.cls, start := start, price := q.price,
                    fPrice := q.fPrice, tTok := q.tTok, load := q.lead }
  let s1 : State := { s with steps := s.steps ++ [p], stepNo := natBump s.stepNo i.dye.val,
                             loadOwed := if q.lead = 0 then s.loadOwed else s.loadOwed.filter (fun o =>
                               !(o.1 == i.dye && o.2.1 == i.prefill && decide (o.2.2 ≤ start))) }
  s1.joinStep i x p q
/-- An item of a step: its bucket and length as projected, then R219. -/
def State.admitStep (s : State) (i0 : Item) (x : Session) : State :=
  let base := s.projected i0.dye x
  let i := { i0 with rows := s.itemRows i0, base := base, adds := max i0.fewest (s.itemRows i0),
                     bucket := cfgBucket (s.cfg i0.dye) base }
  if i.deadline < s.now ∨ s.now + tenSeconds < i.deadline then
    match s.findStep i x (some (s.now + 2 * tenSeconds)) with
    | .joins _ f => s.refuseItem i aRANGE (s.earliest f.end_)
    | .opens st q => s.refuseItem i aRANGE (s.earliest (st + q.price))
    | .refused _ b => s.refuseItem i aRANGE (s.earliest b)
  else if !s.laneOk i.dye i.prefill then s.refuseItem i aHARDWARE allOnes64
  else
    match s.findStep i x none with
    | .joins p f => s.joinStep i x p f.quote
    | .opens st q => s.openStep i x st q
    | .refused c b => s.refuseItem i c b

/-! ### OPEN, FORK and CLOSE -/

/-- The session groups; an image that lists none has one of every package with 65,536 slots (log entry 44). -/
def State.groupsOf (s : State) (d : Dye) : List SessionGroup :=
  let g := (s.cfg d).groups
  if g = [] then [{ pkgs := BitVec.ofNat 64 (2 ^ (max 1 (s.pkgTable d).length) - 1), slots := 65536 }] else g
/-- The group with the most free context slots, the lower index on ties; none where no slot is free. -/
def State.pickGroup (s : State) (d : Dye) : Option Nat :=
  let free := (List.zipIdx (s.groupsOf d)).map (fun g => (g.2, g.1.slots - ((s.sessOf d).filter (fun x => x.group == g.2)).length))
  let best := free.foldl (fun (b : Option (Nat × Nat)) f => match b with
    | none => some f
    | some q => if q.2 < f.2 then some f else some q) none
  match best with
  | some (g, n) => if n = 0 ∨ 65536 ≤ (s.sessOf d).length then none else some g
  | none => none
/-- The lowest context slot that no session of the partition holds (log entry 44). -/
def State.freeSlot (s : State) (d : Dye) : Nat :=
  ((List.range ((s.sessOf d).length + 1)).find? (fun n => !(s.sessOf d).any (fun x => x.slot == n))).getD 0
/-- A session placed (R204): group, slot, home die, and a context on this package and on the others of its group. -/
def State.placeSession (s : State) (i : Item) (len : Nat) (g : Nat) : State :=
  let d := i.dye
  let n := natGet s.homeTurn d.val
  let home : Fin 2 := Fin.ofNat 2 (s.homeOn d (s.pkgOrd d) n)
  let slot := s.freeSlot d
  let x : Session := { id := i.session, slot := slot, group := g, cls := i.cls, maxLen := i.arg, len := len, home := home, order := n }
  let c : Ctx := { id := i.session, cls := i.cls, temp := i.temp, topK := i.topK, topP := i.topP, seed := i.seed, maxLen := i.arg,
                   len := len, home := home }
  let mask := ((s.groupsOf d).getD g { pkgs := 0, slots := 0 }).pkgs
  let others := (List.zipIdx (s.pkgTable d)).filter (fun p => bitOf mask p.2 && p.1.slot != s.slot)
  let s1 := (s.setSess d i.session (some x)).setCtx d slot (some c)
  let tell := others.map (fun p => LinkOut.control p.1.slot
    (.context d slot i.session i.cls i.temp i.topK i.topP i.seed i.arg (Fin.ofNat 2 (s.homeOn d p.2 n))))
  { (s1.countSess d) with homeTurn := natBump s.homeTurn d.val, linkTx := s1.linkTx ++ tell }
/-- OPEN: answered when it is read; it has no step, so START and PRICED_END are the counter value of the answer (log
entry 45). -/
def State.admitOpen (s : State) (i : Item) : State :=
  match s.pickGroup i.dye with
  | none => s.refuseItem i aSESSION allOnes64
  | some g =>
    let s1 := (s.placeSession i 0 g).answerItem i 0 s.now s.now
    ((s1.bumpP .inn i.dye INN_D_ACCEPTED).giveEntries i.dye (i.entries - 1)).innFollow i.dye
/-- A REPORT record without tokens. -/
def State.reportPlain (s : State) (i : Item) (committed : Nat) : State :=
  s.postRec { dye := i.dye, data := recordOf 2 i.kind 0 0 i.tag i.session s.now 0 i.stepNo ||| BitVec.ofNat 512 (committed * 2 ^ 466) }
/-- The tables of a fork on this package (R149): RO entries for the shared pages, and the partial last page copied at once; the
victims that the copies need are demoted first. -/
def State.forkTables (s : State) (d : Dye) (slot index : Nat) : State :=
  let p := s.prefixRec d index
  let copies := (p.table.filter (fun e => decide (p.len < e.2.1 * 256 + 256))).length
  let s1 := p.table.foldl (fun (t : State) e =>
    match t.sharedPte d e.2.2 with
    | none => t
    | some q =>
      if e.2.1 * 256 + 256 ≤ p.len then
        t.setPte (pteKey d slot e.1 e.2.1) (some { ro := true, frame := BitVec.ofNat 32 e.2.2, touch := q.touch })
      else t.forkCopy { dye := d, slot := slot, layer := e.1, page := e.2.1, index := e.2.2, len := p.len }) (s.demoteFor d copies)
  { (s1.setPrefix d index { p with count := p.count + 1 }) with prefixRefs := s1.prefixRefs ++ [(d, slot, index)] }
/-- FORK: priced as the copy of one page per layer at the tier-1 move rate after the queued moves (R218); the tables are
built between steps, and the report follows at once (log entry 46). -/
def State.admitFork (s : State) (i : Item) : State :=
  if i.deadline < s.now ∨ s.now + tenSeconds < i.deadline then s.refuseItem i aRANGE (s.earliest s.now)
  else
    match s.handleIndex i.dye i.addr with
    | none => s.refuseItem i aHANDLE allOnes64
    | some index =>
      if (s.prefixRec i.dye index).lost then s.refuseItem i aHANDLE allOnes64 else
      let layers := ((s.prefixRec i.dye index).table.map (·.1)).dedup.length
      let e := s.now + movesNs (s.pageMoves.length + layers) s.tier0Rate
      let need := if (s.prefixRec i.dye index).len % 256 = 0 then 0 else layers
      match s.pickGroup i.dye, s.framesReady i.dye need with
      | none, _ => s.refuseItem i aSESSION allOnes64
      | _, none => s.refuseItem i aMEMORY allOnes64
      | some g, some f =>
        if i.deadline < max e f then s.refuseItem i (if e < f then aMEMORY else aLOAD) (s.earliest (max e f))
        else
          let slot := s.freeSlot i.dye
          let s1 := ((s.placeSession i (s.prefixRec i.dye index).len g).forkTables i.dye slot index).answerItem i 0 s.now (max e f)
          let s2 := (s1.reportPlain i (s.prefixRec i.dye index).len).tellAll i.dye (.fork i.dye slot index)
          ((s2.bumpP .inn i.dye INN_D_ACCEPTED).giveEntries i.dye (i.entries - 2)).innFollow i.dye

/-- A closed session freed on this package and, by a message, on the others (R141, R150). -/
def State.freeSession (s : State) (d : Dye) (x : Session) : State :=
  let s1 := ((s.freeTables d x.slot).setCtx d x.slot none).setSess d x.id none
  let tell := (s.peers d).map (fun sl => LinkOut.control sl (.closed d x.slot))
  let recs := tabSet (fun _ => none) s1.tokenRecs (d.val * 65536 + x.slot) none
  { (s1.countSess d) with tokenRecs := recs, linkTx := s1.linkTx ++ tell }
/-- The CLOSE of a session whose other items have their last records: its report is posted and the session freed. -/
def State.closeIfDone (s : State) (d : Dye) (id : Nat) : State :=
  match s.sess d id with
  | none => s
  | some x =>
    if x.closing && (s.sessItems d id).all (fun j => j.kind == 8) then
      let closes := s.sessItems d id
      let s1 := closes.foldl (fun (t : State) j => (t.reportPlain j x.len).giveEntries d (j.entries - 1)) s
      (({ s1 with items := s1.items.filter (fun j => !closes.any (fun q => q.uid == j.uid)) }).freeSession d x).innFollow d
    else s
/-- CLOSE: accepted; reported after the session's admitted items (R218). -/
def State.admitClose (s : State) (i : Item) (x : Session) : State :=
  let e := max s.now (s.afterItems i)
  let s1 := (s.answerItem i 0 e e).admitItem i (i.entries - 1) none s.now
  ((s1.setSess i.dye i.session (some { x with closing := true })).closeIfDone i.dye i.session).innFollow i.dye
/-- The promotions of a session behind its page in progress stop: the pages are no longer BUSY (Table 6-6). -/
def State.stopPromotion (s : State) (d : Dye) (slot : Nat) : State :=
  let ms := s.pageMoves.filter (fun m => m.cause == 3 && m.dye == d && m.session == some slot && m.orphan.isNone)
  ms.tail.foldl (fun (t : State) m =>
    match t.movePte m with
    | none => t
    | some p =>
      let u := t.setMovePte m { p with busy := false }
      { u with pageMoves := u.pageMoves.erase m }) s
/-- A hint taken on a package: it replaces an earlier one of the session; a resume hint starts when the promotion must, and the pages
that an earlier one promoted stay pinned as long (R158, R159, Table 6-6). -/
def State.takeHint (s : State) (d : Dye) (slot : Nat) (resume : Bool) (tier x : Nat) : State :=
  let mine := fun (q : Hint) => q.dye == d && q.session == slot
  let others := s.hints.filter (fun q => !mine q)
  if resume then
    let h : Hint := { dye := d, session := slot, resume := true, at_ := s.now, x := x,
                      start := max s.now (s.now + x * 1000 - s.promoNs d slot - s.promoMargin) }
    { s with hints := others ++ [h],
             pins := if s.hints.any (fun q => mine q && q.resume) then s.pins.map (fun q =>
                 if q.dye = d ∧ q.session = slot then { q with until_ := s.now + x * 1000 + s.promoMargin } else q) else s.pins }
  else
    { s.stopPromotion d slot with hints := others ++ [{ dye := d, session := slot, resume := false, tier := tier, at_ := s.now }] }
/-- SUSPEND and RESUME: passed to the tier manager as hints (R158, R159), the answer alone. -/
def State.admitHint (s : State) (i : Item) (x : Session) : State :=
  let resume := i.kind == 6
  let tier := if resume then 0 else i.arg
  let arg := if resume then i.arg else 0
  let s2 := ((s.takeHint i.dye x.slot resume tier arg).tellAll i.dye (.hint i.dye x.slot resume tier arg)).answerItem i 0 s.now s.now
  ((s2.bumpP .inn i.dye INN_D_ACCEPTED).giveEntries i.dye (i.entries - 1)).innFollow i.dye

/-- A refusal for want of weights. EARLIEST during a replacement is the end of the priced load, which the spec does not
price: a free value (log entry 4). -/
def State.refuseWeights (s : State) (i : Item) : State :=
  if s.dyeDrains i.dye then
    let t := s.draw
    t.2.refuseItem i aWEIGHTS ((s.now + Config.freeNat t.1) % 2 ^ 64)
  else s.refuseItem i aWEIGHTS allOnes64

/-- A load of the dye's image is in progress (R240): it has no free context slots. -/
def State.imageLoading (s : State) (d : Dye) : Bool :=
  let x := s.fld .pkg (pageOff d PKG_IMG_D_STATUS) 0 3
  decide (1 ≤ x) && decide (x ≤ 4)
/-- An item is priced and answered. The order of the checks that the spec does not order is log entry 42's. -/
def State.takeItem (s : State) (i : Item) : State :=
  let d := i.dye
  if i.formatBad then s.refuseItem i aFORMAT allOnes64
  else if (s.partEntry d).isNone || !s.isFront d then s.refuseItem i aNOTFRONT allOnes64
  else if ((s.partEntry d).map (fun e => e.mode == 1)).getD false then s.refuseItem i aMODE allOnes64
  else if s.bit .inn INN_STATUS 1 then s.refuseItem i aPOWER allOnes64
  else if s.bit .inn INN_STATUS 2 then s.refuseItem i aSTOPPED allOnes64
  else if (s.image d).isNone then s.refuseItem i aSESSION allOnes64
  else if (s.pkgTable d).any (fun p => s.lostSlots.contains p.slot) || decide (s.fld .cnt CNT_STATUS 0 2 < 2) ||
      (s.treatedAsLost && decide (1 < (s.pkgTable d).length)) then
    s.refuseItem i aHARDWARE allOnes64
  else if s.recabling && decide (1 < (s.pkgTable d).length) then s.refuseItem i aLOAD (s.recableAt + 60000000)
  else if i.kind = 1 ∨ i.kind = 7 then
    if (s.sess d i.session).isSome || s.imageLoading d then s.refuseItem i aSESSION allOnes64
    else if i.limitBad then s.refuseItem i aLIMIT allOnes64
    else if s.weightsBad d then s.refuseWeights i
    else if i.kind = 1 then s.admitOpen i else s.admitFork i
  else
    match s.sess d i.session with
    | none => s.refuseItem i aSESSION allOnes64
    | some x =>
      if s.stateBad i x then s.refuseItem i aSTATE allOnes64
      else if i.kind = 8 then s.admitClose i x
      else if i.kind = 5 ∨ i.kind = 6 then s.admitHint i x
      else if i.limitBad || s.lengthBad i x then s.refuseItem i aLIMIT allOnes64
      else if s.weightsBad d then s.refuseWeights i
      else s.admitStep i x

/-- The item of a kind at the front of the dye's items that RING_READ handed over. -/
def State.takeFromInbox (s : State) (d : Dye) (kind : Nat) : State :=
  match s.inbox.find? (fun e => e.1 == d) with
  | none => s
  | some e =>
    let i : Item := { uid := 0, dye := d, raw := e.2 }
    if i.kind ≠ kind then s else ({ s with inbox := s.inbox.erase e }).takeItem i

/-- OPEN. -/
def execOpenSession (d : Dye) (s : State) : Out := .next (s.takeFromInbox d 1)
/-- PREFILL. -/
def execPrefill (d : Dye) (s : State) : Out := .next (s.takeFromInbox d 2)
/-- DECODE. -/
def execDecode (d : Dye) (s : State) : Out := .next (s.takeFromInbox d 3)
/-- VERIFY. -/
def execVerify (d : Dye) (s : State) : Out := .next (s.takeFromInbox d 4)
/-- SUSPEND. -/
def execSuspend (d : Dye) (s : State) : Out := .next (s.takeFromInbox d 5)
/-- RESUME. -/
def execResume (d : Dye) (s : State) : Out := .next (s.takeFromInbox d 6)
/-- FORK. -/
def execFork (d : Dye) (s : State) : Out := .next (s.takeFromInbox d 7)
/-- CLOSE. -/
def execClose (d : Dye) (s : State) : Out := .next (s.takeFromInbox d 8)

end Sys2Proof.Machine
end

