-- ==== Sys2Proof/Machine/Steps.lean ====
section
/-! DEFINITION. Batch steps (R211 to R215, R220 to R225, R203, R226): sealing, plans, starts, phases, reports, repricing,
and failures of items. -/

namespace Sys2Proof.Machine

/-! ### The end of an item (R222 to R224) -/

/-- TOKENS_VALID of a page in tier 0 or tier 1 lowered (R223). -/
def State.lowerValid (s : State) (d : Dye) (p : Pte) (v : Nat) : State :=
  if p.tier = 1 then
    let o := (p.frame.toNat % 2 ^ 24) * 65536 + kvHeaderAt + 4
    let r := s.hbmRead d o 2
    if v < leNat r.1.1 then r.2.hbmWrite o (leBytes v 2) else r.2
  else if p.tier = 0 then
    match s.place d (p.frame.toNat * 65536 + kvHeaderAt + 4) with
    | .slice c o =>
      let r := s.sliceRead c o 2
      if v < leNat r.1.1 then (r.2.sliceWrite c o (leBytes v 2)).2 else r.2
    | _ => s
  else s
/-- A session's committed length on this package. Rolled back, the pages that the step started are freed and TOKENS_VALID
of the last page is lowered (R223). -/
def State.setLen (s : State) (d : Dye) (slot len : Nat) (rollback : Bool) : State :=
  let s1 := match s.ctx d slot with
    | none => s
    | some c => s.setCtx d slot (some { c with len := len })
  if !rollback then s1
  else
    let mine := (s1.sessionPtes d slot).filter (fun e => !e.2.ro)
    let gone := mine.filter (fun e => decide (len ≤ ptePage e.1 * 256))
    let s2 := gone.foldl (fun (t : State) e => (t.dropPage d e.2).setPte e.1 none) s1
    let last := mine.filter (fun e => decide (ptePage e.1 * 256 < len) && decide (len < ptePage e.1 * 256 + 256))
    last.foldl (fun (t : State) e => t.lowerValid d e.2 (len % 256)) s2
def State.tellLen (s : State) (d : Dye) (slot len : Nat) (rollback : Bool) : State :=
  let tell := (s.peers d).map (fun sl => LinkOut.control sl (.committed d slot len rollback))
  { s with linkTx := s.linkTx ++ tell }
/-- An item has its last record: it leaves its step, and a close that waited for it goes on; weights drain (R197). -/
def State.finishItem (s : State) (i : Item) : State :=
  let s1 : State := { s with items := s.items.filter (fun (j : Item) => j.uid != i.uid),
                             steps := s.steps.map (fun (p : Step) => { p with items := p.items.filter (· ≠ i.uid) }) }
  let left := s1.items.any (fun j => j.step == i.step && j.dye == i.dye)
  let s2 := if left then s1 else s1.closeIfDone i.dye i.session
  (s2.closeIfDone i.dye i.session).drainWeights
/-- A FAILURE of an item: rolled back, which is its last record, or LATE_PENDING. -/
def State.failItem (s : State) (i : Item) (code fate : Nat) : State :=
  let s1 := s.postFailure i code fate
  if fate = 1 then
    { s1 with items := s1.items.map (fun (j : Item) => if j.uid = i.uid then { j with late := true, entries := j.entries - 1 } else j) }
  else
    let s2 := s1.giveEntries i.dye (i.entries - 1)
    let s3 := match s2.sess i.dye i.session with
      | some x => if i.kind = 8 then s2 else (s2.setLen i.dye x.slot x.len true).tellLen i.dye x.slot x.len true
      | none => s2
    s3.finishItem i
/-- A step that is over on this package: its plan, its comparator and its unused reservations go (R155). -/
def State.endPlan (s : State) (d : Dye) (no : Word32) : State :=
  let s1 := s.disarm (fun w => w == .stepStart d no)
  let ended := s1.plans.filter (fun (p : PlanSt) => p.plan.dye == d && p.plan.step == no)
  let lanes := ended.map (fun p => p.plan.lane)
  let s2 : State := { s1 with
    failReps := s1.failReps.filter (fun f => !(f.dye == d && f.step == no)),
    plans := s1.plans.filter (fun (p : PlanSt) => !(p.plan.dye == d && p.plan.step == no)),
    farDrops := s1.farDrops.filter (fun q => !(q.1 == d && q.2.1 == no)),
    reserved := s1.reserved.filter (fun r => !(r.1 == d && r.2.1 == no.toNat)) }
  -- The regions of a lane that no planned step uses are clock-gated (R307).
  let idle := lanes.filter (fun l => !s2.plans.any (fun (p : PlanSt) => p.plan.dye == d && p.plan.lane == l))
  idle.foldl (fun (t : State) l => (t.laneRegs d l).foldl (fun (u : State) r => { u.rgnRequest r 1 with idleAt := natSet u.idleAt r.val (u.now + 1) }) t) s2
def State.endStep (s : State) (d : Dye) (no : Word32) : State :=
  let s1 := (s.endPlan d no).drainWeights
  ({ s1 with steps := s1.steps.filter (fun (p : Step) => !(p.dye == d && p.number == no)) }).innFollow d
def State.findItems (s : State) (uids : List Nat) : List Item := s.items.filter (fun i => uids.contains i.uid)
/-- The tile groups of a running step that fails are stopped (R191). -/
def State.stopLane (s : State) (d : Dye) (prefill : Bool) : State :=
  ((s.laneRegs d prefill).flatMap allCores).foldl (fun (t : State) c => t.coreStop c) s
/-- A step that is over before its reports: the other packages drop its plan (log entry 134). -/
def State.endEarly (s : State) (d : Dye) (no : Word32) : State := (s.endStep d no).tellAll d (.stepOver d no)
/-- The front package says that a step is over: its tile groups stop, and its plan goes. -/
def State.stepEnds (s : State) (d : Dye) (no : Word32) : State :=
  let s1 := match s.plans.find? (fun q => q.plan.dye == d && q.plan.step == no) with
    | some q => if q.running then s.stopLane d q.plan.lane else s
    | none => s
  (s1.endPlan d no).drainWeights
/-- Every item of a step fails, rolled back, and the step is over. -/
def State.failStep (s : State) (p : Step) (code : Nat) : State :=
  let s1 := (s.findItems p.items).foldl (fun (t : State) i => t.failItem i code 0) s
  let s2 := if p.state = .running then s1.stopLane p.dye p.prefill else s1
  s2.endEarly p.dye p.number
/-- Steps left without items are over. -/
def State.dropEmpty (s : State) (d : Dye) : State :=
  (s.steps.filter (fun p => p.dye == d && p.items == [])).foldl (fun (t : State) p => t.endEarly d p.number) s

def State.stepNamed (s : State) (d : Dye) (no : Word32) : Option Step := s.steps.find? (fun p => p.dye == d && p.number == no)
/-- A failure on another package, of a step or of one session's items in it (R134, R145, R224). -/
def State.failNamed (s : State) (d : Dye) (no : Word32) (session : Option Nat) (code : Nat) : State :=
  match s.stepNamed d no, session with
  | none, _ => s
  | some p, none => s.failStep p code
  | some p, some slot =>
    (((s.findItems p.items).filter (fun i => (s.sess d i.session).any (fun x => x.slot == slot))).foldl
      (fun (t : State) i => t.failItem i code 0) s).dropEmpty d

/-! ### Sealing and plans (R211, R213, R214) -/

def State.setStep (s : State) (p : Step) : State :=
  { s with steps := s.steps.map (fun (w : Step) => if w.dye = p.dye ∧ w.number = p.number then p else w) }
/-- The plan of a step as it seals. -/
def State.planOf (s : State) (p : Step) (q : Quote) : StepPlan :=
  let xs := s.stepItems p
  { dye := p.dye, lane := p.prefill, step := p.number, start := BitVec.ofNat 64 p.start, fPrice := q.fPrice,
    layers := layerOffsets q.groups q.lead, token := q.tokenOfs, endOfs := q.price, cls := p.cls,
    buckets := bucketsIn (xs.map s.priced),
    work := xs.filterMap (fun i => (s.sess i.dye i.session).map (fun x => (x.slot, i.adds))) }
/-- STEP_SEAL: from start - SEAL_LEAD the step takes no more items, and its plan leaves for every package. -/
def execStepSeal (d : Dye) (step : Word32) (s : State) : Out :=
  match s.stepNamed d step with
  | none => .next s
  | some p =>
    if p.state ≠ .isOpen ∨ s.now + cfgSeal (s.cfg d) < p.start then .next s
    else
      match s.quoteStep d p.prefill p.cls p.start ((s.stepItems p).map s.priced) p.load with
      | none => .next (s.setStep { p with state := .sealed })
      | some q =>
        let s1 := s.setStep { p with state := .sealed }
        .next (({ s1 with linkTx := s1.linkTx ++ [LinkOut.plan (s.planOf p q)] } : State).innFollow d)

/-- Where the plan of a lane lies in the phase-plan area: three frames for each lane (log entry 47). -/
def State.planAddr (s : State) (d : Dye) (prefill : Bool) : Nat := natGet s.planArea d.val + b2n prefill * 3 * 65536
/-- The plan written, DRV_D_PLAN written on every engine. -/
def State.layPlan (s : State) (p : StepPlan) : State :=
  if natGet s.planArea p.dye.val = 0 then s
  else
    let a := s.planAddr p.dye p.lane
    let s1 := s.hbmWrite (a - 0x10000000000) (planBytes p)
    (List.finRange 8).foldl (fun (t : State) e => t.drvPlan e p.dye (BitVec.ofNat 48 a)) s1
/-- An amended plan in the place of the one that the engines follow (R221). -/
def State.rewritePlan (s : State) (old p : StepPlan) : State :=
  let a := s.planAddr p.dye p.lane
  if natGet s.planArea p.dye.val = 0 ∨ s.planStart 0 p.dye a ≠ old.start.toNat then s
  else if p.start = old.start then s.hbmWrite (a - 0x10000000000) (planBytes p)
  else s.layPlan p
/-- STEP_PLAN: written to the phase-plan area and to DRV_D_PLAN; the regions of the lane are woken, and a comparator armed
for the start. An amended plan takes the place of the one before (R220, R221). -/
def execStepPlan (p : StepPlan) (s : State) : Out :=
  let old := s.plans.find? (fun q => q.plan.dye == p.dye && q.plan.step == p.step)
  match old with
  | some q =>
    let s1 := ({ s with plans := s.plans.map (fun (w : PlanSt) => if w = q then { w with plan := p } else w) } : State).rewritePlan
      q.plan p
    .next (if p.start = q.plan.start ∨ q.running then s1
           else (s1.disarm (fun w => w == .stepStart p.dye p.step)).armCmp 0 p.start.toNat (.stepStart p.dye p.step))
  | none =>
    let s1 := ({ s with plans := s.plans ++ [{ plan := p }] } : State).layPlan p
    let s2 := (s1.laneRegs p.dye p.lane).foldl (fun (t : State) r => t.rgnRequest r 0) s1
    .next (s2.armCmp 0 p.start.toNat (.stepStart p.dye p.step))

/-! ### The start of a step (R213, R145, R232) -/

/-- A page that an append in this step starts, from the frames reserved at admission. -/
def State.startPage (s : State) (d : Dye) (no : Word32) (slot layer page : Nat) (home : Fin 2) (start : Nat) : State :=
  if (s.pte d slot layer page).isSome then s
  else
    let t := s.takeFrame d home 0
    match t.1 with
    | none => t.2
    | some f =>
      let u := t.2.setPte (pteKey d slot layer page)
        (some { tier := 1, frame := BitVec.ofNat 32 (0x1000000 + f), touch := touchOf start })
      { u with reserved := u.reserved.map (fun r => if r.1 = d ∧ r.2.1 = no.toNat ∧ r.2.2.1 = 1 then
          (r.1, r.2.1, r.2.2.1, r.2.2.2 - 1) else r) }
def State.startPages (s : State) (p : StepPlan) : State :=
  p.work.foldl (fun (t : State) w =>
    match t.ctx p.dye w.1 with
    | none => t
    | some c =>
      let first := (c.len + 255) / 256
      let news := (List.range ((c.len + w.2 + 255) / 256 - first)).map (· + first)
      (news.filter (t.holdsPage p.dye)).foldl (fun (u : State) n =>
        (List.range p.layers.length).foldl (fun (v : State) l => v.startPage p.dye p.step w.1 l n c.home p.start.toNat) u) t) s
/-- The cores of a region start: the set of the step's lowest bucket is loaded where they hold another one, and a core that
HALTED in the last step starts anew (log entry 48). -/
def State.startRegion (s : State) (p : StepPlan) (r : RegionNo) : State :=
  if !s.rgnActive r then s
  else
    let s1 := (allCores r).foldl (fun (t : State) c =>
      if (t.core c).run = .halted then t.onCore c (fun k => { k with run := .idle }) else t) s
    let s2 := s1.needSet r p.lane p.cls (p.buckets.headD 0)
    ((allCores r).filter (fun c => (s2.core c).istore != [])).foldl (fun (t : State) c => t.coreGo c) s2
/-- Streams that a phase of a layer waits for in a region (R187): those of the step's table for the region and the layer that have
neither ended nor been cancelled, a ROUTED one from EXPERT on. A stream that failed has not ended, so its layer does not run (R185). -/
def State.streamsOpen (s : State) (p : StepPlan) (r : RegionNo) (layer : Nat) (pt : PlanPoint) : Bool :=
  let expert := pt == .expert || pt == .combine
  let phase := pt == .layerStart || pt == .attention || pt == .gate || pt == .select || pt == .dispatch || expert
  phase && ((List.finRange 8).filter (fun e => engineDie e == regionDie r)).any (fun e =>
    (List.zipIdx (s.table e p.dye)).any (fun x => let y := streamOf x.1
      y.rgnOrd == s.ordinal r && y.layer == layer && (!y.routed || expert) && !(s.drv e p.dye).over (p.start.toNat, x.2)))
/-- STEP_START: at the start every region controller of the step starts its tile groups; it waits where streams of the first layer have
not ended (R187). -/
def execStepStart (d : Dye) (step : Word32) (s : State) : Out :=
  match s.plans.find? (fun q => q.plan.dye == d && q.plan.step == step) with
  | none => .next s
  | some q =>
    if q.running || decide (s.now < q.plan.start.toNat) then .next s
    else
      let s1 := ({ s with plans := s.plans.map (fun (w : PlanSt) => if w = q then { w with running := true } else w) }).startPages
        q.plan
      let late := (s1.laneRegs d q.plan.lane).filter (fun r => s1.streamsOpen q.plan r 0 .layerStart)
      let s2 := ((s1.laneRegs d q.plan.lane).filter (fun r => !late.contains r)).foldl (fun (t : State) r => t.startRegion q.plan r)
        { s1 with plans := s1.plans.map (fun (w : PlanSt) =>
            if w.plan.dye = d ∧ w.plan.step = step then { w with waits := late } else w) }
      let s3 := match s2.stepNamed d step with
        | some p => s2.setStep { p with state := .running }
        | none => s2
      .next (((s3.disarm (fun w => w == .stepStart d step)).innFollow d).pulse 5 (fun arg => arg == d.val))

/-! ### Phases (R115, R165, R214, R215) -/

/-- The offset of a point in a plan, in ns from START. -/
def pointOfs (p : StepPlan) (layer : Nat) (pt : PlanPoint) : Nat :=
  let l := p.layers.getD layer []
  match pt with
  | .layerStart => l.getD 0 0
  | .attention => l.getD 1 0
  | .gate => l.getD 2 0
  | .select => l.getD 3 0
  | .dispatch => l.getD 4 0
  | .expert => l.getD 5 0
  | .combine => l.getD 6 0
  | .layerEnd => l.getD 7 0
  | .token => p.token
  | .stepEnd => p.endOfs
/-- ATP_PHASE and COU_PHASE at a point. -/
def atpAt (pt : PlanPoint) : Nat := match pt with | .layerStart => 1 | .attention => 2 | .token => 3 | _ => 0
def couAt (pt : PlanPoint) : Nat := match pt with | .select => 1 | .dispatch => 2 | .expert => 3 | .combine => 4 | _ => 0
/-- A core of the region runs and has not come to a barrier (R215). -/
def State.groupsRun (s : State) (r : RegionNo) : Bool :=
  (allCores r).any (fun c => let k := s.core c
    k.run == .running && !(match k.blocked with | some (.x op _) => op == opBARRIER | _ => false))
/-- A unit of the region still holds work of the phase that would end, or a tile group has not reached its barrier; at the start of a
step there is no phase before (R215; log entry 135). -/
def State.phaseBusy (s : State) (r : RegionNo) (layer : Nat) (pt : PlanPoint) : Bool :=
  (s.groupsRun r && !(pt == .layerStart && layer == 0)) ||
  (s.atpPhase r != atpAt pt && allUnits.any (fun u => u.phase == s.atpPhase r && u.queue (s.atp r) != [] && s.unitState r u != 3)) ||
  (s.couPhase r != couAt pt && s.couUnfinished r (s.couPhase r) && s.couState r != cSTOPPED)
def State.writePhases (s : State) (r : RegionNo) (a c : Nat) : State :=
  (s.phaseWrite r (BitVec.ofNat 32 a)).couPhaseWrite r (BitVec.ofNat 32 c)
/-- The region that takes a session's attention in a step: of its home die in the lane, the one with the fewest pages so far, the lower
ordinal on ties, sessions in admission order (R204). -/
def State.attentionRegs (s : State) (p : StepPlan) : List (Nat × RegionNo) :=
  (p.work.foldl (fun (a : List (Nat × RegionNo) × List (RegionNo × Nat)) w =>
    match s.ctx p.dye w.1 with
    | none => a
    | some c =>
      let best := (a.2.filter (fun e => regionDie e.1 == c.home.val)).foldl (fun (b : Option (RegionNo × Nat)) e => match b with
        | none => some e
        | some q => if e.2 < q.2 then some e else some q) none
      match best with
      | none => a
      | some b => (a.1 ++ [(w.1, b.1)], a.2.map (fun e =>
          if e.1 = b.1 then (e.1, e.2 + s.pagesOn p.dye (s.pkgOrd p.dye) (c.len + w.2)) else e)))
    ([], (s.laneRegs p.dye p.lane).map (fun r => (r, 0)))).1
/-- The walk of a layer before its attention (R145, R146), of the sessions whose attention the region takes: the pages that pass its test
are touched; a session with a page that fails it is returned. -/
def State.walk (s : State) (p : StepPlan) (r : RegionNo) (layer : Nat) : List Nat × State :=
  let mineTo := s.attentionRegs p
  p.work.foldl (fun (a : List Nat × State) w =>
    match a.2.ctx p.dye w.1 with
    | none => a
    | some _ =>
      if !mineTo.contains (w.1, r) then a
      else
        let mine := (a.2.sessionPtes p.dye w.1).filter (fun e => pteLayer e.1 == layer)
        let seen := fun (e : Nat × Pte) => if e.2.ro then (a.2.sharedPte p.dye e.2.frame.toNat).getD e.2 else e.2
        let fails := fun (e : Nat × Pte) => let q := seen e; q.busy || decide (1 < q.tier)
        let bad := mine.any fails
        let at_ := touchOf p.start.toNat
        let t := (mine.filter (fun e => !fails e)).foldl (fun (t : State) e =>
          let t1 := t.setPte e.1 (some { e.2 with touch := at_ })
          if e.2.ro then (match t1.sharedPte p.dye e.2.frame.toNat with
            | some q => t1.setShared (sharedKey p.dye e.2.frame.toNat) (some { q with touch := at_ })
            | none => t1) else t1) a.2
        (if bad then w.1 :: a.1 else a.1, t)) ([], s)
/-- MISPRICED for the items of the sessions that failed the walk, with a Ledger record (R145, R224). -/
def State.misprice (s : State) (d : Dye) (step : Word32) (slots : List Nat) : State :=
  slots.foldl (fun (t : State) sl =>
    let t1 := t.detectUnit 0x2A d 0 [sl]
    if t1.isFront d then
      let bad := t1.items.filter (fun i => i.dye == d && i.step == some step &&
        (match t1.sess d i.session with | some x => x.slot == sl | none => false))
      bad.foldl (fun (u : State) i => u.failItem i 2 0) t1
    else { t1 with linkTx := t1.linkTx ++ [.control ((s.slotOf d 0).getD s.slot) (.failed d step (some sl) 2)] }) s
def State.openPhase (s0 : State) (p : StepPlan) (r : RegionNo) (layer : Nat) (pt : PlanPoint) : State :=
  -- A replay lasts no longer than the phase it replays (R128).
  let s := if s0.atpPhase r ≠ atpAt pt then s0.setBit (.atp r) ATP_CFG 1 false else s0
  let s1 := if pt = .attention then
    (let w := s.walk p r layer
     w.2.misprice p.dye p.step w.1) else s
  s1.writePhases r (atpAt pt) (couAt pt)
def heldReset (_ : Nat) : Option Held := none
/-- A phase held back. Where the region's work is not done, the new phase is written, which the units meet by HELD, then the previous
one again (R215); where only a stream holds it, nothing is written. -/
def State.holdPhase (s : State) (p : StepPlan) (r : RegionNo) (layer : Nat) (pt : PlanPoint) (since : Nat) : State :=
  let a := s.atpPhase r
  let c := s.couPhase r
  let s1 := if s.phaseBusy r layer pt then (s.writePhases r (atpAt pt) (couAt pt)).writePhases r a c else s
  let h : Held := { pt := pt, layer := layer, since := since, stream := s.streamsOpen p r layer pt }
  { s1 with held := tabSet heldReset s1.held r.val (some h) }
/-- What keeps a phase from opening at its point: work of the phase before (R215), or a stream (R187). -/
def State.phaseHeld (s : State) (p : StepPlan) (r : RegionNo) (layer : Nat) (pt : PlanPoint) : Bool :=
  s.phaseBusy r layer pt || s.streamsOpen p r layer pt
/-- The tile groups of a region that waited for the streams of the first layer start once these have ended. -/
def State.startLate (s : State) (q : PlanSt) (r : RegionNo) : State :=
  if q.waits.contains r && !s.streamsOpen q.plan r 0 .layerStart then
    ({ s with plans := s.plans.map (fun (w : PlanSt) =>
         if w = q then { w with waits := w.waits.filter (· ≠ r) } else w) } : State).startRegion q.plan r
  else s
/-- The region is late by the time it took: to the Ledger, and to the front package. -/
def State.lateRegion (s : State) (d : Dye) (r : RegionNo) (ns : Nat) : State :=
  let s1 := s.hist 2 d r.val ns
  if s1.isFront d then s1
  else { s1 with linkTx := s1.linkTx ++ [.innkeeper ((s.slotOf d 0).getD s.slot) 8 [d.val, s.ordinal r, ns]] }
/-- PHASE_POINT: the region controller opens a phase at its point, or holds it until the region has finished the previous one and the
phase's streams have ended; the point given again is the controller's next look (log entry 49). -/
def execPhasePoint (r : RegionNo) (step : Word32) (layer : Nat) (pt : PlanPoint) (s0 : State) : Out :=
  match s0.plans.find? (fun q => q.plan.dye == s0.owner r && q.plan.step == step && q.plan.lane == s0.inPrefill r) with
  | none => .next s0
  | some q =>
    let p := q.plan
    if !q.running || decide (s0.now < p.start.toNat + pointOfs p layer pt) then .next s0
    else
      let s := s0.startLate q r
      match tabGet heldReset s.held r.val with
      | some h =>
        if s.phaseHeld p r h.layer h.pt then
          .next { s with held := tabSet heldReset s.held r.val (some { h with stream := s.streamsOpen p r h.layer h.pt }) }
        else
          let s1 := ({ s with held := tabSet heldReset s.held r.val none }).openPhase p r h.layer h.pt
          let s2 := s1.lateRegion p.dye r (s.now - h.since)
          if h.pt = pt ∧ h.layer = layer then .next s2
          else if s2.phaseHeld p r layer pt then .next (s2.holdPhase p r layer pt s.now)
          else .next (s2.openPhase p r layer pt)
      | none =>
        if s.phaseHeld p r layer pt then .next (s.holdPhase p r layer pt s.now)
        else .next (s.openPhase p r layer pt)

/-! ### Reports (R211, Tables 5-8 and 9-5) -/

def Item.needsToken (i : Item) : Bool := i.kind == 3 || i.kind == 4 || i.sample
/-- The pairs that the lane's Couriers dropped in the step (R174). -/
def State.laneDrops (s : State) (d : Dye) (prefill : Bool) : Nat :=
  ((s.laneRegs d prefill).map (fun r => (s.rd (.cou r) COU_STEP_DROPS).toNat)).sum
/-- The pairs dropped in a step of a lane on every package, as far as the others have said. -/
def State.stepDrops (s : State) (p : Step) : Nat :=
  s.laneDrops p.dye p.prefill + ((s.farDrops.filter (fun q => q.1 == p.dye && q.2.1 == p.number)).map (·.2.2)).sum
/-- The REPORT of an item of a step; the session advances. The share of an item in drops of a step of several items is a
free value (log entry 50). -/
def State.reportItem (s : State) (p : Step) (i : Item) (alone : Bool) : State :=
  match s.sess i.dye i.session with
  | none => s.finishItem i
  | some x =>
    let key := i.dye.val * 65536 + x.slot
    let rec_ : Word512 := if i.needsToken then (tabGet (fun _ => none) s.tokenRecs key).getD 0 else 0
    let count := bitsOf rec_ 16 4
    let len := x.len + (if i.kind = 2 then i.nTok else count)
    let total := s.stepDrops p
    let dr := s.draw
    let drops := if total = 0 then 0 else if alone then min total 65535 else Config.freeNat dr.1 % (min total 65535 + 1)
    let body := bitsOf rec_ 32 22 * 2 ^ 256 + count * 2 ^ 278 + bitsOf rec_ 64 162 * 2 ^ 288 + drops * 2 ^ 450 + len * 2 ^ 466
    let r := recordOf 2 i.kind (bitsOf rec_ 20 4) 0 i.tag i.session s.now 0 p.number.toNat ||| BitVec.ofNat 512 (b2n i.late * 2 ^ 16 + body)
    let s0 := (if total = 0 ∨ alone then s else dr.2).hist 1 i.dye 0 (i.deadline - s.now)
    let s1 := ((s0.postRec { dye := i.dye, data := r }).giveEntries i.dye (i.entries - 1)).setSess i.dye i.session
      (some { x with len := len })
    let s2 := { s1 with tokenRecs := tabSet (fun _ => none) s1.tokenRecs key none }
    ((s2.setLen i.dye x.slot len false).tellLen i.dye x.slot len false).finishItem i
/-- Region moves between the lanes whose time has come (R203). -/
def State.applyLaneMoves (s : State) : State :=
  s.laneMoves.foldl (fun (t : State) m =>
    if m.2.2 ≤ t.now then
      ({ t with prefillLane := tabSet (fun _ => false) t.prefillLane m.1.val m.2.1, progSet := natSet t.progSet m.1.val 0,
                laneMoves := t.laneMoves.filter (fun x => x ≠ m) } : State).shapeFollow (t.owner m.1)
    else t) s
/-- The reports of failures for a step, and the state without them. -/
def State.takeFails (s : State) (d : Dye) (no : Word32) : List FailRep × State :=
  (s.failReps.filter (fun f => f.dye == d && f.step == no),
   { s with failReps := s.failReps.filter (fun f => !(f.dye == d && f.step == no)) })
/-- Failures of whole steps that have been reported: the front package fails the step, and another one tells it to (R191, R224). -/
def State.postFails (s : State) : State :=
  (s.failReps.filter (fun f => f.session.isNone)).foldl (fun (t : State) f =>
    let t1 : State := { t with failReps := t.failReps.erase f }
    if t1.isFront f.dye then t1.failNamed f.dye f.step none f.code
    else { t1 with linkTx := t1.linkTx ++ [.control ((t1.slotOf f.dye 0).getD t1.slot)
      (.failed f.dye f.step none (BitVec.ofNat 8 f.code))] }) s
/-- The reason for which an item fails, if a report names its session or the whole step. -/
def State.itemFail (s : State) (fs : List FailRep) (i : Item) : Option Nat :=
  (fs.find? (fun f => match f.session with
    | none => true
    | some slot => (s.sess i.dye i.session).any (fun x => x.slot == slot))).map (·.code)
/-- STEP_REPORT: every item of a running step gets its record, and the step is REPORTED. An agent copies the step's
results to the front package. It happens once every item that samples has its result record. An item whose session a region controller
has reported as failed gets its failure instead, and so does every item of a step of which an exchange or a stream failed (R134, R174,
R178, R191); the other packages send their reports to the front. -/
def execStepReport (d : Dye) (step : Word32) (s : State) : Out :=
  match s.plans.find? (fun q => q.plan.dye == d && q.plan.step == step) with
  | none => .next s
  | some q =>
    if !q.running then .next s
    else if !s.isFront d then
      let front := (s.slotOf d 0).getD s.slot
      let recs := q.plan.work.filterMap (fun w =>
        (tabGet (fun _ => none) s.tokenRecs (d.val * 65536 + w.1)).map (fun r => (w.1, r)))
      let f := s.takeFails d step
      let s1 : State := { f.2 with linkTx := f.2.linkTx ++ recs.map (fun e => LinkOut.control front (.result d e.1 e.2)) ++
                                     f.1.map (fun e => LinkOut.control front (.failed d step e.session (BitVec.ofNat 8 e.code))) ++
                                     [LinkOut.control front (.stepDrops d step (s.laneDrops d q.plan.lane))],
                                   tokenRecs := recs.foldl (fun t e => tabSet (fun _ => none) t (d.val * 65536 + e.1) none) s.tokenRecs }
      .next ((s1.endPlan d step).drainWeights.applyLaneMoves)
    else
      match s.stepNamed d step with
      | none => .next (s.endPlan d step)
      | some p =>
        let xs := s.stepItems p
        let f := s.takeFails d step
        let missing := xs.any (fun i => i.needsToken && (s.itemFail f.1 i).isNone && (match s.sess d i.session with
          | some x => (tabGet (fun _ => none) s.tokenRecs (d.val * 65536 + x.slot)).isNone
          | none => false))
        -- In degraded mode the drops of every package go into the report (R174).
        let told := (s.farDrops.filter (fun q => q.1 == d && q.2.1 == step)).length
        if p.state ≠ .running ∨ missing ∨ ((s.cfg d).degraded ∧ told < (s.peers d).length) then .next s
        else
          let s1 := f.2.bumpP .inn d INN_D_DROPS (s.stepDrops p)
          let s2 := xs.foldl (fun (t : State) i => match s.itemFail f.1 i with
            | some code => t.failItem i code 0
            | none => t.reportItem p i (xs.length == 1)) s1
          .next (((s2.bumpP .inn d INN_D_STEPS).endStep d step).applyLaneMoves)

/-! ### Lane shares (R203) -/

/-- The priced time of the steps of a lane that have not started, which its region count divides. -/
def State.backlog (s : State) (d : Dye) (prefill : Bool) : Nat :=
  (((s.laneSteps d prefill).filter (fun p => p.state != .running)).map (·.price)).sum
/-- RESHARE_TICK: one region per package moves to a lane with more than twice the other's backlog per region, where the bounds, the
listed shapes and the die rule allow; it leaves at the end of the giving lane's last planned step, and the first step of the receiving
lane after that includes its load time. Which region of the
giving lane is taken is log entry 51's. -/
def execReshareTick (d : Dye) (s0 : State) : Out :=
  let s := s0.applyLaneMoves
  if !s.isFront d ∨ (s.image d).isNone ∨ s.laneMoves.any (fun m => s.owner m.1 == d) then .next s
  else
    let bp := s.backlog d true
    let bd := s.backlog d false
    let np := max 1 (s.laneRegs d true).length
    let nd := max 1 (s.laneRegs d false).length
    let toPrefill := decide (2 * bd * np < bp * nd)
    if !toPrefill && !decide (2 * bp * nd < bd * np) then .next s
    else
      let n := s.prefillCount d
      let n' := if toPrefill then n + 1 else n - 1
      let listed := (s.cfg d).shapes.any (fun x => x.regions == (s.regionsOf d).length && x.prefillRgn == n')
      let giving := s.laneRegs d !toPrefill
      let can := (giving.filter (fun r => giving.any (fun q => q != r && regionDie q == regionDie r))).filter (fun r =>
        (List.range (s.pkgTable d).length).all (fun k =>
          let there := s.laneOn d (!toPrefill) k
          match (((s.pkgTable d)[k]?).map (·.regions)).getD [] |>.drop (s.ordinal r) |>.head? with
          | some x => there.any (fun q => q != x && regionDie q == regionDie x)
          | none => true))
      match can.getLast? with
      | none => .next s
      | some r =>
        if n' < (s.cfg d).prefillMin ∨ (s.cfg d).prefillMax < n' ∨ !listed then .next s
        else
          let at_ := (((s.laneSteps d !toPrefill).getLast?).map Step.end_).getD s.now
          let s1 := ({ s with laneMoves := s.laneMoves ++ [(r, toPrefill, at_)],
                              loadOwed := s.loadOwed ++ [(d, toPrefill, at_)] } : State).applyLaneMoves
          .next ((s1.tellAll d (.laneMove d (s.ordinal r) toPrefill at_)).innFollow d)

/-! ### Price changes (R220, R221) -/

/-- Items of a step that its price no longer lets through fail, until the rest holds; the plan of a sealed step leaves again. -/
def State.repriceStep (s : State) (d : Dye) (no : Word32) (start code : Nat) : Nat → State
  | 0 => s
  | n + 1 =>
    match s.stepNamed d no with
    | none => s
    | some p =>
      let xs := s.stepItems p
      match s.quoteStep d p.prefill p.cls start (xs.map s.priced) p.load with
      | none => if xs = [] then s.endEarly d no else s.failStep p code
      | some q =>
        let bad := xs.filter (fun i => decide (i.deadline < start + q.price))
        if bad = [] then
          let p' := { p with start := start, price := q.price, fPrice := q.fPrice, tTok := q.tTok }
          let s1 := s.setStep p'
          if p.state = .sealed ∧ p' ≠ p then { s1 with linkTx := s1.linkTx ++ [LinkOut.plan (s1.planOf p' q)] } else s1
        else (bad.foldl (fun (t : State) i => t.failItem i code 0) s).repriceStep d no start code n
/-- The steps of a lane that are not RUNNING, in start order, each at its start or after the one before. -/
def State.repriceLane (s : State) (d : Dye) (prefill : Bool) (code : Nat) : State :=
  ((s.laneSteps d prefill).foldl (fun (a : State × Nat) p =>
    if p.state = .running then (a.1, p.end_)
    else if !a.1.laneOk d prefill then (a.1.failStep p 1, a.2)
    else
      let start := max p.start a.2
      let t := (a.1.repriceStep d p.number start code (p.items.length + 1)).dropEmpty d
      (t, ((t.stepNamed d p.number).map Step.end_).getD a.2)) (s, 0)).1
def causeCode : PriceCause → Nat
  | .frequency => 3
  | _ => 1
/-- PRICE_CHANGE: every step that is not RUNNING is priced again, and one event goes to the dye. -/
def execPriceChange (d : Dye) (cause : PriceCause) (s : State) : Out :=
  if !s.isFront d ∨ (s.image d).isNone then .next (s.innFollow d)
  else
    let s0 := if cause = .regionFailed then s.postEventRec d 5 0 else s
    let s1 := s0.postEventRec d 2 0
    .next (((s1.repriceLane d false (causeCode cause)).repriceLane d true (causeCode cause)).innFollow d)

/-- FREQ_AMEND: a frequency below f_price takes effect at tsw within a RUNNING step: every later point is stretched, the
amended plan leaves, and items that miss get LATE_PENDING with FREQ. -/
def execFreqAmend (d : Dye) (step : Word32) (f : Nat) (tsw : Word64) (s : State) : Out :=
  match s.stepNamed d step, s.plans.find? (fun q => q.plan.dye == d && q.plan.step == step) with
  | some p, some q =>
    if p.state ≠ .running ∨ f = 0 ∨ p.fPrice ≤ f then .next s
    else
      let move := fun (o : Nat) => if p.start + o ≤ tsw.toNat then o
        else tsw.toNat + ceilDiv ((p.start + o - tsw.toNat) * p.fPrice) f - p.start
      let plan : StepPlan := { q.plan with layers := q.plan.layers.map (fun (l : List Nat) => l.map move),
                                           token := move q.plan.token, endOfs := move q.plan.endOfs }
      let e := p.start + plan.endOfs
      let s1 := s.setStep { p with price := plan.endOfs }
      let s2 := ({ s1 with plans := s1.plans.map (fun (w : PlanSt) => if w = q then { w with plan := plan } else w),
                           linkTx := s1.linkTx ++ [LinkOut.plan plan] } : State).rewritePlan q.plan plan
      let bad := (s2.findItems p.items).filter (fun i => decide (i.deadline + p.tTok < e) && !i.late)
      .next (bad.foldl (fun (t : State) i => t.failItem i 3 1) s2)
  | _, _ => .next s

/-! ### Failures (R222, R224, R225) -/

/-- FAIL_GUARD_CHECK: at DEADLINE - FAIL_GUARD an item that has neither report nor failure gets LATE, LATE_PENDING; the
lateness is recorded (R215, R224). -/
def execFailGuardCheck (d : Dye) (tag : Word32) (s : State) : Out :=
  let due := s.items.filter (fun i => i.dye == d && i.tag == tag.toNat && i.stepKind && !i.late &&
    decide (i.deadline ≤ s.now + cfgGuard (s.cfg d)))
  .next (due.foldl (fun (t : State) i => t.failItem i 4 1) s)

/-- ITEM_FAILURE: the items of a step fail with a reason, rolled back: every item for a fault, a lost package or a kill;
those of cold sessions for COLD; those whose session's pages a walk would refuse for MISPRICED; before the start only for
POWER. -/
def execItemFailure (d : Dye) (step : Word32) (code : Byte) (s : State) : Out :=
  match s.stepNamed d step with
  | none => .next s
  | some p =>
    let c := code.toNat
    let xs := s.findItems p.items
    let cold := fun (i : Item) => match s.sess d i.session with | some x => x.cold | none => true
    let lost := fun (i : Item) => match s.sess d i.session with
      | some x => (s.sessionPtes d x.slot).any (fun e => e.2.busy || decide (1 < e.2.tier))
      | none => true
    if c = 1 ∨ c = 5 ∨ c = 7 then .next (s.failStep p c)
    else if c = 8 then .next (if p.state = .running then s else s.failStep p 8)
    else if c = 2 then .next (((xs.filter lost).foldl (fun (t : State) i => t.failItem i 2 0) s).dropEmpty d)
    else if c = 6 then .next (((xs.filter cold).foldl (fun (t : State) i => t.failItem i 6 0) s).dropEmpty d)
    else if c = 3 then
      .next (if p.state = .running then
          (xs.filter (fun i => !i.late && decide (i.deadline < p.end_ - p.tTok))).foldl (fun (t : State) i => t.failItem i 3 1) s
        else ((xs.filter (fun i => decide (i.deadline < p.end_))).foldl (fun (t : State) i => t.failItem i 3 0) s).dropEmpty d)
    else .next s

/-- Every step of a dye fails with a reason; POWER spares those that run. -/
def State.failDye (s : State) (d : Dye) (code : Nat) : State :=
  let s1 := (s.steps.filter (fun p => p.dye == d && !(code == 8 && p.state == .running))).foldl
    (fun (t : State) p => t.failStep p code) s
  if code = 7 then (s1.items.filter (fun i => i.dye == d)).foldl (fun (t : State) i => t.failItem i 7 0) s1 else s1
/-- A hardware fault of a region: the running steps that use it fail (R224); a package that is not the front reports them to
it. -/
def State.regionFault (s0 : State) (r : RegionNo) : State :=
  let d := s0.owner r
  let hit := s0.plans.filter (fun q => q.plan.dye == d && q.running && q.plan.lane == s0.inPrefill r)
  let s : State := if s0.isFront d then s0 else { s0 with linkTx := s0.linkTx ++ hit.map (fun q =>
    LinkOut.control ((s0.slotOf d 0).getD s0.slot) (.failed d q.plan.step none 1)) }
  (s.steps.filter (fun p => p.dye == d && p.state == .running && p.prefill == s.inPrefill r)).foldl
    (fun (t : State) p => t.failStep p 1) s

/-! ### Admission stopped and resumed (R225, R226) -/

/-- The dyes that this package fronts. -/
def State.fronted (s : State) : List Dye :=
  (List.finRange 16).filter (fun d => (s.partEntry d).isSome && s.isFront d && (s.image d).isSome)
def State.admission (s : State) (bit : Nat) (on : Bool) : State :=
  if s.bit .inn INN_STATUS bit = on then s
  else
    let was := s.bit .inn INN_STATUS 1 || s.bit .inn INN_STATUS 2
    let s1 := s.setBit .inn INN_STATUS bit on
    let is := s1.bit .inn INN_STATUS 1 || s1.bit .inn INN_STATUS 2
    let s2 := if on || (was && !is) then
      s1.fronted.foldl (fun (t : State) d => t.postEventRec d (if on then 3 else 4) 0) s1 else s1
    (List.finRange 16).foldl (fun (t : State) d => t.innFollow d) s2
/-- STOP_ADMIT: the management partition stops admission. -/
def execStopAdmit (m : Master) (s : State) : Out :=
  if s.dyeOf m ≠ 0 then .next s.permissionError else .next ((s.admission 2 true).answer [])
/-- RESUME_ADMIT. -/
def execResumeAdmit (m : Master) (s : State) : Out :=
  if s.dyeOf m ≠ 0 then .next s.permissionError else .next ((s.admission 2 false).answer [])

end Sys2Proof.Machine
end

