-- ==== Sys2Proof/Machine/Withdraw.lean ====
section
/-! DEFINITION. What a debug token allows, and what its end withdraws (R334, R335, R353). -/

namespace Sys2Proof.Machine

/-- Whether a dye's token in force allows what bit b of its SCOPE names (Table 16-6). -/
def State.tokenAllows (s : State) (d : Dye) (b : Nat) : Bool :=
  match tabGet (fun _ => none) s.tokens d.val with
  | some (t : DebugToken) => bitOf t.scope b
  | none => false
/-- Detectors of Table 15-4 whose target lies in a region. -/
def rgnDetector (d : Nat) : Bool := decide (d ≤ 0x0D) || ([0x15, 0x16, 0x17, 0x19, 0x1A, 0x1D, 0x27, 0x28] : List Nat).contains d
/-- The dye that owns an injection's target: of a region detector its region's owner, of a page its frame's owner. -/
def State.injOwner (s : State) : Dye :=
  let d := s.fld .inj INJ_DETECTOR 0 8
  if d ∈ [0x0E, 0x0F, 0x10, 0x11, 0x13, 0x14] then
    let a := (s.rd64 .inj INJ_ADDR_L).toNat
    if 0x10000000000 ≤ a ∧ a < 0x20000000000 then
      (let f := s.frame ((a - 0x10000000000) / 65536)
       if f.state = 0 ∨ f.state = 4 then 0 else f.owner)
    else 0
  else if rgnDetector d then s.owner (Fin.ofNat 16 (s.fld .inj INJ_TARGET 0 4))
  else 0
/-- The tenant whose unit a selection names. -/
def State.tmxDye (s : State) (sel arg : Nat) : Dye :=
  if sel = 3 ∨ sel = 4 then s.owner (Fin.ofNat 16 arg) else if sel = 5 then Fin.ofNat 16 arg else 0
def tmxReset (_ : Nat) : TmxSt := {}
/-- A switch begins: the pin is low for 1 µs. -/
def State.tmxSwitch (s : State) (n : Fin 4) (v : Word32) : State :=
  let o := TMX_STATUS + 4 * n.val
  let driving := s.fld .tmx o 0 2 == 1
  let s1 := (s.setFld .tmx o 0 2 2).setBit .tmx o 2 driving
  { s1 with tmx := tabSet tmxReset s1.tmx n.val { next := v }, tmxOut := tabSet (fun _ => false) s1.tmxOut n.val false }
/-- What no token allows any more is withdrawn: an injection armed on a target of a dye without INJECT is disarmed, and a
selection that names a unit of a dye without TMX returns to 0x00 (R353). -/
def State.withdraw (s : State) : State :=
  let o := s.injOwner
  let s1 := if s.bit .inj INJ_STATUS 1 && o != 0 && !s.tokenAllows o 1 then s.setBit .inj INJ_STATUS 1 false else s
  (List.finRange 4).foldl (fun (t : State) n =>
    let v := t.rd .tmx (TMX_SEL + 4 * n.val)
    let d := t.tmxDye (bitsOf v 0 8) (bitsOf v 8 8)
    if d ≠ 0 ∧ !t.tokenAllows d 2 then (t.wr .tmx (TMX_SEL + 4 * n.val) 0).tmxSwitch n 0 else t) s1
/-- SEC_D_STATUS and SEC_D_NOT_AFTER follow the token in force (Table 16-9). -/
def State.tokenFollow (s : State) (d : Dye) : State :=
  match tabGet (fun _ => none) s.tokens d.val with
  | some (t : DebugToken) =>
    (((s.setBit .sec (pageOff d SEC_D_STATUS) 2 true).setFld .sec (pageOff d SEC_D_STATUS) 3 4 t.scope.toNat).wr64 .sec
      (pageOff d SEC_D_NOT_AFTER_L) t.notAfter)
  | none => ((s.setFld .sec (pageOff d SEC_D_STATUS) 2 5 0).wr64 .sec (pageOff d SEC_D_NOT_AFTER_L) 0)
/-- The token of a dye ends: an INJECT record, and what it allowed is withdrawn. -/
def State.dropToken (s : State) (d : Dye) : State :=
  if (tabGet (fun _ => none) s.tokens d.val).isNone then s
  else
    let s1 : State := { s with tokens := tabSet (fun _ => none) s.tokens d.val none }
    let s2 := s1.ledger { type := 7, detector := 0, dye := d, severity := 0, detail := [2, d.val] }
    let s3 := if s2.fld .sec SEC_DBG_STATUS 0 2 = 1 ∧ s2.fld .sec SEC_DBG_STATUS 8 4 = d.val then
      (s2.setFld .sec SEC_DBG_STATUS 0 2 0).setFld .sec SEC_DBG_STATUS 16 4 0 else s2
    (s3.tokenFollow d).withdraw

end Sys2Proof.Machine
end

