-- ==== Sys2Proof/Machine/Partitions.lean ====
section
/-! DEFINITION. Region moves, pre-emption and saves (R249 to R257), kills (R258, R259) and Norla jobs (R260). -/

namespace Sys2Proof.Machine

/-! ### The image-loader page of a dye (Tables 10-11, 10-12), for what ends a load -/

def State.imgState (s : State) (d : Dye) : Nat := s.fld .pkg (pageOff d PKG_IMG_D_STATUS) 0 3
def State.loading (s : State) (d : Dye) : Bool := let x := s.imgState d; decide (1 ≤ x) && decide (x ≤ 4)
def loadReset (_ : Nat) : LoadSt := {}
def State.loadOf (s : State) (d : Dye) : LoadSt := tabGet loadReset s.loads d.val
def State.setLoad (s : State) (d : Dye) (l : LoadSt) : State := { s with loads := tabSet loadReset s.loads d.val l }
/-- The packages that a load concerns: the partition's, or for a system image every package of its TOPOLOGY (R239). -/
def State.loadSlots (s : State) (d : Dye) : List SlotNo :=
  if d = 0 then
    (((s.loadOf d).image.bind (fun (i : Image) => i.sections.findSome? (fun x => match x.body with
      | .topology t => some (t.coords.map (·.1))
      | _ => none))).getD [s.slot])
  else (s.pkgTable d).map (·.slot)
/-- REFUSED, with a code, and with the refusing package where there is one; nothing is installed (R239). -/
def State.refuseLoad (s : State) (d : Dye) (code : Nat) (pkg : Option Nat) (sect ofs : Nat) : State :=
  let v := 6 + code * 2 ^ 8 + (match pkg with | some p => p * 2 ^ 16 + 2 ^ 22 | none => 0)
  let s1 := (s.wrP .pkg d PKG_IMG_D_STATUS (BitVec.ofNat 32 v)).wrP .pkg d PKG_IMG_D_WHERE
    (BitVec.ofNat 32 (sect % 256 + min ofs 0xFFFFFF * 2 ^ 8))
  (s1.setLoad d {}).disarm (fun w => w == .tAct d)
/-- The number by which a refusal names a package: its ordinal, or for a system image its slot. -/
def State.loadName (s : State) (d : Dye) : Nat := if d = 0 then s.slot.val else s.pkgOrd d
/-- A load stopped on every package. -/
def State.stopLoad (s : State) (d : Dye) (code : Nat) (pkg : Option Nat) (sect ofs : Nat) : State :=
  let msg := ControlMsg.imageStop d (BitVec.ofNat 8 code) (Fin.ofNat 64 (pkg.getD s.slot.val)) (BitVec.ofNat 8 sect) ofs
  let others := (s.loadSlots d).filter (· ≠ s.slot)
  let s1 := s.refuseLoad d code pkg sect ofs
  { s1 with linkTx := s1.linkTx ++ others.map (fun sl => LinkOut.control sl msg) }

/-! ### Registers of Tables 11-6 and 11-7 -/

def State.partState (s : State) (d : Dye) : Nat := s.fld .pkg (PKG_PART_STATUS + 4 * d.val) 0 3
def State.setPartState (s : State) (d : Dye) (v : Nat) : State := s.setFld .pkg (PKG_PART_STATUS + 4 * d.val) 0 3 v
def State.isNorla (s : State) (d : Dye) : Bool := ((s.partEntry d).map (fun e => e.mode == 1)).getD false
def State.elastic (s : State) (d : Dye) : Bool := d == 0 || ((s.partEntry d).map (·.elastic)).getD false
/-- The region counts of PKG_PART_STATUS and the vacant ordinals of PKG_JOB_D_STATUS follow. -/
def State.partFollow (s : State) (d : Dye) : State :=
  if d = 0 then s
  else (s.setFld .pkg (PKG_PART_STATUS + 4 * d.val) 4 5 (s.regionsOf d).length).setFld .pkg (pageOff d PKG_JOB_D_STATUS) 8 4
    ((s.vacant.filter (fun v => v.1 == d)).length)
def State.jobState (s : State) (d : Dye) : Nat := s.fld .pkg (pageOff d PKG_JOB_D_STATUS) 0 3
def State.setJob (s : State) (d : Dye) (v : Nat) : State := s.setFld .pkg (pageOff d PKG_JOB_D_STATUS) 0 3 v
def State.setOwner (s : State) (r : RegionNo) (d : Dye) (ord : Nat) : State :=
  s.wr (.rgn r) RGN_OWNER (BitVec.ofNat 32 (d.val + ord * 16))
def State.mvState (s : State) (r : RegionNo) : Nat := s.fld (.rgn r) RGN_MOVE_STATUS 0 4
def State.setMv (s : State) (r : RegionNo) (v : Nat) : State := s.setFld (.rgn r) RGN_MOVE_STATUS 0 4 v
def moveReset (_ : Nat) : Option MoveSt := none
def State.moveOf (s : State) (r : RegionNo) : Option MoveSt := tabGet moveReset s.moves r.val
def State.setMove (s : State) (r : RegionNo) (m : Option MoveSt) : State := { s with moves := tabSet moveReset s.moves r.val m }
def State.nextMove (s : State) (r : RegionNo) : Option MoveSt := tabGet moveReset s.movesNext r.val
def State.setNext (s : State) (r : RegionNo) (m : Option MoveSt) : State :=
  ({ s with movesNext := tabSet moveReset s.movesNext r.val m }).setFld (.rgn r) RGN_MOVE_STATUS 13 1 (b2n m.isSome)

/-! ### Stopping and clearing a region's units -/

/-- STOP to the cores, the pipeline, the Courier and the dye's Drover contexts on the die (R253). -/
def State.stopRegion (s : State) (r : RegionNo) : State :=
  let d := s.owner r
  let s1 := (allCores r).foldl (fun (t : State) c => t.coreStop c) s
  let s2 := (s1.atpStop r).couStop r
  ((List.finRange 8).filter (fun e => engineDie e == regionDie r)).foldl (fun (t : State) e => t.drvStop e d) s2
/-- Every other region of a job stops, here and on its other packages. -/
def State.stopJob (s : State) (d : Dye) : State :=
  let s1 := (s.regionsOf d).foldl (fun (t : State) r => t.stopRegion r) s
  { s1 with linkTx := s1.linkTx ++ (s.peers d).map (fun sl => LinkOut.control sl (.stopRegions d)) }
/-- The whole-region clears of slices, pipeline and Courier begin (R108, R136, R180); the Drover contexts of the dye on the
die are cleared where no region of it remains there (R199). -/
def State.clearRegion (s : State) (r : RegionNo) (cause : ClrCause) : State :=
  let d := s.owner r
  let last := !((s.regionsOf d).any (fun q => q != r && regionDie q == regionDie r))
  let s1 := ((s.hwClear r cause).atpClearStart r).couClearStart r
  if last || cause == .kill then
    ((List.finRange 8).filter (fun e => engineDie e == regionDie r)).foldl (fun (t : State) e => t.drvClear e d) s1
  else s1
def State.cleared (s : State) (r : RegionNo) : Bool :=
  !s.clearing r && !s.bit (.atp r) ATP_STATUS 9 && !s.couClearing r

/-! ### The checks of a move (R255) -/

def mvBUSY : Nat := 1
def mvNOTELASTIC : Nat := 2
def mvLIMIT : Nat := 3
def mvSHAPE : Nat := 4
def mvFAILED : Nat := 5
def mvNORLAGROW : Nat := 6
/-- A SERVE partition with regions rs would be in a shape that its image does not list, or, where it holds regions on both
dies, keep fewer than two on one. -/
def State.shapeRefused (s : State) (d : Dye) (rs : List RegionNo) (both : Bool) : Bool :=
  let lo := (rs.filter (fun q => regionDie q == 0)).length
  let n := (rs.filter s.inPrefill).length
  (s.image d).isSome && !s.isNorla d && d != 0 &&
  (!((s.cfg d).shapes.any (fun x => x.regions == rs.length && (x.prefillRgn == n || x.prefillRgn == n + 1))) ||
   (both && (decide (lo < 2) || decide (rs.length - lo < 2))))
def State.bothDies (s : State) (d : Dye) : Bool := (s.diesOf d).length == 2
def State.countBad (s : State) (d : Dye) (n : Nat) : Bool :=
  match s.partEntry d with
  | none => false
  | some e => decide (n < e.rgnMin) || decide (e.rgnMax < n)
/-- The code with which a move of a region to a dye is refused; 0 where it is not. -/
def State.moveCode (s : State) (r : RegionNo) (dst : Dye) : Nat :=
  let from_ := s.owner r
  let left := (s.regionsOf from_).filter (· ≠ r)
  let got := s.regionsOf dst ++ [r]
  if !s.elastic from_ || !s.elastic dst then mvNOTELASTIC
  else if (from_ ≠ 0 ∧ s.countBad from_ left.length) ∨ (dst ≠ 0 ∧ s.countBad dst got.length) then mvLIMIT
  else if s.shapeRefused from_ left (s.bothDies from_) || s.shapeRefused dst got false then mvSHAPE
  else if r ∈ s.failedRgns then mvFAILED
  else if s.isNorla dst && !s.vacant.any (fun v => v.1 == dst && v.2.2 == regionDie r) then mvNORLAGROW
  else 0

/-! ### Moves (R253 to R257) -/

def State.refuseMove (s : State) (r : RegionNo) (code : Nat) : State :=
  (s.setMv r 7).setFld (.rgn r) RGN_MOVE_STATUS 8 4 code
/-- The latest priced end among the steps already planned in either lane (R256). -/
def State.drainAt (s : State) (d : Dye) : Nat :=
  max (((s.steps.filter (fun p => p.dye == d)).map Step.end_).foldl max s.now)
    (((s.plans.filter (fun q => q.plan.dye == d)).map (fun q => q.plan.start.toNat + q.plan.endOfs)).foldl max 0)
/-- A move begins: a region of the management partition is only woken and given; a NORLA region is stopped, and saved; a
SERVE region drains. -/
def State.startMove' (s0 : State) (r : RegionNo) (m0 : MoveSt) : State :=
  let m : MoveSt := { m0 with deferred := false, fromDye := s0.owner r, ordinal := s0.ordinal r, began := s0.now }
  let s := ((s0.setMove r (some m)).setFld (.rgn r) RGN_MOVE_STATUS 8 4 0).setFld (.rgn r) RGN_MOVE_STATUS 12 1 0
  let d := m.fromDye
  if d = 0 then s.setMv r 5
  else if s.isNorla d then
    let s1 := if s.jobState d = 1 ∨ s.jobState d = 2 then (s.stopJob d).setJob d 3 else s.stopRegion r
    (s1.setMove r (some { m with save := true, at_ := s.now })).setMv r (if s1.coresStill r then 3 else 2)
  else
    let at_ := s.drainAt d
    let s1 := s.setMv r 1
    if s.isFront d then
      (({ s1 with drains := s1.drains ++ [(d, at_)] } : State).setMove r (some { m with at_ := at_ })).armCmp 0 at_ (.drain r)
    else
      let s2 := s1.setMove r (some { m with at_ := at_, asked := true })
      { s2 with linkTx := s2.linkTx ++ [.control ((s.slotOf d 0).getD s.slot) (.drain d (BitVec.ofNat 64 at_))] }
/-- The drain point of a dye's moves. The front package is asked for it and fixes it, no earlier than what the asking package has
planned; the others hear it and wait for it (R256). -/
def State.fixDrain (s : State) (d : Dye) (at_ : Nat) : State :=
  if s.isFront d then
    let p := max at_ (s.drainAt d)
    ({ s with drains := s.drains ++ [(d, p)] } : State).tellAll d (.drain d (BitVec.ofNat 64 p))
  else
    allRegions.foldl (fun (t : State) r => match t.moveOf r with
      | some m => if m.asked ∧ m.fromDye = d then
          (t.setMove r (some { m with at_ := at_, asked := false })).armCmp 0 at_ (.drain r) else t
      | none => t) s
/-- A move ordered by the management partition or by an Innkeeper, checked; the second waits behind the first, and one whose
dyes load an image waits for the end of the load. -/
def State.orderMove (s : State) (r : RegionNo) (dst : Dye) (loan : Bool) : State :=
  let m : MoveSt := { toDye := dst, fromDye := s.owner r, at_ := s.now, loan := loan }
  if (s.moveOf r).isSome then
    if (s.nextMove r).isSome ∨ loan then s.setFld (.rgn r) RGN_MOVE_STATUS 8 4 mvBUSY
    else s.setNext r (some m)
  else if s.claims.any (fun c => c.1 == r && !(loan && c.2 == dst)) then s.refuseMove r mvBUSY
  else
    let code := s.moveCode r dst
    if code ≠ 0 then s.refuseMove r code
    else if s.loading (s.owner r) || s.loading dst then s.setMove r (some { m with deferred := true })
    else s.startMove' r m
/-- Moves that waited for the end of a load. -/
def State.releaseMoves (s : State) : State :=
  allRegions.foldl (fun (t : State) r => match t.moveOf r with
    | some m => if m.deferred && !t.loading m.toDye && !t.loading (t.owner r) then
        (let code := (t.setMove r none).moveCode r m.toDye
         if code = 0 then t.startMove' r m else (t.setMove r none).refuseMove r code) else t
    | none => t) s
/-- MOVE: written to RGN_MOVE_CTRL by the management partition. -/
def execMove (m : Master) (r : RegionNo) (toDye : Dye) (s : State) : Out :=
  if s.dyeOf m ≠ 0 then .next s.permissionError else .next ((s.orderMove r toDye false).answer [])
def State.priority (s : State) (d : Dye) : Nat := ((s.partEntry d).map (fun e => e.priority.toNat)).getD 0
/-- A region that an Innkeeper may take (R218, R251): one that no partition holds, or one of a NORLA partition of lower PRIORITY. -/
def State.claimable (s : State) (d : Dye) (r : RegionNo) : Bool :=
  d != 0 && !s.isNorla d && (s.owner r == 0 || (s.isNorla (s.owner r) && decide (s.priority (s.owner r) < s.priority d)))
/-- Of two claims in one cycle the higher PRIORITY wins, then the lower dye (Table 11-5). The claim that lost was registered at this same
counter value; the region's stop and save are the same for both, so the winner takes its place. -/
def State.outclaims (s : State) (d : Dye) (r : RegionNo) : Option MoveSt :=
  match s.moveOf r with
  | some m =>
    let p := s.priority m.toDye
    if m.loan ∧ m.began = s.now ∧ s.claims.contains (r, m.toDye) ∧ d ≠ m.toDye ∧ (p < s.priority d ∨ (p = s.priority d ∧ d < m.toDye)) ∧
      s.moveCode r d = 0 then some m else none
  | none => none
/-- REGION_CLAIM: an Innkeeper registers a loan. Another claim on the region makes it BUSY. -/
def execRegionClaim (d : Dye) (r : RegionNo) (s : State) : Out :=
  if !s.claimable d r then .next s
  else if let some m := s.outclaims d r then
    .next { (s.setMove r (some { m with toDye := d })).setFld (.rgn r) RGN_MOVE_STATUS 8 4 mvBUSY with
            claims := s.claims.map (fun c => if c = (r, m.toDye) then (r, d) else c) }
  else if s.claims.any (fun c => c.1 == r) ∨ (s.moveOf r).isSome then .next (s.setFld (.rgn r) RGN_MOVE_STATUS 8 4 mvBUSY)
  else
    let s1 := s.orderMove r d true
    if s1.mvState r = 7 ∧ (s1.moveOf r).isNone then .next s1
    else .next { s1 with claims := s1.claims ++ [(r, d)] }
/-- DRAIN_POINT: at D the region is cleared. -/
def execDrainPoint (r : RegionNo) (s : State) : Out :=
  match s.moveOf r with
  | none => .next s
  | some m =>
    if s.mvState r ≠ 1 ∨ m.asked ∨ s.now < m.at_ then .next s
    else .next (((s.disarm (fun w => w == .drain r)).clearRegion r .move).setMv r 4)

/-- The end of a job: its status, and on its front package its interrupt (R260, R292; log entry 108). -/
def State.endJob (s : State) (d : Dye) (v : Nat) : State :=
  let s1 := s.setJob d v
  if s.isFront d then { s1 with hostTx := s1.hostTx ++ [.msix d 3] } else s1
/-- Whether every core of a job that this package holds, in its regions and its save areas, has HALTED. -/
def State.jobStill (s : State) (d : Dye) : Bool :=
  let here := ((s.regionsOf d).flatMap allCores).filter (fun c => (s.core c).istore != [])
  let saved := (s.saves.filter (fun e => e.1 / 16 == d.val)).flatMap (fun e => ((e.2.map (·.cores)).getD []).map (·.2))
  (here != [] || saved != [] || decide (1 < (s.pkgTable d).length)) && here.all (fun c => (s.core c).run == .halted) &&
  (saved.filter (fun k => k.istore != [])).all (fun k => k.run == .halted)
def State.hearHalted (s : State) (d : Dye) (sl : SlotNo) : State :=
  if s.jobHalted.contains (d, sl) then s else { s with jobHalted := s.jobHalted ++ [(d, sl)] }
/-- DONE once every package of the partition has said that its cores have HALTED. -/
def State.jobDone (s : State) (d : Dye) : State :=
  if (s.jobState d = 2 ∨ s.jobState d = 3) ∧ (s.pkgTable d).all (fun p => s.jobHalted.contains (d, p.slot)) then s.endJob d 4 else s
/-- The other cores of a faulted job stop at their gates (R260). -/
def State.jobFaultHere (s : State) (d : Dye) : State :=
  (((s.regionsOf d).flatMap allCores).filter (fun c => (s.core c).istore != [])).foldl (fun (t : State) c => t.coreStop c) (s.endJob d 5)

/-- What the save engine writes for a region (R249). -/
def inRange (lo hi : Nat) (k : Nat) : Bool := decide (lo ≤ k) && decide (k < hi)
def takeTab {α : Type} (t : Tab α) (lo hi : Nat) : Tab α := (t.filter (fun e => inRange lo hi e.1)).map (fun e => (e.1 - lo, e.2))
def putTab {α : Type} [DecidableEq α] (d : Nat → α) (t : Tab α) (lo hi : Nat) (u : Tab α) : Tab α :=
  u.foldl (fun v e => tabSet d v (e.1 + lo) e.2) (tabClear t lo hi)
def rgnBytes : Nat := 64 * 0x200000
def rgnAcc : Nat := 64 * 0x40000
/-- Rows of a core's VALID windows. -/
def State.savedByte (s : State) (r : RegionNo) (k : Nat) : Bool :=
  let c : CoreId := { region := r, pos := Fin.ofNat 64 (k / 0x200000 % 64) }
  (s.winOf c (k % 0x200000 / 4096)).isSome
/-- The merge masks are saved and FLUSH is written; the control record keeps the descriptors of the interrupted phase, from the first
one not done (R135). -/
def State.saveOf (s0 : State) (r : RegionNo) : SaveArea :=
  let s := (s0.liveRows r).atpFlush r
  let b := r.val * rgnBytes
  let again := allUnits.flatMap (fun u => (u.queue (s0.atp r)).map (fun d => (u.no, d)))
  { region := r, cores := takeTab s.cores (r.val * 64) ((r.val + 1) * 64), atp := { s.atp r with reissue := (s0.atp r).reissue ++ again },
    cou := s.cou r,
    sram := (takeTab s.sram b (b + rgnBytes)).filter (fun e => s.savedByte r e.1),
    acc := takeTab s.acc (r.val * rgnAcc) ((r.val + 1) * rgnAcc),
    errs := (takeTab s.spdErr (r.val * 64 * 65536) ((r.val + 1) * 64 * 65536)).filter (fun e => s.savedByte r (e.1 * 32)),
    cls := takeTab s.rowCls (r.val * 64 * 512) ((r.val + 1) * 64 * 512),
    spd := takeTab s.regs (regKey (.spd r) 0) (regKey (.spd r) 0x10000),
    atpRegs := takeTab s.regs (regKey (.atp r) 0) (regKey (.atp r) 0x10000),
    couRegs := takeTab s.regs (regKey (.cou r) 0) (regKey (.cou r) 0x10000) }
/-- The bytes that the save engine moves for a region, and how many of them lie on the other die (R249): the rows of VALID windows and the
accumulators of core k at frames 36 k and 36 k + 32 of the area, of which every fourth frame is on the other die. -/
def State.saveSpan (s : State) (r : RegionNo) : Nat × Nat :=
  let fr := (allCores r).flatMap (fun c =>
    (List.range 32).map (fun j => (c.pos.val * 36 + j, 4096 * ((List.range 16).filter (fun i => (s.winOf c (j * 16 + i)).isSome)).length)) ++
    (List.range 4).map (fun j => (c.pos.val * 36 + 32 + j, 65536)))
  ((fr.map (·.2)).sum, ((fr.filter (fun e => e.1 % 4 == 3)).map (·.2)).sum)
/-- The energy of a save or a restore, charged to the dye whose state moves, through the HBM and die-bridge rows of Table 14-7. -/
def State.chargeSave (s : State) (d : Dye) (r : RegionNo) : State := let n := s.saveSpan r; s.charge d (12 * n.1 + 5 * n.2)
def saveKey (d : Dye) (ord : Nat) : Nat := d.val * 16 + ord
def State.save (s : State) (d : Dye) (ord : Nat) : Option SaveArea := tabGet (fun _ => none) s.saves (saveKey d ord)
def State.setSave (s : State) (d : Dye) (ord : Nat) (a : Option SaveArea) : State :=
  { s with saves := tabSet (fun _ => none) s.saves (saveKey d ord) a }
/-- The front package learns that a package of a job has vacant ordinals. -/
def State.shortHere (s : State) (d : Dye) : State :=
  if s.jobShort.contains (d, s.slot) then s else { s with jobShort := s.jobShort ++ [(d, s.slot)] }
/-- PREEMPT_SAVE_DONE: the stopped region is in its save area; its ordinal is vacant, and the clear begins. -/
def execPreemptSaveDone (r : RegionNo) (s : State) : Out :=
  match s.moveOf r with
  | none => .next s
  | some m =>
    if !m.save || !(s.mvState r == 2 || s.mvState r == 3) || !s.coresStill r then .next s
    else
      let d := m.fromDye
      let s1 := ((s.setSave d m.ordinal (some (s.saveOf r))).chargeSave d r).setFld (.rgn r) RGN_MOVE_STATUS 12 1 1
      let s2 : State := { s1 with vacant := s1.vacant ++ [(d, m.ordinal, regionDie r)] }
      .next ((((s2.shortHere d).clearRegion r .move).setMv r 4).partFollow d)

/-- The ordinals of a SERVE partition close up behind a region that left. -/
def State.closeUp (s : State) (d : Dye) (ord : Nat) : State :=
  (s.regionsOf d).foldl (fun (t : State) q => if ord < t.ordinal q then t.setOwner q d (t.ordinal q - 1) else t) s
/-- The vacant ordinal that a region fills, or the end of the list. -/
def State.newOrdinal (s : State) (d : Dye) (r : RegionNo) : Nat :=
  match s.vacant.find? (fun v => v.1 == d && v.2.2 == regionDie r) with
  | some v => v.2.1
  | none => (s.regionsOf d).length
def State.powerOff (s : State) (r : RegionNo) : State :=
  ((((s.setRgnState r 3).setRgnFreq r 0).offEntered r).pend r none).pkgFollow
/-- The lane that a new region of a SERVE partition joins: decode where the shape table lists that. -/
def State.joinLane (s : State) (r : RegionNo) (d : Dye) : State :=
  let n := s.prefillCount d
  let c := (s.regionsOf d).length
  let decodeListed := (s.cfg d).shapes.any (fun x => x.regions == c && x.prefillRgn == n)
  { s with prefillLane := tabSet (fun _ => false) s.prefillLane r.val ((s.image d).isSome && !s.isNorla d && !decodeListed),
           progSet := natSet s.progSet r.val 0 }
/-- The region re-dyed to a new owner and ordinal. -/
def State.redye (s : State) (r : RegionNo) (m : MoveSt) : State :=
  let s1 := ({ (s.dropCores r) with idleAt := natSet s.idleAt r.val (s.now + 1), prefillLane := tabSet (fun _ => false) s.prefillLane r.val false }).setOwner r 0 0
  let s2 := if m.fromDye = 0 ∨ s.isNorla m.fromDye then s1 else s1.closeUp m.fromDye m.ordinal
  let s3 := if m.toDye = 0 then (s2.setOwner r 0 0).powerOff r
    else
      let t := (s2.setOwner r m.toDye (s2.newOrdinal m.toDye r)).joinLane r m.toDye
      if t.rgnActive r then t.setRgnFreq r (t.commonFreq m.toDye) else t.rgnRequest r 0
  let s4 : State := { s3 with drains := s3.drains.filter (fun w => !(w.1 == m.fromDye && w.2 == m.at_)),
                              claims := if m.loan then s3.claims else s3.claims.filter (fun c => c.1 != r) }
  (((((s4.partFollow m.fromDye).partFollow m.toDye).shapeFollow m.fromDye).shapeFollow m.toDye).innFollow m.fromDye).innFollow m.toDye
/-- A move has ended: its duration in µs, and the move that waited behind it. -/
def State.endMove (s : State) (r : RegionNo) (m : MoveSt) : State :=
  let s1 := ((s.setMove r none).setMv r 6).setFld (.rgn r) RGN_MOVE_STATUS 16 16 (min 0xFFFF ((s.now - m.began) / 1000))
  match s1.nextMove r with
  | none => s1
  | some n => (s1.setNext r none).orderMove r n.toDye n.loan
/-- REDYE_DONE: the clears have ended, the region takes its new dye, and its PLL relocks. A region of a killed partition goes
to the management partition, Off. A region that came back to a vacant ordinal is restored next. -/
def execRedyeDone (r : RegionNo) (s : State) : Out :=
  match s.moveOf r with
  | some m =>
    let st := s.mvState r
    if !(st == 4 || st == 5) || !s.cleared r then .next s
    else
      let m' : MoveSt := if m.toDye ≠ 0 ∧ s.partState m.toDye ≠ 1 then { m with toDye := 0 } else m
      let s1 := s.redye r m'
      let back := s1.isNorla m'.toDye && (s1.save m'.toDye (s1.ordinal r)).isSome
      .next (if back then s1.setMv r 8 else s1.endMove r m')
  | none =>
    let d := s.owner r
    if d = 0 ∨ s.partState d ≠ 2 ∨ !s.cleared r then .next s
    else
      let s1 := ((s.setOwner r 0 0).powerOff r).partFollow d
      .next (if s1.regionsOf d = [] then s1.setPartState d 3 else s1)

/-- RESTORE: a loan goes back to the NORLA partition at its drain point; a region that has come back is restored by the save
engine: control record, rows, accumulators. -/
def execRestore (d : Dye) (r : RegionNo) (s : State) : Out :=
  if s.owner r = d ∧ s.mvState r = 8 then
    match s.save d (s.ordinal r) with
    | none => .next s
    | some a =>
      let b := r.val * rgnBytes
      let s := s.testsEnd r
      let regs1 := putTab regReset (putTab regReset (putTab regReset s.regs (regKey (.spd r) 0) (regKey (.spd r) 0x10000) a.spd)
        (regKey (.atp r) 0) (regKey (.atp r) 0x10000) a.atpRegs) (regKey (.cou r) 0) (regKey (.cou r) 0x10000) a.couRegs
      let s1 : State := { s with cores := putTab coreReset s.cores (r.val * 64) ((r.val + 1) * 64) a.cores,
                                 sram := putTab byteReset s.sram b (b + rgnBytes) a.sram,
                                 acc := putTab byteReset s.acc (r.val * rgnAcc) ((r.val + 1) * rgnAcc) a.acc,
                                 spdErr := putTab errReset s.spdErr (r.val * 64 * 65536) ((r.val + 1) * 64 * 65536) a.errs,
                                 rowCls := putTab (fun _ => false) s.rowCls (r.val * 64 * 512) ((r.val + 1) * 64 * 512) a.cls,
                                 regs := regs1 }
      -- A row that stays redirected is restored in the test buffer (R106).
      let s1 := (allCores r).foldl (fun (t : State) c => match (t.bistOf c).failed with
        | some row => (rowWords row).foldl (fun (u : State) w => u.bufFill c w) t
        | none => t) s1
      .next (((((s1.setAtp r a.atp).setCou r a.cou).setSave d (s.ordinal r) none).chargeSave d r).partFollow d)
  else if s.claims.any (fun c => c.1 == r) && (s.moveOf r).isNone && s.vacant.any (fun v => v.1 == d && v.2.2 == regionDie r) then
    let s1 : State := { s with claims := s.claims.filter (fun c => c.1 != r) }
    .next (s1.orderMove r d false)
  else .next s
/-- Every Courier of a dye here takes the generation that its front package gives, and REPLAY is set (R179). -/
def State.courierGen (s : State) (d : Dye) (gen : Nat) : State :=
  (s.regionsOf d).foldl (fun (t : State) r => (t.setFld (.cou r) COU_GEN 0 8 gen).setBit (.cou r) COU_CFG 1 true) s
/-- The front package sets the resume value of a job that has no vacant ordinal left (R254). -/
def State.setResume (s : State) (d : Dye) : State :=
  if !s.isFront d ∨ s.jobState d ≠ 3 ∨ s.jobShort.any (fun w => w.1 == d) then s
  else
    let at_ := s.now + 20000
    let gen := (((s.regionsOf d).map s.couGen).foldl max 0 + 1) % 256
    let s0 := ({ s with resumeAt := natSet s.resumeAt d.val (at_ + 1) } : State).courierGen d gen
    let s1 := (s0.armCmp 0 at_ (.jobResume d)).tellAll d (.courierGen d (BitVec.ofNat 8 gen))
    { s1 with linkTx := s1.linkTx ++ (s.peers d).map (fun sl => LinkOut.control sl (.resumeAt d (BitVec.ofNat 64 at_))) }
def State.filled (s : State) (d : Dye) (sl : SlotNo) : State :=
  ({ s with jobShort := s.jobShort.filter (fun w => w ≠ (d, sl)) }).setResume d
/-- RESTORE_DONE: the ordinal is no longer vacant; the front package sets a resume value 20 µs ahead. -/
def execRestoreDone (d : Dye) (r : RegionNo) (s : State) : Out :=
  match s.moveOf r with
  | none => .next s
  | some m =>
    let ord := s.ordinal r
    if s.owner r ≠ d ∨ s.mvState r ≠ 8 ∨ (s.save d ord).isSome then .next s
    else
      let s1 := (({ s with vacant := s.vacant.filter (fun v => !(v.1 == d && v.2.1 == ord)) } : State).partFollow d).endMove r m
      if s1.vacant.any (fun v => v.1 == d) then .next s1
      else if s1.isFront d then .next (s1.filled d s1.slot)
      else .next { (s1.filled d s1.slot) with
        linkTx := s1.linkTx ++ [.control ((s1.slotOf d 0).getD s1.slot) (.restored d)] }
/-- After a resume the region controller sets REPLAY and issues the descriptors of the interrupted phase again (R135). -/
def State.atpReissue (s : State) (r : RegionNo) : State :=
  let l := (s.atp r).reissue
  if l = [] then s
  else
    let s1 := (s.setAtp r { (s.atp r) with reissue := [] }).setBit (.atp r) ATP_CFG 1 true
    allUnits.foldl (fun (t : State) u => t.putQueue r u (u.queue (t.atp r) ++ (l.filter (fun e => e.1 == u.no)).map (·.2))) s1
/-- GO to every core of a job's regions here, with replay (R254). -/
def State.goRegion (s : State) (r : RegionNo) : State :=
  let d := s.owner r
  let s1 := (allCores r).foldl (fun (t : State) c => if (t.core c).istore = [] then t else t.coreGo c) s
  let s2 := ((s1.atpGo r).atpReissue r).couGo r
  ((List.finRange 8).filter (fun e => engineDie e == regionDie r)).foldl (fun (t : State) e => t.drvGo e d) s2
/-- JOB_RESUME_POINT: at the resume value every region gets GO with replay. -/
def execJobResumePoint (d : Dye) (s : State) : Out :=
  let at_ := natGet s.resumeAt d.val
  if at_ = 0 ∨ s.now + 1 < at_ ∨ s.jobState d ≠ 3 then .next s
  else
    let s1 := ((s.regionsOf d).filter s.rgnActive).foldl (fun (t : State) r => t.goRegion r) s
    let s2 : State := { (s1.setJob d 2) with resumeAt := natSet s1.resumeAt d.val 0 }
    .next (s2.disarm (fun w => w == .jobResume d))

/-! ### Kill (R258, R259) -/

/-- Issue stops in a core without waiting for its gate: queued and remote operations are discarded, local transfers cut. -/
def State.killCore (s : State) (c : CoreId) : State :=
  (s.cutHead c).onCore c (fun k => { (k.beginAbandon) with
    run := .stopped, abandoning := false, stopPend := false, xq := [], posted := [], mq := [], blocked := none })
/-- The moves of a killed partition: as the victim its save is abandoned; as the claimant the region goes to the management
partition (Table 11-5). -/
def State.killMoves (s : State) (d : Dye) : State :=
  allRegions.foldl (fun (t : State) r => match t.moveOf r with
    | none => t
    | some m =>
      let m1 : MoveSt := if m.toDye = d then { m with toDye := 0 } else m
      if m1.fromDye = d then (t.setMove r (some { m1 with save := false })).setMv r (if t.mvState r = 5 then 5 else 4)
      else t.setMove r (some m1)) s
def State.keySlots (s : State) (d : Dye) (on : Bool) : State :=
  ((List.finRange 8).foldl (fun (t : State) h => t.setBit (.hbm h) HBM_KEYSLOTS d.val on) s).setBit .sec (pageOff d SEC_D_STATUS) 0 on
/-- The kill on one package: items fail, cores and units stop, keys are unloaded, clears begin. -/
def State.killHere (s : State) (d : Dye) : State :=
  if s.partState d ≠ 1 then s
  else
    let s0 := s.dropToken d
    let s1 := if s0.loading d then s0.refuseLoad d 0x25 (some (s0.loadName d)) 0xFF 0 else s0
    let s2 := if s1.isFront d then s1.failDye d 7 else s1
    let s3 := ((s2.regionsOf d).flatMap allCores).foldl (fun (t : State) c => t.killCore c) s2
    let s4 := (s3.regionsOf d).foldl (fun (t : State) r => (t.atpStop r).couStop r) s3
    let s5 := ((List.finRange 8).foldl (fun (t : State) e => t.drvStop e d) s4).keySlots d false
    let s6 : State := { s5 with bankQ := s5.bankQ.filter (fun q => s5.owner q.core.region != d),
                                inbox := s5.inbox.filter (fun i => i.1 != d),
                                ethTx := s5.ethTx.filter (fun e => e.dye != d), hostReads := s5.hostReads.filter (fun q => q.1 != d),
                                fabReqs := s5.fabReqs.map (fun q => if q.packet.dye = d then { q with issuer := .dropped } else q),
                                rglTok := s5.rglTok.filter (fun e => e.1 % 16 != d.val) }
    let s7 := ((s6.killMoves d).regionsOf d).foldl (fun (t : State) r => t.clearRegion r .kill) (s6.killMoves d)
    (((s7.setJob d 0).setPartState d (if s7.regionsOf d = [] then 3 else 2)).disarm (fun w => match w with
      | .stepStart q _ => q == d | .jobGo q => q == d | .jobResume q => q == d | .tAct q => q == d | _ => false)).innFollow d
/-- PART_CMD_KILL: the management partition kills a partition; the package passes it to the others. -/
def execPartCmdKill (m : Master) (d : Dye) (s : State) : Out :=
  if s.dyeOf m ≠ 0 then .next s.permissionError
  else if s.partState d ≠ 1 then .next (s.answer [])
  else
    let s1 := s.killHere d
    .next ({ s1 with linkTx := s1.linkTx ++ (s.peers d).map (fun sl => LinkOut.control sl (.kill d)) }.answer [])
/-- KILL_ARRIVAL. -/
def execKillArrival (d : Dye) (s : State) : Out := .next (s.killHere d)

/-- Everything that a dye holds in memory and tables goes (R141, R161). -/
def State.forgetDye (s : State) (d : Dye) : State :=
  let mine := (s.frames.filter (fun e => e.2.owner == d && e.2.state != 0 && e.2.state != 4)).map (·.1)
  let s1 := mine.foldl (fun (t : State) f => t.freeFrame f) s
  let mineSlot := fun (k : Nat) => k / (65536 * 4096 * 16384) == d.val
  { s1 with
    ptes := s1.ptes.filter (fun e => !mineSlot e.1),
    shared := tabClear s1.shared (d.val * 2 ^ 32) ((d.val + 1) * 2 ^ 32),
    prefixes := tabClear s1.prefixes (d.val * 2 ^ 32) ((d.val + 1) * 2 ^ 32),
    prefixRefs := s1.prefixRefs.filter (fun p => p.1 != d), pageMoves := s1.pageMoves.filter (fun m => m.dye != d),
    hints := s1.hints.filter (fun h => h.dye != d), pins := s1.pins.filter (fun p => p.dye != d),
    admitted := s1.admitted.filter (fun p => p.1 != d), forkWait := s1.forkWait.filter (fun w => w.dye != d),
    kind5 := tabSet (fun _ => []) (tabSet (fun _ => []) s1.kind5 d.val []) (16 + d.val) [],
    hostBufs := s1.hostBufs.map (fun b => if b.dye = d then { dye := 0, addr := 0 } else b), reserved := s1.reserved.filter (fun r => r.1 != d),
    publishing := s1.publishing.filter (fun p => p.1 != d),
    ctxs := tabClear s1.ctxs (d.val * 65536) ((d.val + 1) * 65536),
    tokenRecs := tabClear s1.tokenRecs (d.val * 65536) ((d.val + 1) * 65536),
    sessions := tabClear s1.sessions (d.val * 2 ^ 18) ((d.val + 1) * 2 ^ 18),
    items := s1.items.filter (fun i => i.dye != d), steps := s1.steps.filter (fun p => p.dye != d),
    plans := s1.plans.filter (fun p => p.plan.dye != d), failReps := s1.failReps.filter (fun f => f.dye != d),
    loadOwed := s1.loadOwed.filter (fun o => o.1 != d),
    peerWsets := s1.peerWsets.filter (fun e => e.1 / 16 % 16 != d.val), wsets := tabClear s1.wsets (d.val * 16) ((d.val + 1) * 16),
    draining := s1.draining.filter (fun w => w.1 != d), saves := tabClear s1.saves (d.val * 16) ((d.val + 1) * 16),
    vacant := s1.vacant.filter (fun v => v.1 != d), jobShort := s1.jobShort.filter (fun v => v.1 != d),
    jobHalted := s1.jobHalted.filter (fun v => v.1 != d),
    drains := s1.drains.filter (fun v => v.1 != d), imgArea := tabSet (fun _ => none) s1.imgArea d.val none,
    planArea := natSet s1.planArea d.val 0, stepNo := natSet s1.stepNo d.val 0, resumeAt := natSet s1.resumeAt d.val 0,
    barriers := tabClear s1.barriers (d.val * 4096) ((d.val + 1) * 4096), images := tabSet (fun _ => none) s1.images d.val none,
    leases := s1.leases.filter (fun l => l.dye != d || l.tier),
    segments := s1.segments.filter (fun e => !e.2.any (fun g => g.dye == d && !g.donated)),
    genFloor := natSet s1.genFloor d.val 0, keyGen := natBump s1.keyGen d.val,
    fabTxc := s1.fabTxc.filter (fun e => e.1 % 16 != d.val), fabRxTxc := s1.fabRxTxc.filter (fun e => e.1 % 16 != d.val),
    tokens := tabSet (fun _ => none) s1.tokens d.val none, challenges := tabSet (fun _ => none) s1.challenges d.val none }
/-- The entry of a dye taken out of the PARTITIONS in force: it has no partition until an image gives it one again. -/
def withoutEntry (d : Dye) (i : Image) : Image :=
  { i with sections := i.sections.map (fun x => match x.body with
    | .partitions es => { x with body := .partitions (es.filter (fun e => e.dye != d)) }
    | _ => x) }
/-- KILL_SWEEP_DONE: every frame of the dye is FREE, new keys are made, and the dye may be given again. -/
def execKillSweepDone (d : Dye) (s : State) : Out :=
  let st := s.partState d
  let rs := s.regionsOf d
  if !(st == 2 || st == 3) || !(rs.all (fun r => s.cleared r || s.failedRgns.contains r)) then .next s
  else
    let s1 := rs.foldl (fun (t : State) r => (t.setOwner r 0 0).powerOff r) s
    let s2 := s1.forgetDye d
    let s3 := ((((s2.resetWin .inn (pageOff d 0) (pageOff d 0x100)).resetWin .tier (pageOff d 0) (pageOff d 0x100)).resetWin .pkg
      (pageOff d 0) (pageOff d 0x100)).resetWin .sec (pageOff d 0) (pageOff d 0x100)).resetWin .smf (pageOff d 0) (pageOff d 0x100)
    let s4 : State := { s3 with sysImage := s3.sysImage.map (withoutEntry d) }
    .next ((s4.wr .pkg (PKG_PART_STATUS + 4 * d.val) 0).innFollow d)

/-! ### Norla jobs (R260) -/

/-- The COREMAP of a job's one program set, with the image's programs. -/
def State.jobLoad (s : State) (r : RegionNo) : State :=
  let d := s.owner r
  match s.coreMap d false 0 0 with
  | none => s
  | some (macc, cores) => s.loadSet r macc (programsOf (s.image d)) cores
/-- JOB_START. It is taken from the dye's runtime on the front package, at least 100 µs ahead. -/
def execJobStart (m : Master) (d : Dye) (s : State) : Out :=
  let at_ := s.rd64 .pkg (pageOff d PKG_JOB_D_AT_L)
  if m ≠ .vf d then .next s.permissionError
  else if !s.isNorla d || !s.isFront d || (s.image d).isNone || s.partState d != 1 ||
      ([1, 2, 3] : List Nat).contains (s.jobState d) || decide (at_.toNat < s.now + 100000) then .next (s.answer [])
  else
    let s1 := (({ s with jobHalted := s.jobHalted.filter (fun e => e.1 != d) } : State).setJob d 1).armCmp 0 at_.toNat (.jobGo d)
    let s2 := (s1.regionsOf d).foldl (fun (t : State) r => t.rgnRequest r 0) s1
    .next ({ s2 with linkTx := s2.linkTx ++ (s.peers d).map (fun sl => LinkOut.control sl (.jobStart d at_)) }.answer [])
/-- JOB_GO_POINT: every region controller loads its cores and writes GO. -/
def execJobGoPoint (d : Dye) (s : State) : Out :=
  if s.jobState d ≠ 1 ∨ s.now < (s.rd64 .pkg (pageOff d PKG_JOB_D_AT_L)).toNat then .next s
  else
    let rs := (s.regionsOf d).filter s.rgnActive
    let s0 := (rs.flatMap allCores).foldl (fun (t : State) c => if (t.core c).run = .halted then
      t.onCore c (fun k => { k with run := .idle }) else t) s
    let s1 := rs.foldl (fun (t : State) r => t.jobLoad r) s0
    let s2 := rs.foldl (fun (t : State) r => t.goRegion r) s1
    .next ((s2.setJob d 2).disarm (fun w => w == .jobGo d))
/-- A job stopped on this package: its cores at their gates, then its regions cleared, without a save. -/
def State.stopJobHere (s : State) (d : Dye) : State :=
  let s1 := (s.regionsOf d).foldl (fun (t : State) r => t.stopRegion r) s
  let s2 := (s1.regionsOf d).foldl (fun (t : State) r => t.hwClear r .request) s1
  (s2.disarm (fun w => w == .jobGo d || w == .jobResume d)).endJob d 6
/-- JOB_STOP. -/
def execJobStop (m : Master) (d : Dye) (s : State) : Out :=
  if m ≠ .vf d then .next s.permissionError
  else if !([1, 2, 3] : List Nat).contains (s.jobState d) then .next (s.answer [])
  else
    let s1 := s.stopJobHere d
    .next ({ s1 with linkTx := s1.linkTx ++ (s.peers d).map (fun sl => LinkOut.control sl (.jobStop d)) }.answer [])
/-- A job's region controllers look at their cores: FAULTED when one has faulted, whereupon the others stop at their gates on every
package; when every core here has HALTED the other packages hear it, and the job is DONE once all have said so, a job that was stopped for
a move included (R260, Table 11-5). -/
def State.jobFollow (s : State) (d : Dye) : State :=
  if !(s.jobState d == 2 || s.jobState d == 3) then s
  else if ((s.regionsOf d).flatMap allCores).any (fun c => (s.core c).run == .faulted) then (s.jobFaultHere d).tellAll d (.jobFaulted d)
  else if s.jobHalted.contains (d, s.slot) || !s.jobStill d then s
  else ((s.hearHalted d s.slot).tellAll d (.jobHalted d)).jobDone d

end Sys2Proof.Machine
end

