-- ==== Sys2Proof/Machine/Words.lean ====
section
/-! DEFINITION. The 64-bit words of tile programs (R58, Table 3-5): the word of each instruction command, and the command that a
word spells at a core. An opcode that Table 3-5 does not list spells none (R59). -/

namespace Sys2Proof.Machine

/-- The word of an instruction command, and its core; no other command is an instruction. -/
def wordOf (i : Instr) : Option (CoreId × Word64) :=
  match i with
  | .nop c w => some (c, encodeR opNOP w)
  | .add c w => some (c, encodeR opADD w)
  | .sub c w => some (c, encodeR opSUB w)
  | .mul c w => some (c, encodeR opMUL w)
  | .logic c w => some (c, encodeR opLOGIC w)
  | .shift c w => some (c, encodeR opSHIFT w)
  | .addi c w => some (c, encodeI opADDI w)
  | .movi c w => some (c, encodeI opMOVI w)
  | .cmp c w => some (c, encodeR opCMP w)
  | .cmpi c w => some (c, encodeI opCMPI w)
  | .plog c w => some (c, encodeR opPLOG w)
  | .lds c w => some (c, encodeI opLDS w)
  | .sts c w => some (c, encodeI opSTS w)
  | .rdsr c w => some (c, encodeI opRDSR w)
  | .amov c w => some (c, encodeR opAMOV w)
  | .aadd c w => some (c, encodeR opAADD w)
  | .aaddi c w => some (c, encodeI opAADDI w)
  | .ard c w => some (c, encodeR opARD w)
  | .vld c w => some (c, encodeI opVLD w)
  | .vst c w => some (c, encodeI opVST w)
  | .vop c w => some (c, encodeR opVOP w)
  | .vfma c w => some (c, encodeR opVFMA w)
  | .vfunc c w => some (c, encodeR opVFUNC w)
  | .vred c w => some (c, encodeR opVRED w)
  | .vcvt c w => some (c, encodeR opVCVT w)
  | .vqmx c w => some (c, encodeR opVQMX w)
  | .vbcast c w => some (c, encodeR opVBCAST w)
  | .vtail c w => some (c, encodeR opVTAIL w)
  | .vacc c w => some (c, encodeR opVACC w)
  | .mload c w => some (c, encodeM opMLOAD w)
  | .mma c w => some (c, encodeM opMMA w)
  | .dma c w => some (c, encodeX opDMA w)
  | .dwait c w => some (c, encodeX opDWAIT w)
  | .send c w => some (c, encodeX opSEND w)
  | .recv c w => some (c, encodeX opRECV w)
  | .swait c w => some (c, encodeX opSWAIT w)
  | .rwait c w => some (c, encodeX opRWAIT w)
  | .semset c w => some (c, encodeX opSEMSET w)
  | .semclr c w => some (c, encodeX opSEMCLR w)
  | .semwait c w => some (c, encodeX opSEMWAIT w)
  | .barrier c w => some (c, encodeX opBARRIER w)
  | .fence c w => some (c, encodeX opFENCE w)
  | .br c w => some (c, encodeB opBR w)
  | .loop c w => some (c, encodeB opLOOP w)
  | .tbound c w => some (c, encodeB opTBOUND w)
  | .halt c w => some (c, encodeB opHALT w)
  | _ => none

/-- The instruction that a word spells at a core. -/
def instrOf (c : CoreId) (x : Word64) : Option Instr :=
  match opcodeOf x with
  | 0x00 => some (.nop c (fieldsR x))
  | 0x01 => some (.add c (fieldsR x))
  | 0x02 => some (.sub c (fieldsR x))
  | 0x03 => some (.mul c (fieldsR x))
  | 0x04 => some (.logic c (fieldsR x))
  | 0x05 => some (.shift c (fieldsR x))
  | 0x06 => some (.addi c (fieldsI x))
  | 0x07 => some (.movi c (fieldsI x))
  | 0x08 => some (.cmp c (fieldsR x))
  | 0x09 => some (.cmpi c (fieldsI x))
  | 0x0A => some (.plog c (fieldsR x))
  | 0x0B => some (.lds c (fieldsI x))
  | 0x0C => some (.sts c (fieldsI x))
  | 0x0D => some (.rdsr c (fieldsI x))
  | 0x10 => some (.amov c (fieldsR x))
  | 0x11 => some (.aadd c (fieldsR x))
  | 0x12 => some (.aaddi c (fieldsI x))
  | 0x13 => some (.ard c (fieldsR x))
  | 0x20 => some (.vld c (fieldsI x))
  | 0x21 => some (.vst c (fieldsI x))
  | 0x22 => some (.vop c (fieldsR x))
  | 0x23 => some (.vfma c (fieldsR x))
  | 0x24 => some (.vfunc c (fieldsR x))
  | 0x25 => some (.vred c (fieldsR x))
  | 0x26 => some (.vcvt c (fieldsR x))
  | 0x27 => some (.vqmx c (fieldsR x))
  | 0x28 => some (.vbcast c (fieldsR x))
  | 0x29 => some (.vtail c (fieldsR x))
  | 0x2A => some (.vacc c (fieldsR x))
  | 0x30 => some (.mload c (fieldsM x))
  | 0x31 => some (.mma c (fieldsM x))
  | 0x40 => some (.dma c (fieldsX x))
  | 0x41 => some (.dwait c (fieldsX x))
  | 0x50 => some (.send c (fieldsX x))
  | 0x51 => some (.recv c (fieldsX x))
  | 0x52 => some (.swait c (fieldsX x))
  | 0x53 => some (.rwait c (fieldsX x))
  | 0x60 => some (.semset c (fieldsX x))
  | 0x61 => some (.semclr c (fieldsX x))
  | 0x62 => some (.semwait c (fieldsX x))
  | 0x63 => some (.barrier c (fieldsX x))
  | 0x64 => some (.fence c (fieldsX x))
  | 0x70 => some (.br c (fieldsB x))
  | 0x71 => some (.loop c (fieldsB x))
  | 0x72 => some (.tbound c (fieldsB x))
  | 0x73 => some (.halt c (fieldsB x))
  | _ => none

end Sys2Proof.Machine
end

