-- ==== Sys2Proof/Machine/Analysis.lean ====
section
/-! DEFINITION. The verifier's walk through a tile program (R60, R65, R80, R82, R90): what holds on every path that reaches a word, and
what the tiles of the cores of a program set do. Paths are those of the program's words: a predicated word may take effect or not, and
predicates are not related to one another (log entry 136). -/

namespace Sys2Proof.Machine

/-- What is known where paths meet at a word: the tile index, if it is the same on all; the registers with one known value (S0 to S31,
and A0 to A15 from 32 on); the formats that the latest MLOAD into each buffer may have (none: no MLOAD); and of the present tile the V
registers written on every path, the SENDs and RECVs per channel and the arrivals per barrier number, the bytes that may have been
read, the banks that every path has first written, and the tags of DMAs that may touch tier 2 or tier 3. -/
structure Flow where
  tile : Option Nat := some 0
  known : List (Nat × Nat) := []
  wb0 : List (Option Nat) := [none]
  wb1 : List (Option Nat) := [none]
  vset : List Nat := []
  counts : List (Option Nat) := List.replicate 48 (some 0)
  reads : List (Nat × Nat) := []
  fresh : List Nat := []
  far : List Nat := []
  deriving DecidableEq, Repr, Inhabited

def unite {α : Type} [BEq α] (a b : List α) : List α := a ++ b.filter (fun x => !a.contains x)
def meet {α : Type} [BEq α] (a b : List α) : List α := a.filter (fun x => b.contains x)
/-- Two paths meet. -/
def Flow.join (f g : Flow) : Flow :=
  { tile := if f.tile = g.tile then f.tile else none, known := meet f.known g.known, wb0 := unite f.wb0 g.wb0, wb1 := unite f.wb1 g.wb1,
    vset := meet f.vset g.vset, counts := (f.counts.zip g.counts).map (fun p => if p.1 = p.2 then p.1 else none),
    reads := unite f.reads g.reads, fresh := meet f.fresh g.fresh, far := unite f.far g.far }
/-- The next tile starts: what concerns one tile alone starts again (R80). -/
def Flow.nextTile (f : Flow) : Flow := { tile := f.tile.map (· + 1), known := f.known, wb0 := f.wb0, wb1 := f.wb1 }

/-! ### Registers -/

def Flow.val (f : Flow) (k : Nat) : Option Nat := if k = 0 then some 0 else (f.known.find? (fun e => e.1 == k)).map (·.2)
def Flow.put (f : Flow) (k : Nat) (v : Option Nat) : Flow :=
  { f with known := f.known.filter (fun e => e.1 != k) ++ (match v with | some x => [(k, x)] | none => []) }
def Flow.sreg (f : Flow) (n : BitVec 5) : Option Nat := f.val n.toNat
def Flow.areg (f : Flow) (n : Nat) : Option Nat := f.val (32 + n)
def two (g : Word64 → Word64 → Word64) (a b : Option Nat) : Option Nat :=
  a.bind (fun x => b.map (fun y => (g (BitVec.ofNat 64 x) (BitVec.ofNat 64 y)).toNat))
/-- The register that a word writes, and its value where the registers read have known ones. The core's LCOORD is known once a COREMAP
gives the core its program. -/
def regWritten (lc : Option Nat) (x : Word64) (f : Flow) : Option (Nat × Option Nat) :=
  let op := opcodeOf x
  let r := fieldsR x
  let i := fieldsI x
  let bin := fun g => some (r.d.toNat, two g (f.sreg r.a) (f.sreg r.b))
  if op = opADD then bin (· + ·) else if op = opSUB then bin (· - ·) else if op = opMUL then bin (· * ·)
  else if op = opLOGIC then bin (logicOp r.fn.toNat) else if op = opSHIFT then bin (shiftOp r.fn.toNat)
  else if op = opADDI then some (i.d.toNat, two (· + ·) (f.sreg i.a) (some (sext64 i.imm).toNat))
  else if op = opMOVI then
    some (i.d.toNat, two (fun old _ => moviOp i.fn.toNat old i.imm) (if i.fn = 0 then some 0 else f.sreg i.d) (some 0))
  else if op = opRDSR then some (i.d.toNat, if i.imm = 1 then lc else none)
  else if op = opLDS then some (i.d.toNat, none)
  else if op = opVRED then some (r.d.toNat, none)
  else if op = opRWAIT then some ((fieldsX x).sb.toNat, none)
  else if op = opARD then some (r.d.toNat, f.areg r.a.toNat)
  else if op = opAMOV then some (32 + r.d.toNat, (f.sreg r.a).map (· % 2 ^ 48))
  else if op = opAADD then
    some (32 + r.d.toNat, (f.areg r.a.toNat).bind (fun a => (f.sreg r.b).map (fun b => (a + b * 2 ^ r.fn.toNat) % 2 ^ 48)))
  else if op = opAADDI then some (32 + i.d.toNat, (f.areg i.a.toNat).map (fun a => (a + (sext48 i.imm).toNat) % 2 ^ 48))
  else none
/-- The V registers that a word reads, and those that it writes (Table 3-5). -/
def vregsRead (x : Word64) : List Nat :=
  let op := opcodeOf x
  let r := fieldsR x
  if op = opVST then [r.d.toNat]
  else if op = opVOP then (if r.fn.toNat < 5 then [r.a.toNat, r.b.toNat] else [r.a.toNat])
  else if op = opVFMA then [r.a.toNat, r.b.toNat, r.c.toNat]
  else if op = opVFUNC ∨ op = opVRED ∨ op = opVCVT ∨ op = opVQMX ∨ op = opVTAIL then [r.a.toNat]
  else if op = opVBCAST ∧ r.fn = 1 then [r.a.toNat]
  else if op = opVACC ∧ r.fn = 2 then [r.d.toNat]
  else []
def vregsWritten (x : Word64) : List Nat :=
  let op := opcodeOf x
  let r := fieldsR x
  if op = opVLD ∨ op = opVOP ∨ op = opVFMA ∨ op = opVFUNC ∨ op = opVCVT ∨ op = opVQMX ∨ op = opVBCAST ∨ op = opVTAIL then [r.d.toNat]
  else if op = opVACC ∧ r.fn.toNat ≤ 1 then [r.d.toNat]
  else []

/-! ### Bytes, by device address (R26), where their addresses are known -/

def span (a n : Option Nat) : List (Nat × Nat) := (a.bind (fun x => n.map (fun y => (x, y)))).toList
def Flow.ofsI (f : Flow) (i : IWord) : Option Nat := (f.areg i.a.toNat).map (fun a => (a + (sext48 i.imm).toNat) % 2 ^ 48)
/-- Rows of a bank of the core's own accumulators (R69), n of them from row on. -/
def accSpan (lc : Option Nat) (bank : Nat) (row : Option Nat) (n : Nat) : List (Nat × Nat) :=
  span (lc.bind (fun l => row.map (fun r => 0x80000000 + l % 1024 * 0x40000 + bank * 0x8000 + r * 256))) (some (n * 256))
/-- The rows of a DMA's source or destination (Table 3-5). -/
def dmaSpans (w : XWord) (f : Flow) (dst : Bool) : List (Nat × Nat) :=
  match f.areg (if dst then w.ad.toNat else w.as.toNat), f.sreg w.sa, (if w.fn = 0 then some 0 else f.sreg w.sb) with
  | some a, some n, some sb =>
    if w.fn = 0 then [(a, n)]
    else (List.range (sb % 65536)).map (fun i => (a + i * (sb / (if dst then 2 ^ 40 else 2 ^ 16) % 2 ^ 24), n))
  | _, _, _ => []
def Flow.wbuf (f : Flow) (wb : Bool) : List (Option Nat) := if wb then f.wb1 else f.wb0
def spansRead (lc : Option Nat) (x : Word64) (f : Flow) : List (Nat × Nat) :=
  let op := opcodeOf x
  let r := fieldsR x
  let m := fieldsM x
  let w := fieldsX x
  if op = opLDS then span (f.ofsI (fieldsI x)) (some 8)
  else if op = opVLD then span (f.ofsI (fieldsI x)) (some 256)
  else if op = opVACC ∧ r.fn.toNat ≤ 1 then accSpan lc r.a.toNat (f.sreg r.b) 1
  else if op = opMLOAD then span (f.areg m.as.toNat) (some (blockBytes m.fmt.toNat))
  else if op = opMMA then
    (f.wbuf m.wb).flatMap (fun v => span (f.areg m.as.toNat) (v.map (fun wf => streamBytes (blockK wf) m.fmt.toNat (m.mrows.toNat + 1))))
  else if op = opDMA then dmaSpans w f false
  else if op = opSEND then span (f.areg w.as.toNat) (f.sreg w.sa)
  else []
/-- A posted buffer is written by the message that fills it. -/
def spansWritten (lc : Option Nat) (x : Word64) (f : Flow) : List (Nat × Nat) :=
  let op := opcodeOf x
  let r := fieldsR x
  let m := fieldsM x
  let w := fieldsX x
  if op = opSTS then span (f.ofsI (fieldsI x)) (some 8)
  else if op = opVST then span (f.ofsI (fieldsI x)) (some 256)
  else if op = opVACC ∧ r.fn = 2 then accSpan lc r.a.toNat (f.sreg r.b) 1
  else if op = opVACC ∧ r.fn = 3 then accSpan lc r.a.toNat (some 0) 128
  else if op = opMMA then accSpan lc m.bank.toNat (some m.row0.toNat) (m.mrows.toNat + 1)
  else if op = opDMA then dmaSpans w f true
  else if op = opRECV then span (f.areg w.ad.toNat) (f.sreg w.sa)
  else []

/-! ### Paths -/

/-- A place of the program with its loop stack. A count of 0 stands for one that is not fixed. -/
structure Point where
  pc : Nat
  loops : List LoopEnt := []
  deriving DecidableEq, Repr, Inhabited

/-- SEND to RWAIT, SEMSET to SEMWAIT and BARRIER pair with another core (R80). -/
def isSync (x : Word64) : Bool :=
  let op := opcodeOf x
  (decide (opSEND ≤ op) && decide (op ≤ opRWAIT)) || (decide (opSEMSET ≤ op) && decide (op ≤ opBARRIER))
def endsTile (x : Word64) : Bool := opcodeOf x == opTBOUND || opcodeOf x == opHALT
/-- Whether a word's predicate can hold, and whether it can fail: P0 always reads 1 (R57). -/
def mayRun (x : Word64) : Bool := let b := fieldsB x; b.p != 0 || !b.pneg
def mayFail (x : Word64) : Bool := let b := fieldsB x; b.p != 0 || b.pneg
/-- The place in `counts` of what a word does with another core. -/
def countSlot (x : Word64) : Option Nat :=
  let op := opcodeOf x
  let n := (fieldsX x).n.toNat
  if op = opSEND then some n else if op = opRECV then some (16 + n) else if op = opBARRIER then some (32 + n) else none
/-- A word takes effect. -/
def State.flowAfter (s : State) (d : Dye) (lc : Option Nat) (x : Word64) (f : Flow) : Flow :=
  let op := opcodeOf x
  let m := fieldsM x
  let w := fieldsX x
  let far := op == opDMA && (dmaSpans w f false ++ dmaSpans w f true).any (fun e => s.farRange d e.1 e.2)
  let bank := if op = opMMA ∧ !m.accum then [m.bank.toNat] else if op = opVACC ∧ (fieldsR x).fn = 3 then [(fieldsR x).a.toNat] else []
  let f1 := match regWritten lc x f with
    | some (k, v) => if k = 0 then f else f.put k v
    | none => f
  { f1 with wb0 := if op = opMLOAD ∧ !m.wb then [some m.fmt.toNat] else f.wb0,
            wb1 := if op = opMLOAD ∧ m.wb then [some m.fmt.toNat] else f.wb1,
            vset := unite f.vset (vregsWritten x),
            counts := ((countSlot x).map (fun k => f.counts.modify k (fun c => c.map (· + 1)))).getD f.counts,
            reads := unite f.reads (spansRead lc x f), fresh := unite f.fresh bank,
            far := unite f.far (if far then [w.n.toNat] else []) }
/-- Where a path goes on after the word at pc: back to the first word of a loop body that ends here, or on. -/
def pathOn (pc : Nat) : List LoopEnt → List Point
  | [] => [{ pc := pc + 1 }]
  | e :: es =>
    if e.last = pc then
      if e.left = 0 then { pc := e.first, loops := e :: es } :: pathOn pc es
      else if 1 < e.left then [{ pc := e.first, loops := { e with left := e.left - 1 } :: es }]
      else pathOn pc es
    else [{ pc := pc + 1, loops := e :: es }]
/-- The points that follow a point. A loop whose body ends a tile or pairs with another core runs round by round where its count is
known; any other loop runs some number of times. -/
def State.pathNext (s : State) (d : Dye) (lc : Option Nat) (p : List Word64) (q : Point) (f : Flow) : List (Point × Flow) :=
  match p[q.pc]? with
  | none => []
  | some x =>
    let op := opcodeOf x
    let b := fieldsB x
    let on := pathOn q.pc q.loops
    let skip := if mayFail x then on.map (fun y => (y, f)) else []
    if op = opHALT then []
    else if op = opTBOUND then on.map (fun y => (y, f.nextTile))
    else if op = opBR then
      skip ++ (if mayRun x then [({ pc := ((q.pc : Int) + b.imm.toInt).toNat, loops := q.loops }, f)] else [])
    else if op = opLOOP then
      let n := bitsOf b.imm 0 16
      let count := f.sreg b.sa
      let each := ((p.drop (q.pc + 1)).take n).any (fun y => isSync y || endsTile y)
      let body : LoopEnt := { first := q.pc + 1, last := q.pc + n, left := if each then count.getD 0 else 0 }
      if n = 0 then on.map (fun y => (y, f))
      else skip ++ (if mayRun x && decide (q.loops.length < 4) then
        (if count.getD 0 = 0 then (pathOn (q.pc + n) q.loops).map (fun y => (y, f)) else []) ++
        (if count = some 0 then [] else [({ pc := q.pc + 1, loops := body :: q.loops }, f)]) else [])
    else
      let g := if mayRun x then s.flowAfter d lc x f else f
      on.map (fun y => (y, if mayFail x then f.join g else g))
/-- Every point that a path reaches, with what holds there; none where that is not settled within n rounds. -/
def explore (next : Point → Flow → List (Point × Flow)) : Nat → List (Point × Flow) → List (Point × Flow) →
    Option (List (Point × Flow))
  | 0, todo, seen => if todo.isEmpty then some seen else none
  | n + 1, todo, seen =>
    match todo with
    | [] => some seen
    | (q, f) :: rest =>
      match seen.find? (fun e => e.1 == q) with
      | none => explore next n (next q f ++ rest) (seen ++ [(q, f)])
      | some (_, g) =>
        let j := g.join f
        if j = g then explore next n rest seen
        else explore next n (next q j ++ rest) (seen.map (fun e => if e.1 == q then (q, j) else e))
/-- A program's points from its entry: the registers stand as they stood (R78), and no MLOAD lies behind. -/
def State.flowOf (s : State) (d : Dye) (lc : Option Nat) (p : List Word64) : Option (List (Point × Flow)) :=
  explore (s.pathNext d lc p) (2 ^ 40) [({ pc := 0 }, {})] []

/-! ### Class PROGRAM (R38, R60, R65, R90) -/

/-- A branch or loop whose target lies outside the program, a branch that leaves a LOOP body that holds it, and a predicated TBOUND or
HALT (R60). -/
def wordsBad (p : List Word64) : Bool :=
  let words := List.zipIdx p
  let bodies := words.filterMap (fun e => if opcodeOf e.1 = opLOOP then some (e.2, bitsOf (fieldsB e.1).imm 0 16) else none)
  words.any (fun e =>
    let op := opcodeOf e.1
    let b := fieldsB e.1
    let t : Int := (e.2 : Int) + b.imm.toInt
    if op = opBR then decide (t < 0) || decide ((p.length : Int) ≤ t) || bodies.any (fun l =>
      decide (l.1 < e.2) && decide (e.2 ≤ l.1 + l.2) && !(decide ((l.1 : Int) < t) && decide (t ≤ ((l.1 + l.2 : Nat) : Int))))
    else if op = opLOOP then bitsOf b.imm 0 16 != 0 && decide (p.length ≤ e.2 + bitsOf b.imm 0 16)
    else endsTile e.1 && mayFail e.1)
/-- Whether a VQMX asks for stochastic rounding at a site that the program does not fix. -/
def siteOpen (x : Word64) (f : Flow) : Bool :=
  opcodeOf x == opVQMX && mayRun x && bitOf (fieldsR x).fn 4 && (f.val ((fieldsR x).b.toNat + 2)).isNone
/-- What a path must not meet: the program's end, a fifth loop, an MMA that fails R65 with some MLOAD that a path leaves latest, and a
rounding site that the image does not enable. -/
def pointBad (p : List Word64) (sites : List Word32) (e : Point × Flow) : Bool :=
  match p[e.1.pc]? with
  | none => true
  | some x =>
    let op := opcodeOf x
    let m := fieldsM x
    let r := fieldsR x
    if !mayRun x then false
    else if op = opLOOP then bitsOf (fieldsB x).imm 0 16 != 0 && decide (4 ≤ e.1.loops.length)
    else if op = opMMA then decide (128 < m.row0.toNat + m.mrows.toNat + 1) || (e.2.wbuf m.wb).any (fun v =>
      match v with
      | none => true
      | some wf => !pairOk wf m.fmt.toNat)
    else if op = opVQMX && bitOf r.fn 4 then (match e.2.val (r.b.toNat + 2) with
      | some c2 => !sites.contains (BitVec.ofNat 32 c2)
      | none => sites == [])
    else false
def State.pathsBad (s : State) (d : Dye) (sites : List Word32) (p : List Word64) : Bool :=
  wordsBad p || ((s.flowOf d none p).getD []).any (pointBad p sites)
def State.sitesOpen (s : State) (d : Dye) (p : List Word64) : Bool :=
  ((s.flowOf d none p).getD []).any (fun e => ((p[e.1.pc]?).map (fun x => siteOpen x e.2)).getD false)

/-! ### Class TILE (R80, R82) -/

/-- The tile index at a word that pairs or ends a tile is not the same on every path, or a V register is read before the tile has
written it. -/
def tilePointBad (p : List Word64) (e : Point × Flow) : Bool :=
  match p[e.1.pc]? with
  | none => false
  | some x => ((isSync x || endsTile x) && e.2.tile.isNone) || (mayRun x && (vregsRead x).any (fun v => !e.2.vset.contains v))
def State.tilesBad (s : State) (d : Dye) (p : List Word64) : Bool :=
  match s.flowOf d none p with
  | none => true
  | some l => l.any (tilePointBad p)

/-- A word of a core's program that may take effect, with its tile index and what holds there. -/
structure TileWord where
  tile : Nat
  word : Word64
  flow : Flow
  deriving DecidableEq, Repr, Inhabited

def entryCoord (e : CoreEntry) : Nat := e.pkgOrd * 1024 + e.rgnOrd * 64 + e.pos.val
def State.tileWords (s : State) (d : Dye) (ps : List (List Word64)) (e : CoreEntry) : List TileWord :=
  let p := ps.getD e.program []
  ((s.flowOf d (some (entryCoord e)) p).getD []).filterMap (fun q =>
    match p[q.1.pc]?, q.2.tile with
    | some x, some t => if mayRun x then some { tile := t, word := x, flow := q.2 } else none
    | _, _ => none)
/-- What a core has counted at the ends of a tile: 0 in a tile that it does not reach. -/
def countsAt (ws : List TileWord) (t k : Nat) : List (Option Nat) :=
  let here := ws.filter (fun w => w.tile == t)
  if here = [] then [some 0] else (here.filter (fun w => endsTile w.word)).map (fun w => (w.flow.counts.getD k none))
/-- Two counts that are fixed and differ. -/
def differ (a b : List (Option Nat)) : Bool :=
  a.any (fun x => b.any (fun y => match x, y with | some u, some v => u != v | _, _ => false))

abbrev CoreWords := List (CoreEntry × List TileWord)
def tilesIn (cw : CoreWords) : List Nat := ((cw.flatMap (·.2)).map (·.tile)).dedup
def peerOf (cw : CoreWords) (b : Word32) : Option (CoreEntry × List TileWord) :=
  if bitOf b 31 then cw.find? (fun q => entryCoord q.1 == bitsOf b 0 16) else none
/-- In some tile a core sends on a channel another number of messages than its peer posts buffers. -/
def channelsUnpaired (cw : CoreWords) : Bool :=
  cw.any (fun e => (List.range 16).any (fun n =>
    let b := e.1.schan.getD n 0
    match peerOf cw b with
    | none => false
    | some q => (tilesIn cw).any (fun t => differ (countsAt e.2 t n) (countsAt q.2 t (16 + bitsOf b 16 4)))))
/-- The barrier numbers by which a core arrives at a group. -/
def barriersOf (e : CoreEntry) (g : Nat) : List Nat :=
  (List.range 16).filter (fun n => bitOf (e.barid.getD n 0) 31 && bitsOf (e.barid.getD n 0) 0 12 == g)
def sumKnown (l : List (Option Nat)) : Option Nat := l.foldl (fun a x => a.bind (fun u => x.map (· + u))) (some 0)
/-- A core's arrivals at a group in a tile, at each end of the tile. -/
def arrivalsAt (e : CoreEntry × List TileWord) (t g : Nat) : List (Option Nat) :=
  let here := e.2.filter (fun w => w.tile == t)
  if here = [] then [some 0]
  else (here.filter (fun w => endsTile w.word)).map (fun w => sumKnown ((barriersOf e.1 g).map (fun n => w.flow.counts.getD (32 + n) none)))
def barriersUnpaired (cw : CoreWords) (bs : List (Nat × List (BitVec 16))) : Bool :=
  bs.any (fun g =>
    let ms := cw.filter (fun e => g.2.any (fun m => m.toNat == entryCoord e.1))
    (tilesIn cw).any (fun t => ms.any (fun a => ms.any (fun b => differ (arrivalsAt a t g.1) (arrivalsAt b t g.1)))))
/-- The word and the bits that a semaphore instruction names, where they are known. -/
def TileWord.sem (w : TileWord) : Option (Nat × Nat) :=
  let x := fieldsX w.word
  (w.flow.areg x.as.toNat).bind (fun a => (w.flow.sreg x.sa).map (fun m => (a, m)))
/-- The semaphore words of one opcode in a tile of the cores of a package. -/
def semsOf (cw : CoreWords) (op pkg t : Nat) : List TileWord :=
  (cw.filter (fun e => e.1.pkgOrd == pkg)).flatMap (fun e => e.2.filter (fun w => w.tile == t && opcodeOf w.word == op))
/-- Whether some bits of a word are surely left out by the instructions of a list. -/
def uncovered (l : List TileWord) (a bits : Nat) : Bool :=
  l.all (fun w => w.sem.isSome) &&
  (l.foldl (fun b w => match w.sem with
    | some (a2, m) => if a2 = a then Nat.xor b (Nat.land b m) else b
    | none => b) bits) != 0
/-- A SEMSET in a tile in which no SEMCLR clears what it sets, or a SEMWAIT in one in which no SEMSET satisfies it. -/
def semaphoresUnpaired (cw : CoreWords) : Bool :=
  cw.any (fun e => e.2.any (fun w =>
    let op := opcodeOf w.word
    match w.sem with
    | none => false
    | some (a, m) =>
      if op = opSEMSET then uncovered (semsOf cw opSEMCLR e.1.pkgOrd w.tile) a m
      else if op = opSEMWAIT then (match w.flow.sreg (fieldsX w.word).sb with
        | some v => uncovered (semsOf cw opSEMSET e.1.pkgOrd w.tile) a (Nat.land m v)
        | none => false)
      else false))

/-! Remote-dependent tiles (R82) -/

def membersOf (bs : List (Nat × List (BitVec 16))) (g : Nat) : List Nat :=
  (bs.filter (fun b => b.1 == g)).flatMap (fun b => b.2.map (·.toNat))
/-- The cores that a word can wait for. -/
def awaits (bs : List (Nat × List (BitVec 16))) (e : CoreEntry) (x : Word64) : List Nat :=
  let op := opcodeOf x
  let w := fieldsX x
  let peer := fun (b : Word32) => if bitOf b 31 then [bitsOf b 0 16] else []
  if op = opRWAIT then peer (e.rchan.getD w.n.toNat 0)
  else if op = opSEND then peer (e.schan.getD w.n.toNat 0)
  else if op = opSWAIT then (List.range 16).flatMap (fun n => if bitOf w.imm16 n then peer (e.schan.getD n 0) else [])
  else if op = opBARRIER then membersOf bs (bitsOf (e.barid.getD w.n.toNat 0) 0 12)
  else []
def waitsAfar (bs : List (Nat × List (BitVec 16))) (e : CoreEntry) (w : TileWord) : Bool :=
  (awaits bs e w.word).any (fun m => m / 1024 != e.pkgOrd) ||
  (opcodeOf w.word == opDWAIT && w.flow.far.any (fun t => bitOf (fieldsX w.word).imm16 t))
/-- A core's tile as one number. -/
def tileKey (e : CoreEntry) (t : Nat) : Nat := t * 65536 + entryCoord e
/-- The remote-dependent tiles: those with a wait of the first kind, and those with a wait whose partner's tile is one. -/
def remoteTiles (cw : CoreWords) (bs : List (Nat × List (BitVec 16))) : List Nat :=
  let base := (cw.flatMap (fun e => (e.2.filter (waitsAfar bs e.1)).map (fun w => tileKey e.1 w.tile))).eraseDups
  let sets := fun (k : Nat) (e : CoreEntry) (w : TileWord) => opcodeOf w.word == opSEMWAIT &&
    cw.any (fun q => entryCoord q.1 == k % 65536 && q.1.pkgOrd == e.pkgOrd && q.2.any (fun v =>
      v.tile == w.tile && opcodeOf v.word == opSEMSET && v.sem.map (·.1) == w.sem.map (·.1)))
  let waiting := fun (k : Nat) => cw.flatMap (fun e =>
    (e.2.filter (fun w => w.tile == k / 65536 && ((awaits bs e.1 w.word).contains (k % 65536) || sets k e.1 w))).map
      (fun w => tileKey e.1 w.tile))
  closure waiting ((cw.map (fun e => e.2.length)).sum) base base
def touches (a b : Nat × Nat) : Bool := decide (a.1 < b.1 + b.2) && decide (b.1 < a.1 + a.2)
/-- What a remote-dependent tile must not hold: a semaphore instruction, a write of what the tile has read, an accumulating MMA into a
bank that the tile has not first written. -/
def replayBad (lc : Option Nat) (w : TileWord) : Bool :=
  let op := opcodeOf w.word
  let m := fieldsM w.word
  (decide (opSEMSET ≤ op) && decide (op ≤ opSEMWAIT)) ||
  (spansWritten lc w.word w.flow).any (fun a => w.flow.reads.any (touches a)) ||
  (op == opMMA && m.accum && !w.flow.fresh.contains m.bank.toNat)
/-- A program set breaks R80 or R82 between its cores. -/
def State.setBad (s : State) (d : Dye) (ps : List (List Word64)) (bs : List (Nat × List (BitVec 16))) (cs : List CoreEntry) : Bool :=
  let cw : CoreWords := cs.map (fun e => (e, s.tileWords d ps e))
  let far := remoteTiles cw bs
  channelsUnpaired cw || barriersUnpaired cw bs || semaphoresUnpaired cw ||
  cw.any (fun e => e.2.any (fun w => far.contains (tileKey e.1 w.tile) && replayBad (some (entryCoord e.1)) w))

end Sys2Proof.Machine
end

