-- ==== Sys2Proof/Machine/Verify.lean ====
section
/-! DEFINITION. The verifier (R235, Table 10-8): for each class, the section at which an image is refused, or none. A place
outside the sections is 0xFF. -/

namespace Sys2Proof.Machine

/-! ### Helpers -/

def isPart (i : Image) : Bool := i.kind == 2
def sectTypes (i : Image) (t : Nat) : Nat := (i.sections.filter (fun x => x.type.toNat == t)).length
/-- The first section that a test refuses. -/
def badSection (i : Image) (p : SectionBody → Bool) : Option Nat := i.sections.findIdx? (fun x => p x.body)
/-- The same where the shape that a section serves matters. -/
def badSect (i : Image) (p : Section → Bool) : Option Nat := i.sections.findIdx? p
/-- Whether two sections serve some shape both. -/
def sameShape (a b : BitVec 16) : Bool := a == b || a == 0xFFFF || b == 0xFFFF
def refuseIf (b : Bool) (at_ : Nat := 0xFF) : Option Nat := if b then some at_ else none
/-- The section of a body's kind, where a fault lies in what the image says as a whole. -/
def sectionOf (i : Image) (t : Nat) : Nat := (i.sections.findIdx? (fun x => x.type.toNat == t)).getD 0xFF
def bodyType : SectionBody → Nat
  | .topology _ => 0x01 | .partitions _ => 0x02 | .regulators _ => 0x03 | .tiers _ => 0x04 | .ownership _ => 0x05
  | .partcfg _ => 0x10 | .programs _ => 0x11 | .coremap _ _ _ _ _ => 0x12 | .groups _ _ _ => 0x13
  | .attention _ _ _ _ => 0x14 | .quant _ => 0x15 | .routes _ _ => 0x16 | .pools _ _ => 0x17 | .streams _ => 0x18
  | .weights _ => 0x19 | .load _ _ => 0x1A | .costs _ => 0x1B | .unknown => 0x100
def entriesOf (i : Image) : List PartEntry := i.sections.flatMap (fun x => match x.body with | .partitions es => es | _ => [])
def topologyOf (i : Image) : Option Topology :=
  i.sections.findSome? (fun x => match x.body with | .topology t => some t | _ => none)
def overlaps (a b : Nat × Nat) : Bool := decide (a.1 < b.1 + b.2) && decide (b.1 < a.1 + a.2)
/-- Whether two places of a list hold equal values. -/
def repeated {α : Type} [DecidableEq α] (l : List α) : Bool := l.dedup.length != l.length

/-! ### 0x01 FORMAT -/

def headerBad (i : Image) : Bool :=
  i.magic != 0x4953 || i.version != 1 || !(i.kind == 1 || i.kind == 2) || ((i.kind == 1) != (i.dye == 0)) ||
  !(i.sigAlg == 1 || i.sigAlg == 2) || i.sections.length == 0 || decide (64 < i.sections.length)
def directoryBad (i : Image) : Bool :=
  let first := 64 + 16 * i.sections.length
  let spans := i.sections.map (fun x => (x.offset, x.len))
  i.sections.any (fun x => x.sver != 1 || x.offset % 64 != 0 || decide (x.offset < first) || decide (i.length < x.offset + x.len) ||
    x.type.toNat != bodyType x.body) ||
  (List.zipIdx spans).any (fun a => (spans.drop (a.2 + 1)).any (overlaps a.1))
/-- Types and counts of Table 10-3, but for those that stand once per shape. -/
def countsBad (i : Image) (norla : Bool) : Bool :=
  let n := sectTypes i
  let once := fun t => n t == 1
  let few := fun t => decide (n t ≤ 1)
  if isPart i then
    i.sections.any (fun x => decide (x.type.toNat < 0x10) || decide (0x1B < x.type.toNat)) || !once 0x10 || !few 0x11 ||
    !once 0x13 || !few 0x15 || !few 0x19 || !few 0x1A ||
    (if norla then n 0x14 + n 0x16 + n 0x17 + n 0x18 + n 0x1B != 0 else !once 0x14) ||
    repeated (i.sections.filterMap (fun x => match x.body with
      | .routes l _ => some (x.type, x.shape, l)
      | .pools l _ => some (x.type, x.shape, l)
      | .streams _ => some (x.type, x.shape, false)
      | .costs _ => some (x.type, x.shape, false)
      | _ => none)) ||
    repeated (i.sections.filterMap (fun x => match x.body with
      | .coremap l c b _ _ => some (x.shape, l, c, b)
      | _ => none))
  else
    i.sections.any (fun x => !([0x01, 0x02, 0x03, 0x04, 0x05, 0x11, 0x19].contains x.type.toNat)) || !once 0x01 ||
    !once 0x02 || !few 0x03 || !once 0x04 || !few 0x05 || !few 0x11 || !few 0x19
def reservedBad : SectionBody → Bool
  | .partitions es => es.any (fun e => e.rsv || decide (1 < e.mode.toNat) || e.dye == 0 || e.packages.any (·.rsv) ||
      e.packages.length == 0 || decide (64 < e.packages.length))
  | .partcfg c => c.rsv || decide (64 < c.shapes.length) || decide (64 < c.groups.length) || decide (500 < c.res)
  | .coremap _ _ _ _ cs => cs.any (fun e => e.tileLimit == 0 || decide (19200 < e.tileLimit.toNat))
  | .routes _ rs => rs.any (·.rsv)
  | _ => false
def State.formatBad (s : State) (d : Dye) (i : Image) : Option Nat :=
  let norla := ((s.partEntry d).map (fun e => e.mode == 1)).getD false
  if headerBad i || i.dye != d || directoryBad i || countsBad i norla then some 0xFF
  else match i.sections.findIdx? (fun x => !x.crcOk) with
    | some k => some k
    | none => badSection i reservedBad

/-! ### 0x02 SIGNATURE, 0x03 ARCH -/

def State.imageKeyOk (s : State) (d : Dye) (i : Image) : Bool :=
  if d = 0 then (List.range 4).any (fun n => tabGet (fun _ => none) s.authority n == some i.keyDigest)
  else ((s.partEntry d).map (fun e => e.imageKey == i.keyDigest)).getD false
def State.signatureBad (s : State) (d : Dye) (i : Image) : Option Nat :=
  refuseIf (!i.sigOk || !i.keyOk || !s.imageKeyOk d i || decide (i.generation.toNat < natGet s.genFloor d.val))
def State.archBad (s : State) (i : Image) : Option Nat :=
  refuseIf (i.archLevel.toNat != s.fld .pkg PKG_REVISION 0 8)

/-! ### 0x04 TOPOLOGY (R22, R273) -/

/-- Hops from a slot over the links that a TOPOLOGY gives. -/
def topoReach (t : Topology) : Nat → List SlotNo → List SlotNo
  | 0, l => l
  | n + 1, l => topoReach t n ((l ++ l.flatMap (fun a => (List.range 6).filterMap (neighbour t a))).dedup)
/-- Along an axis of a torus every package has both neighbours, one step further round. -/
def ringsOk (t : Topology) : Bool :=
  t.coords.all (fun e => (List.range 3).all (fun ax =>
    let n := t.axes.getD ax 1
    let c := fun (p : Nat × Nat × Nat) => if ax = 0 then p.1 else if ax = 1 then p.2.1 else p.2.2
    decide (n ≤ 1) || (match (neighbour t e.1 (2 * ax)).bind (coordOf t) with
      | some q => c q == (c e.2 + 1) % n
      | none => false)))
def topologyBad (t : Topology) : Bool :=
  decide (2 < t.kind) || repeated (t.coords.map (·.1)) || repeated (t.coords.map (·.2)) ||
  t.links.any (fun e => decide (6 < e.2.length) || (List.zipIdx e.2).any (fun p => match p.1 with
    | some b => neighbour t b (opposite p.2) != some e.1
    | none => false)) ||
  (t.kind == 0 && !ringsOk t) ||
  t.coords.any (fun e => !((t.coords.map (·.1)).all (fun b => (topoReach t 9 [e.1]).contains b)))

/-! ### 0x05 PARTITION -/

def minOf (e : PartEntry) (k : Nat) : Nat := e.minT.getD k 0
def tier1Frames : Nat := 16771072
def onSlot (es : List PartEntry) (sl : SlotNo) : List PartEntry := es.filter (fun e => e.packages.any (fun p => p.slot == sl))
def slotsOf (es : List PartEntry) : List SlotNo := (es.flatMap (fun e => e.packages.map (·.slot))).dedup
/-- A move package (R251): a NORLA partition and an ELASTIC one of higher PRIORITY both hold regions on it. -/
def movePackage (es : List PartEntry) (sl : SlotNo) : Bool :=
  (onSlot es sl).any (fun a => a.mode == 1 && (onSlot es sl).any (fun b => b.dye != a.dye && b.elastic && decide (a.priority < b.priority)))
def tiersOf (i : Image) : List TierEntry := i.sections.flatMap (fun x => match x.body with | .tiers es => es | _ => [])
def State.partitionsBad (s : State) (i : Image) : Bool :=
  let es := entriesOf i
  let slots := ((topologyOf i).map (fun t => t.coords.map (·.1))).getD []
  repeated (es.map (·.dye)) ||
  repeated (es.flatMap (fun e => e.packages.flatMap (fun p => p.regions.map (fun r => (p.slot, r))))) ||
  es.any (fun e => e.packages.any (fun p => p.slot == s.slot && p.regions.any (fun r => s.failedRgns.contains r))) ||
  es.any (fun e => decide (e.rgnMin = 0) || decide (16 < e.rgnMax) || e.packages.any (fun p =>
    decide (p.regions.length < e.rgnMin) || decide (e.rgnMax < p.regions.length))) ||
  es.any (fun e => repeated (e.packages.map (·.slot)) || e.packages.any (fun p => !slots.contains p.slot)) ||
  decide (256 < (es.map (·.share)).sum) ||
  (slotsOf es).any (fun sl => let here := onSlot es sl
    decide (32768 < (here.map (fun e => minOf e 0)).sum) ||
    decide (tier1Frames < (here.map (fun e => minOf e 1 + e.rgnMax * 2304)).sum)) ||
  ((slotsOf es).filter (movePackage es)).any (fun sl => decide (2 < (onSlot es sl).length) ||
    (tiersOf i).any (fun t => t.donors.contains sl && decide (0 < (es.filter (fun e =>
      !((onSlot es sl).any (fun q => q.dye == e.dye)) && e.packages.any (fun p => p.slot == t.slot))).length)))
/-- A donor list has at least 4 slots, all of the topology and none of them its own (R151); a package may have none. Table 10-8 names no
class for it (log entry 136). -/
def donorsBad (slots : List SlotNo) (e : TierEntry) : Bool :=
  e.donors != [] && (decide (e.donors.length < 4) || e.donors.contains e.slot || e.donors.any (fun x => !slots.contains x))
/-- The RATE values of one resource sum to at most 256 (R247). -/
def ratesBad (rs : List RegulatorEntry) : Bool :=
  rs.any (fun r => decide (256 < ((rs.filter (fun q => q.win == r.win)).map (·.rate)).sum))
/-- For a partition image: every package and region it names is its own (R227), and none is failed. -/
def State.partitionBad (s : State) (d : Dye) (i : Image) : Option Nat :=
  let n := (s.pkgTable d).length
  if isPart i then
    (if (s.regionsOf d).any (fun r => s.failedRgns.contains r) then some 0xFF else
    badSection i (fun b => match b with
      | .coremap _ _ _ _ cs => cs.any (fun e => (match (s.pkgTable d)[e.pkgOrd]? with
          | some p => decide (p.regions.length ≤ e.rgnOrd) && !(p.slot == s.slot && decide (e.rgnOrd < (s.regionsOf d).length))
          | none => true))
      | .pools _ ps => ps.any (fun p => decide (n ≤ p.1 / 16))
      | .attention _ _ sh _ => sh.any (fun e => decide (n ≤ e.1))
      | .load l ps => decide (n ≤ l) || decide (ps.length ≠ n) || ps.any (fun p => decide (n ≤ p))
      | .partcfg c => c.groups.any (fun g => decide (2 ^ n ≤ g.pkgs.toNat))
      | _ => false))
  else if s.partitionsBad i then some (sectionOf i 0x02)
  else badSection i (fun b => match b with
    | .regulators rs => ratesBad rs
    | .tiers es => es.any (donorsBad (((topologyOf i).map (fun t => t.coords.map (·.1))).getD []))
    | _ => false)

/-! ### 0x06 PROGRAM: each word is checked as its instruction checks it, on a core whose predicate is false -/

/-- The instruction of an opcode, run on a core. -/
def runWord (x : Word64) (c : CoreId) (s : State) : Out :=
  let op := opcodeOf x
  let r := fieldsR x; let i := fieldsI x; let m := fieldsM x; let w := fieldsX x; let b := fieldsB x
  if op = opNOP then execNop c r s else if op = opADD then execAdd c r s else if op = opSUB then execSub c r s
  else if op = opMUL then execMul c r s else if op = opLOGIC then execLogic c r s else if op = opSHIFT then execShift c r s
  else if op = opADDI then execAddi c i s else if op = opMOVI then execMovi c i s else if op = opCMP then execCmp c r s
  else if op = opCMPI then execCmpi c i s else if op = opPLOG then execPlog c r s else if op = opLDS then execLds c i s
  else if op = opSTS then execSts c i s else if op = opRDSR then execRdsr c i s else if op = opAMOV then execAmov c r s
  else if op = opAADD then execAadd c r s else if op = opAADDI then execAaddi c i s else if op = opARD then execArd c r s
  else if op = opVLD then execVld c i s else if op = opVST then execVst c i s else if op = opVOP then execVop c r s
  else if op = opVFMA then execVfma c r s else if op = opVFUNC then execVfunc c r s else if op = opVRED then execVred c r s
  else if op = opVCVT then execVcvt c r s else if op = opVQMX then execVqmx c r s else if op = opVBCAST then execVbcast c r s
  else if op = opVTAIL then execVtail c r s else if op = opVACC then execVacc c r s else if op = opMLOAD then execMload c m s
  else if op = opMMA then execMma c m s else if op = opDMA then execDma c w s else if op = opDWAIT then execDwait c w s
  else if op = opSEND then execSend c w s else if op = opRECV then execRecv c w s else if op = opSWAIT then execSwait c w s
  else if op = opRWAIT then execRwait c w s else if op = opSEMSET then execSemset c w s else if op = opSEMCLR then execSemclr c w s
  else if op = opSEMWAIT then execSemwait c w s else if op = opBARRIER then execBarrier c w s else if op = opFENCE then execFence c w s
  else if op = opBR then execBr c b s else if op = opLOOP then execLoop c b s else if op = opTBOUND then execTbound c b s
  else execHalt c b s
/-- Whether a word is illegal (R58). TBOUND and HALT take no predicate (their word must hold zero there). -/
def wordIllegal (x : Word64) : Bool :=
  let op := opcodeOf x
  let y := if op = opTBOUND ∨ op = opHALT then x else putBits x 8 4 1
  let c : CoreId := default
  let s : State := { cores := [(0, { run := .running, istore := [y] })] }
  !opDefined op || (match runWord y c s with
    | .next t => (t.core c).fault.toNat == fILLOP || (t.core c).fault.toNat == fOPERAND
    | _ => false)
def programsBad (ps : List (List Word64)) : Bool :=
  ps.any (fun p => p == [] || decide (4096 < p.length) || p.any wordIllegal)
def quantOf (i : Image) : List Word32 := i.sections.flatMap (fun x => match x.body with | .quant l => l | _ => [])
/-- Class PROGRAM. Where a program does not fix the rounding site that it names, and the image enables some, whether the verifier refuses
it is a free value. A COREMAP entry names a program that the image has (log entry 136). -/
def State.programBad (s : State) (d : Dye) (i : Image) : Option Nat :=
  let sites := quantOf i
  badSection i (fun b => match b with
    | .programs ps => programsBad ps || ps.any (s.pathsBad d sites) || (ps.any (s.sitesOpen d) && Config.verdict 0x06 i.digest)
    | .coremap _ _ _ _ cs => cs.any (fun e => decide ((programsOf (some i)).length ≤ e.program))
    | _ => false)
/-- Class TILE (R80, R82). The priced length of a tile, and what a program does not fix, is not worked out here: a free value. -/
def State.tileBad (s : State) (d : Dye) (i : Image) : Option Nat :=
  let ps := programsOf (some i)
  let bs := i.sections.flatMap (fun x => match x.body with | .groups _ bs _ => bs | _ => [])
  badSection i (fun b => match b with
    | .programs ps => ps.any (s.tilesBad d)
    | .coremap _ _ _ _ cs => s.setBad d ps bs cs || Config.verdict 0x07 i.digest
    | _ => false)

/-! ### 0x08 BINDING, 0x09 WINDOW -/

/-- Every VALID binding of a core's list has its counterpart in the peer's opposite list (R71). -/
def bindsBack (cs : List CoreEntry) (mine theirs : CoreEntry → List Word32) : Bool :=
  cs.all (fun e => (List.zipIdx (mine e)).all (fun b => !bitOf b.1 31 ||
    (match cs.find? (fun q => entryCoord q == bitsOf b.1 0 16) with
      | none => false
      | some q => let w := (theirs q).getD (bitsOf b.1 16 4) 0
                  bitOf w 31 && bitsOf w 0 16 == entryCoord e && bitsOf w 16 4 == b.2)))
def State.inPartition (s : State) (d : Dye) (lc : BitVec 16) : Bool :=
  match (s.pkgTable d)[bitsOf lc 10 6]? with
  | none => false
  | some p => decide (bitsOf lc 6 4 < p.regions.length) || (p.slot == s.slot && decide (bitsOf lc 6 4 < (s.regionsOf d).length))
def State.bindingBad (s : State) (d : Dye) (i : Image) : Option Nat :=
  badSection i (fun b => match b with
    | .coremap _ _ _ _ cs => !bindsBack cs (·.schan) (·.rchan) || !bindsBack cs (·.rchan) (·.schan)
    | .groups ts bs trees => ts.any (fun g => g.2.any (fun lc => !s.inPartition d lc)) ||
        bs.any (fun g => g.2.any (fun lc => !s.inPartition d lc)) || trees.any (fun t => t.members.any (fun lc => !s.inPartition d lc))
    | _ => false)
def windowBad (i : Image) : Option Nat :=
  badSection i (fun b => match b with
    | .coremap _ _ _ _ cs => cs.any (fun e =>
        let ws := (e.windows.filter winValid).map (fun w => (bitsOf w 0 9, bitsOf w 10 10 - bitsOf w 0 9))
        e.windows.any winBad || (List.zipIdx ws).any (fun a => (ws.drop (a.2 + 1)).any (overlaps a.1)) ||
        (List.zipIdx e.windows).any (fun w => bitOf e.kvMask w.2 && winValid w.1 && !bitOf w.1 20))
    | _ => false)

/-! ### 0x0A to 0x0F -/

def lclassWord (w : Word32) : LClass :=
  { dk := bitsOf w 0 4, koff := bitsOf w 4 4, dv := bitsOf w 8 4, voff := bitsOf w 12 4, ch := bitsOf w 16 4, valid := bitOf w 31 }
/-- A scale that is positive and finite. -/
def scaleOk (x : Word32) : Bool := !bitOf x 31 && bitsOf x 0 31 != 0 && bitsOf x 23 8 != 0xFF
/-- A per-tensor scale that a program fixes (VACC FN 1, VCVT FN 4 to 7) is not positive and finite (R35). -/
def pointScaleBad (p : List Word64) (e : Point × Flow) : Bool :=
  match p[e.1.pc]? with
  | none => false
  | some x =>
    let r := fieldsR x
    let op := opcodeOf x
    let reg := if op = opVACC ∧ r.fn = 1 then some r.c else if op = opVCVT ∧ 4 ≤ r.fn.toNat then some r.b else none
    mayRun x && (match reg.bind e.2.sreg with
      | some v => !scaleOk (BitVec.ofNat 32 v)
      | none => false)
/-- The most pages of a session: 4,194,304 positions (R114), which no field of an image lowers. -/
def mostPages : Nat := 4194304 / 256
def State.attentionBad (s : State) (d : Dye) (i : Image) : Option Nat :=
  badSection i (fun b => match b with
    | .attention lc sp _ rs => lc.any (fun w => bitOf w 31 && !(lclassWord w).ok) || decide (16 * sp < mostPages) ||
        rs.any (fun r => r.channels != r.scales.length || r.scales.any (fun x => !scaleOk x))
    | .programs ps => ps.any (fun p => ((s.flowOf d none p).getD []).any (pointScaleBad p))
    | _ => false)

/-! The worst case of an exchange (R174, R177) -/

def costRowsOf (i : Image) (lane : Bool) (shape : BitVec 16) : List CostRow :=
  i.sections.flatMap (fun x => match x.body with
    | .costs rs => if sameShape x.shape shape then rs.filter (fun r => r.lane == lane) else []
    | _ => [])
def routesFor (i : Image) (lane : Bool) (shape : BitVec 16) : List RouteRecord :=
  i.sections.flatMap (fun x => match x.body with
    | .routes l rs => if l == lane && sameShape x.shape shape then rs else []
    | _ => [])
/-- The most rows of a step of a lane: the row limits of one class's buckets, whose sub-batches run together (R211). Each row is one
arrival at most at one expert. -/
def mostRows (rows : List CostRow) : Nat :=
  ((List.range 4).map (fun c => ((rows.filter (fun r => r.cls.toNat == c)).map (·.maxRows)).sum)).foldl max 0
/-- The pool rows that a region (package ordinal * 16 + region ordinal) must hold for a record: the arrivals beyond CAP of each expert
that it hosts. -/
def poolNeed (rows key : Nat) (r : RouteRecord) : Nat :=
  ((r.experts.filter (fun e => e.valid && e.pkgOrd * 16 + e.rgnOrd == key)).map (fun e => rows - e.cap)).sum
/-- R174 with DEGRADED = 0: every pool holds the worst case of every layer. -/
def poolsBad (i : Image) (lane : Bool) (shape : BitVec 16) (ps : List (Nat × Nat × Addr × Addr)) : Bool :=
  let rs := routesFor i lane shape
  let n := mostRows (costRowsOf i lane shape)
  let homes := (rs.flatMap (fun r => (r.experts.filter (·.valid)).map (fun e => e.pkgOrd * 16 + e.rgnOrd))).dedup
  homes.any (fun k => rs.any (fun r => decide ((((ps.find? (fun p => p.1 == k)).map (fun p => p.2.1)).getD 0) < poolNeed n k r)))
def State.routeSectionBad (s : State) (d : Dye) (i : Image) : Option Nat :=
  badSect i (fun x => match x.body with
    | .routes _ rs => rs.any (fun r => decide ((r.experts.filter (·.valid)).length < r.k) || decide (16384 < hiddenOf r) ||
        decide (65536 < dispOf r) || r.experts.any (fun e => !s.inPartition d (BitVec.ofNat 16 (e.pkgOrd * 1024 + e.rgnOrd * 64))))
    | .pools l ps => !(cfgIn (some i)).degraded && poolsBad i l x.shape ps
    | _ => false)

/-! Stream tables (R184, R188) -/

/-- Whether no place of the image area on a die puts a stream's bytes, which it names by an offset there, wholly into the HBM of the
engine's die. -/
def sourceOff (area engine off len : Nat) : Bool :=
  let h := 2 ^ 39
  let lo : Int := max ((area * h : Nat) : Int) (((engine * h : Nat) : Int) - (off : Int))
  let hi : Int := min (((area + 1) * h : Nat) : Int) ((((engine + 1) * h : Nat) : Int) - ((off + len : Nat) : Int))
  decide (hi < lo)
def State.tableBad (s : State) (d : Dye) (e : Fin 8) (xs : List Word512) : Bool :=
  let area := ((s.diesOf d).head?).getD 0
  xs.any (fun x =>
    let y := streamOf x
    bitsOf x 0 4 != 1 || decide (1 < y.mode) || decide (5 < y.gatePoint) || bitsOf x 237 19 != 0 || bitsOf x 304 208 != 0 ||
    (s.streamRegion e d y).isNone || streamAddrBad y || sourceOff area (engineDie e) y.src y.len) ||
  (xs != [] && (xs.map (fun x => bitOf x 7)) != List.replicate (xs.length - 1) false ++ [true])
/-- The times of the phases of a row's shortest step, of one row and no page, at f_price MHz and 16 lanes (R217). -/
def shortest (r : CostRow) (fp : Nat) : List (Nat × List Nat) :=
  r.groups.map (fun g => (g.ng, g.phases.map (fun c => ceilDiv ((c.1 + c.2.1) * 1000) fp + c.2.2.2)))
/-- Streams by the gate they share, in schedule order. -/
def gateGroups : Nat → List StreamD → List (List StreamD)
  | 0, _ => []
  | n + 1, l =>
    match l with
    | [] => []
    | x :: _ => l.filter (sameGate x) :: gateGroups n (l.filter (fun y => !sameGate x y))
/-- Point k of a layer, in ns from START; none where the plan has no such layer. -/
def planPoint (plan : List (List Nat)) (layer k : Nat) : Option Nat := (plan[layer]?).map (fun l => l.getD k 0)
/-- Whether some stream of an engine ends after its ready point: groups that share a gate follow one another, each from its gate, from
the end of the one before and from the release of its buffers on. Times count from START, less than 0 for what comes before. -/
def lateF (plan : List (List Nat)) (price : List StreamD → Nat) : List (List StreamD) → List StreamD → Int → Bool
  | [], _, _ => false
  | g :: gs, done, free =>
    let t : Int := price g
    let gate : Int := match g with
      | [] => 0
      | x :: _ => if x.gatePoint = 5 then -t else (((planPoint plan x.gateLayer (gateIdx x.gatePoint)).getD 0 : Nat) : Int)
    let released := (done.filter (fun y => g.any (fun x => x.buf == y.buf))).map (fun y => (((planPoint plan y.layer 7).getD 0 : Nat) : Int))
    let stop := (released.foldl max (max gate free)) + t
    g.any (fun x => match planPoint plan x.layer (if x.routed then 5 else 0) with
      | some r => decide ((r : Int) < stop)
      | none => false) || lateF plan price gs (done ++ g) stop
/-- R188 for a STREAMS section: every stream ends by its ready point at every frequency of the image, in the shortest step of every cost
row of its lane (log entry 136). The prefill lane of a shape is that of installation. -/
def State.streamsLate (s : State) (d : Dye) (i : Image) (shape : BitVec 16) (ts : List (Nat × List Word512)) : Bool :=
  let c := cfgIn (some i)
  let rate := 2457600 * 224 * (((s.partEntry d).map (·.share)).getD 0)
  let shapes := if shape = 0xFFFF then c.shapes else (c.shapes[shape.toNat]?).toList
  shapes.any (fun sh =>
    let pre := prefillOf (s.regionsOf d) sh.prefillRgn
    ([false, true] : List Bool).any (fun lane => (costRowsOf i lane shape).any (fun r =>
      (List.range ((c.fMax - c.fMin) / 25 + 1)).any (fun k =>
        let f := c.fMin + 25 * k
        let plan := layerOffsets (shortest r (fPriceOf f (cfgReserve c))) 0
        ts.any (fun t =>
          let mine := (t.2.map streamOf).filter (fun y => match s.regionOf d y.rgnOrd with
            | some q => pre.contains q == lane
            | none => false)
          lateF plan (groupNs rate f) (gateGroups mine.length mine) [] (-(2 ^ 63)))))))
/-- Class STREAM. A stream number stands once per die. -/
def State.streamBad (s : State) (d : Dye) (i : Image) : Option Nat :=
  badSect i (fun x => match x.body with
    | .streams ts => ts.any (fun t => s.tableBad d (Fin.ofNat 8 t.1) t.2) ||
        ([0, 1] : List Nat).any (fun die => repeated ((ts.filter (fun t => t.1 / 4 == die)).flatMap (fun t => t.2.map (fun y =>
          (streamOf y).stream)))) || s.streamsLate d i x.shape ts
    | _ => false)
def weightsSectionBad (i : Image) : Option Nat :=
  badSection i (fun b => match b with
    | .weights ws => ws.any (fun w => w.keyDigests == [] || decide (64 < w.rank) ||
        (w.mode == 1 && w.matrices.any (fun m => m.1 % blockK w.dstFmt.toNat != 0 || m.2 % 64 != 0)) || (isPart i && w.mode == 2 && w.matrices != []))
    | _ => false)
/-! Lower bounds of the coefficients (R236) -/

/-- B_f: bytes of KV per cycle at a frequency in MHz (Table 5-1). -/
def intake (f : Nat) : Nat := if f ≤ 1500 then 832 else 1250000 / f
/-- Cycles of one page, and of a job's start and end (R125). -/
def pageCycles (c : LClass) (rows npos f : Nat) : Nat :=
  max (ceilDiv (kvBytes c.ch npos) (intake f)) (ceilDiv (npos * (16 * ceilDiv rows 16)) 64)
def jobCycles (c : LClass) (rows : Nat) : Nat :=
  64 + ceilDiv (rows * 2 * (32 * c.dk)) 256 + ceilDiv (rows * (4 * (32 * c.dv) + 8)) 256
/-- R177: the cycles of SELECT and of COMBINE's last sum for n tokens of a Courier. -/
def selectCycles (r : RouteRecord) (n : Nat) : Nat :=
  32 + n * ((if r.scoreFn = 0 then 2 else 1) * ceilDiv r.experts.length 64 + r.k + 8)
def combineCycles (r : RouteRecord) (n : Nat) : Nat :=
  32 + ceilDiv (n * r.k * combOf r + n * 4 * hiddenOf r * b2n r.shared) 1024
/-- The bytes that n rows can bring to one home's crossbar port: each row selects at most k of the experts that it hosts. -/
def portBytes (r : RouteRecord) (n unit : Nat) : Nat :=
  let homes := (r.experts.filter (·.valid)).map (fun e => e.pkgOrd * 16 + e.rgnOrd)
  n * unit * (homes.map (fun h => min r.k (homes.count h))).foldl max 0
/-- ns of bytes at a crossbar port: 1.6 TB/s at 1.5 GHz (Table 1-4). -/
def portNs (bytes f : Nat) : Nat := ceilDiv (bytes * 1500000) (1600000 * f)
/-- L in ns: 0.2 µs, and the link latency of the packages furthest apart, at least 150 ns for each hop (R177, R273). -/
def State.exchangeNs (s : State) (d : Dye) : Nat :=
  let slots := (s.pkgTable d).map (·.slot)
  200 + (match s.topology with
    | none => 0
    | some t => 150 * ((slots.flatMap (fun a => slots.map (fun b =>
        (List.range 10).findIdx (fun n => (topoReach t n [a]).contains b)))).foldl max 0))
/-- What a phase costs by its coefficients, for n rows and no page (R217). -/
def phaseCost (c : Nat × Nat × Nat × Nat) (n f : Nat) : Nat := ceilDiv ((c.1 + c.2.1 * n) * 1000) f + c.2.2.2
def cyclesNs (c f : Nat) : Nat := ceilDiv (c * 1000) f
/-- The layer group of a layer. -/
def groupAt : List CostGroup → Nat → Option CostGroup
  | [], _ => none
  | g :: gs, l => if l < g.ng then some g else groupAt gs (l - g.ng)
/-- A row prices a layer's exchange below R177 for n rows, of which some Courier holds at least its even part. -/
def State.exchangeBad (s : State) (d : Dye) (row : CostRow) (r : RouteRecord) (n f : Nat) : Bool :=
  match groupAt row.groups r.layer.toNat with
  | none => false
  | some g =>
    let co := fun (p : Nat) => g.phases.getD p (0, 0, 0, 0)
    let own := ceilDiv n (max 1 r.nsrc)
    let l := s.exchangeNs d
    decide (phaseCost (co 3) n f < cyclesNs (selectCycles r own) f) ||
    decide (phaseCost (co 4) n f < 2 * l + 200 + portNs (portBytes r n (dispOf r)) f) ||
    decide (phaseCost (co 6) n f < l + portNs (portBytes r n (combOf r)) f + cyclesNs (combineCycles r own) f)
/-- A row prices attention below R125: the least page, and the least job, of the image's layer classes. -/
def attentionCheap (lcs : List LClass) (row : CostRow) (f : Nat) : Bool :=
  lcs != [] && row.groups.any (fun g =>
    let c := g.phases.getD 1 (0, 0, 0, 0)
    decide (c.2.2.1 < (lcs.map (fun l => pageCycles l 1 256 f)).foldl min (2 ^ 32)) ||
    decide (c.1 + c.2.1 < (lcs.map (fun l => jobCycles l 1)).foldl min (2 ^ 32)))
/-- A cost row below a bound that follows from the image's tables alone. The bounds that follow from the programs (Table 3-6, bank
conflicts) are not worked out here: whether one fails is a free value (log entry 136). -/
def State.rowBad (s : State) (d : Dye) (i : Image) (shape : BitVec 16) (row : CostRow) : Bool :=
  let c := cfgIn (some i)
  let lcs := (i.sections.flatMap (fun x => match x.body with
    | .attention lc _ _ _ => (lc.filter (fun w => bitOf w 31)).map lclassWord
    | _ => []))
  decide (4000000000 < row.stepCap) || attentionCheap lcs row c.fMax ||
  (routesFor i row.lane shape).any (fun r => ([1, row.maxRows] : List Nat).any (fun n => ([c.fMin, c.fMax] : List Nat).any (fun f =>
    s.exchangeBad d row r n f)))

/-! Batch invariance (R237) -/

/-- Two trees of one collective of one layer must be chunked alike and have the same shape, in every bucket, shape and lane. -/
def treesDiffer (ts : List CollTree) : Bool :=
  ts.any (fun a => ts.any (fun b => a.op == b.op && a.layer == b.layer && (a.chunk != b.chunk || a.parents != b.parents)))
/-- The order in which a layer's contributions are combined (R43): the shared row, and the experts that a token may select. -/
def combinesDiffer (rs : List RouteRecord) : Bool :=
  rs.any (fun a => rs.any (fun b => a.layer == b.layer &&
    (a.shared != b.shared || a.k != b.k || a.experts.map (·.valid) != b.experts.map (·.valid))))
def allRoutes (i : Image) : List RouteRecord := i.sections.flatMap (fun x => match x.body with | .routes _ rs => rs | _ => [])
/-- R237. Splits have one count, SPLIT_PAGES, in the image. With BI_OFF = 1 nothing is compared (R49). Whether the programs of two sets
reduce a layer in the same chunks is not worked out here: a free value. -/
def invariantBad (i : Image) : Option Nat :=
  if (cfgIn (some i)).biOff then none
  else badSection i (fun b => match b with
    | .groups _ _ ts => treesDiffer ts
    | .routes _ _ => combinesDiffer (allRoutes i)
    | .coremap _ _ _ _ _ => Config.verdict 0x10E i.digest
    | _ => false)
def State.costBad (s : State) (d : Dye) (i : Image) : Option Nat :=
  match badSect i (fun x => match x.body with
    | .costs rows => rows.any (s.rowBad d i x.shape) || Config.verdict 0x0E i.digest
    | _ => false) with
  | some k => some k
  | none => invariantBad i
/-- Whether the package may be expected as master or backup master (R238): its strap, or one of the two lowest coordinates. -/
def State.mayLead (s : State) (t : Option Topology) : Bool :=
  s.bit .pkg PKG_STRAPS 6 || (match t with
    | none => false
    | some t => match coordOf t s.slot with
      | none => false
      | some c => decide ((t.coords.filter (fun e => decide (coordNo e.2 < coordNo c))).length < 2))
def State.resourceBad (s : State) (i : Image) : Option Nat :=
  badSection i (fun b => match b with
    | .ownership cs =>
      repeated (cs.map (fun c => match c with
        | .comparator sl n _ => (sl, n)
        | .tmx sl p _ => (sl, 64 + p.val))) ||
      cs.any (fun c => match c with
        | .tmx sl p _ => sl == s.slot && p == 3 && s.mayLead (topologyOf i)
        | .comparator _ n _ => decide (8 ≤ n))
    | _ => false)

/-! ### 0x10 SHAPE, 0x11 TOO_LARGE, 0x12 LIMITS -/

/-- Whether the die rule of R202 can hold for a shape on a package with regions on the given dies. -/
def dieRuleOk (regs : List RegionNo) (sh : Shape) : Bool :=
  let both := regs.any (fun r => r.val < 8) && regs.any (fun r => 8 ≤ r.val)
  !both || (decide (2 ≤ sh.prefillRgn) && decide (sh.prefillRgn + 2 ≤ sh.regions) &&
    decide (2 ≤ (regs.filter (fun r => r.val < 8)).length) && decide (2 ≤ (regs.filter (fun r => 8 ≤ r.val)).length))
def State.shapeBad (s : State) (d : Dye) (i : Image) : Option Nat :=
  let c := cfgIn (some i)
  let pkgs := s.pkgTable d
  let count := ((pkgs.head?).map (fun p => p.regions.length)).getD 0
  let listed := fun n => c.shapes.any (fun x => x.regions == count && x.prefillRgn == n)
  let serves := fun (k : Nat) (p : SectionBody → Bool) => i.sections.any (fun x => (x.shape.toNat == k || x.shape.toNat == 0xFFFF) && p x.body)
  let buckets := List.range (c.bucketsM1 + 1)
  let missing := fun (k : Nat) =>
    ([false, true] : List Bool).any (fun l =>
      !serves k (fun b => match b with | .routes q _ => q == l | _ => false) ||
      !serves k (fun b => match b with | .pools q _ => q == l | _ => false) ||
      buckets.any (fun bk => ([0, 1, 2] : List Nat).any (fun cl =>
        !serves k (fun b => match b with | .coremap q x y _ _ => q == l && x.toNat == cl && y == bk | _ => false) ||
        !serves k (fun b => match b with
          | .costs rs => rs.any (fun r => r.lane == l && r.cls.toNat == cl && r.bucket == bk)
          | _ => false)))) ||
    !serves k (fun b => match b with | .streams _ => true | _ => false)
  refuseIf (c.shapes == [] || !((List.range (c.prefillMax + 1 - c.prefillMin)).all (fun n => listed (c.prefillMin + n))) ||
    decide (count ≤ c.prefillMax) || decide (c.prefillMin = 0) || decide (c.prefillMax < c.prefillMin) ||
    c.shapes.any (fun sh => sh.regions == count && pkgs.any (fun p => !dieRuleOk p.regions sh)) ||
    (List.range c.shapes.length).any missing) (sectionOf i 0x10)
def imageLimit (d : Dye) : Nat := if d = 0 then 4 * 2 ^ 20 else 2 ^ 30
def tooLarge (d : Dye) (i : Image) : Option Nat :=
  let gs := (cfgIn (some i)).groups
  if imageLimit d < i.length then some 0xFF
  else refuseIf (isPart i && ((List.range 64).any (fun p => decide (65536 < ((gs.filter (fun g => bitOf g.pkgs p)).map (·.slots)).sum)) ||
    decide (262144 < (gs.map (·.slots)).sum))) (sectionOf i 0x10)
/-- The draft tree as ancestor masks: each node lists itself, and its parent's list and itself make up its own. -/
def treeBad (anc : List (BitVec 16)) : Bool :=
  let mask := fun (n : Nat) => if n = 0 then (1 : BitVec 16) else anc.getD (n - 1) 0
  let nodes := anc.length + 1 - ((anc.reverse.takeWhile (· == 0)).length)
  decide (15 < anc.length) || (List.range nodes).any (fun n =>
    !bitOf (mask n) n || decide (8 < ((List.range 16).filter (fun m => bitOf (mask n) m)).length - 1) ||
    (n != 0 && !((List.range n).any (fun p => mask n == (mask p ||| BitVec.ofNat 16 (2 ^ n))))))
def limitsBad (i : Image) : Option Nat :=
  let c := cfgIn (some i)
  let most := fun (cl : Nat) => if cl = 0 then max (1 + c.extra) 5 else if cl = 1 then 16 else 1
  if treeBad c.draftAnc || decide (4 < c.extra) then some (sectionOf i 0x10)
  else badSection i (fun b => match b with
    | .costs rows => rows.any (fun r => if r.lane then decide (r.maxRows < r.maxChunk) else decide (r.maxRows < most r.cls.toNat))
    | _ => false)

/-! ### The verdict -/

/-- The first class of Table 10-8, in its order, that refuses the image: code and section. -/
def State.verify (s : State) (d : Dye) (i : Image) : Option (Nat × Nat) :=
  let norla := ((s.partEntry d).map (fun e => e.mode == 1)).getD false
  let both : List (Nat × (Unit → Option Nat)) :=
    [(0x01, fun _ => s.formatBad d i), (0x02, fun _ => s.signatureBad d i), (0x03, fun _ => s.archBad i)]
  let sys : List (Nat × (Unit → Option Nat)) :=
    [(0x04, fun _ => badSection i (fun b => match b with | .topology t => topologyBad t | _ => false)),
     (0x05, fun _ => s.partitionBad d i),
     (0x06, fun _ => s.programBad d i),
     (0x0D, fun _ => weightsSectionBad i), (0x0F, fun _ => s.resourceBad i), (0x11, fun _ => tooLarge d i)]
  let part : List (Nat × (Unit → Option Nat)) :=
    [(0x05, fun _ => s.partitionBad d i),
     (0x06, fun _ => s.programBad d i), (0x07, fun _ => s.tileBad d i), (0x08, fun _ => s.bindingBad d i), (0x09, fun _ => windowBad i),
     (0x0A, fun _ => s.attentionBad d i), (0x0B, fun _ => s.routeSectionBad d i), (0x0C, fun _ => s.streamBad d i),
     (0x0D, fun _ => weightsSectionBad i), (0x0E, fun _ => s.costBad d i),
     (0x10, fun _ => if norla then none else s.shapeBad d i), (0x11, fun _ => tooLarge d i), (0x12, fun _ => limitsBad i)]
  (both ++ (if d = 0 then sys else part)).findSome? (fun e => (e.2 ()).map (fun k => (e.1, k)))

end Sys2Proof.Machine
end

