-- ==== Sys2Proof/Machine/Images.lean ====
section
/-! DEFINITION. Loading and installing structure images (R227 to R242). -/

namespace Sys2Proof.Machine

def codeBUSY : Nat := 0x20
def codeNOTFRONT : Nat := 0x21
def codeABORTED : Nat := 0x22
def codeLOST : Nat := 0x23
def codePOWER : Nat := 0x24

/-! ### Commands of the loader page (R239, R242) -/

def State.setImg (s : State) (d : Dye) (st : Nat) : State := s.wrP .pkg d PKG_IMG_D_STATUS (BitVec.ofNat 32 st)
/-- A package that may receive an image: for a partition image its front package, for a system image the master, once one is
elected. -/
def State.receives (s : State) (d : Dye) : Bool :=
  if d = 0 then s.master.isNone || s.master == some s.slot else (s.partEntry d).isSome && s.isFront d && !s.outOfSystem
/-- A LOAD taken from the registers of a page. -/
def State.loadImage (s : State) (d : Dye) : State :=
  let len := (s.rdP .pkg d PKG_IMG_D_LEN).toNat
  if s.loading d then s.setFld .pkg (pageOff d PKG_IMG_D_STATUS) 23 1 1
  else if d ≠ 0 ∧ (s.sessOf d ≠ [] ∨ s.items.any (fun i => i.dye == d)) then s.refuseLoad d codeBUSY none 0 0
  else if !s.receives d then s.refuseLoad d codeNOTFRONT none 0 0
  else if imageLimit d < len then s.refuseLoad d 0x11 none 0 0
  else
    let a := (s.rd64 .pkg (pageOff d PKG_IMG_D_ADDR_L)).toNat % 2 ^ 48
    let s1 := (s.setImg d 1).setLoad d { origin := true }
    ({ s1 with hostTx := s1.hostTx ++ [.read d (BitVec.ofNat 64 a) len] } : State).innFollow d
/-- LOAD: page d answers only its dye's virtual function, page 0 the management partition. -/
def State.pageAllows (s : State) (m : Master) (d : Dye) : Bool := if d = 0 then s.dyeOf m == 0 else m == .vf d
def execLoad (m : Master) (d : Dye) (s : State) : Out :=
  if !s.pageAllows m d then .next s.permissionError else .next ((s.loadImage d).answer [])
/-- ABORT: refused on every package before INSTALLING, ignored from then on. -/
def State.abortLoad (s : State) (d : Dye) : State :=
  let x := s.imgState d
  if 1 ≤ x ∧ x ≤ 3 then (s.stopLoad d codeABORTED none 0 0).releaseMoves.innFollow d else s
def execAbort (m : Master) (d : Dye) (s : State) : Out :=
  if !s.pageAllows m d then .next s.permissionError else .next ((s.abortLoad d).answer [])

/-! ### Fetch, copies and verdicts (R239) -/

/-- A dye entry that a system image changes or takes away belongs to a partition, or to one whose image loads (R241). -/
def State.entriesBusy (s : State) (i : Image) : Bool :=
  (List.finRange 16).any (fun d => d != 0 && (s.partEntry d).isSome && (entriesOf i).find? (fun e => e.dye == d) != s.partEntry d &&
    (s.partState d != 0 || s.loading d))
/-- IMAGE_FETCH_DONE: header, directory, CRCs and signature are checked; copies leave for every package concerned. -/
def State.distribute (s : State) (d : Dye) (img : Image) : State :=
  let me := s.loadName d
  match s.formatBad d img, s.signatureBad d img with
  | some k, _ => (s.stopLoad d 0x01 (some me) k 0).releaseMoves
  | _, some k => (s.stopLoad d 0x02 (some me) k 0).releaseMoves
  | none, none =>
    if d = 0 ∧ s.entriesBusy img then s.stopLoad d codeBUSY none 0 0
    else
      let s1 := (s.setLoad d { image := some img, origin := true }).setImg d 2
      let others := (s1.loadSlots d).filter (· ≠ s1.slot)
      { s1 with linkTx := s1.linkTx ++ others.map (fun sl => LinkOut.image sl img) }
def execImageFetchDone (d : Dye) (img : Image) (s : State) : Out :=
  if s.imgState d ≠ 1 ∨ !(s.loadOf d).origin then .next s else .next (s.distribute d img)
/-- A verdict at the receiving package: a refusal stops the load everywhere; the last acceptance sets T_act 1 ms ahead. -/
def State.takeReport (s : State) (d : Dye) (pkg : Nat) (code sect ofs : Nat) : State :=
  let l := s.loadOf d
  let x := s.imgState d
  if !l.origin ∨ !(x == 2 || x == 3) then s
  else if code ≠ 0 then (s.stopLoad d code (some pkg) sect ofs).releaseMoves.innFollow d
  else
    let l1 : LoadSt := { l with reports := if l.reports.contains pkg then l.reports else l.reports ++ [pkg] }
    let names := if d = 0 then (s.loadSlots d).map (·.val) else List.range (s.pkgTable d).length
    if names.all (fun n => l1.reports.contains n) then
      let at_ := s.now + 1000000
      let s1 := ((s.setLoad d { l1 with tAct := some at_ }).setImg d 4).armCmp 0 at_ (.tAct d)
      let others := (s1.loadSlots d).filter (· ≠ s1.slot)
      { s1 with linkTx := s1.linkTx ++ others.map (fun sl => LinkOut.control sl (.tAct d (BitVec.ofNat 64 at_))) }
    else s.setLoad d l1
/-- IMAGE_COPY: the package verifies its copy and reports. The byte offset of a refusal is a free value (log entry 4). -/
def execImageCopy (d : Dye) (img : Image) (s : State) : Out :=
  let l := s.loadOf d
  let mine := l.origin && l.image == some img
  if l.origin && !mine then .next s
  else
    let s1 := (if l.origin then s else s.setLoad d { image := some img }).setImg d 3
    let me := s.loadName d
    match s1.verify d img with
    | none =>
      if l.origin then .next (s1.takeReport d me 0 0 0)
      else
        let to_ := if d = 0 then s.master.getD s.slot else (s.slotOf d 0).getD s.slot
        .next { s1 with linkTx := s1.linkTx ++ [.innkeeper to_ 20 [d.val, me, 0, 0, 0]] }
    | some (code, sect) =>
      let dr := s1.draw
      let ofs := Config.freeNat dr.1 % 2 ^ 24
      if l.origin then .next (dr.2.takeReport d me code sect ofs)
      else
        let to_ := if d = 0 then s.master.getD s.slot else (s.slotOf d 0).getD s.slot
        let s2 := dr.2.refuseLoad d code (some me) sect ofs
        .next { s2 with linkTx := s2.linkTx ++ [.innkeeper to_ 20 [d.val, me, code, sect, ofs]] }
/-- IMAGE_VERIFY_REPORT. -/
def execImageVerifyReport (d : Dye) (pkg : Fin 64) (code : Byte) (sect : Byte) (ofs : Nat) (s : State) : Out :=
  .next (s.takeReport d pkg.val code.toNat sect.toNat ofs)

/-! ### Reports over MCTP (R22, R229, R355) -/

/-- What the night porter reports unasked, while it runs its firmware. -/
def State.report (s : State) (data : List Byte) : State :=
  if !s.npRuns || s.romOnly then s
  else { s with mgtTx := s.mgtTx ++ [{ event := true, path := { i3c := true }, data := data }] }

/-! ### Mastership (R23, R24, R238) -/

/-- MASTER_EN of a slot: this package's strap, or an unknown one (log entry 54). -/
def State.strapped (s : State) (sl : SlotNo) : Bool := if sl = s.slot then s.bit .pkg PKG_STRAPS 6 else Config.masterEn sl.val
def lowest (l : List (SlotNo × (Nat × Nat × Nat))) : Option SlotNo :=
  (l.foldl (fun (b : Option (SlotNo × (Nat × Nat × Nat))) e => match b with
    | none => some e
    | some q => if coordNo e.2 < coordNo q.2 then some e else some q) none).map (·.1)
/-- PPS takes TMX_OUT[3] on the master; a selection there is cut (R336). -/
def State.ppsOwner (s : State) : State :=
  if s.master = some s.slot then
    let s1 := (s.wr .tmx (TMX_SEL + 12) 0).wr .tmx (TMX_STATUS + 12) (BitVec.ofNat 32 (2 * 2 ^ 4 + 2 * 2 ^ 8))
    { s1 with tmx := tabSet (fun _ => {}) s1.tmx 3 {}, tmxOut := tabSet (fun _ => false) s1.tmxOut 3 false }
  else if s.fld .tmx (TMX_STATUS + 12) 8 2 = 2 then { (s.wr .tmx (TMX_STATUS + 12) 0) with ppsHigh := false } else s
/-- CNT_STATUS: MASTER, BACKUP, HOPS and PARENT by the present routes. The master's counter is the reference: it is LOCKED. -/
def State.cntFollow (s : State) : State :=
  let me := s.master == some s.slot
  let up := if me then none else s.master.bind s.nextLink
  let hops := if me then 0 else (s.master.bind s.hopsTo).getD 0
  let s1 := (s.setBit .cnt CNT_STATUS 2 me).setBit .cnt CNT_STATUS 3 (s.backup == some s.slot)
  let s2 := (s1.setFld .cnt CNT_STATUS 8 4 hops).setFld .cnt CNT_STATUS 12 3 ((up.map (fun l => l.val)).getD 7)
  if me then
    (let s3 : State := { (s2.setFld .cnt CNT_STATUS 0 2 2) with treatedAsLost := false }
     if s.fld .cnt CNT_STATUS 0 2 < 2 then s3.rearmAll else s3)
  else s2
/-- The election over the packages that are still there. -/
def State.electFrom (s : State) (ok : SlotNo → Bool) : State :=
  match s.topology with
  | none => { s with master := none, backup := none }
  | some t =>
    let all := t.coords.filter (fun e => ok e.1)
    let strapped := all.filter (fun e => s.strapped e.1)
    let m := lowest (if strapped = [] then all else strapped)
    let s1 : State := { s with master := m, backup := lowest (all.filter (fun e => some e.1 != m)), lostMastership := false,
                               masterLostAt := 0, tookOverAt := 0, exMasters := [],
                               fabTxc := s.fabTxc.filter (fun e => e.1 % 16 != 0), fabRxTxc := s.fabRxTxc.filter (fun e => e.1 % 16 != 0),
                               fabKey := if m = some s.slot then s.fabKey + 1 else s.fabKey }
    let s2 := if 2 ≤ strapped.length ∧ s.strapped s.slot then s1.info 0 [0x23] else s1
    s2.cntFollow.ppsOwner
def State.elect (s : State) : State := s.electFrom (fun _ => true)
/-- This package takes mastership over as backup: from its own counter value, with its copy of the master's synchronisation state. -/
def State.takeSync (s : State) : State :=
  match s.syncCopy with
  | some v => if s.master = some s.slot then (s.wr64 .cnt CNT_WALL_OFS_L v).setBit .cnt CNT_STATUS 4 true else s
  | none => s

/-! ### Installation (R232, R234, R240, R241) -/

/-- What changes only at a system reset or re-cabling event (R241). -/
def wiring (i : Image) : List SectionBody :=
  (i.sections.filter (fun x => [0x01, 0x04, 0x05].contains x.type.toNat)).map (·.body)
def withWiring (new old : Image) : Image :=
  { new with sections := new.sections.filter (fun x => !([0x01, 0x04, 0x05].contains x.type.toNat)) ++
      old.sections.filter (fun x => [0x01, 0x04, 0x05].contains x.type.toNat) }
/-- The power of one region at f in 1/12000 W, in which the line between two points of Table 14-5 is exact on the 25 MHz grid. -/
def regionUnits (f : Nat) : Nat :=
  let pts : List (Nat × Nat × Nat × Nat) := [(600, 27, 900, 48), (900, 48, 1200, 76), (1200, 76, 1500, 109), (1500, 109, 1800, 155)]
  match pts.find? (fun p => decide (f ≤ p.2.2.1)) with
  | some p => p.2.1 * 12000 + (p.2.2.2 - p.2.1) * 12000 * (f - p.1) / (p.2.2.1 - p.1)
  | none => 155 * 12000
/-- PWR_FLOOR in W (R316); a fraction counts as a whole watt. -/
def State.floorW (s : State) : Nat :=
  let units := (((List.finRange 16).filter (fun d => d != 0 && (s.image d).isSome)).map (fun d =>
    (s.regionsOf d).length * regionUnits (s.cfg d).fMin)).sum
  650 + (units + 11999) / 12000
def State.floorFollow (s : State) : State :=
  let s1 := s.setFld .pwr PWR_FLOOR 0 12 s.floorW
  s1.setBit .pwr PWR_STATUS 3 (decide (s1.fld .pwr PWR_CAP 0 12 < s.floorW))
/-- A partition comes to be on this package: its regions, key slots, minimums and share (R234). -/
def State.createPart (s : State) (es : List PartEntry) (e : PartEntry) : State :=
  match e.packages.find? (fun p => p.slot == s.slot) with
  | none => s
  | some p =>
    let d := e.dye
    let s1 := (List.zipIdx p.regions).foldl (fun (t : State) x =>
      if t.owner x.1 = 0 ∧ x.1 ∉ t.failedRgns then t.setOwner x.1 d x.2 else t) s
    let s2 := (s1.keySlots d true).wr .pkg (PKG_PART_STATUS + 4 * d.val)
      (BitVec.ofNat 32 (1 + b2n (e.mode == 1) * 2 ^ 3 + b2n (movePackage es s.slot) * 2 ^ 9))
    let s3 := (List.range 4).foldl (fun (t : State) k => t.wrP .tier d (TIER_D_MIN + 4 * k) (BitVec.ofNat 32 (minOf e k))) s2
    (s3.partFollow d).tierFollow
/-- REGULATORS and the Drover shares. -/
def State.setRates (s : State) (i : Image) : State :=
  let rs := i.sections.flatMap (fun x => match x.body with | .regulators rs => rs | _ => [])
  let wins : List Win := (List.finRange 8).map Win.hbm ++ (List.finRange 6).map Win.tlk ++ (List.finRange 2).map Win.eth ++ [.pci] ++
    (List.finRange 2).map Win.noc
  let s1 := wins.foldl (fun (t : State) w => (List.finRange 16).foldl (fun (u : State) d =>
    let r := rs.find? (fun q => q.win == w && q.dye == d)
    u.wr w (0xF000 + d.val * 0x20 + RGL_D_CFG) (BitVec.ofNat 32 (((r.map (·.rate)).getD 0) % 2 ^ 9 + ((r.map (·.burst)).getD 0) % 2 ^ 16 * 2 ^ 16))) t) s
  (List.finRange 8).foldl (fun (t : State) e => (List.finRange 16).foldl (fun (u : State) d =>
    u.wr (.drv e) (DRV_SHARE + 4 * d.val)
      (BitVec.ofNat 32 ((((entriesOf i).find? (fun q => q.dye == d)).map (·.share)).getD 0))) t) s1
/-- TOPOLOGY, TIERS and OWNERSHIP come into force: TIER_CFG, the spare comparators, the claimed pins, mastership. -/
def State.applyWiring (s : State) : State :=
  let i := s.sysImage.getD default
  let claims := i.sections.flatMap (fun x => match x.body with | .ownership cs => cs | _ => [])
  let s1 := match s.tierEntry with
    | some t => s.wr .tier TIER_CFG t.tierCfg
    | none => s
  let s2 : State := { s1 with cmps := (List.range 8).foldl (fun (t : Tab Cmp) n =>
    let old := tabGet cmpReset t (56 + n)
    tabSet cmpReset t (56 + n) { old with owner := (s.spareClaim (56 + n)).getD (if old.armed then old.owner else 3) }) s1.cmps }
  let s3 := (List.range 4).foldl (fun (t : State) n =>
    let own := claims.any (fun c => match c with | .tmx sl p _ => sl == s.slot && p.val == n | _ => false)
    t.setFld .tmx (TMX_STATUS + 4 * n) 8 2 (b2n own)) s2
  s3.elect
def digestWords (x : Digest) : List Word32 := (List.range 12).map (fun k => BitVec.ofNat 32 (bitsOf x (32 * (11 - k)) 32))
/-- PKG_IMG_D_GEN and PKG_IMG_D_DIGEST describe the active image. -/
def State.describe (s : State) (d : Dye) (i : Image) (st : Nat) : State :=
  ((s.wrP .pkg d PKG_IMG_D_GEN i.generation).wrList .pkg (pageOff d PKG_IMG_D_DIGEST) (digestWords i.digest)).setImg d st
/-- A system image installed. Where one is active, changed wiring waits, and the image is PENDING. -/
def State.installSystem (s : State) (img : Image) : State :=
  let waits := match s.sysImage with
    | none => false
    | some o => wiring o != wiring img
  let eff := match s.sysImage with
    | some o => if waits then withWiring img o else img
    | none => img
  let before := s.partEntries
  let first := s.sysImage.isNone
  let s1 : State := { s with sysImage := some eff, norOlder := if s.norImage = some img then s.norOlder else s.norImage,
                             norImage := some img, norAt := if s.norImage = some img then s.norAt else s.now + 1,
                             pendingSys := if waits then some img else none,
                             genFloor := natSet s.genFloor 0 img.generation.toNat }
  let fresh := (entriesOf img).filter (fun e => !before.contains e)
  let s2 := fresh.foldl (fun (t : State) e => t.createPart (entriesOf img) e) s1
  let s3 := s2.setRates img
  let s4 := if first then s3.applyWiring else s3
  if waits then s4.setImg 0 7 else s4.describe 0 img 5

/-- The image laid out in the image area: records, tables and scale records at the offsets of their sections. -/
def expertBytes (base : Nat) (e : ExpertEntry) : List Byte :=
  leBytes (e.pkgOrd % 64 + e.rgnOrd % 16 * 2 ^ 6 + b2n e.valid * 2 ^ 15 + e.cap % 2 ^ 16 * 2 ^ 16 +
    (base + e.inAddr.toNat) % 2 ^ 48 * 2 ^ 32 + (base + e.outAddr.toNat) % 2 ^ 48 * 2 ^ 80 + e.stream.toNat * 2 ^ 128) 32
def routeBytes (base : Nat) (r : RouteRecord) : List Byte :=
  let n := r.experts.length
  leBytes (r.magic.toNat + r.version.toNat * 2 ^ 16 + (n - 1) % 2 ^ 9 * 2 ^ 24 + (r.k - 1) % 16 * 2 ^ 33 + r.scoreFn.toNat * 2 ^ 37 +
    b2n r.norm * 2 ^ 39 + b2n r.shared * 2 ^ 40 + r.layer.toNat * 2 ^ 48 + r.gateScale.toNat * 2 ^ 64 +
    r.dispUnits % 2 ^ 16 * 2 ^ 96 + r.hBlk % 2 ^ 9 * 2 ^ 112 + b2n r.combFmt * 2 ^ 121 + r.nsrc % 2 ^ 11 * 2 ^ 128) 64 ++
  takePad 0 (biasBytes n) (r.experts.flatMap (fun e => leBytes e.bias.toNat 4)) ++ r.experts.flatMap (expertBytes base)
/-- A stream entry with its source and CRC places relocated. -/
def relocated (base : Nat) (x : Word512) : Word512 :=
  putBits (putBits x 64 48 (base + bitsOf x 64 48)) 256 48 (base + bitsOf x 256 48)
def sectionBytes (base : Nat) : SectionBody → List Byte
  | .routes l rs => takePad 0 64 (leBytes (b2n l) 1) ++ rs.flatMap (routeBytes base)
  | .streams ts => ts.flatMap (fun t => t.2.flatMap (fun x => leBytes (relocated base x).toNat 64))
  | .attention _ _ _ rs => rs.flatMap (fun r => leBytes (r.layer.toNat + r.channels * 2 ^ 16 + r.sideScale.toNat * 2 ^ 32 +
      r.threshold.toNat * 2 ^ 64 + r.sideFmt.toNat * 2 ^ 96) 64 ++ r.scales.flatMap (fun x => leBytes x.toNat 4))
  | _ => []
def State.freeArea (s : State) (d : Dye) : State :=
  let s1 := match tabGet (fun _ => none) s.imgArea d.val with
    | none => s
    | some (b, n) => (List.range n).foldl (fun (t : State) i => t.freeFrame (b + i)) s
  let p := natGet s1.planArea d.val
  let s2 := if p = 0 then s1 else
    (List.range 6).foldl (fun (t : State) i => t.freeFrame ((p - 0x10000000000) / 65536 + i)) s1
  { s2 with imgArea := tabSet (fun _ => none) s2.imgArea d.val none, planArea := natSet s2.planArea d.val 0 }
/-- The overflow pools of an image on a package, as offset and bytes: an input place of the largest row that the image's records
dispatch for each pool row, and an output place likewise (R173). -/
def poolSpans (img : Image) (pkg : Nat) : List (Nat × Nat) :=
  let recs := img.sections.flatMap (fun x => match x.body with | .routes _ rs => rs | _ => [])
  let disp := (recs.map dispOf).foldl max 0
  let comb := (recs.map combOf).foldl max 0
  img.sections.flatMap (fun x => match x.body with
    | .pools _ ps => (ps.filter (fun p => p.1 / 16 == pkg)).flatMap (fun p =>
        [(p.2.2.1.toNat, p.2.1 * disp), (p.2.2.2.toNat, p.2.1 * comb)])
    | _ => [])
/-- The area of an image: its sections, and the pools behind them, whose frames are of KIND 4. -/
def State.layArea (s : State) (d : Dye) (img : Image) : State :=
  let die := ((s.diesOf d).head?).getD 0
  let pools := poolSpans img (s.pkgOrd d)
  let n := (pools.map (fun p => p.1 + p.2)).foldl max img.length / 65536 + 1
  let a := (s.freeArea d).takeRun d die n 1
  match a.1 with
  | none => a.2
  | some b =>
    let s0 := pools.foldl (fun (t : State) p => (List.range ((p.1 + p.2 + 65535) / 65536 - p.1 / 65536)).foldl (fun (u : State) i =>
      let f := b + p.1 / 65536 + i
      u.setFrame f { (u.frame f) with kind := 4 }) t) a.2
    let s1 : State := { s0 with imgArea := tabSet (fun _ => none) s0.imgArea d.val (some (b, n)) }
    let base := 0x10000000000 + b * 65536
    let s2 := img.sections.foldl (fun (t : State) x =>
      let bs := sectionBytes base x.body
      if bs = [] then t else t.hbmWrite (b * 65536 + x.offset) bs) s1
    let p := s2.takeRun d die 6 1
    match p.1 with
    | none => p.2
    | some f => { p.2 with planArea := natSet p.2.planArea d.val (0x10000000000 + f * 65536) }
/-- ATP_LCLASS, ATP_CFG and COU_CFG of a region. -/
def State.regionCfg (s : State) (img : Image) (r : RegionNo) : State :=
  let c := cfgIn (some img)
  let att := img.sections.findSome? (fun x => match x.body with | .attention lc sp _ _ => some (lc, sp) | _ => none)
  let s1 := match att with
    | none => s
    | some (lc, sp) => (s.wrList (.atp r) ATP_LCLASS (takePad 0 16 lc)).wr (.atp r) ATP_CFG
        (BitVec.ofNat 32 (b2n c.appendSr + sp % 2 ^ 14 * 2 ^ 16))
  s1.setBit (.cou r) COU_CFG 0 c.degraded
/-- Weight sets whose entry is not the same in both images become EMPTY (R240). -/
def weightsOf (i : Option Image) : List WeightEntry :=
  (imageSections i).flatMap (fun x => match x.body with | .weights ws => ws | _ => [])
def State.dropWeights (s : State) (d : Dye) (img : Image) : State :=
  let old := weightsOf (s.image d)
  let new := weightsOf (some img)
  (List.range 16).foldl (fun (t : State) w =>
    if old.find? (fun e => e.wset.val == w) = new.find? (fun e => e.wset.val == w) then t else t.emptyWset d w) s
def State.installPart (s : State) (d : Dye) (img : Image) : State :=
  let s1 := (s.dropWeights d img).dropToken d
  let pre := prefillOf (s1.regionsOf d) (if s1.isNorla d then 0 else (cfgIn (some img)).prefillMin)
  let s2 : State := { s1 with images := tabSet (fun _ => none) s1.images d.val (some img),
                              genFloor := natSet s1.genFloor d.val img.generation.toNat,
                              barriers := tabClear s1.barriers (d.val * 4096) ((d.val + 1) * 4096),
                              prefillLane := (s1.regionsOf d).foldl (fun (t : Tab Bool) r =>
                                tabSet (fun _ => false) t r.val (pre.contains r)) s1.prefillLane,
                              progSet := (s1.regionsOf d).foldl (fun (t : Tab Nat) r => natSet t r.val 0) s1.progSet }
  let s3 := (s2.layArea d img).shapeFollow d
  let s4 := (s3.regionsOf d).foldl (fun (t : State) r => t.regionCfg img r) s3
  let f := (cfgIn (some img)).fMax
  let s5 := s4.wrP .inn d INN_D_FREQ (BitVec.ofNat 32 f)
  let s6 := ((s5.regionsOf d).filter s5.rgnActive).foldl (fun (t : State) r => t.setRgnFreq r f) s5
  let s7 := ((s6.describe d img 5).floorFollow).innFollow d
  if s7.isFront d ∧ !s7.isNorla d then s7.postEventRec d 4 0 else s7
/-- IMAGE_INSTALL: at T_act the image is installed and becomes ACTIVE. -/
def execImageInstall (d : Dye) (s : State) : Out :=
  let l := s.loadOf d
  match l.image, l.tAct with
  | some img, some at_ =>
    if s.imgState d ≠ 4 ∨ s.now < at_ then .next s
    else
      let s1 := (s.setLoad d {}).disarm (fun w => w == .tAct d)
      let s2 := if d = 0 then s1.installSystem img else s1.installPart d img
      .next s2.releaseMoves
  | _, _ => .next s
end Sys2Proof.Machine
end

