-- ==== Sys2Proof/Machine/Ledger.lean ====
section
/-! DEFINITION. The Ledger: folding, commits and records (R324 to R330, R338), snapshots (R331, R332), error injection
(R334), the test multiplexer (R335, R336) and PPS (R280). -/

namespace Sys2Proof.Machine

/-! ### Folding (R327) -/

/-- Whether a FAULT record is CONFIRMED (R330). -/
def State.confirms (s : State) (e : LedgerEvent) : Bool :=
  let d := e.detector.toNat
  !e.injected && e.type == 1 && (d == 0x06 || d == 0x05 || (d == 0x15 && e.severity == 4) ||
    (match e.core with
      | some p =>
        let c : CoreId := { region := e.region, pos := p }
        let w := e.detail.getD 0 0
        ((d == 0x02 || d == 0x04) && natGet s.ueSeen (wordKey c w) == 3) || (d == 0x0A && natGet s.ueSeen (accUeKey c (8 * w)) == 3) ||
        (d == 0x08 && natGet s.ueSeen (istoreUeKey c w) == 3)
      | none => false))
def State.newRec (s : State) (e : LedgerEvent) : LdgRec :=
  { type := e.type, detector := e.detector, dye := e.dye, severity := e.severity, region := e.region, core := e.core,
    lcoord := e.lcoord, injected := e.injected, confirmed := s.confirms e, time := s.now, detail := e.detail }
/-- One event leaves ingress: into the open record of its kind, or a new one; a full table commits its oldest; severity 3 and
up is committed at once. -/
def State.fold1 (s : State) (e : LedgerEvent) : State :=
  let sure := s.confirms e
  let opened := s.ldgOpen.any (fun r => sameKind r e)
  let s1 : State := if opened then
      { s with ldgOpen := (foldOpen s.now e s.ldgOpen).map (fun r => if sure && sameKind r e then { r with confirmed := true } else r) }
    else if s.ldgOpen.length < 256 then { s with ldgOpen := s.ldgOpen ++ [s.newRec e] }
    else { s with ldgCommit := s.ldgCommit ++ s.ldgOpen.take 1, ldgOpen := s.ldgOpen.drop 1 ++ [s.newRec e] }
  if e.severity < 3 then s1
  else { s1 with ldgCommit := s1.ldgCommit ++ s1.ldgOpen.filter (fun r => sameKind r e),
                 ldgOpen := s1.ldgOpen.filter (fun r => !sameKind r e) }
/-- The ingress queue drains into the open records. -/
def State.foldAll (s : State) : State :=
  s.ldgIngress.foldl State.fold1 { s with ldgIngress := [] }
/-- A histogram and its extreme as records. -/
def histRec (now : Nat) (h : HistRec) : List LdgRec :=
  let r : LdgRec := { type := 2, detector := 0, dye := h.dye, severity := 0, lcoord := BitVec.ofNat 16 h.unit, time := h.firstAt,
                      last := min ((now - h.firstAt) / 1000) 0xFFFFFFFF, count := min h.buckets.sum 0xFFFFFFFF, detail := h.buckets }
  [r, { r with type := 3, detail := [h.lo, h.hi] }]

/-! ### Records as bytes (Table 15-3). DETAIL holds a FAULT's numbers as 64-bit values, a histogram's buckets as 16-bit ones
(log entry 57) -/

def LdgRec.word (r : LdgRec) : Nat :=
  let w := if r.type = 2 then 16 else 64
  let detail := (List.zipIdx r.detail).foldl (fun a p => a + p.1 % 2 ^ w * 2 ^ (w * p.2)) 0 % 2 ^ 256
  r.seq % 2 ^ 32 + r.type.toNat * 2 ^ 32 + r.dye.val * 2 ^ 36 + r.severity % 8 * 2 ^ 40 + b2n r.injected * 2 ^ 43 +
  b2n r.confirmed * 2 ^ 44 + r.detector.toNat * 2 ^ 48 + r.time % 2 ^ 64 * 2 ^ 64 + r.count % 2 ^ 32 * 2 ^ 128 +
  r.last % 2 ^ 32 * 2 ^ 160 + r.region.val * 2 ^ 192 + ((r.core.map (·.val)).getD 0) * 2 ^ 196 + b2n r.core.isSome * 2 ^ 202 +
  r.lcoord.toNat * 2 ^ 208 + detail * 2 ^ 224
def LdgRec.bytes (r : LdgRec) : List Byte :=
  let b := leBytes r.word 60
  b ++ leBytes (crc32c b).toNat 4

/-! ### Commits (R325, R328) -/

def ringSize : Nat := 245760
def persistSize : Nat := 16384
/-- ALERT_N and LDG_STATUS.ALERT: a held record at or above the level that is not acknowledged. -/
def State.alertFollow (s : State) : State :=
  s.setBit .ldg LDG_STATUS 2 (s.ldgRing.any (fun r => decide (s.ldgAcked ≤ r.seq) && decide (s.fld .ldg LDG_ALERT_LVL 0 3 ≤ r.severity)))
def State.headFollow (s : State) : State :=
  (s.wr .ldg LDG_HEAD (BitVec.ofNat 32 ((s.ldgRing.getLast?.map (·.seq)).getD 0))).wr .ldg LDG_TAIL
    (BitVec.ofNat 32 ((s.ldgRing.head?.map (·.seq)).getD 0))
/-- A record is written. One at or above LDG_ALERT_LVL is a platform event of the night porter too (R355). -/
def State.commit (s : State) (r0 : LdgRec) : State :=
  let r : LdgRec := { r0 with seq := s.ldgSeq }
  let full := decide (persistSize ≤ s.ldgPersist.length)
  let s1 : State := { s with ldgSeq := s.ldgSeq + 1, ldgAt := s.now + 1, ldgRing := (s.ldgRing ++ [r]).drop (s.ldgRing.length + 1 - ringSize),
                             ldgPersist := if r.confirmed && !full then s.ldgPersist ++ [r] else s.ldgPersist }
  let s2 := ((if r.confirmed && full then s1.setBit .ldg LDG_STATUS 3 true else s1).headFollow).alertFollow
  let s3 := s2.pulse 6 (fun arg => decide (arg ≤ r.severity))
  if s.fld .ldg LDG_ALERT_LVL 0 3 ≤ r.severity then s3.report r.bytes else s3
/-- What is committed next: first the records that wait, then, in a power warning, the open ones. -/
def State.nextCommit (s : State) : Option (LdgRec × State) :=
  match s.ldgCommit with
  | r :: rs => some (r, { s with ldgCommit := rs })
  | [] =>
    if !s.ldgClosed then none
    else match s.ldgOpen with
      | r :: rs => some (r, { s with ldgOpen := rs })
      | [] => none
/-- The scan of the ring has ended (R328). -/
def State.ldgReady (s : State) : State := s.setBit .ldg LDG_STATUS 0 true
/-- FROZEN is set once a power warning has nothing left to commit (R338). -/
def State.freeze (s : State) : State :=
  if s.ldgClosed && s.ldgCommit == [] && s.ldgOpen == [] && s.ldgIngress == [] then s.setBit .ldg LDG_STATUS 1 true else s
/-- The MRAM takes a record 2 µs after the one before, 1 µs in a power warning (R328). -/
def State.mramFree (s : State) : Bool := s.ldgAt == 0 || decide (s.ldgAt + (if s.ldgClosed then 1000 else 2000) ≤ s.now + 1)
/-- RECORD_COMMIT: a record is written, its CRC word last, and read back; one that fails is written again at the next slot. -/
def execRecordCommit (readBack : Bool) (s : State) : Out :=
  if s.bit .ldg LDG_STATUS 1 ∨ !s.mramFree then .next s
  else
    match s.nextCommit with
    | none => .next s.freeze
    | some (r, t) =>
      if readBack then .next (t.commit r).freeze
      else
        let t1 : State := { t with ldgCommit := r :: t.ldgCommit, ldgAt := s.now + 1 }
        .next ((t1.bump .ldg LDG_LOST).detectUnit 0x2C 0 0)
/-- LEDGER_PERIOD: open records and histograms go to be committed. -/
def execLedgerPeriod (s0 : State) : Out :=
  if s0.ldgClosed then .next s0
  else
    let s := s0.foldAll
    .next { s with ldgCommit := s.ldgCommit ++ s.ldgOpen ++ s.ldgHist.flatMap (histRec s.now), ldgOpen := [], ldgHist := [] }
/-- ALERT_ACK: every record up to LDG_HEAD; one committed in the same cycle is not acknowledged (R325, log entry 37). -/
def execAlertAck (m : Master) (s : State) : Out :=
  if s.dyeOf m ≠ 0 then .next s.permissionError
  else
    let upTo := if s.ldgAt = s.now + 1 then s.ldgSeq - 1 else s.ldgSeq
    .next (({ s with ldgAcked := max s.ldgAcked upTo } : State).alertFollow.answer [])

/-! ### Reading records (R329, R340) -/

def recWords (r : Option LdgRec) : List Word32 :=
  match r with
  | none => List.replicate 16 0
  | some r => (List.range 16).map (fun k => BitVec.ofNat 32 (leNat ((r.bytes.drop (4 * k)).take 4)))
/-- LDG_REC_LOAD: the record at LDG_REC_IDX, and the index advances; word 0 is returned. -/
def execLdgRecLoad (m : Master) (s : State) : Out :=
  if s.dyeOf m ≠ 0 then .next s.permissionError
  else
    let idx := s.rd .ldg LDG_REC_IDX
    let ws := recWords (s.ldgRing.find? (fun r => r.seq % 2 ^ 32 == idx.toNat))
    let s1 := (s.wrList .ldg LDG_REC ws).wr .ldg LDG_REC_IDX (idx + 1)
    .next (s1.answer (leBytes (ws.getD 0 0).toNat 4))
/-- LDG_D_REC_LOAD: the next record of the dye at or after its index, or zeros. -/
def execLdgDRecLoad (m : Master) (d : Dye) (s : State) : Out :=
  if s.dyeOf m ≠ d ∧ s.dyeOf m ≠ 0 then .next (s.answer [0, 0, 0, 0])
  else
    let idx := (s.rdP .ldg d LDG_D_REC_IDX).toNat
    let r := s.ldgRing.find? (fun r => r.dye == d && decide (idx ≤ r.seq))
    let ws := recWords r
    let s1 := s.wrList .ldg (pageOff d LDG_D_REC) ws
    let s2 := match r with | some x => s1.wrP .ldg d LDG_D_REC_IDX (BitVec.ofNat 32 (x.seq + 1)) | none => s1
    .next (s2.answer (leBytes (ws.getD 0 0).toNat 4))

/-! ### Snapshots (R331, R332) -/

def snapReset (_ : Nat) : SnapSt := {}
def snapKey (mgmt : Bool) (d : Dye) : Nat := if mgmt then 0 else d.val + 1
def State.snap (s : State) (k : Nat) : SnapSt := tabGet snapReset s.snaps k
def State.setSnap (s : State) (k : Nat) (x : SnapSt) : State := { s with snaps := tabSet snapReset s.snaps k x }
/-- The base offset of a scope's snapshot registers. -/
def snapBase (k : Nat) : Nat := if k = 0 then LDG_SNAP_AT_L else pageOff (Fin.ofNat 16 (k - 1)) LDG_D_SNAP_AT_L
def snapStatus (k : Nat) : Nat := snapBase k + 0xC
def snapWhat (k : Nat) : CalWhat := if k = 0 then .snapMgmt else .snapDye (Fin.ofNat 16 (k - 1))
/-- A snapshot armed here for a value; one that has passed fires at once with LATE. -/
def State.armSnap (s : State) (k : Nat) (value : Nat) : State :=
  let s1 := s.setSnap k { armed := true, value := value }
  let s2 := (s1.setFld .ldg (snapStatus k) 0 2 1).setFld .ldg (snapStatus k) 2 6 (b2n (decide (value < s.now)))
  (s2.wr .ldg (snapBase k + 0x10) 0).armCmp 2 value (snapWhat k)
/-- The packages of a scope. -/
def State.snapSlots (s : State) (k : Nat) : List SlotNo :=
  if k = 0 then ((s.topology.map (fun t => t.coords.map (·.1))).getD []).filter (· ≠ s.slot) else s.peers (Fin.ofNat 16 (k - 1))
def State.pushSnap (s : State) (k : Nat) (sys : Bool) : State :=
  let t := (s.rd64 .ldg (snapBase k)).toNat
  let d : Dye := Fin.ofNat 16 (k - 1)
  if (s.snap k).armed then s.setFld .ldg (snapStatus k) 4 4 1
  else
    let code := if t < s.now + (if sys then 30000 else 2000) then 2 else if s.now + 10000000000 < t then 3
      else if k ≠ 0 ∧ sys ∧ !s.isFront d then 4 else 0
    if code ≠ 0 then (s.setFld .ldg (snapStatus k) 0 2 3).setFld .ldg (snapStatus k) 4 4 code
    else
      let s1 := s.armSnap k t
      if !sys then s1
      else { s1.setSnap k { s1.snap k with waits := s1.snapSlots k } with linkTx := s1.linkTx ++ (s1.snapSlots k).map (fun sl =>
        LinkOut.control sl (.snapshot (BitVec.ofNat 64 t) (if k = 0 then 0 else d))) }
/-- SNAPSHOT_PUSH: the management scope. -/
def execSnapshotPush (m : Master) (sys : Bool) (s : State) : Out :=
  if s.dyeOf m ≠ 0 then .next s.permissionError else .next ((s.pushSnap 0 sys).answer [])
/-- DYE_SNAPSHOT_PUSH: page d answers dye d and the management partition. -/
def execDyeSnapshotPush (m : Master) (d : Dye) (sys : Bool) (s : State) : Out :=
  if s.dyeOf m ≠ d ∧ s.dyeOf m ≠ 0 then .next s.permissionError else .next ((s.pushSnap (snapKey false d) sys).answer [])
def regulatedWins : List Win :=
  (List.finRange 8).map Win.hbm ++ (List.finRange 6).map Win.tlk ++ (List.finRange 2).map Win.eth ++ [.pci] ++
    (List.finRange 2).map Win.noc
/-- One regulator entry into its shadows; RGL_SHD_SEQ counts for each dye (R331), the dye's count kept behind it. -/
def State.shadowRgl (s : State) (w : Win) (d : Dye) : State :=
  let o := 0xF000 + d.val * 0x20
  (s.wrList w (o + RGL_D_KIB_SHD) (s.rdList w (o + RGL_D_KIB) 2)).bump w (RGL_SHD_SEQ + 4 + 4 * d.val)
/-- The management scope: the package blocks and every regulator entry. -/
def State.captureMgmt (s : State) : State :=
  let s1 := (List.finRange 8).foldl (fun (t : State) h => t.shadow (.hbm h) HBM_ECC_CE HBM_SHD HBM_SHD_SEQ 3) s
  let s2 := (List.finRange 6).foldl (fun (t : State) l => t.shadow (.tlk l) TLK_FEC_CORR TLK_SHD TLK_SHD_SEQ 5) s1
  let s3 := (List.finRange 2).foldl (fun (t : State) p => t.shadow (.eth p) ETH_FEC_CORR ETH_SHD ETH_SHD_SEQ 3) s2
  let s4 := (s3.shadow .smf SMF_TIMEOUTS SMF_SHD SMF_SHD_SEQ 3).shadow .tier TIER_FREE TIER_SHD TIER_SHD_SEQ 6
  let s5 := (List.finRange 8).foldl (fun (t : State) e => t.shadow (.drv e) DRV_EVT_KIB_STORED DRV_SHD DRV_SHD_SEQ 4) s4
  regulatedWins.foldl (fun (t : State) w => ((List.finRange 16).foldl (fun (u : State) d => u.shadowRgl w d) t).bump w RGL_SHD_SEQ) s5
/-- The region summary (R326). -/
def RGN_LDG_SUM_SEQ : Nat := 0x400
def State.summary (s : State) (r : RegionNo) : State :=
  let sum := fun (f : CoreSt → Word32) => (allCores r).foldl (fun (a : Word32) c => a + f (s.core c)) 0
  let v := [sum (·.evInvalid), sum (·.evOverflow), sum (·.evSaturate), sum (·.evNanBlock), s.rd (.spd r) SPD_ECC_CE, s.rd (.spd r) SPD_ECC_UE] ++
    s.rdList (.atp r) ATP_EVT_MALFORMED 6 ++ s.rdList (.cou r) COU_EVT_TOKENS 3 ++ s.rdList (.cou r) COU_EVT_DROPS 3
  (s.wrList (.rgn r) (RGN_LDG_SUM_SEQ + 4) v).bump (.rgn r) RGN_LDG_SUM_SEQ
def CoreSt.shadowed (k : CoreSt) : CoreSt :=
  { k with shdSeq := k.shdSeq + 1,
           shd := [(0, k.evInvalid), (1, k.evOverflow), (2, k.evSaturate), (3, k.evNanBlock), (4, k.stallRemote), (5, k.stallLocal)].filter
             (fun e => decide (e.2 ≠ (0 : Word32))) }
/-- A region's units into their shadows. -/
def State.captureRegion (s : State) (r : RegionNo) : State :=
  let s1 := (allCores r).foldl (fun (t : State) c => t.onCore c CoreSt.shadowed) s
  let s2 := (s1.wrList (.spd r) SPD_ECC_CE_SHD (s1.rdList (.spd r) SPD_ECC_CE 2)).bump (.spd r) SPD_SHD_SEQ
  let lo := regKey (.spd r) SPD_CONF
  let conf := s2.regs.filter (fun e => decide (lo ≤ e.1) && decide (e.1 < lo + 0x2000))
  let base := tabClear s2.regs (regKey (.spd r) SPD_CONF_SHD) (regKey (.spd r) (SPD_CONF_SHD + 0x2000))
  let s3 : State := { s2 with regs := conf.foldl (fun (t : Tab Word32) e => tabSet regReset t (e.1 + 0x2000) e.2) base }
  ((s3.shadow (.atp r) ATP_EVT_MALFORMED ATP_EVT_SHD ATP_SHD_SEQ 6).shadow (.cou r) COU_EVT_TOKENS COU_EVT_SHD COU_SHD_SEQ 6).summary r
/-- A region is captured: it is Active, and no clear of a kill or a move runs in it (R332, Table 15-8). -/
def State.captured (s : State) (r : RegionNo) : Bool :=
  s.rgnActive r && !((tabGet (fun _ => none) s.clrNow r.val).any (fun (x : Clear) => x.cause == .kill || x.cause == .move))
/-- The dye scope: the dye's Active regions, its pages, and its regulator entries. -/
def State.captureDye (s : State) (d : Dye) : State :=
  let rs := s.regionsOf d
  let s1 := (rs.filter s.captured).foldl (fun (t : State) r => t.captureRegion r) s
  let missed := (rs.filter (fun r => !s.captured r)).map (fun r => 2 ^ s.ordinal r)
  let s2 := s1.wr .ldg (snapBase (snapKey false d) + 0x10) (BitVec.ofNat 32 missed.sum)
  let s3 := (s2.shadow .inn (pageOff d INN_D_ACCEPTED) (pageOff d INN_D_SHD) (pageOff d INN_D_SHD_SEQ) 6).shadow .tier
    (pageOff d TIER_D_USED) (pageOff d TIER_D_SHD) (pageOff d TIER_D_SHD_SEQ) 8
  let s4 := (List.finRange 8).foldl (fun (t : State) e =>
    t.shadow (.drv e) (pageOff d DRV_D_ERR_COUNT) (pageOff d DRV_D_SHD) (pageOff d DRV_D_SHD_SEQ) 5) s3
  let s5 := s4.shadow .pwr (pageOff d PWR_D_ENERGY_L) (pageOff d PWR_D_ENERGY_SHD_L) (pageOff d PWR_D_SHD_SEQ) 2
  regulatedWins.foldl (fun (t : State) w => t.shadowRgl w d) s5
/-- Another package of the scope has captured its units. -/
def State.snapHeard (s : State) (k : Nat) (src : SlotNo) : State :=
  let x := s.snap k
  if x.waits.contains src then s.setSnap k { x with waits := x.waits.filter (· ≠ src) } else s
/-- SNAPSHOT_DONE: the units of the scope have copied their counters at T; with SYSTEM, on every package of the scope that is there
(R332). Dye 0 names the management scope while that is due, else page 0's (log entry 82). -/
def execSnapshotDone (d : Dye) (s : State) : Out :=
  let k := if d = 0 ∧ (s.snap 0).armed ∧ (s.snap 0).value ≤ s.now then 0 else snapKey false d
  let x := s.snap k
  if !x.armed ∨ s.now < x.value then .next s
  else
    let s1 := if x.fired then s else if k = 0 then s.captureMgmt else s.captureDye d
    if x.waits.any (fun sl => !s.lostSlots.contains sl) then .next (s1.setSnap k { x with fired := true })
    else
      let s2 := (s1.setSnap k {}).disarm (fun w => w == snapWhat k)
      let ticket := s.fld .ldg (snapStatus k) 16 16 + 1
      let s3 := ((s2.setFld .ldg (snapStatus k) 0 2 2).setFld .ldg (snapStatus k) 4 4 0).setFld .ldg (snapStatus k) 16 16 ticket
      .next (match x.asker with
        | some sl => { s3 with linkTx := s3.linkTx ++ [.control sl (.snapped (if k = 0 then 0 else d))] }
        | none => s3)

/-! ### Injection (R334) -/

def State.injBadTarget (s : State) : Bool :=
  let d := s.fld .inj INJ_DETECTOR 0 8
  let a := (s.rd64 .inj INJ_ADDR_L).toNat
  d == 0 || decide (0x2C < d) || s.fld .inj INJ_DETECTOR 8 2 == 3 || s.bit .inj INJ_TARGET 10 || s.bit .inj INJ_TARGET 11 ||
  (decide (d ≤ 4) && decide (0x80000000 ≤ a)) || ((d == 0x10 || d == 0x11) && !(decide (0x10000000000 ≤ a) && decide (a < 0x20000000000)))
/-- ARM. -/
def execArm (m : Master) (s : State) : Out :=
  if s.dyeOf m ≠ 0 then .next s.permissionError
  else
    let o := s.injOwner
    let code := if !s.bit .inj INJ_STATUS 0 then 1 else if s.bit .inj INJ_STATUS 1 then 4 else if s.injBadTarget then 3
      else if o ≠ 0 ∧ !s.tokenAllows o 1 then 2 else 0
    let s1 := s.setFld .inj INJ_STATUS 8 8 code
    if code ≠ 0 then .next (s1.answer [])
    else .next (({ (s1.setBit .inj INJ_STATUS 1 true).setBit .inj INJ_STATUS 2 false with injSeen := 0 } : State).answer [])
/-- DISARM. -/
def execDisarm (m : Master) (s : State) : Out :=
  if s.dyeOf m ≠ 0 then .next s.permissionError else .next ((s.setBit .inj INJ_STATUS 1 false).answer [])
/-- ENABLE changes, by the night porter; each change writes an INJECT record, and clearing it disarms. -/
def State.injEnable (s : State) (on : Bool) : State :=
  if s.bit .inj INJ_STATUS 0 = on then s
  else
    let s1 := (s.setBit .inj INJ_STATUS 0 on).ledger { type := 7, detector := 0, dye := 0, severity := 0, detail := [b2n on] }
    if on then s1 else s1.setBit .inj INJ_STATUS 1 false

/-! ### The test multiplexer (R335, R336) -/

def tmxArgBad (sel arg : Nat) : Bool :=
  if sel = 1 then decide (arg < 10) || decide (40 < arg) else if sel = 2 then decide (63 < arg)
  else if sel = 3 ∨ sel = 4 then decide (15 < arg) else if sel = 5 then decide (arg = 0) || decide (15 < arg)
  else if sel = 6 ∨ sel = 8 then decide (5 < arg) else if sel = 7 then decide (7 < arg) else decide (9 < sel)
/-- The selection that OWNERSHIP claims for a pin here. -/
def State.tmxClaim (s : State) (n : Nat) : Option Word32 :=
  (imageSections s.sysImage).findSome? (fun x => match x.body with
    | .ownership cs => cs.findSome? (fun c => match c with
        | .tmx sl p v => if sl = s.slot ∧ p.val = n then some v else none
        | _ => none)
    | _ => none)
/-- TMX_SEL_WRITE. -/
def execTmxSelWrite (m : Master) (n : Fin 4) (v : Word32) (s : State) : Out :=
  if s.dyeOf m ≠ 0 then .next s.permissionError
  else
    let o := TMX_STATUS + 4 * n.val
    let sel := bitsOf v 0 8
    let arg := bitsOf v 8 8
    let owner := s.fld .tmx o 8 2
    let d := s.tmxDye sel arg
    let claimed := (s.tmxClaim n.val).map (fun w => bitsOf w 0 16)
    let code := if owner = 2 then 2 else if owner = 1 ∧ claimed ≠ some (bitsOf v 0 16) then 1 else if tmxArgBad sel arg then 4
      else if d ≠ 0 ∧ !s.tokenAllows d 2 then 3 else 0
    let s1 := s.setFld .tmx o 4 4 code
    if code ≠ 0 then .next (s1.answer [])
    else
      let s2 := s1.wr .tmx (TMX_SEL + 4 * n.val) (BitVec.ofNat 32 (bitsOf v 0 16))
      if s.fld .tmx o 0 2 = 2 then
        .next (({ s2 with tmx := tabSet tmxReset s2.tmx n.val { (tabGet tmxReset s2.tmx n.val) with waiting := some v } } : State).answer [])
      else .next ((s2.tmxSwitch n v).answer [])
/-- What a selection's signal is now. A pulse lasts until a counter value; of a region's clock only the rate is given, so its level is
the draw's (log entry 4). -/
def State.tmxLevel (s : State) (until_ : Nat) (clk : Bool) (v : Word32) : Bool :=
  let arg := bitsOf v 8 8
  match bitsOf v 0 8 with
  | 1 => s.now / 2 ^ arg % 2 == 1
  | 2 => decide (s.now < until_)
  | 3 => s.rgnActive (Fin.ofNat 16 arg) && clk
  | 5 => decide (s.now < until_)
  | 6 => decide (s.now < until_)
  | 9 => decide (s.now < until_)
  | 4 => s.rgnActive (Fin.ofNat 16 arg)
  | 7 => s.fld (.hbm (Fin.ofNat 8 arg)) HBM_STATUS 0 2 == 2
  | 8 => s.linkUp (Fin.ofNat 6 arg)
  | _ => false
/-- TMX_SWITCH_DONE: the new selection drives the pin; one that waits runs its full switch. -/
def execTmxSwitchDone (n : Fin 4) (s : State) : Out :=
  let o := TMX_STATUS + 4 * n.val
  let x := tabGet tmxReset s.tmx n.val
  if s.fld .tmx o 0 2 ≠ 2 then .next s
  else
    let low := bitsOf x.next 0 8 == 0
    let s1 := s.setFld .tmx o 0 2 (if low then 0 else 1)
    match x.waiting with
    | some v => .next (s1.tmxSwitch n v)
    | none =>
      let dr := s1.draw
      let t := dr.2
      .next { t with tmxOut := tabSet (fun _ => false) t.tmxOut n.val (t.tmxLevel 0 (Config.freeBool dr.1) x.next), tmxUntil := natSet t.tmxUntil n.val 0 }
/-- The driven pins follow their signals. -/
def State.tmxFollow (s : State) : State :=
  (List.finRange 4).foldl (fun (t : State) n =>
    if t.fld .tmx (TMX_STATUS + 4 * n.val) 0 2 = 1 then
      (let dr := t.draw
       let u := dr.2
       { u with tmxOut := tabSet (fun _ => false) u.tmxOut n.val
                  (u.tmxLevel (natGet u.tmxUntil n.val) (Config.freeBool dr.1) (tabGet tmxReset u.tmx n.val).next) }) else t) s
/-- PPS_PULSE: on the master, TMX_OUT[3] is high for 1 ms from each second of wall time, once wall time is valid. -/
def execPpsPulse (s : State) : Out :=
  if s.master ≠ some s.slot ∨ !s.bit .cnt CNT_STATUS 4 then .next s
  else
    let wall := (s.now + (s.rd64 .cnt CNT_WALL_OFS_L).toNat) % 2 ^ 64
    let high := decide (wall % 1000000000 < 1000000)
    .next { s with ppsHigh := high, tmxOut := tabSet (fun _ => false) s.tmxOut 3 high }

/-! ### The power warning (R225, R338) -/

/-- PWR_WARN_N: admission stops, loads before T_act are refused, a POWER record is made, ingress closes, and histograms and open
records wait to be committed. -/
def execPwrWarnN (s : State) : Out :=
  if s.bit .pwr PWR_STATUS 4 then .next s
  else
    let s0 := (s.setBit .pwr PWR_STATUS 4 true).admission 1 true
    -- The regions of steps that have not started go Off (R320).
    let lanes := (s0.plans.filter (fun q => !q.running && !s0.plans.any (fun w => w.running && w.plan.dye == q.plan.dye &&
      w.plan.lane == q.plan.lane))).map (fun q => (q.plan.dye, q.plan.lane))
    let fails := (s0.fronted).foldl (fun (t : State) d => t.failDye d 8) s0
    let waits := (fails.plans.filter (fun q => !q.running)).foldl (fun (t : State) q => t.endPlan q.plan.dye q.plan.step) fails
    let s1 := lanes.dedup.foldl (fun (t : State) e => (t.laneRegs e.1 e.2).foldl (fun (u : State) r => u.rgnRequest r 3) t) waits
    let s2 := (List.finRange 16).foldl (fun (t : State) d =>
      let x := t.imgState d
      if 1 ≤ x ∧ x ≤ 4 ∧ (x ≠ 4 ∨ t.now < ((t.loadOf d).tAct).getD 0) then t.stopLoad d codePOWER none 0 0 else t) s1
    let s3 := s2.foldAll
    let rec_ : LdgRec := { type := 6, detector := 0, dye := 0, severity := 0, time := s3.now }
    .next { s3 with ldgClosed := true, pinPwrWarn := true, warnReleased := 0, ldgHist := [],
                    ldgCommit := rec_ :: s3.ldgCommit ++ s3.ldgHist.flatMap (histRec s3.now) }
/-- PWR_WARN_N_RELEASE. -/
def execPwrWarnNRelease (s : State) : Out :=
  if !s.bit .pwr PWR_STATUS 4 then .next s
  else
    let s1 := (s.setBit .pwr PWR_STATUS 4 false).admission 1 false
    .next { s1 with pinPwrWarn := false, warnReleased := s.now + 1 }
/-- FROZEN_CLEAR: 10 ms after the release, with VIN up, the Ledger takes events again and writes a POWER record. -/
def execFrozenClear (s : State) : Out :=
  if s.warnReleased = 0 ∨ s.now + 1 < s.warnReleased + 10000000 ∨ !s.vin then .next s
  else
    let rec_ : LdgRec := { type := 6, detector := 0, dye := 0, severity := 0, time := s.now }
    let s1 : State := { s with ldgClosed := false, warnReleased := 0, ldgCommit := s.ldgCommit ++ [rec_] }
    .next (s1.setBit .ldg LDG_STATUS 1 false)

end Sys2Proof.Machine
end

