-- ==== Sys2Proof/Machine/Links.lean ====
section
/-! DEFINITION. The tensor links: training, lanes, loss and routes, re-cabling, and the packets of Table 12-4 (R264 to R276,
R283). -/

namespace Sys2Proof.Machine

/-! ### TLK_STATUS.STATE (Table 12-8) -/

def tDARK : Nat := 0
def tTRAINING : Nat := 1
def tUP16 : Nat := 2
def tUP15 : Nat := 3
def tUP8 : Nat := 4
def tDOWN : Nat := 5
def tMISMATCH : Nat := 6
def linkReset (_ : Nat) : LinkSt := {}
def State.link (s : State) (l : Fin 6) : LinkSt := tabGet linkReset s.links l.val
def State.setLink (s : State) (l : Fin 6) (x : LinkSt) : State := { s with links := tabSet linkReset s.links l.val x }
/-- STATE, HEARTBEAT_OK, LANES, SPARE_USED and HALF; LIGHT and LAST_STABLE stay. -/
def State.setTlk (s : State) (l : Fin 6) (st lanes : Nat) (spare half : Bool) : State :=
  let s1 := (s.setFld (.tlk l) TLK_STATUS 0 3 st).setFld (.tlk l) TLK_STATUS 5 5 lanes
  let up := st == tUP16 || st == tUP15 || st == tUP8 || st == tMISMATCH
  ((s1.setBit (.tlk l) TLK_STATUS 4 up).setBit (.tlk l) TLK_STATUS 10 spare).setBit (.tlk l) TLK_STATUS 11 half
def State.setLight (s : State) (l : Fin 6) (b : Bool) : State := s.setBit (.tlk l) TLK_STATUS 3 b
def State.anyUp (s : State) : Bool := (List.finRange 6).any s.linkUp

/-! ### Routes recomputed (R271, R272) -/

/-- The links of a route from a slot: (slot, link) by hops, d being the distances to the destination. -/
def State.pathFrom (s : State) (t : Topology) (d : List (SlotNo × Nat)) : Nat → SlotNo → List (SlotNo × Nat)
  | 0, _ => []
  | n + 1, a =>
    match d.find? (fun e => e.1 == a) with
    | none => []
    | some (_, k) =>
      match (List.range 6).find? (fun l => s.linkLive t a l && (match neighbour t a l with
          | some b => d.any (fun e => e.1 == b && e.2 + 1 == k)
          | none => false)) with
      | none => []
      | some l => (a, l) :: s.pathFrom t d n ((neighbour t a l).getD a)
def State.routeTo (s : State) (dst : SlotNo) : List (SlotNo × Nat) :=
  match s.topology with
  | none => []
  | some t => s.pathFrom t (s.distances t 64 [(dst, 0)]) 16 s.slot
/-- Partitions that this package fronts and that lie on more than one package. -/
def State.spanning (s : State) : List Dye := s.fronted.filter (fun d => decide (1 < (s.pkgTable d).length))
/-- Sends that wait for an acknowledgement from one of some slots end in an error (R73, R271). -/
def State.failSends (s : State) (gone : List SlotNo) : State :=
  if gone = [] then s else
  (s.listed.foldl (fun (t : State) c =>
    let k := t.core c
    let bad := k.sent.filter (fun x => match t.resolve (t.owner c.region) (BitVec.ofNat 16 (bitsOf (k.schanOf x.num) 0 16)) with
      | some (sl, _) => gone.contains sl
      | none => false)
    if bad = [] then t
    else t.onCore c (fun k => { k with sent := k.sent.filter (fun x => !bad.contains x),
                                       errSends := bad.foldl (fun e x => putBits e x.num 1 1) k.errSends })) s).settleAll
/-- Loads that concern a lost package are refused with LOST (Table 10-10). -/
def State.loseLoads (s : State) (hit : Dye → Bool) : State :=
  ((List.finRange 16).foldl (fun (t : State) d =>
    if t.loading d && hit d then
      (if (t.loadOf d).origin then t.stopLoad d codeLOST none 0 0 else t.refuseLoad d codeLOST none 0 0) else t) s).releaseMoves
/-- The state after links changed, against the state before: routes are computed again, what was in flight on a route that
changed is failed to its sender, and what is addressed to a lost package fails (R271). -/
def State.recompute (s old : State) : State :=
  let slots := ((s.topology.map (fun t => t.coords.map (·.1))).getD []).filter (· ≠ s.slot)
  let s0 : State := { s with lostSlots := s.cutOff }
  let fresh := s0.lostSlots.filter (fun a => !old.lostSlots.contains a)
  let s1 : State := if (s0.master.map fresh.contains).getD false then { s0 with masterLostAt := s0.now + 1 } else s0
  let changed := slots.filter (fun a => fresh.contains a || old.routeTo a != s1.routeTo a)
  let s2 := s1.failSends changed
  let hit := fun (d : Dye) => (s2.pkgTable d).any (fun p => fresh.contains p.slot)
  let s3 := (List.finRange 16).foldl (fun (t : State) d => if hit d then t.couPeerLost d else t) s2
  let s4 := (s3.spanning.filter hit).foldl (fun (t : State) d => t.failDye d 5) s3
  let s5 := s4.loseLoads (fun d => (s4.loadSlots d).any (fun a => fresh.contains a))
  -- Pages with a granule on a lost donor are lost (R152).
  let s5 := s5.loseDonors fresh
  -- A master that no other package reaches has lost mastership (R24).
  let alone := s5.master == some s5.slot && slots != [] && slots.all (fun a => s5.lostSlots.contains a)
  let s6 : State := if alone then { s5 with master := s5.backup, backup := none, lostMastership := true } else s5
  (s6.cntFollow).ppsOwner

/-! ### A link goes down, or trains (R266 to R271) -/

/-- Steps whose exchanges use a link fail with HW_FAULT (R268). -/
def State.failUsers (s : State) (l : Fin 6) : State :=
  (s.spanning.filter (fun d => (s.usedLinks d).contains l)).foldl (fun (t : State) d =>
    (t.steps.filter (fun p => p.dye == d && p.state == .running)).foldl (fun (u : State) p => u.failStep p 1) t) s
def State.repriced (s : State) : State := s.fronted.foldl (fun (t : State) d => t.innFollow d) s
/-- The link is in a state that carries no traffic. -/
def State.takeDown (s : State) (l : Fin 6) (st : Nat) : State :=
  let was := s.linkUp l
  let s1 := (s.setTlk l st 0 false false).wr (.tlk l) TLK_LANE_MAP 0
  if was then (s1.recompute s).repriced else s1
/-- A partner lost, or a link that ends DOWN: the notice leaves on the other links that are up. -/
def State.linkDown (s : State) (l : Fin 6) : State :=
  let s1 : State := { s with lostLinks := if s.lostLinks.contains (s.slot, l.val) then s.lostLinks else s.lostLinks ++ [(s.slot, l.val)] }
  let s2 := (s1.setTlk l tDOWN 0 false false).setLink l { s1.link l with spareTraining := false, swapLane := none }
  let s3 : State := if s2.anyUp then { s2 with linkTx := s2.linkTx ++ [.lossNotice s2.slot l] } else s2
  ((s3.wr (.tlk l) TLK_LANE_MAP 0).recompute s).repriced
/-- Training begins. A full one forgets which lanes were lost; one after a lane loss seeks 8 lanes (R268, R269). -/
def State.train (s : State) (l : Fin 6) (full : Bool) : State :=
  let x := s.link l
  let s1 := if s.linkUp l then s.failUsers l else s
  let y : LinkSt := { x with lasers := true, spareTraining := false, swapLane := none, waiting := none, bestOf8 := !full,
                             lost := if full then 0 else x.lost }
  (s1.setLink l y).takeDown l tTRAINING
/-- TLK_CTRL answers only the management partition. -/
def State.tlkCtrl (s : State) (m : Master) (f : State → State) : Out :=
  if s.dyeOf m ≠ 0 then .next s.permissionError else .next ((f s).answer [])
/-- ENABLE and RETRAIN: while a training is in progress they wait for its end (Table 12-6). -/
def State.linkCommand (s : State) (l : Fin 6) : State :=
  if s.linkState l = tTRAINING then s.setLink l { s.link l with waiting := some true }
  else (s.setBit (.tlk l) TLK_STATUS 12 false).train l true
def execLinkEnable (m : Master) (l : Fin 6) (s : State) : Out := s.tlkCtrl m (fun s => s.linkCommand l)
/-- LINK_RETRAIN. A dark link has nothing to retrain and ignores it (log entry 59). -/
def execLinkRetrain (m : Master) (l : Fin 6) (s : State) : Out :=
  s.tlkCtrl m (fun s => if s.linkState l = tDARK then s else s.linkCommand l)
/-- LINK_DISABLE: the link goes down, and its lasers off. -/
def State.disableLink (s : State) (l : Fin 6) : State :=
  let s1 := if s.linkUp l then s.linkDown l else s
  ((s1.setTlk l tDARK 0 false false).setLink l {}).setLight l false
def execLinkDisable (m : Master) (l : Fin 6) (s : State) : Out := s.tlkCtrl m (fun s => s.disableLink l)

/-- The width that training finds: state, lanes, the lane that the spare stands in for, and the half (R268). -/
def chooseWidth (lanes : BitVec 17) (bestOf8 : Bool) : Option (Nat × Nat × Option Nat × Bool) :=
  let bad := fun (lo n : Nat) => ((List.range n).map (· + lo)).filter (fun i => !bitOf lanes i)
  let spare := bitOf lanes 16
  let try_ := fun (lo n : Nat) => match bad lo n with
    | [] => some none
    | [x] => if spare then some (some x) else none
    | _ => none
  match (if bestOf8 then none else try_ 0 16) with
  | some x => some (tUP16, 16, x, false)
  | none =>
    match try_ 0 8 with
    | some x => some (tUP8, 8, x, false)
    | none => (try_ 8 8).map (fun x => (tUP8, 8, x, true))
/-- A partner's identity against TOPOLOGY (R22). -/
def State.partnerOk (s : State) (l : Fin 6) (t : TrainingResult) : Bool :=
  match s.topology with
  | none => true
  | some tp => neighbour tp s.slot l.val == some t.slot && coordOf tp t.slot == some t.coord && t.archLevel == 1
/-- The slots at which the neighbours stand this package (R22): for each link that has trained with a partner of the topology, the
slot on the other side of that partner's opposite link. -/
def State.standsAt (s : State) (t : Topology) : List SlotNo :=
  (List.finRange 6).filterMap (fun l =>
    if s.linkUp l || s.linkState l == tMISMATCH then
      (s.link l).trainedSlot.bind (fun q => if (coordOf t q).isSome then neighbour t q (opposite l.val) else none)
    else none)
/-- The coordinate that the links have found; a package at another slot's coordinate stays out of the system: its links carry nothing
but heartbeats and the identity record, and it reports over the Ledger and MCTP (R22; log entry 137). -/
def State.discover (s : State) : State :=
  match s.topology with
  | none => s
  | some t =>
    let at_ := s.standsAt t
    if at_ = [] then s
    else if at_.contains s.slot then { s with coord := coordOf t s.slot, outOfSystem := false }
    else
      let s1 : State := { s with coord := (at_.head?).bind (coordOf t), outOfSystem := true, master := none, backup := none }
      let s2 := (List.finRange 6).foldl (fun (u : State) l => if u.linkUp l then u.takeDown l tMISMATCH else u) s1
      if s.outOfSystem then s2 else (s2.info 0 [0x24, 7, s.slot.val]).report [0x24, BitVec.ofNat 8 s.slot.val]
/-- Coordinates and mastership once every link of a re-cabling event has trained (Table 12-5). -/
def State.endRecable (s : State) : State :=
  if !s.recabling || (List.finRange 6).any (fun l => s.linkState l == tTRAINING) then s
  else
    let s0 := s.discover
    let s1 : State := { s0 with recabling := false, lostSlots := s0.cutOff }
    if s1.outOfSystem then s1.cntFollow else
    ((s1.electFrom (fun a => !s1.lostSlots.contains a)).cntFollow).repriced

/-! ### Re-cabling (R276) -/

/-- A re-cabling event begins: the notice is flooded, steps of partitions that span packages fail, loads are refused, what waited
for the event takes effect, and every lit link trains again. -/
def State.beginRecable (s : State) : State :=
  if s.recabling then s
  else
    let s1 : State := { s with recabling := true, recableAt := s.now }
    let s2 : State := if s1.anyUp then { s1 with linkTx := s1.linkTx ++ [.recable] } else s1
    let s3 := s2.spanning.foldl (fun (t : State) d => t.failDye d 1) s2
    let s4 := s3.loseLoads (fun _ => true)
    let s5 := match s4.pendingSys with
      | none => s4
      | some i => (({ s4 with sysImage := some i, pendingSys := none } : State).applyWiring).describe 0 i 5
    let s6 := (List.finRange 6).foldl (fun (t : State) l => if (t.link l).lasers then
      (t.setLink l { t.link l with lost := 0, bestOf8 := false, spareTraining := false, swapLane := none, waiting := none }).setTlk l
        tTRAINING 0 false false else t) s5
    ((({ s6 with lostLinks := [] } : State).failSends (((s6.topology.map (fun t => t.coords.map (·.1))).getD []).filter
      (· ≠ s6.slot))).endRecable).repriced
def execRecable (m : Master) (s : State) : Out := s.tlkCtrl m State.beginRecable

/-- LINK_TRAINING: the outcome of Table 12-2. A partner whose slot differs from the one the link trained with begins a
re-cabling event; a command that waited runs then. -/
def execLinkTraining (l : Fin 6) (t : TrainingResult) (s : State) : Out :=
  if s.linkState l ≠ tTRAINING then .next s
  else
    let x := s.link l
    let usable : BitVec 17 := t.lanes &&& ~~~x.lost
    let s1 := (s.setLight l t.light).wr (.tlk l) TLK_LANE_LOCK (BitVec.ofNat 32 (if t.light then usable.toNat else 0))
    match (if t.light then chooseWidth usable x.bestOf8 else none) with
    | none =>
      let s2 := (s1.setLink l { x with lost := ~~~usable, waiting := none }).linkDown l
      .next (if x.waiting.isSome then s2.train l true else s2.endRecable)
    | some (st, lanes, spareFor, half) =>
      let other := (x.trainedSlot.map (fun a => a != t.slot)).getD false && !s.recabling
      let y : LinkSt := { x with lost := ~~~usable, trainedSlot := some t.slot, waiting := none }
      let s2 := ((s1.setLink l y).wr (.tlk l) TLK_PARTNER (BitVec.ofNat 32 (t.slot.val + 2 ^ 6 + t.coord.1 % 64 * 2 ^ 8 +
        t.coord.2.1 % 64 * 2 ^ 14 + t.coord.2.2 % 64 * 2 ^ 20))).wr (.tlk l) TLK_DELAY (BitVec.ofNat 32 t.delay.toNat)
      let ok := s2.partnerOk l t
      let s3 := if ok then
          let u := (s2.setTlk l st lanes spareFor.isSome half).wr (.tlk l) TLK_LANE_MAP
            (BitVec.ofNat 32 (match spareFor with | some n => n + 2 ^ 5 | none => 0))
          let v : State := { u with linkKeys := natBump u.linkKeys l.val, lostLinks := u.lostLinks.filter (fun e => !(e == (u.slot, l.val) || e == (t.slot, opposite l.val))) }
          (v.recompute s).repriced
        else ((s2.setTlk l tMISMATCH 0 false false).info 0 [0x24, l.val, t.slot.val]).report
          [0x24, BitVec.ofNat 8 l.val, BitVec.ofNat 8 t.slot.val]
      let mine := ((s3.norImage.map (fun (i : Image) => i.generation.toNat)).getD 0)
      let s4 : State := match s3.norImage with
        | some img => if ok && decide (t.generation.toNat < mine) then { s3 with linkTx := s3.linkTx ++ [.image t.slot img] } else s3
        | none => s3
      let s5 := s4.discover
      .next (if other then s5.beginRecable
        else if x.waiting.isSome then (s5.setBit (.tlk l) TLK_STATUS 12 true).train l true
        else s5.endRecable)

/-- SYSTEM_IMAGE_SYNC: the master's system image reaches a package whose stored one is older; verified, stored and installed
(R229). -/
def execSystemImageSync (img : Image) (s : State) : Out :=
  let have_ := (s.norImage.map (fun (i : Image) => i.generation.toNat + 1)).getD 0
  if img.generation.toNat + 1 ≤ have_ ∨ s.loading 0 then .next s
  else
    match s.verify 0 img with
    | some (code, sect) =>
      let dr := s.draw
      .next ((dr.2.refuseLoad 0 code (some s.slot.val) sect (Config.freeNat dr.1 % 2 ^ 24)).info 0 [0x22, code])
    | none => .next (s.installSystem img).discover

/-! ### Lanes and frames (R265, R267, R268) -/

/-- LANE_LOSS. -/
def execLaneLoss (l : Fin 6) (lane : Fin 17) (s : State) : Out :=
  let x := s.link l
  let st := s.linkState l
  let half := s.bit (.tlk l) TLK_STATUS 11
  let spareUsed := s.bit (.tlk l) TLK_STATUS 10
  let inUse := if lane.val = 16 then spareUsed
    else if st = tUP8 then (lane.val / 8 == b2n half) && !(spareUsed && s.fld (.tlk l) TLK_LANE_MAP 0 4 == lane.val)
    else !(spareUsed && s.fld (.tlk l) TLK_LANE_MAP 0 4 == lane.val) && !(x.swapLane == some lane)
  let y : LinkSt := { x with lost := putBits x.lost lane.val 1 1 }
  let s1 := (((s.bump (.tlk l) TLK_LANE_EVT).detectUnit 0x1E 0 l.val [lane.val]).setLink l y).wr (.tlk l) TLK_LANE_LOCK
    (BitVec.ofNat 32 (putBits (s.rd (.tlk l) TLK_LANE_LOCK) lane.val 1 0).toNat)
  if st = tTRAINING then .next (s.setLink l y)
  else if !(st == tUP16 || st == tUP15 || st == tUP8) then .next s
  else if st = tUP15 then .next (s1.train l false)
  else if !inUse then .next s1
  else if st = tUP16 ∧ lane.val ≠ 16 ∧ !spareUsed then
    let z : LinkSt := { y with spareTraining := !bitOf x.lost 16, swapLane := some lane }
    .next ((s1.setTlk l tUP15 15 false false).setLink l z)
  else .next (s1.train l false)
/-- SPARE_LANE_READY: the spare takes the lost lane's place; UP16 with SPARE_USED. -/
def execSpareLaneReady (l : Fin 6) (s : State) : Out :=
  let x := s.link l
  match x.swapLane with
  | some lane =>
    if s.linkState l ≠ tUP15 ∨ !x.spareTraining then .next s
    else
      let s1 := (s.setLink l { x with spareTraining := false, swapLane := none }).setTlk l tUP16 16 true false
      .next (s1.wr (.tlk l) TLK_LANE_MAP (BitVec.ofNat 32 (lane.val % 16 + 2 ^ 5)))
  | none => .next s
/-- FRAME_UNCORRECTABLE: discarded and replayed; one that fails 8 replays starts a retrain at the best width. -/
def execFrameUncorrectable (l : Fin 6) (replays : Nat) (s : State) : Out :=
  if !s.linkUp l then .next s
  else
    let s1 := ((s.bump (.tlk l) TLK_FEC_UNCORR).bump (.tlk l) TLK_REPLAY replays).detectUnit 0x1F 0 l.val
    if 8 ≤ replays then
      let t := s1.train l false
      .next (t.setLink l { t.link l with bestOf8 := s.linkState l == tUP8 })
    else .next s1

/-! ### Presence and loss (R270, R271, R24) -/

/-- HEARTBEAT_LOSS: 5 µs without a heartbeat while light is present. -/
def execHeartbeatLoss (l : Fin 6) (s : State) : Out :=
  if s.linkUp l ∨ s.linkState l = tMISMATCH then .next ((s.detectUnit 0x20 0 l.val).linkDown l)
  else .next s
/-- LIGHT_LOSS. -/
def execLightLoss (l : Fin 6) (s : State) : Out :=
  let s1 := s.setLight l false
  if s.linkUp l ∨ s.linkState l = tMISMATCH then .next (s1.linkDown l) else .next s1
/-- LOSS_NOTICE: a link named by the package that declared it is lost; the notice is passed on, once. -/
def execLossNotice (slot : SlotNo) (link : Fin 6) (s : State) : Out :=
  if s.lostLinks.contains (slot, link.val) then .next s
  else
    let s1 : State := { s with lostLinks := s.lostLinks ++ [(slot, link.val)] }
    let s2 : State := if s1.anyUp then { s1 with linkTx := s1.linkTx ++ [.lossNotice slot link] } else s1
    .next ((s2.recompute s).repriced)
/-- Whether the lost master was the backup of a master that was lost less than 1 ms before it (R25). -/
def State.lostBoth (s : State) : Bool := s.tookOverAt != 0 && decide (s.masterLostAt < s.tookOverAt + 1000000)
/-- MASTER_TAKEOVER: the backup master takes the place of a lost master, and the lowest coordinate left becomes backup; where a master
and its backup are lost inside the same 1 ms, the rest apply R23 among themselves (R25). A package that has lost mastership has no part
in either until the next system reset or re-cabling event (R24). A re-cabling event abandons the takeover. -/
def execMasterTakeover (s : State) : Out :=
  let gone := fun (a : Option SlotNo) => match a with | none => true | some x => s.lostSlots.contains x
  let ex := s.exMasters ++ s.master.toList
  let stays := fun (a : SlotNo) => !s.lostSlots.contains a && !ex.contains a && !(s.lostMastership && a == s.slot)
  if s.recabling ∨ !gone s.master ∨ s.topology.isNone then .next s
  else if gone s.backup || s.lostBoth then
    .next { (s.electFrom stays).cntFollow with lostMastership := s.lostMastership, exMasters := ex }
  else
    let rest := ((s.topology.map (·.coords)).getD []).filter (fun e => stays e.1 && some e.1 != s.backup)
    .next (({ s with master := s.backup, backup := lowest rest, tookOverAt := s.masterLostAt, exMasters := ex,
                     fabTxc := s.fabTxc.filter (fun e => e.1 % 16 != 0), fabRxTxc := s.fabRxTxc.filter (fun e => e.1 % 16 != 0),
                     fabKey := if s.backup = some s.slot then s.fabKey + 1 else s.fabKey } : State).takeSync.cntFollow.ppsOwner)

/-! ### Routed packets (R275, Table 12-4) -/

/-- A packet discarded and counted, on the link by which it came: the one towards its source (log entry 60). -/
def State.dropPacket (s : State) (p : LinkPacket) : State := s.bump (.tlk ((s.nextLink p.srcSlot).getD 0)) TLK_DROPPED
/-- What every routed packet meets first: a bad TYPE or a TTL of 0 discards it, one for another slot goes on. -/
def State.routed (s : State) (p : LinkPacket) (type : Nat) (f : State → Out) : Out :=
  if p.type.toNat ≠ type ∨ p.ttl = 0 then .next (s.dropPacket p)
  else if p.dstSlot ≠ s.slot then
    .next (if (s.nextLink p.dstSlot).isNone then { s with linkTx := s.linkTx ++ [.pathLoss p.srcSlot] }
      else s.sendPacket { p with ttl := p.ttl - 1 })
  else f s
/-- The core that a packet's TARGET names here. -/
def State.targetCore (s : State) (p : LinkPacket) : Option CoreId :=
  match s.resolve p.dye p.target with
  | some (_, some c) => some c
  | _ => none
/-- The answer to a message: ACK or REFUSED, to the sender that the receive channel is bound to. -/
def State.answerMessage (s : State) (q : CoreId) (p : LinkPacket) (type : Nat) : State :=
  let b := (s.core q).rchanOf p.channel.toNat
  s.sendPacket { type := BitVec.ofNat 4 type, dye := p.dye, srcSlot := s.slot, dstSlot := p.srcSlot,
                 target := BitVec.ofNat 16 (bitsOf b 0 16), channel := BitVec.ofNat 4 (bitsOf b 16 4), epoch := p.epoch, seq := p.seq }
/-- The oldest posted buffer that is not full holds n bytes of its message, and is full where the message ends. -/
def growFirst (n : Nat) (last : Bool) : List Posted → List Posted
  | [] => []
  | b :: bs =>
    if b.filled.isNone then { b with got := n, filled := if last then some n else none } :: bs
    else b :: growFirst n last bs
/-- MESSAGE_PACKET: it fills the buffer posted for its number (R72); a message already delivered is acknowledged and discarded; one that
finds no buffer posted for it is refused; a message sent again starts its buffer anew at offset 0. Both answers follow the LAST packet.
Bytes that the slice does not take (R96, R101) fault the receiver, and no answer leaves. -/
def execMessagePacket (p : LinkPacket) (s : State) : Out :=
  s.routed p 1 (fun s =>
    match s.targetCore p with
    | none => .next s
    | some q =>
      let k := s.core q
      let ch := p.channel.toNat
      if p.seq.toNat < natGet k.delivered ch then .next (if p.last then s.answerMessage q p 3 else s)
      else
        match (k.postedOf ch).find? (fun b => b.filled.isNone) with
        | none => .next (if p.last then s.answerMessage q p 9 else s)
        | some b =>
          let at0 := p.offset.toNat * 32
          if b.seq ≠ p.seq.toNat ∨ (at0 ≠ b.got ∧ at0 ≠ 0) then .next (if p.last then s.answerMessage q p 9 else s)
          else
            let own := (s.ordinal q.region * 64 + q.pos.val) * 0x200000
            let w := s.write (.transferEngine q) (own + b.ofs + at0) p.payload
            let s1 := w.2.onCore q (fun k => k.setPosted ch (growFirst (at0 + p.payload.length) p.last (k.postedOf ch)))
            if w.1 ≠ .ok then .next ((w.2.fillFault q ch b w.1).settleAll)
            else if !p.last then .next s1
            else
              let data := s1.sliceRaw q b.ofs (at0 + p.payload.length)
              let s2 := s1.onCore q (fun k => { k with delivered := natBump k.delivered ch,
                                                       deliveredLog := k.deliveredLog ++ [{ ch := ch, seq := p.seq.toNat, data := data }] })
              .next ((s2.answerMessage q p 3).settle [q]))
/-- CREDIT_PACKET. -/
def execCreditPacket (p : LinkPacket) (s : State) : Out :=
  s.routed p 2 (fun s =>
    match s.targetCore p with
    | none => .next s
    | some c =>
      let ch := p.channel.toNat
      let s1 := s.onCore c (fun k => k.addCredit ch
        { num := p.seq.toNat - 1, cap := p.offset.toNat * 32, epoch := p.epoch })
      .next ((s1.retrySends c ch).settle [c]))
/-- The send that an ACK or REFUSED answers; none where its epoch is stale (R84). -/
def State.answered (s : State) (c : CoreId) (p : LinkPacket) : Option Xfer :=
  let k := s.core c
  if p.epoch ≠ k.epoch then none
  else k.sent.find? (fun x => x.num == p.channel.toNat && BitVec.ofNat 32 x.seq == p.seq)
/-- ACK_PACKET. -/
def execAckPacket (p : LinkPacket) (s : State) : Out :=
  s.routed p 3 (fun s =>
    match s.targetCore p with
    | none => .next s
    | some c =>
      match s.answered c p with
      | none => .next s
      | some x => .next ((s.onCore c (fun k => { k with sent := k.sent.filter (fun y => y ≠ x) })).settle [c]))
/-- REFUSED_PACKET. -/
def execRefusedPacket (p : LinkPacket) (s : State) : Out :=
  s.routed p 9 (fun s =>
    match s.targetCore p with
    | none => .next s
    | some c =>
      match s.answered c p with
      | none => .next s
      | some x =>
        let s1 := s.onCore c (fun k => { (k.refuseSend x) with sent := k.sent.filter (fun y => y ≠ x) })
        .next ((s1.retrySends c p.channel.toNat).settle [c]))
/-- BARRIER_PACKET: another package's members have all arrived in a generation. -/
def execBarrierPacket (p : LinkPacket) (s : State) : Out :=
  s.routed p 4 (fun s =>
    let g := p.target.toNat
    let b := s.bar p.dye g
    let e := (p.srcSlot, p.seq.toNat)
    if p.seq.toNat < b.gen ∨ b.packets.contains e then .next s
    else .next (s.setBar p.dye g { b with packets := b.packets ++ [e] }))

end Sys2Proof.Machine
end

