-- ==== Sys2Proof/Machine/Governor.lean ====
section
/-! DEFINITION. The governor of a package and the front package's schedule of the common frequency (R282, R311, R313, R314),
clock stretch (R314), and the budget of the power cap (R316, R317). -/

namespace Sys2Proof.Machine

/-! ### Ceilings (R313) -/

def State.fMaxOf (s : State) (d : Dye) : Nat := (s.cfg d).fMax
def State.fMinOf (s : State) (d : Dye) : Nat := (s.cfg d).fMin
/-- The lowest grid point of 25 MHz that is not below f (R314). -/
def gridUp (f : Nat) : Nat := (f + 24) / 25 * 25
/-- A half of PWR_D_CEIL in MHz; one that nothing has limited yet reads 0 and stands for F_MAX_MHZ (log entry 63). -/
def State.ceilHalf (s : State) (d : Dye) (lo : Nat) : Nat :=
  let v := s.fld .pwr (pageOff d PWR_D_CEIL) lo 11
  if v = 0 then s.fMaxOf d else v
def State.budgetCeil (s : State) (d : Dye) : Nat := s.ceilHalf d 0
def State.thermCeil (s : State) (d : Dye) : Nat := s.ceilHalf d 16
def State.setBudgetCeil (s : State) (d : Dye) (f : Nat) : State := s.setFld .pwr (pageOff d PWR_D_CEIL) 0 11 f
def State.setThermCeil (s : State) (d : Dye) (f : Nat) : State := s.setFld .pwr (pageOff d PWR_D_CEIL) 16 11 f
/-- The lowest of the thermal ceiling, the budget ceiling and F_MAX_MHZ, and never less than F_MIN_MHZ. -/
def State.ceiling (s : State) (d : Dye) : Nat :=
  max (s.fMinOf d) (min (min (s.thermCeil d) (s.budgetCeil d)) (s.fMaxOf d))
/-- The tenants with an active image whose regions this package hosts. -/
def State.governed (s : State) : List Dye :=
  (List.finRange 16).filter (fun d => d != 0 && (s.image d).isSome && (s.regionsOf d) != [])

/-! ### The front package's schedule (R282, R313, Table 14-8) -/

/-- The frequency that a dye runs at once every scheduled switch point has passed. -/
def State.targetFreq (s : State) (d : Dye) : Nat :=
  match (s.switchPoints.filter (fun p => p.1 == d)).foldl (fun (b : Option (Dye × Nat × Nat)) p => match b with
      | none => some p
      | some q => if q.2.2 ≤ p.2.2 then some p else some q) none with
  | some p => p.2.1
  | none => s.commonFreq d
/-- A switch point scheduled here; a decrease cancels an increase that waits. -/
def State.schedule (s : State) (d : Dye) (f tsw : Nat) : State :=
  let gone := s.switchPoints.filter (fun p => p.1 == d && (p.2.2 == tsw || (decide (s.commonFreq d < p.2.1) && decide (f < p.2.1))))
  let s1 := s.disarm (fun w => gone.any (fun p => w == .freq d p.2.1))
  let s2 : State := { s1 with switchPoints := s1.switchPoints.filter (fun p => !gone.contains p) ++ [(d, f, tsw)] }
  s2.armCmp 0 tsw (.freq d f)
/-- A ceiling reaches the front: the common frequency becomes the lowest ceiling reported. A decrease takes effect exactly 50 µs
after the FREQ packet is sent; for an increase the front may choose any later value, a free one (log entry 4). -/
def State.takeCeiling (s : State) (d : Dye) (slot : SlotNo) (mhz : Nat) : State :=
  if !s.isFront d || (s.image d).isNone || !(s.pkgTable d).any (fun p => p.slot == slot) then s
  else
    let s1 : State := { s with ceils := natSet s.ceils (d.val * 64 + slot.val) mhz }
    let lowest := ((s1.pkgTable d).map (fun p => let v := natGet s1.ceils (d.val * 64 + p.slot.val); if v = 0 then s1.fMaxOf d else v)).foldl
      min (s1.fMaxOf d)
    let f := max (s1.fMinOf d) (lowest / 25 * 25)
    let was := s1.targetFreq d
    if f = was then s1
    else
      let dr := s1.draw
      let s2 := if f < was then s1 else dr.2
      let tsw := s.now + 50000 + (if f < was then 0 else Config.freeNat dr.1)
      let s3 := s2.schedule d f tsw
      if (s3.peers d) = [] then s3 else { s3 with linkTx := s3.linkTx ++ [.freq d f (BitVec.ofNat 64 tsw)] }
/-- The governor tells the front package of a ceiling that differs from the one before. -/
def State.tellCeiling (s old : State) (d : Dye) : State :=
  if s.ceiling d = old.ceiling d ∨ (s.image d).isNone then s
  else if s.isFront d then s.takeCeiling d s.slot (s.ceiling d)
  else { s with linkTx := s.linkTx ++ [.innkeeper ((s.slotOf d 0).getD s.slot) 21 [d.val, s.ceiling d]] }

/-! ### Clock stretch (R314) -/

def stretchReset (_ : Nat) : Option Stretch := none
def State.stretchOf (s : State) (d : Dye) : Option Stretch := tabGet stretchReset s.stretch d.val
/-- A stretch begins, at 1/2 for a fast power limit, else at 3/4, and asks for the lowest grid point that is not below the f_price
of the steps already planned. While one is under way, no further decrease is asked for. -/
def State.beginStretch (s : State) (d : Dye) (fast : Bool) : State :=
  if !s.governed.contains d then s
  else
    match s.stretchOf d with
    | some x => { s with stretch := tabSet stretchReset s.stretch d.val (some { x with fast := x.fast || fast }) }
    | none =>
      let f := max (s.fMinOf d) (gridUp (fPriceOf (s.targetFreq d) (cfgReserve (s.cfg d))))
      let s1 : State := { s with stretch := tabSet stretchReset s.stretch d.val (some { fast := fast, freq := f, since := s.now }) }
      let s2 := s1.bumpP .pwr d PWR_D_STRETCH
      let s3 := if fast then s2.setBudgetCeil d (min (s2.budgetCeil d) f) else s2.setThermCeil d (min (s2.thermCeil d) f)
      s3.tellCeiling s d
/-- A stretch ends; its length is counted. -/
def State.endStretch (s : State) (d : Dye) : State :=
  match s.stretchOf d with
  | none => s
  | some x => ({ s with stretch := tabSet stretchReset s.stretch d.val none } : State).hist 3 d 0 (s.now - x.since)

/-! ### The budget (R316, R317) -/

/-- PWR_D_SHARE, 0 meaning 1. -/
def State.shareOf (s : State) (d : Dye) : Nat := let v := s.fld .pwr (pageOff d PWR_D_SHARE) 0 8; if v = 0 then 1 else v
def State.needUnits (s : State) (d : Dye) (f : Nat) : Nat := (s.regionsOf d).length * regionUnits f
/-- The grid frequencies, highest first. -/
def gridFreqs : List Nat := (List.range 49).map (fun k => 1800 - 25 * k)
/-- The budgets in 1/12000 W: shares of B, at least the need at F_MIN_MHZ, what is beyond the need at F_MAX_MHZ given to the others. -/
def State.budgets (s : State) : List (Dye × Nat) :=
  let ds := s.governed
  let b := (s.fld .pwr PWR_CAP 0 12 - 650) * 12000
  let sum := (ds.map s.shareOf).sum
  let first := ds.map (fun d => (d, max (b * s.shareOf d / max 1 sum) (s.needUnits d (s.fMinOf d))))
  let spare := (first.map (fun e => e.2 - s.needUnits e.1 (s.fMaxOf e.1))).sum
  let takers := first.filter (fun e => decide (e.2 < s.needUnits e.1 (s.fMaxOf e.1)))
  let tsum := (takers.map (fun e => s.shareOf e.1)).sum
  first.map (fun e => if e.2 < s.needUnits e.1 (s.fMaxOf e.1) then (e.1, e.2 + spare * s.shareOf e.1 / max 1 tsum)
    else (e.1, s.needUnits e.1 (s.fMaxOf e.1)))
/-- The budget agent divides the budget: PWR_D_BUDGET, the budget ceilings and CAP_LIMITING; changed ceilings are told. -/
def State.divide (s : State) : State :=
  let bs := s.budgets
  let s1 := bs.foldl (fun (t : State) e =>
    let f := (gridFreqs.find? (fun f => decide (s.needUnits e.1 f ≤ e.2))).getD 600
    let u := (t.setFld .pwr (pageOff e.1 PWR_D_BUDGET) 0 12 (e.2 / 12000)).setBudgetCeil e.1 (max (s.fMinOf e.1) f)
    if u.fld .pwr (pageOff e.1 PWR_D_CEIL) 16 11 = 0 then u.setThermCeil e.1 (s.fMaxOf e.1) else u) s
  let s2 := s1.setBit .pwr PWR_STATUS 2 (bs.any (fun e => decide (s1.budgetCeil e.1 < s1.fMaxOf e.1)))
  bs.foldl (fun (t : State) e => t.tellCeiling s e.1) s2
/-- A partition or a region has changed here: the floor follows, and the budget is divided anew (R316, R317). -/
def State.powerFollow (s : State) : State :=
  let now := s.governed.map (fun d => (d, (s.regionsOf d).length))
  if now = s.dividedFor then s else { s.floorFollow.divide with dividedFor := now }
/-- A cap set by the rack manager: refused below the floor (R316). Answers whether it was taken. -/
def State.setPowerCap (s : State) (watts : Nat) : Bool × State :=
  if watts < s.fld .pwr PWR_FLOOR 0 12 ∨ 4095 < watts then (false, s)
  else (true, ((s.setFld .pwr PWR_CAP 0 12 watts).floorFollow).divide)

end Sys2Proof.Machine
end

