-- ==== Sys2Proof/Machine/Counter.lean ====
section
/-! DEFINITION. The system counter, its synchronisation, comparators and switch points (R277 to R285), and what a package does
with the control-class messages it receives (R274). -/

namespace Sys2Proof.Machine

/-! ### CNT_STATUS.SYNC (Table 12-9): 0 FREE, 1 ACQUIRING, 2 LOCKED, 3 HOLDOVER -/

def State.sync (s : State) : Nat := s.fld .cnt CNT_STATUS 0 2
def State.setSync (s : State) (v : Nat) : State := s.setFld .cnt CNT_STATUS 0 2 v
/-- A number kept within bounds. -/
def clampInt (lo hi x : Int) : Int := max lo (min hi x)
/-- A signed number in a field of n bits. -/
def signedField (n : Nat) (x : Int) : Nat := (x % (2 ^ n : Int)).toNat
/-- A field of n bits as a signed number. -/
def fieldSigned (n x : Nat) : Int := if x % 2 ^ n < 2 ^ (n - 1) then (x % 2 ^ n : Nat) else (x % 2 ^ n : Nat) - (2 ^ n : Int)
def State.trim (s : State) : Int := fieldSigned 24 (s.fld .cnt CNT_RATE 0 24)

/-- SYNC_EXCHANGE: four timestamps with the parent (sent, received there, answered there, received here) give the offset, and the
trim is steered, within its limit. The master has no parent. -/
def execSyncExchange (t1 t2 t3 t4 : Word64) (trim : BitVec 24) (s : State) : Out :=
  if s.master = some s.slot ∨ s.fld .cnt CNT_STATUS 12 3 = 7 then .next s
  else
    let off : Int := (((t2.toNat : Int) - t1.toNat) + ((t3.toNat : Int) - t4.toNat)) / 2
    let s1 := s.wr .cnt CNT_OFFSET (BitVec.ofNat 32 (signedField 16 (clampInt (-32768) 32767 off)))
    let s2 := s1.wr .cnt CNT_RATE (BitVec.ofNat 32 (signedField 24 (clampInt (-100000) 100000 (fieldSigned 24 trim.toNat))))
    if s.sync = 0 then .next (s2.setSync 1)
    else if s.sync = 3 then .next { (s2.setSync 2) with holdoverAt := 0, treatedAsLost := false }
    else .next s2
/-- COUNTER_FIRST_LOCK: the counter takes its parent's value once, while no comparator is armed (log entry 55). -/
def execCounterFirstLock (v : Word64) (s : State) : Out :=
  if 2 ≤ s.sync ∨ s.cmps.any (fun e => e.2.armed) then .next s
  else
    let s1 : State := { s with now := v.toNat, nowFrac := 0, lastRdsr := 0 }
    .next (((s1.setSync 2).rearmAll).info 0 [0x25, s.now, v.toNat])
/-- The package keeps its last trim from here on. -/
def State.enterHoldover (s : State) : State :=
  if s.sync ≠ 2 then s
  else
    let s1 := ((s.setSync 3).bump .cnt CNT_SYNC_LOSS).detectUnit 0x29 0 0
    { s1 with holdoverAt := s.now }
/-- HOLDOVER: every path to the master is lost. -/
def execHoldover (s : State) : Out :=
  if s.sync ≠ 2 ∨ s.master = some s.slot then .next s
  else .next ((s.enterHoldover).setFld .cnt CNT_STATUS 12 3 7)
/-- HOLDOVER_TIMEOUT: after 1 ms the Innkeepers of partitions that span the package treat it as lost. -/
def execHoldoverTimeout (s : State) : Out :=
  if s.sync ≠ 3 ∨ s.now < s.holdoverAt + 1000000 ∨ s.treatedAsLost then .next s
  else
    let s1 : State := { s with treatedAsLost := true }
    .next (s1.spanning.foldl (fun (t : State) d => t.failDye d 5) s1)
/-- What CNT_NOW_L answers: the low half; the high half is latched. -/
def State.readNow (s : State) : State :=
  { (s.answer (leBytes (s.now % 2 ^ 32) 4)) with nowHigh := BitVec.ofNat 32 (s.now / 2 ^ 32) }
/-- CNT_NOW_L_READ: it answers every master. -/
def execCntNowLRead (_m : Master) (s : State) : Out := .next s.readNow

/-! ### Comparators (R281) and captures (R331) -/

/-- At T every Active unit of the scope copies its counters into its shadows. -/
def State.capture (s : State) (k : Nat) : State :=
  let x := s.snap k
  if !x.armed || x.fired then s
  else (if k = 0 then s.captureMgmt else s.captureDye (Fin.ofNat 16 (k - 1))).setSnap k { x with fired := true }
/-- COMPARATOR_FIRE: at its value, or at once with LATE; the owner arms the next event of its calendar. A snapshot is captured
then; what else the event is for has its own command. -/
def execComparatorFire (n : Fin 64) (s : State) : Out :=
  let c := tabGet cmpReset s.cmps n.val
  if !c.armed ∨ s.now < c.value then .next s
  else
    let s1 : State := { s with cmps := tabSet cmpReset s.cmps n.val (s.cmpFree n.val c) }
    let s2 := match c.what with
      | some .snapMgmt => s1.capture 0
      | some (.snapDye d) => s1.capture (snapKey false d)
      | _ => s1
    .next ((s2.rearm c.owner).pulse 2 (fun arg => arg == n.val))

/-! ### Switch points (R282) -/

/-- Every region of a dye on this package runs at f from here on; a stretch ends, and trims that waited are applied. -/
def State.switchTo (s : State) (d : Dye) (f : Nat) : State :=
  let s1 := s.setFld .inn (pageOff d INN_D_FREQ) 0 16 f
  let s2 := ((s1.regionsOf d).filter s1.rgnActive).foldl (fun (t : State) r => (t.setRgnFreq r f).applyTrim r) s1
  (s2.endStretch d).innFollow d
/-- FREQ_PACKET: a comparator is armed for T_sw and the front gets its acknowledgement; one that has passed is applied at
once, with a record. -/
def execFreqPacket (d : Dye) (f : Nat) (tsw : Word64) (s : State) : Out :=
  if s.regionsOf d = [] then .next s
  else if tsw.toNat ≤ s.now then .next ((s.switchTo d f).info d [0x26, f, tsw.toNat])
  else
    let s2 := s.schedule d f tsw.toNat
    .next (if s2.isFront d then s2 else { s2 with linkTx := s2.linkTx ++ [.freqAck d] })
/-- SWITCH_POINT: the earliest one of the dye whose value has come. -/
def execSwitchPoint (d : Dye) (s : State) : Out :=
  let due := s.switchPoints.filter (fun p => p.1 == d && decide (p.2.2 ≤ s.now))
  match due.foldl (fun (b : Option (Dye × Nat × Nat)) p => match b with
      | none => some p
      | some q => if p.2.2 < q.2.2 then some p else some q) none with
  | none => .next s
  | some p =>
    let s1 : State := { s with switchPoints := s.switchPoints.erase p }
    .next ((s1.disarm (fun w => w == .freq d p.2.1)).switchTo d p.2.1)

/-! ### CONTROL_PACKET (R274) -/

/-- A session context placed here by its front package (R204). -/
def State.placeCtx (s : State) (d : Dye) (slot : Nat) (c : Ctx) : State := s.setCtx d slot (some c)
/-- A package acts on a control-class message. -/
def State.obey (s : State) (src : SlotNo) : ControlMsg → State
  | .snapshot at_ scope =>
    let k := if scope = 0 then 0 else snapKey false scope
    if (s.snap k).armed ∨ s.sync < 2 then s
    else
      let s1 := s.armSnap k at_.toNat
      s1.setSnap k { s1.snap k with asker := some src }
  | .snapped scope => s.snapHeard (if scope = 0 then 0 else snapKey false scope) src
  | .jobStart d at_ =>
    if s.isFront d ∨ !s.isNorla d then s
    else
      let s0 : State := { s with jobHalted := s.jobHalted.filter (fun e => e.1 != d) }
      let s1 := ((s0.wr64 .pkg (pageOff d PKG_JOB_D_AT_L) at_).setJob d 1).armCmp 0 at_.toNat (.jobGo d)
      (s1.regionsOf d).foldl (fun (t : State) r => t.rgnRequest r 0) s1
  | .jobStop d => if ([1, 2, 3] : List Nat).contains (s.jobState d) then s.stopJobHere d else s
  | .stopRegions d =>
    let s1 := ((s.regionsOf d).foldl (fun (t : State) r => t.stopRegion r) s).setJob d 3
    if s1.isFront d && !s1.jobShort.contains (d, src) then { s1 with jobShort := s1.jobShort ++ [(d, src)] } else s1
  | .tAct d at_ =>
    if (s.loadOf d).image.isNone then s
    else ((s.setLoad d { s.loadOf d with tAct := some at_.toNat }).setImg d 4).armCmp 0 at_.toNat (.tAct d)
  | .resumeAt d at_ =>
    if s.jobState d ≠ 3 then s
    else ({ s with resumeAt := natSet s.resumeAt d.val (at_.toNat + 1) } : State).armCmp 0 at_.toNat (.jobResume d)
  | .courierGen d gen => s.courierGen d gen.toNat
  | .context d slot id cls temp topK topP seed maxLen home =>
    s.placeCtx d slot { id := id, cls := cls, temp := temp, topK := topK, topP := topP, seed := seed, maxLen := maxLen, home := home }
  | .closed d slot =>
    let s1 := (s.freeTables d slot).setCtx d slot none
    { s1 with tokenRecs := tabSet (fun _ => none) s1.tokenRecs (d.val * 65536 + slot) none }
  | .cold d slot => s.coldArrives d slot
  | .committed d slot len rollback =>
    ({ s.setLen d slot len rollback with admitted := s.admitted.erase (d, slot) } : State).drainWeights
  | .result d slot rec => { s with tokenRecs := tabSet (fun _ => none) s.tokenRecs (d.val * 65536 + slot) (some rec) }
  | .weightState d w st => s.hearWstate src d w.val st
  | .stepOver d step => s.stepEnds d step
  | .wallOfs v =>
    if s.master = some s.slot then s
    else { ((s.wr64 .cnt CNT_WALL_OFS_L v).setBit .cnt CNT_STATUS 4 true) with
           syncCopy := if s.backup = some s.slot then some v else s.syncCopy }
  | .fork d slot index => s.forkTables d slot index
  | .hint d slot resume tier x => s.takeHint d slot resume tier x
  | .imageStop d code pkg sect ofs => if s.loading d then (s.refuseLoad d code.toNat (some pkg.val) sect.toNat ofs).releaseMoves else s
  | .kill d => s.killHere d
  | .drain d at_ => s.fixDrain d at_.toNat
  | .jobHalted d => (s.hearHalted d src).jobDone d
  | .jobFaulted d => if s.jobState d = 2 ∨ s.jobState d = 3 then s.jobFaultHere d else s
  | .restored d => s.filled d src
  | .laneMove d ord toPrefill at_ =>
    match s.regionOf d ord with
    | some r => ({ s with laneMoves := s.laneMoves ++ [(r, toPrefill, at_)] } : State).applyLaneMoves
    | none => s
  | .released d index => if (s.prefixRec d index).live then s.releasePrefix d index else s
  | .exchangeFailed d prefill code => s.exchangeEnds d prefill code.toNat
  | .stepDrops d step pairs => { s with farDrops := s.farDrops ++ [(d, step, pairs)] }
  | .publishFailed d index => s.publishFails d index
  | .release d handle =>
    match s.handleIndex d handle with
    | some i => if s.isFront d then (s.releasePrefix d i).tellAll d (.released d i) else s
    | none => s
  | .admitted d slot step layers base adds =>
    ({ s with admitted := s.admitted ++ [(d, slot)] } : State).claimPages d slot step layers base adds
  | .failed d step session code => s.failNamed d step session code.toNat
/-- CONTROL_PACKET. -/
def execControlPacket (src : SlotNo) (msg : ControlMsg) (s : State) : Out := .next (s.obey src msg)

end Sys2Proof.Machine
end

