-- ==== Sys2Proof/WellFormed.lean ====
section
/-! DEFINITION. Which commands are well formed: the lengths that the spec fixes and the operand types do not carry. Every other
operand is bounded by its type, and a value that the spec refuses is well formed: refusing it is the command's effect. -/

namespace Sys2Proof

/-- A sample has a reading for each of the 16 regions, 8 stacks and 6 optical engines (R315, Table 14-9). -/
def SensorSample.wf (t : SensorSample) : Bool := t.junction.length == 16 && t.hbm.length == 8 && t.optic.length == 6

/-- A packet of the tensor links carries up to 4,096 bytes (R275). -/
def LinkPacket.wf (p : LinkPacket) : Bool := decide (p.payload.length ≤ 4096)

/-- A packet of the fabric carries 0 to 4,096 bytes (R297). -/
def FabricPacket.wf (p : FabricPacket) : Bool := decide (p.payload.length ≤ 4096)

/-- A command that a sender can form. -/
def Instr.wf (i : Instr) : Bool :=
  match i with
  | .thermalSample t => t.wf
  | .messagePacket p => p.wf
  | .creditPacket p => p.wf
  | .ackPacket p => p.wf
  | .refusedPacket p => p.wf
  | .barrierPacket p => p.wf
  | .fabricRead p => p.wf
  | .fabricWrite p => p.wf
  | .fabricFetchAdd p => p.wf
  | .fabricCas p => p.wf
  | .fabricSwap p => p.wf
  | .fabricAcquire p => p.wf
  | .fabricRenew p => p.wf
  | .fabricRelease p => p.wf
  | .fabricResponse p => p.wf
  | .fabricAck p => p.wf
  | .fabricProbe p => p.wf
  | .quoteDone _ sig => sig.length == 96
  | _ => true

end Sys2Proof
end

