-- ==== Sys2Proof/Machine/Thermal.lean ====
section
/-! DEFINITION. Idle regions (R307), IVR shorts and hiccups (R310), the loss of the reference clock (R312), thermal limits (R315),
the governor's commands (R313, R314), the power budget (R316, R317), ageing trims (R319), what detector events do beside their
records (R324, R325), and the failures of a region's PLL and controller (R334). -/

namespace Sys2Proof.Machine

/-! ### Idle regions (R307) -/

/-- A region of a SERVE partition that no planned step uses. -/
def State.idleServe (s : State) (r : RegionNo) : Bool :=
  let d := s.owner r
  d != 0 && !s.isNorla d && (s.moveOf r).isNone &&
  !s.plans.any (fun q => q.plan.dye == d && q.plan.lane == s.inPrefill r)
/-- IDLE_RET and IDLE_OFF in ns (PWR_IDLE; 0 means 200 µs and 10 ms), and whether a region has been idle for that long. -/
def State.idleRet (s : State) : Nat := let v := s.fld .pwr PWR_IDLE 0 16; (if v = 0 then 200 else v) * 1000
def State.idleOff (s : State) : Nat := let v := s.fld .pwr PWR_IDLE 16 16; (if v = 0 then 100 else v) * 100000
def State.idleFor (s : State) (r : RegionNo) (ns : Nat) : Bool := decide (natGet s.idleAt r.val + ns ≤ s.now + 1)
/-- IDLE_RET_TIMER: a region idle for IDLE_RET goes to Retention. -/
def execIdleRetTimer (r : RegionNo) (s : State) : Out :=
  if s.idleServe r ∧ s.idleFor r s.idleRet ∧ (s.rgnState r = 0 ∨ s.rgnState r = 1) then .next (s.rgnRequest r 2) else .next s
/-- Tier-0 pages that lie in a region: their key space and entries. -/
def State.tier0In (s : State) (r : RegionNo) : List PageMove :=
  let here := fun (d : Dye) (p : Pte) => p.tier == 0 && (match s.place d (p.frame.toNat * 65536) with
    | .slice c _ => c.region == r
    | _ => false)
  s.ptes.filterMap (fun e => e.2.bind (fun p => if !p.ro && here (pteDye e.1) p then
    some { dye := pteDye e.1, session := some (pteSlot e.1), layer := pteLayer e.1, page := ptePage e.1,
           fromTier := 0, toTier := 1, cause := 2 } else none)) ++
  s.shared.filterMap (fun e => e.2.bind (fun p => if here (Fin.ofNat 16 (e.1 / 2 ^ 32)) p then
    some { dye := Fin.ofNat 16 (e.1 / 2 ^ 32), session := none, layer := 0, page := e.1 % 2 ^ 32,
           fromTier := 0, toTier := 1, cause := 2 } else none))
/-- IDLE_OFF_TIMER: the tier-0 pages of a region idle for IDLE_OFF begin to move to tier 1; once none is left the region goes Off. -/
def execIdleOffTimer (r : RegionNo) (s : State) : Out :=
  if !s.idleServe r ∨ !s.idleFor r s.idleOff ∨ !([0, 1, 2] : List Nat).contains (s.rgnState r) then .next s
  else
    match s.tier0In r with
    | [] => .next (s.rgnRequest r 3)
    | ms =>
      let s1 := ms.foldl (fun (t : State) m => t.startMove m) s
      .next (if s.rgnState r = 0 then s1 else s1.pend r (some 3))

/-! ### A region's work is lost (R310, R315, R334) -/

/-- A NORLA job that loses a region's state is FAULTED, and its other cores stop at their gates on every package. -/
def State.faultJob (s : State) (r : RegionNo) : State :=
  let d := s.owner r
  if d ≠ 0 ∧ s.isNorla d ∧ ([1, 2, 3] : List Nat).contains (s.jobState d) then (s.jobFaultHere d).tellAll d (.jobFaulted d) else s
/-- A save under way is lost with the region's state (Table 11-5). -/
def State.dropSave (s : State) (r : RegionNo) : State :=
  match s.moveOf r with
  | some m => if m.save && (s.mvState r == 2 || s.mvState r == 3) then (s.setMove r (some { m with save := false })).setMv r 4 else s
  | none => s
/-- A step whose region fails while it wakes: the first sealed one of the region's lane. -/
def State.failWaking (s : State) (r : RegionNo) : State :=
  let d := s.owner r
  match (s.steps.filter (fun p => p.dye == d && p.state == .sealed && p.prefill == s.inPrefill r)).foldl (fun (b : Option Step) p =>
      match b with
      | none => some p
      | some q => if p.start < q.start then some p else some q) none with
  | some p => s.failStep p 1
  | none => s

/-- A region detector's event, flagged INJECTED where the armed injection that aims at it falls due (R334). -/
def State.detectAimed (s : State) (d : Nat) (r : RegionNo) (severity : Nat) : State :=
  let e : LedgerEvent := { type := 1, detector := BitVec.ofNat 8 d, dye := s.owner r, severity := severity, region := r }
  if s.bit .inj INJ_STATUS 1 && s.fld .inj INJ_DETECTOR 0 8 == d && s.fld .inj INJ_TARGET 0 4 == r.val then
    (let x := s.injDue
     if x.1 then x.2.injFired.ledger { e with injected := true } else x.2.ledger e)
  else s.ledger e

/-! ### IVR shorts (R310, Table 14-4) -/

def State.hiccups (s : State) (r : RegionNo) : Nat := s.fld .pwr (rgnReg r) 7 2
/-- A short or an overcurrent trip: the IVR is off, the region Off, its steps fail, and a retry waits. A short during a save fails the region. -/
def execIvrShort (r : RegionNo) (s : State) : Out :=
  let st := s.rgnState r
  if st = 3 ∨ st = 6 then .next s
  else
    let waking := st == 5
    let saving := (s.moveOf r).any (fun (m : MoveSt) => m.save) && (s.mvState r == 2 || s.mvState r == 3)
    let s1 := s.detectAimed (if waking then 0x15 else 0x16) r (if waking then 2 else 3)
    let s2 := if waking then s1.failWaking r else s1.regionFault r
    let s3 := (((s2.faultJob r).dropSave r).powerOff r).setFld .pwr (rgnReg r) 7 2 0
    if saving then .next (({ s3 with ivrShort := tabSet (fun _ => false) s3.ivrShort r.val false } : State).failRegion r)
    else .next ({ s3 with ivrShort := tabSet (fun _ => false) s3.ivrShort r.val true } : State).foldAll
/-- HICCUP_RETRY: a soft start. A third short latches the IVR off and fails the region; one that passes wakes it, where a wake is allowed. -/
def execHiccupRetry (r : RegionNo) (shorted : Bool) (s : State) : Out :=
  if !tabGet (fun _ => false) s.ivrShort r.val then .next s
  else
    let n := min 3 (s.hiccups r + 1)
    let s1 := s.setFld .pwr (rgnReg r) 7 2 n
    if !shorted then
      let s2 : State := { s1 with ivrShort := tabSet (fun _ => false) s1.ivrShort r.val false }
      if s2.noWake then .next s2 else .next ((s2.beginWake r 3 0).setFld .pwr (rgnReg r) 7 2 n).pkgFollow
    else if n < 3 then .next (s1.detectAimed 0x15 r 2)
    else
      let s2 : State := { s1 with ivrShort := tabSet (fun _ => false) s1.ivrShort r.val false }
      let s3 := ((s2.failRegion r).setBit .pwr (rgnReg r) 9 true).ledger
        { type := 1, detector := 0x15, dye := s.owner r, severity := 4, region := r }
      .next s3.foldAll

/-! ### Clocks (R312, R334) -/

/-- Every running step that this package fronts fails with HW_FAULT; a package that is not the front reports its plans. -/
def State.failRunning (s : State) : State :=
  (allRegions.filter (fun r => s.owner r != 0)).foldl (fun (t : State) r => t.regionFault r)
    ((s.fronted).foldl (fun (t : State) d => (t.steps.filter (fun p => p.dye == d && p.state == .running)).foldl
      (fun (u : State) p => u.failStep p 1) t) s)
/-- REFERENCE_CLOCK_LOSS: running steps fail, and the counter goes to HOLDOVER. -/
def execReferenceClockLoss (s : State) : Out :=
  if !s.bit .clk CLK_STATUS 0 then .next s
  else
    let s1 := ((s.setBit .clk CLK_STATUS 0 false).bump .clk CLK_REF_LOSS).detectUnit 0x18 0 0
    let s2 := s1.failRunning
    .next ((({ s2 with sysRef := false } : State).enterHoldover).setSync 3).foldAll
/-- REGION_PLL_LOSS_OF_LOCK: the region's work fails. -/
def execRegionPllLossOfLock (r : RegionNo) (s : State) : Out :=
  if !s.bit .clk CLK_PLL_LOCK r.val then .next s
  else .next ((((s.pll r false).detectAimed 0x17 r 3).regionFault r).faultJob r).foldAll
/-- RGN_CONTROLLER_WATCHDOG: the region's work fails. -/
def execRgnControllerWatchdog (r : RegionNo) (s : State) : Out :=
  if s.rgnState r = 3 ∨ s.rgnState r = 6 then .next s
  else .next (((s.detectAimed 0x28 r 3).regionFault r).faultJob r).foldAll

/-! ### What an event does beside its record (R324, R325) -/

/-- A PACKAGE event: FAULT_N is asserted, the lasers go dark and admission stops. -/
def State.packageFault (s : State) : State :=
  ((List.finRange 6).foldl (fun (t : State) l => t.disableLink l) ({ s with pinFault := true } : State)).admission 1 true
/-- HBM_CONTROLLER_FAILED: a PACKAGE event once a controller of the other die has failed too. -/
def execHbmControllerFailed (h : Fin 8) (s : State) : Out :=
  if s.fld (.hbm h) HBM_STATUS 0 2 = 3 then .next s
  else
    let s1 := s.controllerFailed h
    let other := (List.finRange 8).any (fun k => decide (k.val / 4 ≠ h.val / 4) && s1.fld (.hbm k) HBM_STATUS 0 2 == 3)
    .next (if other then s1.foldAll.packageFault else s1)
/-- Injected events happen only at the named target, as the armed injection falls due. -/
def State.injAllows (s : State) (e : LedgerEvent) : Bool × State :=
  let there := !rgnDetector e.detector.toNat || (s.fld .inj INJ_TARGET 0 4 == e.region.val &&
    (match e.core with | some p => s.fld .inj INJ_TARGET 4 6 == p.val | none => true))
  if !e.injected then (true, s)
  else if s.bit .inj INJ_STATUS 1 && s.fld .inj INJ_DETECTOR 0 8 == e.detector.toNat && there then
    (let d := s.injDue
     if d.1 then (true, d.2.injFired) else (false, d.2))
  else (false, s)
/-- The unit's reaction, for detectors of which no other command tells (Table 15-4). -/
def State.react (s : State) (e : LedgerEvent) : State :=
  let d := e.detector.toNat
  let s1 := if e.type ≠ 1 then s
    else if d = 0x08 ∨ d = 0x0A then
      (match e.core with
        | some p =>
          let c : CoreId := { region := e.region, pos := p }
          let w := e.detail.getD 0 0
          let s1 := if e.injected then s else s.ueMark (if d = 0x08 then istoreUeKey c w else accUeKey c (8 * w))
          s1.coreFault c fECC (s.core c).pc 0 0
        | none => s)
    else if d ∈ [0x0B, 0x0C, 0x0D, 0x16, 0x22, 0x27] then (s.regionFault e.region).faultJob e.region
    else s
  if e.severity = 5 then s1.packageFault else s1
/-- LEDGER_EVENT. -/
def execLedgerEvent (e : LedgerEvent) (s : State) : Out :=
  let a := s.injAllows e
  if !a.1 then .next a.2 else .next ((a.2.react e).ledger e).foldAll
/-- NIGHT_PORTER_WATCHDOG: a PACKAGE event. -/
def execNightPorterWatchdog (s : State) : Out := .next ((s.detectUnit 0x2B 0 0).foldAll).packageFault
/-- DIE_BRIDGE_FAILURE: a PACKAGE event without a detector of its own. -/
def execDieBridgeFailure (s : State) : Out :=
  .next (((s.setBit .clk CLK_STATUS 2 false).ledger { type := 1, detector := 0, dye := 0, severity := 5 }).foldAll).packageFault

/-! ### Thermal limits (R315, Table 14-6) -/

def State.junction (s : State) (r : RegionNo) : Nat := s.fld .thm (THM_RGN + 4 * r.val) 0 8
def State.hbmTemp (s : State) (h : Fin 8) : Nat := s.fld (.hbm h) HBM_TEMP 0 8
def maxOf (l : List Nat) : Nat := l.foldl max 0
/-- A sensor of the package is at or above its throttle threshold. -/
def State.hotPackage (s : State) : Bool :=
  (List.finRange 8).any (fun h => decide (95 ≤ s.hbmTemp h)) || decide (80 ≤ s.fld .thm THM_MAX 16 8)
/-- A throttle event of a region: a stretch at 3/4 and a lower ceiling for its dye. -/
def State.throttle (s : State) (r : RegionNo) : State :=
  let s1 := (s.bump .thm THM_EVENTS).beginStretch (s.owner r) false
  { s1 with hotAt := natSet s1.hotAt r.val (s.now + 1) }
/-- A throttle event of the package: every tenant with regions here. -/
def State.throttleAll (s : State) : State :=
  let s1 := s.governed.foldl (fun (t : State) d => t.beginStretch d false) (s.bump .thm THM_EVENTS)
  { s1 with hotAt := (allRegions.filter (fun r => s1.owner r != 0)).foldl (fun (t : Tab Nat) r => natSet t r.val (s.now + 1)) s1.hotAt }
/-- The critical shutdown: THERM_N, every region Off without waiting for a tile gate, running steps and jobs lost. -/
def State.critical (s : State) (r : RegionNo) : State :=
  let s1 := (s.setFld .thm THM_STATUS 2 2 3).ledger
    { type := 1, detector := 0x1A, dye := s.owner r, severity := 4, region := r }
  let s2 := s1.failRunning
  let s3 := (allRegions.filter (fun q => s2.owner q != 0)).foldl (fun (t : State) q => (t.faultJob q).dropSave q) s2
  (allRegions.filter (fun q => s3.rgnState q != 6 && s3.rgnState q != 3)).foldl (fun (t : State) q => t.powerOff q) s3
/-- The junctions of a sample, one by one: warnings, throttles, the critical limit; each at its crossing. -/
def State.junctions (s old : State) : List RegionNo → State
  | [] => s
  | r :: rs =>
    let was := old.junction r
    let is := s.junction r
    let s1 := if was < 95 ∧ 95 ≤ is then s.ledger { type := 6, detector := 0, dye := s.owner r, severity := 0, region := r, detail := [is] } else s
    let s2 := if was < 100 ∧ 100 ≤ is then (s1.detectRgn 0x19 r).throttle r else s1
    let s3 := if 110 ≤ is ∧ !s2.bit .thm THM_STATUS 2 then s2.critical r else s2
    s3.junctions old rs
/-- A sample's readings in the registers. -/
def State.readings (s : State) (t : SensorSample) : State :=
  let s1 := allRegions.foldl (fun (u : State) r => u.wr .thm (THM_RGN + 4 * r.val) (BitVec.ofNat 32 (min 255 (t.junction.getD r.val 0)))) s
  let s2 := (List.finRange 8).foldl (fun (u : State) h => u.wr (.hbm h) HBM_TEMP (BitVec.ofNat 32 (min 255 (t.hbm.getD h.val 0)))) s1
  s2.wr .thm THM_MAX (BitVec.ofNat 32 (min 255 (maxOf t.junction) + min 255 (maxOf t.hbm) * 2 ^ 8 + min 255 (maxOf t.optic) * 2 ^ 16))
/-- THERMAL_SAMPLE. The supplies that the same 10 µs sample measures (PKG_SUPPLY) are a free value (log entry 64). -/
def execThermalSample (t : SensorSample) (s : State) : Out :=
  if !t.wf then .fault .malformedCommand
  else
    let hotBefore := fun (h : Fin 8) => decide (95 ≤ s.hbmTemp h)
    let opticBefore := s.fld .thm THM_MAX 16 8
    let s1 := s.readings t
    let s2 := s1.junctions s allRegions
    let hotStacks := (List.finRange 8).filter (fun h => decide (95 ≤ s1.hbmTemp h) && !hotBefore h)
    let s3 := hotStacks.foldl (fun (u : State) h => (u.detectUnit 0x1B 0 h.val).throttleAll) s2
    let s4 := if opticBefore < 80 ∧ 80 ≤ maxOf t.optic then (s3.detectUnit 0x1C 0 0).throttleAll else s3
    let dark := (List.finRange 6).filter (fun l => decide (90 ≤ t.optic.getD l.val 0) && (s4.link l).lasers)
    let s5 := dark.foldl (fun (u : State) l => u.disableLink l) s4
    let j := maxOf t.junction
    let s6 := (s5.setBit .thm THM_STATUS 0 (decide (95 ≤ j))).setBit .thm THM_STATUS 1 (decide (100 ≤ j) || s5.hotPackage)
    let s7 := if j < 95 then s6.setBit .thm THM_STATUS 3 false else s6
    let cool := decide (j < 95) && decide (maxOf t.hbm < 90) && decide (maxOf t.optic < 75)
    let s8 : State := { s7 with coolAt := if cool then (if s7.coolAt = 0 then s7.now + 1 else s7.coolAt) else 0 }
    let dr := s8.foldAll.draw
    .next (dr.2.wr .pkg PKG_SUPPLY (BitVec.ofNat 32 (Config.freeNat dr.1)))
/-- THROTTLE_REPEAT: 200 µs after the last event of a sensor that has stayed at its throttle threshold. A stack or an optical engine
calls on every tenant once more. -/
def execThrottleRepeat (r : RegionNo) (s : State) : Out :=
  let at_ := natGet s.hotAt r.val
  if at_ = 0 ∨ s.now + 1 < at_ + 200000 ∨ (s.junction r < 100 ∧ !s.hotPackage) then .next s
  else if s.hotPackage then .next s.throttleAll
  else .next (s.throttle r)
/-- THERMAL_CEILING_RISE: 25 MHz after 10 ms below every warn level; never above the budget ceiling. -/
def execThermalCeilingRise (d : Dye) (s : State) : Out :=
  let since := max s.coolAt (natGet s.riseAt d.val)
  let top := min (s.budgetCeil d) (s.fMaxOf d)
  if s.coolAt = 0 ∨ s.now + 1 < since + 10000000 ∨ !s.governed.contains d ∨ top ≤ s.thermCeil d then .next s
  else
    let s1 := s.setThermCeil d (min top (s.thermCeil d + 25))
    .next (({ s1 with riseAt := natSet s1.riseAt d.val (s.now + 1) } : State).tellCeiling s d)
/-- CRIT_ACK: ignored while a sensor is at 95 °C or above. -/
def execCritAck (m : Master) (s : State) : Out :=
  if s.dyeOf m ≠ 0 then .next s.permissionError
  else if allRegions.any (fun r => decide (95 ≤ s.junction r)) then .next (s.answer [])
  else .next ((s.setBit .thm THM_STATUS 2 false).answer [])

/-! ### The governor's commands (R313, R314, R316, R317) -/

/-- CEILING_CHANGE. -/
def execCeilingChange (d : Dye) (slot : SlotNo) (mhz : Nat) (s : State) : Out := .next (s.takeCeiling d slot mhz)
/-- STRETCH_TIMEOUT: 65 µs without a switch point; the governor sets the frequency it asked for, with a record. -/
def execStretchTimeout (d : Dye) (s : State) : Out :=
  match s.stretchOf d with
  | none => .next s
  | some x =>
    if s.now < x.since + 65000 ∨ s.switchPoints.any (fun p => p.1 == d && decide (p.2.2 ≤ s.now)) then .next s
    else .next ((s.switchTo d x.freq).ledger { type := 6, detector := 0, dye := d, severity := 0, detail := [x.freq] })
/-- BUDGET_TICK: the measured power and each dye's metered energy are free values (log entry 64). -/
def execBudgetTick (s : State) : Out :=
  let dr := s.draw
  let s1 := dr.2.setFld .pwr PWR_PKG_W 0 12 (Config.freeNat dr.1)
  let s2 := (List.finRange 16).foldl (fun (t : State) d =>
    if d = 0 ∨ t.regionsOf d ≠ [] then (let e := t.draw; e.2.charge d (Config.freeNat e.1)) else t) s1
  .next s2.divide
/-- The fast limit in mW (R316, R366): the lower of 2,800 W and 450 A × VIN, as the latest 10 µs sample measured VIN. -/
def State.fastLimit (s : State) : Nat := min 2800000 (450 * s.fld .pkg PKG_SUPPLY 0 16)
/-- FAST_POWER_LIMIT: above the fast limit for 20 µs, or above 1.2 × the cap for 100 µs, every partition's regions here are stretched at 1/2, with a request (R314). -/
def execFastPowerLimit (vin : VinWindows) (s : State) : Out :=
  if s.fastLimit < vin.w20 ∨ 1200 * s.fld .pwr PWR_CAP 0 12 < vin.w100 then
    .next (s.governed.foldl (fun (t : State) d => t.beginStretch d true) s)
  else .next s

/-! ### Ageing trims (R319) -/

/-- AGEING_SAMPLE: a monitor short of its margin raises the trim by 5 mV, applied at the next wake or switch point; an eleventh step
fails the region at its next wake. The trim is kept in NOR. -/
def execAgeingSample (r : RegionNo) (monitor : Fin 8) (short : Bool) (s : State) : Out :=
  let o := PWR_RGN_TRIM + 4 * r.val
  let t := s.fld .pwr o 0 4
  if !short ∨ !(s.rgnState r = 0 ∨ s.rgnState r = 5) then .next s
  else if 10 ≤ t then .next { s with trimOver := if s.trimOver.contains r then s.trimOver else s.trimOver ++ [r] }
  else
    let s1 := ((s.setFld .pwr o 0 4 (t + 1)).setFld .pwr o 4 3 monitor.val).setFld .pwr o 8 8 (s.fld .pwr o 8 8 + 1)
    let s2 : State := { s1 with norTrims := natSet s1.norTrims r.val (t + 1), trimPend := natSet s1.trimPend r.val (natGet s1.trimPend r.val + 1) }
    .next (s2.ledger { type := 4, detector := 0x1D, dye := s.owner r, severity := 0, region := r, detail := [(s2.rd .pwr o).toNat] })

end Sys2Proof.Machine
end

