-- ==== Sys2Proof/Machine/Host.lean ====
section
/-! DEFINITION. The host port and its rings (R286 to R293) and the Ethernet ports (R294 to R296). -/

namespace Sys2Proof.Machine

/-! ### The host window (R288) -/

/-- A host read that fails: all ones and the poison flag, and the detector's event. -/
def State.hostReadFailed (s : State) (d : Dye) (n : Nat) : State :=
  (s.detectUnit 0x26 d 0).answer (List.replicate n 0xFF) true
/-- HOST_WINDOW_ACCESS: a read request or a posted write with the requester ID of virtual function d. A read request that cannot
leave fails. -/
def execHostWindowAccess (d : Dye) (a : Addr) (acc : Access) (s : State) : Out :=
  match s.place d a.toNat with
  | .host o =>
    match acc with
    | .read n =>
      if !s.hostUp then .next (s.hostReadFailed d n)
      else
        let s1 := s.carry .pci d n
        .next (({ s1 with hostTx := s1.hostTx ++ [.read d (BitVec.ofNat 64 o) n],
                          hostReads := s1.hostReads ++ [(d, BitVec.ofNat 64 o, n)] } : State).answer [])
    | .write bs =>
      if !s.hostUp then .next (s.answer [])
      else
        let s1 := s.carry .pci d bs.length
        .next (({ s1 with hostTx := s1.hostTx ++ [.write d (BitVec.ofNat 64 o) bs] } : State).answer [])
    | _ => .next (s.refuse (.vf d) a.toNat 8)
  | _ => .next (s.refuse (.vf d) a.toNat (match acc with | .read n => n | _ => 0))
/-- HOST_READ_COMPLETION: the oldest host-window read of the dye ends. UR, CA, poisoned data and a timeout return all ones and
poison. -/
def execHostReadCompletion (d : Dye) (e : HostReadEnd) (s : State) : Out :=
  match s.hostReads.find? (fun q => q.1 == d) with
  | none => .next s
  | some q =>
    let s1 : State := { s with hostReads := s.hostReads.erase q }
    match e with
    | .data bs => .next (s1.answer (takePad 0 q.2.2 bs))
    | _ => .next (s1.hostReadFailed d q.2.2)

/-! ### Rings (R290, R291) -/

def State.ringsOn (s : State) (d : Dye) : Bool := s.bit (.vf d) PCI_VF_STATUS 0
def State.sqSize (s : State) (d : Dye) : Nat := 2 ^ s.fld (.vf d) PCI_VF_SQ_SIZE 0 4
def State.cqSize (s : State) (d : Dye) : Nat := 2 ^ s.fld (.vf d) PCI_VF_CQ_SIZE 0 5
def State.msix (s : State) (d : Dye) (v : Nat) : State := { s with hostTx := s.hostTx ++ [.msix d v] }
/-- Entries of the completion ring that hold or will hold a record. -/
def State.cqUsed (s : State) (d : Dye) : Nat :=
  (s.rd (.vf d) PCI_VF_CQ_TAIL - s.rd (.vf d) PCI_VF_CQ_HEAD).toNat + (s.postQ.filter (fun p => p.dye == d)).length +
    natGet s.cqReserved d.val
/-- A dye whose next work item the Innkeeper may read. -/
def State.ringReady (s : State) (d : Dye) : Bool :=
  s.ringsOn d && s.rd (.vf d) PCI_VF_SQ_TAIL != s.rd (.vf d) PCI_VF_SQ_HEAD && decide (s.cqUsed d + 67 ≤ s.cqSize d)
/-- The dye whose ring the round robin reads next. -/
def State.ringNext (s : State) : Option Dye :=
  ((List.range 16).map (fun k => (Fin.ofNat 16 (s.ringTurn + k) : Dye))).find? s.ringReady
/-- The Innkeeper has read the items of a dye before a ring error: they are answered. -/
def State.answerInbox (s : State) (d : Dye) : State :=
  let mine := s.inbox.filter (fun e => e.1 == d)
  mine.foldl (fun (t : State) e => t.takeItem { uid := 0, dye := d, raw := e.2 })
    { s with inbox := s.inbox.filter (fun e => e.1 != d) }
/-- SQ_TAIL_WRITE: a tail that makes tail - head exceed the ring size or negative is a ring error: RING_ERR, both rings off,
vector 2; items already read are answered. While the rings are off the write is ignored. -/
def execSqTailWrite (d : Dye) (v : Word32) (s : State) : Out :=
  if !s.ringsOn d then .next (s.answer [])
  else if s.sqSize d < (v - s.rd (.vf d) PCI_VF_SQ_HEAD).toNat then
    let s1 := s.answerInbox d
    .next ((((s1.setW1c (.vf d) PCI_VF_STATUS 1).setBit (.vf d) PCI_VF_STATUS 0 false).msix d 2).answer [])
  else .next ((s.wr (.vf d) PCI_VF_SQ_TAIL v).answer [])
/-- RING_READ: one item, where it is the dye's turn and the completion ring has 67 free entries; three are reserved. An item of no
kind is answered at once; the others wait for the command of their kind. -/
def execRingRead (d : Dye) (item : Word512) (s : State) : Out :=
  if s.ringNext ≠ some d then .next s
  else
    let s1 := s.bump (.vf d) PCI_VF_SQ_HEAD
    let s2 : State := { s1 with ringTurn := (d.val + 1) % 16, cqReserved := natSet s1.cqReserved d.val (natGet s1.cqReserved d.val + 3) }
    let k := bitsOf item 0 4
    if 1 ≤ k ∧ k ≤ 8 then .next { s2 with inbox := s2.inbox ++ [(d, item)] }
    else .next (s2.takeItem { uid := 0, dye := d, raw := item })
/-- CQ_HEAD_WRITE. -/
def execCqHeadWrite (d : Dye) (v : Word32) (s : State) : Out := .next ((s.wr (.vf d) PCI_VF_CQ_HEAD v).answer [])

/-! ### Records and interrupts (R292) -/

/-- RECORD_POST: the oldest record of the dye is written at the ring's tail, then the tail shadow, then the vectors: 1 for an EVENT,
0 once COUNT records have gathered. -/
def execRecordPost (d : Dye) (s : State) : Out :=
  match s.postQ.find? (fun p => p.dye == d) with
  | none => .next s
  | some p =>
    let tail := s.rd (.vf d) PCI_VF_CQ_TAIL
    let base := s.rd64 (.vf d) PCI_VF_CQ_BASE_L
    let s1 : State := { s with postQ := s.postQ.erase p }
    let s2 := (s1.wr (.vf d) PCI_VF_CQ_TAIL (tail + 1)).carry .pci d 68
    let s3 : State := { s2 with hostTx := s2.hostTx ++
      [.write d (base + BitVec.ofNat 64 (tail.toNat % s.cqSize d * 64)) (leBytes p.data.toNat 64),
       .write d (s.rd64 (.vf d) PCI_VF_CQ_SHADOW_L) (leBytes (tail + 1).toNat 4)] }
    let n := natGet s3.unsignalled d.val + 1
    let count := let c := s.fld (.vf d) PCI_VF_INT_COAL 0 8; if c = 0 then 1 else c
    if p.event then .next (s3.msix d 1)
    else if count ≤ n then .next (({ s3 with unsignalled := natSet s3.unsignalled d.val 0 } : State).msix d 0)
    else .next { s3 with unsignalled := natSet s3.unsignalled d.val n }
/-- INTERRUPT_COALESCE_TIMER: TIME µs after the first record that is not signalled. -/
def execInterruptCoalesceTimer (d : Dye) (s : State) : Out :=
  if natGet s.unsignalled d.val = 0 ∨ s.fld (.vf d) PCI_VF_INT_COAL 8 16 = 0 then .next s
  else .next (({ s with unsignalled := natSet s.unsignalled d.val 0 } : State).msix d 0)
/-- ENABLE_RINGS: both heads and both tails are 0. -/
def execEnableRings (d : Dye) (s : State) : Out :=
  let s1 := [PCI_VF_SQ_TAIL, PCI_VF_SQ_HEAD, PCI_VF_CQ_HEAD, PCI_VF_CQ_TAIL].foldl (fun (t : State) o => t.wr (.vf d) o 0) s
  .next (({ s1.setBit (.vf d) PCI_VF_STATUS 0 true with unsignalled := natSet s1.unsignalled d.val 0 } : State).answer [])

/-! ### Disabled rings, resets and a slower port (R293) -/

/-- The rings go off; records of the dye that wait are discarded and counted. -/
def State.ringsOff (s : State) (d : Dye) : State :=
  let n := (s.postQ.filter (fun p => p.dye == d)).length
  let s1 := (s.setBit (.vf d) PCI_VF_STATUS 0 false).bump (.vf d) PCI_VF_LOST_RECORDS n
  { s1 with postQ := s1.postQ.filter (fun p => p.dye != d), unsignalled := natSet s1.unsignalled d.val 0 }
/-- DISABLE_RINGS. -/
def execDisableRings (d : Dye) (s : State) : Out := .next ((s.ringsOff d).answer [])
/-- An FLR: the dye's waiting reads fail (R288, log entry 142), rings off, tier-3 pages lost, the load in progress refused, a
command's result discarded. -/
def State.flr (s : State) (d : Dye) : State :=
  let s0 := (s.hostReads.filter (fun q => q.1 == d)).foldl (fun (t : State) q => t.hostReadFailed d q.2.2) s
  let s1 := s0.ringsOff d
  let s2 := s1.losePages (fun q p => q == d && p.tier == 3)
  let s3 := s2.abortLoad d
  { s3 with hostReads := s3.hostReads.filter (fun q => q.1 != d),
            publishing := s3.publishing.filter (fun p => p.1 != d),
            smfBusy := tabSet (fun _ => false) s3.smfBusy d.val false,
            fabReqs := s3.fabReqs.map (fun q => if q.issuer = .command d then { q with issuer := .dropped } else q) }
def execFlr (d : Dye) (s : State) : Out := .next (s.flr d)
/-- The host port fails: every virtual function as in an FLR. -/
def State.hostDown (s : State) : State := (List.finRange 16).foldl (fun (t : State) d => t.flr d) { s with hostUp := false }
/-- SURPRISE_DOWN, or a hot reset. -/
def execSurpriseDown (s : State) : Out := .next s.hostDown
/-- HOST_PORT_REDUCED: the port has trained at a rate times width; below 64 GT/s x16 it is reduced. -/
def execHostPortReduced (gtsLanes : Nat) (s : State) : Out :=
  let s1 := (List.finRange 16).foldl (fun (t : State) d => t.setBit (.vf d) PCI_VF_STATUS 3 (decide (gtsLanes < 1024))) s
  .next ({ s1 with hostGts := min 1024 gtsLanes, hostUp := true } : State).repriced

/-! ### Ethernet ports (R294 to R297) -/

def State.setEth (s : State) (p : Fin 2) (st : Nat) : State :=
  s.wr (.eth p) ETH_STATUS (BitVec.ofNat 32 (st + b2n (st == 2) * 4))
/-- What a port had in flight leaves again on the other port, in SEQ order; the SEQs it had taken are free again (log entry 65). -/
def State.moveInFlight (s : State) (p : Fin 2) : State :=
  if !s.ethUp (p + 1) then s
  else (List.finRange 64).foldl (fun (t : State) sl =>
    let k := pairKey sl p
    let pr := tabGet pairReset t.fabPairs k
    if pr.unacked = [] then t
    else
      let t1 : State := { t with
        fabPairs := tabSet pairReset t.fabPairs k { pr with unacked := [], seq := pr.seq - pr.unacked.length },
        fabReqs := t.fabReqs.map (fun q => if q.dst = sl ∧ q.port = p then { q with port := p + 1 } else q) }
      pr.unacked.foldl (fun (u : State) q => (u.fabSend q).bump .smf SMF_RETX) t1) s
/-- A port goes down. -/
def State.portDown (s : State) (p : Fin 2) : State :=
  let was := s.ethUp p
  let s1 := s.setEth p 0
  if was then s1.moveInFlight p else s1
def State.ethCtrl (s : State) (m : Master) (f : State → State) : Out :=
  if s.dyeOf m ≠ 0 then .next s.permissionError else .next ((f s).answer [])
/-- ETH_ENABLE: the port trains and is UP (log entry 66). -/
def execEthEnable (m : Master) (p : Fin 2) (s : State) : Out := s.ethCtrl m (fun s => s.setEth p 2)
/-- ETH_DISABLE. -/
def execEthDisable (m : Master) (p : Fin 2) (s : State) : Out := s.ethCtrl m (fun s => s.portDown p)
/-- ETH_RETRAIN: a port that is down stays so. -/
def execEthRetrain (m : Master) (p : Fin 2) (s : State) : Out :=
  s.ethCtrl m (fun s => if s.fld (.eth p) ETH_STATUS 0 2 = 0 then s else s.setEth p 2)
/-- ETH_PORT_DOWN. -/
def execEthPortDown (p : Fin 2) (s : State) : Out := .next (s.portDown p)

/-- The MAC address and VLAN ID that the management partition gave a dye on a port, if its entry is VALID. -/
def State.ethName (s : State) (p : Fin 2) (d : Dye) : Option (BitVec 48 × BitVec 12) :=
  let h := s.rd (.eth p) (pageOff d ETH_D_MAC_H)
  if bitOf h 31 then
    some (BitVec.ofNat 48 ((s.rd (.eth p) (pageOff d ETH_D_MAC_L)).toNat + bitsOf h 0 16 * 2 ^ 32), BitVec.ofNat 12 (bitsOf h 16 12))
  else none
/-- The host address of a descriptor of a ring. -/
def State.ethDesc (s : State) (p : Fin 2) (d : Dye) (base i logLo : Nat) : Word64 :=
  s.rd64 (.eth p) (pageOff d base) + BitVec.ofNat 64 (i % 2 ^ s.fld (.eth p) (pageOff d ETH_D_QSIZE) logLo 4 * 16)
/-- A descriptor finished: DONE, with TS_VALID and the timestamp where there is one. The bits of the length beside them are those
that the descriptor holds, a free value here (log entry 67). -/
def State.finishDesc (s : State) (d : Dye) (a : Word64) (len : Option Nat) (stamp : Bool) : State :=
  let dr := s.draw
  let n := ((len.getD (Config.freeNat dr.1)) % 2 ^ 14) + 2 ^ 14 + b2n stamp * 2 ^ 15
  let t := dr.2
  { t with hostTx := t.hostTx ++ [.write d (a + 6) (leBytes n 2)] ++ (if stamp then [.write d (a + 8) (leBytes t.now 8)] else []) }
/-- ETH_FRAME_RECEIVE: a frame goes to the dye whose MAC address and VLAN it carries; a fabric frame goes to the fabric engine, whose
own commands carry it; any other is dropped and counted. Where a descriptor points is in host memory: a free value. -/
def execEthFrameReceive (p : Fin 2) (f : EthFrame) (s : State) : Out :=
  if !s.ethUp p ∨ f.fabric then .next s
  else
    match (List.finRange 16).find? (fun d => s.ethName p d == some (f.mac, f.vlan)) with
    | none => .next (s.bump (.eth p) ETH_RX_DROP)
    | some d =>
      let head := s.rd (.eth p) (pageOff d ETH_D_RXQ_HEAD)
      if head = s.rd (.eth p) (pageOff d ETH_D_RXQ_TAIL) ∨ 9216 < f.bytes.length then .next (s.bump (.eth p) ETH_RX_DROP)
      else
        let a := s.ethDesc p d ETH_D_RXQ_BASE_L head.toNat 4
        let dr := s.draw
        let t := dr.2.wr (.eth p) (pageOff d ETH_D_RXQ_HEAD) (head + 1)
        let t1 : State := { t with ethRx := t.ethRx ++ [(d, p, f.bytes)],
                                   hostTx := t.hostTx ++ [.read d a 16, .write d (Config.freeWord dr.1) f.bytes] }
        .next ((t1.carry .pci d f.bytes.length).finishDesc d a (some f.bytes.length) (d == 0 && f.event1588))
/-- ETH_TXQ_TAIL_WRITE: the descriptors up to the new tail are read, and their frames wait to leave. -/
def execEthTxqTailWrite (d : Dye) (p : Fin 2) (v : Word32) (s : State) : Out :=
  let old := s.rd (.eth p) (pageOff d ETH_D_TXQ_TAIL)
  let s1 := s.wr (.eth p) (pageOff d ETH_D_TXQ_TAIL) v
  match s1.ethName p d with
  | none => .next (s1.answer [])
  | some (mac, vlan) =>
    let size := 2 ^ s.fld (.eth p) (pageOff d ETH_D_QSIZE) 0 4
    let n := min size (v - old).toNat
    let idx := (List.range n).map (fun k => (old + BitVec.ofNat 32 k).toNat)
    .next (({ s1 with
      ethTx := s1.ethTx ++ idx.map (fun i => { port := p, dye := d, mac := mac, vlan := vlan, index := i }),
      hostTx := s1.hostTx ++ idx.map (fun i => HostOut.read d (s1.ethDesc p d ETH_D_TXQ_BASE_L i 0) 16) } : State).answer [])
/-- ETH_FRAME_SENT: the oldest frame of the dye on the port has left: DONE, the head, and the timestamp of a frame of dye 0 that
carries an event message. Its length stands in the descriptor: a free value. -/
def execEthFrameSent (d : Dye) (p : Fin 2) (event1588 : Bool) (s : State) : Out :=
  if !s.ethUp p then .next s
  else
    match s.ethTx.find? (fun e => e.dye == d && e.port == p) with
    | none => .next s
    | some e =>
      let dr := s.draw
      let n := Config.freeNat dr.1 % 9217
      let t : State := { dr.2 with ethTx := dr.2.ethTx.erase e }
      let t1 := (t.wr (.eth p) (pageOff d ETH_D_TXQ_HEAD) (BitVec.ofNat 32 (e.index + 1))).carry (.eth p) d n
      .next ((t1.carry .pci d n).finishDesc d (s.ethDesc p d ETH_D_TXQ_BASE_L e.index 0) (some n) (d == 0 && event1588))
/-- ETH_WALL_OFS_WRITE: the high word commits both. On the master the offset goes to CNT_WALL_OFS, and out with its
synchronisation messages; elsewhere the write is ignored. -/
def execEthWallOfsWrite (m : Master) (p : Fin 2) (v : Word32) (s : State) : Out :=
  s.ethCtrl m (fun s =>
    if s.master ≠ some s.slot then s
    else
      let s1 := ((s.wr .cnt CNT_WALL_OFS_L (tabGet (fun _ => 0) s.wallOfsL p.val)).wr .cnt CNT_WALL_OFS_H v).setBit .cnt CNT_STATUS 4 true
      if s1.anyUp then { s1 with linkTx := s1.linkTx ++ [.wallOfs (s1.rd64 .cnt CNT_WALL_OFS_L)] } else s1)

end Sys2Proof.Machine
end

