-- ==== Sys2Proof/Machine/Fabric.lean ====
section
/-! DEFINITION. The shared-memory fabric (R297 to R303): what the home performs, segments and leases, the go-back-N transport, and
the commands of the SMF_ pages. -/

namespace Sys2Proof.Machine

/-! ### Status codes (Table 13-7) -/

def xOK : Nat := 0
def xORPHANED : Nat := 1
def xHELD : Nat := 2
def xNOTOWNER : Nat := 3
def xEXPIRED : Nat := 4
def xADDRESS : Nat := 5
def xNOLEASE : Nat := 6
def xDEAD : Nat := 7
def xPOISON : Nat := 8
def xBUSY : Nat := 9
def xBADCMD : Nat := 10

/-! ### Segments (R299, Table 13-6): 0 FREE, 1 LEASED, 2 ORPHANED -/

def segReset (_ : Nat) : Option Segment := none
def State.segment (s : State) (n : Nat) : Option Segment := tabGet segReset s.segments n
def State.setSegment (s : State) (n : Nat) (g : Option Segment) : State := { s with segments := tabSet segReset s.segments n g }
def State.leasesHeld (s : State) : Nat := (s.segments.filter (fun e => e.2.any (fun g => g.state == 1))).length
/-- SMF_STATUS: READY while a port is up (log entry 70), and the leases held at this home. -/
def State.smfFollow (s : State) : State :=
  s.wr .smf SMF_STATUS (BitVec.ofNat 32 (b2n (s.ethUp 0 || s.ethUp 1) + s.leasesHeld % 2 ^ 16 * 2))
/-- TIER_DONATED: frames of donated segments. -/
def State.donatedFollow (s : State) : State :=
  s.wr .tier TIER_DONATED (BitVec.ofNat 32 (32 * (s.segments.filter (fun e => e.2.any (·.donated))).length))
/-- A segment ceases to exist and its frames are FREE. -/
def State.freeSegment (s : State) (n : Nat) : State :=
  let s1 := (List.range 32).foldl (fun (t : State) i => t.freeFrame (32 * n + i)) s
  (((s1.setSegment n none).disarm (fun w => w == .lease n)).donatedFollow).smfFollow
/-- The counter has reached a lease's expiry: the segment is ORPHANED; a donated one is FREE and its frames with it (R152). -/
def State.expire (s : State) (n : Nat) : State :=
  match s.segment n with
  | none => s
  | some g =>
    if g.state ≠ 1 ∨ s.now < g.expiry then s
    else
      let s1 := s.bump .smf SMF_ORPHANED
      if g.donated then s1.freeSegment n
      else ((s1.setSegment n (some { g with state := 2 })).disarm (fun w => w == .lease n)).smfFollow
/-- LEASE_EXPIRY. -/
def execLeaseExpiry (seg : Nat) (s : State) : Out := .next (s.expire seg)
/-- A segment that a borrower may lease here (R152): its TIERS data name this slot as a donor, the segment lies at or above its
DBASE, and the segment's frames are FREE. They become DONATED. -/
def State.donate (s : State) (src : SlotNo) (n : Nat) : State :=
  let entries := (imageSections s.sysImage).flatMap (fun x => match x.body with | .tiers es => es | _ => [])
  let ok := entries.any (fun e => e.slot == src && e.donors.contains s.slot && decide (e.dbase ≤ n * segBytes))
  if !ok || (s.segment n).isSome || !(List.range 32).all (fun i => (s.frame (32 * n + i)).state == 0) || decide (524288 ≤ n) then s
  else
    let s1 := (List.range 32).foldl (fun (t : State) i => t.setFrame (32 * n + i) { owner := 0, state := 3, stale := 0xFFFF }) s
    (s1.setSegment n (some { dye := 0, donated := true })).donatedFollow

/-! ### What the home performs (R298 to R300) -/

/-- A response before it is sent: status, OPERAND1 and payload. -/
structure Reply where
  status : Nat
  value : Word64 := 0
  data : List Byte := []
  deriving DecidableEq, Repr, Inhabited

/-- ACQUIRE, RENEW and RELEASE on a segment of the dye, its expiry applied before. -/
def State.leaseOp (s : State) (src : SlotNo) (p : FabricPacket) (n : Nat) (g : Segment) : Reply × State :=
  let us := p.operand0.toNat
  let mine := g.holder == src
  let until_ := s.now + us * 1000
  let grant := fun (st : Nat) (h : SlotNo) =>
    let s1 := (s.setSegment n (some { g with state := 1, holder := h, epoch := p.epoch, expiry := until_ })).disarm (fun w => w == .lease n)
    (({ status := st, value := BitVec.ofNat 64 until_ } : Reply), (s1.armCmp 1 until_ (.lease n)).smfFollow)
  let bad := decide (us < 100) || decide (10000000 < us)
  match p.op.toNat with
  | 6 =>
    if bad then ({ status := xBADCMD }, s)
    else if g.state = 1 then ({ status := xHELD, value := BitVec.ofNat 64 g.expiry }, s)
    else if s.sync < 2 ∨ 65536 ≤ s.leasesHeld then ({ status := xNOLEASE }, s)
    else grant (if g.state = 2 then xORPHANED else xOK) src
  | 7 =>
    if bad then ({ status := xBADCMD }, s)
    else if g.state = 1 ∧ mine then grant xOK src
    else ({ status := if g.state = 2 ∧ mine then xEXPIRED else xNOTOWNER }, s)
  | _ =>
    if g.state = 1 ∧ mine then
      if g.donated then ({ status := xOK }, s.freeSegment n)
      else ({ status := xOK }, ((s.setSegment n (some { g with state := 0 })).disarm (fun w => w == .lease n)).smfFollow)
    else ({ status := if g.state = 2 ∧ mine then xEXPIRED else xNOTOWNER }, s)
/-- What an atomic leaves in the word. -/
def atomicNew (op : Nat) (old a b : Word64) : Word64 :=
  if op = 3 then old + a else if op = 4 then (if old = a then b else old) else a
/-- A request performed at its home. A repeated expiry check comes first (Table 13-11). -/
def State.homeOp (s0 : State) (src : SlotNo) (p : FabricPacket) : Reply × State :=
  let o := p.offset.toNat
  let n := o / segBytes
  let s1 := s0.expire n
  let s := if p.op = 6 ∧ p.dye = 0 then s1.donate src n else s1
  match s.segment n with
  | none => ({ status := xADDRESS }, s)
  | some g =>
    let holds := g.state == 1 && g.holder == src
    let len := (p.countM1.toNat + 1) * 128
    if g.dye ≠ p.dye then ({ status := xADDRESS }, s)
    else match p.op.toNat with
      | 1 =>
        if o % 128 ≠ 0 ∨ segBytes < o % segBytes + len then ({ status := xADDRESS }, s)
        else
          let r := s.hbmRead p.dye o len
          ({ status := if r.1.2 then xPOISON else xOK, data := r.1.1 }, r.2)
      | 2 =>
        if segBytes < o % segBytes + p.payload.length then ({ status := xADDRESS }, s)
        else if !holds then ({ status := if g.state = 2 ∧ g.holder = src then xEXPIRED else xNOTOWNER }, s)
        else ({ status := xOK }, s.hbmWrite o p.payload)
      | 6 => s.leaseOp src p n g
      | 7 => s.leaseOp src p n g
      | 8 => s.leaseOp src p n g
      | op =>
        if o % 8 ≠ 0 then ({ status := xADDRESS }, s)
        else if !(g.state == 0 || holds) then ({ status := xNOTOWNER }, s)
        else
          let r := s.hbmRead p.dye o 8
          if r.1.2 then ({ status := xPOISON, value := BitVec.ofNat 64 (2 ^ 64 - 1) }, r.2)
          else
            let old := BitVec.ofNat 64 (leNat r.1.1)
            ({ status := xOK, value := old }, r.2.hbmWrite o (leBytes (atomicNew op old p.operand0 p.operand1).toNat 8))

/-! ### The transport (R297, R301) -/

/-- A packet sent again on a port: the same SEQ, the next TXC. -/
def State.fabResend (s : State) (q : FabricPacket) (port : Fin 2) : State :=
  let k := pairKey q.dstSlot port * 16 + q.dye.val
  let pr := tabGet pairReset s.fabPairs (pairKey q.dstSlot port)
  { s with fabTx := s.fabTx ++ [{ q with port := port, ackSeq := BitVec.ofNat 32 (pr.rxNext + 0xFFFFFFFF),
                                         txc := BitVec.ofNat 64 (natGet s.fabTxc k) }],
           fabTxc := natBump s.fabTxc k }
/-- A packet without a place in the sequence: ACK and PROBE. -/
def State.fabBare (s : State) (op : BitVec 4) (dst : SlotNo) (port : Fin 2) : State :=
  s.fabResend { op := op, dye := 0, srcSlot := s.slot, dstSlot := dst } port
/-- Packets up to ACK_SEQ are acknowledged. -/
def State.fabAcked (s : State) (p : FabricPacket) : State :=
  let k := pairKey p.srcSlot p.port
  let pr := tabGet pairReset s.fabPairs k
  let pr1 := { pr with unacked := pr.unacked.filter (fun q => decide (2 ^ 31 ≤ (p.ackSeq - q.seq).toNat)) }
  { s with fabPairs := tabSet pairReset s.fabPairs k pr1 }
/-- A packet is accepted only with its OP, for this slot, with a tag that verifies and a TXC above every one accepted; one that is not
is discarded and counted (log entry 68). -/
def State.fabAccept (s : State) (p : FabricPacket) (op : Nat) (f : State → Out) : Out :=
  let k := pairKey p.srcSlot p.port * 16 + p.dye.val
  if p.op.toNat ≠ op ∨ p.dstSlot ≠ s.slot then .next s
  else if !p.tagOk ∨ p.txc.toNat < natGet s.fabRxTxc k then .next (s.bump (.eth p.port) ETH_RX_DROP)
  else f (({ s with fabRxTxc := natSet s.fabRxTxc k (p.txc.toNat + 1) } : State).fabAcked p)
/-- A response leaves on the port that its request came by, and is kept with the last 256 of the pair. -/
def State.fabReply (s : State) (p : FabricPacket) (r : Reply) : State :=
  let k := pairKey p.srcSlot p.port
  let pr := tabGet pairReset s.fabPairs k
  let q : FabricPacket := { op := 9, dye := p.dye, srcSlot := s.slot, dstSlot := p.srcSlot, port := p.port,
                            status := BitVec.ofNat 8 r.status, seq := BitVec.ofNat 32 pr.seq, offset := p.offset, countM1 := p.countM1,
                            epoch := p.epoch, tag := p.tag, operand1 := r.value, payload := r.data }
  let cache := pr.cache ++ [(p.seq.toNat, q)]
  let pr1 := { pr with seq := pr.seq + 1, unacked := pr.unacked ++ [q], cache := cache.drop (cache.length - 256) }
  let s1 : State := { s with fabPairs := tabSet pairReset s.fabPairs k pr1 }
  (s1.carry (.eth p.port) p.dye r.data.length).fabResend q p.port
/-- A packet with a place in the sequence: the next one is taken, an earlier one was taken before, a later one waits for the ones
between to be sent again. -/
def State.fabInOrder (s : State) (p : FabricPacket) (fresh repeated : State → State) : State :=
  let k := pairKey p.srcSlot p.port
  let pr := tabGet pairReset s.fabPairs k
  let next := BitVec.ofNat 32 pr.rxNext
  if p.seq = next then
    fresh { s with fabPairs := tabSet pairReset s.fabPairs k { pr with rxNext := pr.rxNext + 1 } }
  else if 2 ^ 31 ≤ (p.seq - next).toNat then repeated s
  else s
/-- A request of another package: performed once, and answered again where it is repeated. -/
def State.fabServe (s : State) (p : FabricPacket) (op : Nat) : Out :=
  s.fabAccept p op (fun s => .next (s.fabInOrder p
    (fun t => let r := t.homeOp p.srcSlot p; r.2.fabReply p r.1)
    (fun t =>
      match (tabGet pairReset t.fabPairs (pairKey p.srcSlot p.port)).cache.find? (fun e => e.1 == p.seq.toNat) with
      | some e => t.fabResend e.2 p.port
      | none => t.fabBare 10 p.srcSlot p.port)))
/-- FABRIC_READ. -/
def execFabricRead (p : FabricPacket) (s : State) : Out := s.fabServe p 1
/-- FABRIC_WRITE. -/
def execFabricWrite (p : FabricPacket) (s : State) : Out := s.fabServe p 2
/-- FABRIC_FETCH_ADD. -/
def execFabricFetchAdd (p : FabricPacket) (s : State) : Out := s.fabServe p 3
/-- FABRIC_CAS. -/
def execFabricCas (p : FabricPacket) (s : State) : Out := s.fabServe p 4
/-- FABRIC_SWAP. -/
def execFabricSwap (p : FabricPacket) (s : State) : Out := s.fabServe p 5
/-- FABRIC_ACQUIRE. -/
def execFabricAcquire (p : FabricPacket) (s : State) : Out := s.fabServe p 6
/-- FABRIC_RENEW. -/
def execFabricRenew (p : FabricPacket) (s : State) : Out := s.fabServe p 7
/-- FABRIC_RELEASE. -/
def execFabricRelease (p : FabricPacket) (s : State) : Out := s.fabServe p 8

/-! ### Responses and failures of this package's requests (R300 to R302) -/

/-- A command of a page is done. -/
def State.smfDone (s : State) (d : Dye) (status : Nat) (v : Word64 := 0) : State :=
  { ((s.wrP .smf d SMF_D_RESULT0 (BitVec.ofNat 32 (status + 256))).wr64 .smf (pageOff d SMF_D_RESULT) v) with
    smfBusy := tabSet (fun _ => false) s.smfBusy d.val false }
/-- What the holder's fabric engine keeps after the home has answered: the lease and its expiry. -/
def State.keepLease (s : State) (dst : SlotNo) (q : FabricPacket) (tier : Bool) (status : Nat) (v : Word64) : State :=
  let seg := q.offset.toNat / segBytes
  let same := fun (x : LeaseHeld) => x.slot == dst && x.seg == seg && x.dye == q.dye
  let ok := status == xOK || status == xORPHANED
  if (q.op = 6 ∨ q.op = 7) ∧ ok then
    let wasTier := tier || s.leases.any (fun x => same x && x.tier)
    { s with leases := s.leases.filter (fun x => !same x) ++
      [{ slot := dst, seg := seg, expiry := v.toNat, dye := q.dye, epoch := q.epoch, us := q.operand0.toNat, tier := wasTier }] }
  else if q.op = 7 ∨ (q.op = 8 ∧ ok) then { s with leases := s.leases.filter (fun x => !same x) }
  else s
/-- A request ends with a status: its issuer learns of it. A read that fails returns all ones and poison. What a core's DMA or a page
move waits for comes with the command that completes it. -/
def State.fabEnd (s : State) (q : FabReq) (status : Nat) (v : Word64) (data : List Byte) : State :=
  let s1 : State := { s with fabReqs := s.fabReqs.filter (fun x => x.tag != q.tag) }
  let s2 := if status = xDEAD then s1 else s1.keepLease q.dst q.packet (q.issuer == .tier) status v
  match q.issuer with
  | .command d =>
    if q.packet.op = 1 then
      if status = xOK ∨ status = xORPHANED then s2.answer data
      else s2.answer (List.replicate ((q.packet.countM1.toNat + 1) * 128) 0xFF) true
    else if q.packet.op = 2 then s2
    else s2.smfDone d status v
  | _ => s2
/-- FABRIC_RESPONSE: matched to its request by TAG; a response without one, or for an earlier epoch of its core, is discarded. -/
def execFabricResponse (p : FabricPacket) (s : State) : Out :=
  s.fabAccept p 9 (fun s => .next ((s.fabInOrder p
    (fun t =>
      match t.fabReqs.find? (fun q => q.dst == p.srcSlot && BitVec.ofNat 16 q.tag == p.tag) with
      | none => t
      | some q =>
        let stale := match q.issuer with | .core c => (t.core c).epoch != p.epoch | _ => false
        let rtt := t.now - q.sentAt
        let t1 := t.wr .smf SMF_RTT_MAX (BitVec.ofNat 32 (max (t.rd .smf SMF_RTT_MAX).toNat (min rtt 0xFFFFFFFF)))
        let t2 : State := { (t1.hist 4 q.packet.dye q.dst.val rtt) with fabDead := natSet t1.fabDead q.dst.val 0 }
        if stale then { t2 with fabReqs := t2.fabReqs.filter (fun x => x.tag != q.tag) }
        else t2.fabEnd q p.status.toNat p.operand1 p.payload)
    (fun t => t)).fabBare 10 p.srcSlot p.port))
/-- FABRIC_ACK; it also answers a PROBE, which clears UNREACHABLE. -/
def execFabricAck (p : FabricPacket) (s : State) : Out :=
  s.fabAccept p 10 (fun s => .next { s with unreachable := s.unreachable.filter (· ≠ p.srcSlot),
                                            fabDead := natSet s.fabDead p.srcSlot.val 0 })
/-- FABRIC_PROBE: answered with an ACK. -/
def execFabricProbe (p : FabricPacket) (s : State) : Out := s.fabAccept p 11 (fun s => .next (s.fabBare 10 p.srcSlot p.port))
/-- FABRIC_RETRANSMIT: go-back-N: every packet of the pair that is not acknowledged leaves again. -/
def execFabricRetransmit (slot : SlotNo) (port : Fin 2) (s : State) : Out :=
  let qs := (tabGet pairReset s.fabPairs (pairKey slot port)).unacked
  .next (qs.foldl (fun (t : State) q => (t.fabResend q port).bump .smf SMF_RETX) s)
/-- FABRIC_DEAD: a request without a response after 50 µs, or whose peer is lost; the third in a row marks the peer UNREACHABLE. -/
def execFabricDead (tag : BitVec 16) (s : State) : Out :=
  match s.fabReqs.find? (fun q => BitVec.ofNat 16 q.tag == tag) with
  | none => .next s
  | some q =>
    if s.now < q.sentAt + 50000 ∧ !s.lostSlots.contains q.dst then .next s
    else
      let n := natGet s.fabDead q.dst.val + 1
      let s1 := (s.bump .smf SMF_TIMEOUTS).detectUnit 0x25 q.packet.dye q.dst.val
      let s2 : State := { s1 with fabDead := natSet s1.fabDead q.dst.val n,
                                  unreachable := if 3 ≤ n ∧ !s1.unreachable.contains q.dst then s1.unreachable ++ [q.dst] else s1.unreachable }
      let s3 := s2.fabEnd q xDEAD 0 []
      -- A donor that has vanished loses the pages with a granule on it (R152).
      .next (if 3 ≤ n then s3.loseDonors [q.dst] else s3)
/-- PROBE_TIMER: every 100 µs to a peer that is UNREACHABLE. -/
def execProbeTimer (slot : SlotNo) (s : State) : Out :=
  if s.unreachable.contains slot then .next (s.fabBare 11 slot (s.fabPort slot)) else .next s
/-- LEASE_RENEW_TIMER: the tier manager renews its leases on donated segments at half their duration. -/
def execLeaseRenewTimer (seg : Nat) (s : State) : Out :=
  let due := s.leases.filter (fun x => x.tier && x.seg == seg && decide (x.expiry ≤ s.now + x.us * 500) &&
    !s.fabReqs.any (fun q => q.packet.op == 7 && q.dst == x.slot && q.packet.offset.toNat / segBytes == seg))
  .next (due.foldl (fun (t : State) x =>
    (t.fabRequest { op := 7, dye := 0, srcSlot := t.slot, dstSlot := x.slot, offset := BitVec.ofNat 40 (x.seg * segBytes),
                    operand0 := BitVec.ofNat 64 x.us } (.lease x.seg)).2) s)

/-! ### The SMF_ commands (Table 13-10) -/

/-- The slot and offset of an address of the system shared space. -/
def sharedAddr (a : Addr) : Option (SlotNo × Nat) :=
  if 0x400000000000 ≤ a.toNat ∧ a.toNat < 0x800000000000 then
    some (Fin.ofNat 64 ((a.toNat - 0x400000000000) / 2 ^ 40), a.toNat % 2 ^ 40)
  else none
/-- A command of page d: BUSY while the one before is not DONE; at the own slot it is performed at once; a holder whose lease is about
to expire issues no atomic (R300). -/
def State.smfCommand (s : State) (d : Dye) (op : BitVec 4) (a : Addr) (x y : Word64) : State :=
  if tabGet (fun _ => false) s.smfBusy d.val then s.wrP .smf d SMF_D_RESULT0 (BitVec.ofNat 32 xBUSY)
  else
    match sharedAddr a with
    | none => s.smfDone d xADDRESS
    | some (slot, o) =>
      let p : FabricPacket := { op := op, dye := d, srcSlot := s.slot, dstSlot := slot, offset := BitVec.ofNat 40 o, operand0 := x, operand1 := y }
      let takes := op.toNat == 6 || op.toNat == 7
      if slot = s.slot then
        let r := s.homeOp s.slot p
        (r.2.keepLease slot p false r.1.status r.1.value).smfDone d r.1.status r.1.value
      else if decide (op.toNat < 6) && s.leaseLate d slot o then s.smfDone d xEXPIRED
      else if takes && decide (s.sync < 2) then s.smfDone d xNOLEASE
      else
        let r := s.fabRequest p (.command d)
        if r.1 then { (r.2.wrP .smf d SMF_D_RESULT0 0) with smfBusy := tabSet (fun _ => false) r.2.smfBusy d.val true }
        else r.2.smfDone d xDEAD
/-- SMF_ACQUIRE. -/
def execSmfAcquire (d : Dye) (a : Addr) (us : Nat) (s : State) : Out := .next (s.smfCommand d 6 a (BitVec.ofNat 64 us) 0)
/-- SMF_RENEW. -/
def execSmfRenew (d : Dye) (a : Addr) (us : Nat) (s : State) : Out := .next (s.smfCommand d 7 a (BitVec.ofNat 64 us) 0)
/-- SMF_RELEASE. -/
def execSmfRelease (d : Dye) (a : Addr) (s : State) : Out := .next (s.smfCommand d 8 a 0 0)
/-- SMF_FETCH_ADD. -/
def execSmfFetchAdd (d : Dye) (a : Addr) (v : Word64) (s : State) : Out := .next (s.smfCommand d 3 a v 0)
/-- SMF_CAS. -/
def execSmfCas (d : Dye) (a : Addr) (cmp : Word64) (v : Word64) (s : State) : Out := .next (s.smfCommand d 4 a cmp v)
/-- SMF_SWAP. -/
def execSmfSwap (d : Dye) (a : Addr) (v : Word64) (s : State) : Out := .next (s.smfCommand d 5 a v 0)
/-- A segment whose frames are all FREE, from a number on, wrapping; fuel counts segments. -/
def State.freeSegFrom (s : State) : Nat → Nat → Option Nat
  | 0, _ => none
  | k + 1, n =>
    let g := n % 524288
    if (s.segment g).isNone && (List.range 32).all (fun i => (s.frame (32 * g + i)).state == 0) then some g
    else s.freeSegFrom k (n + 1)
/-- SEG_ALLOC: 2 MiB of FREE frames become the dye's; which segment is the package's choice, a free value. Without 32 frames for the
dye in tier 1 the command answers NO_LEASE (log entry 71). -/
def execSegAlloc (d : Dye) (s : State) : Out :=
  if tabGet (fun _ => false) s.smfBusy d.val then .next (s.wrP .smf d SMF_D_RESULT0 (BitVec.ofNat 32 xBUSY))
  else
    let dr := s.draw
    match (if s.shortBy d 32 = 0 then dr.2.freeSegFrom (s.frames.length + 200) (Config.freeNat dr.1) else none) with
    | none => .next (dr.2.smfDone d xNOLEASE)
    | some n =>
      let s1 := (List.range 32).foldl (fun (t : State) i => t.grantFrame (32 * n + i) d 1 0) dr.2
      let s2 := s1.setSegment n (some { dye := d })
      .next (s2.smfDone d xOK (BitVec.ofNat 64 (0x400000000000 + s.slot.val * 2 ^ 40 + n * segBytes)))
/-- SEG_FREE: at the segment's home, by its dye. -/
def execSegFree (d : Dye) (a : Addr) (s : State) : Out :=
  if tabGet (fun _ => false) s.smfBusy d.val then .next (s.wrP .smf d SMF_D_RESULT0 (BitVec.ofNat 32 xBUSY))
  else
    match sharedAddr a with
    | some (slot, o) =>
      let n := o / segBytes
      if slot = s.slot ∧ (s.segment n).any (fun g => g.dye == d && !g.donated) then .next ((s.freeSegment n).smfDone d xOK)
      else .next (s.smfDone d xADDRESS)
    | none => .next (s.smfDone d xADDRESS)

end Sys2Proof.Machine
end

