-- ==== Sys2Proof/Machine/Boot.lean ====
section
/-! DEFINITION. The die rails go off and on: what survives, the cold start of the dies, Standby, and the boot chain (R305, R337,
R343 to R345, R370 to R372). -/

namespace Sys2Proof.Machine

/-! ### What survives the die rails (Table 14-1, Table 15-6) -/

/-- The registers of the always-on domain: the pin registers and the night porter's windows. -/
def alwaysOn (k : Nat) : Bool :=
  decide (k = regKey .pkg PKG_STRAPS) || decide (k = regKey .pkg PKG_RESET_CAUSE) || decide (k = regKey .pkg PKG_SUPPLY) ||
  decide (k / 0x10000 = winIndex .mgt) || decide (k / 0x10000 = winIndex .npt)
/-- Some other package of the topology is there. -/
def State.hasNeighbours (s : State) : Bool :=
  match s.topology with
  | none => false
  | some t => t.coords.any (fun e => e.1 != s.slot && !s.lostSlots.contains e.1)
/-- The die rails go off: what lies in the dies and in HBM is lost. The system counter, the NOR, the MRAM, the night porter and what
has already left the package stay. A record whose CRC word was being written may be torn, unless FROZEN was set (R337, Table 17-10); the next
keys of a dye are new (Table 16-3). A master whose neighbours go on loses mastership, but for RESET_N, which is taken as a system reset
(log entry 137). A copy of the system image whose write began in this cycle may be torn where no warning came before: the older one
stays (R229). -/
def State.dropDies (s : State) (cause : Nat) : State :=
  let warned := s.bit .pwr PWR_STATUS 4
  let busy := !s.bit .ldg LDG_STATUS 1 && s.ldgCommit != []
  let dr := s.draw
  let torn := b2n (busy && Config.freeBool dr.1)
  let norBusy := !warned && s.norAt == s.now + 1
  let dn := (if busy then dr.2 else s).draw
  let norTorn := norBusy && Config.freeBool dn.1
  { State.reset with
    pending := s.pending, resp := s.resp, freeCtr := if norBusy then dn.2.freeCtr else if busy then dr.2.freeCtr else s.freeCtr,
    now := s.now, nowFrac := s.nowFrac, regs := s.regs.filter (fun e => alwaysOn e.1),
    keyGen := (List.range 16).foldl natBump s.keyGen, linkKeys := s.linkKeys, fabKey := s.fabKey,
    lostMastership := cause != 1 && (s.lostMastership || (s.master == some s.slot && s.hasNeighbours)),
    linkTx := s.linkTx, hostTx := s.hostTx, ethTx := s.ethTx, fabTx := s.fabTx, mgtTx := s.mgtTx,
    ldgRing := s.ldgRing, ldgPersist := s.ldgPersist, ldgSeq := s.ldgSeq + torn, ldgAcked := s.ldgAcked,
    ldgTorn := s.ldgTorn + torn,
    ldgIngress := (if s.bit .inj INJ_STATUS 0 then
        [{ type := 7, detector := 0, dye := 0, severity := 0, detail := [0] }] else []) ++
      s.tokens.filterMap (fun e => e.2.map (fun (t : DebugToken) =>
        { type := 7, detector := 0, dye := t.dye, severity := 0, detail := [2, t.dye.val] })),
    repairMap := s.repairMap, repairFailed := s.repairFailed, repairSeen := s.repairSeen,
    genFloor := s.genFloor, fwCopies := s.fwCopies, preferredB := s.preferredB, bootFails := s.bootFails,
    norImage := if norTorn then s.norOlder else s.norImage, norOlder := if norTorn then none else s.norOlder, norAt := s.norAt,
    authority := s.authority, authWas := s.authWas, norTrims := s.norTrims, secFloor := s.secFloor,
    runningB := s.runningB, updateWritten := s.updateWritten, updChecking := s.updChecking, romOnly := s.romOnly,
    spdmStage := s.spdmStage, spdm := s.spdm, spdmNext := s.spdmNext, imgStage := s.imgStage,
    vaon := s.vaon, vin := s.vin, vinAt := s.vinAt, sysRef := s.sysRef, sysRefAt := s.sysRefAt, resetN := s.resetN,
    perstN := s.perstN, npRuns := s.npRuns,
    rails := false, hostUp := false, standby := true,
    pinFault := s.pinFault, pinPwrWarn := s.pinPwrWarn, offCause := cause, offWarned := warned, offAt := s.now }
/-- The night porter loses its power or is held in reset: MCTP is silent, its sessions and staged image are gone. An authority write of
this cycle may be cut short: then the other persistent copy governs (R358). -/
def State.stopPorter (s : State) : State :=
  let s1 : State := { s with npRuns := false, spdmStage := 0, spdm := [], imgStage := [], romOnly := false, updChecking := false, authWas := none }
  let dr := s1.draw
  let s2 : State := match s.authWas with
    | some (at_, old) => if at_ = s.now + 1 then { dr.2 with authority := if Config.freeBool dr.1 then old else s.authority } else s1
    | none => s1
  (s2.resetWin .mgt 0 0x10000).resetWin .npt 0 0x10000

/-! ### Firmware copies (R343, R344) -/

/-- What a copy holds: as this package has last seen or written it; a copy that was never seen at a boot holds what it was shipped
with (log entry 72). -/
def shippedCopy : FirmwareCopy :=
  { fwVersion := Config.shippedVersion, secVersion := 0, sigOk := true, ready := true, npDigest := Config.shippedNp,
    dieDigest := Config.shippedDie }
def copyNo (b : Bool) : Nat := b2n b
def State.copy (s : State) (b : Bool) : FirmwareCopy := (tabGet (fun _ => none) s.fwCopies (copyNo b)).getD shippedCopy
def State.setCopy (s : State) (b : Bool) (f : FirmwareCopy) : State :=
  { s with fwCopies := tabSet (fun _ => none) s.fwCopies (copyNo b) (some f) }
/-- A copy boots only if both signatures verify and its SEC_VERSION is not below the security floor. -/
def State.copyBoots (s : State) (f : FirmwareCopy) : Bool := f.sigOk && decide (s.secFloor ≤ f.secVersion)
def State.setStage (s : State) (n : Nat) : State := (s.setFld .npt NPT_STATUS 0 4 n).setBit .npt NPT_STATUS 4 s.preferredB

/-! ### The cold start of the dies (Table 16-2, Table 17-7) -/

/-- Whether the spare of a quarter, by region * 4 + quarter, stands in for one of its cores (R12). -/
def State.spareUsed (s : State) (q : Nat) : Bool :=
  (List.range 16).any (fun i => decide (64 ≤ tabGet mfgPhys s.repairMap (16 * q + i)))
/-- A core with a confirmed fault: its quarter's spare is fused in its place if that spare is unused; else its region fails (R14). The
night porter takes the repair that R14 allows it (DESIGN CHOICE, log entry 73). -/
def State.repairCore (s : State) (r : RegionNo) (p : CorePos) : State :=
  let k := r.val * 64 + p.val
  if s.spareUsed (k / 16) then { s with repairFailed := if s.repairFailed.contains r then s.repairFailed else s.repairFailed ++ [r] }
  else { s with repairMap := tabSet mfgPhys s.repairMap k (64 + k / 16 % 4) }
/-- The night porter's work on the repair map at a cold start (R13, R14): each confirmed record of a core is acted on once, the
translation tables are loaded from the map, and a region without a spare for a faulty core is failed. -/
def State.fieldRepair (s : State) : State :=
  let new := s.ldgPersist.filter (fun r => r.core.isSome && r.confirmed && !s.repairSeen.contains r.seq)
  let s1 := new.foldl (fun (t : State) r => t.repairCore r.region (r.core.getD 0)) s
  let s2 : State := { s1 with repairSeen := s1.repairSeen ++ new.map (·.seq), routerTable := s1.repairMap }
  s2.repairFailed.foldl (fun (t : State) r => { (t.setRgnState r 6) with
    failedRgns := if t.failedRgns.contains r then t.failedRgns else t.failedRgns ++ [r] }) s2
/-- The physical core that a logical core is translated into (R19, stage 4). Nothing reads it: no answer of the block depends on it. -/
def State.physicalCore (s : State) (c : CoreId) : Nat := tabGet mfgPhys s.routerTable (coreKey c)
/-- The newer valid copy of the system image in NOR is installed; where there is none, the package takes part in no partition and reports
its state through the Ledger and over MCTP (R229). A package that has lost mastership is not elected. Then every link trains (R266). -/
def State.loadStored (s : State) : State :=
  let copies := s.norImage.toList ++ s.norOlder.toList
  let s2 := match copies.find? (fun img => (s.verify 0 img).isNone) with
    | some img =>
      let s1 := s.installSystem img
      if s.lostMastership then { (s1.electFrom (fun a => decide (a ≠ s.slot))) with lostMastership := true } else s1
    | none =>
      let s1 := match (copies.head?).bind (s.verify 0) with
        | some (code, sect) =>
          let dr := s.draw
          dr.2.refuseLoad 0 code (some s.slot.val) sect (Config.freeNat dr.1 % 2 ^ 24)
        | none => s
      (s1.info 0 [0x22, s1.fld .pkg PKG_IMG_D_STATUS 8 8]).report [0x22]
  (List.finRange 6).foldl (fun (t : State) l => t.linkCommand l) s2
/-- The dies start: rails, security block, die firmware, trims, frame table, key slot 0, the stored image and the links. The floor is
raised to the running copy's SEC_VERSION. -/
def State.startDies (s : State) (f : FirmwareCopy) : State :=
  let s0 : State := { s with rails := true, standby := false, secFloor := max s.secFloor f.secVersion, romOnly := false, pinFault := false,
                             hostUp := s.perstN, hostGts := 1024, updateWritten := false }
  let s1 := s0.wr .sec SEC_STATUS (BitVec.ofNat 32 (1 + b2n s0.runningB * 4 + s0.secFloor % 64 * 8))
  let s2 := (s1.wr .sec SEC_FW_VERSION f.fwVersion).setBit .clk CLK_STATUS 0 s.sysRef
  let s3 := allRegions.foldl (fun (t : State) r => t.setFld .pwr (PWR_RGN_TRIM + 4 * r.val) 0 4 (natGet t.norTrims r.val)) s2
  let s4 := (List.finRange 8).foldl (fun (t : State) h =>
    (t.wr (.hbm h) HBM_STATUS 6).setBit (.hbm h) HBM_KEYSLOTS 0 true) (s3.setBit .tier TIER_STATUS 0 true)
  let s5 := (({ s4 with ldgTorn := 0 } : State).wr .ldg LDG_LOST (BitVec.ofNat 32 s.ldgTorn)).headFollow.alertFollow
  let s6 := if persistSize ≤ s5.ldgPersist.length then s5.setBit .ldg LDG_STATUS 3 true else s5
  let s7 := s6.fieldRepair.loadStored
  (s7.setBit .npt NPT_STATUS 5 false).setStage 8
/-- PKG_RESET_CAUSE as the night porter sets it (Table 17-12). -/
def State.setCause (s : State) (reentered : Bool) : State :=
  s.wr .pkg PKG_RESET_CAUSE (BitVec.ofNat 32 (s.offCause + b2n s.offWarned * 8 + b2n reentered * 16))
/-- VIN at 6.0 V or more for 1 ms, and SYS_REF present: what the die rails need (R370). -/
def State.railsMayStart (s : State) : Bool := s.vin && decide (s.vinAt + 1000000 ≤ s.now) && s.sysRef && s.resetN
/-- Out of Standby (R305): the dies' cold start with the copy that the night porter runs. WAKE_N or a PLDM request; the rails wait
until VIN and SYS_REF have been there for 1 ms (Table 17-10). -/
def State.wakeDies (s : State) : State :=
  if s.rails || !s.npRuns || s.romOnly || !(s.vin && s.sysRef && s.resetN) then s
  else if s.now < s.vinAt + 1000000 ∨ s.now < s.sysRefAt + 1000000 then { s with wakeWaits := true }
  else
    let s1 := ({ s with wakeWaits := false } : State).startDies (s.copy s.runningB)
    if s.offCause = 2 ∨ s.offCause = 3 then s1.setCause false else s1
/-- A wake that waited for VIN or SYS_REF. -/
def State.wakeFollow (s : State) : State := if s.wakeWaits then s.wakeDies else s
/-- The package keeps a tenant partition (R305). -/
def State.hasTenants (s : State) : Bool := (List.finRange 16).any (fun d => d != 0 && s.partState d != 0)
/-- Into Standby: links and ports disabled, HBM contents discarded, die rails removed. Answers whether it was accepted. -/
def State.enterStandby (s : State) : Bool × State :=
  if !s.rails then (true, s)
  else if s.hasTenants then (false, s)
  else
    let s1 := (List.finRange 6).foldl (fun (t : State) l => t.disableLink l) s
    let s2 := (List.finRange 2).foldl (fun (t : State) p => t.portDown p) s1
    (true, s2.dropDies 3)

/-- The straps are sampled and the night porter is released (t_np). -/
def State.releasePorter (s : State) (slotId : BitVec 6) (masterEn : Bool) (reentered : Bool) : State :=
  let s1 : State := { s with npRuns := true }
  (s1.wr .pkg PKG_STRAPS (BitVec.ofNat 32 (slotId.toNat + b2n masterEn * 64))).setCause reentered

/-! ### BOOT_CHAIN (R344, R345) -/

/-- The night porter runs the firmware of copy b: it comes to READY, with the dies started where their rails may start. -/
def State.bootCopy (s : State) (b : Bool) (f : FirmwareCopy) : State :=
  let s1 : State := { s with runningB := b, bootFails := 0, romOnly := false }
  let s2 := s1.setStage 3
  if s2.railsMayStart then s2.startDies f else s2
/-- Neither copy boots: FAULT_N, Standby, and only the ROM answers. -/
def State.bootFailed (s : State) : State := ({ s with pinFault := true, romOnly := true, bootFails := 0 } : State).setStage 1
/-- BOOT_CHAIN: the preferred copy boots. One that fails its checks, or for the second time in a row to reach READY, gives way to the
other, which becomes the preferred one. What the NOR holds of a copy is what was seen or written last; READY is this boot's. -/
def execBootChain (a : FirmwareCopy) (b : FirmwareCopy) (s : State) : Out :=
  if s.rails ∨ !s.npRuns ∨ !s.vaon then .next s
  else
    let seen := fun (n : Bool) (f : FirmwareCopy) => { (tabGet (fun _ => none) s.fwCopies (copyNo n)).getD f with ready := f.ready }
    let fa := seen false a
    let fb := seen true b
    let s1 := (s.setCopy false fa).setCopy true fb
    let p := s1.preferredB
    let fp := if p then fb else fa
    let fo := if p then fa else fb
    if s1.copyBoots fp && fp.ready then .next (s1.bootCopy p fp)
    else if s1.copyBoots fp && s1.bootFails = 0 then .next (({ s1 with bootFails := 1 } : State).setStage 2)
    else if s1.copyBoots fo && fo.ready then .next (({ s1 with preferredB := !p } : State).bootCopy (!p) fo)
    else .next s1.bootFailed

end Sys2Proof.Machine
end

