-- ==== Sys2Proof/Machine/Security.lean ====
section
/-! DEFINITION. The security block and the night porter's services: firmware update, PLDM, SPDM, Vyarlan's commands, debug tokens
and quotes (R342 to R360). -/

namespace Sys2Proof.Machine

/-! ### Requests and responses (R354, R357) -/

def cOK : Nat := 0
def cBUSY : Nat := 1
def cUNAUTHENTICATED : Nat := 2
def cINVALID : Nat := 3
def cREFUSED : Nat := 4
/-- The path of a PLDM request of the rack manager. -/
def overI3c : MgtPath := { i3c := true }
/-- A response: in the mailbox (Table 16-10), else over MCTP; with REFUSED the window's code follows the completion byte. -/
def State.reply (s : State) (p : MgtPath) (code : Nat) (data : List Byte := []) (window : Option Nat := none) : State :=
  if p.mailbox then
    (s.wr .npt NPT_MBOX_STATUS (BitVec.ofNat 32 (code + 2 ^ 8 + window.getD 0 % 256 * 2 ^ 16))).wrList .npt NPT_MBOX_DATA
      ((List.range ((min data.length 1024 + 3) / 4)).map (fun k => BitVec.ofNat 32 (leNat ((data.drop (4 * k)).take 4))))
  else
    { s with mgtTx := s.mgtTx ++ [{ path := p, code := code, data := (window.toList.map (BitVec.ofNat 8)) ++ data }] }
/-- The night porter answers unless it is held in reset or only its ROM runs (R344, R371). -/
def State.porter (s : State) (f : State → State) : Out := if !s.npRuns || s.romOnly then .next s else .next (f s)

/-! ### Sessions and authority (R351, R356) -/

def State.sessionOf (s : State) (p : MgtPath) : Option SpdmSession :=
  p.session.bind (fun n => s.spdm.find? (fun x => x.id == n && x.finished))
def State.authorityAt (s : State) (n : Nat) : Option Digest := tabGet (fun _ => none) s.authority n
/-- A digest is present in one of the four places. -/
def State.isAuthority (s : State) (x : Digest) : Bool := (List.range 4).any (fun n => s.authorityAt n == some x)
/-- The request comes in a mutually authenticated secured session. -/
def State.authenticated (s : State) (p : MgtPath) : Bool :=
  match s.sessionOf p with
  | some x => (x.requester.map s.isAuthority).getD false
  | none => false
/-- A command marked Session is refused outside such a session (R357). -/
def State.inSession (s : State) (p : MgtPath) (f : State → State) : Out :=
  s.porter (fun s => if s.authenticated p then f s else s.reply p cUNAUTHENTICATED)
/-- MGT_AUTH_SET and MGT_STATUS.SESSION_OPEN follow. -/
def State.mgtFollow (s : State) : State :=
  (s.wr .mgt MGT_AUTH_SET (BitVec.ofNat 32 (((List.range 4).map (fun n => b2n (s.authorityAt n).isSome * 2 ^ n)).sum))).setBit .mgt
    MGT_STATUS 16 (s.spdm.any (·.finished))
def State.putAuthority (s : State) (n : Nat) (x : Option Digest) : State :=
  ({ s with authority := tabSet (fun _ => none) s.authority n x, authWas := some (s.now + 1, s.authority) } : State).mgtFollow

/-! ### Firmware (R346) -/

/-- The firmware-update service answers from the ROM too (R344). -/
def State.rom (s : State) (f : State → State) : Out := if !s.npRuns then .next s else .next (f s)
/-- FIRMWARE_UPDATE: the copy that is not running is written; its verification as a whole begins. -/
def execFirmwareUpdate (f : FirmwareCopy) (s : State) : Out :=
  s.rom (fun s => ((({ s.setCopy (!s.runningB) f with updChecking := true, updateWritten := false } : State).setBit .npt NPT_STATUS 5 false)).reply
    overI3c cOK)
/-- The copy that was written has been verified; the verdict goes back (log entry 139). -/
def State.updFollow (s : State) : State :=
  if !s.updChecking then s
  else
    let ok := s.copyBoots (s.copy (!s.runningB))
    (({ s with updChecking := false, updateWritten := ok } : State).setBit .npt NPT_STATUS 5 ok).reply overI3c (if ok then cOK else cINVALID)
/-- ACTIVATE_FIRMWARE: the new copy is preferred from the next cold start on; BUSY while it is being verified (R358). -/
def execActivateFirmware (s : State) : Out :=
  s.rom (fun s =>
    if s.updChecking then s.reply overI3c cBUSY
    else if !s.updateWritten then s.reply overI3c cINVALID
    else
      let s1 : State := { s with preferredB := !s.runningB, updateWritten := false }
      (s1.setBit .npt NPT_STATUS 4 s1.preferredB).reply overI3c cOK)
/-- GET_FIRMWARE_PARAMETERS: PKG_REVISION, from the night porter's copy, in every state but unpowered (R5). -/
def execGetFirmwareParameters (s : State) : Out := s.rom (fun s => s.reply overI3c cOK (leBytes pkgRevision.toNat 4))

/-- The version field of the JTAG IDCODE: STEP_MAJOR, and no other part of PKG_REVISION, in every state but unpowered (R5). No row of the
table reads the IDCODE (log entry 125). -/
def State.idcodeVersion (s : State) : Option (BitVec 4) := if s.vaon then some (BitVec.ofNat 4 (bitsOf pkgRevision 20 4)) else none

/-! ### PLDM monitoring (R355); the sensor numbers are the model's (log entry 74) -/

/-- PWR_D_ENERGY of a dye. -/
def State.energyOf (s : State) (d : Nat) : Nat := (s.rd64 .pwr (pageOff (Fin.ofNat 16 d) PWR_D_ENERGY_L)).toNat
/-- 0 VIN power; 1 to 3 the hottest junction, stack and optical engine; 4 the package's energy; 0x10 + d a dye's energy; 0x20 + r a
region's power state; 0x30 + l a link's state; 0x40 the package's state, 0 in Standby. -/
def State.sensor (s : State) (id : Nat) : Option (List Byte) :=
  if id = 0 then some (leBytes (s.fld .pwr PWR_PKG_W 0 12) 4)
  else if id ≤ 3 then some (leBytes (s.fld .thm THM_MAX (8 * (id - 1)) 8) 1)
  else if id = 4 then some (leBytes ((List.range 16).map s.energyOf).sum 8)
  else if 0x10 ≤ id ∧ id < 0x20 then some (leBytes (s.energyOf (id - 0x10)) 8)
  else if 0x20 ≤ id ∧ id < 0x30 then some (leBytes (s.rgnState (Fin.ofNat 16 (id - 0x20))) 1)
  else if 0x30 ≤ id ∧ id < 0x36 then some (leBytes (s.fld (.tlk (Fin.ofNat 6 (id - 0x30))) TLK_STATUS 0 3) 1)
  else if id = 0x40 then some (leBytes (if s.standby then 0 else s.fld .pwr PWR_STATUS 0 2) 1)
  else none
/-- PLDM_GET_SENSOR. -/
def execPldmGetSensor (id : Nat) (s : State) : Out :=
  s.porter (fun s => match s.sensor id with
    | some bs => s.reply overI3c cOK bs
    | none => s.reply overI3c cINVALID)
/-- The cap of R316, with its answer: refused below the floor. -/
def State.capFor (s : State) (p : MgtPath) (watts : Nat) : State :=
  let r := s.setPowerCap watts
  if r.1 then r.2.reply p cOK else r.2.reply p cREFUSED [] (some 0)
/-- CAP_EFFECTER. -/
def execCapEffecter (watts : Nat) (s : State) : Out := s.porter (fun s => s.capFor overI3c watts)
/-- Standby, with its answer: BUSY while a tenant partition exists (R305). -/
def State.standbyFor (s : State) (p : MgtPath) : State :=
  let r := s.enterStandby
  r.2.reply p (if r.1 then cOK else cBUSY)
/-- STANDBY_EFFECTER. -/
def execStandbyEffecter (wake : Bool) (s : State) : Out :=
  s.porter (fun s => if wake then s.wakeDies.reply overI3c cOK else s.standbyFor overI3c)
/-- STANDBY_REQUEST. -/
def execStandbyRequest (s : State) : Out := s.porter (fun s => s.standbyFor overI3c)

/-! ### MCTP (R354); the codes of the control messages are those of the MCTP base specification (log entry 75) -/

/-- MCTP_CONTROL: set and get the endpoint ID, and the message types. -/
def execMctpControl (p : MgtPath) (cmd : Byte) (arg : Byte) (s : State) : Out :=
  s.porter (fun s =>
    if cmd.toNat = 1 then
      (if arg.toNat = 0 ∨ arg.toNat = 0xFF then s.reply p 2 else (s.setFld .mgt MGT_STATUS 0 8 arg.toNat).reply p 0 [arg])
    else if cmd.toNat = 2 then s.reply p 0 (leBytes (s.fld .mgt MGT_STATUS 0 8) 1)
    else if cmd.toNat = 5 then s.reply p 0 [0x00, 0x01, 0x05, 0x06, 0x7E]
    else s.reply p 5)
/-- DYNAMIC_ADDRESS_ASSIGNMENT. -/
def execDynamicAddressAssignment (a : BitVec 7) (s : State) : Out :=
  if !s.npRuns then .next s else .next ((s.setFld .mgt MGT_STATUS 8 7 a.toNat).setBit .mgt MGT_STATUS 15 true)

/-! ### SPDM (R349, R356); response and error codes are those of SPDM 1.3 (log entry 75) -/

/-- Bytes of a digest, the first of the hash first. -/
def digestBytes (x : Digest) : List Byte := (leBytes x.toNat 48).reverse
/-- An SPDM error response. -/
def State.spdmError (s : State) (p : MgtPath) (e : Nat) : State := s.reply p 0x7F [BitVec.ofNat 8 e]
def eInvalid : Nat := 0x01
def eSession : Nat := 0x02
def eUnexpected : Nat := 0x04
/-- A request that needs the negotiation to have come to a stage. -/
def State.spdmAt (s : State) (p : MgtPath) (stage : Nat) (f : State → State) : Out :=
  s.porter (fun s => if s.spdmStage < stage then s.spdmError p eUnexpected else f s)
/-- GET_VERSION: version 1.3; the negotiation begins again. -/
def execGetVersion (p : MgtPath) (s : State) : Out := s.porter (fun s => ({ s with spdmStage := 1 } : State).reply p 0x04 [0x13])
/-- GET_CAPABILITIES. -/
def execGetCapabilities (p : MgtPath) (s : State) : Out :=
  s.spdmAt p 1 (fun s => ({ s with spdmStage := max 2 s.spdmStage } : State).reply p 0x61)
/-- NEGOTIATE_ALGORITHMS: ECDSA P-384 with SHA-384, secp384r1 and AES-256-GCM, or nothing. -/
def execNegotiateAlgorithms (p : MgtPath) (baseAsym : Word32) (hash : Word32) (dhe : BitVec 16) (aead : BitVec 16) (s : State) : Out :=
  s.spdmAt p 2 (fun s =>
    if bitOf baseAsym 7 && bitOf hash 1 && bitOf dhe 4 && bitOf aead 1 then
      ({ s with spdmStage := 3 } : State).reply p 0x63 (leBytes 0x80 4 ++ leBytes 2 4 ++ leBytes 0x10 2 ++ leBytes 2 2)
    else s.spdmError p eInvalid)
def chainDigest : Digest := Config.sha384 (leNat Config.lotChain)
/-- GET_DIGESTS: slot 0 only. -/
def execGetDigests (p : MgtPath) (s : State) : Out := s.spdmAt p 3 (fun s => s.reply p 0x01 (digestBytes chainDigest))
/-- GET_CERTIFICATE: the lot chain, in slot 0 only. -/
def execGetCertificate (p : MgtPath) (slot : Fin 8) (offset : Nat) (len : Nat) (s : State) : Out :=
  s.spdmAt p 3 (fun s => if slot.val ≠ 0 ∨ Config.lotChain.length ≤ offset then s.spdmError p eInvalid
    else s.reply p 0x02 ((Config.lotChain.drop offset).take len))
/-- A signature under the lot attestation key: r then s, each big-endian, over the bytes given; its value is open. -/
def State.lotSign (s : State) (bs : List Byte) : List Byte × State :=
  let dr := s.draw
  (takePad 0 96 (Config.sign (dr.1 * 2 ^ (8 * bs.length) + leNat bs)), dr.2)
/-- CHALLENGE: the chain's digest and the nonce, signed under the lot key. -/
def execChallenge (p : MgtPath) (slot : Fin 8) (nonce : BitVec 256) (s : State) : Out :=
  s.spdmAt p 3 (fun s => if slot.val ≠ 0 then s.spdmError p eInvalid
    else
      let body := digestBytes chainDigest ++ leBytes nonce.toNat 32
      let r := s.lotSign body
      r.2.reply p 0x03 (body ++ r.1))
/-- Debug state, raw: bit 0 INJ_STATUS.ENABLE, bit d a token in force for dye d (log entry 76). -/
def State.debugState (s : State) : Nat :=
  b2n (s.bit .inj INJ_STATUS 0) + (((List.range 16).filter (fun d => d ≠ 0)).map (fun d =>
    b2n (tabGet (fun _ => none) s.tokens d).isSome * 2 ^ d)).sum
/-- The measurement blocks (Table 16-4). -/
def State.measurement (s : State) (n : Nat) : Option (List Byte) :=
  if n = 1 then some (digestBytes Config.romDigest)
  else if n = 2 then some (digestBytes (s.copy s.runningB).npDigest)
  else if n = 3 then some (digestBytes (s.copy s.runningB).dieDigest)
  else if n = 4 then some (digestBytes ((s.sysImage.map (·.digest)).getD 0))
  else if n = 5 then some (leBytes pkgRevision.toNat 4 ++ leBytes s.secFloor 4)
  else if n = 6 then some (leBytes s.debugState 4)
  else none
/-- GET_MEASUREMENTS: one block, how many there are (index 0), or all of them (0xFF). -/
def execGetMeasurements (p : MgtPath) (index : Byte) (nonce : BitVec 256) (s : State) : Out :=
  s.spdmAt p 3 (fun s =>
    let body : Option (List Byte) := if index.toNat = 0 then some [6]
      else if index.toNat = 0xFF then some ((List.range 6).flatMap (fun k => (s.measurement (k + 1)).getD []))
      else s.measurement index.toNat
    match body with
    | none => s.spdmError p eInvalid
    | some bs =>
      let r := s.lotSign (bs ++ leBytes nonce.toNat 32)
      r.2.reply p 0x60 (bs ++ r.1))
/-- KEY_EXCHANGE: a secured session begins; its number goes back. -/
def execKeyExchange (p : MgtPath) (slot : Fin 8) (sid : BitVec 16) (s : State) : Out :=
  s.spdmAt p 3 (fun s => if slot.val ≠ 0 then s.spdmError p eInvalid
    else
      let id := sid.toNat + 65536 * s.spdmNext
      let r := s.lotSign (leBytes id 8)
      ({ r.2 with spdm := r.2.spdm ++ [{ id := id }], spdmNext := r.2.spdmNext + 1 } : State).reply p 0x64 (leBytes id 8 ++ r.1))
/-- FINISH: the session is complete; a requester that authenticates must be named by an authority digest (R351). -/
def execFinish (p : MgtPath) (sid : Nat) (requester : Option Digest) (macOk : Bool) (s : State) : Out :=
  s.porter (fun s =>
    if !s.spdm.any (fun x => x.id == sid && !x.finished) then s.spdmError p eSession
    else if !macOk || !(requester.map s.isAuthority).getD true then
      ({ s with spdm := s.spdm.filter (fun x => x.id != sid) } : State).spdmError p eInvalid
    else
      (({ s with spdm := s.spdm.map (fun x => if x.id == sid then { x with finished := true, requester := requester } else x) } : State).mgtFollow).reply
        p 0x65)
/-- A request that only a secured session carries. -/
def State.secured (s : State) (p : MgtPath) (f : State → SpdmSession → State) : Out :=
  s.porter (fun s => match s.sessionOf p with
    | some x => f s x
    | none => s.spdmError p eSession)
/-- KEY_UPDATE. -/
def execKeyUpdate (p : MgtPath) (s : State) : Out :=
  s.secured p (fun s x =>
    ({ s with spdm := s.spdm.map (fun y => if y.id == x.id then { y with updates := y.updates + 1 } else y) } : State).reply p 0x69)
/-- HEARTBEAT. -/
def execHeartbeat (p : MgtPath) (s : State) : Out := s.secured p (fun s _ => s.reply p 0x68)
/-- The injection enable of a session ends with it: armed injections are disarmed (R358). -/
def State.endInjSession (s : State) (id : Nat) : State :=
  if s.injSession = some id then ({ s with injSession := none } : State).injEnable false else s
/-- END_SESSION: an authority change that waited for it takes effect (R351). -/
def execEndSession (p : MgtPath) (s : State) : Out :=
  s.secured p (fun s x =>
    let s1 : State := { s with spdm := s.spdm.filter (fun y => y.id != x.id) }
    let s2 := match x.removeAt with
      | some (n, v) => s1.putAuthority n v
      | none => s1
    ((s2.endInjSession x.id).mgtFollow).reply p 0x6C)

/-! ### Vyarlan's commands (Table 16-7) -/

/-- GET_BUDGET. -/
def execGetBudget (p : MgtPath) (s : State) : Out :=
  s.porter (fun s => s.reply p cOK ([s.rd .pwr PWR_CAP, s.rd .pwr PWR_FLOOR, s.rd .pwr PWR_PKG_W] ++
    (List.finRange 16).flatMap (fun d => [s.rdP .pwr d PWR_D_BUDGET, s.rdP .pwr d PWR_D_CEIL]) |>.flatMap (fun w => leBytes w.toNat 4)))
/-- SET_CAP. -/
def execSetCap (p : MgtPath) (watts : Nat) (s : State) : Out := s.inSession p (fun s => s.capFor p watts)
/-- SET_SHARE. -/
def execSetShare (p : MgtPath) (d : Dye) (v : Word32) (s : State) : Out :=
  s.inSession p (fun s => (s.setFld .pwr (pageOff d PWR_D_SHARE) 0 8 (v.toNat % 256)).reply p cOK)
/-- GET_PARTITIONS. -/
def execGetPartitions (p : MgtPath) (s : State) : Out :=
  s.porter (fun s => s.reply p cOK ((s.rdList .pkg PKG_PART_STATUS 16 ++ allRegions.map (fun r => s.rd (.rgn r) RGN_OWNER)).flatMap
    (fun w => leBytes w.toNat 4)))
/-- KILL: as a write of PKG_PART_CMD. -/
def execKill (p : MgtPath) (d : Dye) (s : State) : Out :=
  s.inSession p (fun s =>
    if d = 0 then s.reply p cINVALID
    else
      let s1 := if s.partState d = 1 then
          (let t := s.killHere d
           { t with linkTx := t.linkTx ++ (s.peers d).map (fun sl => LinkOut.control sl (.kill d)) })
        else s
      s1.reply p cOK)
/-- ADMISSION_COMMAND. -/
def execAdmissionCommand (p : MgtPath) (stop : Bool) (s : State) : Out := s.inSession p (fun s => (s.admission 2 stop).reply p cOK)
/-- IMAGE_CHUNK: up to 1 KiB; the staging area holds one system image. -/
def execImageChunk (p : MgtPath) (data : List Byte) (s : State) : Out :=
  s.inSession p (fun s =>
    if 1024 < data.length ∨ imageLimit 0 < s.imgStage.length + data.length then s.reply p cINVALID
    else ({ s with imgStage := s.imgStage ++ data } : State).reply p cOK)
/-- IMAGE_LOAD: the staged image, given in field form (log entry 77), is loaded as R228 and R239 say; its bytes are already here. -/
def execImageLoad (p : MgtPath) (img : Image) (s : State) : Out :=
  s.inSession p (fun s =>
    if s.imgStage.length ≠ img.length ∨ img.length = 0 then s.reply p cINVALID
    else if s.loading 0 then s.reply p cBUSY
    else
      let s1 : State := { s with imgStage := [] }
      if !s.receives 0 then (s1.refuseLoad 0 codeNOTFRONT none 0 0).reply p cREFUSED [] (some codeNOTFRONT)
      else (((s1.setImg 0 1).setLoad 0 { origin := true }).distribute 0 img).reply p cOK)
/-- INJECT_ENABLE: until INJECT_DISABLE, the end of the session or a cold start. -/
def execInjectEnable (p : MgtPath) (s : State) : Out :=
  s.inSession p (fun s => (({ s with injSession := p.session } : State).injEnable true).reply p cOK)
/-- INJECT_DISABLE. -/
def execInjectDisable (p : MgtPath) (s : State) : Out :=
  s.inSession p (fun s => (({ s with injSession := none } : State).injEnable false).reply p cOK)
/-- SET_AUTHORITY: while all four digests are empty, over I3C only; then only in an authenticated session. A digest of 0 empties its
place. A change that takes the session's own digest away waits for the session's end. -/
def execSetAuthority (p : MgtPath) (n : Fin 4) (digest : Digest) (s : State) : Out :=
  s.porter (fun s =>
    let v := if digest = 0 then none else some digest
    if (List.range 4).all (fun k => (s.authorityAt k).isNone) then
      (if p.i3c then (s.putAuthority n.val v).reply p cOK else s.reply p cUNAUTHENTICATED)
    else if !s.authenticated p then s.reply p cUNAUTHENTICATED
    else
      match s.sessionOf p with
      | none => s.reply p cUNAUTHENTICATED
      | some x =>
        let own := s.authorityAt n.val == x.requester && v != x.requester &&
          !((List.range 4).any (fun k => k != n.val && s.authorityAt k == x.requester))
        if own then
          ({ s with spdm := s.spdm.map (fun y => if y.id == x.id then { y with removeAt := some (n.val, v) } else y) } : State).reply p cOK
        else (s.putAuthority n.val v).reply p cOK)
/-- STANDBY. -/
def execStandby (p : MgtPath) (s : State) : Out := s.inSession p (fun s => s.standbyFor p)

/-! ### Debug tokens (R352, R353, R358) -/

def State.tokenOf (s : State) (d : Dye) : Option DebugToken := tabGet (fun _ => none) s.tokens d.val
/-- A fresh challenge: 32 random bytes, whose value is open; it replaces the outstanding one. -/
def State.newChallenge (s : State) (d : Dye) : State :=
  let n := s.freeCtr
  let ws := (List.range 4).map (fun k => Config.freeWord (n + k))
  let v : BitVec 256 := BitVec.ofNat 256 (leNat (ws.flatMap (fun w => leBytes w.toNat 8)))
  let s1 : State := { s with freeCtr := n + 4, challenges := tabSet (fun _ => none) s.challenges d.val (some { value := v, issuedAt := s.now }) }
  s1.wrList .sec SEC_DBG_CHAL ((List.range 8).map (fun k => BitVec.ofNat 32 (bitsOf v (32 * k) 32)))
/-- The challenge as bytes. -/
def State.challengeBytes (s : State) (d : Dye) : List Byte :=
  match tabGet (fun _ => none) s.challenges d.val with
  | some (c : Challenge) => leBytes c.value.toNat 32
  | none => []
/-- A token is presented: it is checked against the challenge outstanding now. -/
def State.present (s : State) (t : DebugToken) : State :=
  let s1 : State := { s with checking := some (t, tabGet (fun _ => none) s.challenges t.dye.val) }
  (s1.setFld .sec SEC_DBG_STATUS 0 2 2).setFld .sec SEC_DBG_STATUS 8 4 t.dye.val
/-- DEBUG_CHALLENGE. -/
def execDebugChallenge (p : MgtPath) (d : Dye) (s : State) : Out :=
  s.inSession p (fun s => let t := s.newChallenge d; t.reply p cOK (t.challengeBytes d))
/-- DEBUG_PRESENT. -/
def execDebugPresent (p : MgtPath) (t : DebugToken) (s : State) : Out :=
  s.inSession p (fun s => if s.checking.isSome then s.reply p cBUSY else (s.present t).reply p cOK)
/-- SEC_DBG_CHALLENGE: SEC_DBG_CMD answers only the management partition. -/
def execSecDbgChallenge (m : Master) (d : Dye) (s : State) : Out :=
  if s.dyeOf m ≠ 0 then .next s.permissionError else .next ((s.newChallenge d).answer [])
/-- SEC_DBG_PRESENT: the token at SEC_DBG_ADDR, given in field form; one check at a time. -/
def execSecDbgPresent (m : Master) (t : DebugToken) (s : State) : Out :=
  if s.dyeOf m ≠ 0 then .next s.permissionError
  else .next ((if s.checking.isSome then s else s.present t).answer [])
/-- A token as it lies in memory: the body of Table 16-6, the tenant's key block, then the signature block (R193, R352). -/
def tokenFrom (bs : List Byte) : DebugToken :=
  let b : BitVec 512 := BitVec.ofNat 512 (leNat (bs.take 64))
  let key := (bs.drop 68).take (leNat ((bs.drop 64).take 4))
  { magic := BitVec.ofNat 16 b.toNat, version := BitVec.ofNat 8 (bitsOf b 16 8), dye := Fin.ofNat 16 (bitsOf b 24 4), scope := BitVec.ofNat 4 (bitsOf b 32 4),
    notAfter := BitVec.ofNat 64 (bitsOf b 64 64), challenge := BitVec.ofNat 256 (bitsOf b 128 256), generation := BitVec.ofNat 32 (bitsOf b 384 32),
    keyDigest := Config.sha384 (leNat key), sigOk := Config.sigVerdict bs,
    rsv := decide (bitsOf b 28 4 ≠ 0) || decide (bitsOf b 36 28 ≠ 0) || decide (bitsOf b 416 96 ≠ 0) }
/-- SEC_DBG_CMD.PRESENT: the token of SEC_DBG_LEN bytes at SEC_DBG_ADDR; no token is longer than 8 KiB. -/
def execSecDbgPush (m : Master) (s : State) : Out :=
  if s.dyeOf m ≠ 0 then .next s.permissionError
  else
    let r := s.read m ((s.rd64 .sec SEC_DBG_ADDR_L).toNat % 2 ^ 48) (min (s.rd .sec SEC_DBG_LEN).toNat 8192)
    execSecDbgPresent m (tokenFrom r.1.data) r.2
/-- What a check finds (Table 16-9): 0 OK, 1 CHALLENGE, 2 GENERATION, 3 EXPIRY, 4 KEY, 5 KILLED. A token that is not laid out as Table
16-6 says fails with KEY (log entry 78). -/
def State.tokenCode (s : State) (t : DebugToken) (c : Option Challenge) : Nat :=
  let d := t.dye
  if s.partState d ≠ 1 then 5
  else
    match c with
    | none => 1
    | some ch =>
      if ch.value ≠ t.challenge then 1
      else if ((s.image d).map (·.generation)) ≠ some t.generation then 2
      else if ch.issuedAt + 3600000000000 < t.notAfter.toNat then 3
      else if ((s.partEntry d).map (·.imageKey)) ≠ some t.keyDigest ∨ !t.sigOk ∨ t.magic.toNat ≠ 0x5444 ∨ t.version.toNat ≠ 1 ∨ t.rsv ∨ d = 0 then 4
      else 0
/-- TOKEN_CHECK_DONE: the challenge is consumed either way. A check that ends in the cycle of a REVOKE fails, with a code that is open
(R358). -/
def execTokenCheckDone (s : State) : Out :=
  match s.checking with
  | none => .next s
  | some (t, c) =>
    let d := t.dye
    let same := tabGet (fun _ => none) s.challenges d.val == c
    let s0 : State := { s with checking := none, challenges := if same then tabSet (fun _ => none) s.challenges d.val none else s.challenges }
    let s1 := if same then s0.wrList .sec SEC_DBG_CHAL (List.replicate 8 0) else s0
    let revoked := natGet s.revokeAt d.val == s.now + 1
    let code0 := s1.tokenCode t c
    let dr := s1.draw
    let code := if revoked && code0 == 0 then 1 + Config.freeNat dr.1 % 5 else code0
    let s2 := if revoked && code0 == 0 then dr.2 else s1
    if code = 0 then
      let s3 : State := { s2 with tokens := tabSet (fun _ => none) s2.tokens d.val (some t) }
      let s4 := s3.ledger { type := 7, detector := 0, dye := d, severity := 0, detail := [1, d.val] }
      let s5 := ((s4.wr .sec SEC_DBG_STATUS (BitVec.ofNat 32 (1 + d.val * 2 ^ 8 + t.scope.toNat * 2 ^ 16))).tokenFollow d).withdraw
      .next (if t.notAfter.toNat ≤ s.now then s5.dropToken d else s5)
    else
      let st := match s2.tokenOf d with
        | some old => 1 + old.scope.toNat * 2 ^ 16
        | none => 0
      .next (s2.wr .sec SEC_DBG_STATUS (BitVec.ofNat 32 (st + code * 2 ^ 4 + d.val * 2 ^ 8)))
/-- TOKEN_END: NOT_AFTER has come. -/
def execTokenEnd (d : Dye) (s : State) : Out :=
  match s.tokenOf d with
  | some t => .next (if t.notAfter.toNat ≤ s.now then s.dropToken d else s)
  | none => .next s
/-- REVOKE: on the tenant's page. -/
def execRevoke (m : Master) (d : Dye) (s : State) : Out :=
  if d = 0 ∨ s.dyeOf m ≠ d then .next s.permissionError
  else .next ((({ s with revokeAt := natSet s.revokeAt d.val (s.now + 1) } : State).dropToken d).answer [])

/-! ### Quotes (R350) -/

/-- The 256 bytes that a quote's signature covers (Table 16-5). -/
def State.quoteBody (s : State) (d : Dye) (q : QuoteReq) : List Byte :=
  [0x54, 0x51, 0x01, BitVec.ofNat 8 d.val] ++ q.nonce.flatMap (fun w => leBytes w.toNat 4) ++
  digestBytes (Config.sha384 (leNat ((List.range 3).flatMap (fun k => (s.measurement (k + 1)).getD [])))) ++
  digestBytes ((s.sysImage.map (·.digest)).getD 0) ++ digestBytes (((s.image d).map (·.digest)).getD 0) ++
  leBytes s.now 8 ++ leBytes pkgRevision.toNat 4 ++ leBytes (((s.tokenOf d).map (·.scope.toNat)).getD 0) 4 ++ List.replicate 60 0
def State.keysLoaded (s : State) (d : Dye) : Bool := s.bit .sec (pageOff d SEC_D_STATUS) 0
/-- QUOTE: refused while the dye's keys are not loaded; one quote at a time. -/
def execQuote (m : Master) (d : Dye) (s : State) : Out :=
  if s.dyeOf m ≠ d then .next s.permissionError
  else if !s.keysLoaded d ∨ (tabGet (fun _ => none) s.quotes d.val).isSome then .next (s.answer [])
  else
    let q : QuoteReq := { addr := s.rd64 .sec (pageOff d SEC_D_QADDR_L), nonce := s.rdList .sec (pageOff d SEC_D_NONCE) 8 }
    .next ((({ s with quotes := tabSet (fun _ => none) s.quotes d.val (some q) } : State).setBit .sec (pageOff d SEC_D_STATUS) 1 false).answer [])
/-- QUOTE_DONE: the quote is signed and written to the host. A quote of a dye whose keys have gone meanwhile is dropped. -/
def execQuoteDone (d : Dye) (sig : List Byte) (s : State) : Out :=
  match tabGet (fun _ => none) s.quotes d.val with
  | none => .next s
  | some (q : QuoteReq) =>
    let s1 : State := { s with quotes := tabSet (fun _ => none) s.quotes d.val none }
    if !s.keysLoaded d then .next s1
    else
      let bytes := s.quoteBody d q ++ takePad 0 96 sig
      let s2 : State := match s.place d (q.addr.toNat % 2 ^ 48) with
        | .host o => if s.hostUp then
            (let t := s1.carry .pci d bytes.length
             { t with hostTx := t.hostTx ++ [.write d (BitVec.ofNat 64 o) bytes] }) else s1
        | _ => s1.refuseRec (.vf d) (q.addr.toNat % 2 ^ 48)
      .next (s2.setBit .sec (pageOff d SEC_D_STATUS) 1 true)

end Sys2Proof.Machine
end

