-- ==== Sys2Proof/Machine/Pins.lean ====
section
/-! DEFINITION. Supplies, resets, reference clocks and sideband inputs (R305, R366 to R374). -/

namespace Sys2Proof.Machine

/-- The always-on domain loses its supply: the counter, the fused floor and the NOR's and MRAM's contents apart, everything goes
(Table 14-1, R372). -/
def State.loseVaon (s : State) : State :=
  let s1 := (s.dropDies 4).stopPorter
  { s1 with vaon := false, now := 0, nowFrac := 0, regs := [], pinFault := false, standby := false, lostMastership := false, mgtTx := s.mgtTx }
/-- VAON_APPLIED: the counter starts at 0; with RESET_N high the straps are sampled and the night porter is released. Mastership is
elected anew at a system reset (R23); before a topology is known there is none. -/
def execVaonApplied (slotId : BitVec 6) (masterEn : Bool) (s : State) : Out :=
  if s.vaon then .next s
  else
    let s1 : State := { s with vaon := true, now := 0, nowFrac := 0, rails := false, hostUp := false, standby := true, npRuns := false,
                               offAt := 0, vinAt := 0, sysRefAt := 0 }
    .next (if s.resetN then (s1.releasePorter slotId masterEn false).elect else s1)
/-- VAON_BROWNOUT: the die rails go off and the whole package is reset. -/
def execVaonBrownout (s : State) : Out := if !s.vaon then .next s else .next s.loseVaon
/-- RESET_N_ASSERT: lasers dark, die rails off, the night porter held in reset; FAULT_N and the other outputs are released (Table 17-8,
Table 17-9). Nothing is saved; the counter keeps counting. -/
def execResetNAssert (s : State) : Out :=
  if !s.resetN ∨ !s.vaon then .next { s with resetN := false }
  else
    let s1 := if s.rails then s.dropDies 1 else { s with offCause := 1, offAt := s.now, wakeWaits := false }
    .next { s1.stopPorter with resetN := false, pinFault := false, standby := false }
/-- RESET_N_RELEASE: the straps are sampled and the night porter is released. A release within the 1 ms in which the rails go off may
have come before the shutdown had finished, which REENTERED records: an open value there (R371, log entry 4). -/
def execResetNRelease (slotId : BitVec 6) (masterEn : Bool) (s : State) : Out :=
  if s.resetN then .next s
  else if !s.vaon then .next { s with resetN := true }
  else
    let early := decide (s.offCause = 1) && decide (s.now < s.offAt + 1000000)
    let dr := s.draw
    let s1 : State := if early then dr.2 else s
    .next (({ s1 with resetN := true, standby := true } : State).releasePorter slotId masterEn (early && Config.freeBool dr.1))
/-- PERST_N: a hot reset of the PCIe port, and of nothing else. -/
def execPerstN (s : State) : Out :=
  if !s.perstN then .next s
  else
    let s1 : State := { s with perstN := false }
    .next (if s.rails && s.hostUp then s1.hostDown else s1)
/-- PERST_N_RELEASE: the port trains, once die 0 is released. -/
def execPerstNRelease (s : State) : Out :=
  if s.perstN then .next s else .next { s with perstN := true, hostUp := s.rails, hostGts := if s.rails then 1024 else s.hostGts }
/-- VIN_LOSS: the die rails go off, and the package stays in Standby until R305 releases it. -/
def execVinLoss (s : State) : Out :=
  if !s.vin then .next s
  else
    let s1 : State := { s with vin := false, wakeWaits := false }
    .next (if s.rails then s1.dropDies 2 else s1)
/-- VIN_APPLIED: nothing starts by itself (Table 17-10). -/
def execVinApplied (s : State) : Out := if s.vin then .next s else .next { s with vin := true, vinAt := s.now }
/-- SYS_REF_APPEARS: REF25_OK is set, and the package no longer runs free (R312); one that waits in Standby stays there. The master's
counter is the reference again at once. -/
def execSysRefAppears (s : State) : Out :=
  if s.sysRef then .next s
  else
    let s1 : State := { s with sysRef := true, sysRefAt := s.now }
    if !s.rails then .next s1
    else
      let s2 := s1.setBit .clk CLK_STATUS 0 true
      .next (if s.master = some s.slot then { s2.cntFollow with holdoverAt := 0 } else s2)
/-! ### What the outputs show (Table 17-9): none is high impedance, and an asserted open-drain output is driven low -/

def openDrain (asserted : Bool) : Option Bool := if asserted then some false else none
def State.faultPin (s : State) : Option Bool := openDrain (s.vaon && s.resetN && s.npRuns && s.pinFault)
def State.alertPin (s : State) : Option Bool := openDrain (s.vaon && s.resetN && s.rails && s.bit .ldg LDG_STATUS 2)
def State.thermPin (s : State) : Option Bool := openDrain (s.vaon && s.resetN && s.rails && s.bit .thm THM_STATUS 3)
def State.tmxPin (s : State) (n : Fin 4) : Option Bool :=
  if !s.vaon then none else some (s.resetN && s.rails && tabGet (fun _ => false) s.tmxOut n.val)

/-- WAKE_N: out of Standby. -/
def execWakeN (s : State) : Out := .next s.wakeDies

end Sys2Proof.Machine
end

