-- ==== Sys2Proof/Machine/RegWrite.lean ====
section
/-! DEFINITION. The register windows: where they lie, who reaches them, what a read answers and what a write does (R7 to R9, R29,
R378, and each window's own rule), REGISTER_WRITE, and host accesses through BAR2 (R289). -/

namespace Sys2Proof.Machine

/-! ### Where a register lies in BAR0 (Table 13-2) -/

/-- The register at an offset of BAR0 of virtual function d. -/
def bar0At (d : Dye) (off : Nat) : RegAt :=
  let p := pageOff d (off % 0x100)
  if off < 0x100 then .at (.vf d) off
  else if off / 0x100 = 0x10 then .at .inn p
  else if off / 0x100 = 0x20 then .at .tier p
  else if off / 0x100 = 0x30 then .at .pkg p
  else if 0x40 ≤ off / 0x100 ∧ off / 0x100 < 0x48 then .at (.drv (Fin.ofNat 8 (off / 0x100))) p
  else if off = 0x5000 ∨ off = 0x5004 then .at .cnt (off - 0x5000)
  else if off = 0x5008 then .at .pkg PKG_REVISION
  else if off / 0x100 = 0x60 then .at .smf p
  else if off / 0x100 = 0x70 then .at (.eth 0) p
  else if off / 0x100 = 0x71 then .at (.eth 1) p
  else .hole

/-! ### Who reaches a register (R29, R378, R247) -/

/-- What an access meets: the register, zeros without a report, or a permission error. -/
inductive Reach where
  | ok | zero | error
  deriving DecidableEq, Repr, Inhabited

def paged : Win → Bool
  | .pkg | .inn | .tier | .drv _ | .pwr | .ldg | .sec | .smf | .eth _ => true
  | _ => false
def regulated : Win → Bool
  | .hbm _ | .tlk _ | .eth _ | .pci | .noc _ => true
  | _ => false
/-- The dye page that an offset lies in. -/
def pageOfOff (o : Nat) : Option (Dye × Nat) :=
  if 0x1000 ≤ o ∧ o < 0x2000 then some (Fin.ofNat 16 ((o - 0x1000) / 0x100), o % 0x100) else none
/-- A read of offset po of a dye's own page, as the window's table allows it. -/
def ownPageRead (w : Win) (m : Master) (d : Dye) (po : Nat) : Reach :=
  match w with
  | .pkg => if d = 0 ∨ m = .vf d then .ok else .error
  | .tier => if d = 0 ∨ m = .vf d ∨ 0x20 ≤ po then .ok else .error
  | _ => .ok
/-- The windows whose dye pages the management partition reads. -/
def mgmtReads : Win → Bool
  | .inn | .tier | .drv _ | .pwr | .ldg | .eth _ => true
  | _ => false
def State.readReach (s : State) (m : Master) (w : Win) (o : Nat) : Reach :=
  let dm := s.dyeOf m
  match unitRegion w with
  | some r => if s.owner r = dm ∨ (dm = 0 ∧ s.tokenAllows (s.owner r) 0) then .ok else .error
  | none =>
    match w with
    | .rgn r => if dm = 0 ∨ s.owner r = dm then .ok else .error
    | .vf d => if m = .vf d then .ok else .error
    | _ =>
      if (w = .pkg ∧ o = PKG_REVISION) ∨ (w = .cnt ∧ o < 8) then .ok
      else if 0xF000 ≤ o ∧ regulated w then
        (if dm = 0 then .ok
         else match w with
           | .hbm _ => .error
           | _ => if (o - 0xF000) / 0x20 = dm.val ∨ o = RGL_SHD_SEQ then .ok else .zero)
      else
        match (if paged w then pageOfOff o else none) with
        | some (d, po) => if d = dm then ownPageRead w m d po else if dm = 0 ∧ mgmtReads w then .ok else .zero
        | none => if dm = 0 then .ok else .error
/-- What the management partition writes in a tenant's page, and the writers that a window names. -/
def foreignPageWrite (w : Win) (m : Master) (po : Nat) : Bool :=
  match w with
  | .drv _ => po == DRV_D_CTRL || ((po == DRV_D_PLAN_L || po == DRV_D_PLAN_H) && m == .innkeeper) ||
      ((po == DRV_D_TABLE_L || po == DRV_D_TABLE_H) && m == .imageLoader)
  | .eth _ => po == ETH_D_MAC_L || po == ETH_D_MAC_H
  | .pwr => po == PWR_D_SHARE
  | .ldg => true
  | _ => false
/-- A write to a dye's own page. -/
def ownPageWrite (w : Win) (m : Master) (d : Dye) (po : Nat) : Bool :=
  match w with
  | .pkg | .tier => d == 0 || m == .vf d
  | .drv _ => foreignPageWrite w m po
  | .pwr => d == 0
  | _ => true
def State.writeReach (s : State) (m : Master) (w : Win) (o : Nat) : Reach :=
  let dm := s.dyeOf m
  let ok := fun (b : Bool) => if b then Reach.ok else .error
  match unitRegion w with
  | some r =>
    match w with
    | .atp _ => ok (m == .regionController r)
    | .cou _ => ok (m == .regionController r)
    | .core _ => ok (if o == CORE_CTRL then m == .regionController r else s.owner r == dm)
    | _ => ok (s.owner r == dm)
  | none =>
    match w with
    | .rgn r => ok (dm == 0 || (s.owner r == dm && o != RGN_MOVE_CTRL))
    | .vf d => ok (m == .vf d)
    | _ =>
      match (if paged w then pageOfOff o else none) with
      | some (d, po) => ok (if d = dm then ownPageWrite w m d po else dm == 0 && foreignPageWrite w m po)
      | none => ok (dm == 0)

/-! ### What a register reads as -/

/-- CORE_STATUS (Table 3-13). -/
def runCode : RunState → Nat
  | .idle => 0 | .running => 1 | .gate => 2 | .stopped => 3 | .abandoned => 4 | .halted => 5 | .faulted => 6
def CoreSt.status (k : CoreSt) : Nat :=
  runCode k.run + b2n k.stopPend * 2 ^ 3 + b2n (k.mq != []) * 2 ^ 4 + b2n (k.xq.any (fun x => !x.send)) * 2 ^ 5 +
  b2n (k.xq.any (·.send) || k.sent != [] || k.refusedSends != [] || k.posted.any (fun e => e.2 != [])) * 2 ^ 6 +
  b2n k.remoteWait * 2 ^ 7 + k.fault.toNat * 2 ^ 8 + k.epoch.toNat * 2 ^ 16
/-- The CORE_ window (Table 3-12). -/
def CoreSt.reg (k : CoreSt) (o : Nat) : Word32 :=
  let n := fun (x : Nat) => BitVec.ofNat 32 x
  if o = CORE_STATUS then n k.status
  else if o = CORE_TGROUP then k.tgroup
  else if o = CORE_PC then n k.pc
  else if o = CORE_TILE then n k.tile
  else if o = CORE_CKPT_PC then n k.ckpt.pc
  else if o = CORE_TILE_LIMIT then k.tileLimit
  else if o = CORE_TILE_MAX then k.tileMax
  else if o = CORE_FAULT_PC then k.faultPc
  else if o = CORE_FAULT_INFO then k.faultInfo
  else if o = CORE_EVT_INVALID then k.evInvalid
  else if o = CORE_EVT_OVERFLOW then k.evOverflow
  else if o = CORE_EVT_SATURATE then k.evSaturate
  else if o = CORE_EVT_NANBLOCK then k.evNanBlock
  else if o = CORE_STALL_REMOTE then k.stallRemote
  else if o = CORE_STALL_LOCAL then k.stallLocal
  else if CORE_SCHAN ≤ o ∧ o < CORE_RCHAN then tabGet (fun _ => 0) k.schan ((o - CORE_SCHAN) / 4)
  else if CORE_RCHAN ≤ o ∧ o < CORE_BARID then tabGet (fun _ => 0) k.rchan ((o - CORE_RCHAN) / 4)
  else if CORE_BARID ≤ o ∧ o < CORE_SHD then tabGet (fun _ => 0) k.barid ((o - CORE_BARID) / 4)
  else if CORE_SHD ≤ o ∧ o < CORE_SHD_SEQ then tabGet (fun _ => 0) k.shd ((o - CORE_SHD) / 4)
  else if o = CORE_SHD_SEQ then k.shdSeq
  else if CORE_ISTORE ≤ o then
    let w := k.istore.getD ((o - CORE_ISTORE) / 8) 0
    BitVec.ofNat 32 (bitsOf w (o % 8 * 8) 32)
  else 0
/-- Write-only offsets, which read as 0 (Table 0-7). -/
def writeOnly (w : Win) (o : Nat) : Bool :=
  let page := (if paged w then pageOfOff o else none).map (·.2)
  match w with
  | .core _ => o == CORE_CTRL
  | .spd _ => o == SPD_CLR_CTRL
  | .atp _ => o == ATP_CTRL || (decide (ATP_DQW ≤ o) && decide (o ≤ ATP_TQ_PUSH))
  | .cou _ => o == COU_CTRL || (decide (COU_DW ≤ o) && decide (o ≤ COU_PUSH))
  | .rgn _ => o == RGN_MOVE_CTRL
  | .tlk _ => o == TLK_CTRL
  | .vf _ => o == PCI_VF_CTRL
  | .thm => o == THM_CTRL
  | .inj => o == INJ_CTRL
  | .npt => o == NPT_MBOX_CMD
  | .pkg => o == PKG_PART_CMD || page == some PKG_IMG_D_CMD || page == some PKG_JOB_D_CTRL
  | .inn => o == INN_CTRL
  | .tier => page.any (fun p => decide (p ≤ TIER_D_PUSH))
  | .drv _ => page == some DRV_D_CTRL
  | .eth _ => o == ETH_CTRL || o == ETH_WALL_OFS_L || o == ETH_WALL_OFS_H
  | .smf => page.any (fun p => decide (p ≤ SMF_D_PUSH))
  | .pwr => decide (PWR_RGN_CTRL ≤ o) && decide (o < PWR_RGN_STATUS)
  | .ldg => o == LDG_CTRL || o == LDG_SNAP_CMD || page == some LDG_D_SNAP_CMD
  | .sec => o == SEC_DBG_CMD || page.any (fun p => p == SEC_D_CTRL || (decide (SEC_D_NONCE ≤ p) && decide (p < SEC_D_NOT_AFTER_L)))
  | _ => false
/-- A comparator's registers (Table 12-9). -/
def State.cmpReg (s : State) (o : Nat) : Word32 :=
  let c := tabGet cmpReset s.cmps ((o - CNT_CMP_AT_L) / 0x10)
  BitVec.ofNat 32 (if o % 0x10 = 0 then c.value % 2 ^ 32 else if o % 0x10 = 4 then c.value / 2 ^ 32
    else if o % 0x10 = 8 then c.owner + b2n c.armed * 4 + b2n c.late * 8 else 0)
/-- The value of a register for a master of dye d. The sequence number of a regulator block counts for each dye. SPD_CLR_STATUS.STATE
follows the pass that a clear is in (Table 4-6); while a pipeline or Courier is cleared its window reads 0 but for the CLEARING bit
(R136, R180). -/
def State.regValue (s : State) (d : Dye) (w : Win) (o : Nat) : Word32 :=
  if writeOnly w o then 0
  else match w with
    | .core c => (s.core c).reg o
    | .spd r => (match clrGet s.clrNow r with
        | some c => if o = SPD_CLR_STATUS then putBits (s.rd w o) 0 3 (s.clearState r c) else s.rd w o
        | none => s.rd w o)
    | .atp r => if s.bit (.atp r) ATP_STATUS 9 ∧ o ≠ ATP_STATUS then 0 else s.rd w o
    | .cou r => if s.couClearing r ∧ o ≠ COU_STATUS then 0 else s.rd w o
    | .cnt => if o = CNT_NOW_H then s.nowHigh else if CNT_CMP_AT_L ≤ o ∧ o < CNT_CMP_AT_L + 0x400 then s.cmpReg o else s.rd .cnt o
    | .rgn r => if o = 0x300 then s.rd .pwr (rgnReg r) else s.rd w o
    | .pwr => (match pageOfOff o with
        | some (q, 4) => tabGet (fun _ => 0) s.energyHigh q.val
        | _ => s.rd w o)
    | _ => if regulated w ∧ o = RGL_SHD_SEQ then s.rd w (RGL_SHD_SEQ + 4 + 4 * d.val) else if regulated w ∧ RGL_SHD_SEQ < o then 0 else s.rd w o
/-- A read of a register that the master reaches. Reads with an effect: CNT_NOW_L, PWR_D_ENERGY_L, and the first word of a Ledger
record. -/
def State.regRead (s : State) (m : Master) (w : Win) (o : Nat) : State :=
  let plain := s.answer (leBytes (s.regValue (s.dyeOf m) w o).toNat 4)
  let of_ := fun (x : Out) => match x with | .next t => t | _ => s
  match w with
  | .cnt => if o = CNT_NOW_L then s.readNow else plain
  | .ldg => if o = LDG_REC then of_ (execLdgRecLoad m s) else (match pageOfOff o with
      | some (d, po) => if po = LDG_D_REC then of_ (execLdgDRecLoad m d s) else plain
      | none => plain)
  | .pwr => (match pageOfOff o with
      | some (d, 0) => { plain with energyHigh := tabSet (fun _ => 0) plain.energyHigh d.val (s.rd .pwr (o + 4)) }
      | _ => plain)
  | _ => plain
/-- A register read by its place: zeros where there is no register, zeros and a permission error where the master has no reach. -/
def State.readReg (s : State) (m : Master) : RegAt → State
  | .hole => s.answer [0, 0, 0, 0]
  | .foreign => s.permissionError
  | .at w o =>
    match s.readReach m w o with
    | .ok => s.regRead m w o
    | .zero => s.answer [0, 0, 0, 0]
    | .error => s.permissionError

/-! ### What a write does -/

/-- The bits of a register that a write stores (Access RW, and the staging words); none where a write has another effect or none.
Table 13-3 says of PCI_VF_APERTURE only that it is 16 MiB aligned: its low 24 bits are not stored, while a ring's base keeps all of its
bits (DESIGN CHOICE, log entry 123). -/
def rwMask (w : Win) (o : Nat) : Option Nat :=
  let all := 0xFFFFFFFF
  let page := (if paged w then pageOfOff o else none).map (·.2)
  match w with
  | .spd _ => if o = SPD_BIST_CTRL then some 0xFFFF0001 else none
  | .atp _ => if (ATP_LCLASS ≤ o ∧ o < ATP_LCLASS + 0x40) then some 0x800FFFFF
      else if (ATP_DQW ≤ o ∧ o < ATP_DQ_PUSH) ∨ (ATP_AQW ≤ o ∧ o < ATP_AQ_PUSH) ∨ (ATP_TQW ≤ o ∧ o < ATP_TQ_PUSH) then some all else none
  | .cou _ => if o = COU_CFG then some 3 else if o = COU_OVF_IN_L ∨ o = COU_OVF_OUT_L then some all
      else if o = COU_OVF_IN_H ∨ o = COU_OVF_OUT_H then some 0xFFFF else if o = COU_OVF_ROWS then some 0xFFFFFF
      else if COU_DW ≤ o ∧ o < COU_PUSH then some all else none
  | .hbm _ => if o = HBM_SCRUB then some 0xFF else none
  | .vf _ => if o ∈ [PCI_VF_SQ_BASE_L, PCI_VF_SQ_BASE_H, PCI_VF_CQ_BASE_L, PCI_VF_CQ_BASE_H, PCI_VF_CQ_SHADOW_L, PCI_VF_CQ_SHADOW_H,
        PCI_VF_APERTURE_H] then some all
      else if o = PCI_VF_SQ_SIZE then some 0xF else if o = PCI_VF_CQ_SIZE then some 0x1F else if o = PCI_VF_INT_COAL then some 0xFFFFFF
      else if o = PCI_VF_APERTURE_L then some 0xFF000000 else none
  | .inj => if o = INJ_DETECTOR then some 0xFFFF03FF else if o = INJ_TARGET then some 0xFFFFF3FF
      else if o = INJ_ADDR_L ∨ o = INJ_ADDR_H ∨ o = INJ_PATTERN then some all else none
  | .npt => if NPT_MBOX_DATA ≤ o ∧ o < 0x500 then some all else none
  | .pkg => match page with
    | some p => if p = PKG_IMG_D_ADDR_L ∨ p = PKG_IMG_D_LEN ∨ p = PKG_JOB_D_AT_L ∨ p = PKG_JOB_D_AT_H then some all
        else if p = PKG_IMG_D_ADDR_H then some 0xFFFF else none
    | none => none
  | .tier => if o = TIER_CFG then some 0xFFFFFF else match page with
    | some p => if p < TIER_D_PUSH then some all else none
    | none => none
  | .drv _ => match page with
    | some p => if p = DRV_D_TABLE_L then some all else if p = DRV_D_TABLE_H then some 0xFFFF else none
    | none => none
  | .eth _ => if o = ETH_MODE then some 0xF else if o = ETH_FAB_MAC_L then some all else if o = ETH_FAB_MAC_H then some 0xFFFF else match page with
    | some p => if p = ETH_D_TXQ_BASE_L ∨ p = ETH_D_TXQ_BASE_H ∨ p = ETH_D_RXQ_BASE_L ∨ p = ETH_D_RXQ_BASE_H ∨ p = ETH_D_RXQ_TAIL then some all
        else if p = ETH_D_QSIZE then some 0xFF else none
    | none => none
  | .smf => if o = SMF_CFG then some 0xFFFF else if o = SMF_PREFIX_L ∨ o = SMF_PREFIX_H then some all
      else if SMF_PEER ≤ o ∧ o < SMF_PEER + 0x400 then some (if o % 8 = 0 then all else 0x8000FFFF) else match page with
    | some p => if p < SMF_D_PUSH then some all else none
    | none => none
  | .pwr => if o = PWR_IDLE then some all else if page = some PWR_D_SHARE then some 0xFF else none
  | .ldg => if o = LDG_PERIOD then some 0xFFFF else if o = LDG_ALERT_LVL then some 7
      else if o = LDG_REC_IDX ∨ o = LDG_SNAP_AT_L ∨ o = LDG_SNAP_AT_H then some all else match page with
    | some p => if p = LDG_D_SNAP_AT_L ∨ p = LDG_D_SNAP_AT_H ∨ p = LDG_D_REC_IDX then some all else none
    | none => none
  | .sec => if o = SEC_DBG_ADDR_L ∨ o = SEC_DBG_ADDR_H ∨ o = SEC_DBG_LEN then some all else match page with
    | some p => if p = SEC_D_QADDR_L ∨ p = SEC_D_QADDR_H ∨ (SEC_D_NONCE ≤ p ∧ p < SEC_D_NOT_AFTER_L) then some all else none
    | none => none
  | _ => none
/-- W1C bits. -/
def w1cMask (w : Win) (o : Nat) : Nat :=
  match w with
  | .spd _ => if o = SPD_CLR_STATUS then 0x180 else 0
  | .atp _ => if o = ATP_DQ_STATUS ∨ o = ATP_AQ_STATUS ∨ o = ATP_TQ_STATUS then 0x2000 else 0
  | .cou _ => if o = COU_Q_STATUS then 0x2000 else 0
  | .vf _ => if o = PCI_VF_STATUS then 6 else 0
  | _ => 0
/-- A register that may be written only in some states: ATP_LCLASS and COU_CFG with the pool registers while their units are IDLE or
STOPPED (R137, R181), a ring's registers while the rings are off. A write at another time has no effect (log entry 79). -/
def State.mayStore (s : State) (w : Win) (o : Nat) : Bool :=
  match w with
  | .atp r => if ATP_LCLASS ≤ o ∧ o < ATP_LCLASS + 0x40 then allUnits.all (fun u => s.unitState r u == 0 || s.unitState r u == 3) else true
  | .cou r => if COU_CFG ≤ o ∧ o ≤ COU_OVF_ROWS then s.couState r == 0 || s.couState r == 9 else true
  | .vf d => if o < PCI_VF_INT_COAL then !s.ringsOn d else true
  | _ => true
/-- The bits of a mask taken from v, the others kept. -/
def maskPut (mask old v : Nat) : Nat := Nat.lor (Nat.land old (Nat.xor mask 0xFFFFFFFF)) (Nat.land v mask)
def State.after (s : State) (x : Out) : State := match x with | .next t => t | _ => s
/-- The commands behind a control register's bits, in the order of the list: the order of the bits where the spec gives none
(log entry 83), Table 3-11's for CORE_CTRL. -/
def State.onBits (s : State) (v : Word32) (l : List (Nat × (State → Out))) : State :=
  l.foldl (fun (t : State) e => if bitOf v e.1 then t.after (e.2 t) else t) s
/-- TIER_D_PUSH: the staged command (Table 6-8). -/
def State.tierPush (s : State) (d : Dye) : State :=
  let w := fun (k : Nat) => s.rdP .tier d (TIER_D_CMD + 4 * k)
  let value := s.rd64 .tier (pageOff d (TIER_D_CMD + 8))
  let op := bitsOf (w 0) 0 4
  if op = 1 then s.after (execPublish d (BitVec.ofNat 16 (bitsOf (w 0) 16 16)) (w 1).toNat s)
  else if op = 2 then s.after (execRelease d value s)
  else if op = 3 then s.after (execAddHostBuffer d value s)
  else if op = 4 then s.after (execWithdrawHostBuffer d value s)
  else s.tierDone d (if s.tierBusy d then tBUSY else tBADCMD)
/-- SMF_D_PUSH: the staged command (Table 13-10). CMD0 holds OP, CMD1 and CMD2 the address, CMD3 and CMD4 OPERAND0, CMD5 the low word of
OPERAND1, for whose high word the six words have no place: a free value (log entry 80). -/
def State.smfPush (s : State) (d : Dye) : State :=
  let w := fun (k : Nat) => s.rdP .smf d (SMF_D_CMD + 4 * k)
  let op := bitsOf (w 0) 0 4
  let a : Addr := BitVec.ofNat 48 ((w 1).toNat + bitsOf (w 2) 0 16 * 2 ^ 32)
  let x := s.rd64 .smf (pageOff d (SMF_D_CMD + 12))
  let dr := s.draw
  let y : Word64 := BitVec.ofNat 64 ((w 5).toNat + Config.freeNat dr.1 % 2 ^ 32 * 2 ^ 32)
  if op = 0 ∨ 8 < op ∨ bitsOf (w 0) 4 28 ≠ 0 ∨ bitsOf (w 2) 16 16 ≠ 0 then
    (if tabGet (fun _ => false) s.smfBusy d.val then s.wrP .smf d SMF_D_RESULT0 (BitVec.ofNat 32 xBUSY) else s.smfDone d xBADCMD)
  else if op = 1 then s.after (execSmfAcquire d a x.toNat s)
  else if op = 2 then s.after (execSmfRenew d a x.toNat s)
  else if op = 3 then s.after (execSmfRelease d a s)
  else if op = 4 then s.after (execSmfFetchAdd d a x s)
  else if op = 5 then s.after (execSmfCas d a x y dr.2)
  else if op = 6 then s.after (execSmfSwap d a x s)
  else if op = 7 then s.after (execSegAlloc d s)
  else s.after (execSegFree d a s)
/-- A push of the mailbox (R357): it stands in no secured session, so that the commands marked Session are refused; SET_AUTHORITY needs I3C
or a session (R351). -/
def State.mailboxPush (s : State) (cmd : Nat) : State :=
  let p : MgtPath := { mailbox := true }
  if cmd = 0x01 then s.after (execGetBudget p s)
  else if cmd = 0x10 then s.after (execGetPartitions p s)
  else s.after (s.porter (fun s =>
    s.reply p (if cmd ∈ [0x02, 0x03, 0x11, 0x12, 0x13, 0x14, 0x20, 0x21, 0x22, 0x23, 0x30, 0x31] then cUNAUTHENTICATED else cINVALID)))
/-- The effect of a write that has one of its own: the command that the register stands for, by its own rule. -/
def State.regCommand (s : State) (m : Master) (w : Win) (o : Nat) (v : Word32) : State :=
  match w with
  | .core c => if o = CORE_CTRL then s.onBits v [(2, execCoreFaultAck m c), (0, execCoreGo m c), (1, execCoreStop m c)] else s
  | .spd r =>
    if o = SPD_CLR_CTRL then s.after (execSpdClearRequest m r v s)
    else if SPD_MACC ≤ o ∧ o < SPD_MACC + 40 then s.after (execSpdMaccWrite m r (Fin.ofNat 10 ((o - SPD_MACC) / 4)) v s)
    else if SPD_WIN ≤ o ∧ o < SPD_WIN + 0x800 then
      s.after (execSpdWinWrite m r (Fin.ofNat 64 ((o - SPD_WIN) / 0x20)) (Fin.ofNat 8 (o / 4)) v s)
    else s
  | .atp r =>
    if o = ATP_CTRL then s.onBits v [(0, execAtpStop m r), (1, execAtpGo m r), (2, execAtpFlush m r), (3, execAtpErrAck m r)]
    else if o = ATP_PHASE then s.after (execAtpPhaseWrite m r v s)
    else if o = ATP_CFG then
      let quiet := allUnits.all (fun u => s.unitState r u == 0 || s.unitState r u == 3)
      s.wr (.atp r) ATP_CFG (BitVec.ofNat 32 (maskPut (if quiet then 0x3FFF0003 else 2) (s.rd (.atp r) ATP_CFG).toNat v.toNat))
    else if o = ATP_DQ_PUSH then s.after (execAtpDqPush m r v s)
    else if o = ATP_AQ_PUSH then s.after (execAtpAqPush m r v s)
    else if o = ATP_TQ_PUSH then s.after (execAtpTqPush m r v s)
    else s
  | .cou r =>
    if o = COU_CTRL then s.onBits v [(0, execCouStop m r), (1, execCouGo m r), (2, execCouFlush m r), (3, execCouErrAck m r)]
    else if o = COU_PHASE then s.after (execCouPhaseWrite m r v s)
    else if o = COU_PUSH then s.after (execRoutePush m r v s)
    else s
  | .rgn r => if o = RGN_MOVE_CTRL ∧ bitOf v 0 then s.after (execMove m r (Fin.ofNat 16 (bitsOf v 1 4)) s) else s
  | .tlk l =>
    if o = TLK_CTRL then s.onBits v [(0, execLinkEnable m l), (1, execLinkDisable m l), (2, execLinkRetrain m l), (3, execRecable m)] else s
  | .inn => if o = INN_CTRL then s.onBits v [(0, execStopAdmit m), (1, execResumeAdmit m)] else s
  | .thm => if o = THM_CTRL then s.onBits v [(0, execCritAck m)] else s
  | .inj => if o = INJ_CTRL then s.onBits v [(0, execArm m), (1, execDisarm m)] else s
  | .tmx => if o < 0x10 then s.after (execTmxSelWrite m (Fin.ofNat 4 (o / 4)) v s) else s
  | .vf d =>
    if o = PCI_VF_CTRL then s.onBits v [(0, execEnableRings d), (1, execDisableRings d)]
    else if o = PCI_VF_SQ_TAIL then s.after (execSqTailWrite d v s)
    else if o = PCI_VF_CQ_HEAD then s.after (execCqHeadWrite d v s)
    else s
  | .pkg =>
    if o = PKG_PART_CMD then (if bitOf v 0 then s.after (execPartCmdKill m (Fin.ofNat 16 (bitsOf v 4 4)) s) else s)
    else (match pageOfOff o with
      | some (d, po) =>
        if po = PKG_IMG_D_CMD then s.onBits v [(0, execLoad m d), (1, execAbort m d)]
        else if po = PKG_JOB_D_CTRL then s.onBits v [(0, execJobStart m d), (1, execJobStop m d)]
        else s
      | none => s)
  | .tier => (match pageOfOff o with
      | some (d, po) => if po = TIER_D_PUSH ∧ bitOf v 0 then s.tierPush d else s
      | none => s)
  | .drv e =>
    if DRV_SHARE ≤ o ∧ o < DRV_SHARE + 0x40 then s.after (execDrvShareWrite m e (Fin.ofNat 16 ((o - DRV_SHARE) / 4)) v s)
    else (match pageOfOff o with
      | some (d, po) =>
        if po = DRV_D_CTRL then
          s.onBits v [(0, execDrvStop m e d), (1, execDrvGo m e d (bitOf v 2)), (3, execDrvErrAck m e d)]
        else if po = DRV_D_PLAN_L then
          s.after (execDrvPlanWrite m e d (BitVec.ofNat 48 ((s.rdP (.drv e) d DRV_D_PLAN_H).toNat * 2 ^ 32 + v.toNat)) s)
        else if po = DRV_D_PLAN_H then
          s.after (execDrvPlanWrite m e d (BitVec.ofNat 48 (v.toNat * 2 ^ 32 + (s.rdP (.drv e) d DRV_D_PLAN_L).toNat)) s)
        else s
      | none => s)
  | .eth p =>
    if o = ETH_CTRL then s.onBits v [(0, execEthEnable m p), (1, execEthDisable m p), (2, execEthRetrain m p)]
    else if o = ETH_WALL_OFS_L then { s with wallOfsL := tabSet (fun _ => 0) s.wallOfsL p.val v }
    else if o = ETH_WALL_OFS_H then s.after (execEthWallOfsWrite m p v s)
    else (match pageOfOff o with
      | some (d, po) =>
        if (po = ETH_D_MAC_L ∨ po = ETH_D_MAC_H) ∧ s.dyeOf m = 0 then
          s.wr w o (if po = ETH_D_MAC_L then v else v &&& 0x8FFFFFFF#32)
        else if po = ETH_D_TXQ_TAIL then s.after (execEthTxqTailWrite d p v s)
        else s
      | none => s)
  | .pwr =>
    if PWR_RGN_CTRL ≤ o ∧ o < PWR_RGN_STATUS ∧ bitOf v 2 then
      s.after (execRegionPowerRequest m (Fin.ofNat 16 ((o - PWR_RGN_CTRL) / 4)) (BitVec.ofNat 2 (bitsOf v 0 2)) s)
    else s
  | .ldg =>
    if o = LDG_CTRL then s.onBits v [(0, execAlertAck m)]
    else if o = LDG_SNAP_CMD then s.onBits v [(0, execSnapshotPush m (bitOf v 1))]
    else (match pageOfOff o with
      | some (d, po) => if po = LDG_D_SNAP_CMD then s.onBits v [(0, execDyeSnapshotPush m d (bitOf v 1))] else s
      | none => s)
  | .sec =>
    if o = SEC_DBG_CMD then s.onBits v [(0, execSecDbgChallenge m (Fin.ofNat 16 (bitsOf v 4 4))), (1, execSecDbgPush m)]
    else (match pageOfOff o with
      | some (d, po) => if po = SEC_D_CTRL then s.onBits v [(0, execQuote m d), (1, execRevoke m d)] else s
      | none => s)
  | .smf => (match pageOfOff o with
      | some (d, po) => if po = SMF_D_PUSH ∧ bitOf v 0 then s.smfPush d else s
      | none => s)
  | .npt => if o = NPT_MBOX_CMD ∧ bitOf v 8 then s.mailboxPush (bitsOf v 0 8) else s
  | _ => s
/-- The W1C bits of a register that a write of v clears: those that it writes 1 to, but for those that hardware has set in the same
cycle, which the model takes as the same counter value (R9, log entry 37). -/
def State.w1cClears (s : State) (w : Win) (o : Nat) (v : Word32) : List Nat :=
  (List.range 32).filter (fun i => w1cMask w o / 2 ^ i % 2 == 1 && bitOf v i && natGet s.w1cAt (regKey w o * 32 + i) != s.now + 1)
/-- A write to a register that the master reaches: W1C bits, stored bits, or the command behind the register; anything else is
ignored (R8). -/
def State.regStore (s : State) (m : Master) (w : Win) (o : Nat) (v : Word32) : State :=
  if w1cMask w o ≠ 0 then (s.w1cClears w o v).foldl (fun (t : State) i => t.setBit w o i false) s
  else match rwMask w o with
    | some k =>
      if !s.mayStore w o then s
      else
        let t := s.wr w o (BitVec.ofNat 32 (maskPut k (s.rd w o).toNat v.toNat))
        if w = .ldg ∧ o = LDG_ALERT_LVL then t.alertFollow else t
    | none => s.regCommand m w o v
/-- A register written by its place. What the issuer is told is what the command behind the register told it, else that the write was
taken. -/
def State.writeReg (s : State) (m : Master) (x : RegAt) (v : Word32) : State :=
  match x with
  | .hole => s.answer []
  | .foreign => s.permissionError
  | .at w o =>
    match s.writeReach m w o with
    | .error => s.permissionError
    | _ => (s.answer []).regStore m w o v
/-- An access of another size, or not aligned: an access-size error, counted as a refusal, with the region and core of the register that
it meets (R7, R27). A register of BAR0 has no device address: the record of one carries the offset in BAR0 (DESIGN CHOICE, log entry
124). -/
def State.sizeError (s : State) (m : Master) (x : RegAt) (a n : Nat) : State :=
  { (s.refuseRec m a x.core x.region) with resp := { permission := true, size := true, data := List.replicate n 0 } }
/-- REGISTER_WRITE. -/
def execRegisterWrite (m : Master) (t : RegTarget) (size : Nat) (v : Word32) (s : State) : Out :=
  match t with
  | .bar0 d off =>
    if size ≠ 4 ∨ off.toNat % 4 ≠ 0 then .next (s.sizeError (.vf d) (bar0At d off.toNat) off.toNat 0) else .next (s.writeReg (.vf d) (bar0At d off.toNat) v)
  | .device a =>
    match s.place (s.dyeOf m) a.toNat with
    | .regs o =>
      if size ≠ 4 ∨ o % 4 ≠ 0 then .next (s.sizeError m (s.regAt (s.dyeOf m) o) a.toNat 0) else .next (s.writeReg m (s.regAt (s.dyeOf m) o) v)
    | _ => .next (s.refuse m a.toNat 0)

/-! ### BAR2 (R289) -/

/-- A BAR2 access that is refused: counted, vector 2, and for a read all ones. -/
def State.bar2Refused (s : State) (d : Dye) (n : Nat) : State :=
  (((s.bump (.vf d) PCI_VF_REFUSED).msix d 2).answer (List.replicate n 0xFF))
def State.bar2Load (s : State) (d : Dye) (a n : Nat) : State :=
  match s.place d a with
  | .regs o =>
    if n ≠ 4 ∨ o % 4 ≠ 0 then (s.sizeError (.vf d) (s.regAt d o) a n).bar2Refused d n
    else
      let t := s.readReg (.vf d) (s.regAt d o)
      if t.resp.permission then t.bar2Refused d n else t
  | .host _ => s.after (execHostWindowAccess d (BitVec.ofNat 48 a) (.read n) s)
  | .shared _ _ => (s.ask (.vf d) a n).answer []
  | _ =>
    let r := s.read (.vf d) a n
    if r.1.refused then r.2.bar2Refused d n else r.2.answer r.1.data r.1.poison
def State.bar2Store (s : State) (d : Dye) (a : Nat) (bs : List Byte) : State :=
  match s.place d a with
  | .regs o =>
    if bs.length ≠ 4 ∨ o % 4 ≠ 0 then (s.sizeError (.vf d) (s.regAt d o) a 0).bar2Refused d 0
    else
      let t := s.writeReg (.vf d) (s.regAt d o) (BitVec.ofNat 32 (leNat bs))
      if t.resp.permission then t.bar2Refused d 0 else t
  | _ =>
    let r := s.write (.vf d) a bs
    if r.1 = .refused then r.2.bar2Refused d 0 else r.2.answer []
/-- A host load from BAR0 of virtual function d (Table 13-2): a mirror has the access rules of its register, PKG_REVISION's among them
(R5); another size or alignment reads zeros (R7). -/
def State.bar0Load (s : State) (d : Dye) (off n : Nat) : State :=
  if n ≠ 4 ∨ off % 4 ≠ 0 then s.sizeError (.vf d) (bar0At d off) off n else s.readReg (.vf d) (bar0At d off)
/-- A host load from BAR0 of the physical function, which mirrors the PCI_ window read-only (R287). -/
def State.pfLoad (s : State) (off n : Nat) : State :=
  if n ≠ 4 ∨ off % 4 ≠ 0 then s.sizeError (.vf 0) (.at .pci off) off n else s.answer (leBytes (s.regValue 0 .pci off).toNat 4)
/-- What a BAR2 access reads or writes at its first byte: a register, for the record of R7. -/
def State.bar2Reg (s : State) (d : Dye) (a : Nat) : Option RegAt :=
  match s.place d a with
  | .regs o => some (s.regAt d o)
  | _ => none
/-- BAR2_ACCESS: 4 to 64 bytes inside a block of 64, at the aperture's address; one of another size is refused, with R7's record where it
meets a register. The forms bar0 and pf are host loads from BAR0, which have no row of their own (log entry 120). -/
def execBar2Access (d : Dye) (off : BitVec 24) (acc : HostAccess) (s : State) : Out :=
  let a := ((s.rd64 (.vf d) PCI_VF_APERTURE_L).toNat + off.toNat) % 2 ^ 64
  let n := match acc with | .load k => k | .store bs => bs.length | .bar0 k => k | .pf k => k
  let back := match acc with | .store _ => 0 | _ => n
  if !s.hostUp then .next s
  else if acc = .bar0 n then .next (s.bar0Load d (off.toNat % 0x10000) n)
  else if acc = .pf n then .next (s.pfLoad (off.toNat % 0x10000) n)
  else if n < 4 ∨ 64 < n ∨ 64 < a % 64 + n ∨ 2 ^ 48 ≤ a then
    .next (((if 2 ^ 48 ≤ a then s else match s.bar2Reg d a with
      | some x => s.sizeError (.vf d) x a back
      | none => s)).bar2Refused d back)
  else
    match acc with
    | .store bs => .next (s.bar2Store d a bs)
    | _ => .next (s.bar2Load d a n)

end Sys2Proof.Machine
end

