-- ==== Sys2Proof/Machine/Tokens.lean ====
section
/-! DEFINITION. The token unit (R129 to R132): the distribution of a logits row, sampling, acceptance of candidates. -/

namespace Sys2Proof.Machine

/-! ### Distributions (R130). A distribution is its kept set in ascending index, each with its probability. -/

abbrev Dist := List (Nat × Word32)

/-- log2(e) to 200 binary places: enough for the one rounding of Lt. -/
def log2e : FV := .fin false 2318321547468254865173387471183990171487108758923299108729110 (-200)
/-- Lt = log2(e) / TEMP, rounded once. -/
def ltOf (temp : Word32) : Word32 := (toF32 (divFV log2e (fval temp)).1).1
/-- Chunks of 64, each reduced by the tree of R40, the results added in ascending order (R130). -/
def sumChunks : List (List Word32) → Word32
  | [] => 0
  | c :: cs => cs.foldl (fun a d => (fadd a (vsum (takePad 0 64 d)).1).1) (vsum (takePad 0 64 c)).1
def chunks64 {α : Type} (l : List α) : List (List α) := (List.range ((l.length + 63) / 64)).map (fun i => (l.drop (64 * i)).take 64)
def sumOf (l : List Word32) : Word32 := sumChunks (chunks64 l)
/-- Before in descending order of value, ties to the lower index. -/
def descBefore (a b : Nat × Word32) : Bool :=
  ltFV (fval b.2) (fval a.2) || (!ltFV (fval a.2) (fval b.2) && decide (a.1 ≤ b.1))
/-- The lowest index of the largest value. -/
def argmax (z : List Word32) : Nat :=
  ((List.zipIdx z).foldl (fun (b : Nat × Word32) p => if ltFV (fval b.2) (fval p.1) then (p.2, p.1) else b)
    (0, z.headD 0)).1
/-- The shortest run of tokens in descending order whose running sum reaches the bound. -/
def takeTo (bound : Word32) : Word32 → Dist → Dist
  | _, [] => []
  | acc, e :: es =>
    let a := (fadd acc e.2).1
    if ltFV (fval a) (fval bound) then e :: takeTo bound a es else [e]
def byIndex (l : Dist) : Dist := l.mergeSort (fun a b => decide (a.1 ≤ b.1))
/-- D(z) (R130); none where a logit is NaN. -/
def distOf (temp topP : Word32) (topK : Nat) (z : List Word32) : Option Dist :=
  if z.any isNan32 then none
  else if (fval temp).isZero then some [(argmax z, 0x3F800000)]
  else
    let one : Word32 := 0x3F800000
    let y := (List.zipIdx z).map (fun p => (p.2, (fmul p.1 (ltOf temp)).1))
    let k := if topK ≠ 0 then topK else if topP = one then y.length else 1024
    let kept := if y.length ≤ k then y else byIndex ((y.mergeSort descBefore).take k)
    let m := kept.foldl (fun a p => fmax a p.2) negInf
    let e := kept.map (fun p => (p.1, exp2f (fsub p.2 m).1))
    let e1 := if ltFV (fval topP) (fval one) then
        byIndex (takeTo (fmul topP (sumOf (e.map (·.2)))).1 0 (e.mergeSort descBefore))
      else e
    let rs := recipf (sumOf (e1.map (·.2)))
    some (e1.map (fun p => (p.1, (fmul p.2 rs).1)))
def Dist.at (p : Dist) (x : Nat) : Word32 := ((p.find? (fun e => e.1 == x)).map (·.2)).getD 0

/-! ### Sampling (R131) -/

/-- The draw u for a node, position and purpose. -/
def drawU (seed : Word64) (node pos purpose : Nat) : Word32 :=
  (toF32 (.fin false ((philox seed node pos purpose 1).getD 0 0 / 256) (-24))).1
/-- The running sums of the tokens with P > 0, in ascending index. -/
def runSums : Word32 → Dist → Dist
  | _, [] => []
  | acc, e :: es => let a := (fadd acc e.2).1; (e.1, a) :: runSums a es
def sampleOf (p : Dist) (u : Word32) : Nat :=
  let rs := runSums 0 (p.filter (fun e => fgt e.2 0))
  match rs.getLast? with
  | none => 0
  | some l => ((rs.find? (fun e => fgt e.2 (fmul u l.2).1)).getD l).1

/-! ### Candidates (R129) -/

structure Cand where
  token : Nat
  parent : Nat
  deriving DecidableEq, Repr, Inhabited
/-- An entry of the candidate table; none where it is not VALID or has other bits set. -/
def candOf (w : Nat) : Option Cand :=
  if w / 2 ^ 31 % 2 = 1 ∧ w / 2 ^ 18 % 4 = 0 ∧ w / 2 ^ 24 % 128 = 0 then some { token := w % 2 ^ 18, parent := w / 2 ^ 20 % 16 }
  else none
/-- Depths of nodes 0 to n - 1, where parents precede. -/
def depthsOf (cs : List (Option Cand)) : List Nat :=
  cs.foldl (fun ds c => ds ++ [match c with | none => 0 | some c => ds.getD c.parent 0 + 1]) []
/-- The table of nodes 1 to nodes - 1 meets R129. -/
def candsOk (kind vocab : Nat) (cs : List (Option Cand)) : Bool :=
  (List.zipIdx cs).all (fun p =>
    p.2 == 0 || (match p.1 with
      | none => false
      | some c => decide (c.parent < p.2) && decide (c.token < vocab) && (kind != 1 || c.parent == p.2 - 1))) &&
  (depthsOf cs).all (fun d => decide (d ≤ 8))

/-! ### The decision (R132) -/

/-- What a decision needs beside the rows: target and draft distributions by node, candidates, the seed. -/
structure TokCtx where
  tree : Bool
  pos : Nat
  seed : Word64
  cands : List (Option Cand)
  target : Nat → Option Dist
  draft : Nat → Option Dist

def TokCtx.kids (t : TokCtx) (n : Nat) : List Nat :=
  (List.range t.cands.length).filter (fun i => i ≠ 0 && ((t.cands.getD i none).map (·.parent)) == some n)
def TokCtx.tok (t : TokCtx) (n : Nat) : Nat := ((t.cands.getD n none).map (·.token)).getD 0
def TokCtx.depth (t : TokCtx) (n : Nat) : Nat := (depthsOf t.cands).getD n 0
/-- Two distributions laid over the union of their kept sets. -/
def overUnion (p q : Dist) : Dist × Dist :=
  let idx := ((p.map (·.1) ++ q.map (·.1)).dedup).mergeSort
  (idx.map (fun i => (i, p.at i)), idx.map (fun i => (i, q.at i)))
/-- A distribution divided by its sum where that is above 0 (R132). -/
def renorm (p : Dist) : Option Dist :=
  let t := sumOf (p.map (·.2))
  if fgt t 0 then some (p.map (fun e => (e.1, (fdiv e.2 t).1))) else none
/-- The children of a node tried in turn: the child accepted, if any, and the residual P. -/
def tryKids (t : TokCtx) : List Nat → Dist → Dist → Option Nat × Dist
  | [], p, _ => (none, p)
  | c :: cs, p, q =>
    let x := t.tok c
    let px := p.at x
    let qx := q.at x
    if fgt px 0 && (!fgt qx px || ltFV (fval (fmul (drawU t.seed c (t.pos + t.depth c) 0) qx).1) (fval px)) then
      (some c, p)
    else
      let pq := overUnion p q
      let res := List.zipWith (fun a b => (a.1, fmax 0 (fsub a.2 b.2).1)) pq.1 pq.2
      let p1 := (renorm res).getD p
      let q0 := pq.2.map (fun e => if e.1 = x then (e.1, 0) else e)
      tryKids t cs p1 ((renorm q0).getD q0)
/-- A decision: its tokens and the accepted nodes, and whether it stopped at a row with a NaN logit (R130). -/
structure Decision where
  toks : List Nat := []
  path : List Nat := []
  nan : Bool := false
  deriving DecidableEq, Repr, Inhabited
/-- The decision from node cur on. fuel counts nodes. -/
def decide1 (t : TokCtx) : Nat → Nat → Decision
  | 0, _ => {}
  | fuel + 1, cur =>
    match t.target cur with
    | none => { nan := true }
    | some p =>
      let u := drawU t.seed cur (t.pos + t.depth cur + 1) 1
      let on := fun (x c : Nat) => let r := decide1 t fuel c
                                   ({ r with toks := x :: r.toks, path := c :: r.path } : Decision)
      if !t.tree then
        let x := sampleOf p u
        match t.kids cur with
        | k :: _ => if t.tok k = x then on x k else { toks := [x] }
        | [] => { toks := [x] }
      else
        match t.kids cur with
        | [] => { toks := [sampleOf p u] }
        | ks =>
          match t.draft cur with
          | none => { nan := true }
          | some q =>
            match tryKids t ks p q with
            | (some c, _) => on (t.tok c) c
            | (none, p1) => { toks := [sampleOf p1 u] }

/-! ### The descriptor -/

def logitStride (v : Nat) : Nat := (4 * v + 255) / 256 * 256
def State.logitRow (s : State) (r : RegionNo) (a v : Nat) : List Word32 × Nat :=
  let x := (s.read (.attention r) a (4 * v)).1
  (bytesF32 x.data v, readCode x)
/-- The descriptor at the head of the token queue is done, with its record and its error, if any. -/
def State.endToken (s : State) (r : RegionNo) (x : TokD) (code : Nat) (rec : Option (List Byte)) (rest : List Word256) :
    State :=
  let w := match rec with
    | none => (WrRes.ok, s)
    | some bs => s.write (.attention r) x.out bs
  let c := if code ≠ 0 then code else writeCode w.1
  -- A status in the record is a delivered result; a session without one is reported to the Innkeeper (log entry 128).
  let s2 := match rec with
    | none => w.2.atpError r .tok c x.session
    | some bs =>
      if w.1 = WrRes.ok then { (if c ≠ 0 then w.2.atpFault r .tok c x.session else w.2) with
        tokenRecs := tabSet (fun _ => none) w.2.tokenRecs ((s.owner r).val * 65536 + x.session) (some (BitVec.ofNat 512 (leNat bs))) }
      else w.2.atpError r .tok c x.session
  (((s2.bump (.atp r) ATP_TOK_DONE).putQueue r .tok rest)).settleAll
/-- The reads that the decision made, in order, each of which may meet an error: the target row of each node on the path, its draft
row where it has children, and the extra heads. -/
def State.touchRows (s : State) (r : RegionNo) (v : Nat) : List Nat → Nat × State
  | [] => (0, s)
  | a :: as =>
    let x := s.read (.attention r) a (4 * v)
    if readCode x.1 ≠ 0 then (readCode x.1, x.2) else x.2.touchRows r v as

/-- TOKEN: decides a session's tokens and writes the result record. -/
def execToken (r : RegionNo) (s : State) : Out :=
  if !s.unitTakes r .tok then .next s
  else
    match (s.atp r).tq with
    | [] => .next s
    | d :: rest =>
      let x := tokOf d
      let st := logitStride x.vocab
      if descType d ≠ 8 ∨ tokReserved d then .next (s.endToken r x 0x01 none rest)
      else if x.out % 32 ≠ 0 then .next (s.endToken r x 0x07 none rest)
      else
        -- A plain descriptor has no candidates, and its table is not read.
        let ct := if x.kind = 0 then ({}, s) else s.read (.attention r) x.cand 64
        let cs : List (Option Cand) := (List.range x.nodes).map (fun n =>
          if n = 0 then none else candOf (codeAt 32 (leNat ct.1.data) n))
        if readCode ct.1 ≠ 0 then
          .next (ct.2.endToken r x (readCode ct.1) (if readCode ct.1 = 0x08 then some (resultRecord x 3 [] [] []) else none)
            rest)
        else if !candsOk x.kind x.vocab cs ∨ (x.kind = 0 ∧ x.nodes ≠ 1) ∨ (x.kind = 1 ∧ 4 < x.extra) then
          .next (ct.2.endToken r x 0x0C (some (resultRecord x 2 [] [] [])) rest)
        else
          let c := (s.ctx (s.owner r) x.session).getD { id := 0 }
          let dist := fun (a : Nat) => distOf c.temp c.topP c.topK (s.logitRow r a x.vocab).1
          let t : TokCtx :=
            { tree := x.kind = 2, pos := x.pos, seed := c.seed,
              cands := cs,
              target := fun n => dist (x.logits + n * st), draft := fun n => dist (x.cand + 256 + n * st) }
          let res := decide1 t x.nodes 0
          let path := 0 :: res.path
          let last := path.getLastD 0
          let heads := if x.kind = 1 ∧ !res.nan then (List.range x.extra).map (fun h => x.cand + 256 + (4 * last + h) * st) else []
          let rows := path.flatMap (fun n => (x.logits + n * st) ::
            (if x.kind = 2 ∧ t.kids n ≠ [] ∧ (t.target n).isSome then [x.cand + 256 + n * st] else [])) ++ heads
          let touched := ct.2.touchRows r x.vocab rows
          if touched.1 ≠ 0 then
            .next (touched.2.endToken r x touched.1 (if touched.1 = 0x08 then some (resultRecord x 3 [] [] []) else none)
              rest)
          else if res.nan then .next (touched.2.endToken r x 0x0B (some (resultRecord x 1 [] [] [])) rest)
          else
            let props := heads.map (fun a => argmax (s.logitRow r a x.vocab).1)
            .next (touched.2.endToken r x 0 (some (resultRecord x 0 res.toks path props)) rest)

end Sys2Proof.Machine
end

