-- ==== Sys2Proof/Machine/Dispatch.lean ====
section
/-! DEFINITION. The meaning of each command, by one arm per constructor of Instr. -/

namespace Sys2Proof.Machine

def exec (i : Instr) (s : State) : Host.Outcome State Fault Refusal :=
  match i with
  | .registerWrite m t size v => Sys2Proof.Machine.execRegisterWrite m t size v s
  | .cntNowLRead m => Sys2Proof.Machine.execCntNowLRead m s
  | .nop c w => Sys2Proof.Machine.execNop c w s
  | .add c w => Sys2Proof.Machine.execAdd c w s
  | .sub c w => Sys2Proof.Machine.execSub c w s
  | .mul c w => Sys2Proof.Machine.execMul c w s
  | .logic c w => Sys2Proof.Machine.execLogic c w s
  | .shift c w => Sys2Proof.Machine.execShift c w s
  | .addi c w => Sys2Proof.Machine.execAddi c w s
  | .movi c w => Sys2Proof.Machine.execMovi c w s
  | .cmp c w => Sys2Proof.Machine.execCmp c w s
  | .cmpi c w => Sys2Proof.Machine.execCmpi c w s
  | .plog c w => Sys2Proof.Machine.execPlog c w s
  | .lds c w => Sys2Proof.Machine.execLds c w s
  | .sts c w => Sys2Proof.Machine.execSts c w s
  | .rdsr c w => Sys2Proof.Machine.execRdsr c w s
  | .amov c w => Sys2Proof.Machine.execAmov c w s
  | .aadd c w => Sys2Proof.Machine.execAadd c w s
  | .aaddi c w => Sys2Proof.Machine.execAaddi c w s
  | .ard c w => Sys2Proof.Machine.execArd c w s
  | .vld c w => Sys2Proof.Machine.execVld c w s
  | .vst c w => Sys2Proof.Machine.execVst c w s
  | .vop c w => Sys2Proof.Machine.execVop c w s
  | .vfma c w => Sys2Proof.Machine.execVfma c w s
  | .vfunc c w => Sys2Proof.Machine.execVfunc c w s
  | .vred c w => Sys2Proof.Machine.execVred c w s
  | .vcvt c w => Sys2Proof.Machine.execVcvt c w s
  | .vqmx c w => Sys2Proof.Machine.execVqmx c w s
  | .vbcast c w => Sys2Proof.Machine.execVbcast c w s
  | .vtail c w => Sys2Proof.Machine.execVtail c w s
  | .vacc c w => Sys2Proof.Machine.execVacc c w s
  | .mload c w => Sys2Proof.Machine.execMload c w s
  | .mloadComplete c => Sys2Proof.Machine.execMloadComplete c s
  | .mma c w => Sys2Proof.Machine.execMma c w s
  | .mmaRowWritten c => Sys2Proof.Machine.execMmaRowWritten c s
  | .dma c w => Sys2Proof.Machine.execDma c w s
  | .dmaComplete c ok data => Sys2Proof.Machine.execDmaComplete c ok data s
  | .dwait c w => Sys2Proof.Machine.execDwait c w s
  | .send c w => Sys2Proof.Machine.execSend c w s
  | .sendComplete c ok => Sys2Proof.Machine.execSendComplete c ok s
  | .recv c w => Sys2Proof.Machine.execRecv c w s
  | .swait c w => Sys2Proof.Machine.execSwait c w s
  | .rwait c w => Sys2Proof.Machine.execRwait c w s
  | .semset c w => Sys2Proof.Machine.execSemset c w s
  | .semclr c w => Sys2Proof.Machine.execSemclr c w s
  | .semwait c w => Sys2Proof.Machine.execSemwait c w s
  | .barrier c w => Sys2Proof.Machine.execBarrier c w s
  | .barrierRelease d g => Sys2Proof.Machine.execBarrierRelease d g s
  | .fence c w => Sys2Proof.Machine.execFence c w s
  | .br c w => Sys2Proof.Machine.execBr c w s
  | .loop c w => Sys2Proof.Machine.execLoop c w s
  | .tbound c w => Sys2Proof.Machine.execTbound c w s
  | .halt c w => Sys2Proof.Machine.execHalt c w s
  | .tileGateOpen c => Sys2Proof.Machine.execTileGateOpen c s
  | .tileOverrun c => Sys2Proof.Machine.execTileOverrun c s
  | .coreGo m c => Sys2Proof.Machine.execCoreGo m c s
  | .coreStop m c => Sys2Proof.Machine.execCoreStop m c s
  | .coreFaultAck m c => Sys2Proof.Machine.execCoreFaultAck m c s
  | .abandonComplete c => Sys2Proof.Machine.execAbandonComplete c s
  | .scratchpadAccess m a acc => Sys2Proof.Machine.execScratchpadAccess m a acc s
  | .bankGrant c bank flips => Sys2Proof.Machine.execBankGrant c bank flips s
  | .eccWriteBack c word => Sys2Proof.Machine.execEccWriteBack c word s
  | .spdWinWrite m r k n v => Sys2Proof.Machine.execSpdWinWrite m r k n v s
  | .spdMaccWrite m r j v => Sys2Proof.Machine.execSpdMaccWrite m r j v s
  | .spdClearRequest m r v => Sys2Proof.Machine.execSpdClearRequest m r v s
  | .clearStart r => Sys2Proof.Machine.execClearStart r s
  | .clearDone r ok1 ok2 => Sys2Proof.Machine.execClearDone r ok1 ok2 s
  | .bistRowStart c => Sys2Proof.Machine.execBistRowStart c s
  | .bistRowRelease c marchOk => Sys2Proof.Machine.execBistRowRelease c marchOk s
  | .atpDqPush m r v => Sys2Proof.Machine.execAtpDqPush m r v s
  | .atpAqPush m r v => Sys2Proof.Machine.execAtpAqPush m r v s
  | .atpTqPush m r v => Sys2Proof.Machine.execAtpTqPush m r v s
  | .atpPhaseWrite m r v => Sys2Proof.Machine.execAtpPhaseWrite m r v s
  | .atpStop m r => Sys2Proof.Machine.execAtpStop m r s
  | .atpGo m r => Sys2Proof.Machine.execAtpGo m r s
  | .atpFlush m r => Sys2Proof.Machine.execAtpFlush m r s
  | .atpErrAck m r => Sys2Proof.Machine.execAtpErrAck m r s
  | .attentionJob r => Sys2Proof.Machine.execAttentionJob r s
  | .merge r => Sys2Proof.Machine.execMerge r s
  | .append r => Sys2Proof.Machine.execAppend r s
  | .commit r => Sys2Proof.Machine.execCommit r s
  | .token r => Sys2Proof.Machine.execToken r s
  | .atpClearDone r => Sys2Proof.Machine.execAtpClearDone r s
  | .hbmAccess d a acc ecc => Sys2Proof.Machine.execHbmAccess d a acc ecc s
  | .hbmScrubTick h ecc => Sys2Proof.Machine.execHbmScrubTick h ecc s
  | .hbmControllerFailed h => Sys2Proof.Machine.execHbmControllerFailed h s
  | .hbmSelfRefreshEntry h => Sys2Proof.Machine.execHbmSelfRefreshEntry h s
  | .hbmSelfRefreshExit h => Sys2Proof.Machine.execHbmSelfRefreshExit h s
  | .publish d session len => Sys2Proof.Machine.execPublish d session len s
  | .publishAtPackage d session len index => Sys2Proof.Machine.execPublishAtPackage d session len index s
  | .publishResult d index => Sys2Proof.Machine.execPublishResult d index s
  | .release d handle => Sys2Proof.Machine.execRelease d handle s
  | .addHostBuffer d a => Sys2Proof.Machine.execAddHostBuffer d a s
  | .withdrawHostBuffer d a => Sys2Proof.Machine.execWithdrawHostBuffer d a s
  | .pageMoveComplete move read dest => Sys2Proof.Machine.execPageMoveComplete move read dest s
  | .backgroundDemotion tier => Sys2Proof.Machine.execBackgroundDemotion tier s
  | .promotionStart d session => Sys2Proof.Machine.execPromotionStart d session s
  | .pinExpiry d session => Sys2Proof.Machine.execPinExpiry d session s
  | .routePush m r v => Sys2Proof.Machine.execRoutePush m r v s
  | .couPhaseWrite m r v => Sys2Proof.Machine.execCouPhaseWrite m r v s
  | .couStop m r => Sys2Proof.Machine.execCouStop m r s
  | .couGo m r => Sys2Proof.Machine.execCouGo m r s
  | .couFlush m r => Sys2Proof.Machine.execCouFlush m r s
  | .couErrAck m r => Sys2Proof.Machine.execCouErrAck m r s
  | .select r => Sys2Proof.Machine.execSelect r s
  | .countMessage r srcPkg srcRgn x counts => Sys2Proof.Machine.execCountMessage r srcPkg srcRgn x counts s
  | .grantMessage r homePkg homeRgn x grants => Sys2Proof.Machine.execGrantMessage r homePkg homeRgn x grants s
  | .dispatchRow r x expert row pool gid rank data ok => Sys2Proof.Machine.execDispatchRow r x expert row pool gid rank data ok s
  | .returnRow r x t rank data ok => Sys2Proof.Machine.execReturnRow r x t rank data ok s
  | .couClearDone r => Sys2Proof.Machine.execCouClearDone r s
  | .streamStart e d => Sys2Proof.Machine.execStreamStart e d s
  | .chunkFetch e d stream g => Sys2Proof.Machine.execChunkFetch e d stream g s
  | .streamEnd e d stream => Sys2Proof.Machine.execStreamEnd e d stream s
  | .streamReadyPoint e d stream => Sys2Proof.Machine.execStreamReadyPoint e d stream s
  | .bufferRelease e d layer => Sys2Proof.Machine.execBufferRelease e d layer s
  | .cancellation e d stream start => Sys2Proof.Machine.execCancellation e d stream start s
  | .drvStop m e d => Sys2Proof.Machine.execDrvStop m e d s
  | .drvGo m e d replay => Sys2Proof.Machine.execDrvGo m e d replay s
  | .drvErrAck m e d => Sys2Proof.Machine.execDrvErrAck m e d s
  | .drvPlanWrite m e d a => Sys2Proof.Machine.execDrvPlanWrite m e d a s
  | .drvShareWrite m e d v => Sys2Proof.Machine.execDrvShareWrite m e d v s
  | .drvDyeClear e d => Sys2Proof.Machine.execDrvDyeClear e d s
  | .manifestCheck d mf => Sys2Proof.Machine.execManifestCheck d mf s
  | .loadUnit d unit data hash => Sys2Proof.Machine.execLoadUnit d unit data hash s
  | .weightSetRepair d w => Sys2Proof.Machine.execWeightSetRepair d w s
  | .weightReplacement d w => Sys2Proof.Machine.execWeightReplacement d w s
  | .openSession d => Sys2Proof.Machine.execOpenSession d s
  | .prefill d => Sys2Proof.Machine.execPrefill d s
  | .decode d => Sys2Proof.Machine.execDecode d s
  | .verify d => Sys2Proof.Machine.execVerify d s
  | .suspend d => Sys2Proof.Machine.execSuspend d s
  | .resume d => Sys2Proof.Machine.execResume d s
  | .fork d => Sys2Proof.Machine.execFork d s
  | .close d => Sys2Proof.Machine.execClose d s
  | .stepSeal d step => Sys2Proof.Machine.execStepSeal d step s
  | .stepPlan p => Sys2Proof.Machine.execStepPlan p s
  | .stepStart d step => Sys2Proof.Machine.execStepStart d step s
  | .phasePoint r step layer pt => Sys2Proof.Machine.execPhasePoint r step layer pt s
  | .stepReport d step => Sys2Proof.Machine.execStepReport d step s
  | .reshareTick d => Sys2Proof.Machine.execReshareTick d s
  | .priceChange d cause => Sys2Proof.Machine.execPriceChange d cause s
  | .freqAmend d step f tsw => Sys2Proof.Machine.execFreqAmend d step f tsw s
  | .failGuardCheck d tag => Sys2Proof.Machine.execFailGuardCheck d tag s
  | .itemFailure d step code => Sys2Proof.Machine.execItemFailure d step code s
  | .stopAdmit m => Sys2Proof.Machine.execStopAdmit m s
  | .resumeAdmit m => Sys2Proof.Machine.execResumeAdmit m s
  | .load m d => Sys2Proof.Machine.execLoad m d s
  | .abort m d => Sys2Proof.Machine.execAbort m d s
  | .imageFetchDone d img => Sys2Proof.Machine.execImageFetchDone d img s
  | .imageCopy d img => Sys2Proof.Machine.execImageCopy d img s
  | .imageVerifyReport d pkg code sect ofs => Sys2Proof.Machine.execImageVerifyReport d pkg code sect ofs s
  | .imageInstall d => Sys2Proof.Machine.execImageInstall d s
  | .systemImageSync img => Sys2Proof.Machine.execSystemImageSync img s
  | .move m r toDye => Sys2Proof.Machine.execMove m r toDye s
  | .regionClaim d r => Sys2Proof.Machine.execRegionClaim d r s
  | .drainPoint r => Sys2Proof.Machine.execDrainPoint r s
  | .preemptSaveDone r => Sys2Proof.Machine.execPreemptSaveDone r s
  | .redyeDone r => Sys2Proof.Machine.execRedyeDone r s
  | .restore d r => Sys2Proof.Machine.execRestore d r s
  | .jobResumePoint d => Sys2Proof.Machine.execJobResumePoint d s
  | .partCmdKill m d => Sys2Proof.Machine.execPartCmdKill m d s
  | .killArrival d => Sys2Proof.Machine.execKillArrival d s
  | .killSweepDone d => Sys2Proof.Machine.execKillSweepDone d s
  | .jobStart m d => Sys2Proof.Machine.execJobStart m d s
  | .jobStop m d => Sys2Proof.Machine.execJobStop m d s
  | .jobGoPoint d => Sys2Proof.Machine.execJobGoPoint d s
  | .linkTraining l t => Sys2Proof.Machine.execLinkTraining l t s
  | .laneLoss l lane => Sys2Proof.Machine.execLaneLoss l lane s
  | .spareLaneReady l => Sys2Proof.Machine.execSpareLaneReady l s
  | .frameUncorrectable l replays => Sys2Proof.Machine.execFrameUncorrectable l replays s
  | .linkEnable m l => Sys2Proof.Machine.execLinkEnable m l s
  | .linkDisable m l => Sys2Proof.Machine.execLinkDisable m l s
  | .linkRetrain m l => Sys2Proof.Machine.execLinkRetrain m l s
  | .recable m => Sys2Proof.Machine.execRecable m s
  | .heartbeatLoss l => Sys2Proof.Machine.execHeartbeatLoss l s
  | .lightLoss l => Sys2Proof.Machine.execLightLoss l s
  | .lossNotice slot link => Sys2Proof.Machine.execLossNotice slot link s
  | .masterTakeover => Sys2Proof.Machine.execMasterTakeover s
  | .messagePacket p => Sys2Proof.Machine.execMessagePacket p s
  | .creditPacket p => Sys2Proof.Machine.execCreditPacket p s
  | .ackPacket p => Sys2Proof.Machine.execAckPacket p s
  | .refusedPacket p => Sys2Proof.Machine.execRefusedPacket p s
  | .barrierPacket p => Sys2Proof.Machine.execBarrierPacket p s
  | .syncExchange t1 t2 t3 t4 trim => Sys2Proof.Machine.execSyncExchange t1 t2 t3 t4 trim s
  | .counterFirstLock v => Sys2Proof.Machine.execCounterFirstLock v s
  | .holdover => Sys2Proof.Machine.execHoldover s
  | .holdoverTimeout => Sys2Proof.Machine.execHoldoverTimeout s
  | .comparatorFire n => Sys2Proof.Machine.execComparatorFire n s
  | .freqPacket d f tsw => Sys2Proof.Machine.execFreqPacket d f tsw s
  | .switchPoint d => Sys2Proof.Machine.execSwitchPoint d s
  | .hostWindowAccess d a acc => Sys2Proof.Machine.execHostWindowAccess d a acc s
  | .hostReadCompletion d e => Sys2Proof.Machine.execHostReadCompletion d e s
  | .bar2Access d off acc => Sys2Proof.Machine.execBar2Access d off acc s
  | .sqTailWrite d v => Sys2Proof.Machine.execSqTailWrite d v s
  | .ringRead d item => Sys2Proof.Machine.execRingRead d item s
  | .cqHeadWrite d v => Sys2Proof.Machine.execCqHeadWrite d v s
  | .recordPost d => Sys2Proof.Machine.execRecordPost d s
  | .interruptCoalesceTimer d => Sys2Proof.Machine.execInterruptCoalesceTimer d s
  | .enableRings d => Sys2Proof.Machine.execEnableRings d s
  | .disableRings d => Sys2Proof.Machine.execDisableRings d s
  | .flr d => Sys2Proof.Machine.execFlr d s
  | .surpriseDown => Sys2Proof.Machine.execSurpriseDown s
  | .hostPortReduced gtsLanes => Sys2Proof.Machine.execHostPortReduced gtsLanes s
  | .ethFrameReceive p f => Sys2Proof.Machine.execEthFrameReceive p f s
  | .ethTxqTailWrite d p v => Sys2Proof.Machine.execEthTxqTailWrite d p v s
  | .ethEnable m p => Sys2Proof.Machine.execEthEnable m p s
  | .ethDisable m p => Sys2Proof.Machine.execEthDisable m p s
  | .ethRetrain m p => Sys2Proof.Machine.execEthRetrain m p s
  | .ethWallOfsWrite m p v => Sys2Proof.Machine.execEthWallOfsWrite m p v s
  | .fabricRead p => Sys2Proof.Machine.execFabricRead p s
  | .fabricWrite p => Sys2Proof.Machine.execFabricWrite p s
  | .fabricFetchAdd p => Sys2Proof.Machine.execFabricFetchAdd p s
  | .fabricCas p => Sys2Proof.Machine.execFabricCas p s
  | .fabricSwap p => Sys2Proof.Machine.execFabricSwap p s
  | .fabricAcquire p => Sys2Proof.Machine.execFabricAcquire p s
  | .fabricRenew p => Sys2Proof.Machine.execFabricRenew p s
  | .fabricRelease p => Sys2Proof.Machine.execFabricRelease p s
  | .fabricResponse p => Sys2Proof.Machine.execFabricResponse p s
  | .fabricAck p => Sys2Proof.Machine.execFabricAck p s
  | .fabricProbe p => Sys2Proof.Machine.execFabricProbe p s
  | .leaseExpiry seg => Sys2Proof.Machine.execLeaseExpiry seg s
  | .fabricRetransmit slot port => Sys2Proof.Machine.execFabricRetransmit slot port s
  | .fabricDead tag => Sys2Proof.Machine.execFabricDead tag s
  | .probeTimer slot => Sys2Proof.Machine.execProbeTimer slot s
  | .smfAcquire d a us => Sys2Proof.Machine.execSmfAcquire d a us s
  | .smfRenew d a us => Sys2Proof.Machine.execSmfRenew d a us s
  | .smfRelease d a => Sys2Proof.Machine.execSmfRelease d a s
  | .smfFetchAdd d a v => Sys2Proof.Machine.execSmfFetchAdd d a v s
  | .smfCas d a cmp v => Sys2Proof.Machine.execSmfCas d a cmp v s
  | .smfSwap d a v => Sys2Proof.Machine.execSmfSwap d a v s
  | .segAlloc d => Sys2Proof.Machine.execSegAlloc d s
  | .segFree d a => Sys2Proof.Machine.execSegFree d a s
  | .regionPowerRequest m r target => Sys2Proof.Machine.execRegionPowerRequest m r target s
  | .regionEntryDone r => Sys2Proof.Machine.execRegionEntryDone r s
  | .regionWakeDone r clears => Sys2Proof.Machine.execRegionWakeDone r clears s
  | .idleRetTimer r => Sys2Proof.Machine.execIdleRetTimer r s
  | .idleOffTimer r => Sys2Proof.Machine.execIdleOffTimer r s
  | .ivrShort r => Sys2Proof.Machine.execIvrShort r s
  | .hiccupRetry r shorted => Sys2Proof.Machine.execHiccupRetry r shorted s
  | .referenceClockLoss => Sys2Proof.Machine.execReferenceClockLoss s
  | .thermalSample t => Sys2Proof.Machine.execThermalSample t s
  | .throttleRepeat r => Sys2Proof.Machine.execThrottleRepeat r s
  | .thermalCeilingRise d => Sys2Proof.Machine.execThermalCeilingRise d s
  | .ceilingChange d slot mhz => Sys2Proof.Machine.execCeilingChange d slot mhz s
  | .stretchTimeout d => Sys2Proof.Machine.execStretchTimeout d s
  | .budgetTick => Sys2Proof.Machine.execBudgetTick s
  | .fastPowerLimit vin => Sys2Proof.Machine.execFastPowerLimit vin s
  | .ageingSample r monitor short => Sys2Proof.Machine.execAgeingSample r monitor short s
  | .critAck m => Sys2Proof.Machine.execCritAck m s
  | .standbyRequest => Sys2Proof.Machine.execStandbyRequest s
  | .wakeN => Sys2Proof.Machine.execWakeN s
  | .pwrWarnN => Sys2Proof.Machine.execPwrWarnN s
  | .frozenClear => Sys2Proof.Machine.execFrozenClear s
  | .ledgerEvent e => Sys2Proof.Machine.execLedgerEvent e s
  | .ledgerPeriod => Sys2Proof.Machine.execLedgerPeriod s
  | .recordCommit readBack => Sys2Proof.Machine.execRecordCommit readBack s
  | .alertAck m => Sys2Proof.Machine.execAlertAck m s
  | .ldgRecLoad m => Sys2Proof.Machine.execLdgRecLoad m s
  | .ldgDRecLoad m d => Sys2Proof.Machine.execLdgDRecLoad m d s
  | .snapshotPush m sys => Sys2Proof.Machine.execSnapshotPush m sys s
  | .dyeSnapshotPush m d sys => Sys2Proof.Machine.execDyeSnapshotPush m d sys s
  | .snapshotDone d => Sys2Proof.Machine.execSnapshotDone d s
  | .arm m => Sys2Proof.Machine.execArm m s
  | .disarm m => Sys2Proof.Machine.execDisarm m s
  | .tmxSelWrite m n v => Sys2Proof.Machine.execTmxSelWrite m n v s
  | .tmxSwitchDone n => Sys2Proof.Machine.execTmxSwitchDone n s
  | .ppsPulse => Sys2Proof.Machine.execPpsPulse s
  | .bootChain a b => Sys2Proof.Machine.execBootChain a b s
  | .firmwareUpdate f => Sys2Proof.Machine.execFirmwareUpdate f s
  | .activateFirmware => Sys2Proof.Machine.execActivateFirmware s
  | .pldmGetSensor id => Sys2Proof.Machine.execPldmGetSensor id s
  | .capEffecter watts => Sys2Proof.Machine.execCapEffecter watts s
  | .standbyEffecter wake => Sys2Proof.Machine.execStandbyEffecter wake s
  | .getFirmwareParameters => Sys2Proof.Machine.execGetFirmwareParameters s
  | .mctpControl p cmd arg => Sys2Proof.Machine.execMctpControl p cmd arg s
  | .getVersion p => Sys2Proof.Machine.execGetVersion p s
  | .getCapabilities p => Sys2Proof.Machine.execGetCapabilities p s
  | .negotiateAlgorithms p baseAsym hash dhe aead => Sys2Proof.Machine.execNegotiateAlgorithms p baseAsym hash dhe aead s
  | .getDigests p => Sys2Proof.Machine.execGetDigests p s
  | .getCertificate p slot offset len => Sys2Proof.Machine.execGetCertificate p slot offset len s
  | .challenge p slot nonce => Sys2Proof.Machine.execChallenge p slot nonce s
  | .getMeasurements p index nonce => Sys2Proof.Machine.execGetMeasurements p index nonce s
  | .keyExchange p slot sid => Sys2Proof.Machine.execKeyExchange p slot sid s
  | .finish p sid requester macOk => Sys2Proof.Machine.execFinish p sid requester macOk s
  | .keyUpdate p => Sys2Proof.Machine.execKeyUpdate p s
  | .heartbeat p => Sys2Proof.Machine.execHeartbeat p s
  | .endSession p => Sys2Proof.Machine.execEndSession p s
  | .getBudget p => Sys2Proof.Machine.execGetBudget p s
  | .setCap p watts => Sys2Proof.Machine.execSetCap p watts s
  | .setShare p d v => Sys2Proof.Machine.execSetShare p d v s
  | .getPartitions p => Sys2Proof.Machine.execGetPartitions p s
  | .kill p d => Sys2Proof.Machine.execKill p d s
  | .admissionCommand p stop => Sys2Proof.Machine.execAdmissionCommand p stop s
  | .imageChunk p data => Sys2Proof.Machine.execImageChunk p data s
  | .imageLoad p img => Sys2Proof.Machine.execImageLoad p img s
  | .injectEnable p => Sys2Proof.Machine.execInjectEnable p s
  | .injectDisable p => Sys2Proof.Machine.execInjectDisable p s
  | .debugChallenge p d => Sys2Proof.Machine.execDebugChallenge p d s
  | .debugPresent p t => Sys2Proof.Machine.execDebugPresent p t s
  | .setAuthority p n digest => Sys2Proof.Machine.execSetAuthority p n digest s
  | .standby p => Sys2Proof.Machine.execStandby p s
  | .secDbgChallenge m d => Sys2Proof.Machine.execSecDbgChallenge m d s
  | .secDbgPresent m t => Sys2Proof.Machine.execSecDbgPresent m t s
  | .tokenCheckDone => Sys2Proof.Machine.execTokenCheckDone s
  | .tokenEnd d => Sys2Proof.Machine.execTokenEnd d s
  | .quote m d => Sys2Proof.Machine.execQuote m d s
  | .revoke m d => Sys2Proof.Machine.execRevoke m d s
  | .vaonApplied slotId masterEn => Sys2Proof.Machine.execVaonApplied slotId masterEn s
  | .resetNAssert => Sys2Proof.Machine.execResetNAssert s
  | .resetNRelease slotId masterEn => Sys2Proof.Machine.execResetNRelease slotId masterEn s
  | .perstN => Sys2Proof.Machine.execPerstN s
  | .vinLoss => Sys2Proof.Machine.execVinLoss s
  | .vaonBrownout => Sys2Proof.Machine.execVaonBrownout s
  | .vinApplied => Sys2Proof.Machine.execVinApplied s
  | .sysRefAppears => Sys2Proof.Machine.execSysRefAppears s
  | .pwrWarnNRelease => Sys2Proof.Machine.execPwrWarnNRelease s
  | .perstNRelease => Sys2Proof.Machine.execPerstNRelease s
  | .ethPortDown p => Sys2Proof.Machine.execEthPortDown p s
  | .ethFrameSent d p event1588 => Sys2Proof.Machine.execEthFrameSent d p event1588 s
  | .leaseRenewTimer seg => Sys2Proof.Machine.execLeaseRenewTimer seg s
  | .restoreDone d r => Sys2Proof.Machine.execRestoreDone d r s
  | .quoteDone d sig => Sys2Proof.Machine.execQuoteDone d sig s
  | .controlPacket src msg => Sys2Proof.Machine.execControlPacket src msg s
  | .regionPllLossOfLock r => Sys2Proof.Machine.execRegionPllLossOfLock r s
  | .rgnControllerWatchdog r => Sys2Proof.Machine.execRgnControllerWatchdog r s
  | .nightPorterWatchdog => Sys2Proof.Machine.execNightPorterWatchdog s
  | .dieBridgeFailure => Sys2Proof.Machine.execDieBridgeFailure s
  | .dynamicAddressAssignment a => Sys2Proof.Machine.execDynamicAddressAssignment a s

end Sys2Proof.Machine
end

