-- ==== Sys2Proof/Machine/Tick.lean ====
section
/-! DEFINITION. What happens by itself while no command waits: an edge of the 25 MHz reference, and what units do with what they
already hold (log entry 81). -/

namespace Sys2Proof.Machine

/-- One edge of the system reference: 40 ns and the trim, through the fractional accumulator (R277). -/
def State.countTick (s : State) : State :=
  let f : Int := s.nowFrac + 40 * s.trim
  let whole : Int := f / 1000000000
  { s with now := s.now + (40 + whole).toNat, nowFrac := f - whole * 1000000000 }
/-- A region that waits to go Off until its last tier-0 page has left (R307), or whose units have become quiet, enters its state. -/
def State.enterWaiting (s : State) (r : RegionNo) : State :=
  let p := natGet s.rgnPend r.val
  let st := s.rgnState r
  if 1 < p ∧ st = 0 ∧ s.mayLeave r then ((s.beginEntry r (p - 1)).pend r none).pkgFollow
  else if p = 4 ∧ (st = 1 ∨ st = 2) ∧ s.idleServe r ∧ s.tier0In r = [] then ((s.beginEntry r 3).pend r none).pkgFollow
  else s
/-- A move that waits for its region's cores goes on to the save (Table 11-3). -/
def State.saveBegins (s : State) (r : RegionNo) : State := if s.mvState r = 2 ∧ s.coresStill r then s.setMv r 3 else s
/-- The regulated resources that a transfer in progress uses: the controllers of its ends in local HBM, the bridge where an end lies on the
other die, the port to another package's shared space, the host port, and the link of a message. -/
def State.xferWins (s : State) (c : CoreId) (x : Xfer) : List Win :=
  let d := s.owner c.region
  let die := regionDie c.region
  let one := fun (a : Nat) (write : Bool) => match s.place d a with
    | .hbm o => Win.hbm (hbmCtl o) :: (if o / 2 ^ 39 = die then [] else [Win.noc (Fin.ofNat 2 (if write then die else o / 2 ^ 39))])
    | .slice q _ => if regionDie q.region = die then [] else [Win.noc (Fin.ofNat 2 (if write then die else regionDie q.region))]
    | .shared sl _ => [Win.eth (s.fabPort sl)]
    | .host _ => [Win.pci]
    | _ => []
  let link := if x.send ∧ x.remote then
      (((s.resolve d (BitVec.ofNat 16 (bitsOf ((s.core c).schanOf x.num) 0 16))).bind (fun e => s.nextLink e.1)).map Win.tlk).toList
    else []
  one x.src.toNat false ++ (if x.send then link else one x.dst.toNat true)
/-- Dyes with demand on a regulated resource: transfers in progress, records and host reads that wait, frames and fabric requests on their
way. -/
def State.demands (s : State) : List (Win × Dye) :=
  (s.listed.flatMap (fun c => (((s.core c).xq.take 1).filter (·.started)).flatMap (fun x => (s.xferWins c x).map (fun w => (w, s.owner c.region))))) ++
  s.postQ.map (fun p => (Win.pci, p.dye)) ++ s.hostReads.map (fun q => (Win.pci, q.1)) ++ s.ethTx.map (fun e => (Win.eth e.port, e.dye)) ++
  s.fabReqs.map (fun q => (Win.eth q.port, q.packet.dye))
/-- _RGL_D_WAIT (R247): the ns in which a dye had demand and no tokens. -/
def State.countWaits (s : State) (ns : Nat) : State :=
  (s.demands.dedup.filter (fun e => s.bucket e.1 e.2 < 256000)).foldl (fun (t : State) e =>
    t.bump e.1 (0xF000 + e.2.val * 0x20 + RGL_D_WAIT) ns) s
/-- The edge and what follows from what the units hold: jobs that have ended, regions and moves that waited, steps that have failed, the Ledger's ingress, the
summaries every 100 µs (R326), the levels of the test pins, and the status registers. -/
def State.tick (s : State) : State :=
  if !s.vaon then s
  else
    let s0 := s.countTick
    if !s0.rails then s0.updFollow.wakeFollow
    else
      let s1 := s0.countWaits (s0.now - s.now)
      let s2 := (List.finRange 16).foldl (fun (t : State) d => t.jobFollow d) s1
      let s3 := allRegions.foldl (fun (t : State) r => (t.enterWaiting r).saveBegins r) s2
      let s4 := if s.now / 100000 = s1.now / 100000 then s3
        else (allRegions.filter s3.rgnActive).foldl (fun (t : State) r => t.summary r) s3
      (s4.powerFollow.postFails.foldAll.freeze.alertFollow.withdraw.tmxFollow).hbmReady.ldgReady.tierFollow.smfFollow.updFollow

end Sys2Proof.Machine
end

