-- ==== Sys2Proof/Safety.lean ====
section
/-! DEFINITION. The words that claims about the block use: which memories are in canonical form, what a command answers, and what
two states have in common. -/

namespace Sys2Proof.Machine

/-- The three byte memories (scratchpad, accumulators, local HBM) are in canonical form: addresses strictly rising, no entry equal
to what an unlisted address reads as. -/
def Memory.wf (s : State) : Bool := tabWf byteReset s.sram && tabWf byteReset s.acc && tabWf byteReset s.hbm

/-- Command i completes on s with a next state of which Q holds. -/
def Answers (i : Instr) (s : State) (Q : State → Prop) : Prop := ∃ t, exec i s = .next t ∧ Q t

/-- Every byte of the scratchpads, the accumulators and local HBM reads as before. -/
def SameMemory (s t : State) : Prop :=
  (∀ k, tabGet byteReset t.sram k = tabGet byteReset s.sram k) ∧ (∀ k, tabGet byteReset t.acc k = tabGet byteReset s.acc k) ∧
  (∀ k, tabGet byteReset t.hbm k = tabGet byteReset s.hbm k)

/-- Every register of the register tables reads as before, but for those whose keys are listed. -/
def SameRegsBut (ks : List Nat) (s t : State) : Prop :=
  ∀ k, k ∉ ks → tabGet regReset t.regs k = tabGet regReset s.regs k

/-- Every core but c is as before. -/
def SameOtherCores (c : CoreId) (s t : State) : Prop := ∀ d, coreKey d ≠ coreKey c → t.core d = s.core d

/-- Nothing but core c changes, and it becomes k: no other core, no register, no byte of memory, no waiting command. -/
def OnlyCore (c : CoreId) (k : CoreSt) (s t : State) : Prop :=
  t.core c = k ∧ SameOtherCores c s t ∧ t.regs = s.regs ∧ SameMemory s t ∧ t.pending = s.pending

/-- The sequencer of core c issues word x: the core is RUNNING, waits for nothing and does not abandon, x is the word at its PC,
and the predicate that x names holds (R58, R60). -/
abbrev Issues (s : State) (c : CoreId) (x : Word64) (p : BitVec 3) (pneg : Bool) : Prop :=
  (s.core c).canIssue = true ∧ (s.core c).istore[(s.core c).pc]? = some x ∧ (s.core c).predicate p pneg = true

/-- No stored error in the words of a slice that n bytes at offset o touch, and no injection armed at them (R101, R334). -/
abbrev CleanWords (s : State) (c : CoreId) (o n : Nat) : Prop := ∀ w ∈ wordsOf o n, s.errAt c w = 0 ∧ s.injAims c w = false
/-- Nothing waits for a bank of core c's slice, and its background tester redirects no row (R93, R105). -/
abbrev QuietSlice (s : State) (c : CoreId) : Prop := (∀ r ∈ s.bankQ, r.core ≠ c) ∧ (s.bistOf c).redirect = none

/-- No core on the package is blocked on a wait. -/
abbrev NoneBlocked (s : State) : Prop := ∀ d : CoreId, (s.core d).blocked = none

/-- Only registers of the register tables change, and what the issuer is told. -/
abbrev OnlyRegs (s t : State) : Prop := t = { s with regs := t.regs, resp := t.resp }
/-- Only registers, what the issuer is told, and what has entered the Ledger change. -/
abbrev RegsAndLedger (s t : State) : Prop :=
  t = { s with regs := t.regs, resp := t.resp, ldgIngress := t.ldgIngress, ldgOpen := t.ldgOpen }
/-- n bytes of local HBM from offset o on lie in one granule that is not STALE, of a private frame whose die is in service, whose
key is loaded and under whose key the granule was written, and none of their units is beyond correction (R139 to R142). -/
abbrev CleanHbm (s : State) (o n : Nat) : Prop :=
  (s.frame (o / 65536)).state = 1 ∧ o % 4096 + n ≤ 4096 ∧ bitOf (s.frame (o / 65536)).stale (o / 4096 % 16) = false ∧
  s.hbmFailed o = false ∧ s.otherKey (s.frame (o / 65536)) (o / 4096) = false ∧ s.bit (.hbm (hbmCtl o)) HBM_KEYSLOTS (s.frame (o / 65536)).owner.val = true ∧
  ∀ u, o / 64 ≤ u → u ≤ (o + n - 1) / 64 → tabGet (fun _ => false) s.hbmBad u = false
/-- Local HBM reads as before but for the bytes bs at offset o. -/
abbrev HbmBytes (o : Nat) (bs : List Byte) (s t : State) : Prop :=
  (∀ i (h : i < bs.length), tabGet byteReset t.hbm (o + i) = bs[i]) ∧
  ∀ k, k < o ∨ o + bs.length ≤ k → tabGet byteReset t.hbm k = tabGet byteReset s.hbm k
/-- t is u after the waiting cores have been looked at: u itself where none waits. -/
abbrev Settles (u t : State) : Prop := t = u.settleAll ∧ (NoneBlocked u → t = u)

end Sys2Proof.Machine
end

