-- ==== Sys2Proof/Certificates/Slice0/Obligations.lean ====
section
/-! DEFINITION. The statements about the block, by chapter of the spec. -/

open Sys2Proof Sys2Proof.Machine

/-! ### The block as a whole -/

/-- A step runs the command at the front of the queue on the state with the queue's rest; on an empty queue the block lives through one edge
of its reference clock (the model's choice, log entry 81). -/
def Obligations.StepTakesTheFrontCommand : Prop :=
  ∀ (s : State) (c : Instr) (rest : List Instr),
    (s.pending = c :: rest → step s = exec c { s with pending := rest }) ∧
    step { s with pending := c :: s.pending } = exec c s ∧
    (s.pending = [] → step s = .next s.tick)

/-- What a cold start leaves (the Reset columns of the register tables): no command waits, every region is Off with target Off, every core is IDLE
at PC 0 with S0 0 and P0 1, links are DARK, the rings and the injection are off, no partition exists, the
cap is 2,800 W, and the counter is 0. That memory reads as zero is the model's choice (log entry 8), and so is that State.reset stands
after the boot (log entry 1). -/
def Obligations.ResetState : Prop :=
  State.reset.pending = [] ∧ State.reset.now = 0 ∧
  (∀ r : RegionNo, State.reset.rgnState r = 3 ∧ State.reset.rgnTarget r = 3 ∧ State.reset.owner r = 0 ∧
    State.reset.rd (.spd r) SPD_CLR_STATUS = 0x04400013) ∧
  (∀ c : CoreId, (State.reset.core c).run = .idle ∧ (State.reset.core c).pc = 0 ∧ (State.reset.core c).s 0 = 0 ∧
    (State.reset.core c).p 0 = true ∧ (State.reset.core c).istore = []) ∧
  (∀ l : Fin 6, State.reset.fld (.tlk l) TLK_STATUS 0 3 = 0) ∧ (∀ d : Dye, State.reset.ringsOn d = false ∧ State.reset.partState d = 0) ∧
  State.reset.bit .inj INJ_STATUS 0 = false ∧ State.reset.fld .pwr PWR_CAP 0 12 = 2800 ∧ State.reset.rd .clk CLK_STATUS = 7 ∧
  (∀ k, tabGet byteReset State.reset.sram k = 0 ∧ tabGet byteReset State.reset.acc k = 0 ∧ tabGet byteReset State.reset.hbm k = 0)

/-- The memories of the state after reset are in canonical form. -/
def Obligations.ResetMemoryWf : Prop := Memory.wf State.reset = true

/-- Every step keeps the three byte memories in canonical form: whatever command is at the front, and whatever the state. -/
def Obligations.StepKeepsMemoryWf : Prop :=
  ∀ s t : State, Memory.wf s = true → step s = .next t → Memory.wf t = true

/-- The words of tile programs (R58, Tables 3-3 to 3-5): every instruction's word spells that instruction, at every value of its fields, and a
word that spells an instruction is that instruction's word: no bit of a word is dropped and no two instructions share a word. -/
def Obligations.WordsRoundTrip : Prop :=
  (∀ (i : Instr) (c : CoreId) (x : Word64), wordOf i = some (c, x) → instrOf c x = some i) ∧
  (∀ (c : CoreId) (x : Word64) (i : Instr), instrOf c x = some i → wordOf i = some (c, x))

/-! ### Registers (chapters 0, 1 and 13) -/

/-- A register write and a register read (R7 to R9, R29, R289): a 32-bit aligned write by a master that reaches a plain register
stores the writable bits and nothing else; an offset without a register reads as zeros and takes no write; a write without the right
is reported and has no effect; an access of another size is an access-size error. Reading CNT_NOW_L captures the high half, and a
BAR2 load through an aperture off or beyond the window is refused and counted. -/
def Obligations.RegisterAccessResults : Prop :=
  ∀ (s : State) (m : Master) (a : Addr) (o : Nat) (v : Word32), s.place (s.dyeOf m) a.toNat = .regs o →
    (∀ w p k, o % 4 = 0 → s.regAt (s.dyeOf m) o = .at w p → s.writeReach m w p = .ok → w1cMask w p = 0 → rwMask w p = some k →
      s.mayStore w p = true → ¬(w = .ldg ∧ p = LDG_ALERT_LVL) →
      Answers (.registerWrite m (.device a) 4 v) s (fun t =>
        t.rd w p = BitVec.ofNat 32 (maskPut k (s.rd w p).toNat v.toNat) ∧ SameRegsBut [regKey w p] s t ∧ OnlyRegs s t ∧
        t.resp.permission = false)) ∧
    (o % 4 = 0 → s.regAt (s.dyeOf m) o = .hole →
      Answers (.registerWrite m (.device a) 4 v) s (fun t => t = { s with resp := t.resp } ∧ t.resp.permission = false)) ∧
    (∀ w p, o % 4 = 0 → s.regAt (s.dyeOf m) o = .at w p → s.writeReach m w p = .error →
      Answers (.registerWrite m (.device a) 4 v) s (fun t => t = { s with resp := t.resp } ∧ t.resp.permission = true)) ∧
    (∀ n, n ≠ 4 ∨ o % 4 ≠ 0 → Answers (.registerWrite m (.device a) n v) s (fun t => t.resp.permission = true ∧ t.resp.size = true ∧
      SameMemory s t ∧ RegsAndLedger s t ∧ SameRegsBut [regKey .ldg LDG_FOLDED] s t)) ∧
    Answers (.cntNowLRead m) s (fun t => t.resp.data = leBytes (s.now % 2 ^ 32) 4 ∧ t.nowHigh = BitVec.ofNat 32 (s.now / 2 ^ 32) ∧
      t = { s with resp := t.resp, nowHigh := t.nowHigh })

/-- BAR2_ACCESS through the aperture (R289): with the host port up, a load of a register that the function reaches answers what the
register reads as; a store that the address map lets through writes its bytes; a load of 2 bytes is refused, counted and answered
with all ones. -/
def Obligations.Bar2Results : Prop :=
  ∀ (s : State) (d : Dye) (off : BitVec 24), s.hostUp = true →
    let a := ((s.rd64 (.vf d) PCI_VF_APERTURE_L).toNat + off.toNat) % 2 ^ 64
    a % 64 ≤ 60 → a < 2 ^ 48 →
    (∀ o w p, s.place d a = .regs o → o % 4 = 0 → s.regAt d o = .at w p → s.readReach (.vf d) w p = .ok → w ≠ .cnt →
      paged w = false → w ≠ .ldg →
      Answers (.bar2Access d off (.load 4)) s (fun t => t.resp.data = leBytes (s.regValue d w p).toNat 4 ∧
        t = { s with resp := t.resp })) ∧
    (∀ o bs, s.place d a = .hbm o → bs.length = 4 → (s.write (.vf d) a bs).1 ≠ .refused →
      Answers (.bar2Access d off (.store bs)) s (fun t => t = (s.write (.vf d) a bs).2.answer [])) ∧
    Answers (.bar2Access d off (.load 2)) s (fun t => t.rd (.vf d) PCI_VF_REFUSED = s.rd (.vf d) PCI_VF_REFUSED + 1 ∧
      t.resp.data = [0xFF, 0xFF] ∧ SameMemory s t)

/-- R341 and R360: the INJ_ and TMX_ windows and the MGT_ and NPT_ windows, each at its place in Table 1-7, answer only the management
partition. A register write by any other master has no effect and is a permission error, and a load or a store of a tenant's virtual
function is turned away with no other effect than its count and its vector; the management partition's writes are no permission error,
and its virtual function loads what the register holds. -/
def Obligations.ManagementWindowsAnswerOnlyTheManagementPartition : Prop :=
  ∀ (s : State) (a : Addr), (0xC0070000 ≤ a.toNat ∧ a.toNat < 0xC0090000) ∨ (0xC00A0000 ≤ a.toNat ∧ a.toNat < 0xC00C0000) →
    a.toNat % 4 = 0 →
    let w : Win := if a.toNat < 0xC0080000 then .inj else if a.toNat < 0xC0090000 then .tmx
      else if a.toNat < 0xC00B0000 then .mgt else .npt
    (∀ (m : Master) (v : Word32), (s.dyeOf m ≠ 0 → Answers (.registerWrite m (.device a) 4 v) s (fun t =>
        t = { s with resp := t.resp } ∧ t.resp.permission = true)) ∧
      (s.dyeOf m = 0 → Answers (.registerWrite m (.device a) 4 v) s (fun t => t.resp.permission = false))) ∧
    (∀ (d : Dye) (off : BitVec 24), s.hostUp = true →
      ((s.rd64 (.vf d) PCI_VF_APERTURE_L).toNat + off.toNat) % 2 ^ 64 = a.toNat →
      (d ≠ 0 → ∀ acc, acc = HostAccess.load 4 ∨ (∃ bs, bs.length = 4 ∧ acc = .store bs) → Answers (.bar2Access d off acc) s (fun t =>
        SameRegsBut [regKey (.vf d) PCI_VF_REFUSED] s t ∧ t.hostTx = s.hostTx ++ [.msix d 2] ∧
        t = { s with regs := t.regs, resp := t.resp, hostTx := t.hostTx })) ∧
      (d = 0 → Answers (.bar2Access d off (.load 4)) s (fun t =>
        t.resp.data = leBytes (s.regValue 0 w (a.toNat % 0x10000)).toNat 4 ∧ t = { s with resp := t.resp })))
/-! ### The core and its instructions (chapter 3) -/

/-- NOP to MOVI (R58, R59, Table 3-5): a legal word that issues writes Sd and moves the PC on; nothing else changes. -/
def Obligations.ScalarResults : Prop :=
  ∀ (s : State) (c : CoreId) (w : RWord) (i : IWord), w.rsv = 0 → w.c = 0 → i.rsv = 0 →
    let k := s.core c
    let sd := fun (v : Word64) => OnlyCore c ((k.setS w.d.toNat v).advance) s
    let si := fun (v : Word64) => OnlyCore c ((k.setS i.d.toNat v).advance) s
    let x := k.s w.a.toNat
    let y := k.s w.b.toNat
    (w.fn = 0 → w.d = 0 → w.a = 0 → w.b = 0 → Issues s c (encodeR opNOP w) w.p w.pneg →
      Answers (.nop c w) s (OnlyCore c k.advance s)) ∧
    (w.fn = 0 → Issues s c (encodeR opADD w) w.p w.pneg → Answers (.add c w) s (sd (x + y))) ∧
    (w.fn = 0 → Issues s c (encodeR opSUB w) w.p w.pneg → Answers (.sub c w) s (sd (x - y))) ∧
    (w.fn = 0 → Issues s c (encodeR opMUL w) w.p w.pneg → Answers (.mul c w) s (sd (x * y))) ∧
    (Issues s c (encodeR opLOGIC w) w.p w.pneg →
      (w.fn = 0 → Answers (.logic c w) s (sd (x &&& y))) ∧ (w.fn = 1 → Answers (.logic c w) s (sd (x ||| y))) ∧
      (w.fn = 2 → Answers (.logic c w) s (sd (x ^^^ y))) ∧ (w.fn = 3 → Answers (.logic c w) s (sd (x &&& ~~~y)))) ∧
    (Issues s c (encodeR opSHIFT w) w.p w.pneg →
      (w.fn = 0 → Answers (.shift c w) s (sd (x <<< (y.toNat % 64)))) ∧
      (w.fn = 1 → Answers (.shift c w) s (sd (x >>> (y.toNat % 64)))) ∧
      (w.fn = 2 → Answers (.shift c w) s (sd (x.sshiftRight (y.toNat % 64))))) ∧
    (i.fn = 0 → Issues s c (encodeI opADDI i) i.p i.pneg →
      Answers (.addi c i) s (si (k.s i.a.toNat + i.imm.signExtend 64))) ∧
    (i.a = 0 → Issues s c (encodeI opMOVI i) i.p i.pneg →
      (i.fn = 0 → Answers (.movi c i) s (si (i.imm.signExtend 64))) ∧
      (i.fn = 1 → Answers (.movi c i) s (si (i.imm ++ (k.s i.d.toNat).extractLsb' 0 32))))

/-- CMP to PLOG, AMOV to ARD and RDSR (R57 to R59, R279, Table 3-5): a legal word that issues writes Pd, Ad or Sd and moves the PC on; nothing
else changes. A destination predicate of a legal word is P1 to P7. The counter that RDSR 0 reads (R279) is never below the one read
before and lies within 2 ns of the package counter wherever the read before does not lie above that; where inside the 2 ns is a free
value (log entry 4). -/
def Obligations.PredicateAndAddressResults : Prop :=
  ∀ (s : State) (c : CoreId) (w : RWord) (i : IWord), w.rsv = 0 → w.c = 0 → i.rsv = 0 →
    let k := s.core c
    let pd := fun (d : BitVec 5) (v : Bool) => OnlyCore c ((k.setP d.toNat v).advance) s
    let x := k.s w.a.toNat
    let y := k.s w.b.toNat
    let z := i.imm.signExtend 64
    (0 < w.d.toNat → w.d.toNat < 8 → Issues s c (encodeR opCMP w) w.p w.pneg →
      (w.fn = 0 → Answers (.cmp c w) s (pd w.d (x == y))) ∧ (w.fn = 1 → Answers (.cmp c w) s (pd w.d (x != y))) ∧
      (w.fn = 2 → Answers (.cmp c w) s (pd w.d (decide (x.toInt < y.toInt)))) ∧
      (w.fn = 3 → Answers (.cmp c w) s (pd w.d (decide (y.toInt ≤ x.toInt)))) ∧
      (w.fn = 4 → Answers (.cmp c w) s (pd w.d (decide (x.toNat < y.toNat)))) ∧
      (w.fn = 5 → Answers (.cmp c w) s (pd w.d (decide (y.toNat ≤ x.toNat))))) ∧
    (0 < i.d.toNat → i.d.toNat < 8 → Issues s c (encodeI opCMPI i) i.p i.pneg →
      (i.fn = 0 → Answers (.cmpi c i) s (pd i.d (k.s i.a.toNat == z))) ∧
      (i.fn = 2 → Answers (.cmpi c i) s (pd i.d (decide ((k.s i.a.toNat).toInt < z.toInt)))) ∧
      (i.fn = 5 → Answers (.cmpi c i) s (pd i.d (decide (z.toNat ≤ (k.s i.a.toNat).toNat))))) ∧
    (0 < w.d.toNat → w.d.toNat < 8 → w.a.toNat < 8 → w.b.toNat < 8 → Issues s c (encodeR opPLOG w) w.p w.pneg →
      (w.fn = 0 → Answers (.plog c w) s (pd w.d (k.p w.a.toNat && k.p w.b.toNat))) ∧
      (w.fn = 1 → Answers (.plog c w) s (pd w.d (k.p w.a.toNat || k.p w.b.toNat))) ∧
      (w.fn = 2 → Answers (.plog c w) s (pd w.d (k.p w.a.toNat ^^ k.p w.b.toNat))) ∧
      (w.fn = 3 → Answers (.plog c w) s (pd w.d (k.p w.a.toNat && !k.p w.b.toNat)))) ∧
    (w.fn = 0 → w.d.toNat < 16 → w.b = 0 → Issues s c (encodeR opAMOV w) w.p w.pneg →
      Answers (.amov c w) s (OnlyCore c ((k.setA w.d.toNat (x.extractLsb' 0 48)).advance) s)) ∧
    (w.fn.toNat ≤ 7 → w.d.toNat < 16 → w.a.toNat < 16 → Issues s c (encodeR opAADD w) w.p w.pneg →
      Answers (.aadd c w) s (OnlyCore c ((k.setA w.d.toNat (k.a w.a.toNat + (y <<< w.fn.toNat).extractLsb' 0 48)).advance) s)) ∧
    (i.fn = 0 → i.d.toNat < 16 → i.a.toNat < 16 → Issues s c (encodeI opAADDI i) i.p i.pneg →
      Answers (.aaddi c i) s (OnlyCore c ((k.setA i.d.toNat (k.a i.a.toNat + i.imm.signExtend 48)).advance) s)) ∧
    (w.fn = 0 → w.a.toNat < 16 → w.b = 0 → Issues s c (encodeR opARD w) w.p w.pneg →
      Answers (.ard c w) s (OnlyCore c ((k.setS w.d.toNat ((k.a w.a.toNat).setWidth 64)).advance) s)) ∧
    (i.fn = 0 → i.a = 0 → Issues s c (encodeI opRDSR i) i.p i.pneg →
      (i.imm = 1 → Answers (.rdsr c i) s (OnlyCore c ((k.setS i.d.toNat (BitVec.ofNat 64 (s.lcoord c).toNat)).advance) s)) ∧
      (i.imm = 2 → Answers (.rdsr c i) s (OnlyCore c ((k.setS i.d.toNat (BitVec.ofNat 64 k.tile)).advance) s)) ∧
      (i.imm = 3 → Answers (.rdsr c i) s (OnlyCore c ((k.setS i.d.toNat (BitVec.ofNat 64 k.epoch.toNat)).advance) s)) ∧
      (i.imm = 5 → Answers (.rdsr c i) s (OnlyCore c ((k.setS i.d.toNat (BitVec.ofNat 64 (s.rgnFreq c.region))).advance) s)) ∧
      (i.imm = 0 → 0 < i.d.toNat → Answers (.rdsr c i) s (fun t =>
        (t.core c).s i.d.toNat = BitVec.ofNat 64 t.lastRdsr ∧ s.lastRdsr ≤ t.lastRdsr ∧
        (s.lastRdsr ≤ s.now + 2 → s.now ≤ t.lastRdsr + 2 ∧ t.lastRdsr ≤ s.now + 2) ∧
        (t.core c).pc = k.advance.pc ∧ SameOtherCores c s t ∧ t.regs = s.regs ∧ SameMemory s t)))

/-- LDS, STS, VLD and VST (R59, R95, R101): aligned bytes of the own slice, which the windows permit, which hold no error and for whose
banks nothing waits. A load changes nothing but its destination; a store writes exactly its bytes, in little-endian order. -/
def Obligations.SliceLoadsAndStores : Prop :=
  ∀ (s : State) (c : CoreId) (i : IWord) (o : Nat), i.rsv = 0 → i.fn = 0 → i.a.toNat < 16 → QuietSlice s c →
    let k := s.core c
    let a := k.a i.a.toNat + i.imm.signExtend 48
    (s.ownOfs c a 8 8 = some o → CleanWords s c o 8 →
      (s.sliceOk c 1 0 o 8 = true → Issues s c (encodeI opLDS i) i.p i.pneg →
        Answers (.lds c i) s (OnlyCore c ((k.setS i.d.toNat (BitVec.ofNat 64 (leNat (s.sliceRaw c o 8)))).advance) s)) ∧
      (s.sliceOk c 1 1 o 8 = true → Issues s c (encodeI opSTS i) i.p i.pneg →
        Answers (.sts c i) s (fun t =>
          t.sliceRaw c o 8 = leBytes (k.s i.d.toNat).toNat 8 ∧
          (∀ j, j < sliceKey c o ∨ sliceKey c o + 8 ≤ j → tabGet byteReset t.sram j = tabGet byteReset s.sram j) ∧
          t.core c = k.advance ∧ SameOtherCores c s t ∧ t.regs = s.regs ∧ t.acc = s.acc ∧ t.hbm = s.hbm))) ∧
    (s.ownOfs c a 256 32 = some o → CleanWords s c o 256 →
      (s.sliceOk c 1 0 o 256 = true → Issues s c (encodeI opVLD i) i.p i.pneg →
        Answers (.vld c i) s (OnlyCore c ((k.setV i.d.toNat (BitVec.ofNat 2048 (leNat (s.sliceRaw c o 256)))).advance) s)) ∧
      (s.sliceOk c 1 1 o 256 = true → Issues s c (encodeI opVST i) i.p i.pneg →
        Answers (.vst c i) s (fun t =>
          t.sliceRaw c o 256 = leBytes (k.v i.d.toNat).toNat 256 ∧
          (∀ j, j < sliceKey c o ∨ sliceKey c o + 256 ≤ j → tabGet byteReset t.sram j = tabGet byteReset s.sram j) ∧
          t.core c = k.advance ∧ SameOtherCores c s t ∧ t.regs = s.regs ∧ t.acc = s.acc ∧ t.hbm = s.hbm)))

/-- VOP to VTAIL (R36, R40, R41, R90): a legal word that issues writes Vd (VRED: Sd), adds its events to the core's counts and moves
the PC on; nothing else changes. Each lane is computed by the lane operation of Machine/Formats.lean; the five functions of R41 lie within
two units in the last place of the real value, as worked out there (log entry 3). -/
def Obligations.VectorResults : Prop :=
  ∀ (s : State) (c : CoreId) (w : RWord), w.rsv = 0 →
    let k := s.core c
    let a := k.v w.a.toNat
    let b := k.v w.b.toNat
    let vd := fun (r : BitVec 2048 × Ev) => OnlyCore c (((k.setV w.d.toNat r.1).addEv r.2).advance) s
    (w.c = 0 → Issues s c (encodeR opVOP w) w.p w.pneg →
      (w.fn = 0 → Answers (.vop c w) s (vd (zipLanes fadd a b))) ∧ (w.fn = 1 → Answers (.vop c w) s (vd (zipLanes fsub a b))) ∧
      (w.fn = 2 → Answers (.vop c w) s (vd (zipLanes fmul a b))) ∧
      (w.fn = 3 → Answers (.vop c w) s (vd (zipLanes (fun x y => (fmax x y, Ev.none)) a b))) ∧
      (w.fn = 4 → Answers (.vop c w) s (vd (zipLanes (fun x y => (fmin x y, Ev.none)) a b)))) ∧
    (w.c = 0 → w.b = 0 → Issues s c (encodeR opVOP w) w.p w.pneg →
      (w.fn = 5 → Answers (.vop c w) s (vd (zipLanes (fun x _ => (fabs x, Ev.none)) a b))) ∧
      (w.fn = 6 → Answers (.vop c w) s (vd (zipLanes (fun x _ => (fneg x, Ev.none)) a b)))) ∧
    (w.fn = 0 → Issues s c (encodeR opVFMA w) w.p w.pneg → Answers (.vfma c w) s (fun t =>
      (t.core c).v w.d.toNat = ofLanes ((List.zipWith (fun p z => ffma p.1 p.2 z) (List.zip (lanes a) (lanes b))
        (lanes (k.v w.c.toNat))).map (·.1)) ∧ (t.core c).pc = k.advance.pc ∧ SameOtherCores c s t ∧ t.regs = s.regs ∧
      SameMemory s t)) ∧
    (w.c = 0 → w.b = 0 → Issues s c (encodeR opVFUNC w) w.p w.pneg →
      (w.fn = 0 → Answers (.vfunc c w) s (vd (mapLanes (vfun fnExp2) a))) ∧
      (w.fn = 1 → Answers (.vfunc c w) s (vd (mapLanes (vfun fnRecip) a))) ∧
      (w.fn = 2 → Answers (.vfunc c w) s (vd (mapLanes (vfun fnRsqrt) a))) ∧
      (w.fn = 3 → Answers (.vfunc c w) s (vd (mapLanes (vfun fnLog2) a))) ∧
      (w.fn = 4 → Answers (.vfunc c w) s (vd (mapLanes (vfun fnTanh) a)))) ∧
    (let near := fun (r : Option RealRes) (y : Word32) => ∀ v, r = some v → (ulpWindow v).1 ≤ fcode y ∧ fcode y ≤ (ulpWindow v).2
     ∀ x : Word32, near (exp2Real (fval x)) (fnExp2 x) ∧ near (recipReal (fval x)) (fnRecip x) ∧ near (rsqrtReal (fval x)) (fnRsqrt x) ∧
       near (log2Real (fval x)) (fnLog2 x) ∧ near (tanhReal (fval x)) (fnTanh x)) ∧
    (w.c = 0 → w.b = 0 → Issues s c (encodeR opVRED w) w.p w.pneg →
      (w.fn = 0 → Answers (.vred c w) s
        (OnlyCore c (((k.setS w.d.toNat ((vsum (lanes a)).1.setWidth 64)).addEv (vsum (lanes a)).2).advance) s)) ∧
      (w.fn = 1 → Answers (.vred c w) s
        (OnlyCore c (((k.setS w.d.toNat ((vmax (lanes a)).1.setWidth 64)).addEv (vmax (lanes a)).2).advance) s))) ∧
    (w.c = 0 → w.fn.toNat ≤ 7 → (w.fn.toNat < 4 → w.b = 0) → Issues s c (encodeR opVCVT w) w.p w.pneg →
      Answers (.vcvt c w) s (vd (vcvtOp w.fn.toNat ((k.s w.b.toNat).extractLsb' 0 32) a))) ∧
    (w.c = 0 → w.b = 0 → w.fn.toNat ≤ 5 → Issues s c (encodeR opVQMX w) w.p w.pneg →
      Answers (.vqmx c w) s (vd (vqmxOp ((fmtElem w.fn.toNat).getD .e2m1) (fun _ => .rne) a))) ∧
    (w.c = 0 → Issues s c (encodeR opVBCAST w) w.p w.pneg →
      (w.fn = 0 → w.b = 0 → Answers (.vbcast c w) s (vd (ofLanes (List.replicate 64 ((k.s w.a.toNat).extractLsb' 0 32)), {}))) ∧
      (w.fn = 1 → Answers (.vbcast c w) s (vd (ofLanes (List.replicate 64 (lane a ((k.s w.b.toNat).toNat % 64))), {})))) ∧
    (w.c = 0 → w.fn = 0 → Issues s c (encodeR opVTAIL w) w.p w.pneg →
      Answers (.vtail c w) s (vd (ofLanes (takePad 0 64 ((lanes a).take ((k.s w.b.toNat).toNat % 128))), {})))

/-- VACC, MLOAD, MMA and the matrix engine's steps (R35, R39, R61, R64 to R67, R69). -/
def Obligations.MatrixResults : Prop :=
  ∀ (s : State) (c : CoreId) (w : RWord) (m : MWord) (o : Nat), w.rsv = 0 → m.rsv = 0 → m.rsv35 = false →
    let k := s.core c
    let row := (k.s w.b.toNat).toNat
    (w.a.toNat < 8 → row ≤ 127 → k.mmaInto w.a.toNat = false → Issues s c (encodeR opVACC w) w.p w.pneg →
      (w.fn = 0 → w.c = 0 → Answers (.vacc c w) s (OnlyCore c ((k.setV w.d.toNat (s.accRow c w.a.toNat row)).advance) s)) ∧
      (w.fn = 2 → w.c = 0 → Answers (.vacc c w) s (fun t => t.accRow c w.a.toNat row = k.v w.d.toNat ∧
        (∀ j, j < accKey c (w.a.toNat * 0x8000 + row * 256) ∨ accKey c (w.a.toNat * 0x8000 + row * 256) + 256 ≤ j →
          tabGet byteReset t.acc j = tabGet byteReset s.acc j) ∧
        t.core c = k.advance ∧ t.sram = s.sram ∧ t.hbm = s.hbm ∧ t.regs = s.regs)) ∧
      (w.fn = 1 → Answers (.vacc c w) s (OnlyCore c (
        let r := readoutScaled ((k.s w.c.toNat).extractLsb' 0 32) (s.accRow c w.a.toNat row)
        ((k.setV w.d.toNat r.1).addEv r.2).advance) s)) ∧
      (w.fn = 3 → w.c = 0 → w.b = 0 → w.d = 0 → Answers (.vacc c w) s (fun t =>
        (∀ j, tabGet byteReset t.acc j = if accKey c (w.a.toNat * 0x8000) ≤ j ∧ j < accKey c ((w.a.toNat + 1) * 0x8000) then 0
          else tabGet byteReset s.acc j) ∧
        t.core c = k.advance ∧ t.sram = s.sram ∧ t.hbm = s.hbm ∧ t.regs = s.regs))) ∧
    (m.bank = 0 → m.accum = false → m.row0 = 0 → m.mrows = 0 → m.fmt.toNat ≤ 9 →
      s.ownOfs c (k.a m.as.toNat) (blockBytes m.fmt.toNat) 32 = some o → k.mq.length < 4 →
      Issues s c (encodeM opMLOAD m) m.p m.pneg →
      Answers (.mload c m) s (fun t => (t.core c).mq = k.mq ++ [MOp.mload m.wb m.fmt.toNat o k.pc] ∧
        ((t.core c).wbuf m.wb).issued = some m.fmt.toNat ∧ (t.core c).pc = k.advance.pc ∧ SameOtherCores c s t ∧
        t.regs = s.regs ∧ SameMemory s t)) ∧
    (∀ wf, m.fmt.toNat ≤ 9 → (k.wbuf m.wb).issued = some wf → pairOk wf m.fmt.toNat = true →
      m.row0.toNat + (m.mrows.toNat + 1) ≤ 128 →
      s.ownOfs c (k.a m.as.toNat) (streamBytes (blockK wf) m.fmt.toNat (m.mrows.toNat + 1)) 32 = some o →
      k.mq.length < 4 → s.dmaOnBank c m.bank.toNat = false → Issues s c (encodeM opMMA m) m.p m.pneg →
      Answers (.mma c m) s (OnlyCore c ({ k with
        mq := k.mq ++ [MOp.mma m.wb m.fmt.toNat o m.bank.toNat m.accum m.row0.toNat (m.mrows.toNat + 1) 0 k.pc] }.advance) s)) ∧
    (∀ wb f pc rest, k.mq = MOp.mload wb f o pc :: rest → k.blocked = none → s.sliceOk c 2 0 o (blockBytes f) = true →
      CleanWords s c o (blockBytes f) → QuietSlice s c →
      Answers (.mloadComplete c) s (OnlyCore c { (k.setWbuf wb { k.wbuf wb with fmt := f, block := s.sliceRaw c o (blockBytes f) })
        with mq := rest } s)) ∧
    (∀ wb f bank row0 n pc rest, k.mq = MOp.mma wb f o bank false row0 n 0 pc :: rest → k.blocked = none → fmtMx f = false →
      1 < n → s.sliceOk c 2 0 o (recBytes (blockK (k.wbuf wb).fmt) f) = true →
      CleanWords s c o (recBytes (blockK (k.wbuf wb).fmt) f) → QuietSlice s c →
      let v := mmaRow (k.wbuf wb).fmt (k.wbuf wb).block
        (operandVals f (s.sliceRaw c o (recBytes (blockK (k.wbuf wb).fmt) f)) [] (blockK (k.wbuf wb).fmt)) (List.replicate 64 0)
      Answers (.mmaRowWritten c) s (fun t => t.accRow c bank row0 = ofLanes v.1 ∧
        (t.core c).mq = MOp.mma wb f o bank false row0 n 1 pc :: rest ∧ (t.core c).evInvalid = (k.addEv v.2).evInvalid ∧
        SameOtherCores c s t ∧ t.regs = s.regs ∧ t.sram = s.sram ∧ t.hbm = s.hbm))
/-- DMA, its completion and DWAIT (R68, R70): a DMA of no bytes only moves the PC on; one that moves bytes joins the transfer queue
behind the transfer in progress; its completion leaves what its rows copied and takes it off the queue, and one that ends in an
error marks its tag; DWAIT goes on once its tags are complete. -/
def Obligations.DmaResults : Prop :=
  ∀ (s : State) (c : CoreId) (w : XWord), w.rsv = 0 →
    let k := s.core c
    let x := dmaXfer k w
    (w.imm16 = 0 → w.fn = 0 → w.sb = 0 → w.n.toNat < 8 → Issues s c (encodeX opDMA w) w.p w.pneg →
      (x.bytes = 0 → Answers (.dma c w) s (OnlyCore c k.advance s)) ∧
      (∀ y ys, x.bytes ≠ 0 → s.dmaReach c x = true → s.dmaFar c x = false → k.xq = y :: ys → ys.length < 7 →
        y.started = true → y.send = false →
        Answers (.dma c w) s (fun t => (t.core c).xq = k.xq ++ [x] ∧ (t.core c).pc = k.advance.pc ∧ SameOtherCores c s t ∧
          t.regs = s.regs ∧ SameMemory s t))) ∧
    (∀ y data, k.xq = [y] → y.send = false → (∀ b < 8, k.mmaInto b = false) →
      (NoneBlocked s → k.quiet = false → k.refusedSends = [] → Answers (.dmaComplete c false data) s (fun t => (t.core c).xq = [] ∧
        (y.num < 8 → bitOf (t.core c).errTags y.num = true) ∧ SameOtherCores c s t ∧ t.regs = s.regs ∧ SameMemory s t)) ∧
      (let r := s.copyRows c y y.rows 0 data
       r.1 = (false, false) → NoneBlocked r.2 → (r.2.core c).refusedSends = [] → Answers (.dmaComplete c true data) s (fun t => (t.core c).xq = [] ∧
        (t.core c).errTags = (r.2.core c).errTags ∧ SameMemory r.2 t ∧ t.regs = r.2.regs))) ∧
    (w.fn = 0 → w.ad = 0 → w.as = 0 → w.sa = 0 → w.sb = 0 → w.n = 0 → k.xq = [] → k.errTags = 0 →
      Issues s c (encodeX opDWAIT w) w.p w.pneg → Answers (.dwait c w) s (fun t => (t.core c).pc = k.advance.pc ∧
        (t.core c).xq = [] ∧ (t.core c).blocked = none ∧ SameOtherCores c s t ∧ t.regs = s.regs ∧ SameMemory s t))

/-- SEND, RECV, SWAIT, RWAIT and SEND_COMPLETE (R71 to R73): a SEND that holds the credit for its message joins the transfer queue
behind the transfer in progress; a RECV posts its buffer and gives its sender, on this package, the credit; SWAIT goes on once no send of
its channels is outstanding; RWAIT takes the length of the oldest buffer and frees it; a send to a core on this package leaves the queue
once its message is delivered, and one that fails marks its channel. -/
def Obligations.MessageResults : Prop :=
  ∀ (s : State) (c : CoreId) (w : XWord), w.rsv = 0 → w.fn = 0 →
    let k := s.core c
    let n := w.n.toNat
    let len := (k.s w.sa.toNat).toNat
    (w.ad = 0 → w.sb = 0 → w.imm16 = 0 → bitOf (k.schanOf n) 31 = true → s.peerNamed c (k.schanOf n) = true →
      (s.ownOfs c (k.a w.as.toNat) len 1).isSome = true →
      Issues s c (encodeX opSEND w) w.p w.pneg →
      ∀ cr y ys, k.creditFor n (natGet k.sends n) = some cr → len % 32 = 0 → 32 ≤ len → len ≤ cr.cap → len ≤ 2 ^ 20 →
        k.xq = y :: ys → ys.length < 7 → y.started = true → y.send = false →
        Answers (.send c w) s (fun t =>
          (∃ x, (t.core c).xq = k.xq ++ [x] ∧ x.send = true ∧ x.num = n ∧ x.bytes = len ∧ x.src = k.a w.as.toNat ∧
            x.seq = natGet k.sends n ∧ x.cepoch = cr.epoch) ∧ natGet (t.core c).sends n = natGet k.sends n + 1 ∧ (t.core c).pc = k.advance.pc ∧
          SameOtherCores c s t ∧ t.regs = s.regs ∧ SameMemory s t)) ∧
    (∀ o q, w.as = 0 → w.sb = 0 → w.imm16 = 0 → bitOf (k.rchanOf n) 31 = true → s.ownOfs c (k.a w.ad.toNat) len 1 = some o →
      (k.postedOf n).length < 2 → natGet k.delivered n ≤ natGet k.posts n →
      s.bindLocal c (k.rchanOf n) = some q → coreKey q ≠ coreKey c → (s.core q).blocked = none → (s.core q).refusedSends = [] →
      Issues s c (encodeX opRECV w) w.p w.pneg →
      Answers (.recv c w) s (fun t =>
        (t.core c).postedOf n = k.postedOf n ++ [{ ofs := o, cap := len, seq := natGet k.posts n, epoch := k.epoch, pc := k.pc }] ∧
        natGet (t.core c).posts n = natGet k.posts n + 1 ∧ (t.core c).pc = k.advance.pc ∧
        t.core q = (s.core q).addCredit (bitsOf (k.rchanOf n) 16 4)
          { num := natGet k.posts n, cap := len / 32 * 32, epoch := k.epoch } ∧
        (∀ d, coreKey d ≠ coreKey c → coreKey d ≠ coreKey q → t.core d = s.core d) ∧
        t.regs = s.regs ∧ SameMemory s t)) ∧
    (w.ad = 0 → w.as = 0 → w.sa = 0 → w.sb = 0 → w.n = 0 → (∀ j < 16, bitOf w.imm16 j = true → k.sendBusy j = false) →
      k.errSends = 0 → Issues s c (encodeX opSWAIT w) w.p w.pneg → Answers (.swait c w) s (OnlyCore c k.advance s)) ∧
    (∀ b bs l, w.ad = 0 → w.as = 0 → w.sa = 0 → w.imm16 = 0 → k.postedOf n = b :: bs → b.filled = some l →
      Issues s c (encodeX opRWAIT w) w.p w.pneg →
      Answers (.rwait c w) s (OnlyCore c (((k.setS w.sb.toNat (BitVec.ofNat 64 l)).setPosted n bs).advance) s)) ∧
    (∀ y, k.xq = [y] → y.send = true →
      (NoneBlocked s → k.quiet = false → k.refusedSends = [] → Answers (.sendComplete c false) s (fun t => (t.core c).xq = [] ∧
        (y.num < 16 → bitOf (t.core c).errSends y.num = true) ∧ SameOtherCores c s t ∧ t.regs = s.regs ∧ SameMemory s t)) ∧
      (∀ q ch, s.sendTarget c y.num = some (q, ch) →
        let r := s.read (.transferEngine c) y.src.toNat y.bytes
        let d := r.2.deliver q ch y.seq y.cepoch r.1.data
        r.1.refused = false → r.1.poison = false → d.1 = .written → NoneBlocked d.2 → (d.2.core c).refusedSends = [] →
        Answers (.sendComplete c true) s (fun t => (t.core c).xq = [] ∧ (t.core c).errSends = (d.2.core c).errSends ∧
          (∀ p, coreKey p ≠ coreKey c → t.core p = d.2.core p) ∧ t.regs = d.2.regs ∧ SameMemory d.2 t)))

/-- SEMSET, SEMCLR, SEMWAIT, BARRIER, BARRIER_RELEASE and FENCE (R74 to R76, R102): the aliases set and clear exactly the named bits
of one 64-bit word; SEMWAIT goes on when the named bits match; a barrier whose generation is complete lets its core go on, and the
last arrival completes the generation; FENCE goes on when what it names has drained, waits at its word while it has not, and with
IMM16 = 0 is a NOP (that its bit 3 holds at once is the model's choice, log entry 12). -/
def Obligations.SyncResults : Prop :=
  ∀ (s : State) (c : CoreId) (w : XWord), w.rsv = 0 → w.fn = 0 →
    let k := s.core c
    let m := k.s w.sa.toNat
    let old := fun (q : CoreId) (o : Nat) => BitVec.ofNat 64 (leNat (s.sliceRaw q o 8))
    (∀ o, w.ad = 0 → w.sb = 0 → w.n = 0 → w.imm16 = 0 →
      s.place (s.owner c.region) (k.a w.as.toNat).toNat = .slice c o → o % 8 = 0 → o + 8 ≤ 0x200000 →
      s.sliceOk c 1 2 o 8 = true → CleanWords s c o 8 → QuietSlice s c →
      (Issues s c (encodeX opSEMSET w) w.p w.pneg → Answers (.semset c w) s (fun t =>
        t.sliceRaw c o 8 = leBytes (old c o ||| m).toNat 8 ∧ (t.core c).pc = k.advance.pc ∧
        (∀ j, j < sliceKey c o ∨ sliceKey c o + 8 ≤ j → tabGet byteReset t.sram j = tabGet byteReset s.sram j) ∧
        SameOtherCores c s t ∧ t.regs = s.regs)) ∧
      (Issues s c (encodeX opSEMCLR w) w.p w.pneg → Answers (.semclr c w) s (fun t =>
        t.sliceRaw c o 8 = leBytes (old c o &&& ~~~m).toNat 8 ∧ (t.core c).pc = k.advance.pc ∧
        (∀ j, j < sliceKey c o ∨ sliceKey c o + 8 ≤ j → tabGet byteReset t.sram j = tabGet byteReset s.sram j) ∧
        SameOtherCores c s t ∧ t.regs = s.regs))) ∧
    (∀ o, w.ad = 0 → w.n = 0 → w.imm16 = 0 → s.ownOfs c (k.a w.as.toNat) 8 8 = some o → s.sliceOk c 1 0 o 8 = true →
      CleanWords s c o 8 → QuietSlice s c → old c o &&& m = k.s w.sb.toNat &&& m → Issues s c (encodeX opSEMWAIT w) w.p w.pneg →
      Answers (.semwait c w) s (OnlyCore c k.advance s)) ∧
    (let n := w.n.toNat
     let g := bitsOf (k.baridOf n) 0 12
     let d := s.owner c.region
     w.ad = 0 → w.as = 0 → w.sa = 0 → w.sb = 0 → w.imm16 = 0 → bitOf (k.baridOf n) 31 = true →
      (s.barrierMembers d g).contains (s.lcoord c) = true → natGet k.arrivals n < (s.bar d g).gen →
      Issues s c (encodeX opBARRIER w) w.p w.pneg →
      Answers (.barrier c w) s (OnlyCore c ({ k with arrivals := natBump k.arrivals n }.advance) s)) ∧
    (∀ (d : Dye) (g : Nat), s.barrierLocal d g ≠ [] → s.barrierAllHere d g = true → s.barrierAllThere d g = true →
      NoneBlocked s → Answers (.barrierRelease d g) s (fun t => (t.bar d g).gen = (s.bar d g).gen + 1 ∧
        (t.bar d g).arrived = [] ∧ t.regs = s.regs ∧ t.cores = s.cores ∧ SameMemory s t)) ∧
    (w.ad = 0 → w.as = 0 → w.sa = 0 → w.sb = 0 → w.n = 0 → Issues s c (encodeX opFENCE w) w.p w.pneg →
      let holds := (bitOf w.imm16 0 = true → k.mq = []) ∧ (bitOf w.imm16 1 = true → ∀ n < 8, k.tagBusy n = false) ∧
        (bitOf w.imm16 2 = true → ∀ n < 16, k.sendBusy n = false)
      (holds → (bitOf w.imm16 1 = true → k.errTags = 0) → (bitOf w.imm16 2 = true → k.errSends = 0) → Answers (.fence c w) s
        (OnlyCore c ((if bitOf w.imm16 1 = true then { k with remoteTags := 0 } else k).advance) s)) ∧
      (¬holds → k.stopPend = false → (∀ q ∈ s.groupOf c, (s.core q).run ≠ .faulted) → Answers (.fence c w) s (fun t =>
        (t.core c).pc = k.pc ∧ (t.core c).run = k.run ∧ (t.core c).sregs = k.sregs ∧ SameOtherCores c s t ∧ t.regs = s.regs ∧
        SameMemory s t ∧ (t.core c).blocked = some (.x opFENCE w))) ∧
      (w.imm16 = 0 → Answers (.fence c w) s (OnlyCore c k.advance s)))

/-- BR, LOOP, TBOUND, HALT, TILE_GATE_OPEN and TILE_OVERRUN (R60, R77 to R79): a taken branch inside the program goes to PC + IMM; a
loop enters its body; a drained tile leaves a checkpoint of the next instruction and waits at the gate, or halts; a gate opens for a
core of its own group; a tile of CORE_TILE_LIMIT cycles takes the overrun fault. -/
def Obligations.ControlResults : Prop :=
  ∀ (s : State) (c : CoreId) (w : BWord), w.rsv = 0 →
    let k := s.core c
    let tgt : Int := k.pc + w.imm.toInt
    (w.sa = 0 → 0 ≤ tgt → tgt < k.istore.length → k.loops = [] → Issues s c (encodeB opBR w) w.p w.pneg →
      Answers (.br c w) s (OnlyCore c { k with pc := tgt.toNat } s)) ∧
    (w.imm.toNat < 65536 → 0 < w.imm.toNat → k.pc + w.imm.toNat < k.istore.length → k.loops.length < 4 → k.s w.sa.toNat ≠ 0 →
      Issues s c (encodeB opLOOP w) w.p w.pneg → Answers (.loop c w) s (OnlyCore c
        { k with pc := k.pc + 1, loops := { first := k.pc + 1, last := k.pc + w.imm.toNat, left := (k.s w.sa.toNat).toNat } :: k.loops } s)) ∧
    (w.sa = 0 → w.imm = 0 → w.p = 0 → w.pneg = false → k.mq = [] → k.xq = [] → k.sent = [] → k.refusedSends = [] →
      (∀ n, ∀ b ∈ k.postedOf n, b.filled.isSome = true) →
      (Issues s c (encodeB opTBOUND w) w.p w.pneg → Answers (.tbound c w) s (fun t => (t.core c).run = .gate ∧
        (t.core c).ckpt.pc = k.advance.pc ∧ (t.core c).ckpt.sregs = k.sregs ∧ (t.core c).ckpt.aregs = k.aregs ∧
        (t.core c).ckpt.tile = k.tile ∧ SameOtherCores c s t ∧ t.regs = s.regs ∧ SameMemory s t)) ∧
      (Issues s c (encodeB opHALT w) w.p w.pneg → Answers (.halt c w) s (fun t => (t.core c).run = .halted ∧
        (t.core c).ckpt.pc = k.advance.pc ∧ (t.core c).stopPend = false ∧ SameOtherCores c s t ∧ t.regs = s.regs ∧
        SameMemory s t))) ∧
    (k.run = .gate → k.stopPend = false → bitOf k.tgroup 31 = false →
      (∀ h, tabGet (fun _ => none) s.held c.region.val = some h → h.stream = false) →
      Answers (.tileGateOpen c) s (fun t => (t.core c).run = .running ∧ (t.core c).tile = k.tile + 1 ∧ (t.core c).pc = k.ckpt.pc ∧
        (t.core c).loops = k.ckpt.loops ∧ (t.core c).tileAt = s.now ∧ (t.core c).sregs = k.sregs ∧
        (k.remoteWait = false →
          (t.core c).stallLocal = k.stallLocal + BitVec.ofNat 32 (s.cyclesSince c.region k.waitAt)) ∧
        SameOtherCores c s t ∧ t.regs = s.regs ∧ SameMemory s t)) ∧
    (k.run = .running → k.stopPend = false → k.abandoning = false → bitOf k.tgroup 31 = false →
      k.tileLimit.toNat ≤ s.cyclesSince c.region k.tileAt → Answers (.tileOverrun c) s (fun t =>
        (t.core c).run = .faulted ∧ (t.core c).fault = 0x07 ∧ (t.core c).faultPc = BitVec.ofNat 32 k.pc ∧
        (t.core c).epoch = k.epoch + 1 ∧ SameOtherCores c s t ∧ SameMemory s t ∧ SameRegsBut [regKey .ldg LDG_FOLDED] s t))

/-- CORE_CTRL and the end of an abandonment (R78, R81, R83, R89, Tables 3-9 and 3-14): GO starts an IDLE core at its entry and
resumes a STOPPED one at its gate; STOP asks a core at its gate to stop and with it the members of its tile group (the whole
group: the model's reading, log entry 114); FAULT_ACK brings a FAULTED core to IDLE; an
abandoning core with no transfer in progress becomes ABANDONED at its checkpoint. A write from any other master than the region's
controller has no effect and is a permission error. -/
def Obligations.CoreControlResults : Prop :=
  ∀ (s : State) (c : CoreId),
    let k := s.core c
    let m := Master.regionController c.region
    (k.run = .idle → Answers (.coreGo m c) s (fun t => (t.core c).run = .running ∧ (t.core c).pc = 0 ∧ (t.core c).tile = 0 ∧
      (t.core c).ckpt.sregs = k.sregs ∧ (t.core c).ckpt.pc = 0 ∧ SameOtherCores c s t ∧ t.regs = s.regs ∧ SameMemory s t)) ∧
    (k.run = .stopped → Answers (.coreGo m c) s (fun t => (t.core c).run = .gate ∧ (t.core c).pc = k.ckpt.pc ∧
      (t.core c).sregs = k.ckpt.sregs ∧ SameOtherCores c s t ∧ t.regs = s.regs ∧ SameMemory s t)) ∧
    (∀ q, k.run = .gate → Answers (.coreStop m c) s (fun t => (t.core c).run = .gate ∧ (t.core c).stopPend = true ∧
      ((s.core q).run = .gate → q ∈ s.groupOf c → (t.core q).run = .gate ∧ (t.core q).stopPend = true) ∧
      (q ∉ s.groupOf c → t.core q = s.core q) ∧ t.regs = s.regs ∧ SameMemory s t)) ∧
    (k.run = .faulted → Answers (.coreFaultAck m c) s (OnlyCore c { k with run := .idle, fault := 0 } s)) ∧
    (∀ (q : CoreId), k.abandoning = true → k.xq = [] → NoneBlocked s →
      Answers (.abandonComplete c) s (fun t => (t.core c).run = .abandoned ∧ (t.core c).abandoning = false ∧
        (t.core c).pc = k.ckpt.pc ∧ (t.core c).sregs = k.ckpt.sregs ∧ (t.core c).posted = [] ∧
        (coreKey q ≠ coreKey c → t.core q = s.core q) ∧ t.regs = s.regs ∧ SameMemory s t)) ∧
    (∀ w : Master, w ≠ m → ∀ i ∈ [Instr.coreGo w c, .coreStop w c, .coreFaultAck w c],
      Answers i s (fun t => t = { s with resp := t.resp } ∧ t.resp.permission = true))

/-- An instruction whose predicate fails acts as a NOP (R58): for every legal word of these operations the PC moves on and nothing
else changes. -/
def Obligations.FailedPredicateIsNop : Prop :=
  ∀ (s : State) (c : CoreId) (w : RWord) (i : IWord) (b : BWord), w.rsv = 0 → w.c = 0 → w.fn = 0 → i.rsv = 0 → i.fn = 0 →
    i.a.toNat < 16 → b.rsv = 0 → b.sa = 0 →
    let k := s.core c
    let skips := fun (x : Word64) (p : BitVec 3) (n : Bool) =>
      k.canIssue = true ∧ k.istore[k.pc]? = some x ∧ k.predicate p n = false
    let nop := OnlyCore c k.advance s
    (skips (encodeR opADD w) w.p w.pneg → Answers (.add c w) s nop) ∧
    (skips (encodeR opSUB w) w.p w.pneg → Answers (.sub c w) s nop) ∧
    (skips (encodeR opMUL w) w.p w.pneg → Answers (.mul c w) s nop) ∧
    (skips (encodeI opADDI i) i.p i.pneg → Answers (.addi c i) s nop) ∧
    (skips (encodeI opLDS i) i.p i.pneg → Answers (.lds c i) s nop) ∧
    (skips (encodeI opSTS i) i.p i.pneg → Answers (.sts c i) s nop) ∧
    (skips (encodeI opVLD i) i.p i.pneg → Answers (.vld c i) s nop) ∧
    (skips (encodeR opVOP w) w.p w.pneg → Answers (.vop c w) s nop) ∧
    (skips (encodeB opBR b) b.p b.pneg → Answers (.br c b) s nop)

/-- A word whose opcode is not in Table 3-5, or with a reserved bit set, takes an illegal-opcode fault at issue (R58, R86): whatever
instruction command meets it, a core of its own tile group is FAULTED with code 0x01 and its PC recorded, and no memory and no other core changes. -/
def Obligations.IllegalWordsFault : Prop :=
  ∀ (s : State) (c : CoreId) (w : RWord) (x : Word64),
    let k := s.core c
    let faulted := fun (t : State) => (t.core c).run = .faulted ∧ (t.core c).fault = 0x01 ∧
      (t.core c).faultPc = BitVec.ofNat 32 k.pc ∧ SameMemory s t ∧ SameOtherCores c s t ∧ SameRegsBut [regKey .ldg LDG_FOLDED] s t
    k.canIssue = true → bitOf k.tgroup 31 = false →
    (k.istore[k.pc]? = some x → opDefined (opcodeOf x) = false → Answers (.nop c w) s faulted ∧ Answers (.add c w) s faulted) ∧
    (k.istore[k.pc]? = some (encodeR opADD w) → w.rsv ≠ 0 ∨ w.fn ≠ 0 ∨ w.c ≠ 0 → Answers (.add c w) s faulted)
/-- R89: whatever the core's state, GO, STOP and FAULT_ACK, and a register write to CORE_CTRL, from any master but the region controller of the
core's region change nothing and answer a permission error; from that region controller they are accepted. -/
def Obligations.CoreCtrlAcceptsOnlyTheRegionController : Prop :=
  ∀ (s : State) (c : CoreId) (m : Master),
    let refused := fun (t : State) => t = { s with resp := t.resp } ∧ t.resp.permission = true
    let write := fun (a : Addr) (v : Word32) => Instr.registerWrite m (.device a) 4 v
    let there := fun (a : Addr) (o : Nat) => s.place (s.dyeOf m) a.toNat = .regs o ∧ o % 4 = 0 ∧
      s.regAt (s.dyeOf m) o = .at (.core c) CORE_CTRL
    (m ≠ .regionController c.region → (∀ i ∈ [Instr.coreGo m c, .coreStop m c, .coreFaultAck m c], Answers i s refused) ∧
      (∀ a o v, there a o → Answers (write a v) s refused)) ∧
    (m = .regionController c.region → (∀ i ∈ [Instr.coreGo m c, .coreStop m c, .coreFaultAck m c], Answers i s (fun t =>
      t.resp.permission = false)) ∧ (∀ a o v, there a o → Answers (write a v) s (fun t => t.resp.permission = false)))
/-! ### The scratchpad (chapter 4) -/

/-- SCRATCHPAD_ACCESS, BANK_GRANT and ECC_WRITE_BACK (R93, R96, R101, R103): an allowed access waits for its banks, one request for
each word; a bank serves the one request that waits for it, a read with the stored bytes, a write with exactly its bytes; a corrected
word is written back once. -/
def Obligations.BankResults : Prop :=
  ∀ (s : State) (c : CoreId) (m : Master) (a : Addr) (acc : Access) (o i : Nat),
    (s.place (s.dyeOf m) a.toNat = .slice c o → masterIndex m c = some i → s.sliceOk c i (accKind acc) o (accBytes acc) = true →
      (accKind acc = 2 → o % 8 = 0) →
      Answers (.scratchpadAccess m a acc) s (fun t => t = { s with bankQ := s.bankQ ++ bankReqs c o i m acc })) ∧
    (∀ (bank : Fin 32) (r : BankReq), s.bankQ = [r] → r.core = c → bankOf (32 * r.word) = bank.val → s.errAt c r.word = 0 →
      s.injAims c r.word = false → (s.bistOf c).redirect = none → NoneBlocked s →
      let ofs := 32 * r.word + r.first
      (∀ n, r.acc = .read n → 0 < n → r.first + n ≤ 32 → Answers (.bankGrant c bank 0) s (fun t =>
        t.resp.data = s.sliceRaw c ofs n ∧ t.resp.poison = false ∧ t.bankQ = [] ∧ t.cores = s.cores ∧ SameMemory s t)) ∧
      (∀ bs, r.acc = .write bs → 0 < bs.length → r.first + bs.length ≤ 32 → Answers (.bankGrant c bank 0) s (fun t =>
        t.sliceRaw c ofs bs.length = bs ∧
        (∀ j, j < sliceKey c ofs ∨ sliceKey c ofs + bs.length ≤ j → tabGet byteReset t.sram j = tabGet byteReset s.sram j) ∧
        t.bankQ = [] ∧ t.cores = s.cores ∧ t.acc = s.acc ∧ t.hbm = s.hbm))) ∧
    (∀ (word : Fin 65536), wordKey c word.val ∈ s.writeBack → Answers (.eccWriteBack c word) s (fun t =>
      t.errAt c word.val = (eccDecode (s.cls c (word.val / 128)) (s.errAt c word.val)).1 ∧
      t.writeBack = s.writeBack.filter (· ≠ wordKey c word.val) ∧ t.regs = s.regs ∧ t.cores = s.cores ∧ SameMemory s t))

/-- SPD_WIN_WRITE and SPD_MACC_WRITE (R97, R98): the region controller sets a window or a master-access register while no core of the
region runs; the register then reads as the defined bits written and no other register changes. From any other master, or while a
core runs, the write is a permission error and changes nothing else. -/
def Obligations.WindowResults : Prop :=
  ∀ (s : State) (r : RegionNo) (k : CorePos) (n : Fin 8) (j : Fin 10) (v : Word32) (m : Master),
    let own := Master.regionController r
    let win := SPD_WIN + k.val * 0x20 + n.val * 4
    (s.coresStill r = true → winBad v = false → s.classRows { region := r, pos := k } v = [] →
      Answers (.spdWinWrite own r k n v) s (fun t => t.rd (.spd r) win = v &&& 0x801FFDFF ∧ t.resp.permission = false ∧
        SameRegsBut [regKey (.spd r) win] s t ∧ t.cores = s.cores ∧ SameMemory s t)) ∧
    (s.coresStill r = true → Answers (.spdMaccWrite own r j v) s (fun t =>
      t.rd (.spd r) (SPD_MACC + 4 * j.val) = v &&& 0x00FFFFFF ∧ t.resp.permission = false ∧
      SameRegsBut [regKey (.spd r) (SPD_MACC + 4 * j.val)] s t ∧ t.cores = s.cores ∧ SameMemory s t)) ∧
    (m ≠ own ∨ s.coresStill r = false → ∀ i ∈ [Instr.spdWinWrite m r k n v, .spdMaccWrite m r j v],
      Answers i s (fun t => t = { s with resp := t.resp } ∧ t.resp.permission = true))

/-- SPD_CLEAR_REQUEST, CLEAR_START and CLEAR_DONE (R108 to R110): an accepted request becomes the pending clear; it starts when the
engine is free; a clear of rows FIRST to LAST whose verify passes leaves every byte of those rows zero, every other byte as it was,
and STATE DONE. -/
def Obligations.ClearResults : Prop :=
  ∀ (s : State) (r : RegionNo) (v : Word32) (c : Clear),
    (bitOf v 0 = true → bitOf v 1 = false → bitOf v 26 = false → bitsOf v 8 9 ≤ bitsOf v 17 9 → clrGet s.clrPend r = none →
      s.coresIdle r = true → Answers (.spdClearRequest (.regionController r) r v) s (fun t =>
        clrGet t.clrPend r = some { whole := false, core := some (Fin.ofNat 64 (bitsOf v 2 6)), first := bitsOf v 8 9,
                                    last := bitsOf v 17 9, cause := .request } ∧
        clrGet t.clrNow r = clrGet s.clrNow r ∧ t.clearing r = true ∧ t.cores = s.cores ∧ SameMemory s t)) ∧
    (clrGet s.clrNow r = none → clrGet s.clrPend r = some c → c.whole = false → s.bankQ = [] →
      (∀ q : CoreId, (s.bistOf q).active = false) →
      Answers (.clearStart r) s (fun t => clrGet t.clrNow r = some { c with since := s.now } ∧ clrGet t.clrPend r = none ∧
        t.fld (.spd r) SPD_CLR_STATUS 0 3 = 1 ∧ t.fld (.spd r) SPD_CLR_STATUS 4 3 = causeNo c.cause ∧ t.cores = s.cores ∧
        SameMemory s t)) ∧
    (∀ (p : CorePos) (ok2 : VerifyPass), clrGet s.clrNow r = some c → c.whole = false → c.core = some p → c.cause = .request → c.first ≤ c.last →
      c.last < 512 → (s.bistOf ⟨r, p⟩).redirect = none → (∀ h ∈ s.heldWins, h.region ≠ r) →
      Answers (.clearDone r true ok2) s (fun t =>
        clrGet t.clrNow r = none ∧ t.fld (.spd r) SPD_CLR_STATUS 0 3 = 3 ∧
        (∀ j, sliceKey ⟨r, p⟩ (c.first * 4096) ≤ j → j < sliceKey ⟨r, p⟩ ((c.last + 1) * 4096) → tabGet byteReset t.sram j = 0) ∧
        (∀ j, j < sliceKey ⟨r, p⟩ (c.first * 4096) ∨ sliceKey ⟨r, p⟩ ((c.last + 1) * 4096) ≤ j →
          tabGet byteReset t.sram j = tabGet byteReset s.sram j) ∧ t.acc = s.acc ∧ t.hbm = s.hbm ∧ t.cores = s.cores))

/-- BIST_ROW_START and BIST_ROW_RELEASE (R105, R106): an enabled tester of an Active region that is not being cleared takes its next
row; a row that passes is released and the next row follows; a row that fails is named and stays redirected. What the slice holds, as its
masters see it, never changes. -/
def Obligations.BackgroundTestResults : Prop :=
  ∀ (s : State) (c : CoreId),
    let b := s.bistOf c
    let held := fun (t : State) => (∀ o < 0x200000, t.liveByte c o = s.liveByte c o) ∧ t.cores = s.cores ∧ t.acc = s.acc ∧ t.hbm = s.hbm
    (s.bit (.spd c.region) SPD_BIST_CTRL 0 = true → s.rgnActive c.region = true → s.clearing c.region = false → b.active = false →
      b.failed = none → Answers (.bistRowStart c) s (fun t => (t.bistOf c).active = true ∧ (t.bistOf c).row = b.row ∧ held t)) ∧
    (b.active = true → b.failed = none → b.row < 512 → s.rgnActive c.region = true →
      Answers (.bistRowRelease c true) s (fun t => (t.bistOf c).active = false ∧ (t.bistOf c).row = (b.row + 1) % 512 ∧
        (t.bistOf c).redirect = none ∧ held t) ∧
      Answers (.bistRowRelease c false) s (fun t => (t.bistOf c).active = false ∧ (t.bistOf c).failed = some b.row ∧
        (t.bistOf c).redirect = some b.row ∧ t.bit (.spd c.region) SPD_BIST_STATUS 22 = true ∧ held t))
/-! ### Attention and token pipelines (chapter 5) -/

/-- The register commands of a pipeline (R115, R119, R135 to R137): a push puts the staged descriptor at the end of its queue and
follows it in the free count; ATP_PHASE sets the phase and starts that phase's done count again; STOP, GO, FLUSH and ERR_ACK do what
Table 5-11 says; the end of a clear leaves every register at its reset value; and no other master writes the window. -/
def Obligations.PipelineRegisterResults : Prop :=
  ∀ (s : State) (r : RegionNo) (v : Word32),
    let m := Master.regionController r
    (s.bit (.atp r) ATP_STATUS 9 = false →
      (bitOf v 0 = true →
        ((s.atp r).dq.length < 4096 → (bitsOf (s.staged r .att) 0 4 = 2 → bitOf (s.staged r .att) 14 = true ∨
            s.busyAt (s.owner r) (bitsOf (s.staged r .att) 16 48) = false) → Answers (.atpDqPush m r v) s (fun t => (t.atp r).dq = (s.atp r).dq ++ [s.staged r .att] ∧
          t.fld (.atp r) ATP_DQ_STATUS 0 13 = 4095 - (s.atp r).dq.length ∧
          SameRegsBut [regKey (.atp r) ATP_DQ_STATUS, regKey (.atp r) ATP_STATUS] s t ∧ (∀ q, q ≠ r → t.atp q = s.atp q) ∧
          t = { s with regs := t.regs, resp := t.resp, atps := t.atps })) ∧
        ((s.atp r).aq.length < 1024 → Answers (.atpAqPush m r v) s (fun t => (t.atp r).aq = (s.atp r).aq ++ [s.staged r .app] ∧
          t.fld (.atp r) ATP_AQ_STATUS 0 13 = 1023 - (s.atp r).aq.length ∧
          SameRegsBut [regKey (.atp r) ATP_AQ_STATUS, regKey (.atp r) ATP_STATUS] s t ∧ (∀ q, q ≠ r → t.atp q = s.atp q) ∧
          t = { s with regs := t.regs, resp := t.resp, atps := t.atps })) ∧
        ((s.atp r).tq.length < 256 → Answers (.atpTqPush m r v) s (fun t => (t.atp r).tq = (s.atp r).tq ++ [s.staged r .tok] ∧
          t.fld (.atp r) ATP_TQ_STATUS 0 13 = 255 - (s.atp r).tq.length ∧
          SameRegsBut [regKey (.atp r) ATP_TQ_STATUS, regKey (.atp r) ATP_STATUS] s t ∧ (∀ q, q ≠ r → t.atp q = s.atp q) ∧
          t = { s with regs := t.regs, resp := t.resp, atps := t.atps }))) ∧
      (s.atp r = {} → Answers (.atpPhaseWrite m r v) s (fun t => t.atpPhase r = bitsOf v 0 2 ∧
        t.fld (.atp r) ATP_STATUS 6 2 = bitsOf v 0 2 ∧
        (s.atpPhase r ≠ 2 → bitsOf v 0 2 = 2 → t.rd (.atp r) ATP_JOBS_DONE = 0) ∧
        (s.atpPhase r ≠ 1 → bitsOf v 0 2 = 1 → t.rd (.atp r) ATP_APP_DONE = 0) ∧
        (s.atpPhase r ≠ 3 → bitsOf v 0 2 = 3 → t.rd (.atp r) ATP_TOK_DONE = 0) ∧
        SameRegsBut [regKey (.atp r) ATP_PHASE, regKey (.atp r) ATP_STATUS, regKey (.atp r) ATP_JOBS_DONE,
          regKey (.atp r) ATP_APP_DONE, regKey (.atp r) ATP_TOK_DONE] s t ∧ OnlyRegs s t)) ∧
      (s.unitState r .tok ≠ 1 → s.abandonToken r = s) ∧
      Answers (.atpStop m r) s (fun t => (∀ u, t.unitState r u = 3) ∧
        SameRegsBut [regKey (.atp r) ATP_STATUS] (s.abandonToken r) t ∧ OnlyRegs (s.abandonToken r) t) ∧
      ((∀ u ∈ allUnits, s.unitState r u = 3) →
        Answers (.atpGo m r) s (fun t => (∀ u, t.unitState r u = if u.queue (s.atp r) ≠ [] ∧ s.atpPhase r = u.phase then 1 else 0) ∧
          SameRegsBut [regKey (.atp r) ATP_STATUS] s t ∧ OnlyRegs s t) ∧
        Answers (.atpFlush m r) s (fun t => (∀ u : AtpUnit, u.queue (t.atp r) = []) ∧ (∀ u, t.unitState r u = 3) ∧
          (t.atp r).masks = (s.atp r).masks ∧ t = { s with regs := t.regs, resp := t.resp, atps := t.atps })) ∧
      Answers (.atpErrAck m r) s (fun t => t.bit (.atp r) ATP_STATUS 8 = false ∧ SameRegsBut [regKey (.atp r) ATP_STATUS] s t ∧
        OnlyRegs s t)) ∧
    (s.bit (.atp r) ATP_STATUS 9 = true → Answers (.atpClearDone r) s (fun t =>
      (∀ o < 0x10000, t.rd (.atp r) o = regReset (regKey (.atp r) o)) ∧
      (∀ k, k < regKey (.atp r) 0 ∨ regKey (.atp r) 0x10000 ≤ k → tabGet regReset t.regs k = tabGet regReset s.regs k) ∧
      t = { s with regs := t.regs })) ∧
    (∀ n : Master, n ≠ m → ∀ i ∈ [Instr.atpDqPush n r v, .atpAqPush n r v, .atpTqPush n r v, .atpPhaseWrite n r v, .atpStop n r,
      .atpGo n r, .atpFlush n r, .atpErrAck n r], Answers i s (fun t => t = { s with resp := t.resp } ∧ t.resp.permission = true))

/-- ATTENTION_JOB, MERGE, APPEND, COMMIT and TOKEN (R119, R123, R124, R126, R127, R130 to R132): each takes its work off the head of
its queue in its own phase, does it and counts it. A job of the shape R119 and R120 ask for runs over its pages; a merge whose
splits have all arrived writes its merged rows and clears their mask; an append encodes its rows one after another and a commit
copies its node; a plain token is sampled from the distribution of its logits row, and a NaN logit ends the descriptor with status
1 and error 0x0B. -/
def Obligations.PipelineWorkResults : Prop :=
  ∀ (s : State) (r : RegionNo) (d : Word256),
    (∀ ds run rest, s.unitTakes r .att = true → (s.atp r).dq = d :: ds → descType d = 1 → jobRun ds = some (run, rest) →
      let k := jobCheck (s.fld (.atp r) ATP_CFG 16 14) (s.sessionLens (s.owner r) (bitsOf d 32 16)) d run
      k.1 = 0 → Answers (.attentionJob r) s (Settles (((s.putQueue r .att rest).runJob r k.2).bump (.atp r) ATP_JOBS_DONE))) ∧
    (∀ q, s.unitTakes r .att = true → (s.atp r).dq = d :: q → descType d = 3 → mergeReserved d = false →
      let n := mergeOf d
      let c := s.lclass r n.lclass
      let s0 := s.setAtp r { (s.atp r) with masks := natSet (s.atp r).masks n.mergeId 0 }
      let p := s0.readPartials r n c.dv n.nsplit
      let outs := (List.range n.rows).map (fun i => rowOut 1 (mergedRow p.1.1 i))
      let w := p.2.writeOutputs r n.o c.dv outs []
      natGet (s.atp r).masks n.mergeId % 2 ^ n.nsplit = 2 ^ n.nsplit - 1 → c.ok = true → n.o % 256 = 0 → n.part % 256 = 0 →
      s.tier0 (s.owner r) n.o (n.rows * outStride c.dv) = true →
      s.tier0 (s.owner r) n.part ((n.nsplit - 1) * n.stride * 256 + n.rows * (outStride c.dv + 8)) = true →
      p.1.2 = 0 → w.1 = .ok → Answers (.merge r) s (Settles (((w.2.bump (.atp r) ATP_EVT_NANROW
        ((outs.filter (fun o => o.any isNan32)).length)).bump (.atp r) ATP_JOBS_DONE).putQueue r .att q))) ∧
    (∀ rest u, s.unitTakes r .app = true → (s.atp r).aq = d :: rest → appReserved d = false →
      let x := appOf d
      x.page % 65536 = 0 → s.nearPlace (s.owner r) x.page = true → s.sharedAt (s.owner r) x.page = false →
      (descType d = 5 → (x.side = true ∨ x.pos % 256 + x.n ≤ 256) → s.appendTokens r x x.n = (0, u) →
        Answers (.append r) s (Settles (u.putQueue r .app rest))) ∧
      (descType d = 6 → x.src % 65536 = 0 → s.nearPlace (s.owner r) x.src = true → s.commitNode r x = (.done, u) →
        Answers (.commit r) s (Settles (u.putQueue r .app rest)))) ∧
    (∀ rest, s.unitTakes r .tok = true → (s.atp r).tq = d :: rest → descType d = 8 → tokReserved d = false →
      let x := tokOf d
      let c := (s.ctx (s.owner r) x.session).getD { id := 0 }
      let touched := s.touchRows r x.vocab [x.logits]
      let p := distOf c.temp c.topP c.topK (s.logitRow r x.logits x.vocab).1
      x.kind = 0 → x.nodes = 1 → x.out % 32 = 0 → touched.1 = 0 →
      (∀ q, p = some q → Answers (.token r) s (fun t => t = touched.2.endToken r x 0
        (some (resultRecord x 0 [sampleOf q (drawU c.seed 0 (x.pos + 1) 1)] [0] [])) rest)) ∧
      (p = none → Answers (.token r) s (fun t => t = touched.2.endToken r x 0x0B (some (resultRecord x 1 [] [] [])) rest)))
/-! ### Local HBM and the memory tiers (chapter 6) -/

/-- HBM_ACCESS, HBM_SCRUB_TICK, HBM_CONTROLLER_FAILED and self-refresh (R138 to R142, R163): a clean read of one granule answers the
stored bytes, one of a granule written under another key answers what these decrypt to under its own, and one of a granule still STALE
answers zeros and is counted; the first write of a STALE granule leaves zeros round what it writes; the scrubber goes on to its next unit; a failed
controller says so; self-refresh is entered from Active by a controller that is quiet and left to Active. -/
def Obligations.HbmResults : Prop :=
  ∀ (s : State) (d : Dye) (a : Addr) (o n : Nat) (bs : List Byte) (h : Fin 8),
    let f := s.frame (o / 65536)
    let ctl := Win.hbm (hbmCtl o)
    (s.place d a.toNat = .hbm o → o < 2 ^ 40 → f.state ≠ 4 →
      (s.hbmReach d false o = true → 0 < n → o % 4096 + n ≤ 4096 → s.hbmAimed a.toNat (.read n) = false →
        (bitOf f.stale (o / 4096 % 16) = false → s.hbmFailed o = false →
          s.bit ctl HBM_KEYSLOTS (if f.state = 2 then 0 else f.owner.val) = true →
          (∀ u, o / 64 ≤ u → u ≤ (o + n - 1) / 64 → tabGet (fun _ => false) s.hbmBad u = false) →
          Answers (.hbmAccess d a (.read n) []) s (fun t =>
            t.resp.data = (if s.otherKey f (o / 4096) = true then takePad 0 n ((s.underKey f (o / 4096)).drop (o % 4096))
              else tabGetList byteReset s.hbm o n) ∧ t.resp.poison = false ∧
            t = { s with regs := t.regs, resp := t.resp, energyRem := t.energyRem, rglRem := t.rglRem, rglTok := t.rglTok,
                         hbmAt := t.hbmAt })) ∧
        (bitOf f.stale (o / 4096 % 16) = true →
          Answers (.hbmAccess d a (.read n) []) s (fun t => t.resp.data = List.replicate n 0 ∧
            t.rd ctl HBM_STALE_RD = s.rd ctl HBM_STALE_RD + 1 ∧
            t.rdP .tier d TIER_D_STALE_RD = s.rdP .tier d TIER_D_STALE_RD + 1 ∧
            t = { s with regs := t.regs, resp := t.resp, energyRem := t.energyRem, rglRem := t.rglRem, rglTok := t.rglTok,
                         hbmAt := t.hbmAt }))) ∧
      (s.hbmReach d true o = true → bs ≠ [] → o % 4096 + bs.length ≤ 4096 → s.hbmFailed o = false →
        (bitOf f.stale (o / 4096 % 16) = true ∨ s.otherKey f (o / 4096) = false) →
        Answers (.hbmAccess d a (.write bs) []) s (fun t =>
          (∀ i (h : i < bs.length), tabGet byteReset t.hbm (o + i) = bs[i]) ∧
          (∀ k, k < o ∨ o + bs.length ≤ k → tabGet byteReset t.hbm k =
            if bitOf f.stale (o / 4096 % 16) = true ∧ k / 4096 = o / 4096 then 0 else tabGet byteReset s.hbm k) ∧
          bitOf (t.frame (o / 65536)).stale (o / 4096 % 16) = false ∧ t.sram = s.sram ∧ t.acc = s.acc ∧ t.cores = s.cores))) ∧
    (s.fld (.hbm h) HBM_STATUS 0 2 = 1 →
      Answers (.hbmScrubTick h .clean) s (fun t => natGet t.scrubAt h.val = (natGet s.scrubAt h.val + 1) % 2 ^ 31 ∧
        (∀ k, k ≠ h.val → natGet t.scrubAt k = natGet s.scrubAt k) ∧ t = { s with scrubAt := t.scrubAt }) ∧
      (s.hbmQuiet h = true → Answers (.hbmSelfRefreshEntry h) s (fun t => t.fld (.hbm h) HBM_STATUS 0 2 = 2 ∧
        SameRegsBut [regKey (.hbm h) HBM_STATUS, regKey .pwr PWR_STATUS] s t ∧ OnlyRegs s t))) ∧
    (s.fld (.hbm h) HBM_STATUS 0 2 = 2 → Answers (.hbmSelfRefreshExit h) s (fun t => t.fld (.hbm h) HBM_STATUS 0 2 = 1 ∧
      SameRegsBut [regKey (.hbm h) HBM_STATUS, regKey .pwr PWR_STATUS] s t ∧ OnlyRegs s t)) ∧
    (s.fld (.hbm h) HBM_STATUS 0 2 ≠ 3 → s.ptes = [] → s.shared = [] →
      (∀ k : Fin 8, k.val / 4 ≠ h.val / 4 → s.fld (.hbm k) HBM_STATUS 0 2 ≠ 3) →
      Answers (.hbmControllerFailed h) s (fun t => t.fld (.hbm h) HBM_STATUS 0 2 = 3 ∧
        SameRegsBut [regKey (.hbm h) HBM_STATUS, regKey .ldg LDG_FOLDED] s t ∧ RegsAndLedger s t))

/-- The commands of the tier manager (R147 to R150, R154): a publish takes the lowest index that may be issued and is passed to the
other packages; at a package the session's shared pages become a prefix record with count 2; its result is the record's handle; a
release gives the handle's reference back and raises its generation; host buffers are added once and withdrawn while they hold no
page. -/
def Obligations.PrefixResults : Prop :=
  ∀ (s : State) (d : Dye) (session : BitVec 16) (len : Nat) (index : Word32) (a h : Word64) (c : Ctx),
    (s.tierBusy d = false → s.isFront d = true → s.ctx d session.toNat = some c → 0 < len → len ≤ c.len → c.cold = false →
      s.sessionBusy d c.id = false → Answers (.publish d session len) s (fun t => t.publishing = s.publishing ++ [(d, s.freeIndex d)] ∧
        t.linkTx = s.linkTx ++ (s.peers d).map (fun sl => .innkeeper sl 3 [d.val, session.toNat, len, s.freeIndex d]) ∧
        t.rdP .tier d TIER_D_RESULT0 = 0 ∧ SameRegsBut [regKey .tier (pageOff d TIER_D_RESULT0)] s t ∧
        t = { s with regs := t.regs, publishing := t.publishing, linkTx := t.linkTx })) ∧
    ((s.prefixRec d index.toNat).live = false → s.ctx d session.toNat = some c → s.sessionPtes d session.toNat = [] →
      index.toNat / 1024 < (tabGet (fun _ => []) s.kind5 (16 + d.val)).length →
      Answers (.publishAtPackage d session len index) s (fun t =>
        t.prefixRec d index.toNat = { live := true, len := len, gen := (s.prefixRec d index.toNat).gen, count := 2, home := c.home } ∧
        t.prefixRefs = s.prefixRefs ++ [(d, session.toNat, index.toNat)] ∧
        t = { s with prefixes := t.prefixes, prefixRefs := t.prefixRefs })) ∧
    (s.publishing.contains (d, index.toNat) = true → (s.prefixRec d index.toNat).live = true →
      Answers (.publishResult d index) s (fun t => t.rd64 .tier (pageOff d TIER_D_RESULT) = s.handleOf d index.toNat ∧
        t.rdP .tier d TIER_D_RESULT0 = 256 ∧ t.publishing = s.publishing.filter (fun p => p ≠ (d, index.toNat)) ∧
        t = { s with regs := t.regs, publishing := t.publishing })) ∧
    (∀ i, s.tierBusy d = false → s.isFront d = true → s.handleIndex d h = some i → 1 < (s.prefixRec d i).count →
      (s.prefixRec d i).gen < 0xFFFF → i / 1024 < (tabGet (fun _ => []) s.kind5 (16 + d.val)).length →
      Answers (.release d h) s (fun t => t.prefixRec d i = { (s.prefixRec d i) with
          gen := (s.prefixRec d i).gen + 1, released := true, count := (s.prefixRec d i).count - 1 } ∧ t.handleIndex d h = none ∧
        t.rdP .tier d TIER_D_RESULT0 = 256 ∧ t.linkTx = s.linkTx ++ (s.peers d).map (fun sl => .control sl (.released d i)) ∧
        t = { s with regs := t.regs, prefixes := t.prefixes, linkTx := t.linkTx })) ∧
    (s.tierBusy d = false →
      (a.toNat % 65536 = 0 → (∀ b ∈ s.hostBufs, ¬(b.dye = d ∧ b.addr = a)) → Answers (.addHostBuffer d a) s (fun t =>
        t.hostBufs = s.hostBufs ++ [{ dye := d, addr := a }] ∧ t.rdP .tier d TIER_D_RESULT0 = 256 ∧
        SameRegsBut [regKey .tier (pageOff d TIER_D_RESULT0)] s t ∧ t = { s with regs := t.regs, hostBufs := t.hostBufs })) ∧
      (∀ b, s.hostBufs.find? (fun b => b.dye == d && b.addr == a) = some b → b.used = false → (d ≠ 0 ∨ a ≠ 0) →
        Answers (.withdrawHostBuffer d a) s (fun t => (∀ x ∈ t.hostBufs, ¬(x.dye = d ∧ x.addr = a)) ∧
          t.hostBufs.length = s.hostBufs.length ∧ t.rdP .tier d TIER_D_RESULT0 = 256 ∧
          t = { s with regs := t.regs, hostBufs := t.hostBufs })))

/-- Moving pages (R143, R153, R157 to R159): while no move of admitted work is in progress a demotion begins with the page of a suspend
hint; a promotion begins with its session's pages below tier 1, and pins them; a page whose move ends well lies where it went, with its
check words, and is no longer busy; a pin whose counter value has come is gone. -/
def Obligations.PageMoveResults : Prop :=
  ∀ (s : State) (d : Dye) (session : Nat) (tier : Fin 4),
    (∀ mv p, let u := s.endSuspends
      (∀ m ∈ s.pageMoves, m.cause ≠ 0) → tier.val < 3 → u.suspendPage tier.val = some mv →
      u.hasRoom u.freeTotal mv.1.toTier = true → s.movePte mv.1 = some p → p.busy = false →
      (∀ x ∈ s.moveSessions mv.1, s.attending x.1 x.2 = false) →
      Answers (.backgroundDemotion tier) s (fun t => t.pageMoves = s.pageMoves ++ [{ mv.1 with cause := 2 }] ∧
        t.movePte mv.1 = some { p with busy := true } ∧ t.sram = s.sram ∧ t.acc = s.acc)) ∧
    (∀ h, s.resumeHint d session = some h → h.started = false → h.start ≤ s.now → s.belowTier1 d session ≠ [] →
      Answers (.promotionStart d session) s (fun t =>
        (∀ e ∈ s.belowTier1 d session, PagePin.mk d session e.1.session.isNone (pageKey e.1)
          (h.at_ + h.x * 1000 + s.fld .tier TIER_CFG 0 16 * 1000) ∈ t.pins) ∧
        { h with started := true } ∈ t.hints ∧
        (∃ ms, t.pageMoves = s.pageMoves ++ ms ∧ ∀ m ∈ ms, m.dye = d ∧ 1 < m.fromTier ∧ m.toTier = 1 ∧ m.cause = 3) ∧
        (∀ e p, s.belowTier1 d session = [e] → s.movePte e.1 = some p → p.busy = false →
          (∀ x ∈ s.moveSessions e.1, s.attending x.1 x.2 = false) →
          t.pageMoves = s.pageMoves ++ [{ e.1 with cause := 3 }] ∧ t.movePte e.1 = some { p with busy := true }) ∧
        t.sram = s.sram ∧ t.acc = s.acc)) ∧
    (∀ mv m p dest, s.pageMoves[mv]? = some m → m.orphan = none → m.cause = 0 → m.session = some session → m.fromTier = 1 →
      m.toTier = 3 → m.layer < 4096 → m.page < 16384 → session < 65536 → s.movePte m = some p → p.tier = 1 →
      s.destOk m dest = true → s.forkWait = [] → (∀ h, s.resumeHint m.dye session = some h → h.started = false) →
      (∀ c, s.ctx m.dye session = some c → c.dir.root ≠ 0 ∧ natGet c.dir.l1 m.layer ≠ 0 ∧
        natGet c.dir.l2 (m.layer * 64 + m.page / 256) ≠ 0) →
      let b := ({ s with pageMoves := s.pageMoves.eraseIdx mv } : State).pageBytes m.dye p
      b.1.2 = false →
      Answers (.pageMoveComplete mv ⟨false, none⟩ dest) s (fun t =>
        t.movePte m = some { p with tier := 3, frame := dest, busy := false } ∧ t.pageMoves = s.pageMoves.eraseIdx mv ∧
        (t.frame (p.frame.toNat % 2 ^ 24)).state = 0 ∧ t.rdP .tier m.dye TIER_D_EVICT = s.rdP .tier m.dye TIER_D_EVICT + 1 ∧
        tabGetList byteReset t.farPages (farKey 3 dest.toNat) 65536 = b.1.1 ∧
        tabGetList (fun _ => 0) t.checkRecs ((3 * 2 ^ 32 + dest.toNat) * 16) 16 = crcs b.1.1 ∧
        t.sram = s.sram ∧ t.acc = s.acc)) ∧
    (∀ mv m p dest, s.pageMoves[mv]? = some m → m.orphan = none → m.cause = 3 → m.session = some session → m.fromTier = 3 →
      m.toTier = 1 → m.layer < 4096 → m.page < 16384 → session < 65536 → s.movePte m = some p → p.tier = 3 →
      s.destOk m dest = true → s.forkWait = [] →
      (∀ c, s.ctx m.dye session = some c → c.dir.root ≠ 0 ∧ natGet c.dir.l1 m.layer ≠ 0 ∧
        natGet c.dir.l2 (m.layer * 64 + m.page / 256) ≠ 0 ∧ s.kvClass m.dye c.cls = false) →
      let b := ({ s with pageMoves := s.pageMoves.eraseIdx mv } : State).pageBytes m.dye p
      b.1.2 = false → crcs (takePad 0 65536 b.1.1) = tabGetList (fun _ => 0) s.checkRecs ((3 * 2 ^ 32 + p.frame.toNat) * 16) 16 →
      Answers (.pageMoveComplete mv ⟨false, none⟩ dest) s (fun t =>
        t.movePte m = some { p with tier := 1, frame := dest, busy := false } ∧ t.pageMoves = s.pageMoves.eraseIdx mv ∧
        (t.frame (dest.toNat % 2 ^ 24)).state = 1 ∧ (t.frame (dest.toNat % 2 ^ 24)).owner = m.dye ∧ t.sram = s.sram ∧ t.acc = s.acc)) ∧
    (∀ mv read dest, s.pageMoves[mv]? = none → Answers (.pageMoveComplete mv read dest) s (fun t => t = s)) ∧
    Answers (.pinExpiry d session) s (fun t => (∀ p ∈ t.pins, p.dye = d → p.session = session → s.now < p.until_) ∧
      (∀ p ∈ s.pins, ¬(p.dye = d ∧ p.session = session ∧ p.until_ ≤ s.now) → p ∈ t.pins) ∧ t = { s with pins := t.pins })
/-! ### Couriers (chapter 7) -/

/-- The register commands of a Courier (R165, R166, R178 to R181): a push puts the staged descriptor at the end of the queue; a phase
written to an idle Courier without work is taken; STOP stops it and raises COU_GEN where it waits on others; GO, FLUSH and ERR_ACK do
what Table 7-8 says; the end of a clear leaves every register at its reset value; and no other master writes the window. -/
def Obligations.CourierRegisterResults : Prop :=
  ∀ (s : State) (r : RegionNo) (v : Word32),
    let m := Master.regionController r
    let c := s.cou r
    (s.couClearing r = false →
      (bitOf v 0 = true → c.queue.length < 32 → ¬(s.couPhase r = 1 ∧ s.couState r = cIDLE) →
        Answers (.routePush m r v) s (fun t => (t.cou r).queue = c.queue ++
            [BitVec.ofNat 512 (packCodes 32 ((s.rdList (.cou r) COU_DW 16).map BitVec.toNat))] ∧
          t.fld (.cou r) COU_Q_STATUS 0 6 = 31 - c.queue.length ∧ SameRegsBut [regKey (.cou r) COU_Q_STATUS] s t ∧
          (∀ q, q ≠ r → t.cou q = s.cou q) ∧ t = { s with regs := t.regs, resp := t.resp, cous := t.cous })) ∧
      (bitOf v 0 = true → c.queue.length < 32 → c.cur = none → s.couPhase r = 1 → s.couState r = cIDLE →
        Answers (.routePush m r v) s (fun t => (t.cou r).queue = c.queue ++
            [BitVec.ofNat 512 (packCodes 32 ((s.rdList (.cou r) COU_DW 16).map BitVec.toNat))] ∧ t.couState r = cSELECT ∧
          (∀ q, q ≠ r → t.cou q = s.cou q) ∧ t = { s with regs := t.regs, resp := t.resp, cous := t.cous })) ∧
      (bitOf v 0 = false → Answers (.routePush m r v) s (fun t => t = { s with resp := t.resp })) ∧
      (c.cur = none → c.queue = [] → s.couState r = cIDLE → bitsOf v 0 3 < 5 →
        Answers (.couPhaseWrite m r v) s (fun t => t.couPhase r = bitsOf v 0 3 ∧ t.fld (.cou r) COU_STATUS 4 3 = bitsOf v 0 3 ∧
          t.couState r = cIDLE ∧ SameRegsBut [regKey (.cou r) COU_PHASE, regKey (.cou r) COU_STATUS] s t ∧ OnlyRegs s t)) ∧
      Answers (.couStop m r) s (fun t => t.couState r = cSTOPPED ∧ (t.cou r).queue = c.queue ∧
        (s.couState r ∈ [cCOUNT, cGRANT, cDATA, cRETURN, cCOMBINE] → t.couGen r = (s.couGen r + 1) % 256) ∧
        (s.couState r ∈ [cIDLE, cSELECT, cWAIT] ∨ (s.couState r = cHELD ∧ c.heldIn ≠ 2 ∧ c.heldIn ≠ 4) →
          t.couGen r = s.couGen r ∧ t.cou r = c) ∧
        t = { s with regs := t.regs, resp := t.resp, cous := t.cous }) ∧
      (s.couState r = cSTOPPED →
        (s.bit (.cou r) COU_CFG 1 = false → s.couUnfinished r (s.couPhase r) = false → c.cur = none →
          Answers (.couGo m r) s (fun t => t.couState r = cIDLE ∧ SameRegsBut [regKey (.cou r) COU_STATUS] s t ∧ OnlyRegs s t)) ∧
        Answers (.couFlush m r) s (fun t => t.cou r = { c with queue := [] } ∧ t.fld (.cou r) COU_Q_STATUS 0 6 = 32 ∧
          SameRegsBut [regKey (.cou r) COU_Q_STATUS] s t ∧ t = { s with regs := t.regs, resp := t.resp, cous := t.cous })) ∧
      Answers (.couErrAck m r) s (fun t => t.bit (.cou r) COU_STATUS 9 = false ∧ SameRegsBut [regKey (.cou r) COU_STATUS] s t ∧
        OnlyRegs s t)) ∧
    (s.couClearing r = true → Answers (.couClearDone r) s (fun t =>
      (∀ o < 0x10000, t.rd (.cou r) o = regReset (regKey (.cou r) o)) ∧
      (∀ k, k < regKey (.cou r) 0 ∨ regKey (.cou r) 0x10000 ≤ k → tabGet regReset t.regs k = tabGet regReset s.regs k) ∧
      t = { s with regs := t.regs })) ∧
    (∀ n : Master, n ≠ m → ∀ i ∈ [Instr.routePush n r v, .couPhaseWrite n r v, .couStop n r, .couGo n r, .couFlush n r,
      .couErrAck n r], Answers i s (fun t => t = { s with resp := t.resp } ∧ t.resp.permission = true))

/-- The work of a Courier (R167 to R177): SELECT serves the descriptor at the head of its queue; a count message is kept under its
source; a grant of a home that has not granted yet sends the rows it grants; a row goes to its expert's list or to the pool and is
noted with its tag; a return row goes to its slot of the return table. Messages of another generation are discarded, and so are grants
and rows of another layer or step. -/
def Obligations.CourierResults : Prop :=
  ∀ (s : State) (r : RegionNo) (gen : ExTag),
    let c := s.cou r
    (∀ d q, s.couRuns r = true → s.couPhase r = 1 → c.active = false → c.queue = d :: q → routeBad d = false →
      let x := routeOf d
      let rd := s.readRecord r x.record
      let rr := rd.1.2
      let e := rd.2.selectTokens r x rr x.nTok
      s.routeAddrs r x = true → rd.1.1 = 0 → rr.magic = 0x4F43 → rr.version = 1 → rr.layer.toNat = x.layer → e.1.1 = 0 →
      let c1 : CouSt := { queue := q, cur := some d, route := some rr, failed := false, selDone := true, sels := e.1.2.1,
                          nans := e.1.2.2, counts := c.counts, lastLayer := some x.layer }
      Answers (.select r) s (Settles (((((e.2.setCou r c1).setFld (.cou r) COU_Q_STATUS 0 6 (32 - q.length)).bump
        (.cou r) COU_EVT_TOKENS x.nTok).bump (.cou r) COU_EVT_NANTOKEN e.1.2.2.length).setCouState r cSELECT))) ∧
    (s.couTakes r gen = true →
      (∀ pk rg l, s.couPhase r ≠ 2 →
        (∀ y ∈ c.counts, ¬(y.layer = gen.layer ∧ y.start = gen.start ∧ y.pkg = pk ∧ y.rgn = rg)) →
        Answers (.countMessage r pk rg gen l) s (fun t =>
          (t.cou r).counts = c.counts ++ [{ layer := gen.layer, start := gen.start, pkg := pk, rgn := rg, counts := l }] ∧
          (∀ q, q ≠ r → t.cou q = s.cou q) ∧ t = { s with cous := t.cous }))) ∧
    (s.couOurs r gen = true →
      (∀ pk rg l d rr ps, s.couRuns r = true → s.couPhase r = 2 → c.selDone = true → (pk, rg) ∉ c.grants → c.grantQ = [] →
        c.cur = some d → c.route = some rr → c.placed = some ps →
        let u := l.foldl (fun u g => u.sendRows r (routeOf d) rr (pk, rg) g)
          ((s.setCou r { c with grantQ := [(pk, rg, l)] }).setCou r { c with grants := c.grants ++ [(pk, rg)] })
        Answers (.grantMessage r pk rg gen l) s
          (Settles (if (u.cou r).active = true then u.setCouState r (u.dispatchState r) else u))) ∧
      (∀ ex row pool gid rank data rr ps, c.route = some rr → c.placed = some ps →
        let a := if pool then (s.rd64 (.cou r) COU_OVF_IN_L).toNat % 2 ^ 48 + row * (dispOf rr)
          else ((rr.experts[ex]?).map (fun e => e.inAddr.toNat)).getD 0 + 256 + row * (dispOf rr)
        let w := s.write (.courier r) a (takePad 0 (dispOf rr) data)
        let g : CouTag := { expert := ex, row := row, pool := pool, gid := gid, rank := rank }
        w.1 = .ok → Answers (.dispatchRow r gen ex row pool gid rank data true) s
          (Settles (((w.2.setCou r { (w.2.cou r) with tags := c.tags ++ [g] }).writeHeaders r).couProgress r))) ∧
      (∀ n rank data ok d rr, c.cur = some d → c.route = some rr → (n, rank) ∉ c.returned →
        let w := s.write (.courier r) ((routeOf d).res + (n * rr.k + rank) * (combOf rr)) (takePad 0 (combOf rr) data)
        w.1 = .ok → Answers (.returnRow r gen n rank data ok) s (Settles ((w.2.setCou r { (w.2.cou r) with
          returned := c.returned ++ [(n, rank)], poisoned := if ok then c.poisoned else c.poisoned ++ [n] }).combineReady r)))) ∧
    (s.couTakes r gen = false → ∀ a b l h ex row pool gid rank data ok, ∀ i ∈ [Instr.countMessage r a b gen l,
      .grantMessage r a b gen h, .dispatchRow r gen ex row pool gid rank data ok, .returnRow r gen a b data ok],
      Answers i s (fun t => t = s)) ∧
    (s.couOurs r gen = false → ∀ a b h ex row pool gid rank data ok, ∀ i ∈ [Instr.grantMessage r a b gen h,
      .dispatchRow r gen ex row pool gid rank data ok, .returnRow r gen a b data ok], Answers i s (fun t => t = s))
/-! ### Drovers and weights (chapter 8) -/

/-- Streams (R186, R187, R189 to R192): the first stream that may start takes a slot and its buffer; the stream whose turn it is takes a
granule whose check word is right, laid core by core; a stream whose last byte is written ends; one that has not ended at its ready
point is late; LAYER_END of a layer releases the buffers it consumed; and a cancellation of this plan skips a stream that has not
started. -/
def Obligations.StreamResults : Prop :=
  ∀ (s : State) (e : Fin 8) (d : Dye) (stream : BitVec 16) (layer : BitVec 16) (start : Word64),
    let c := s.drv e d
    let status := [regKey (.drv e) (pageOff d DRV_D_STATUS), regKey (.drv e) DRV_STATUS]
    (∀ x i, s.drvStopped e d = false → c.clearing = false → s.activeOn e < 8 →
      (s.table e d).zipIdx.find? (fun p => s.mayStart e d (s.table e d) p.2 p.1) = some (x, i) → s.entryBad e d x = false →
      let y := streamOf x
      streamAddrBad y = false → s.wstate (if y.isShared then 0 else d) y.wset = wVERIFIED →
      (y.mode = 1 → y.len = y.nCores * y.perCore * 32) →
      Answers (.streamStart e d) s (fun t =>
        (t.drv e d).active = c.active ++ [{ idx := i, entry := x, start := s.startFor e d y }] ∧
        (t.drv e d).held = c.held ++ [{ idx := i, buf := y.buf, layer := y.layer, start := s.startFor e d y }] ∧
        SameRegsBut status s t ∧ t = { s with regs := t.regs, drvs := t.drvs })) ∧
    (∀ a r g, s.drvStopped e d = false → c.nextTurn = some a → (c.midTurn = true ∨ s.mayTake e d = true) →
      let y := streamOf a.entry
      let left := y.len - 4096 * a.granule
      let x := (s.turnOn e d a.key).read (.drover e d) (y.src + 4096 * a.granule) 4096
      let w := x.2.read (.drover e d) (y.crc + 4 * a.granule) 4
      let s1 := (w.2.bump (.drv e) DRV_EVT_KIB_STORED 4).bumpP (.drv e) d DRV_D_KIB_STORED 4
      let bytes := x.1.data.take (min left 4096)
      let u := s1.layRaw e d r y 65 a.written bytes
      let v := u.2.turnEnd e d
      y.stream = stream.toNat → s.wstate (if y.isShared then 0 else d) y.wset = wVERIFIED → s.streamRegion e d y = some r →
      y.mode = 1 → left ≠ 0 → x.1.refused = false → x.1.poison = false → w.1.refused = false →
      s.onDie e d (y.src + 4096 * a.granule) (min left 4096) = true → s.onDie e d (y.crc + 4 * a.granule) 4 = true →
      (crc32c x.1.data).toNat = leNat w.1.data → g.crc1 = true → g.poison1 = false → u.1 = 0 →
      Answers (.chunkFetch e d stream g) s (Settles (v.setDrv e d { (v.drv e d) with
        active := (v.drv e d).active.map (fun z => if z.key = a.key then { a with
          written := a.written + bytes.length, complete := decide (y.len ≤ 4096 * (a.granule + 1)), granule := a.granule + 1 }
          else z) }))) ∧
    (∀ a, c.active.find? (fun a => (streamOf a.entry).stream == stream.toNat && a.complete) = some a →
      Answers (.streamEnd e d stream) s (fun t => (t.drv e d).active = c.active.filter (fun y => y.key != a.key) ∧
        (t.drv e d).ended = c.ended ++ [a.key] ∧ (t.drv e d).held = c.held ∧ SameRegsBut status s t ∧
        t = { s with regs := t.regs, drvs := t.drvs })) ∧
    (∀ x i, (s.table e d).zipIdx.find? (fun p => (streamOf p.1).stream == stream.toNat) = some (x, i) →
      let k := (s.startFor e d (streamOf x), i)
      (c.over k = false → s.planFor e d (streamOf x) ≠ 0 → s.readyPoint e d (streamOf x) ≤ s.now →
        Answers (.streamReadyPoint e d stream) s (fun t =>
          t.rdP (.drv e) d DRV_D_LATE = s.rdP (.drv e) d DRV_D_LATE + 1 ∧
          SameRegsBut [regKey (.drv e) (pageOff d DRV_D_LATE), regKey .ldg LDG_FOLDED] s t ∧ RegsAndLedger s t)) ∧
      (start.toNat = k.1 → (∀ a ∈ c.active, a.key ≠ k) → k ∉ c.ended → k ∉ c.failed →
        Answers (.cancellation e d stream start) s (fun t => (t.drv e d).skipped = c.skipped ++ [k] ∧
          (t.drv e d).released = c.released ++ [k] ∧ t.rdP (.drv e) d DRV_D_CANCELLED = s.rdP (.drv e) d DRV_D_CANCELLED + 1 ∧
          SameRegsBut (regKey (.drv e) (pageOff d DRV_D_CANCELLED) :: status) s t ∧
          t = { s with regs := t.regs, drvs := t.drvs, cancels := t.cancels }))) ∧
    Answers (.bufferRelease e d layer) s (fun t =>
      (∀ h ∈ (t.drv e d).held, ¬(h.layer = layer.toNat ∧ s.layerEnded d h.start h.layer = true)) ∧
      (∀ h ∈ c.held, h.layer ≠ layer.toNat ∨ s.layerEnded d h.start h.layer = false → h ∈ (t.drv e d).held) ∧
      (∀ h ∈ c.held, h.layer = layer.toNat → s.layerEnded d h.start h.layer = true → (h.start, h.idx) ∈ (t.drv e d).released) ∧
      t = { s with drvs := t.drvs })

/-- A Drover's registers (R187, R195, R199, Tables 8-5 to 8-7): STOP forgets the progress of active streams and GO lets a stopped
context go on; ERR_ACK clears ERR; only the Innkeeper writes the plan, which becomes its lane's; shares stay at 256 or below; a dye clear leaves the page at
its reset values. -/
def Obligations.DroverControlResults : Prop :=
  ∀ (s : State) (e : Fin 8) (d : Dye) (m : Master) (a : Addr) (v : Word32) (replay : Bool),
    let c := s.drv e d
    let status := [regKey (.drv e) (pageOff d DRV_D_STATUS), regKey (.drv e) DRV_STATUS]
    let sum := (((List.finRange 16).filter (· ≠ d)).map (fun q => s.fld (.drv e) (DRV_SHARE + 4 * q.val) 0 9)).sum + bitsOf v 0 9
    ((m = .vf 0 ∨ ∃ r, m = .regionController r ∧ ((s.owner r = d ∧ regionDie r = engineDie e) ∨ s.owner r = 0)) →
      Answers (.drvStop m e d) s (fun t => t.drvStopped e d = true ∧
        (∀ x ∈ (t.drv e d).active, x.granule = 0 ∧ x.carry = [] ∧ x.written = 0 ∧ x.complete = false) ∧
        (t.drv e d).active.map (·.key) = c.active.map (·.key) ∧ SameRegsBut status s t ∧
        t = { s with regs := t.regs, resp := t.resp, drvs := t.drvs }) ∧
      (s.drvStopped e d = true → Answers (.drvGo m e d replay) s (fun t => t.drvStopped e d = false ∧ SameRegsBut status s t ∧
        OnlyRegs s t)) ∧
      Answers (.drvErrAck m e d) s (fun t => t.bit (.drv e) (pageOff d DRV_D_STATUS) 4 = false ∧
        SameRegsBut [regKey (.drv e) (pageOff d DRV_D_STATUS)] s t ∧ OnlyRegs s t)) ∧
    Answers (.drvPlanWrite .innkeeper e d a) s (fun t => t.planAt e d = a.toNat ∧
      (if s.planLane e d a.toNat = true then (t.drv e d).planP = a.toNat ∧ (t.drv e d).planD = c.planD
        else (t.drv e d).planD = a.toNat ∧ (t.drv e d).planP = c.planP) ∧
      (t.drv e d).active = c.active ∧ (t.drv e d).held = c.held ∧
      SameRegsBut ([regKey (.drv e) (pageOff d DRV_D_PLAN_L), regKey (.drv e) (pageOff d (DRV_D_PLAN_L + 4))] ++ status) s t ∧
      t = { s with regs := t.regs, resp := t.resp, drvs := t.drvs }) ∧
    (m ≠ .innkeeper → Answers (.drvPlanWrite m e d a) s (fun t => t = { s with resp := t.resp } ∧ t.resp.permission = true)) ∧
    (s.dyeOf m = 0 → (sum ≤ 256 → Answers (.drvShareWrite m e d v) s (fun t =>
        t.rd (.drv e) (DRV_SHARE + 4 * d.val) = BitVec.ofNat 32 (bitsOf v 0 9) ∧
        SameRegsBut [regKey (.drv e) (DRV_SHARE + 4 * d.val)] s t ∧ OnlyRegs s t)) ∧
      (256 < sum → Answers (.drvShareWrite m e d v) s (fun t => t = { s with resp := t.resp } ∧ t.resp.permission = true))) ∧
    ((∀ w, s.wset d w = none) → Answers (.drvDyeClear e d) s (fun t => t.drv e d = {} ∧
      (∀ o < 0x100, t.rdP (.drv e) d o = regReset (regKey (.drv e) (pageOff d o))) ∧ SameMemory s t ∧
      t = { s with regs := t.regs, drvs := t.drvs, wsets := t.wsets, drvRem := t.drvRem }))

/-- Loading weights (R183, R191, R193, R194, R196): a manifest that passes its checks begins to load the EMPTY set that it names, on every
die that the image names; a unit whose hash is right is stored and its granules' check words with it; a damaged set is repaired by
taking again the units that cover its failed granules; and a set that is to be replaced first drains. -/
def Obligations.WeightResults : Prop :=
  ∀ (s : State) (d : Dye) (w : Fin 16),
    (∀ mf x bases u, s.manifestOk d mf = true → mf.sets = [x] → s.wstate d x.wset.val = wEMPTY →
      let y := s.weightEntry d x.wset.val
      let n := (y.map (·.frames)).getD 0
      s.takeRuns d n (if x.mode = 2 then 2 else 1) ((y.map (·.dies)).getD []) [] = (some bases, u) →
      Answers (.manifestCheck d mf) s (fun t => t.wstate d x.wset.val = wLOADING ∧
        t.wset d x.wset.val = some { bases := bases, frames := n, set := x, units := mf.units } ∧
        t = { u with regs := t.regs, wsets := t.wsets })) ∧
    (∀ unit data hash ws x y k v, s.unitSet d unit = some (ws, x) → x.units[unit]? = some y →
      (x.unitsOf (s.pkgOrd d)).findIdx? (· == unit) = some k → unit ∉ x.passed → hash = y.hash → data.length = y.len →
      x.set.mode ≠ 1 → v ∈ x.unitsOf (s.pkgOrd d) → v ∉ x.passed → v ≠ unit →
      Answers (.loadUnit d unit data hash) s (fun t => t = ((s.forwardUnit d unit y.dest data).writeSet d x 3 (k * 1048576)
        data).setWset d ws (some { x with passed := x.passed ++ [unit] }))) ∧
    (∀ x, s.wset d w.val = some x → s.wstate d w.val = wDAMAGED →
      let need := s.unitsNeeded d w.val x
      (need ≠ [] → Answers (.weightSetRepair d w) s (fun t => t.wstate d w.val = wREPAIRING ∧
        t.wset d w.val = some { x with passed := (x.unitsOf (s.pkgOrd d)).filter (fun u => !need.contains u), fails := [] } ∧
        t = { s with regs := t.regs, wsets := t.wsets, linkTx := t.linkTx })) ∧
      (need = [] → x.set.mode ≠ 1 → Answers (.weightSetRepair d w) s (fun t => t.wstate d w.val = wVERIFIED))) ∧
    (∀ i, s.wstate d w.val ≠ wEMPTY → s.draining = [] → i ∈ s.items → i.dye = d →
      Answers (.weightReplacement d w) s (fun t => t.draining = [(d, w.val)] ∧
        t.bit .inn (pageOff d INN_D_STATUS) 3 = true ∧
        SameRegsBut ((List.finRange 16).map (fun q => regKey .inn (pageOff q INN_D_STATUS))) s t ∧
        t = { s with regs := t.regs, draining := t.draining }))
/-! ### The Innkeeper (chapter 9) -/

/-- What the front package's Innkeeper checks before it looks at an item's kind (R202, R203, Table 9-8): the partition is NORLA-free,
admission is open, the image is there, no package is lost, the counter is synchronised, and no recabling runs where the partition has
more packages than this one. -/
abbrev AdmissionOpen (s : State) (d : Dye) : Prop :=
  (∃ p, s.partEntry d = some p ∧ p.mode ≠ 1) ∧ s.isFront d = true ∧ s.bit .inn INN_STATUS 1 = false ∧ s.bit .inn INN_STATUS 2 = false ∧
  (s.image d).isSome = true ∧ (∀ p ∈ s.pkgTable d, p.slot ∉ s.lostSlots) ∧ 2 ≤ s.fld .cnt CNT_STATUS 0 2 ∧
  (1 < (s.pkgTable d).length → s.treatedAsLost = false ∧ s.recabling = false)

/-- The item at the front of what the ring handed over for a dye. -/
abbrev itemOf (d : Dye) (raw : Word512) : Item := { uid := 0, dye := d, raw := raw }

/-- OPEN, FORK, CLOSE, SUSPEND and RESUME (R204 to R206, R218): with admission open and the item's own conditions met, an OPEN places
its session, a FORK builds its tables from the prefix, a CLOSE without admitted items ends its session, and a hint is passed on; each
is counted as accepted. -/
def Obligations.SessionResults : Prop :=
  ∀ (s : State) (d : Dye) (e : Dye × Word512), s.inbox.find? (fun x => x.1 == d) = some e → AdmissionOpen s d →
    let i := itemOf d e.2
    let u : State := { s with inbox := s.inbox.erase e }
    let counted := fun (t : State) => t.rdP .inn d INN_D_ACCEPTED = s.rdP .inn d INN_D_ACCEPTED + 1 ∧ t.inbox = s.inbox.erase e
    i.formatBad = false →
    (∀ g, s.sess d i.session = none → s.imageLoading d = false → i.limitBad = false → s.weightsBad d = false →
      s.pickGroup d = some g →
      (i.kind = 1 → Answers (.openSession d) s (fun t => t = u.admitOpen i ∧ counted t ∧
        (∃ x, t.sess d i.session = some x ∧ x.slot = s.freeSlot d ∧ x.group = g ∧ x.cls = i.cls ∧ x.maxLen = i.arg ∧ x.len = 0) ∧
        (∃ c, t.ctx d (s.freeSlot d) = some c ∧ c.id = i.session ∧ c.temp = i.temp ∧ c.topK = i.topK ∧ c.topP = i.topP ∧
          c.seed = i.seed ∧ c.len = 0) ∧ SameMemory s t)) ∧
      (∀ ix f, i.kind = 7 → s.now ≤ i.deadline → i.deadline ≤ s.now + tenSeconds → s.handleIndex d i.addr = some ix →
        (s.prefixRec d ix).lost = false → (s.prefixRec d ix).len % 256 = 0 → s.framesReady d 0 = some f → f ≤ i.deadline →
        s.now + movesNs (s.pageMoves.length + ((s.prefixRec d ix).table.map (·.1)).dedup.length) s.tier0Rate ≤ i.deadline →
        Answers (.fork d) s (fun t => t = u.admitFork i ∧ counted t ∧
          (∃ x, t.sess d i.session = some x ∧ x.len = (s.prefixRec d ix).len ∧ x.group = g) ∧
          (t.prefixRec d ix).count = (s.prefixRec d ix).count + 1))) ∧
    (∀ x, s.sess d i.session = some x → s.stateBad i x = false →
      (i.kind = 8 → s.sessItems d i.session = [] → Answers (.close d) s (fun t => t = u.admitClose i x ∧ counted t ∧
        t.sess d x.id = none ∧ t.ctx d x.slot = none)) ∧
      (i.kind = 5 → Answers (.suspend d) s (fun t => t = u.admitHint i x ∧ counted t ∧
        (∃ h ∈ t.hints, h.dye = d ∧ h.session = x.slot ∧ h.resume = false ∧ h.tier = i.arg) ∧ t.sram = s.sram ∧ t.acc = s.acc)) ∧
      (i.kind = 6 → Answers (.resume d) s (fun t => t = u.admitHint i x ∧ counted t ∧
        (∃ h ∈ t.hints, h.dye = d ∧ h.session = x.slot ∧ h.resume = true ∧ h.x = i.arg) ∧ SameMemory s t)))

/-- PREFILL, DECODE and VERIFY (R206, R207, R212, R219): an item that a step of its lane and class can take by its deadline joins it,
or opens a new step; it is answered with the step's start, counted as accepted, and waits with its step. -/
def Obligations.StepItemResults : Prop :=
  ∀ (s : State) (d : Dye) (e : Dye × Word512) (x : Session), s.inbox.find? (fun x => x.1 == d) = some e → AdmissionOpen s d →
    let i0 := itemOf d e.2
    let u : State := { s with inbox := s.inbox.erase e }
    let base := s.projected d x
    let i : Item := { i0 with rows := s.itemRows i0, base := base, adds := max i0.fewest (s.itemRows i0),
                              bucket := cfgBucket (s.cfg d) base }
    i0.formatBad = false → i0.limitBad = false → s.sess d i0.session = some x → s.stateBad i0 x = false → s.lengthBad i0 x = false →
    s.weightsBad d = false → s.now ≤ i0.deadline → i0.deadline ≤ s.now + tenSeconds → s.laneOk d i0.prefill = true →
    ∀ k ∈ [((2 : Nat), Instr.prefill d), (3, .decode d), (4, .verify d)], i0.kind = k.1 →
      (∀ p f, u.findStep i x none = .joins p f → Answers k.2 s (fun t => t = u.joinStep i x p f.quote ∧
        t.rdP .inn d INN_D_ACCEPTED = s.rdP .inn d INN_D_ACCEPTED + 1 ∧
        (∃ j ∈ t.items, j.uid = s.itemNo ∧ j.raw = e.2 ∧ j.step = some p.number ∧ j.start = p.start))) ∧
      (∀ st q, u.findStep i x none = .opens st q → Answers k.2 s (fun t => t = u.openStep i x st q ∧
        t.rdP .inn d INN_D_ACCEPTED = s.rdP .inn d INN_D_ACCEPTED + 1 ∧
        (∃ j ∈ t.items, j.uid = s.itemNo ∧ j.raw = e.2 ∧ j.step = some (BitVec.ofNat 32 (natGet s.stepNo d.val)) ∧ j.start = st)))

/-- The life of a step (R211, R214, R215, R221): from SEAL_LEAD before its start it is sealed and its plan leaves; a plan that comes is
kept, not yet running; at the start the step runs; a point opens its phases in a region whose units have finished; the report ends the
step. -/
def Obligations.StepLifeResults : Prop :=
  ∀ (s : State) (d : Dye) (step : Word32),
    (∀ p q, s.stepNamed d step = some p → p.state = .isOpen → p.start ≤ s.now + cfgSeal (s.cfg d) →
      s.quoteStep d p.prefill p.cls p.start ((s.stepItems p).map s.priced) p.load = some q → Answers (.stepSeal d step) s (fun t =>
        t.stepNamed d step = some { p with state := .sealed } ∧ t.linkTx = s.linkTx ++ [LinkOut.plan (s.planOf p q)] ∧
        t = { s with regs := t.regs, steps := t.steps, linkTx := t.linkTx })) ∧
    (∀ pl : StepPlan, (∀ q ∈ s.plans, ¬(q.plan.dye = pl.dye ∧ q.plan.step = pl.step)) → Answers (.stepPlan pl) s (fun t =>
      { plan := pl } ∈ t.plans ∧ t = (((({ s with plans := s.plans ++ [{ plan := pl }] } : State).layPlan pl).laneRegs pl.dye
        pl.lane).foldl (fun (t : State) r => t.rgnRequest r 0)
          (({ s with plans := s.plans ++ [{ plan := pl }] } : State).layPlan pl)).armCmp 0 pl.start.toNat
            (.stepStart pl.dye pl.step) ∧ t.sram = s.sram ∧ t.acc = s.acc)) ∧
    (∀ q, s.plans.find? (fun q => q.plan.dye == d && q.plan.step == step) = some q → q.running = false →
      q.plan.start.toNat ≤ s.now → Answers (.stepStart d step) s (fun t =>
        (∃ w ∈ t.plans, w.plan = q.plan ∧ w.running = true) ∧
        (∀ p, s.stepNamed d step = some p → ∃ p', t.stepNamed d step = some p' ∧ p'.state = .running ∧ p'.items = p.items))) ∧
    (∀ r layer pt q, s.plans.find? (fun q => q.plan.dye == s.owner r && q.plan.step == step && q.plan.lane == s.inPrefill r) = some q →
      q.running = true → q.plan.start.toNat + pointOfs q.plan layer pt ≤ s.now → r ∉ q.waits → tabGet heldReset s.held r.val = none →
      s.phaseHeld q.plan r layer pt = false → Answers (.phasePoint r step layer pt) s (fun t => t.atpPhase r = atpAt pt ∧
        t.couPhase r = couAt pt ∧ (pt ≠ .attention → t =
          (if s.atpPhase r ≠ atpAt pt then s.setBit (.atp r) ATP_CFG 1 false else s).writePhases r (atpAt pt) (couAt pt)))) ∧
    (∀ q p, s.plans.find? (fun q => q.plan.dye == d && q.plan.step == step) = some q → q.running = true → s.isFront d = true →
      s.stepNamed d step = some p → p.state = .running → (∀ i ∈ s.stepItems p, i.needsToken = false) →
      (s.cfg d).degraded = false → Answers (.stepReport d step) s (fun t => t.stepNamed d step = none ∧
        t.rdP .inn d INN_D_STEPS = s.rdP .inn d INN_D_STEPS + 1))

/-- What changes admitted work (R203, R219 to R224): lanes reshared, prices looked at again, a frequency amended within a running step,
lateness found at FAIL_GUARD, items failed, and admission stopped and resumed by the management partition alone. -/
def Obligations.AdmittedWorkResults : Prop :=
  ∀ (s : State) (d : Dye) (step : Word32) (f : Nat) (tsw : Word64) (tag : Word32),
    (∀ r, s.isFront d = true → (s.image d).isSome = true → s.laneMoves = [] → 2 * s.backlog d false < s.backlog d true →
      let can := ((s.laneRegs d false).filter (fun r => (s.laneRegs d false).any (fun q => q != r && regionDie q == regionDie r))).filter
        (fun r => (List.range (s.pkgTable d).length).all (fun k =>
          match ((((s.pkgTable d)[k]?).map (·.regions)).getD []).drop (s.ordinal r) |>.head? with
          | some x => (s.laneOn d false k).any (fun q => q != x && regionDie q == regionDie x)
          | none => true))
      can.getLast? = some r →
      (s.cfg d).prefillMin ≤ s.prefillCount d + 1 → s.prefillCount d + 1 ≤ (s.cfg d).prefillMax →
      (s.cfg d).shapes.any (fun x => x.regions == (s.regionsOf d).length && x.prefillRgn == s.prefillCount d + 1) = true →
      let at_ := (((s.laneSteps d false).getLast?).map Step.end_).getD s.now
      s.now < at_ → Answers (.reshareTick d) s (fun t => t.laneMoves = [(r, true, at_)] ∧
        t.linkTx = s.linkTx ++ (s.peers d).map (fun sl => LinkOut.control sl (.laneMove d (s.ordinal r) true at_)) ∧
        t.loadOwed = s.loadOwed ++ [(d, true, at_)] ∧
        t = { s with regs := t.regs, laneMoves := t.laneMoves, loadOwed := t.loadOwed, linkTx := t.linkTx })) ∧
    (∀ cause, s.isFront d = true → (s.image d).isSome = true → Answers (.priceChange d cause) s (fun t =>
      t = ((((if cause = .regionFailed then s.postEventRec d 5 0 else s).postEventRec d 2 0).repriceLane d false (causeCode cause)).repriceLane d true (causeCode cause)).innFollow d)) ∧
    (∀ p q, s.stepNamed d step = some p → s.plans.find? (fun q => q.plan.dye == d && q.plan.step == step) = some q →
      p.state = .running → 0 < f → f < p.fPrice → p.items = [] → Answers (.freqAmend d step f tsw) s (fun t =>
        (∃ p', t.stepNamed d step = some p' ∧ p'.price = (if p.start + q.plan.endOfs ≤ tsw.toNat then q.plan.endOfs
            else tsw.toNat + ceilDiv ((p.start + q.plan.endOfs - tsw.toNat) * p.fPrice) f - p.start)) ∧
        t.items = s.items ∧ t.sram = s.sram ∧ t.acc = s.acc)) ∧
    (∀ i, s.items.filter (fun i => i.dye == d && i.tag == tag.toNat && i.stepKind && !i.late &&
        decide (i.deadline ≤ s.now + cfgGuard (s.cfg d))) = [i] → Answers (.failGuardCheck d tag) s (fun t =>
      (∀ j ∈ t.items, j.uid = i.uid → j.late = true) ∧ t.items.length = s.items.length ∧
      t.rdP .inn i.dye INN_D_LATE = s.rdP .inn i.dye INN_D_LATE + 1 ∧ t.rdP .inn i.dye INN_D_FAILED = s.rdP .inn i.dye INN_D_FAILED + 1 ∧
      SameMemory s t)) ∧
    (∀ p, s.stepNamed d step = some p → p.state ≠ .running → Answers (.itemFailure d step 1) s (fun t =>
      t = s.failStep p 1 ∧ t.stepNamed d step = none ∧ (∀ i, s.findItems p.items = [i] →
        t.rdP .inn i.dye INN_D_FAILED = s.rdP .inn i.dye INN_D_FAILED + 1 ∧ ∀ j ∈ t.items, j.uid ≠ i.uid))) ∧
    (∀ m, s.dyeOf m = 0 →
      Answers (.stopAdmit m) s (fun t => t.bit .inn INN_STATUS 2 = true ∧ SameMemory s t ∧ t.items = s.items) ∧
      Answers (.resumeAdmit m) s (fun t => t.bit .inn INN_STATUS 2 = false ∧ SameMemory s t ∧ t.items = s.items)) ∧
    (∀ m, s.dyeOf m ≠ 0 → ∀ i ∈ [Instr.stopAdmit m, .resumeAdmit m], Answers i s (fun t => t = { s with resp := t.resp } ∧
      t.resp.permission = true))

/-- R208: with admission open and the item otherwise in order, a step item or a FORK whose deadline lies before the counter value, or more
than 10 s after it, is refused with DEADLINE_RANGE: it is counted, named in INN_D_REFUSE_LAST, and nothing is admitted. -/
def Obligations.DeadlineOutOfRangeIsRefused : Prop :=
  ∀ (s : State) (d : Dye) (e : Dye × Word512), s.inbox.find? (fun x => x.1 == d) = some e → AdmissionOpen s d →
    let i := itemOf d e.2
    let refused := fun (t : State) => t.rdP .inn d INN_D_REFUSED = s.rdP .inn d INN_D_REFUSED + 1 ∧
      t.rdP .inn d INN_D_REFUSE_LAST = 0x80000005 ∧ t.rdP .inn d INN_D_ACCEPTED = s.rdP .inn d INN_D_ACCEPTED ∧
      t.inbox = s.inbox.erase e ∧ t.items = s.items ∧ t.steps = s.steps ∧ t.sessions = s.sessions ∧ SameMemory s t
    i.formatBad = false → i.limitBad = false → s.weightsBad d = false → i.deadline < s.now ∨ s.now + tenSeconds < i.deadline →
    (∀ x, s.sess d i.session = some x → s.stateBad i x = false → s.lengthBad i x = false →
      ∀ k ∈ [((2 : Nat), Instr.prefill d), (3, .decode d), (4, .verify d)], i.kind = k.1 → Answers k.2 s refused) ∧
    (i.kind = 7 → s.sess d i.session = none → s.imageLoading d = false → Answers (.fork d) s refused)
/-! ### Images (chapter 10) and partitions (chapter 11) -/

/-- Loading an image (R229, R237 to R241): LOAD fetches what the page's registers name and ABORT ends it before it installs; a fetched
image goes to the packages concerned; each verifies its copy and reports; the last acceptance sets T_act 1 ms ahead, and at T_act the
image is installed and ACTIVE; a package takes a newer system image from the master. -/
def Obligations.ImageResults : Prop :=
  ∀ (s : State) (d : Dye) (img : Image) (m : Master),
    let l := s.loadOf d
    (s.pageAllows m d = true →
      (s.loading d = false → (d = 0 ∨ (s.sessOf d = [] ∧ ∀ i ∈ s.items, i.dye ≠ d)) → s.receives d = true →
        (s.rdP .pkg d PKG_IMG_D_LEN).toNat ≤ imageLimit d → Answers (.load m d) s (fun t => t.imgState d = 1 ∧
          t.loadOf d = { origin := true } ∧
          t.hostTx = s.hostTx ++ [.read d (BitVec.ofNat 64 ((s.rd64 .pkg (pageOff d PKG_IMG_D_ADDR_L)).toNat % 2 ^ 48))
            (s.rdP .pkg d PKG_IMG_D_LEN).toNat] ∧
          t = { s with regs := t.regs, resp := t.resp, loads := t.loads, hostTx := t.hostTx })) ∧
      (1 ≤ s.imgState d → s.imgState d ≤ 3 → s.moves = [] → Answers (.abort m d) s (fun t => t.imgState d = 6 ∧
        t.fld .pkg (pageOff d PKG_IMG_D_STATUS) 8 8 = codeABORTED ∧ t.loadOf d = {} ∧ SameMemory s t ∧ t.images = s.images ∧
        t.sysImage = s.sysImage))) ∧
    (s.imgState d = 1 → l.origin = true → s.formatBad d img = none → s.signatureBad d img = none →
      (d = 0 → s.entriesBusy img = false) → Answers (.imageFetchDone d img) s (fun t => t.imgState d = 2 ∧
        t.loadOf d = { image := some img, origin := true } ∧
        t.linkTx = s.linkTx ++ ((t.loadSlots d).filter (· ≠ s.slot)).map (fun sl => LinkOut.image sl img) ∧
        t = { s with regs := t.regs, loads := t.loads, linkTx := t.linkTx })) ∧
    (l.origin = false → Answers (.imageCopy d img) s (fun t =>
      let u := (s.setLoad d { image := some img }).setImg d 3
      (u.verify d img = none → t.imgState d = 3 ∧ t.loadOf d = { image := some img } ∧
        t = { s with regs := t.regs, loads := t.loads, linkTx := t.linkTx }) ∧
      (∀ k, u.verify d img = some k → t.imgState d = 6 ∧ t.fld .pkg (pageOff d PKG_IMG_D_STATUS) 8 8 = k.1 % 256 ∧ t.loadOf d = {}) ∧
      t.linkTx.length = s.linkTx.length + 1 ∧ SameMemory s t ∧ t.images = s.images ∧ t.sysImage = s.sysImage)) ∧
    (∀ pkg : Fin 64, l.origin = true → s.imgState d = 2 ∨ s.imgState d = 3 →
      (∀ n ∈ (if d = 0 then (s.loadSlots d).map (·.val) else List.range (s.pkgTable d).length), n = pkg.val ∨ n ∈ l.reports) →
      Answers (.imageVerifyReport d pkg 0 0 0) s (fun t => t.imgState d = 4 ∧ (t.loadOf d).tAct = some (s.now + 1000000) ∧
        t.linkTx = s.linkTx ++ ((s.loadSlots d).filter (· ≠ s.slot)).map (fun sl =>
          LinkOut.control sl (.tAct d (BitVec.ofNat 64 (s.now + 1000000)))) ∧ SameMemory s t)) ∧
    (∀ at_, l.image = some img → l.tAct = some at_ → s.imgState d = 4 → at_ ≤ s.now →
      (d ≠ 0 → Answers (.imageInstall d) s (fun t => tabGet (fun _ => none) t.images d.val = some img ∧ t.imgState d = 5 ∧
        t.rdP .pkg d PKG_IMG_D_GEN = img.generation ∧ t.loadOf d = {})) ∧
      (d = 0 → s.sysImage = none → Answers (.imageInstall d) s (fun t => t.sysImage = some img ∧ t.norImage = some img ∧
        t.imgState d = 5 ∧ t.rdP .pkg d PKG_IMG_D_GEN = img.generation ∧ t.loadOf d = {}))) ∧
    (s.sysImage = none → s.norImage = none → s.loading 0 = false → s.verify 0 img = none → Answers (.systemImageSync img) s (fun t =>
      t.sysImage = some img ∧ t.norImage = some img ∧ t.imgState 0 = 5 ∧ t.rdP .pkg 0 PKG_IMG_D_GEN = img.generation))

/-- Moving regions (R249, R253 to R257, Table 11-5): a move of a SERVE region drains to the priced end of the work already planned; a
claim takes an idle region of the management partition at once; at the drain point the region is cleared; a NORLA region is first
saved and its ordinal stays vacant; after the clears the region has its new dye; a region that comes back is restored as it was
saved, and the job goes on when no ordinal is vacant. -/
def Obligations.MoveResults : Prop :=
  ∀ (s : State) (r : RegionNo) (d : Dye) (m : Master),
    let o := s.owner r
    (s.moveOf r = none → (∀ c ∈ s.claims, c.1 ≠ r) → s.moveCode r d = 0 → s.loading o = false → s.loading d = false →
      (s.dyeOf m = 0 → o ≠ 0 → s.isNorla o = false → Answers (.move m r d) s (fun t => t.mvState r = 1 ∧
        (∃ mv, t.moveOf r = some mv ∧ mv.toDye = d ∧ mv.fromDye = o ∧ mv.at_ = s.drainAt o ∧ mv.asked = !s.isFront o) ∧
        (s.isFront o = true → (o, s.drainAt o) ∈ t.drains) ∧
        (s.isFront o = false → LinkOut.control ((s.slotOf o 0).getD s.slot) (.drain o (BitVec.ofNat 64 (s.drainAt o))) ∈ t.linkTx) ∧
        t.owner r = o ∧ SameMemory s t)) ∧
      (s.dyeOf m = 0 → o = 0 → Answers (.move m r d) s (fun t => t.mvState r = 5 ∧
        (∃ mv, t.moveOf r = some mv ∧ mv.toDye = d ∧ mv.loan = false) ∧ t.owner r = 0 ∧ SameMemory s t)) ∧
      (s.dyeOf m = 0 → o ≠ 0 → s.isNorla o = true → Answers (.move m r d) s (fun t => (t.mvState r = 2 ∨ t.mvState r = 3) ∧
        (∃ mv, t.moveOf r = some mv ∧ mv.toDye = d ∧ mv.fromDye = o ∧ mv.save = true) ∧ t.owner r = o ∧
        (s.jobState o = 1 ∨ s.jobState o = 2 → t.jobState o = 3))) ∧
      (o = 0 → d ≠ 0 → s.isNorla d = false → Answers (.regionClaim d r) s (fun t => t.mvState r = 5 ∧ (r, d) ∈ t.claims ∧
        (∃ mv, t.moveOf r = some mv ∧ mv.toDye = d ∧ mv.loan = true) ∧ SameMemory s t))) ∧
    (s.moveOf r = none → (∀ c ∈ s.claims, c.1 ≠ r) → s.moveCode r d ≠ 0 → s.dyeOf m = 0 → Answers (.move m r d) s (fun t =>
      t.mvState r = 7 ∧ t.fld (.rgn r) RGN_MOVE_STATUS 8 4 = s.moveCode r d ∧ SameRegsBut [regKey (.rgn r) RGN_MOVE_STATUS] s t ∧
      OnlyRegs s t)) ∧
    (s.dyeOf m ≠ 0 → Answers (.move m r d) s (fun t => t = { s with resp := t.resp } ∧ t.resp.permission = true)) ∧
    (∀ mv, s.moveOf r = some mv →
      (s.mvState r = 1 → mv.asked = false → mv.at_ ≤ s.now → Answers (.drainPoint r) s (fun t => t.mvState r = 4 ∧ t.bit (.atp r) ATP_STATUS 9 = true ∧
        t.couClearing r = true ∧ t.owner r = o)) ∧
      (mv.save = true → s.mvState r = 2 ∨ s.mvState r = 3 → s.coresStill r = true → Answers (.preemptSaveDone r) s (fun t =>
        t.mvState r = 4 ∧ t.save mv.fromDye mv.ordinal = some (s.saveOf r) ∧ (mv.fromDye, mv.ordinal, regionDie r) ∈ t.vacant ∧
        t.bit (.rgn r) RGN_MOVE_STATUS 12 = true)) ∧
      (s.mvState r = 4 ∨ s.mvState r = 5 → s.cleared r = true → mv.toDye ≠ 0 → s.partState mv.toDye = 1 →
        s.isNorla mv.toDye = false → s.nextMove r = none → Answers (.redyeDone r) s (fun t => t.owner r = mv.toDye ∧ t.mvState r = 6 ∧
          t.moveOf r = none)) ∧
      (s.mvState r = 4 ∨ s.mvState r = 5 → s.cleared r = true → mv.toDye = 0 → s.isNorla 0 = false → s.nextMove r = none → Answers (.redyeDone r) s (fun t =>
        t.owner r = 0 ∧ t.rgnState r = 3 ∧ t.mvState r = 6 ∧ t.moveOf r = none)) ∧
      (s.owner r = d → s.mvState r = 8 → s.save d (s.ordinal r) = none → s.nextMove r = none →
        Answers (.restoreDone d r) s (fun t => t.mvState r = 6 ∧ t.moveOf r = none ∧
          t.vacant = s.vacant.filter (fun v => !(v.1 == d && v.2.1 == s.ordinal r)) ∧ SameMemory s t))) ∧
    (∀ a, s.owner r = d → s.mvState r = 8 → s.save d (s.ordinal r) = some a → tabWf byteReset a.sram = true →
      tabWf byteReset a.acc = true → tabWf coreReset a.cores = true → Answers (.restore d r) s (fun t =>
        (∀ k < rgnBytes, tabGet byteReset t.sram (r.val * rgnBytes + k) = tabGet byteReset a.sram k) ∧
        (∀ k < rgnAcc, tabGet byteReset t.acc (r.val * rgnAcc + k) = tabGet byteReset a.acc k) ∧
        (∀ p : Fin 64, t.core { region := r, pos := p } = tabGet coreReset a.cores p.val) ∧ t.save d (s.ordinal r) = none ∧
        t.hbm = s.hbm))

/-- Jobs and kills (R251, R252, R258 to R261): JOB_START is taken from the dye's runtime on the front package at least 100 µs ahead and
its regions go at its counter value; JOB_STOP ends it with an interrupt; a stopped job goes on at its resume value; a kill unloads the
partition's keys, passes to the other packages, and its sweep leaves nothing of the partition. -/
def Obligations.JobAndKillResults : Prop :=
  ∀ (s : State) (d : Dye) (m : Master),
    let at_ := s.rd64 .pkg (pageOff d PKG_JOB_D_AT_L)
    (s.isNorla d = true → s.isFront d = true → (s.image d).isSome = true → s.partState d = 1 → s.jobState d ∉ [1, 2, 3] →
      s.now + 100000 ≤ at_.toNat → Answers (.jobStart (.vf d) d) s (fun t => t.jobState d = 1 ∧
        t.linkTx = s.linkTx ++ (s.peers d).map (fun sl => LinkOut.control sl (.jobStart d at_)) ∧ SameMemory s t)) ∧
    (s.jobState d = 1 → at_.toNat ≤ s.now → Answers (.jobGoPoint d) s (fun t => t.jobState d = 2)) ∧
    (s.jobState d ∈ [1, 2, 3] → Answers (.jobStop (.vf d) d) s (fun t => t.jobState d = 6 ∧
      (s.isFront d = true → HostOut.msix d 3 ∈ t.hostTx))) ∧
    (m ≠ .vf d → ∀ i ∈ [Instr.jobStart m d, .jobStop m d], Answers i s (fun t => t = { s with resp := t.resp } ∧
      t.resp.permission = true)) ∧
    (natGet s.resumeAt d.val ≠ 0 → natGet s.resumeAt d.val ≤ s.now + 1 → s.jobState d = 3 → Answers (.jobResumePoint d) s (fun t =>
      t.jobState d = 2 ∧ natGet t.resumeAt d.val = 0)) ∧
    (s.partState d = 1 → s.dyeOf m = 0 → ∀ i ∈ [Instr.partCmdKill m d, .killArrival d], Answers i s (fun t =>
      (t.partState d = 2 ∨ t.partState d = 3) ∧ (∀ h : Fin 8, t.bit (.hbm h) HBM_KEYSLOTS d.val = false) ∧ t.jobState d = 0 ∧
      (∀ e ∈ t.inbox, e.1 ≠ d))) ∧
    (s.partState d = 2 ∨ s.partState d = 3 → (∀ r ∈ s.regionsOf d, s.cleared r = true) → Answers (.killSweepDone d) s (fun t =>
      t.partState d = 0 ∧ (∀ r, s.owner r = d → t.owner r = 0) ∧ tabGet (fun _ => none) t.images d.val = none ∧
      (∀ i ∈ t.items, i.dye ≠ d) ∧ (∀ slot < 65536, t.ctx d slot = none) ∧ (∀ id < 2 ^ 18, t.sess d id = none)))
/-! ### Links, packets and the system counter (chapter 12) -/

/-- The links (R266 to R271, R276, Tables 12-2 and 12-6): a training that finds a width and the right partner brings the link up at it; a
lost lane leaves 15 until the spare has taken its place; uncorrectable frames are counted; ENABLE, RETRAIN, DISABLE and RECABLE answer
the management partition; lost heartbeat or light takes the link down, and a notice of a loss is passed on. -/
def Obligations.LinkResults : Prop :=
  ∀ (s : State) (l : Fin 6) (m : Master),
    let x := s.link l
    (∀ (r : TrainingResult) st n sf half, s.linkState l = tTRAINING → r.light = true → x.waiting = none →
      (x.trainedSlot = none ∨ x.trainedSlot = some r.slot) → s.partnerOk l r = true →
      (∀ tp, s.topology = some tp → neighbour tp r.slot (opposite l.val) = some s.slot) →
      chooseWidth (r.lanes &&& ~~~x.lost) x.bestOf8 = some (st, n, sf, half) → Answers (.linkTraining l r) s (fun t =>
        t.linkState l = st ∧ t.fld (.tlk l) TLK_STATUS 5 5 = n ∧ t.rd (.tlk l) TLK_DELAY = BitVec.ofNat 32 r.delay.toNat ∧
        (t.link l).trainedSlot = some r.slot)) ∧
    (∀ r : TrainingResult, s.linkState l = tTRAINING → r.light = true → x.waiting = none → s.recabling = false → x.trainedSlot = none →
      s.partnerOk l r = false → (chooseWidth (r.lanes &&& ~~~x.lost) x.bestOf8).isSome = true → Answers (.linkTraining l r) s (fun t =>
        t.linkState l = tMISMATCH ∧ (t.link l).trainedSlot = some r.slot)) ∧
    (∀ r : TrainingResult, s.linkState l = tTRAINING → r.light = false → x.waiting = none → Answers (.linkTraining l r) s (fun t =>
      t.linkState l = tDOWN ∧ t.bit (.tlk l) TLK_STATUS 3 = false ∧ t.rd (.tlk l) TLK_LANE_LOCK = 0 ∧ (s.slot, l.val) ∈ t.lostLinks)) ∧
    (∀ r : TrainingResult, s.linkState l ≠ tTRAINING → Answers (.linkTraining l r) s (fun t => t = s)) ∧
    (∀ lane : Fin 17, s.linkState l = tUP16 → lane.val ≠ 16 → s.bit (.tlk l) TLK_STATUS 10 = false → x.swapLane = none →
      Answers (.laneLoss l lane) s (fun t => t.linkState l = tUP15 ∧ t.fld (.tlk l) TLK_STATUS 5 5 = 15 ∧
        t.rd (.tlk l) TLK_LANE_EVT = s.rd (.tlk l) TLK_LANE_EVT + 1 ∧ (t.link l).swapLane = some lane ∧
        t = { s with regs := t.regs, links := t.links, ldgIngress := t.ldgIngress, ldgOpen := t.ldgOpen })) ∧
    (∀ lane : Fin 17, s.linkState l = tUP15 → x.spareTraining = true → x.swapLane = some lane → Answers (.spareLaneReady l) s (fun t =>
      t.linkState l = tUP16 ∧ t.bit (.tlk l) TLK_STATUS 10 = true ∧ t.rd (.tlk l) TLK_LANE_MAP = BitVec.ofNat 32 (lane.val % 16 + 32) ∧
      (∀ k, k ≠ l → t.link k = s.link k) ∧ t = { s with regs := t.regs, links := t.links })) ∧
    (∀ n, s.linkUp l = true → n < 8 → Answers (.frameUncorrectable l n) s (fun t =>
      t.rd (.tlk l) TLK_FEC_UNCORR = s.rd (.tlk l) TLK_FEC_UNCORR + 1 ∧ t.rd (.tlk l) TLK_REPLAY = s.rd (.tlk l) TLK_REPLAY + BitVec.ofNat 32 n ∧
      SameRegsBut [regKey (.tlk l) TLK_FEC_UNCORR, regKey (.tlk l) TLK_REPLAY, regKey .ldg LDG_FOLDED] s t ∧ RegsAndLedger s t)) ∧
    (s.dyeOf m = 0 →
      (s.linkState l ≠ tTRAINING →
        Answers (.linkEnable m l) s (fun t => t.linkState l = tTRAINING ∧ (t.link l).lasers = true) ∧
        (s.linkState l ≠ tDARK → Answers (.linkRetrain m l) s (fun t => t.linkState l = tTRAINING ∧ (t.link l).lasers = true))) ∧
      (s.linkState l = tTRAINING → ∀ i ∈ [Instr.linkEnable m l, .linkRetrain m l], Answers i s (fun t => t.linkState l = tTRAINING ∧
        (t.link l).waiting = some true ∧ t = { s with resp := t.resp, links := t.links })) ∧
      (s.linkState l = tDARK → Answers (.linkRetrain m l) s (fun t => t = { s with resp := t.resp })) ∧
      Answers (.linkDisable m l) s (fun t => t.linkState l = tDARK ∧ t.link l = {} ∧ t.bit (.tlk l) TLK_STATUS 3 = false) ∧
      (s.recabling = false → x.lasers = true → Answers (.recable m) s (fun t => t.recabling = true ∧ t.recableAt = s.now ∧
        (∀ k, (s.link k).lasers = true → t.linkState k = tTRAINING))) ∧
      (s.recabling = true → Answers (.recable m) s (fun t => t = { s with resp := t.resp }))) ∧
    (s.dyeOf m ≠ 0 → ∀ i ∈ [Instr.linkEnable m l, .linkDisable m l, .linkRetrain m l, .recable m], Answers i s (fun t =>
      t = { s with resp := t.resp } ∧ t.resp.permission = true)) ∧
    (s.linkUp l = true →
      Answers (.heartbeatLoss l) s (fun t => t.linkState l = tDOWN ∧ (s.slot, l.val) ∈ t.lostLinks) ∧
      Answers (.lightLoss l) s (fun t => t.linkState l = tDOWN ∧ t.bit (.tlk l) TLK_STATUS 3 = false ∧ (s.slot, l.val) ∈ t.lostLinks)) ∧
    (∀ sl, (sl, l.val) ∉ s.lostLinks → Answers (.lossNotice sl l) s (fun t => (sl, l.val) ∈ t.lostLinks ∧
      (s.anyUp = true → LinkOut.lossNotice sl l ∈ t.linkTx))) ∧
    (∀ a b, s.recabling = false → s.topology.isSome = true → s.master = some a → a ∈ s.lostSlots → s.backup = some b → b ∉ s.lostSlots → s.lostBoth = false →
      Answers .masterTakeover s (fun t => t.master = some b ∧ t.bit .cnt CNT_STATUS 2 = (b == s.slot) ∧ a ∈ t.exMasters ∧ SameMemory s t)) ∧
    (∀ a, s.master = some a → a ∉ s.lostSlots → Answers .masterTakeover s (fun t => t = s))

/-- Packets for this package (R72 to R74, R84, R272 to R275): a message that fits the oldest posted buffer fills it and is acknowledged;
a credit, an acknowledgement and a refusal reach their sender; a barrier packet is kept with its generation; control messages are
acted on; and a packet whose TTL is 0 is discarded and counted. -/
def Obligations.PacketResults : Prop :=
  ∀ (s : State) (p : LinkPacket) (src : SlotNo),
    (p.ttl ≠ 0 → p.dstSlot = s.slot →
      (∀ q, s.targetCore p = some q → (s.core q).blocked = none →
        let k := s.core q
        let ch := p.channel.toNat
        (∀ b, p.type = 1 → natGet k.delivered ch ≤ p.seq.toNat → (k.postedOf ch).find? (fun b => b.filled.isNone) = some b →
          b.seq = p.seq.toNat → p.offset.toNat * 32 = b.got ∨ p.offset = 0 → p.last = true →
          let w := s.write (.transferEngine q) ((s.ordinal q.region * 64 + q.pos.val) * 0x200000 + b.ofs + p.offset.toNat * 32) p.payload
          w.1 = .ok → Answers (.messagePacket p) s (fun t => natGet (t.core q).delivered ch = natGet (w.2.core q).delivered ch + 1 ∧
            (t.core q).postedOf ch = growFirst (p.offset.toNat * 32 + p.payload.length) true ((w.2.core q).postedOf ch) ∧ SameMemory w.2 t ∧
            ∃ a, t.linkTx = w.2.linkTx ++ [.packet a] ∧ a.type = 3 ∧ a.dstSlot = p.srcSlot ∧ a.seq = p.seq ∧ a.epoch = p.epoch)) ∧
        (∀ b, p.type = 1 → natGet k.delivered ch ≤ p.seq.toNat → (k.postedOf ch).find? (fun b => b.filled.isNone) = some b →
          b.seq ≠ p.seq.toNat → p.last = true → Answers (.messagePacket p) s (fun t => SameMemory s t ∧ t.cores = s.cores ∧
            ∃ a, t.linkTx = s.linkTx ++ [.packet a] ∧ a.type = 9 ∧ a.dstSlot = p.srcSlot ∧ a.seq = p.seq ∧ a.epoch = p.epoch)) ∧
        (p.type = 2 → k.refusedSends = [] → Answers (.creditPacket p) s (fun t => OnlyCore q
          (k.addCredit ch { num := p.seq.toNat - 1, cap := p.offset.toNat * 32, epoch := p.epoch }) s t)) ∧
        (∀ x, s.answered q p = some x →
          (p.type = 3 → Answers (.ackPacket p) s (fun t => OnlyCore q { k with sent := k.sent.filter (fun y => y ≠ x) } s t)) ∧
          (p.type = 9 → (k.refuseSend x).refusedSends = [x] → (k.refuseSend x).creditFor ch x.seq = none → Answers (.refusedPacket p) s (fun t => OnlyCore q
            { (k.refuseSend x) with sent := k.sent.filter (fun y => y ≠ x) } s t)))) ∧
      (p.type = 4 → (s.bar p.dye p.target.toNat).gen ≤ p.seq.toNat →
        (p.srcSlot, p.seq.toNat) ∉ (s.bar p.dye p.target.toNat).packets → Answers (.barrierPacket p) s (fun t =>
          (t.bar p.dye p.target.toNat).packets = (s.bar p.dye p.target.toNat).packets ++ [(p.srcSlot, p.seq.toNat)] ∧
          (t.bar p.dye p.target.toNat).gen = (s.bar p.dye p.target.toNat).gen ∧ t = { s with barriers := t.barriers }))) ∧
    (p.ttl = 0 → ∀ i ∈ [Instr.messagePacket p, .creditPacket p, .ackPacket p, .refusedPacket p, .barrierPacket p], Answers i s (fun t =>
      (let w := Win.tlk ((s.nextLink p.srcSlot).getD 0)
       t.rd w TLK_DROPPED = s.rd w TLK_DROPPED + 1 ∧ SameRegsBut [regKey w TLK_DROPPED] s t) ∧ t = { s with regs := t.regs })) ∧
    (∀ d slot rec, slot < 65536 → Answers (.controlPacket src (.result d slot rec)) s (fun t =>
      tabGet (fun _ => none) t.tokenRecs (d.val * 65536 + slot) = some rec ∧ t = { s with tokenRecs := t.tokenRecs })) ∧
    (∀ d slot id cls temp topK topP seed maxLen home, Answers (.controlPacket src (.context d slot id cls temp topK topP seed maxLen home)) s
      (fun t => t.ctx d slot = some { id := id, cls := cls, temp := temp, topK := topK, topP := topP, seed := seed, maxLen := maxLen, home := home } ∧
        t = { s with ctxs := t.ctxs })) ∧
    (∀ d step pairs, Answers (.controlPacket src (.stepDrops d step pairs)) s (fun t =>
      t = { s with farDrops := s.farDrops ++ [(d, step, pairs)] })) ∧
    (∀ v : Word64, s.master ≠ some s.slot → Answers (.controlPacket src (.wallOfs v)) s (fun t => t.rd64 .cnt CNT_WALL_OFS_L = v ∧
      t.bit .cnt CNT_STATUS 4 = true ∧ (s.backup = some s.slot → t.syncCopy = some v) ∧
      t = { s with regs := t.regs, syncCopy := t.syncCopy })) ∧
    (∀ d at_, s.jobState d = 3 → Answers (.controlPacket src (.resumeAt d at_)) s (fun t =>
      natGet t.resumeAt d.val = at_.toNat + 1 ∧ t = { s with resumeAt := t.resumeAt, cmps := t.cmps, calendar := t.calendar })) ∧
    (∀ d at_, (s.loadOf d).image.isSome = true → Answers (.controlPacket src (.tAct d at_)) s (fun t => t.imgState d = 4 ∧
      (t.loadOf d).tAct = some at_.toNat ∧ SameMemory s t))

/-- The system counter (R25, R277 to R282): an exchange with the parent gives offset and rate; the first lock takes the parent's value;
the loss of every path enters HOLDOVER, and after 1 ms the package counts as lost; a comparator fires at its value; a frequency
packet arms its switch point, at which every Active region of the dye takes the frequency. -/
def Obligations.CounterResults : Prop :=
  ∀ (s : State),
    (∀ t1 t2 t3 t4 trim, s.master ≠ some s.slot → s.fld .cnt CNT_STATUS 12 3 ≠ 7 →
      let off : Int := (((t2.toNat : Int) - t1.toNat) + ((t3.toNat : Int) - t4.toNat)) / 2
      Answers (.syncExchange t1 t2 t3 t4 trim) s (fun t =>
        t.rd .cnt CNT_OFFSET = BitVec.ofNat 32 (signedField 16 (clampInt (-32768) 32767 off)) ∧
        t.rd .cnt CNT_RATE = BitVec.ofNat 32 (signedField 24 (clampInt (-100000) 100000 (fieldSigned 24 trim.toNat))) ∧
        t.sync = (if s.sync = 0 then 1 else if s.sync = 3 then 2 else s.sync) ∧
        SameRegsBut [regKey .cnt CNT_OFFSET, regKey .cnt CNT_RATE, regKey .cnt CNT_STATUS] s t ∧
        t = { s with regs := t.regs, holdoverAt := t.holdoverAt, treatedAsLost := t.treatedAsLost })) ∧
    (∀ v : Word64, s.sync < 2 → (∀ e ∈ s.cmps, e.2.armed = false) → Answers (.counterFirstLock v) s (fun t => t.now = v.toNat ∧
      t.nowFrac = 0 ∧ t.sync = 2 ∧ t.cores = s.cores ∧ SameMemory s t)) ∧
    (s.sync = 2 → s.master ≠ some s.slot → Answers .holdover s (fun t => t.sync = 3 ∧ t.fld .cnt CNT_STATUS 12 3 = 7 ∧
      t.rd .cnt CNT_SYNC_LOSS = s.rd .cnt CNT_SYNC_LOSS + 1 ∧ t.holdoverAt = s.now ∧
      t = { s with regs := t.regs, holdoverAt := t.holdoverAt, ldgIngress := t.ldgIngress, ldgOpen := t.ldgOpen })) ∧
    (s.sync = 3 → s.holdoverAt + 1000000 ≤ s.now → s.treatedAsLost = false → Answers .holdoverTimeout s (fun t =>
      t.treatedAsLost = true ∧ (s.spanning = [] → t = { s with treatedAsLost := true }))) ∧
    (∀ n : Fin 64,
      let c := tabGet cmpReset s.cmps n.val
      (c.armed = true → c.value ≤ s.now → c.what = none → (∀ e ∈ s.calendar, e.owner ≠ c.owner) → Answers (.comparatorFire n) s (fun t =>
        (tabGet cmpReset t.cmps n.val).armed = false ∧ (∀ k, k ≠ n.val → tabGet cmpReset t.cmps k = tabGet cmpReset s.cmps k) ∧
        t = { s with cmps := t.cmps, tmxOut := t.tmxOut, tmxUntil := t.tmxUntil })) ∧
      (c.armed = false ∨ s.now < c.value → Answers (.comparatorFire n) s (fun t => t = s))) ∧
    (∀ d f (tsw : Word64), s.regionsOf d ≠ [] →
      (s.now < tsw.toNat → Answers (.freqPacket d f tsw) s (fun t => (d, f, tsw.toNat) ∈ t.switchPoints ∧
        t.linkTx = s.linkTx ++ (if s.isFront d then [] else [LinkOut.freqAck d]) ∧
        t = { s with switchPoints := t.switchPoints, cmps := t.cmps, calendar := t.calendar, linkTx := t.linkTx })) ∧
      (tsw.toNat ≤ s.now → f < 2048 → Answers (.freqPacket d f tsw) s (fun t => t.commonFreq d = f ∧
        (∀ r, s.owner r = d → s.rgnActive r = true → t.rgnFreq r = f) ∧ SameMemory s t))) ∧
    (∀ d f x, s.switchPoints.filter (fun p => p.1 == d && decide (p.2.2 ≤ s.now)) = [(d, f, x)] → f < 2048 →
      Answers (.switchPoint d) s (fun t => t.commonFreq d = f ∧ (∀ r, s.owner r = d → s.rgnActive r = true → t.rgnFreq r = f) ∧
        (d, f, x) ∉ t.switchPoints ∧ SameMemory s t))
/-! ### The host port, Ethernet and the shared-memory fabric (chapter 13) -/

/-- The host window and the rings (R286, R288, R291 to R293): a read request and a posted write leave with the dye's requester ID and
a completion answers the oldest read; a tail inside the ring is taken, one beyond it is a ring error; an item is read in its turn
and reserves three entries; a record is written at the ring's tail with the tail's shadow and its vectors. -/
def Obligations.HostResults : Prop :=
  ∀ (s : State) (d : Dye) (a : Addr) (n : Nat) (bs : List Byte) (v : Word32),
    (∀ o, s.place d a.toNat = .host o → s.hostUp = true →
      Answers (.hostWindowAccess d a (.read n)) s (fun t => t.hostTx = s.hostTx ++ [.read d (BitVec.ofNat 64 o) n] ∧
        t.hostReads = s.hostReads ++ [(d, BitVec.ofNat 64 o, n)] ∧ t = { s with
          regs := t.regs, resp := t.resp, hostTx := t.hostTx, hostReads := t.hostReads, energyRem := t.energyRem, rglRem := t.rglRem,
          rglTok := t.rglTok }) ∧
      Answers (.hostWindowAccess d a (.write bs)) s (fun t => t.hostTx = s.hostTx ++ [.write d (BitVec.ofNat 64 o) bs] ∧
        t = { s with
          regs := t.regs, resp := t.resp, hostTx := t.hostTx, energyRem := t.energyRem, rglRem := t.rglRem, rglTok := t.rglTok })) ∧
    (∀ o, s.place d a.toNat = .host o → s.hostUp = false →
      Answers (.hostWindowAccess d a (.read n)) s (fun t => t.resp.data = List.replicate n 0xFF ∧ t.resp.poison = true ∧
        t.hostReads = s.hostReads ∧ t.hostTx = s.hostTx ∧ SameMemory s t) ∧
      Answers (.hostWindowAccess d a (.write bs)) s (fun t => t = { s with resp := t.resp })) ∧
    (∀ q, s.hostReads.find? (fun q => q.1 == d) = some q →
      Answers (.hostReadCompletion d (.data bs)) s (fun t => t.resp.data = takePad 0 q.2.2 bs ∧ t.resp.poison = false ∧
        t = { s with resp := t.resp, hostReads := s.hostReads.erase q }) ∧
      Answers (.hostReadCompletion d .timeout) s (fun t => t.resp.data = List.replicate q.2.2 0xFF ∧ t.resp.poison = true ∧
        t.hostReads = s.hostReads.erase q ∧ SameMemory s t)) ∧
    (s.ringsOn d = true →
      ((v - s.rd (.vf d) PCI_VF_SQ_HEAD).toNat ≤ s.sqSize d → Answers (.sqTailWrite d v) s (fun t => t.rd (.vf d) PCI_VF_SQ_TAIL = v ∧
        SameRegsBut [regKey (.vf d) PCI_VF_SQ_TAIL] s t ∧ OnlyRegs s t)) ∧
      (s.sqSize d < (v - s.rd (.vf d) PCI_VF_SQ_HEAD).toNat → (∀ e ∈ s.inbox, e.1 ≠ d) → Answers (.sqTailWrite d v) s (fun t =>
        t.bit (.vf d) PCI_VF_STATUS 1 = true ∧ t.ringsOn d = false ∧ t.hostTx = s.hostTx ++ [.msix d 2] ∧
        SameRegsBut [regKey (.vf d) PCI_VF_STATUS] s t ∧ SameMemory s t))) ∧
    (∀ item, s.ringNext = some d → 1 ≤ bitsOf item 0 4 → bitsOf item 0 4 ≤ 8 → Answers (.ringRead d item) s (fun t =>
      t.inbox = s.inbox ++ [(d, item)] ∧ t.rd (.vf d) PCI_VF_SQ_HEAD = s.rd (.vf d) PCI_VF_SQ_HEAD + 1 ∧
      natGet t.cqReserved d.val = natGet s.cqReserved d.val + 3 ∧ t.ringTurn = (d.val + 1) % 16 ∧
      t = { s with regs := t.regs, inbox := t.inbox, cqReserved := t.cqReserved, ringTurn := t.ringTurn })) ∧
    (∀ item, s.ringNext ≠ some d → Answers (.ringRead d item) s (fun t => t = s)) ∧
    (s.ringsOn d = false → Answers (.sqTailWrite d v) s (fun t => t = { s with resp := t.resp })) ∧
    Answers (.cqHeadWrite d v) s (fun t => t.rd (.vf d) PCI_VF_CQ_HEAD = v ∧ SameRegsBut [regKey (.vf d) PCI_VF_CQ_HEAD] s t ∧
      OnlyRegs s t) ∧
    (∀ p, s.postQ.find? (fun p => p.dye == d) = some p → Answers (.recordPost d) s (fun t =>
      t.rd (.vf d) PCI_VF_CQ_TAIL = s.rd (.vf d) PCI_VF_CQ_TAIL + 1 ∧ t.postQ = s.postQ.erase p ∧ (∃ l, t.hostTx = s.hostTx ++
        [.write d (s.rd64 (.vf d) PCI_VF_CQ_BASE_L + BitVec.ofNat 64 ((s.rd (.vf d) PCI_VF_CQ_TAIL).toNat % s.cqSize d * 64))
          (leBytes p.data.toNat 64),
         .write d (s.rd64 (.vf d) PCI_VF_CQ_SHADOW_L) (leBytes (s.rd (.vf d) PCI_VF_CQ_TAIL + 1).toNat 4)] ++ l ∧
        (p.event = true → l = [.msix d 1]) ∧ (p.event = false → s.fld (.vf d) PCI_VF_INT_COAL 0 8 ≤ 1 → l = [.msix d 0])) ∧ SameMemory s t))

/-- Rings on and off, resets and the width of the host port (R286, R290 to R293): ENABLE_RINGS puts heads and tails to 0, DISABLE_RINGS and
an FLR discard what waits, a surprise down is an FLR of every function, and a reduced port says so in every function. -/
def Obligations.HostPortResults : Prop :=
  ∀ (s : State) (d : Dye) (n : Nat),
    Answers (.enableRings d) s (fun t => t.ringsOn d = true ∧
      (∀ o ∈ [PCI_VF_SQ_TAIL, PCI_VF_SQ_HEAD, PCI_VF_CQ_HEAD, PCI_VF_CQ_TAIL], t.rd (.vf d) o = 0) ∧
      SameRegsBut (([PCI_VF_SQ_TAIL, PCI_VF_SQ_HEAD, PCI_VF_CQ_HEAD, PCI_VF_CQ_TAIL, PCI_VF_STATUS] : List Nat).map (regKey (.vf d))) s t ∧
      t = { s with regs := t.regs, resp := t.resp, unsignalled := t.unsignalled }) ∧
    Answers (.disableRings d) s (fun t => t.ringsOn d = false ∧ (∀ p ∈ t.postQ, p.dye ≠ d) ∧
      t.rd (.vf d) PCI_VF_LOST_RECORDS = s.rd (.vf d) PCI_VF_LOST_RECORDS +
        BitVec.ofNat 32 (s.postQ.filter (fun p => p.dye == d)).length ∧
      SameRegsBut [regKey (.vf d) PCI_VF_STATUS, regKey (.vf d) PCI_VF_LOST_RECORDS] s t ∧
      t = { s with regs := t.regs, resp := t.resp, postQ := t.postQ, unsignalled := t.unsignalled }) ∧
    Answers (.flr d) s (fun t => t.ringsOn d = false ∧ (∀ q ∈ t.hostReads, q.1 ≠ d) ∧ (∀ q ∈ t.publishing, q.1 ≠ d) ∧
      tabGet (fun _ => false) t.smfBusy d.val = false ∧ t.hostUp = s.hostUp) ∧
    Answers .surpriseDown s (fun t => t.hostUp = false ∧ (∀ q : Dye, t.ringsOn q = false) ∧ t.hostReads = []) ∧
    Answers (.hostPortReduced n) s (fun t => t.hostUp = true ∧ t.hostGts = min 1024 n ∧
      (∀ q : Dye, t.bit (.vf q) PCI_VF_STATUS 3 = decide (n < 1024)) ∧
      t = { s with regs := t.regs, hostGts := t.hostGts, hostUp := true }) ∧
    (natGet s.unsignalled d.val ≠ 0 → s.fld (.vf d) PCI_VF_INT_COAL 8 16 ≠ 0 → Answers (.interruptCoalesceTimer d) s (fun t =>
      t.hostTx = s.hostTx ++ [.msix d 0] ∧ natGet t.unsignalled d.val = 0 ∧ t = { s with hostTx := t.hostTx, unsignalled := t.unsignalled }))

/-- The Ethernet ports (R295, R296, Table 13-9): a frame goes to the dye whose name it carries, or is dropped and counted; a tail moved on by
one puts one frame on its way, and a frame that has left moves the head; ENABLE, DISABLE and RETRAIN and the wall offset answer the
management partition. -/
def Obligations.EthernetResults : Prop :=
  ∀ (s : State) (d : Dye) (p : Fin 2) (m : Master) (f : EthFrame) (v : Word32) (e1588 : Bool),
    let head := s.rd (.eth p) (pageOff d ETH_D_RXQ_HEAD)
    (s.ethUp p = true → f.fabric = false →
      ((List.finRange 16).find? (fun d => s.ethName p d == some (f.mac, f.vlan)) = some d →
        head ≠ s.rd (.eth p) (pageOff d ETH_D_RXQ_TAIL) → f.bytes.length ≤ 9216 → Answers (.ethFrameReceive p f) s (fun t =>
          t.ethRx = s.ethRx ++ [(d, p, f.bytes)] ∧ t.rd (.eth p) (pageOff d ETH_D_RXQ_HEAD) = head + 1 ∧ SameMemory s t)) ∧
      ((List.finRange 16).find? (fun d => s.ethName p d == some (f.mac, f.vlan)) = none → Answers (.ethFrameReceive p f) s (fun t =>
        t.rd (.eth p) ETH_RX_DROP = s.rd (.eth p) ETH_RX_DROP + 1 ∧ SameRegsBut [regKey (.eth p) ETH_RX_DROP] s t ∧ OnlyRegs s t)) ∧
      ((List.finRange 16).find? (fun d => s.ethName p d == some (f.mac, f.vlan)) = some d →
        head = s.rd (.eth p) (pageOff d ETH_D_RXQ_TAIL) ∨ 9216 < f.bytes.length → Answers (.ethFrameReceive p f) s (fun t =>
          t.rd (.eth p) ETH_RX_DROP = s.rd (.eth p) ETH_RX_DROP + 1 ∧ SameRegsBut [regKey (.eth p) ETH_RX_DROP] s t ∧ OnlyRegs s t))) ∧
    (s.ethUp p = false ∨ f.fabric = true → Answers (.ethFrameReceive p f) s (fun t => t = s)) ∧
    (∀ mac vlan, s.ethName p d = some (mac, vlan) → v = s.rd (.eth p) (pageOff d ETH_D_TXQ_TAIL) + 1 → Answers (.ethTxqTailWrite d p v) s
      (fun t => t.rd (.eth p) (pageOff d ETH_D_TXQ_TAIL) = v ∧ t.ethTx = s.ethTx ++ [{
          port := p, dye := d, mac := mac, vlan := vlan, index := (s.rd (.eth p) (pageOff d ETH_D_TXQ_TAIL)).toNat }] ∧ SameRegsBut [regKey (.eth p) (pageOff d ETH_D_TXQ_TAIL)] s t ∧
        t = { s with regs := t.regs, resp := t.resp, ethTx := t.ethTx, hostTx := t.hostTx })) ∧
    (∀ x, s.ethUp p = true → s.ethTx.find? (fun e => e.dye == d && e.port == p) = some x → Answers (.ethFrameSent d p e1588) s (fun t =>
      t.ethTx = s.ethTx.erase x ∧ t.rd (.eth p) (pageOff d ETH_D_TXQ_HEAD) = BitVec.ofNat 32 (x.index + 1) ∧ SameMemory s t)) ∧
    (s.dyeOf m = 0 →
      Answers (.ethEnable m p) s (fun t => t.ethUp p = true ∧ SameRegsBut [regKey (.eth p) ETH_STATUS] s t ∧ OnlyRegs s t) ∧
      (s.fld (.eth p) ETH_STATUS 0 2 ≠ 0 → Answers (.ethRetrain m p) s (fun t => t.ethUp p = true ∧
        SameRegsBut [regKey (.eth p) ETH_STATUS] s t ∧ OnlyRegs s t)) ∧
      (s.fld (.eth p) ETH_STATUS 0 2 = 0 → Answers (.ethRetrain m p) s (fun t => t = { s with resp := t.resp })) ∧
      Answers (.ethDisable m p) s (fun t => t.fld (.eth p) ETH_STATUS 0 2 = 0 ∧ t.ethUp p = false ∧ SameMemory s t) ∧
      (s.master = some s.slot → s.anyUp = false → Answers (.ethWallOfsWrite m p v) s (fun t =>
        t.rd .cnt CNT_WALL_OFS_L = tabGet (fun _ => 0) s.wallOfsL p.val ∧ t.rd .cnt CNT_WALL_OFS_H = v ∧ t.bit .cnt CNT_STATUS 4 = true ∧
        SameRegsBut [regKey .cnt CNT_WALL_OFS_L, regKey .cnt CNT_WALL_OFS_H, regKey .cnt CNT_STATUS] s t ∧ OnlyRegs s t)) ∧
      (s.master = some s.slot → s.anyUp = true → Answers (.ethWallOfsWrite m p v) s (fun t => t.rd .cnt CNT_WALL_OFS_H = v ∧
        t.linkTx = s.linkTx ++ [.wallOfs (t.rd64 .cnt CNT_WALL_OFS_L)] ∧ SameMemory s t)) ∧
      (s.master ≠ some s.slot → Answers (.ethWallOfsWrite m p v) s (fun t => t = { s with resp := t.resp }))) ∧
    Answers (.ethPortDown p) s (fun t => t.fld (.eth p) ETH_STATUS 0 2 = 0 ∧ t.ethUp p = false ∧ SameMemory s t) ∧
    (s.dyeOf m ≠ 0 → ∀ i ∈ [Instr.ethEnable m p, .ethDisable m p, .ethRetrain m p, .ethWallOfsWrite m p v], Answers i s (fun t =>
      t = { s with resp := t.resp } ∧ t.resp.permission = true))

/-- A request that comes in its place (R297 to R301): for this slot, its tag verified, its TXC new, and its SEQ the next of its pair; it
is for a segment of its dye here whose lease, if it is held, runs on. -/
abbrev FabricArrives (s : State) (p : FabricPacket) (g : Segment) : Prop :=
  p.dstSlot = s.slot ∧ p.tagOk = true ∧ natGet s.fabRxTxc (pairKey p.srcSlot p.port * 16 + p.dye.val) ≤ p.txc.toNat ∧
  p.seq = BitVec.ofNat 32 (tabGet pairReset s.fabPairs (pairKey p.srcSlot p.port)).rxNext ∧
  s.segment (p.offset.toNat / segBytes) = some g ∧ g.dye = p.dye ∧ (g.state = 1 → s.now < g.expiry)
/-- One response leaves: to the requester, with the request's tag, a status, a value and bytes. -/
abbrev Responds (s t : State) (p : FabricPacket) (status : BitVec 8) (v : Word64) (data : List Byte) : Prop :=
  ∃ q, t.fabTx = s.fabTx ++ [q] ∧ q.op = 9 ∧ q.dstSlot = p.srcSlot ∧ q.tag = p.tag ∧ q.status = status ∧ q.operand1 = v ∧ q.payload = data

/-- What a home performs (R298 to R300, Table 13-11): READ answers the bytes; WRITE needs the lease and stores its bytes; the atomics
answer the old word and store the new one; ACQUIRE, RENEW and RELEASE give, extend and end a lease of whole microseconds. -/
def Obligations.FabricHomeResults : Prop :=
  ∀ (s : State) (p : FabricPacket) (g : Segment), FabricArrives s p g →
    let o := p.offset.toNat
    let n := o / segBytes
    let len := (p.countM1.toNat + 1) * 128
    let mine := g.state = 1 ∧ g.holder = p.srcSlot
    let us := p.operand0.toNat
    let lease := { g with state := 1, holder := p.srcSlot, epoch := p.epoch, expiry := s.now + us * 1000 }
    (p.op = 1 → o % 128 = 0 → CleanHbm s o len → Answers (.fabricRead p) s (fun t =>
      Responds s t p 0 0 (tabGetList byteReset s.hbm o len) ∧ SameMemory s t)) ∧
    (p.op = 2 → mine → p.payload ≠ [] → CleanHbm s o p.payload.length → Answers (.fabricWrite p) s (fun t => Responds s t p 0 0 [] ∧
      HbmBytes o p.payload s t ∧ t.sram = s.sram ∧ t.acc = s.acc)) ∧
    (o % 8 = 0 → g.state = 0 ∨ mine → CleanHbm s o 8 →
      ∀ k ∈ [((3 : Nat), Instr.fabricFetchAdd p), (4, .fabricCas p), (5, .fabricSwap p)], p.op.toNat = k.1 →
        Answers k.2 s (fun t =>
          let old := BitVec.ofNat 64 (leNat (tabGetList byteReset s.hbm o 8))
          Responds s t p 0 old [] ∧ HbmBytes o (leBytes (atomicNew k.1 old p.operand0 p.operand1).toNat 8) s t ∧ t.sram = s.sram ∧
          t.acc = s.acc)) ∧
    (100 ≤ us → us ≤ 10000000 →
      (p.op = 6 → p.dye ≠ 0 → g.state ≠ 1 → 2 ≤ s.sync → s.leasesHeld < 65536 → Answers (.fabricAcquire p) s (fun t =>
        t.segment n = some lease ∧ SameMemory s t ∧
        Responds s t p (if g.state = 2 then 1 else 0) (BitVec.ofNat 64 (s.now + us * 1000)) [])) ∧
      (p.op = 7 → mine → Answers (.fabricRenew p) s (fun t => t.segment n = some lease ∧ SameMemory s t ∧
        Responds s t p 0 (BitVec.ofNat 64 (s.now + us * 1000)) []))) ∧
    (p.op = 8 → mine → g.donated = false → Answers (.fabricRelease p) s (fun t => t.segment n = some { g with state := 0 } ∧
      SameMemory s t ∧ Responds s t p 0 0 []))

/-- The transport and the leases (R297, R299 to R301): a response ends its request and tells its command's page; ACK and PROBE keep the
pair going; packets without acknowledgement leave again; a request that no response answers is dead; a lease that has run out leaves
its segment ORPHANED, or gives a donated one back. -/
def Obligations.FabricTransportResults : Prop :=
  ∀ (s : State) (p : FabricPacket) (slot : SlotNo) (port : Fin 2) (seg : Nat) (tag : BitVec 16),
    (p.dstSlot = s.slot → p.tagOk = true → natGet s.fabRxTxc (pairKey p.srcSlot p.port * 16 + p.dye.val) ≤ p.txc.toNat →
      (∀ q d, p.op = 9 → p.seq = BitVec.ofNat 32 (tabGet pairReset s.fabPairs (pairKey p.srcSlot p.port)).rxNext →
        s.fabReqs.find? (fun q => q.dst == p.srcSlot && BitVec.ofNat 16 q.tag == p.tag) = some q → q.issuer = .command d →
        2 < q.packet.op.toNat → Answers (.fabricResponse p) s (fun t =>
          t.rdP .smf d SMF_D_RESULT0 = BitVec.ofNat 32 (p.status.toNat + 256) ∧ t.rd64 .smf (pageOff d SMF_D_RESULT) = p.operand1 ∧
          tabGet (fun _ => false) t.smfBusy d.val = false ∧ (∀ x ∈ t.fabReqs, x.tag ≠ q.tag) ∧ SameMemory s t)) ∧
      (p.op = 10 → Answers (.fabricAck p) s (fun t => p.srcSlot ∉ t.unreachable ∧ natGet t.fabDead p.srcSlot.val = 0 ∧
        t = { s with unreachable := t.unreachable, fabDead := t.fabDead, fabRxTxc := t.fabRxTxc, fabPairs := t.fabPairs })) ∧
      (p.op = 11 → Answers (.fabricProbe p) s (fun t => (∃ q, t.fabTx = s.fabTx ++ [q] ∧ q.op = 10 ∧ q.dstSlot = p.srcSlot ∧ q.port = p.port) ∧
        t = { s with fabTx := t.fabTx, fabTxc := t.fabTxc, fabRxTxc := t.fabRxTxc, fabPairs := t.fabPairs }))) ∧
    (∀ g, s.segment seg = some g → g.state = 1 → g.expiry ≤ s.now → Answers (.leaseExpiry seg) s (fun t =>
      t.segment seg = (if g.donated then none else some { g with state := 2 }) ∧
      t.rd .smf SMF_ORPHANED = s.rd .smf SMF_ORPHANED + 1 ∧ t.sram = s.sram ∧ t.acc = s.acc ∧ (g.donated = false → t.hbm = s.hbm))) ∧
    (let qs := (tabGet pairReset s.fabPairs (pairKey slot port)).unacked
     Answers (.fabricRetransmit slot port) s (fun t => t.rd .smf SMF_RETX = s.rd .smf SMF_RETX + BitVec.ofNat 32 qs.length ∧
      (∃ l, t.fabTx = s.fabTx ++ l ∧ l.map (·.seq) = qs.map (·.seq) ∧ ∀ q ∈ l, q.port = port) ∧
      t = { s with regs := t.regs, fabTx := t.fabTx, fabTxc := t.fabTxc })) ∧
    (∀ q, s.fabReqs.find? (fun q => BitVec.ofNat 16 q.tag == tag) = some q → q.sentAt + 50000 ≤ s.now → Answers (.fabricDead tag) s (fun t =>
      t.rd .smf SMF_TIMEOUTS = s.rd .smf SMF_TIMEOUTS + 1 ∧ (∀ x ∈ t.fabReqs, x.tag ≠ q.tag) ∧
      natGet t.fabDead q.dst.val = natGet s.fabDead q.dst.val + 1 ∧ (2 ≤ natGet s.fabDead q.dst.val → q.dst ∈ t.unreachable) ∧
      (natGet s.fabDead q.dst.val < 2 → SameMemory s t) ∧ t.sram = s.sram ∧ t.acc = s.acc)) ∧
    ((∀ q ∈ s.fabReqs, BitVec.ofNat 16 q.tag ≠ tag) → Answers (.fabricDead tag) s (fun t => t = s)) ∧
    (slot ∈ s.unreachable → Answers (.probeTimer slot) s (fun t => (∃ q, t.fabTx = s.fabTx ++ [q] ∧ q.op = 11 ∧ q.dstSlot = slot) ∧
      t = { s with fabTx := t.fabTx, fabTxc := t.fabTxc })) ∧
    (∀ x, s.leases.filter (fun x => x.tier && x.seg == seg && decide (x.expiry ≤ s.now + x.us * 500) &&
        !s.fabReqs.any (fun q => q.packet.op == 7 && q.dst == x.slot && q.packet.offset.toNat / segBytes == seg)) = [x] →
      x.slot ∉ s.lostSlots → x.slot ∉ s.unreachable → Answers (.leaseRenewTimer seg) s (fun t =>
        (∃ q ∈ t.fabReqs, q.packet.op = 7 ∧ q.dst = x.slot ∧ q.issuer = .lease x.seg ∧ q.sentAt = s.now) ∧ SameMemory s t))

/-- The commands of an SMF page (R299, R300, R303): on a segment of this package they are performed at once, with their status and value
in the page; on one of another package the request leaves and the page is busy; a command given to a busy page is answered BUSY;
SEG_ALLOC makes 32 FREE frames a segment of the dye and SEG_FREE gives them back. -/
def Obligations.SmfCommandResults : Prop :=
  ∀ (s : State) (d : Dye) (a : Addr) (o us : Nat) (v w : Word64) (g : Segment),
    let cmds := [((6 : Nat), Instr.smfAcquire d a us), (7, .smfRenew d a us), (8, .smfRelease d a), (3, .smfFetchAdd d a v),
      (4, .smfCas d a w v), (5, .smfSwap d a v)]
    (tabGet (fun _ => false) s.smfBusy d.val = true → ∀ i ∈ cmds.map (·.2) ++ [.segAlloc d, .segFree d a], Answers i s (fun t =>
      t.rdP .smf d SMF_D_RESULT0 = 9 ∧ SameRegsBut [regKey .smf (pageOff d SMF_D_RESULT0)] s t ∧ t = { s with regs := t.regs })) ∧
    (∀ sl, tabGet (fun _ => false) s.smfBusy d.val = false → sharedAddr a = some (sl, o) → sl ≠ s.slot → sl ∉ s.lostSlots →
      sl ∉ s.unreachable → 2 ≤ s.sync → s.leaseLate d sl o = false → ∀ c ∈ cmds, Answers c.2 s (fun t =>
        (∃ q, t.fabReqs = s.fabReqs ++ [q] ∧ q.dst = sl ∧ q.issuer = .command d ∧ q.packet.op.toNat = c.1 ∧ q.packet.dye = d ∧
          q.sentAt = s.now) ∧ tabGet (fun _ => false) t.smfBusy d.val = true ∧ t.rdP .smf d SMF_D_RESULT0 = 0 ∧ SameMemory s t)) ∧
    (tabGet (fun _ => false) s.smfBusy d.val = false → sharedAddr a = some (s.slot, o) →
    let done := fun (t : State) (status : Word32) (x : Word64) => t.rdP .smf d SMF_D_RESULT0 = status + 256 ∧
      t.rd64 .smf (pageOff d SMF_D_RESULT) = x ∧ tabGet (fun _ => false) t.smfBusy d.val = false
    let n := o / segBytes
    let mine := g.state = 1 ∧ g.holder = s.slot
    (s.segment n = some g → g.dye = d → (g.state = 1 → s.now < g.expiry) →
      (100 ≤ us → us ≤ 10000000 →
        (d ≠ 0 → g.state = 0 → 2 ≤ s.sync → s.leasesHeld < 65536 → Answers (.smfAcquire d a us) s (fun t =>
          done t 0 (BitVec.ofNat 64 (s.now + us * 1000)) ∧ t.segment n = some { g with
            state := 1, holder := s.slot, epoch := 0, expiry := s.now + us * 1000 } ∧ SameMemory s t)) ∧
        (mine → Answers (.smfRenew d a us) s (fun t => done t 0 (BitVec.ofNat 64 (s.now + us * 1000)) ∧ t.segment n = some { g with
            state := 1, holder := s.slot, epoch := 0, expiry := s.now + us * 1000 } ∧ SameMemory s t))) ∧
      (mine → g.donated = false → Answers (.smfRelease d a) s (fun t => done t 0 0 ∧ t.segment n = some { g with state := 0 } ∧
        SameMemory s t)) ∧
      (o % 8 = 0 → g.state = 0 ∨ mine → CleanHbm s o 8 →
        let old := BitVec.ofNat 64 (leNat (tabGetList byteReset s.hbm o 8))
        Answers (.smfFetchAdd d a v) s (fun t => done t 0 old ∧ HbmBytes o (leBytes (old + v).toNat 8) s t ∧ t.sram = s.sram) ∧
        Answers (.smfCas d a w v) s (fun t => done t 0 old ∧ HbmBytes o (leBytes (if old = w then v else old).toNat 8) s t ∧
          t.sram = s.sram) ∧
        Answers (.smfSwap d a v) s (fun t => done t 0 old ∧ HbmBytes o (leBytes v.toNat 8) s t ∧ t.sram = s.sram)) ∧
      (g.donated = false → Answers (.segFree d a) s (fun t => t.segment n = none ∧ t.rdP .smf d SMF_D_RESULT0 = 256 ∧
        (∀ i < 32, (t.frame (32 * n + i)).state = 0)))) ∧
    (∀ k, s.shortBy d 32 = 0 → s.draw.2.freeSegFrom (s.frames.length + 200) (Config.freeNat s.draw.1) = some k →
      Answers (.segAlloc d) s (fun t => t.segment k = some { dye := d } ∧
        done t 0 (BitVec.ofNat 64 (0x400000000000 + s.slot.val * 2 ^ 40 + k * segBytes)) ∧
        (∀ i < 32, (t.frame (32 * k + i)).state = 1 ∧ (t.frame (32 * k + i)).owner = d ∧ (t.frame (32 * k + i)).stale = 0xFFFF) ∧
        SameMemory s t)))

/-! ### Power, clocks and heat (chapter 14) -/

/-- Region power states (R306 to R310, R320): a request from a stable state begins an entry to a lower state, with FREQ 0, or a wake, and one
that comes during an entry or a wake waits; the end of an entry reaches the target, Off with the PLL off and the cores' contents gone;
the end of a wake is Active at the common frequency, with everything cleared after Off; idle regions go to Retention and Off; a short turns
the region Off, a retry that holds wakes it, a third short fails it. Any other master's request is a permission error. -/
def Obligations.RegionPowerResults : Prop :=
  ∀ (s : State) (r : RegionNo) (m : Master) (target : BitVec 2),
    let cores := fun (t : State) => ∀ c : CoreId, c.region = r → t.core c = {}
    let shorted := fun (t : State) => tabGet (fun _ => false) t.ivrShort r.val
    let entered := fun (n : Nat) (t : State) => t.rgnState r = 4 ∧ t.rgnTarget r = n ∧ t.fld .pwr (rgnReg r) 16 11 = 0 ∧
      (n ≠ 2 ∨ (∀ c : CoreId, c.region = r → (s.bistOf c).active = false) →
        SameRegsBut [regKey .pwr (rgnReg r), regKey .pwr PWR_STATUS] s t ∧ t = { s with regs := t.regs, resp := t.resp, rgnPend := t.rgnPend })
    let woken := fun (source goal : Nat) (t : State) => t.rgnState r = 5 ∧ t.rgnTarget r = goal ∧ natGet t.wakeFrom r.val = source ∧
      (source ≠ 3 → SameRegsBut [regKey .pwr (rgnReg r), regKey .pwr PWR_STATUS] s t ∧
        t = { s with regs := t.regs, resp := t.resp, rgnPend := t.rgnPend, wakeFrom := t.wakeFrom }) ∧
      (source = 3 → t.bit (.atp r) ATP_STATUS 9 = true ∧ t.couClearing r = true ∧ t.bit (.spd r) SPD_STATUS 0 = true ∧
        (∀ k < 4, t.fld (.hbm (Fin.ofNat 8 (regionDie r * 4 + k))) HBM_STATUS 0 2 ≠ 2) ∧ SameMemory s t)
    (r ∉ s.failedRgns → s.owner r ≠ 0 → shorted s = false →
      (m = .innkeeper ∨ s.dyeOf m = 0 →
        (s.rgnState r = 0 → s.mayLeave r = true → target ≠ 0 → Answers (.regionPowerRequest m r target) s (entered target.toNat)) ∧
        (s.rgnState r = 0 → s.mayLeave r = false → target ≠ 0 → Answers (.regionPowerRequest m r target) s (fun t =>
          t = { s with resp := t.resp, rgnPend := t.rgnPend } ∧ natGet t.rgnPend r.val = target.toNat + 1)) ∧
        (s.rgnState r = 1 ∨ s.rgnState r = 2 ∨ s.rgnState r = 3 → target = 0 → s.noWake = false →
          Answers (.regionPowerRequest m r target) s (woken (s.rgnState r) 0)) ∧
        (s.rgnState r = 4 → target = 0 → s.noWake = false → Answers (.regionPowerRequest m r target) s (fun t =>
          t.bit .pwr (rgnReg r) 6 = true ∧ t.rgnState r = 4 ∧ natGet t.rgnPend r.val = 1 ∧
          t = { s with regs := t.regs, resp := t.resp, rgnPend := t.rgnPend })) ∧
        (s.rgnState r = 4 ∨ s.rgnState r = 5 → target ≠ 0 → Answers (.regionPowerRequest m r target) s (fun t =>
          t = { s with resp := t.resp, rgnPend := t.rgnPend } ∧ natGet t.rgnPend r.val = target.toNat + 1))) ∧
      (s.idleServe r = true → s.rgnState r = 0 → s.mayLeave r = true →
        (s.idleFor r s.idleRet = true → Answers (.idleRetTimer r) s (entered 2)) ∧
        (s.idleFor r s.idleOff = true → s.tier0In r = [] → Answers (.idleOffTimer r) s (entered 3)))) ∧
    (s.idleFor r s.idleRet = false → Answers (.idleRetTimer r) s (fun t => t = s)) ∧
    (s.idleFor r s.idleOff = false → Answers (.idleOffTimer r) s (fun t => t = s)) ∧
    (m ≠ .innkeeper → s.dyeOf m ≠ 0 → Answers (.regionPowerRequest m r target) s (fun t => t = { s with resp := t.resp } ∧
      t.resp.permission = true)) ∧
    (s.rgnState r = 4 → natGet s.rgnPend r.val = 0 → Answers (.regionEntryDone r) s (fun t => t.rgnState r = s.rgnTarget r ∧
      (s.rgnTarget r = 3 → t.bit .clk CLK_PLL_LOCK r.val = false ∧ cores t) ∧
      (s.rgnTarget r ≠ 3 → t = { s with regs := t.regs }) ∧ t.sram = s.sram ∧ t.hbm = s.hbm ∧
      SameRegsBut [regKey .pwr (rgnReg r), regKey .pwr PWR_STATUS, regKey .clk CLK_PLL_LOCK, regKey (.spd r) SPD_STATUS,
        regKey (.spd r) SPD_CLR_STATUS] s t)) ∧
    (s.rgnState r = 5 → ∀ ok1 ok2 bad,
      (natGet s.rgnPend r.val = 0 → s.overTrimmed r = false →
        (natGet s.wakeFrom r.val ≠ 3 → Answers (.regionWakeDone r ⟨ok1, ok2, bad⟩) s (fun t => t.rgnState r = s.rgnTarget r ∧
          t.bit .clk CLK_PLL_LOCK r.val = true ∧ t.bit (.spd r) SPD_STATUS 3 = false ∧
          (s.rgnTarget r = 0 → t.fld .pwr (rgnReg r) 16 11 = s.commonFreq (s.owner r) % 2048) ∧
          SameRegsBut [regKey .pwr (rgnReg r), regKey .pwr PWR_STATUS, regKey .clk CLK_PLL_LOCK, regKey (.spd r) SPD_STATUS] s t ∧
          t = { s with regs := t.regs, trimPend := t.trimPend })) ∧
        (natGet s.wakeFrom r.val = 3 → ok1 = true ∨ ok2 = true → Answers (.regionWakeDone r ⟨ok1, ok2, bad⟩) s (fun t =>
          t.rgnState r = s.rgnTarget r ∧ t.bit .clk CLK_PLL_LOCK r.val = true ∧ t.bit (.spd r) SPD_STATUS 3 = true ∧ cores t ∧
          t.fld (.spd r) SPD_CLR_STATUS 0 3 = 3 ∧ t.bit (.spd r) SPD_CLR_STATUS 9 = !ok1 ∧
          (∀ k : CorePos, ∀ j < 0x200000, tabGet byteReset t.sram (sliceKey ⟨r, k⟩ j) = 0) ∧ t.hbm = s.hbm))) ∧
      (natGet s.wakeFrom r.val = 3 → ok1 = false → ok2 = false → Answers (.regionWakeDone r ⟨ok1, ok2, bad⟩) s (fun t =>
        t.rgnState r = 6 ∧ r ∈ t.failedRgns ∧ t.bit (.spd r) SPD_STATUS 4 = true ∧ t.hbm = s.hbm)) ∧
      (natGet s.wakeFrom r.val ≠ 3 → s.overTrimmed r = true → Answers (.regionWakeDone r ⟨ok1, ok2, bad⟩) s (fun t =>
        t.rgnState r = 6 ∧ r ∈ t.failedRgns ∧ r ∉ t.trimOver ∧ t.sram = s.sram ∧ t.hbm = s.hbm))) ∧
    (s.rgnState r ≠ 3 → s.rgnState r ≠ 6 → s.moveOf r = none → Answers (.ivrShort r) s (fun t => t.rgnState r = 3 ∧
      t.fld .pwr (rgnReg r) 7 2 = 0 ∧ t.fld .pwr (rgnReg r) 16 11 = 0 ∧ t.bit .clk CLK_PLL_LOCK r.val = false ∧ cores t ∧ shorted t = true ∧
      (s.owner r = 0 → (∀ p ∈ s.steps, p.dye ≠ 0) → (∀ q ∈ s.plans, q.plan.dye ≠ 0) → t.sram = s.sram ∧ t.hbm = s.hbm))) ∧
    (s.rgnState r = 3 ∨ s.rgnState r = 6 → Answers (.ivrShort r) s (fun t => t = s)) ∧
    (shorted s = true →
      (s.noWake = false → Answers (.hiccupRetry r false) s (fun t => woken 3 0 t ∧
        t.fld .pwr (rgnReg r) 7 2 = min 3 (s.fld .pwr (rgnReg r) 7 2 + 1) ∧ shorted t = false)) ∧
      (s.fld .pwr (rgnReg r) 7 2 = 2 → Answers (.hiccupRetry r true) s (fun t => t.rgnState r = 6 ∧ t.bit .pwr (rgnReg r) 9 = true ∧
        r ∈ t.failedRgns ∧ shorted t = false ∧ t.sram = s.sram ∧ t.hbm = s.hbm)) ∧
      (s.fld .pwr (rgnReg r) 7 2 < 2 → Answers (.hiccupRetry r true) s (fun t =>
        t.fld .pwr (rgnReg r) 7 2 = s.fld .pwr (rgnReg r) 7 2 + 1 ∧ t.rgnState r = s.rgnState r ∧ t.ivrShort = s.ivrShort ∧ SameMemory s t)))

/-- The governor, heat and the package's warnings (R312 to R317, R319, R320, R338, R366): a sample lands in the sensor registers and sets WARM and HOT
by its hottest junction; a ceiling rises by 25 MHz at most to the budget ceiling; a stretch begins with its request and lapses after 65 µs;
a lost reference stops the counter's synchrony; a power warning closes admission and the Ledger until it is released and cleared. -/
def Obligations.GovernorResults : Prop :=
  ∀ (s : State) (r : RegionNo) (d : Dye) (m : Master) (t0 : SensorSample) (mon : Fin 8) (slot : SlotNo) (mhz : Nat),
    (t0.wf = true → (∀ x ∈ t0.junction, x < 95) → (∀ x ∈ t0.hbm, x < 90) → (∀ x ∈ t0.optic, x < 75) →
      Answers (.thermalSample t0) s (fun t => t.junction r = t0.junction.getD r.val 0 ∧
        (∀ h, t.hbmTemp h = t0.hbm.getD h.val 0) ∧ t.bit .thm THM_STATUS 0 = false ∧ t.bit .thm THM_STATUS 1 = false ∧
        t.coolAt = (if s.coolAt = 0 then s.now + 1 else s.coolAt) ∧ SameMemory s t)) ∧
    (t0.wf = true → s.bit .thm THM_STATUS 2 = false → (∃ q : RegionNo, 110 ≤ t0.junction.getD q.val 0) → Answers (.thermalSample t0) s (fun t =>
      t.bit .thm THM_STATUS 0 = true ∧ t.bit .thm THM_STATUS 1 = true ∧ t.bit .thm THM_STATUS 2 = true ∧ t.bit .thm THM_STATUS 3 = true ∧
      t.coolAt = 0)) ∧
    (t0.wf = false → exec (.thermalSample t0) s = .fault .malformedCommand) ∧
    (natGet s.hotAt r.val ≠ 0 → natGet s.hotAt r.val + 200000 ≤ s.now + 1 →
      (s.hotPackage = false → 100 ≤ s.junction r → s.owner r ∉ s.governed →
        Answers (.throttleRepeat r) s (fun t => t.rd .thm THM_EVENTS = s.rd .thm THM_EVENTS + 1 ∧ natGet t.hotAt r.val = s.now + 1 ∧
          SameRegsBut [regKey .thm THM_EVENTS] s t ∧ t = { s with regs := t.regs, hotAt := t.hotAt })) ∧
      (s.hotPackage = false → 100 ≤ s.junction r → s.owner r ∈ s.governed → Answers (.throttleRepeat r) s (fun t =>
        (t.stretchOf (s.owner r)).isSome = true ∧ natGet t.hotAt r.val = s.now + 1 ∧ SameMemory s t)) ∧
      (s.hotPackage = true → Answers (.throttleRepeat r) s (fun t => (∀ q ∈ s.governed, (t.stretchOf q).isSome = true) ∧
        (s.owner r ≠ 0 → natGet t.hotAt r.val = s.now + 1) ∧ SameMemory s t))) ∧
    (s.now + 1 < natGet s.hotAt r.val + 200000 → Answers (.throttleRepeat r) s (fun t => t = s)) ∧
    (s.coolAt ≠ 0 → max s.coolAt (natGet s.riseAt d.val) + 10000000 ≤ s.now + 1 → d ∈ s.governed →
      s.thermCeil d < min (s.budgetCeil d) (s.fMaxOf d) → s.thermCeil d ≠ 0 → s.fMaxOf d < 2048 → Answers (.thermalCeilingRise d) s (fun t =>
        t.thermCeil d = min (min (s.budgetCeil d) (s.fMaxOf d)) (s.thermCeil d + 25) ∧ natGet t.riseAt d.val = s.now + 1 ∧
        SameRegsBut [regKey .pwr (pageOff d PWR_D_CEIL)] s t ∧ SameMemory s t)) ∧
    (s.dyeOf m = 0 → Answers (.critAck m) s (fun t => OnlyRegs s t ∧ SameRegsBut [regKey .thm THM_STATUS] s t ∧
      ((∀ q, s.junction q < 95) → t.bit .thm THM_STATUS 2 = false) ∧ ((∃ q, 95 ≤ s.junction q) → t = { s with resp := t.resp }))) ∧
    (s.dyeOf m ≠ 0 → Answers (.critAck m) s (fun t => t = { s with resp := t.resp } ∧ t.resp.permission = true)) ∧
    (∀ p, let f := max (s.fMinOf d) (mhz / 25 * 25)
      s.isFront d = true → (s.image d).isSome = true → s.pkgTable d = [p] → p.slot = slot → mhz ≤ s.fMaxOf d → mhz ≠ 0 →
      (f < s.targetFreq d → Answers (.ceilingChange d slot mhz) s (fun t => (d, f, s.now + 50000) ∈ t.switchPoints ∧ t.regs = s.regs ∧
        natGet t.ceils (d.val * 64 + slot.val) = mhz ∧ (s.peers d = [] → t.linkTx = s.linkTx) ∧ SameMemory s t)) ∧
      (s.targetFreq d < f → Answers (.ceilingChange d slot mhz) s (fun t => (∃ tsw, s.now + 50000 ≤ tsw ∧ (d, f, tsw) ∈ t.switchPoints) ∧
        t.regs = s.regs ∧ natGet t.ceils (d.val * 64 + slot.val) = mhz ∧ SameMemory s t))) ∧
    (s.isFront d = false → Answers (.ceilingChange d slot mhz) s (fun t => t = s)) ∧
    (∀ x, s.stretchOf d = some x → x.since + 65000 ≤ s.now → (∀ p ∈ s.switchPoints, p.1 = d → s.now < p.2.2) → Answers (.stretchTimeout d) s
      (fun t => t.stretchOf d = none ∧ (x.freq < 2048 → t.commonFreq d = x.freq ∧
        ∀ q, s.owner q = d → s.rgnActive q = true → t.rgnFreq q = x.freq) ∧ SameMemory s t)) ∧
    Answers .budgetTick s (fun t => (∀ e ∈ s.budgets, t.fld .pwr (pageOff e.1 PWR_D_BUDGET) 0 12 = e.2 / 12000 % 4096) ∧ SameMemory s t) ∧
    (∀ w20 w100, (min 2800000 (450 * s.fld .pkg PKG_SUPPLY 0 16) < w20 ∨ 1200 * s.fld .pwr PWR_CAP 0 12 < w100 → Answers (.fastPowerLimit ⟨w20, w100⟩) s (fun t =>
        (∀ q ∈ s.governed, ∃ x, t.stretchOf q = some x ∧ x.fast = true) ∧ SameMemory s t)) ∧
      (w20 ≤ min 2800000 (450 * s.fld .pkg PKG_SUPPLY 0 16) → w100 ≤ 1200 * s.fld .pwr PWR_CAP 0 12 → Answers (.fastPowerLimit ⟨w20, w100⟩) s (fun t => t = s))) ∧
    (s.rgnState r = 0 ∨ s.rgnState r = 5 → s.fld .pwr (PWR_RGN_TRIM + 4 * r.val) 0 4 < 10 → Answers (.ageingSample r mon true) s (fun t =>
      t.fld .pwr (PWR_RGN_TRIM + 4 * r.val) 0 4 = s.fld .pwr (PWR_RGN_TRIM + 4 * r.val) 0 4 + 1 ∧
      t.fld .pwr (PWR_RGN_TRIM + 4 * r.val) 4 3 = mon.val ∧
      natGet t.norTrims r.val = s.fld .pwr (PWR_RGN_TRIM + 4 * r.val) 0 4 + 1 ∧
      natGet t.trimPend r.val = natGet s.trimPend r.val + 1 ∧ SameMemory s t)) ∧
    (s.rgnState r = 0 ∨ s.rgnState r = 5 → 10 ≤ s.fld .pwr (PWR_RGN_TRIM + 4 * r.val) 0 4 → Answers (.ageingSample r mon true) s (fun t =>
      r ∈ t.trimOver ∧ t = { s with trimOver := t.trimOver })) ∧
    Answers (.ageingSample r mon false) s (fun t => t = s) ∧
    (s.bit .clk CLK_STATUS 0 = true → Answers .referenceClockLoss s (fun t => t.sysRef = false ∧ t.sync = 3)) ∧
    (s.bit .clk CLK_PLL_LOCK r.val = true → Answers (.regionPllLossOfLock r) s (fun t => t.bit .clk CLK_PLL_LOCK r.val = false ∧
      (∀ p ∈ t.steps, ¬(p.dye = s.owner r ∧ p.state = .running ∧ p.prefill = s.inPrefill r)) ∧
      (s.owner r = 0 → (∀ p ∈ s.steps, p.dye ≠ 0) → (∀ q ∈ s.plans, q.plan.dye ≠ 0) → SameMemory s t))) ∧
    (s.bit .clk CLK_PLL_LOCK r.val = false → Answers (.regionPllLossOfLock r) s (fun t => t = s)) ∧
    (s.bit .pwr PWR_STATUS 4 = false → Answers .pwrWarnN s (fun t => t.bit .pwr PWR_STATUS 4 = true ∧ t.bit .inn INN_STATUS 1 = true ∧
      t.ldgClosed = true ∧ t.pinPwrWarn = true ∧ t.ldgHist = [] ∧ t.ldgIngress = [] ∧ ∃ x ∈ t.ldgCommit, x.type = 6)) ∧
    (s.bit .pwr PWR_STATUS 4 = true → Answers .pwrWarnN s (fun t => t = s)) ∧
    (s.bit .pwr PWR_STATUS 4 = true → Answers .pwrWarnNRelease s (fun t => t.pinPwrWarn = false ∧ t.warnReleased = s.now + 1)) ∧
    (s.warnReleased ≠ 0 → s.warnReleased + 10000000 ≤ s.now + 1 → s.vin = true → Answers .frozenClear s (fun t => t.ldgClosed = false ∧
      t.bit .ldg LDG_STATUS 1 = false ∧ t.warnReleased = 0 ∧ (∃ x, t.ldgCommit = s.ldgCommit ++ [x] ∧ x.type = 6) ∧
      SameRegsBut [regKey .ldg LDG_STATUS] s t ∧ SameMemory s t))

/-! ### The Ledger, snapshots, injection and the timing pins (chapter 15) -/

/-- The Ledger (R325 to R330, R334, R337): an event opens a record of its kind, one of severity 3 or more is committed at once; a period
commits what is open; a commit appends the oldest waiting record with the next sequence number; a failed read-back is counted and
keeps the record; the record registers load by index; package faults assert FAULT_N and stop admission. -/
def Obligations.LedgerResults : Prop :=
  ∀ (s : State) (e : LedgerEvent) (m : Master) (d : Dye) (r : RegionNo),
    (s.bit .ldg LDG_STATUS 1 = false → s.ldgClosed = false → s.ldgIngress = [] → (∀ x ∈ s.ldgOpen, sameKind x e = false) →
      s.ldgOpen.length < 256 → e.injected = false →
      e.type ≠ 1 ∨ e.detector.toNat ∉ [0x08, 0x0A, 0x0B, 0x0C, 0x0D, 0x16, 0x22, 0x27] →
      (e.severity < 3 → Answers (.ledgerEvent e) s (fun t => ∃ x, sameKind x e = true ∧ x.time = s.now ∧ x.detail = e.detail ∧
        x.confirmed = s.confirms e ∧ t = { s with ldgOpen := s.ldgOpen ++ [x] })) ∧
      (3 ≤ e.severity → e.severity ≠ 5 → Answers (.ledgerEvent e) s (fun t => ∃ x, sameKind x e = true ∧ x.time = s.now ∧
        x.detail = e.detail ∧ x.confirmed = s.confirms e ∧ t = { s with ldgCommit := s.ldgCommit ++ [x] }))) ∧
    (e.injected = false → e.severity = 5 → e.type ≠ 1 → Answers (.ledgerEvent e) s (fun t => t.pinFault = true ∧
      t.bit .inn INN_STATUS 1 = true ∧ ∀ l, t.linkState l = tDARK)) ∧
    (e.injected = true → s.bit .inj INJ_STATUS 1 = false → Answers (.ledgerEvent e) s (fun t => t = s)) ∧
    (s.ldgClosed = false → s.ldgIngress = [] → Answers .ledgerPeriod s (fun t => t = { s with
      ldgCommit := s.ldgCommit ++ s.ldgOpen ++ s.ldgHist.flatMap (histRec s.now), ldgOpen := [], ldgHist := [] })) ∧
    (s.ldgClosed = true → Answers .ledgerPeriod s (fun t => t = s)) ∧
    (s.bit .ldg LDG_STATUS 1 = true ∨ s.mramFree = false → ∀ ok, Answers (.recordCommit ok) s (fun t => t = s)) ∧
    (∀ x xs, s.bit .ldg LDG_STATUS 1 = false → s.mramFree = true → s.ldgCommit = x :: xs →
      (s.ldgRing.length < ringSize → Answers (.recordCommit true) s (fun t => t.ldgCommit = xs ∧ t.ldgSeq = s.ldgSeq + 1 ∧
        t.ldgRing = s.ldgRing ++ [{ x with seq := s.ldgSeq }] ∧ t.rd .ldg LDG_HEAD = BitVec.ofNat 32 s.ldgSeq ∧
        SameRegsBut [regKey .ldg LDG_HEAD, regKey .ldg LDG_TAIL, regKey .ldg LDG_STATUS] s t ∧ SameMemory s t)) ∧
      Answers (.recordCommit false) s (fun t => t.ldgCommit = x :: xs ∧ t.ldgRing = s.ldgRing ∧
        t.rd .ldg LDG_LOST = s.rd .ldg LDG_LOST + 1 ∧ SameMemory s t)) ∧
    (s.dyeOf m = 0 →
      ((∀ x ∈ s.ldgRing, x.seq < s.ldgSeq) → s.ldgAt ≠ s.now + 1 → Answers (.alertAck m) s (fun t => t.bit .ldg LDG_STATUS 2 = false ∧
        SameRegsBut [regKey .ldg LDG_STATUS] s t ∧
        t = { s with regs := t.regs, resp := t.resp, ldgAcked := max s.ldgAcked s.ldgSeq })) ∧
      (s.ldgAt = s.now + 1 → Answers (.alertAck m) s (fun t => SameRegsBut [regKey .ldg LDG_STATUS] s t ∧
        t = { s with regs := t.regs, resp := t.resp, ldgAcked := max s.ldgAcked (s.ldgSeq - 1) })) ∧
      (∀ x, s.ldgRing.find? (fun x => x.seq % 2 ^ 32 == (s.rd .ldg LDG_REC_IDX).toNat) = some x → Answers (.ldgRecLoad m) s (fun t =>
        t.rd .ldg LDG_REC_IDX = s.rd .ldg LDG_REC_IDX + 1 ∧
        (∀ k < 16, t.rd .ldg (LDG_REC + 4 * k) = BitVec.ofNat 32 (leNat ((x.bytes.drop (4 * k)).take 4))) ∧ OnlyRegs s t)) ∧
      (s.ldgRing.find? (fun x => x.seq % 2 ^ 32 == (s.rd .ldg LDG_REC_IDX).toNat) = none → Answers (.ldgRecLoad m) s (fun t =>
        t.rd .ldg LDG_REC_IDX = s.rd .ldg LDG_REC_IDX + 1 ∧ (∀ k < 16, t.rd .ldg (LDG_REC + 4 * k) = 0) ∧ OnlyRegs s t))) ∧
    (s.dyeOf m ≠ 0 → ∀ i ∈ [Instr.alertAck m, .ldgRecLoad m], Answers i s (fun t => t = { s with resp := t.resp } ∧
      t.resp.permission = true)) ∧
    (s.dyeOf m = d ∨ s.dyeOf m = 0 → ∀ x,
      s.ldgRing.find? (fun x => x.dye == d && decide ((s.rdP .ldg d LDG_D_REC_IDX).toNat ≤ x.seq)) = some x →
      Answers (.ldgDRecLoad m d) s (fun t => t.rdP .ldg d LDG_D_REC_IDX = BitVec.ofNat 32 (x.seq + 1) ∧
        (∀ k < 16, t.rd .ldg (pageOff d LDG_D_REC + 4 * k) = BitVec.ofNat 32 (leNat ((x.bytes.drop (4 * k)).take 4))) ∧ OnlyRegs s t)) ∧
    (s.dyeOf m ≠ d → s.dyeOf m ≠ 0 → Answers (.ldgDRecLoad m d) s (fun t => t = { s with resp := t.resp } ∧ t.resp.data = [0, 0, 0, 0])) ∧
    (∀ x, (s.dyeOf m = d ∨ s.dyeOf m = 0) → x = s.rdP .ldg d LDG_D_REC_IDX →
      s.ldgRing.find? (fun x => x.dye == d && decide ((s.rdP .ldg d LDG_D_REC_IDX).toNat ≤ x.seq)) = none →
      Answers (.ldgDRecLoad m d) s (fun t => t.rdP .ldg d LDG_D_REC_IDX = x ∧
        (∀ k < 16, t.rd .ldg (pageOff d LDG_D_REC + 4 * k) = 0) ∧ OnlyRegs s t)) ∧
    (s.rgnState r ≠ 3 → s.rgnState r ≠ 6 → Answers (.rgnControllerWatchdog r) s (fun t =>
      (∀ p ∈ t.steps, ¬(p.dye = s.owner r ∧ p.state = .running ∧ p.prefill = s.inPrefill r)) ∧
      (s.owner r ≠ 0 → s.isNorla (s.owner r) = true → s.jobState (s.owner r) ∈ [1, 2, 3] → t.jobState (s.owner r) = 5) ∧
      (s.owner r = 0 → (∀ p ∈ s.steps, p.dye ≠ 0) → (∀ q ∈ s.plans, q.plan.dye ≠ 0) → t.cores = s.cores ∧ SameMemory s t))) ∧
    (s.rgnState r = 3 ∨ s.rgnState r = 6 → Answers (.rgnControllerWatchdog r) s (fun t => t = s)) ∧
    (∀ i ∈ [Instr.dieBridgeFailure, .nightPorterWatchdog], Answers i s (fun t => t.pinFault = true ∧ t.bit .inn INN_STATUS 1 = true ∧
      (i = .dieBridgeFailure → t.bit .clk CLK_STATUS 2 = false) ∧ (∀ l, t.linkState l = tDARK ∧ t.bit (.tlk l) TLK_STATUS 3 = false)))

/-- Snapshots, injection and the timing pins (R331 to R336, R340, R341): a push between 2 µs (30 µs for every package) and 10 s ahead arms the
scope; its end takes a ticket; an injection is armed when enabled, aimed and allowed; a selection switches its pin through LOW. -/
def Obligations.SnapshotInjectionPinResults : Prop :=
  ∀ (s : State) (m : Master) (d : Dye) (n : Fin 4) (v : Word32),
    (∀ (k : Nat) (sys : Bool) (i : Instr), (k = 0 ∧ i = .snapshotPush m sys ∧ s.dyeOf m = 0) ∨
        (k = d.val + 1 ∧ i = .dyeSnapshotPush m d sys ∧ (s.dyeOf m = d ∨ s.dyeOf m = 0)) →
      let T := (s.rd64 .ldg (snapBase k)).toNat
      let lead := if sys then 30000 else 2000
      ((s.snap k).armed = false → s.now + lead ≤ T → T ≤ s.now + 10000000000 → (k = 0 ∨ sys = false ∨ s.isFront d = true) →
        Answers i s (fun t => t.snap k = { armed := true, value := T, waits := if sys then s.snapSlots k else [] } ∧ t.fld .ldg (snapStatus k) 0 2 = 1 ∧
          t.fld .ldg (snapStatus k) 2 6 = 0 ∧ (sys = false → t.linkTx = s.linkTx) ∧
          SameRegsBut [regKey .ldg (snapStatus k), regKey .ldg (snapBase k + 0x10)] s t ∧ SameMemory s t)) ∧
      ((s.snap k).armed = true → Answers i s (fun t => t.fld .ldg (snapStatus k) 4 4 = 1 ∧ t.snap k = s.snap k ∧
        SameRegsBut [regKey .ldg (snapStatus k)] s t ∧ OnlyRegs s t)) ∧
      ((s.snap k).armed = false → T < s.now + lead → Answers i s (fun t => t.fld .ldg (snapStatus k) 0 2 = 3 ∧
        t.fld .ldg (snapStatus k) 4 4 = 2 ∧ SameRegsBut [regKey .ldg (snapStatus k)] s t ∧ OnlyRegs s t))) ∧
    (∀ k, (k = 0 ∧ d = 0) ∨ (k = d.val + 1 ∧ (d ≠ 0 ∨ (s.snap 0).armed = false)) → (s.snap k).armed = true → (s.snap k).value ≤ s.now →
      ((∃ sl ∈ (s.snap k).waits, sl ∉ s.lostSlots) → Answers (.snapshotDone d) s (fun t =>
        t.snap k = { s.snap k with fired := true } ∧ SameMemory s t)) ∧
      ((∀ sl ∈ (s.snap k).waits, sl ∈ s.lostSlots) → Answers (.snapshotDone d) s (fun t => (t.snap k).armed = false ∧
       t.fld .ldg (snapStatus k) 0 2 = 2 ∧ t.fld .ldg (snapStatus k) 16 16 = (s.fld .ldg (snapStatus k) 16 16 + 1) % 65536 ∧
       (∀ sl, (s.snap k).asker = some sl → t.linkTx = s.linkTx ++ [.control sl (.snapped (if k = 0 then 0 else d))]) ∧
       SameMemory s t))) ∧
    ((s.snap (d.val + 1)).armed = false → d ≠ 0 ∨ (s.snap 0).armed = false → Answers (.snapshotDone d) s (fun t => t = s)) ∧
    (s.dyeOf m = 0 →
      (s.bit .inj INJ_STATUS 0 = true → s.bit .inj INJ_STATUS 1 = false → s.injBadTarget = false →
        (s.injOwner = 0 ∨ s.tokenAllows s.injOwner 1 = true) → Answers (.arm m) s (fun t => t.bit .inj INJ_STATUS 1 = true ∧
          t.bit .inj INJ_STATUS 2 = false ∧ t.fld .inj INJ_STATUS 8 8 = 0 ∧ SameRegsBut [regKey .inj INJ_STATUS] s t ∧
          t = { s with regs := t.regs, resp := t.resp, injSeen := 0 })) ∧
      (s.bit .inj INJ_STATUS 0 = false → Answers (.arm m) s (fun t => t.fld .inj INJ_STATUS 8 8 = 1 ∧
        t.bit .inj INJ_STATUS 1 = s.bit .inj INJ_STATUS 1 ∧ SameRegsBut [regKey .inj INJ_STATUS] s t ∧ OnlyRegs s t)) ∧
      (s.bit .inj INJ_STATUS 0 = true → s.bit .inj INJ_STATUS 1 = true → Answers (.arm m) s (fun t => t.fld .inj INJ_STATUS 8 8 = 4 ∧
        t.bit .inj INJ_STATUS 1 = true ∧ SameRegsBut [regKey .inj INJ_STATUS] s t ∧ OnlyRegs s t)) ∧
      (s.bit .inj INJ_STATUS 0 = true → s.bit .inj INJ_STATUS 1 = false → s.injBadTarget = true → Answers (.arm m) s (fun t =>
        t.fld .inj INJ_STATUS 8 8 = 3 ∧ t.bit .inj INJ_STATUS 1 = false ∧ SameRegsBut [regKey .inj INJ_STATUS] s t ∧ OnlyRegs s t)) ∧
      Answers (.disarm m) s (fun t => t.bit .inj INJ_STATUS 1 = false ∧ SameRegsBut [regKey .inj INJ_STATUS] s t ∧ OnlyRegs s t) ∧
      (let o := TMX_STATUS + 4 * n.val
       s.fld .tmx o 8 2 = 0 → tmxArgBad (bitsOf v 0 8) (bitsOf v 8 8) = false →
       (s.tmxDye (bitsOf v 0 8) (bitsOf v 8 8) = 0 ∨ s.tokenAllows (s.tmxDye (bitsOf v 0 8) (bitsOf v 8 8)) 2 = true) →
       Answers (.tmxSelWrite m n v) s (fun t => t.rd .tmx (TMX_SEL + 4 * n.val) = BitVec.ofNat 32 (bitsOf v 0 16) ∧ t.fld .tmx o 4 4 = 0 ∧
         t.fld .tmx o 0 2 = 2 ∧ (s.fld .tmx o 0 2 ≠ 2 → (tabGet tmxReset t.tmx n.val).next = v ∧ tabGet (fun _ => false) t.tmxOut n.val = false) ∧
         (s.fld .tmx o 0 2 = 2 → (tabGet tmxReset t.tmx n.val).waiting = some v) ∧
         SameRegsBut [regKey .tmx o, regKey .tmx (TMX_SEL + 4 * n.val)] s t ∧
         t = { s with regs := t.regs, resp := t.resp, tmx := t.tmx, tmxOut := t.tmxOut }))) ∧
    (s.dyeOf m ≠ 0 → ∀ i ∈ [Instr.snapshotPush m true, .snapshotPush m false, .arm m, .disarm m, .tmxSelWrite m n v], Answers i s (fun t =>
      t = { s with resp := t.resp } ∧ t.resp.permission = true)) ∧
    (let o := TMX_STATUS + 4 * n.val
     let x := tabGet tmxReset s.tmx n.val
     s.fld .tmx o 0 2 = 2 → x.waiting = none → Answers (.tmxSwitchDone n) s (fun t =>
       (bitsOf x.next 0 8 = 0 → t.fld .tmx o 0 2 = 0 ∧ tabGet (fun _ => false) t.tmxOut n.val = false) ∧
       (bitsOf x.next 0 8 ≠ 0 → t.fld .tmx o 0 2 = 1) ∧
       (bitsOf x.next 0 8 = 1 → tabGet (fun _ => false) t.tmxOut n.val = decide (s.now / 2 ^ bitsOf x.next 8 8 % 2 = 1)) ∧
       SameRegsBut [regKey .tmx o] s t ∧
       t = { s with regs := t.regs, tmxOut := t.tmxOut, tmxUntil := t.tmxUntil, freeCtr := t.freeCtr })) ∧
    (let o := TMX_STATUS + 4 * n.val
     let x := tabGet tmxReset s.tmx n.val
     (∀ w, s.fld .tmx o 0 2 = 2 → x.waiting = some w → Answers (.tmxSwitchDone n) s (fun t => t.fld .tmx o 0 2 = 2 ∧
       tabGet tmxReset t.tmx n.val = { next := w } ∧ tabGet (fun _ => false) t.tmxOut n.val = false ∧ SameMemory s t)) ∧
     (s.fld .tmx o 0 2 ≠ 2 → Answers (.tmxSwitchDone n) s (fun t => t = s))) ∧
    (s.master = some s.slot → s.bit .cnt CNT_STATUS 4 = true → Answers .ppsPulse s (fun t =>
      t.ppsHigh = decide ((s.now + (s.rd64 .cnt CNT_WALL_OFS_L).toNat) % 2 ^ 64 % 1000000000 < 1000000) ∧
      tabGet (fun _ => false) t.tmxOut 3 = t.ppsHigh ∧ t = { s with ppsHigh := t.ppsHigh, tmxOut := t.tmxOut }))

/-! ### Security and management (chapter 16) -/

/-- The answer of the night porter on path p, to a request after whose effect the state was u: over MCTP the response leaves and nothing else
changes; through the mailbox the status word holds the completion code and DONE, and only the mailbox's registers change. -/
abbrev Replies (p : MgtPath) (code : Nat) (data : List Byte) (u t : State) : Prop :=
  (p.mailbox = false → t = { u with mgtTx := u.mgtTx ++ [{ path := p, code := code, data := data }] }) ∧
  (p.mailbox = true → t.rd .npt NPT_MBOX_STATUS = BitVec.ofNat 32 (code + 256) ∧ t = { u with regs := t.regs } ∧
    ∀ k, k / 0x10000 ≠ winIndex .npt → tabGet regReset t.regs k = tabGet regReset u.regs k)

/-- SPDM and MCTP (R349, R351, R354, R356; the codes are the model's choice, log entry 75): a stage is asked for in order, the lot chain and
its digest are in slot 0, challenges and measurements are signed, a session begins with KEY_EXCHANGE, is complete with FINISH and ends with
END_SESSION; the endpoint ID and the I3C address land in MGT_STATUS. -/
def Obligations.SpdmResults : Prop :=
  ∀ (s : State) (p : MgtPath) (nonce : BitVec 256) (slot : Fin 8) (o n : Nat) (a : Byte) (addr : BitVec 7) (sid : BitVec 16),
    s.npRuns = true → s.romOnly = false →
    Answers (.getVersion p) s (fun t => Replies p 0x04 [0x13] { s with spdmStage := 1 } t) ∧
    (1 ≤ s.spdmStage → Answers (.getCapabilities p) s (fun t => Replies p 0x61 [] { s with spdmStage := max 2 s.spdmStage } t)) ∧
    (2 ≤ s.spdmStage → Answers (.negotiateAlgorithms p 0x80 0x2 0x10 0x2) s (fun t => ∃ bs, Replies p 0x63 bs { s with spdmStage := 3 } t)) ∧
    (2 ≤ s.spdmStage → Answers (.negotiateAlgorithms p 0 0x2 0x10 0x2) s (fun t => Replies p 0x7F [1] s t)) ∧
    (s.spdmStage < 3 → ∀ i ∈ [Instr.getDigests p, .getCertificate p slot o n, .challenge p slot nonce, .getMeasurements p a nonce,
      .keyExchange p slot sid], Answers i s (fun t => Replies p 0x7F [4] s t)) ∧
    (3 ≤ s.spdmStage →
      Answers (.getDigests p) s (fun t => Replies p 0x01 (leBytes (Config.sha384 (leNat Config.lotChain)).toNat 48).reverse s t) ∧
      (slot = 0 → o < Config.lotChain.length → Answers (.getCertificate p slot o n) s (fun t =>
        Replies p 0x02 ((Config.lotChain.drop o).take n) s t)) ∧
      (slot ≠ 0 → ∀ i ∈ [Instr.getCertificate p slot o n, .challenge p slot nonce, .keyExchange p slot sid], Answers i s (fun t =>
        Replies p 0x7F [1] s t)) ∧
      (slot = 0 → Answers (.challenge p slot nonce) s (fun t => ∃ (sig : List Byte), sig.length = 96 ∧
        Replies p 0x03 ((leBytes (Config.sha384 (leNat Config.lotChain)).toNat 48).reverse ++ leBytes nonce.toNat 32 ++ sig)
          { s with freeCtr := t.freeCtr } t)) ∧
      (∀ bs, s.measurement a.toNat = some bs → a ≠ 0 → a ≠ 0xFF → Answers (.getMeasurements p a nonce) s (fun t =>
        ∃ (sig : List Byte), sig.length = 96 ∧ Replies p 0x60 (bs ++ sig) { s with freeCtr := t.freeCtr } t)) ∧
      (7 ≤ a.toNat → a ≠ 0xFF → Answers (.getMeasurements p a nonce) s (fun t => Replies p 0x7F [1] s t)) ∧
      (slot = 0 → Answers (.keyExchange p slot sid) s (fun t => t.spdmNext = s.spdmNext + 1 ∧
        t.spdm = s.spdm ++ [{ id := sid.toNat + 65536 * s.spdmNext }] ∧ t.authority = s.authority ∧ SameMemory s t))) ∧
    (∀ (x : SpdmSession) (req : Option Digest), x ∈ s.spdm → x.finished = false →
      ((req.map s.isAuthority).getD true = true → Answers (.finish p x.id req true) s (fun t =>
        { x with finished := true, requester := req } ∈ t.spdm ∧ t.bit .mgt MGT_STATUS 16 = true ∧ t.authority = s.authority ∧ SameMemory s t)) ∧
      (∀ ok, ok = false ∨ (req.map s.isAuthority).getD true = false → Answers (.finish p x.id req ok) s (fun t =>
        t.spdm = s.spdm.filter (fun y => y.id != x.id) ∧ Replies p 0x7F [1] { s with spdm := t.spdm } t))) ∧
    (∀ x, s.sessionOf p = some x →
      Answers (.heartbeat p) s (fun t => Replies p 0x68 [] s t) ∧
      Answers (.keyUpdate p) s (fun t => Replies p 0x69 [] { s with spdm := t.spdm } t ∧
        t.spdm = s.spdm.map (fun y => if y.id == x.id then { y with updates := y.updates + 1 } else y)) ∧
      Answers (.endSession p) s (fun t => t.spdm = s.spdm.filter (fun y => y.id != x.id) ∧ (∀ y ∈ t.spdm, y.id ≠ x.id) ∧
        (∀ k v, x.removeAt = some (k, v) → t.authorityAt k = v) ∧ (x.removeAt = none → t.authority = s.authority) ∧
        (s.injSession = some x.id → t.bit .inj INJ_STATUS 0 = false) ∧ SameMemory s t)) ∧
    (s.sessionOf p = none → ∀ i ∈ [Instr.heartbeat p, .keyUpdate p, .endSession p], Answers i s (fun t => Replies p 0x7F [2] s t)) ∧
    (a ≠ 0 → a ≠ 0xFF → Answers (.mctpControl p 1 a) s (fun t => ∃ u, Replies p 0 [a] u t ∧ u.fld .mgt MGT_STATUS 0 8 = a.toNat ∧
      SameRegsBut [regKey .mgt MGT_STATUS] s u ∧ u = { s with regs := u.regs })) ∧
    Answers (.mctpControl p 2 a) s (fun t => Replies p 0 [BitVec.ofNat 8 (s.fld .mgt MGT_STATUS 0 8)] s t) ∧
    Answers (.dynamicAddressAssignment addr) s (fun t => t.fld .mgt MGT_STATUS 8 7 = addr.toNat ∧ t.bit .mgt MGT_STATUS 15 = true ∧
      SameRegsBut [regKey .mgt MGT_STATUS] s t ∧ t = { s with regs := t.regs })

/-- Vyarlan's commands and PLDM (R305, R316, R346, R351, R355 to R358): outside an authenticated session a Session command answers
UNAUTHENTICATED and does nothing; inside one it has its effect and answers OK; caps below the floor are REFUSED, Standby is BUSY while a
tenant partition exists; reports answer on any path. -/
def Obligations.ManagementResults : Prop :=
  ∀ (s : State) (p : MgtPath) (d : Dye) (w : Nat) (v : Word32) (img : Image) (bs : List Byte) (k : DebugToken) (q : Fin 4) (x : Digest)
    (stop : Bool) (fw : FirmwareCopy),
    s.npRuns = true →
    Answers .getFirmwareParameters s (fun t => Replies overI3c 0 (leBytes pkgRevision.toNat 4) s t) ∧
    Answers (.firmwareUpdate fw) s (fun t => t.copy (!s.runningB) = fw ∧ t.copy s.runningB = s.copy s.runningB ∧ t.updChecking = true ∧
      t.updateWritten = false ∧ t.bit .npt NPT_STATUS 5 = false ∧ t.preferredB = s.preferredB ∧ SameMemory s t) ∧
    (s.updChecking = true → Answers .activateFirmware s (fun t => Replies overI3c cBUSY [] s t)) ∧
    (s.updChecking = false → s.updateWritten = true → Answers .activateFirmware s (fun t => t.preferredB = !s.runningB ∧
      t.updateWritten = false ∧ t.bit .npt NPT_STATUS 4 = t.preferredB ∧ t.runningB = s.runningB ∧ SameMemory s t)) ∧
    (s.updChecking = false → s.updateWritten = false → Answers .activateFirmware s (fun t => Replies overI3c cINVALID [] s t)) ∧
    (∀ d, ∀ i ∈ [Instr.getFirmwareParameters, .firmwareUpdate fw, .activateFirmware, .dynamicAddressAssignment d], ∀ u : State, u.npRuns = false →
      Answers i u (fun t => t = u)) ∧
    (s.romOnly = false →
      (s.authenticated p = false → ∀ i ∈ [Instr.setCap p w, .setShare p d v, .kill p d, .admissionCommand p stop, .imageChunk p bs,
        .imageLoad p img, .injectEnable p, .injectDisable p, .standby p, .debugChallenge p d, .debugPresent p k], Answers i s (fun t =>
          Replies p cUNAUTHENTICATED [] s t)) ∧
      (s.authenticated p = true →
        (w < s.fld .pwr PWR_FLOOR 0 12 → Answers (.setCap p w) s (fun t => Replies p cREFUSED [0] s t)) ∧
        (s.fld .pwr PWR_FLOOR 0 12 ≤ w → w ≤ 4095 → Answers (.setCap p w) s (fun t => t.fld .pwr PWR_CAP 0 12 = w ∧ SameMemory s t)) ∧
        Answers (.setShare p d v) s (fun t => ∃ u, Replies p cOK [] u t ∧ u.fld .pwr (pageOff d PWR_D_SHARE) 0 8 = v.toNat % 256 ∧
          SameRegsBut [regKey .pwr (pageOff d PWR_D_SHARE)] s u ∧ u = { s with regs := u.regs }) ∧
        (s.partState d = 1 → d ≠ 0 → Answers (.kill p d) s (fun t => (t.partState d = 2 ∨ t.partState d = 3) ∧
          (∀ h : Fin 8, t.bit (.hbm h) HBM_KEYSLOTS d.val = false) ∧ t.jobState d = 0)) ∧
        (d ≠ 0 → s.partState d ≠ 1 → Answers (.kill p d) s (fun t => Replies p cOK [] s t)) ∧
        (d = 0 → Answers (.kill p d) s (fun t => Replies p cINVALID [] s t)) ∧
        Answers (.admissionCommand p stop) s (fun t => t.bit .inn INN_STATUS 2 = stop ∧ SameMemory s t) ∧
        (bs.length ≤ 1024 → s.imgStage.length + bs.length ≤ 4194304 → Answers (.imageChunk p bs) s (fun t =>
          Replies p cOK [] { s with imgStage := s.imgStage ++ bs } t)) ∧
        (1024 < bs.length → Answers (.imageChunk p bs) s (fun t => Replies p cINVALID [] s t)) ∧
        (s.imgStage.length ≠ img.length → Answers (.imageLoad p img) s (fun t => Replies p cINVALID [] s t)) ∧
        (s.imgStage.length = img.length → img.length ≠ 0 → s.loading 0 = true → Answers (.imageLoad p img) s (fun t =>
          Replies p cBUSY [] s t)) ∧
        (s.imgStage.length = img.length → img.length ≠ 0 → s.loading 0 = false → s.receives 0 = true → s.formatBad 0 img = none →
          s.signatureBad 0 img = none → s.entriesBusy img = false → Answers (.imageLoad p img) s (fun t =>
            t.imgStage = [] ∧ t.imgState 0 = 2 ∧ (t.loadOf 0).image = some img ∧ SameMemory s t)) ∧
        Answers (.injectEnable p) s (fun t => t.bit .inj INJ_STATUS 0 = true ∧ t.injSession = p.session ∧ SameMemory s t) ∧
        Answers (.injectDisable p) s (fun t => t.bit .inj INJ_STATUS 0 = false ∧ t.injSession = none ∧
          (s.bit .inj INJ_STATUS 0 = true → t.bit .inj INJ_STATUS 1 = false) ∧ SameMemory s t) ∧
        (s.rails = true → s.hasTenants = true → Answers (.standby p) s (fun t => Replies p cBUSY [] s t)) ∧
        (s.rails = true → s.hasTenants = false → Answers (.standby p) s (fun t => t.rails = false ∧ t.standby = true)) ∧
        Answers (.debugChallenge p d) s (fun t => ∃ c, Replies p cOK (leBytes c 32) { s with
            regs := t.regs, freeCtr := t.freeCtr, challenges := t.challenges } t ∧
          tabGet (fun _ => none) t.challenges d.val = some { value := BitVec.ofNat 256 c, issuedAt := s.now }) ∧
        (s.checking = none → Answers (.debugPresent p k) s (fun t =>
          t.checking = some (k, tabGet (fun _ => none) s.challenges k.dye.val) ∧ t.fld .sec SEC_DBG_STATUS 0 2 = 2 ∧ SameMemory s t)) ∧
        (s.checking ≠ none → Answers (.debugPresent p k) s (fun t => Replies p cBUSY [] s t))) ∧
      Answers (.getBudget p) s (fun t => ∃ r, Replies p cOK r s t ∧ r.length = 140 ∧ r.take 4 = leBytes (s.rd .pwr PWR_CAP).toNat 4) ∧
      Answers (.getPartitions p) s (fun t => ∃ r, Replies p cOK r s t ∧ r.length = 128 ∧
        r.take 4 = leBytes (s.rd .pkg PKG_PART_STATUS).toNat 4) ∧
      (∀ r, s.sensor w = some r → Answers (.pldmGetSensor w) s (fun t => Replies overI3c cOK r s t)) ∧
      (s.sensor w = none → Answers (.pldmGetSensor w) s (fun t => Replies overI3c cINVALID [] s t)) ∧
      (w < s.fld .pwr PWR_FLOOR 0 12 → Answers (.capEffecter w) s (fun t => Replies overI3c cREFUSED [0] s t)) ∧
      (s.fld .pwr PWR_FLOOR 0 12 ≤ w → w ≤ 4095 → Answers (.capEffecter w) s (fun t => t.fld .pwr PWR_CAP 0 12 = w ∧ SameMemory s t)) ∧
      (∀ i ∈ [Instr.standbyRequest, .standbyEffecter false],
        (s.rails = true → s.hasTenants = true → Answers i s (fun t => Replies overI3c cBUSY [] s t)) ∧
        (s.rails = true → s.hasTenants = false → Answers i s (fun t => t.rails = false ∧ t.standby = true)) ∧
        (s.rails = false → Answers i s (fun t => Replies overI3c cOK [] s t))) ∧
      (s.rails = true → Answers (.standbyEffecter true) s (fun t => Replies overI3c cOK [] s t)) ∧
      ((∀ j < 4, s.authorityAt j = none) → x ≠ 0 →
        (p.i3c = true → Answers (.setAuthority p q x) s (fun t => t.authorityAt q.val = some x ∧ t.bit .mgt MGT_AUTH_SET q.val = true ∧
          (∀ j, j ≠ q.val → t.authorityAt j = s.authorityAt j) ∧ SameMemory s t)) ∧
        (p.i3c = false → Answers (.setAuthority p q x) s (fun t => Replies p cUNAUTHENTICATED [] s t))) ∧
      ((∃ j < 4, s.authorityAt j ≠ none) →
        (s.authenticated p = false → Answers (.setAuthority p q x) s (fun t => Replies p cUNAUTHENTICATED [] s t)) ∧
        (∀ y, s.authenticated p = true → s.sessionOf p = some y → s.authorityAt q.val ≠ y.requester → x ≠ 0 →
          Answers (.setAuthority p q x) s (fun t => t.authorityAt q.val = some x ∧ (∀ j, j ≠ q.val → t.authorityAt j = s.authorityAt j) ∧
            SameMemory s t)) ∧
        (∀ y, s.authenticated p = true → s.sessionOf p = some y → s.authorityAt q.val = y.requester → some x ≠ y.requester → x ≠ 0 →
          (∀ j < 4, j ≠ q.val → s.authorityAt j ≠ y.requester) → Answers (.setAuthority p q x) s (fun t => t.authority = s.authority ∧
            (∃ z ∈ t.spdm, z.id = y.id ∧ z.removeAt = some (q.val, some x)) ∧ SameMemory s t))))

/-- Tokens, quotes and firmware copies (R344, R345, R350, R352, R353, R358): a check consumes its challenge and either installs the token or
says why not; NOT_AFTER and REVOKE end a token; a quote is made once at a time and written to the host; the preferred copy boots when its
checks pass, and neither booting asserts FAULT_N. -/
def Obligations.TokenQuoteBootResults : Prop :=
  ∀ (s : State) (m : Master) (d : Dye) (k : DebugToken) (sig : List Byte) (fa fb : FirmwareCopy),
    (s.dyeOf m = 0 →
      Answers (.secDbgChallenge m d) s (fun t => (∃ v, tabGet (fun _ => none) t.challenges d.val = some { value := v, issuedAt := s.now }) ∧
        t = { s with regs := t.regs, resp := t.resp, freeCtr := t.freeCtr, challenges := t.challenges }) ∧
      (s.checking = none → Answers (.secDbgPresent m k) s (fun t => t.checking = some (k, tabGet (fun _ => none) s.challenges k.dye.val) ∧
        t.fld .sec SEC_DBG_STATUS 0 2 = 2 ∧ t.fld .sec SEC_DBG_STATUS 8 4 = k.dye.val ∧ SameRegsBut [regKey .sec SEC_DBG_STATUS] s t ∧
        t = { s with regs := t.regs, resp := t.resp, checking := t.checking })) ∧
      (s.checking ≠ none → Answers (.secDbgPresent m k) s (fun t => t = { s with resp := t.resp }))) ∧
    (s.dyeOf m ≠ 0 → ∀ i ∈ [Instr.secDbgChallenge m d, .secDbgPresent m k], Answers i s (fun t => t = { s with resp := t.resp } ∧
      t.resp.permission = true)) ∧
    (∀ c, s.checking = some (k, c) → tabGet (fun _ => none) s.challenges k.dye.val = c → natGet s.revokeAt k.dye.val ≠ s.now + 1 →
      (s.tokenCode k c ≠ 0 → Answers .tokenCheckDone s (fun t => t.checking = none ∧ tabGet (fun _ => none) t.challenges k.dye.val = none ∧
        t.tokens = s.tokens ∧ t.fld .sec SEC_DBG_STATUS 4 4 = s.tokenCode k c ∧ t.fld .sec SEC_DBG_STATUS 8 4 = k.dye.val ∧
        t = { s with regs := t.regs, checking := none, challenges := t.challenges })) ∧
      (s.tokenCode k c = 0 → s.now < k.notAfter.toNat → Answers .tokenCheckDone s (fun t => t.checking = none ∧
        tabGet (fun _ => none) t.challenges k.dye.val = none ∧ t.tokenOf k.dye = some k ∧
        t.bit .sec (pageOff k.dye SEC_D_STATUS) 2 = true ∧ t.rd64 .sec (pageOff k.dye SEC_D_NOT_AFTER_L) = k.notAfter ∧ SameMemory s t))) ∧
    (s.tokenOf d = some k → k.notAfter.toNat ≤ s.now → Answers (.tokenEnd d) s (fun t => t.tokenOf d = none ∧
      t.bit .sec (pageOff d SEC_D_STATUS) 2 = false ∧ t.rd64 .sec (pageOff d SEC_D_NOT_AFTER_L) = 0 ∧ SameMemory s t)) ∧
    (s.tokenOf d = some k → s.now < k.notAfter.toNat → Answers (.tokenEnd d) s (fun t => t = s)) ∧
    (s.tokenOf d = none → Answers (.tokenEnd d) s (fun t => t = s)) ∧
    (d ≠ 0 → s.dyeOf m = d → Answers (.revoke m d) s (fun t => t.tokenOf d = none ∧ natGet t.revokeAt d.val = s.now + 1 ∧ SameMemory s t)) ∧
    (d = 0 ∨ s.dyeOf m ≠ d → Answers (.revoke m d) s (fun t => t = { s with resp := t.resp } ∧ t.resp.permission = true)) ∧
    (s.dyeOf m = d →
      (s.keysLoaded d = true → tabGet (fun _ => none) s.quotes d.val = none → Answers (.quote m d) s (fun t =>
        tabGet (fun _ => none) t.quotes d.val = some { addr := s.rd64 .sec (pageOff d SEC_D_QADDR_L),
                                                       nonce := s.rdList .sec (pageOff d SEC_D_NONCE) 8 } ∧
        t.bit .sec (pageOff d SEC_D_STATUS) 1 = false ∧ SameRegsBut [regKey .sec (pageOff d SEC_D_STATUS)] s t ∧
        t = { s with regs := t.regs, resp := t.resp, quotes := t.quotes })) ∧
      (s.keysLoaded d = false ∨ tabGet (fun _ => none) s.quotes d.val ≠ none → Answers (.quote m d) s (fun t =>
        t = { s with resp := t.resp }))) ∧
    (s.dyeOf m ≠ d → Answers (.quote m d) s (fun t => t = { s with resp := t.resp } ∧ t.resp.permission = true)) ∧
    (∀ (q : QuoteReq) (o : Nat), tabGet (fun _ => none) s.quotes d.val = some q → s.keysLoaded d = true →
      s.place d (q.addr.toNat % 2 ^ 48) = .host o → s.hostUp = true → q.nonce.length = 8 → Answers (.quoteDone d sig) s (fun t =>
        (∃ body, body.length = 256 ∧ body.take 4 = [0x54, 0x51, 0x01, BitVec.ofNat 8 d.val] ∧
          (body.drop 4).take 32 = q.nonce.flatMap (fun w => leBytes w.toNat 4) ∧
          t.hostTx = s.hostTx ++ [.write d (BitVec.ofNat 64 o) (body ++ takePad 0 96 sig)]) ∧
        tabGet (fun _ => none) t.quotes d.val = none ∧ t.bit .sec (pageOff d SEC_D_STATUS) 1 = true ∧ SameMemory s t)) ∧
    (s.rails = false → s.npRuns = true → s.vaon = true → s.preferredB = false → s.fwCopies = [] → s.secFloor ≤ fa.secVersion →
      (fa.sigOk = true → fa.ready = true → s.railsMayStart = false ∨ (s.norImage = none ∧ s.norOlder = none) →
        Answers (.bootChain fa fb) s (fun t => t.runningB = false ∧ t.bootFails = 0 ∧
        (s.railsMayStart = true → t.rails = true) ∧ (s.railsMayStart = false → t.rails = false ∧ t.fld .npt NPT_STATUS 0 4 = 3))) ∧
      (fa.sigOk = true → fa.ready = false → s.bootFails = 0 → Answers (.bootChain fa fb) s (fun t => t.bootFails = 1 ∧ t.rails = false)) ∧
      (fa.sigOk = false → fb.sigOk = true → fb.ready = true → s.secFloor ≤ fb.secVersion → s.railsMayStart = false →
        Answers (.bootChain fa fb) s (fun t => t.runningB = true ∧ t.preferredB = true ∧ t.bit .npt NPT_STATUS 4 = true ∧ t.rails = false ∧
          SameMemory s t)) ∧
      (fa.sigOk = false → fb.sigOk = false → Answers (.bootChain fa fb) s (fun t => t.pinFault = true ∧ t.romOnly = true ∧
        t.rails = false ∧ SameMemory s t)))

/-! ### Pins and supplies (chapter 17) -/

/-- Supplies and pins (R305, R312, R370 to R372): VAON starts the counter at 0 and, with RESET_N high, the night porter; its loss, RESET_N and
VIN turn the die rails off; RESET_N's release samples the straps; PERST_N resets only the host port; SYS_REF ends free running; WAKE_N
starts the dies. -/
def Obligations.PinResults : Prop :=
  ∀ (s : State) (id : BitVec 6) (en : Bool),
    (s.vaon = false → Answers (.vaonApplied id en) s (fun t => t.vaon = true ∧ t.now = 0 ∧ t.rails = false ∧
      (s.resetN = true → t.npRuns = true ∧ t.fld .pkg PKG_STRAPS 0 6 = id.toNat ∧ t.bit .pkg PKG_STRAPS 6 = en) ∧
      (s.resetN = false → t.npRuns = false))) ∧
    (s.vaon = true → Answers .vaonBrownout s (fun t => t.vaon = false ∧ t.rails = false ∧ t.npRuns = false ∧ t.now = 0 ∧ t.regs = [] ∧
      t.sram = [] ∧ t.acc = [] ∧ t.hbm = [] ∧ t.ldgRing = s.ldgRing ∧ t.secFloor = s.secFloor ∧
      (s.norAt ≠ s.now + 1 → t.norImage = s.norImage) ∧ (∀ p, s.authWas = some p → p.1 ≠ s.now + 1 → t.authority = s.authority) ∧
      (s.authWas = none → t.authority = s.authority) ∧ t.pending = s.pending)) ∧
    (s.vaon = true → Answers (.vaonApplied id en) s (fun t => t = s)) ∧ (s.vaon = false → Answers .vaonBrownout s (fun t => t = s)) ∧
    (s.resetN = true → s.vaon = true → Answers .resetNAssert s (fun t => t.resetN = false ∧ t.npRuns = false ∧ t.pinFault = false ∧ t.now = s.now ∧ t.ldgRing = s.ldgRing ∧
        (s.rails = true → t.rails = false ∧ t.sram = [] ∧ t.acc = [] ∧ t.hbm = []))) ∧
    (s.resetN = false → s.vaon = true → Answers (.resetNRelease id en) s (fun t => t.resetN = true ∧ t.npRuns = true ∧ t.standby = true ∧
      t.fld .pkg PKG_STRAPS 0 6 = id.toNat ∧ t.bit .pkg PKG_STRAPS 6 = en ∧ t.fld .pkg PKG_RESET_CAUSE 0 3 = s.offCause % 8 ∧
      SameRegsBut [regKey .pkg PKG_STRAPS, regKey .pkg PKG_RESET_CAUSE] s t)) ∧
    (s.perstN = true → Answers .perstN s (fun t => t.perstN = false ∧ (s.rails = true → t.hostUp = false) ∧
      (s.rails = false → t = { s with perstN := false }))) ∧
    (s.perstN = false → Answers .perstNRelease s (fun t => t.perstN = true ∧ t.hostUp = s.rails ∧
      t = { s with perstN := true, hostUp := t.hostUp, hostGts := t.hostGts })) ∧
    (s.vin = true → Answers .vinLoss s (fun t => t.vin = false ∧ (s.rails = true → t.rails = false ∧ t.standby = true ∧ t.offCause = 2 ∧
      t.sram = [] ∧ t.acc = [] ∧ t.hbm = []) ∧ (s.rails = false → t = { s with vin := false, wakeWaits := false }) ∧ t.ldgRing = s.ldgRing)) ∧
    (s.vin = false → Answers .vinApplied s (fun t => t = { s with vin := true, vinAt := s.now })) ∧
    (s.sysRef = false → Answers .sysRefAppears s (fun t => t.sysRef = true ∧ t.sysRefAt = s.now ∧
      (s.rails = true → t.bit .clk CLK_STATUS 0 = true) ∧ (s.rails = false → t = { s with sysRef := true, sysRefAt := s.now }) ∧ SameMemory s t)) ∧
    (s.rails = false → s.npRuns = true → s.romOnly = false → s.vin = true → s.sysRef = true → s.resetN = true →
      s.vinAt + 1000000 ≤ s.now → s.sysRefAt + 1000000 ≤ s.now → s.norImage = none → s.norOlder = none →
      s.sysImage = none → Answers .wakeN s (fun t => t.rails = true ∧ t.standby = false ∧ t.secFloor = max s.secFloor (s.copy s.runningB).secVersion ∧
        t.fld .npt NPT_STATUS 0 4 = 8 ∧ t.bit .clk CLK_STATUS 0 = true ∧ SameMemory s t)) ∧
    (s.rails = false → s.npRuns = true → s.romOnly = false → s.vin = true → s.sysRef = true → s.resetN = true →
      s.now < s.vinAt + 1000000 ∨ s.now < s.sysRefAt + 1000000 → Answers .wakeN s (fun t => t = { s with wakeWaits := true })) ∧
    (s.rails = true → Answers .wakeN s (fun t => t = s)) ∧
    (∀ n : Fin 4,
      s.faultPin = (if s.vaon && s.resetN && s.npRuns && s.pinFault then some false else none) ∧
      s.alertPin = (if s.vaon && s.resetN && s.rails && s.bit .ldg LDG_STATUS 2 then some false else none) ∧
      s.thermPin = (if s.vaon && s.resetN && s.rails && s.bit .thm THM_STATUS 3 then some false else none) ∧
      s.tmxPin n = (if s.vaon then some (s.resetN && s.rails && tabGet (fun _ => false) s.tmxOut n.val) else none))
end

