-- ==== Sys2Proof/Laws/State.lean ====
section
/-! SUPPORT. What the primary updates of the state leave alone: one lemma per field per update. -/

namespace Sys2Proof.Machine

/-! ### wr -/

@[simp] theorem State.wr_cores (s : State) (w : Win) (o : Nat) (v : Word32) : (s.wr w o v).cores = s.cores := rfl
@[simp] theorem State.wr_barriers (s : State) (w : Win) (o : Nat) (v : Word32) : (s.wr w o v).barriers = s.barriers := rfl
@[simp] theorem State.wr_sram (s : State) (w : Win) (o : Nat) (v : Word32) : (s.wr w o v).sram = s.sram := rfl
@[simp] theorem State.wr_spdErr (s : State) (w : Win) (o : Nat) (v : Word32) : (s.wr w o v).spdErr = s.spdErr := rfl
@[simp] theorem State.wr_rowCls (s : State) (w : Win) (o : Nat) (v : Word32) : (s.wr w o v).rowCls = s.rowCls := rfl
@[simp] theorem State.wr_ueSeen (s : State) (w : Win) (o : Nat) (v : Word32) : (s.wr w o v).ueSeen = s.ueSeen := rfl
@[simp] theorem State.wr_acc (s : State) (w : Win) (o : Nat) (v : Word32) : (s.wr w o v).acc = s.acc := rfl
@[simp] theorem State.wr_bankQ (s : State) (w : Win) (o : Nat) (v : Word32) : (s.wr w o v).bankQ = s.bankQ := rfl
@[simp] theorem State.wr_writeBack (s : State) (w : Win) (o : Nat) (v : Word32) : (s.wr w o v).writeBack = s.writeBack := rfl
@[simp] theorem State.wr_clrNow (s : State) (w : Win) (o : Nat) (v : Word32) : (s.wr w o v).clrNow = s.clrNow := rfl
@[simp] theorem State.wr_clrPend (s : State) (w : Win) (o : Nat) (v : Word32) : (s.wr w o v).clrPend = s.clrPend := rfl
@[simp] theorem State.wr_heldWins (s : State) (w : Win) (o : Nat) (v : Word32) : (s.wr w o v).heldWins = s.heldWins := rfl
@[simp] theorem State.wr_bist (s : State) (w : Win) (o : Nat) (v : Word32) : (s.wr w o v).bist = s.bist := rfl
@[simp] theorem State.wr_failedRgns (s : State) (w : Win) (o : Nat) (v : Word32) : (s.wr w o v).failedRgns = s.failedRgns := rfl
@[simp] theorem State.wr_repairMap (s : State) (w : Win) (o : Nat) (v : Word32) : (s.wr w o v).repairMap = s.repairMap := rfl
@[simp] theorem State.wr_repairFailed (s : State) (w : Win) (o : Nat) (v : Word32) : (s.wr w o v).repairFailed = s.repairFailed := rfl
@[simp] theorem State.wr_repairSeen (s : State) (w : Win) (o : Nat) (v : Word32) : (s.wr w o v).repairSeen = s.repairSeen := rfl
@[simp] theorem State.wr_routerTable (s : State) (w : Win) (o : Nat) (v : Word32) : (s.wr w o v).routerTable = s.routerTable := rfl
@[simp] theorem State.wr_atps (s : State) (w : Win) (o : Nat) (v : Word32) : (s.wr w o v).atps = s.atps := rfl
@[simp] theorem State.wr_ctxs (s : State) (w : Win) (o : Nat) (v : Word32) : (s.wr w o v).ctxs = s.ctxs := rfl
@[simp] theorem State.wr_hbm (s : State) (w : Win) (o : Nat) (v : Word32) : (s.wr w o v).hbm = s.hbm := rfl
@[simp] theorem State.wr_hbmKey (s : State) (w : Win) (o : Nat) (v : Word32) : (s.wr w o v).hbmKey = s.hbmKey := rfl
@[simp] theorem State.wr_hbmBad (s : State) (w : Win) (o : Nat) (v : Word32) : (s.wr w o v).hbmBad = s.hbmBad := rfl
@[simp] theorem State.wr_frames (s : State) (w : Win) (o : Nat) (v : Word32) : (s.wr w o v).frames = s.frames := rfl
@[simp] theorem State.wr_ptes (s : State) (w : Win) (o : Nat) (v : Word32) : (s.wr w o v).ptes = s.ptes := rfl
@[simp] theorem State.wr_shared (s : State) (w : Win) (o : Nat) (v : Word32) : (s.wr w o v).shared = s.shared := rfl
@[simp] theorem State.wr_prefixes (s : State) (w : Win) (o : Nat) (v : Word32) : (s.wr w o v).prefixes = s.prefixes := rfl
@[simp] theorem State.wr_kind5 (s : State) (w : Win) (o : Nat) (v : Word32) : (s.wr w o v).kind5 = s.kind5 := rfl
@[simp] theorem State.wr_prefixRefs (s : State) (w : Win) (o : Nat) (v : Word32) : (s.wr w o v).prefixRefs = s.prefixRefs := rfl
@[simp] theorem State.wr_pageMoves (s : State) (w : Win) (o : Nat) (v : Word32) : (s.wr w o v).pageMoves = s.pageMoves := rfl
@[simp] theorem State.wr_hints (s : State) (w : Win) (o : Nat) (v : Word32) : (s.wr w o v).hints = s.hints := rfl
@[simp] theorem State.wr_pins (s : State) (w : Win) (o : Nat) (v : Word32) : (s.wr w o v).pins = s.pins := rfl
@[simp] theorem State.wr_admitted (s : State) (w : Win) (o : Nat) (v : Word32) : (s.wr w o v).admitted = s.admitted := rfl
@[simp] theorem State.wr_forkWait (s : State) (w : Win) (o : Nat) (v : Word32) : (s.wr w o v).forkWait = s.forkWait := rfl
@[simp] theorem State.wr_hostBufs (s : State) (w : Win) (o : Nat) (v : Word32) : (s.wr w o v).hostBufs = s.hostBufs := rfl
@[simp] theorem State.wr_checkRecs (s : State) (w : Win) (o : Nat) (v : Word32) : (s.wr w o v).checkRecs = s.checkRecs := rfl
@[simp] theorem State.wr_farPages (s : State) (w : Win) (o : Nat) (v : Word32) : (s.wr w o v).farPages = s.farPages := rfl
@[simp] theorem State.wr_reserved (s : State) (w : Win) (o : Nat) (v : Word32) : (s.wr w o v).reserved = s.reserved := rfl
@[simp] theorem State.wr_publishing (s : State) (w : Win) (o : Nat) (v : Word32) : (s.wr w o v).publishing = s.publishing := rfl
@[simp] theorem State.wr_demoting (s : State) (w : Win) (o : Nat) (v : Word32) : (s.wr w o v).demoting = s.demoting := rfl
@[simp] theorem State.wr_keyGen (s : State) (w : Win) (o : Nat) (v : Word32) : (s.wr w o v).keyGen = s.keyGen := rfl
@[simp] theorem State.wr_scrubAt (s : State) (w : Win) (o : Nat) (v : Word32) : (s.wr w o v).scrubAt = s.scrubAt := rfl
@[simp] theorem State.wr_rglRem (s : State) (w : Win) (o : Nat) (v : Word32) : (s.wr w o v).rglRem = s.rglRem := rfl
@[simp] theorem State.wr_rglTok (s : State) (w : Win) (o : Nat) (v : Word32) : (s.wr w o v).rglTok = s.rglTok := rfl
@[simp] theorem State.wr_cous (s : State) (w : Win) (o : Nat) (v : Word32) : (s.wr w o v).cous = s.cous := rfl
@[simp] theorem State.wr_cancels (s : State) (w : Win) (o : Nat) (v : Word32) : (s.wr w o v).cancels = s.cancels := rfl
@[simp] theorem State.wr_drvs (s : State) (w : Win) (o : Nat) (v : Word32) : (s.wr w o v).drvs = s.drvs := rfl
@[simp] theorem State.wr_drvRem (s : State) (w : Win) (o : Nat) (v : Word32) : (s.wr w o v).drvRem = s.drvRem := rfl
@[simp] theorem State.wr_wsets (s : State) (w : Win) (o : Nat) (v : Word32) : (s.wr w o v).wsets = s.wsets := rfl
@[simp] theorem State.wr_peerWsets (s : State) (w : Win) (o : Nat) (v : Word32) : (s.wr w o v).peerWsets = s.peerWsets := rfl
@[simp] theorem State.wr_draining (s : State) (w : Win) (o : Nat) (v : Word32) : (s.wr w o v).draining = s.draining := rfl
@[simp] theorem State.wr_imgArea (s : State) (w : Win) (o : Nat) (v : Word32) : (s.wr w o v).imgArea = s.imgArea := rfl
@[simp] theorem State.wr_planArea (s : State) (w : Win) (o : Nat) (v : Word32) : (s.wr w o v).planArea = s.planArea := rfl
@[simp] theorem State.wr_sessions (s : State) (w : Win) (o : Nat) (v : Word32) : (s.wr w o v).sessions = s.sessions := rfl
@[simp] theorem State.wr_items (s : State) (w : Win) (o : Nat) (v : Word32) : (s.wr w o v).items = s.items := rfl
@[simp] theorem State.wr_itemNo (s : State) (w : Win) (o : Nat) (v : Word32) : (s.wr w o v).itemNo = s.itemNo := rfl
@[simp] theorem State.wr_steps (s : State) (w : Win) (o : Nat) (v : Word32) : (s.wr w o v).steps = s.steps := rfl
@[simp] theorem State.wr_stepNo (s : State) (w : Win) (o : Nat) (v : Word32) : (s.wr w o v).stepNo = s.stepNo := rfl
@[simp] theorem State.wr_plans (s : State) (w : Win) (o : Nat) (v : Word32) : (s.wr w o v).plans = s.plans := rfl
@[simp] theorem State.wr_prefillLane (s : State) (w : Win) (o : Nat) (v : Word32) : (s.wr w o v).prefillLane = s.prefillLane := rfl
@[simp] theorem State.wr_laneMoves (s : State) (w : Win) (o : Nat) (v : Word32) : (s.wr w o v).laneMoves = s.laneMoves := rfl
@[simp] theorem State.wr_loadOwed (s : State) (w : Win) (o : Nat) (v : Word32) : (s.wr w o v).loadOwed = s.loadOwed := rfl
@[simp] theorem State.wr_homeTurn (s : State) (w : Win) (o : Nat) (v : Word32) : (s.wr w o v).homeTurn = s.homeTurn := rfl
@[simp] theorem State.wr_held (s : State) (w : Win) (o : Nat) (v : Word32) : (s.wr w o v).held = s.held := rfl
@[simp] theorem State.wr_tokenRecs (s : State) (w : Win) (o : Nat) (v : Word32) : (s.wr w o v).tokenRecs = s.tokenRecs := rfl
@[simp] theorem State.wr_progSet (s : State) (w : Win) (o : Nat) (v : Word32) : (s.wr w o v).progSet = s.progSet := rfl
@[simp] theorem State.wr_failReps (s : State) (w : Win) (o : Nat) (v : Word32) : (s.wr w o v).failReps = s.failReps := rfl
@[simp] theorem State.wr_farDrops (s : State) (w : Win) (o : Nat) (v : Word32) : (s.wr w o v).farDrops = s.farDrops := rfl
@[simp] theorem State.wr_sysImage (s : State) (w : Win) (o : Nat) (v : Word32) : (s.wr w o v).sysImage = s.sysImage := rfl
@[simp] theorem State.wr_images (s : State) (w : Win) (o : Nat) (v : Word32) : (s.wr w o v).images = s.images := rfl
@[simp] theorem State.wr_loads (s : State) (w : Win) (o : Nat) (v : Word32) : (s.wr w o v).loads = s.loads := rfl
@[simp] theorem State.wr_moves (s : State) (w : Win) (o : Nat) (v : Word32) : (s.wr w o v).moves = s.moves := rfl
@[simp] theorem State.wr_movesNext (s : State) (w : Win) (o : Nat) (v : Word32) : (s.wr w o v).movesNext = s.movesNext := rfl
@[simp] theorem State.wr_claims (s : State) (w : Win) (o : Nat) (v : Word32) : (s.wr w o v).claims = s.claims := rfl
@[simp] theorem State.wr_saves (s : State) (w : Win) (o : Nat) (v : Word32) : (s.wr w o v).saves = s.saves := rfl
@[simp] theorem State.wr_vacant (s : State) (w : Win) (o : Nat) (v : Word32) : (s.wr w o v).vacant = s.vacant := rfl
@[simp] theorem State.wr_resumeAt (s : State) (w : Win) (o : Nat) (v : Word32) : (s.wr w o v).resumeAt = s.resumeAt := rfl
@[simp] theorem State.wr_drains (s : State) (w : Win) (o : Nat) (v : Word32) : (s.wr w o v).drains = s.drains := rfl
@[simp] theorem State.wr_jobShort (s : State) (w : Win) (o : Nat) (v : Word32) : (s.wr w o v).jobShort = s.jobShort := rfl
@[simp] theorem State.wr_jobHalted (s : State) (w : Win) (o : Nat) (v : Word32) : (s.wr w o v).jobHalted = s.jobHalted := rfl
@[simp] theorem State.wr_now (s : State) (w : Win) (o : Nat) (v : Word32) : (s.wr w o v).now = s.now := rfl
@[simp] theorem State.wr_nowFrac (s : State) (w : Win) (o : Nat) (v : Word32) : (s.wr w o v).nowFrac = s.nowFrac := rfl
@[simp] theorem State.wr_nowHigh (s : State) (w : Win) (o : Nat) (v : Word32) : (s.wr w o v).nowHigh = s.nowHigh := rfl
@[simp] theorem State.wr_lastRdsr (s : State) (w : Win) (o : Nat) (v : Word32) : (s.wr w o v).lastRdsr = s.lastRdsr := rfl
@[simp] theorem State.wr_cmps (s : State) (w : Win) (o : Nat) (v : Word32) : (s.wr w o v).cmps = s.cmps := rfl
@[simp] theorem State.wr_calendar (s : State) (w : Win) (o : Nat) (v : Word32) : (s.wr w o v).calendar = s.calendar := rfl
@[simp] theorem State.wr_links (s : State) (w : Win) (o : Nat) (v : Word32) : (s.wr w o v).links = s.links := rfl
@[simp] theorem State.wr_lostSlots (s : State) (w : Win) (o : Nat) (v : Word32) : (s.wr w o v).lostSlots = s.lostSlots := rfl
@[simp] theorem State.wr_lostLinks (s : State) (w : Win) (o : Nat) (v : Word32) : (s.wr w o v).lostLinks = s.lostLinks := rfl
@[simp] theorem State.wr_master (s : State) (w : Win) (o : Nat) (v : Word32) : (s.wr w o v).master = s.master := rfl
@[simp] theorem State.wr_backup (s : State) (w : Win) (o : Nat) (v : Word32) : (s.wr w o v).backup = s.backup := rfl
@[simp] theorem State.wr_lostMastership (s : State) (w : Win) (o : Nat) (v : Word32) : (s.wr w o v).lostMastership = s.lostMastership := rfl
@[simp] theorem State.wr_holdoverAt (s : State) (w : Win) (o : Nat) (v : Word32) : (s.wr w o v).holdoverAt = s.holdoverAt := rfl
@[simp] theorem State.wr_treatedAsLost (s : State) (w : Win) (o : Nat) (v : Word32) : (s.wr w o v).treatedAsLost = s.treatedAsLost := rfl
@[simp] theorem State.wr_masterLostAt (s : State) (w : Win) (o : Nat) (v : Word32) : (s.wr w o v).masterLostAt = s.masterLostAt := rfl
@[simp] theorem State.wr_tookOverAt (s : State) (w : Win) (o : Nat) (v : Word32) : (s.wr w o v).tookOverAt = s.tookOverAt := rfl
@[simp] theorem State.wr_exMasters (s : State) (w : Win) (o : Nat) (v : Word32) : (s.wr w o v).exMasters = s.exMasters := rfl
@[simp] theorem State.wr_syncCopy (s : State) (w : Win) (o : Nat) (v : Word32) : (s.wr w o v).syncCopy = s.syncCopy := rfl
@[simp] theorem State.wr_coord (s : State) (w : Win) (o : Nat) (v : Word32) : (s.wr w o v).coord = s.coord := rfl
@[simp] theorem State.wr_outOfSystem (s : State) (w : Win) (o : Nat) (v : Word32) : (s.wr w o v).outOfSystem = s.outOfSystem := rfl
@[simp] theorem State.wr_recabling (s : State) (w : Win) (o : Nat) (v : Word32) : (s.wr w o v).recabling = s.recabling := rfl
@[simp] theorem State.wr_linkTx (s : State) (w : Win) (o : Nat) (v : Word32) : (s.wr w o v).linkTx = s.linkTx := rfl
@[simp] theorem State.wr_hostTx (s : State) (w : Win) (o : Nat) (v : Word32) : (s.wr w o v).hostTx = s.hostTx := rfl
@[simp] theorem State.wr_switchPoints (s : State) (w : Win) (o : Nat) (v : Word32) : (s.wr w o v).switchPoints = s.switchPoints := rfl
@[simp] theorem State.wr_recableAt (s : State) (w : Win) (o : Nat) (v : Word32) : (s.wr w o v).recableAt = s.recableAt := rfl
@[simp] theorem State.wr_cqReserved (s : State) (w : Win) (o : Nat) (v : Word32) : (s.wr w o v).cqReserved = s.cqReserved := rfl
@[simp] theorem State.wr_unsignalled (s : State) (w : Win) (o : Nat) (v : Word32) : (s.wr w o v).unsignalled = s.unsignalled := rfl
@[simp] theorem State.wr_postQ (s : State) (w : Win) (o : Nat) (v : Word32) : (s.wr w o v).postQ = s.postQ := rfl
@[simp] theorem State.wr_hostReads (s : State) (w : Win) (o : Nat) (v : Word32) : (s.wr w o v).hostReads = s.hostReads := rfl
@[simp] theorem State.wr_inbox (s : State) (w : Win) (o : Nat) (v : Word32) : (s.wr w o v).inbox = s.inbox := rfl
@[simp] theorem State.wr_ringTurn (s : State) (w : Win) (o : Nat) (v : Word32) : (s.wr w o v).ringTurn = s.ringTurn := rfl
@[simp] theorem State.wr_ethTx (s : State) (w : Win) (o : Nat) (v : Word32) : (s.wr w o v).ethTx = s.ethTx := rfl
@[simp] theorem State.wr_ethRx (s : State) (w : Win) (o : Nat) (v : Word32) : (s.wr w o v).ethRx = s.ethRx := rfl
@[simp] theorem State.wr_wallOfsL (s : State) (w : Win) (o : Nat) (v : Word32) : (s.wr w o v).wallOfsL = s.wallOfsL := rfl
@[simp] theorem State.wr_fabPairs (s : State) (w : Win) (o : Nat) (v : Word32) : (s.wr w o v).fabPairs = s.fabPairs := rfl
@[simp] theorem State.wr_fabTxc (s : State) (w : Win) (o : Nat) (v : Word32) : (s.wr w o v).fabTxc = s.fabTxc := rfl
@[simp] theorem State.wr_fabRxTxc (s : State) (w : Win) (o : Nat) (v : Word32) : (s.wr w o v).fabRxTxc = s.fabRxTxc := rfl
@[simp] theorem State.wr_fabReqs (s : State) (w : Win) (o : Nat) (v : Word32) : (s.wr w o v).fabReqs = s.fabReqs := rfl
@[simp] theorem State.wr_fabTag (s : State) (w : Win) (o : Nat) (v : Word32) : (s.wr w o v).fabTag = s.fabTag := rfl
@[simp] theorem State.wr_fabTx (s : State) (w : Win) (o : Nat) (v : Word32) : (s.wr w o v).fabTx = s.fabTx := rfl
@[simp] theorem State.wr_fabDead (s : State) (w : Win) (o : Nat) (v : Word32) : (s.wr w o v).fabDead = s.fabDead := rfl
@[simp] theorem State.wr_unreachable (s : State) (w : Win) (o : Nat) (v : Word32) : (s.wr w o v).unreachable = s.unreachable := rfl
@[simp] theorem State.wr_segments (s : State) (w : Win) (o : Nat) (v : Word32) : (s.wr w o v).segments = s.segments := rfl
@[simp] theorem State.wr_leases (s : State) (w : Win) (o : Nat) (v : Word32) : (s.wr w o v).leases = s.leases := rfl
@[simp] theorem State.wr_smfBusy (s : State) (w : Win) (o : Nat) (v : Word32) : (s.wr w o v).smfBusy = s.smfBusy := rfl
@[simp] theorem State.wr_hostGts (s : State) (w : Win) (o : Nat) (v : Word32) : (s.wr w o v).hostGts = s.hostGts := rfl
@[simp] theorem State.wr_rgnPend (s : State) (w : Win) (o : Nat) (v : Word32) : (s.wr w o v).rgnPend = s.rgnPend := rfl
@[simp] theorem State.wr_wakeFrom (s : State) (w : Win) (o : Nat) (v : Word32) : (s.wr w o v).wakeFrom = s.wakeFrom := rfl
@[simp] theorem State.wr_ivrShort (s : State) (w : Win) (o : Nat) (v : Word32) : (s.wr w o v).ivrShort = s.ivrShort := rfl
@[simp] theorem State.wr_trimPend (s : State) (w : Win) (o : Nat) (v : Word32) : (s.wr w o v).trimPend = s.trimPend := rfl
@[simp] theorem State.wr_stretch (s : State) (w : Win) (o : Nat) (v : Word32) : (s.wr w o v).stretch = s.stretch := rfl
@[simp] theorem State.wr_ceils (s : State) (w : Win) (o : Nat) (v : Word32) : (s.wr w o v).ceils = s.ceils := rfl
@[simp] theorem State.wr_hotAt (s : State) (w : Win) (o : Nat) (v : Word32) : (s.wr w o v).hotAt = s.hotAt := rfl
@[simp] theorem State.wr_coolAt (s : State) (w : Win) (o : Nat) (v : Word32) : (s.wr w o v).coolAt = s.coolAt := rfl
@[simp] theorem State.wr_riseAt (s : State) (w : Win) (o : Nat) (v : Word32) : (s.wr w o v).riseAt = s.riseAt := rfl
@[simp] theorem State.wr_trimOver (s : State) (w : Win) (o : Nat) (v : Word32) : (s.wr w o v).trimOver = s.trimOver := rfl
@[simp] theorem State.wr_idleAt (s : State) (w : Win) (o : Nat) (v : Word32) : (s.wr w o v).idleAt = s.idleAt := rfl
@[simp] theorem State.wr_hbmAt (s : State) (w : Win) (o : Nat) (v : Word32) : (s.wr w o v).hbmAt = s.hbmAt := rfl
@[simp] theorem State.wr_dividedFor (s : State) (w : Win) (o : Nat) (v : Word32) : (s.wr w o v).dividedFor = s.dividedFor := rfl
@[simp] theorem State.wr_wakeWaits (s : State) (w : Win) (o : Nat) (v : Word32) : (s.wr w o v).wakeWaits = s.wakeWaits := rfl
@[simp] theorem State.wr_energyRem (s : State) (w : Win) (o : Nat) (v : Word32) : (s.wr w o v).energyRem = s.energyRem := rfl
@[simp] theorem State.wr_standby (s : State) (w : Win) (o : Nat) (v : Word32) : (s.wr w o v).standby = s.standby := rfl
@[simp] theorem State.wr_energyHigh (s : State) (w : Win) (o : Nat) (v : Word32) : (s.wr w o v).energyHigh = s.energyHigh := rfl
@[simp] theorem State.wr_ldgIngress (s : State) (w : Win) (o : Nat) (v : Word32) : (s.wr w o v).ldgIngress = s.ldgIngress := rfl
@[simp] theorem State.wr_ldgOpen (s : State) (w : Win) (o : Nat) (v : Word32) : (s.wr w o v).ldgOpen = s.ldgOpen := rfl
@[simp] theorem State.wr_ldgHist (s : State) (w : Win) (o : Nat) (v : Word32) : (s.wr w o v).ldgHist = s.ldgHist := rfl
@[simp] theorem State.wr_ldgCommit (s : State) (w : Win) (o : Nat) (v : Word32) : (s.wr w o v).ldgCommit = s.ldgCommit := rfl
@[simp] theorem State.wr_ldgRing (s : State) (w : Win) (o : Nat) (v : Word32) : (s.wr w o v).ldgRing = s.ldgRing := rfl
@[simp] theorem State.wr_ldgPersist (s : State) (w : Win) (o : Nat) (v : Word32) : (s.wr w o v).ldgPersist = s.ldgPersist := rfl
@[simp] theorem State.wr_ldgSeq (s : State) (w : Win) (o : Nat) (v : Word32) : (s.wr w o v).ldgSeq = s.ldgSeq := rfl
@[simp] theorem State.wr_ldgAcked (s : State) (w : Win) (o : Nat) (v : Word32) : (s.wr w o v).ldgAcked = s.ldgAcked := rfl
@[simp] theorem State.wr_ldgAt (s : State) (w : Win) (o : Nat) (v : Word32) : (s.wr w o v).ldgAt = s.ldgAt := rfl
@[simp] theorem State.wr_ldgClosed (s : State) (w : Win) (o : Nat) (v : Word32) : (s.wr w o v).ldgClosed = s.ldgClosed := rfl
@[simp] theorem State.wr_snaps (s : State) (w : Win) (o : Nat) (v : Word32) : (s.wr w o v).snaps = s.snaps := rfl
@[simp] theorem State.wr_injSeen (s : State) (w : Win) (o : Nat) (v : Word32) : (s.wr w o v).injSeen = s.injSeen := rfl
@[simp] theorem State.wr_tmx (s : State) (w : Win) (o : Nat) (v : Word32) : (s.wr w o v).tmx = s.tmx := rfl
@[simp] theorem State.wr_pinFault (s : State) (w : Win) (o : Nat) (v : Word32) : (s.wr w o v).pinFault = s.pinFault := rfl
@[simp] theorem State.wr_pinPwrWarn (s : State) (w : Win) (o : Nat) (v : Word32) : (s.wr w o v).pinPwrWarn = s.pinPwrWarn := rfl
@[simp] theorem State.wr_tmxOut (s : State) (w : Win) (o : Nat) (v : Word32) : (s.wr w o v).tmxOut = s.tmxOut := rfl
@[simp] theorem State.wr_tmxUntil (s : State) (w : Win) (o : Nat) (v : Word32) : (s.wr w o v).tmxUntil = s.tmxUntil := rfl
@[simp] theorem State.wr_ppsHigh (s : State) (w : Win) (o : Nat) (v : Word32) : (s.wr w o v).ppsHigh = s.ppsHigh := rfl
@[simp] theorem State.wr_warnReleased (s : State) (w : Win) (o : Nat) (v : Word32) : (s.wr w o v).warnReleased = s.warnReleased := rfl
@[simp] theorem State.wr_pendingSys (s : State) (w : Win) (o : Nat) (v : Word32) : (s.wr w o v).pendingSys = s.pendingSys := rfl
@[simp] theorem State.wr_genFloor (s : State) (w : Win) (o : Nat) (v : Word32) : (s.wr w o v).genFloor = s.genFloor := rfl
@[simp] theorem State.wr_fwCopies (s : State) (w : Win) (o : Nat) (v : Word32) : (s.wr w o v).fwCopies = s.fwCopies := rfl
@[simp] theorem State.wr_preferredB (s : State) (w : Win) (o : Nat) (v : Word32) : (s.wr w o v).preferredB = s.preferredB := rfl
@[simp] theorem State.wr_bootFails (s : State) (w : Win) (o : Nat) (v : Word32) : (s.wr w o v).bootFails = s.bootFails := rfl
@[simp] theorem State.wr_norImage (s : State) (w : Win) (o : Nat) (v : Word32) : (s.wr w o v).norImage = s.norImage := rfl
@[simp] theorem State.wr_norOlder (s : State) (w : Win) (o : Nat) (v : Word32) : (s.wr w o v).norOlder = s.norOlder := rfl
@[simp] theorem State.wr_norAt (s : State) (w : Win) (o : Nat) (v : Word32) : (s.wr w o v).norAt = s.norAt := rfl
@[simp] theorem State.wr_authority (s : State) (w : Win) (o : Nat) (v : Word32) : (s.wr w o v).authority = s.authority := rfl
@[simp] theorem State.wr_authWas (s : State) (w : Win) (o : Nat) (v : Word32) : (s.wr w o v).authWas = s.authWas := rfl
@[simp] theorem State.wr_norTrims (s : State) (w : Win) (o : Nat) (v : Word32) : (s.wr w o v).norTrims = s.norTrims := rfl
@[simp] theorem State.wr_secFloor (s : State) (w : Win) (o : Nat) (v : Word32) : (s.wr w o v).secFloor = s.secFloor := rfl
@[simp] theorem State.wr_runningB (s : State) (w : Win) (o : Nat) (v : Word32) : (s.wr w o v).runningB = s.runningB := rfl
@[simp] theorem State.wr_updateWritten (s : State) (w : Win) (o : Nat) (v : Word32) : (s.wr w o v).updateWritten = s.updateWritten := rfl
@[simp] theorem State.wr_updChecking (s : State) (w : Win) (o : Nat) (v : Word32) : (s.wr w o v).updChecking = s.updChecking := rfl
@[simp] theorem State.wr_linkKeys (s : State) (w : Win) (o : Nat) (v : Word32) : (s.wr w o v).linkKeys = s.linkKeys := rfl
@[simp] theorem State.wr_fabKey (s : State) (w : Win) (o : Nat) (v : Word32) : (s.wr w o v).fabKey = s.fabKey := rfl
@[simp] theorem State.wr_challenges (s : State) (w : Win) (o : Nat) (v : Word32) : (s.wr w o v).challenges = s.challenges := rfl
@[simp] theorem State.wr_checking (s : State) (w : Win) (o : Nat) (v : Word32) : (s.wr w o v).checking = s.checking := rfl
@[simp] theorem State.wr_tokens (s : State) (w : Win) (o : Nat) (v : Word32) : (s.wr w o v).tokens = s.tokens := rfl
@[simp] theorem State.wr_spdmStage (s : State) (w : Win) (o : Nat) (v : Word32) : (s.wr w o v).spdmStage = s.spdmStage := rfl
@[simp] theorem State.wr_spdm (s : State) (w : Win) (o : Nat) (v : Word32) : (s.wr w o v).spdm = s.spdm := rfl
@[simp] theorem State.wr_spdmNext (s : State) (w : Win) (o : Nat) (v : Word32) : (s.wr w o v).spdmNext = s.spdmNext := rfl
@[simp] theorem State.wr_injSession (s : State) (w : Win) (o : Nat) (v : Word32) : (s.wr w o v).injSession = s.injSession := rfl
@[simp] theorem State.wr_imgStage (s : State) (w : Win) (o : Nat) (v : Word32) : (s.wr w o v).imgStage = s.imgStage := rfl
@[simp] theorem State.wr_mgtTx (s : State) (w : Win) (o : Nat) (v : Word32) : (s.wr w o v).mgtTx = s.mgtTx := rfl
@[simp] theorem State.wr_quotes (s : State) (w : Win) (o : Nat) (v : Word32) : (s.wr w o v).quotes = s.quotes := rfl
@[simp] theorem State.wr_vaon (s : State) (w : Win) (o : Nat) (v : Word32) : (s.wr w o v).vaon = s.vaon := rfl
@[simp] theorem State.wr_vin (s : State) (w : Win) (o : Nat) (v : Word32) : (s.wr w o v).vin = s.vin := rfl
@[simp] theorem State.wr_vinAt (s : State) (w : Win) (o : Nat) (v : Word32) : (s.wr w o v).vinAt = s.vinAt := rfl
@[simp] theorem State.wr_sysRef (s : State) (w : Win) (o : Nat) (v : Word32) : (s.wr w o v).sysRef = s.sysRef := rfl
@[simp] theorem State.wr_sysRefAt (s : State) (w : Win) (o : Nat) (v : Word32) : (s.wr w o v).sysRefAt = s.sysRefAt := rfl
@[simp] theorem State.wr_resetN (s : State) (w : Win) (o : Nat) (v : Word32) : (s.wr w o v).resetN = s.resetN := rfl
@[simp] theorem State.wr_perstN (s : State) (w : Win) (o : Nat) (v : Word32) : (s.wr w o v).perstN = s.perstN := rfl
@[simp] theorem State.wr_npRuns (s : State) (w : Win) (o : Nat) (v : Word32) : (s.wr w o v).npRuns = s.npRuns := rfl
@[simp] theorem State.wr_rails (s : State) (w : Win) (o : Nat) (v : Word32) : (s.wr w o v).rails = s.rails := rfl
@[simp] theorem State.wr_hostUp (s : State) (w : Win) (o : Nat) (v : Word32) : (s.wr w o v).hostUp = s.hostUp := rfl
@[simp] theorem State.wr_offCause (s : State) (w : Win) (o : Nat) (v : Word32) : (s.wr w o v).offCause = s.offCause := rfl
@[simp] theorem State.wr_offWarned (s : State) (w : Win) (o : Nat) (v : Word32) : (s.wr w o v).offWarned = s.offWarned := rfl
@[simp] theorem State.wr_offAt (s : State) (w : Win) (o : Nat) (v : Word32) : (s.wr w o v).offAt = s.offAt := rfl
@[simp] theorem State.wr_romOnly (s : State) (w : Win) (o : Nat) (v : Word32) : (s.wr w o v).romOnly = s.romOnly := rfl
@[simp] theorem State.wr_ldgTorn (s : State) (w : Win) (o : Nat) (v : Word32) : (s.wr w o v).ldgTorn = s.ldgTorn := rfl
@[simp] theorem State.wr_revokeAt (s : State) (w : Win) (o : Nat) (v : Word32) : (s.wr w o v).revokeAt = s.revokeAt := rfl
@[simp] theorem State.wr_pending (s : State) (w : Win) (o : Nat) (v : Word32) : (s.wr w o v).pending = s.pending := rfl
@[simp] theorem State.wr_resp (s : State) (w : Win) (o : Nat) (v : Word32) : (s.wr w o v).resp = s.resp := rfl
@[simp] theorem State.wr_w1cAt (s : State) (w : Win) (o : Nat) (v : Word32) : (s.wr w o v).w1cAt = s.w1cAt := rfl
@[simp] theorem State.wr_freeCtr (s : State) (w : Win) (o : Nat) (v : Word32) : (s.wr w o v).freeCtr = s.freeCtr := rfl

/-! ### setCore -/

@[simp] theorem State.setCore_barriers (s : State) (c : CoreId) (k : CoreSt) : (s.setCore c k).barriers = s.barriers := rfl
@[simp] theorem State.setCore_sram (s : State) (c : CoreId) (k : CoreSt) : (s.setCore c k).sram = s.sram := rfl
@[simp] theorem State.setCore_spdErr (s : State) (c : CoreId) (k : CoreSt) : (s.setCore c k).spdErr = s.spdErr := rfl
@[simp] theorem State.setCore_rowCls (s : State) (c : CoreId) (k : CoreSt) : (s.setCore c k).rowCls = s.rowCls := rfl
@[simp] theorem State.setCore_ueSeen (s : State) (c : CoreId) (k : CoreSt) : (s.setCore c k).ueSeen = s.ueSeen := rfl
@[simp] theorem State.setCore_acc (s : State) (c : CoreId) (k : CoreSt) : (s.setCore c k).acc = s.acc := rfl
@[simp] theorem State.setCore_bankQ (s : State) (c : CoreId) (k : CoreSt) : (s.setCore c k).bankQ = s.bankQ := rfl
@[simp] theorem State.setCore_writeBack (s : State) (c : CoreId) (k : CoreSt) : (s.setCore c k).writeBack = s.writeBack := rfl
@[simp] theorem State.setCore_clrNow (s : State) (c : CoreId) (k : CoreSt) : (s.setCore c k).clrNow = s.clrNow := rfl
@[simp] theorem State.setCore_clrPend (s : State) (c : CoreId) (k : CoreSt) : (s.setCore c k).clrPend = s.clrPend := rfl
@[simp] theorem State.setCore_heldWins (s : State) (c : CoreId) (k : CoreSt) : (s.setCore c k).heldWins = s.heldWins := rfl
@[simp] theorem State.setCore_bist (s : State) (c : CoreId) (k : CoreSt) : (s.setCore c k).bist = s.bist := rfl
@[simp] theorem State.setCore_failedRgns (s : State) (c : CoreId) (k : CoreSt) : (s.setCore c k).failedRgns = s.failedRgns := rfl
@[simp] theorem State.setCore_repairMap (s : State) (c : CoreId) (k : CoreSt) : (s.setCore c k).repairMap = s.repairMap := rfl
@[simp] theorem State.setCore_repairFailed (s : State) (c : CoreId) (k : CoreSt) : (s.setCore c k).repairFailed = s.repairFailed := rfl
@[simp] theorem State.setCore_repairSeen (s : State) (c : CoreId) (k : CoreSt) : (s.setCore c k).repairSeen = s.repairSeen := rfl
@[simp] theorem State.setCore_routerTable (s : State) (c : CoreId) (k : CoreSt) : (s.setCore c k).routerTable = s.routerTable := rfl
@[simp] theorem State.setCore_atps (s : State) (c : CoreId) (k : CoreSt) : (s.setCore c k).atps = s.atps := rfl
@[simp] theorem State.setCore_ctxs (s : State) (c : CoreId) (k : CoreSt) : (s.setCore c k).ctxs = s.ctxs := rfl
@[simp] theorem State.setCore_hbm (s : State) (c : CoreId) (k : CoreSt) : (s.setCore c k).hbm = s.hbm := rfl
@[simp] theorem State.setCore_hbmKey (s : State) (c : CoreId) (k : CoreSt) : (s.setCore c k).hbmKey = s.hbmKey := rfl
@[simp] theorem State.setCore_hbmBad (s : State) (c : CoreId) (k : CoreSt) : (s.setCore c k).hbmBad = s.hbmBad := rfl
@[simp] theorem State.setCore_frames (s : State) (c : CoreId) (k : CoreSt) : (s.setCore c k).frames = s.frames := rfl
@[simp] theorem State.setCore_ptes (s : State) (c : CoreId) (k : CoreSt) : (s.setCore c k).ptes = s.ptes := rfl
@[simp] theorem State.setCore_shared (s : State) (c : CoreId) (k : CoreSt) : (s.setCore c k).shared = s.shared := rfl
@[simp] theorem State.setCore_prefixes (s : State) (c : CoreId) (k : CoreSt) : (s.setCore c k).prefixes = s.prefixes := rfl
@[simp] theorem State.setCore_kind5 (s : State) (c : CoreId) (k : CoreSt) : (s.setCore c k).kind5 = s.kind5 := rfl
@[simp] theorem State.setCore_prefixRefs (s : State) (c : CoreId) (k : CoreSt) : (s.setCore c k).prefixRefs = s.prefixRefs := rfl
@[simp] theorem State.setCore_pageMoves (s : State) (c : CoreId) (k : CoreSt) : (s.setCore c k).pageMoves = s.pageMoves := rfl
@[simp] theorem State.setCore_hints (s : State) (c : CoreId) (k : CoreSt) : (s.setCore c k).hints = s.hints := rfl
@[simp] theorem State.setCore_pins (s : State) (c : CoreId) (k : CoreSt) : (s.setCore c k).pins = s.pins := rfl
@[simp] theorem State.setCore_admitted (s : State) (c : CoreId) (k : CoreSt) : (s.setCore c k).admitted = s.admitted := rfl
@[simp] theorem State.setCore_forkWait (s : State) (c : CoreId) (k : CoreSt) : (s.setCore c k).forkWait = s.forkWait := rfl
@[simp] theorem State.setCore_hostBufs (s : State) (c : CoreId) (k : CoreSt) : (s.setCore c k).hostBufs = s.hostBufs := rfl
@[simp] theorem State.setCore_checkRecs (s : State) (c : CoreId) (k : CoreSt) : (s.setCore c k).checkRecs = s.checkRecs := rfl
@[simp] theorem State.setCore_farPages (s : State) (c : CoreId) (k : CoreSt) : (s.setCore c k).farPages = s.farPages := rfl
@[simp] theorem State.setCore_reserved (s : State) (c : CoreId) (k : CoreSt) : (s.setCore c k).reserved = s.reserved := rfl
@[simp] theorem State.setCore_publishing (s : State) (c : CoreId) (k : CoreSt) : (s.setCore c k).publishing = s.publishing := rfl
@[simp] theorem State.setCore_demoting (s : State) (c : CoreId) (k : CoreSt) : (s.setCore c k).demoting = s.demoting := rfl
@[simp] theorem State.setCore_keyGen (s : State) (c : CoreId) (k : CoreSt) : (s.setCore c k).keyGen = s.keyGen := rfl
@[simp] theorem State.setCore_scrubAt (s : State) (c : CoreId) (k : CoreSt) : (s.setCore c k).scrubAt = s.scrubAt := rfl
@[simp] theorem State.setCore_rglRem (s : State) (c : CoreId) (k : CoreSt) : (s.setCore c k).rglRem = s.rglRem := rfl
@[simp] theorem State.setCore_rglTok (s : State) (c : CoreId) (k : CoreSt) : (s.setCore c k).rglTok = s.rglTok := rfl
@[simp] theorem State.setCore_cous (s : State) (c : CoreId) (k : CoreSt) : (s.setCore c k).cous = s.cous := rfl
@[simp] theorem State.setCore_cancels (s : State) (c : CoreId) (k : CoreSt) : (s.setCore c k).cancels = s.cancels := rfl
@[simp] theorem State.setCore_drvs (s : State) (c : CoreId) (k : CoreSt) : (s.setCore c k).drvs = s.drvs := rfl
@[simp] theorem State.setCore_drvRem (s : State) (c : CoreId) (k : CoreSt) : (s.setCore c k).drvRem = s.drvRem := rfl
@[simp] theorem State.setCore_wsets (s : State) (c : CoreId) (k : CoreSt) : (s.setCore c k).wsets = s.wsets := rfl
@[simp] theorem State.setCore_peerWsets (s : State) (c : CoreId) (k : CoreSt) : (s.setCore c k).peerWsets = s.peerWsets := rfl
@[simp] theorem State.setCore_draining (s : State) (c : CoreId) (k : CoreSt) : (s.setCore c k).draining = s.draining := rfl
@[simp] theorem State.setCore_imgArea (s : State) (c : CoreId) (k : CoreSt) : (s.setCore c k).imgArea = s.imgArea := rfl
@[simp] theorem State.setCore_planArea (s : State) (c : CoreId) (k : CoreSt) : (s.setCore c k).planArea = s.planArea := rfl
@[simp] theorem State.setCore_sessions (s : State) (c : CoreId) (k : CoreSt) : (s.setCore c k).sessions = s.sessions := rfl
@[simp] theorem State.setCore_items (s : State) (c : CoreId) (k : CoreSt) : (s.setCore c k).items = s.items := rfl
@[simp] theorem State.setCore_itemNo (s : State) (c : CoreId) (k : CoreSt) : (s.setCore c k).itemNo = s.itemNo := rfl
@[simp] theorem State.setCore_steps (s : State) (c : CoreId) (k : CoreSt) : (s.setCore c k).steps = s.steps := rfl
@[simp] theorem State.setCore_stepNo (s : State) (c : CoreId) (k : CoreSt) : (s.setCore c k).stepNo = s.stepNo := rfl
@[simp] theorem State.setCore_plans (s : State) (c : CoreId) (k : CoreSt) : (s.setCore c k).plans = s.plans := rfl
@[simp] theorem State.setCore_prefillLane (s : State) (c : CoreId) (k : CoreSt) : (s.setCore c k).prefillLane = s.prefillLane := rfl
@[simp] theorem State.setCore_laneMoves (s : State) (c : CoreId) (k : CoreSt) : (s.setCore c k).laneMoves = s.laneMoves := rfl
@[simp] theorem State.setCore_loadOwed (s : State) (c : CoreId) (k : CoreSt) : (s.setCore c k).loadOwed = s.loadOwed := rfl
@[simp] theorem State.setCore_homeTurn (s : State) (c : CoreId) (k : CoreSt) : (s.setCore c k).homeTurn = s.homeTurn := rfl
@[simp] theorem State.setCore_held (s : State) (c : CoreId) (k : CoreSt) : (s.setCore c k).held = s.held := rfl
@[simp] theorem State.setCore_tokenRecs (s : State) (c : CoreId) (k : CoreSt) : (s.setCore c k).tokenRecs = s.tokenRecs := rfl
@[simp] theorem State.setCore_progSet (s : State) (c : CoreId) (k : CoreSt) : (s.setCore c k).progSet = s.progSet := rfl
@[simp] theorem State.setCore_failReps (s : State) (c : CoreId) (k : CoreSt) : (s.setCore c k).failReps = s.failReps := rfl
@[simp] theorem State.setCore_farDrops (s : State) (c : CoreId) (k : CoreSt) : (s.setCore c k).farDrops = s.farDrops := rfl
@[simp] theorem State.setCore_sysImage (s : State) (c : CoreId) (k : CoreSt) : (s.setCore c k).sysImage = s.sysImage := rfl
@[simp] theorem State.setCore_images (s : State) (c : CoreId) (k : CoreSt) : (s.setCore c k).images = s.images := rfl
@[simp] theorem State.setCore_loads (s : State) (c : CoreId) (k : CoreSt) : (s.setCore c k).loads = s.loads := rfl
@[simp] theorem State.setCore_moves (s : State) (c : CoreId) (k : CoreSt) : (s.setCore c k).moves = s.moves := rfl
@[simp] theorem State.setCore_movesNext (s : State) (c : CoreId) (k : CoreSt) : (s.setCore c k).movesNext = s.movesNext := rfl
@[simp] theorem State.setCore_claims (s : State) (c : CoreId) (k : CoreSt) : (s.setCore c k).claims = s.claims := rfl
@[simp] theorem State.setCore_saves (s : State) (c : CoreId) (k : CoreSt) : (s.setCore c k).saves = s.saves := rfl
@[simp] theorem State.setCore_vacant (s : State) (c : CoreId) (k : CoreSt) : (s.setCore c k).vacant = s.vacant := rfl
@[simp] theorem State.setCore_resumeAt (s : State) (c : CoreId) (k : CoreSt) : (s.setCore c k).resumeAt = s.resumeAt := rfl
@[simp] theorem State.setCore_drains (s : State) (c : CoreId) (k : CoreSt) : (s.setCore c k).drains = s.drains := rfl
@[simp] theorem State.setCore_jobShort (s : State) (c : CoreId) (k : CoreSt) : (s.setCore c k).jobShort = s.jobShort := rfl
@[simp] theorem State.setCore_jobHalted (s : State) (c : CoreId) (k : CoreSt) : (s.setCore c k).jobHalted = s.jobHalted := rfl
@[simp] theorem State.setCore_now (s : State) (c : CoreId) (k : CoreSt) : (s.setCore c k).now = s.now := rfl
@[simp] theorem State.setCore_nowFrac (s : State) (c : CoreId) (k : CoreSt) : (s.setCore c k).nowFrac = s.nowFrac := rfl
@[simp] theorem State.setCore_nowHigh (s : State) (c : CoreId) (k : CoreSt) : (s.setCore c k).nowHigh = s.nowHigh := rfl
@[simp] theorem State.setCore_lastRdsr (s : State) (c : CoreId) (k : CoreSt) : (s.setCore c k).lastRdsr = s.lastRdsr := rfl
@[simp] theorem State.setCore_cmps (s : State) (c : CoreId) (k : CoreSt) : (s.setCore c k).cmps = s.cmps := rfl
@[simp] theorem State.setCore_calendar (s : State) (c : CoreId) (k : CoreSt) : (s.setCore c k).calendar = s.calendar := rfl
@[simp] theorem State.setCore_links (s : State) (c : CoreId) (k : CoreSt) : (s.setCore c k).links = s.links := rfl
@[simp] theorem State.setCore_lostSlots (s : State) (c : CoreId) (k : CoreSt) : (s.setCore c k).lostSlots = s.lostSlots := rfl
@[simp] theorem State.setCore_lostLinks (s : State) (c : CoreId) (k : CoreSt) : (s.setCore c k).lostLinks = s.lostLinks := rfl
@[simp] theorem State.setCore_master (s : State) (c : CoreId) (k : CoreSt) : (s.setCore c k).master = s.master := rfl
@[simp] theorem State.setCore_backup (s : State) (c : CoreId) (k : CoreSt) : (s.setCore c k).backup = s.backup := rfl
@[simp] theorem State.setCore_lostMastership (s : State) (c : CoreId) (k : CoreSt) : (s.setCore c k).lostMastership = s.lostMastership := rfl
@[simp] theorem State.setCore_holdoverAt (s : State) (c : CoreId) (k : CoreSt) : (s.setCore c k).holdoverAt = s.holdoverAt := rfl
@[simp] theorem State.setCore_treatedAsLost (s : State) (c : CoreId) (k : CoreSt) : (s.setCore c k).treatedAsLost = s.treatedAsLost := rfl
@[simp] theorem State.setCore_masterLostAt (s : State) (c : CoreId) (k : CoreSt) : (s.setCore c k).masterLostAt = s.masterLostAt := rfl
@[simp] theorem State.setCore_tookOverAt (s : State) (c : CoreId) (k : CoreSt) : (s.setCore c k).tookOverAt = s.tookOverAt := rfl
@[simp] theorem State.setCore_exMasters (s : State) (c : CoreId) (k : CoreSt) : (s.setCore c k).exMasters = s.exMasters := rfl
@[simp] theorem State.setCore_syncCopy (s : State) (c : CoreId) (k : CoreSt) : (s.setCore c k).syncCopy = s.syncCopy := rfl
@[simp] theorem State.setCore_coord (s : State) (c : CoreId) (k : CoreSt) : (s.setCore c k).coord = s.coord := rfl
@[simp] theorem State.setCore_outOfSystem (s : State) (c : CoreId) (k : CoreSt) : (s.setCore c k).outOfSystem = s.outOfSystem := rfl
@[simp] theorem State.setCore_recabling (s : State) (c : CoreId) (k : CoreSt) : (s.setCore c k).recabling = s.recabling := rfl
@[simp] theorem State.setCore_linkTx (s : State) (c : CoreId) (k : CoreSt) : (s.setCore c k).linkTx = s.linkTx := rfl
@[simp] theorem State.setCore_hostTx (s : State) (c : CoreId) (k : CoreSt) : (s.setCore c k).hostTx = s.hostTx := rfl
@[simp] theorem State.setCore_switchPoints (s : State) (c : CoreId) (k : CoreSt) : (s.setCore c k).switchPoints = s.switchPoints := rfl
@[simp] theorem State.setCore_recableAt (s : State) (c : CoreId) (k : CoreSt) : (s.setCore c k).recableAt = s.recableAt := rfl
@[simp] theorem State.setCore_cqReserved (s : State) (c : CoreId) (k : CoreSt) : (s.setCore c k).cqReserved = s.cqReserved := rfl
@[simp] theorem State.setCore_unsignalled (s : State) (c : CoreId) (k : CoreSt) : (s.setCore c k).unsignalled = s.unsignalled := rfl
@[simp] theorem State.setCore_postQ (s : State) (c : CoreId) (k : CoreSt) : (s.setCore c k).postQ = s.postQ := rfl
@[simp] theorem State.setCore_hostReads (s : State) (c : CoreId) (k : CoreSt) : (s.setCore c k).hostReads = s.hostReads := rfl
@[simp] theorem State.setCore_inbox (s : State) (c : CoreId) (k : CoreSt) : (s.setCore c k).inbox = s.inbox := rfl
@[simp] theorem State.setCore_ringTurn (s : State) (c : CoreId) (k : CoreSt) : (s.setCore c k).ringTurn = s.ringTurn := rfl
@[simp] theorem State.setCore_ethTx (s : State) (c : CoreId) (k : CoreSt) : (s.setCore c k).ethTx = s.ethTx := rfl
@[simp] theorem State.setCore_ethRx (s : State) (c : CoreId) (k : CoreSt) : (s.setCore c k).ethRx = s.ethRx := rfl
@[simp] theorem State.setCore_wallOfsL (s : State) (c : CoreId) (k : CoreSt) : (s.setCore c k).wallOfsL = s.wallOfsL := rfl
@[simp] theorem State.setCore_fabPairs (s : State) (c : CoreId) (k : CoreSt) : (s.setCore c k).fabPairs = s.fabPairs := rfl
@[simp] theorem State.setCore_fabTxc (s : State) (c : CoreId) (k : CoreSt) : (s.setCore c k).fabTxc = s.fabTxc := rfl
@[simp] theorem State.setCore_fabRxTxc (s : State) (c : CoreId) (k : CoreSt) : (s.setCore c k).fabRxTxc = s.fabRxTxc := rfl
@[simp] theorem State.setCore_fabReqs (s : State) (c : CoreId) (k : CoreSt) : (s.setCore c k).fabReqs = s.fabReqs := rfl
@[simp] theorem State.setCore_fabTag (s : State) (c : CoreId) (k : CoreSt) : (s.setCore c k).fabTag = s.fabTag := rfl
@[simp] theorem State.setCore_fabTx (s : State) (c : CoreId) (k : CoreSt) : (s.setCore c k).fabTx = s.fabTx := rfl
@[simp] theorem State.setCore_fabDead (s : State) (c : CoreId) (k : CoreSt) : (s.setCore c k).fabDead = s.fabDead := rfl
@[simp] theorem State.setCore_unreachable (s : State) (c : CoreId) (k : CoreSt) : (s.setCore c k).unreachable = s.unreachable := rfl
@[simp] theorem State.setCore_segments (s : State) (c : CoreId) (k : CoreSt) : (s.setCore c k).segments = s.segments := rfl
@[simp] theorem State.setCore_leases (s : State) (c : CoreId) (k : CoreSt) : (s.setCore c k).leases = s.leases := rfl
@[simp] theorem State.setCore_smfBusy (s : State) (c : CoreId) (k : CoreSt) : (s.setCore c k).smfBusy = s.smfBusy := rfl
@[simp] theorem State.setCore_hostGts (s : State) (c : CoreId) (k : CoreSt) : (s.setCore c k).hostGts = s.hostGts := rfl
@[simp] theorem State.setCore_rgnPend (s : State) (c : CoreId) (k : CoreSt) : (s.setCore c k).rgnPend = s.rgnPend := rfl
@[simp] theorem State.setCore_wakeFrom (s : State) (c : CoreId) (k : CoreSt) : (s.setCore c k).wakeFrom = s.wakeFrom := rfl
@[simp] theorem State.setCore_ivrShort (s : State) (c : CoreId) (k : CoreSt) : (s.setCore c k).ivrShort = s.ivrShort := rfl
@[simp] theorem State.setCore_trimPend (s : State) (c : CoreId) (k : CoreSt) : (s.setCore c k).trimPend = s.trimPend := rfl
@[simp] theorem State.setCore_stretch (s : State) (c : CoreId) (k : CoreSt) : (s.setCore c k).stretch = s.stretch := rfl
@[simp] theorem State.setCore_ceils (s : State) (c : CoreId) (k : CoreSt) : (s.setCore c k).ceils = s.ceils := rfl
@[simp] theorem State.setCore_hotAt (s : State) (c : CoreId) (k : CoreSt) : (s.setCore c k).hotAt = s.hotAt := rfl
@[simp] theorem State.setCore_coolAt (s : State) (c : CoreId) (k : CoreSt) : (s.setCore c k).coolAt = s.coolAt := rfl
@[simp] theorem State.setCore_riseAt (s : State) (c : CoreId) (k : CoreSt) : (s.setCore c k).riseAt = s.riseAt := rfl
@[simp] theorem State.setCore_trimOver (s : State) (c : CoreId) (k : CoreSt) : (s.setCore c k).trimOver = s.trimOver := rfl
@[simp] theorem State.setCore_idleAt (s : State) (c : CoreId) (k : CoreSt) : (s.setCore c k).idleAt = s.idleAt := rfl
@[simp] theorem State.setCore_hbmAt (s : State) (c : CoreId) (k : CoreSt) : (s.setCore c k).hbmAt = s.hbmAt := rfl
@[simp] theorem State.setCore_dividedFor (s : State) (c : CoreId) (k : CoreSt) : (s.setCore c k).dividedFor = s.dividedFor := rfl
@[simp] theorem State.setCore_wakeWaits (s : State) (c : CoreId) (k : CoreSt) : (s.setCore c k).wakeWaits = s.wakeWaits := rfl
@[simp] theorem State.setCore_energyRem (s : State) (c : CoreId) (k : CoreSt) : (s.setCore c k).energyRem = s.energyRem := rfl
@[simp] theorem State.setCore_standby (s : State) (c : CoreId) (k : CoreSt) : (s.setCore c k).standby = s.standby := rfl
@[simp] theorem State.setCore_energyHigh (s : State) (c : CoreId) (k : CoreSt) : (s.setCore c k).energyHigh = s.energyHigh := rfl
@[simp] theorem State.setCore_ldgIngress (s : State) (c : CoreId) (k : CoreSt) : (s.setCore c k).ldgIngress = s.ldgIngress := rfl
@[simp] theorem State.setCore_ldgOpen (s : State) (c : CoreId) (k : CoreSt) : (s.setCore c k).ldgOpen = s.ldgOpen := rfl
@[simp] theorem State.setCore_ldgHist (s : State) (c : CoreId) (k : CoreSt) : (s.setCore c k).ldgHist = s.ldgHist := rfl
@[simp] theorem State.setCore_ldgCommit (s : State) (c : CoreId) (k : CoreSt) : (s.setCore c k).ldgCommit = s.ldgCommit := rfl
@[simp] theorem State.setCore_ldgRing (s : State) (c : CoreId) (k : CoreSt) : (s.setCore c k).ldgRing = s.ldgRing := rfl
@[simp] theorem State.setCore_ldgPersist (s : State) (c : CoreId) (k : CoreSt) : (s.setCore c k).ldgPersist = s.ldgPersist := rfl
@[simp] theorem State.setCore_ldgSeq (s : State) (c : CoreId) (k : CoreSt) : (s.setCore c k).ldgSeq = s.ldgSeq := rfl
@[simp] theorem State.setCore_ldgAcked (s : State) (c : CoreId) (k : CoreSt) : (s.setCore c k).ldgAcked = s.ldgAcked := rfl
@[simp] theorem State.setCore_ldgAt (s : State) (c : CoreId) (k : CoreSt) : (s.setCore c k).ldgAt = s.ldgAt := rfl
@[simp] theorem State.setCore_ldgClosed (s : State) (c : CoreId) (k : CoreSt) : (s.setCore c k).ldgClosed = s.ldgClosed := rfl
@[simp] theorem State.setCore_snaps (s : State) (c : CoreId) (k : CoreSt) : (s.setCore c k).snaps = s.snaps := rfl
@[simp] theorem State.setCore_injSeen (s : State) (c : CoreId) (k : CoreSt) : (s.setCore c k).injSeen = s.injSeen := rfl
@[simp] theorem State.setCore_tmx (s : State) (c : CoreId) (k : CoreSt) : (s.setCore c k).tmx = s.tmx := rfl
@[simp] theorem State.setCore_pinFault (s : State) (c : CoreId) (k : CoreSt) : (s.setCore c k).pinFault = s.pinFault := rfl
@[simp] theorem State.setCore_pinPwrWarn (s : State) (c : CoreId) (k : CoreSt) : (s.setCore c k).pinPwrWarn = s.pinPwrWarn := rfl
@[simp] theorem State.setCore_tmxOut (s : State) (c : CoreId) (k : CoreSt) : (s.setCore c k).tmxOut = s.tmxOut := rfl
@[simp] theorem State.setCore_tmxUntil (s : State) (c : CoreId) (k : CoreSt) : (s.setCore c k).tmxUntil = s.tmxUntil := rfl
@[simp] theorem State.setCore_ppsHigh (s : State) (c : CoreId) (k : CoreSt) : (s.setCore c k).ppsHigh = s.ppsHigh := rfl
@[simp] theorem State.setCore_warnReleased (s : State) (c : CoreId) (k : CoreSt) : (s.setCore c k).warnReleased = s.warnReleased := rfl
@[simp] theorem State.setCore_pendingSys (s : State) (c : CoreId) (k : CoreSt) : (s.setCore c k).pendingSys = s.pendingSys := rfl
@[simp] theorem State.setCore_genFloor (s : State) (c : CoreId) (k : CoreSt) : (s.setCore c k).genFloor = s.genFloor := rfl
@[simp] theorem State.setCore_fwCopies (s : State) (c : CoreId) (k : CoreSt) : (s.setCore c k).fwCopies = s.fwCopies := rfl
@[simp] theorem State.setCore_preferredB (s : State) (c : CoreId) (k : CoreSt) : (s.setCore c k).preferredB = s.preferredB := rfl
@[simp] theorem State.setCore_bootFails (s : State) (c : CoreId) (k : CoreSt) : (s.setCore c k).bootFails = s.bootFails := rfl
@[simp] theorem State.setCore_norImage (s : State) (c : CoreId) (k : CoreSt) : (s.setCore c k).norImage = s.norImage := rfl
@[simp] theorem State.setCore_norOlder (s : State) (c : CoreId) (k : CoreSt) : (s.setCore c k).norOlder = s.norOlder := rfl
@[simp] theorem State.setCore_norAt (s : State) (c : CoreId) (k : CoreSt) : (s.setCore c k).norAt = s.norAt := rfl
@[simp] theorem State.setCore_authority (s : State) (c : CoreId) (k : CoreSt) : (s.setCore c k).authority = s.authority := rfl
@[simp] theorem State.setCore_authWas (s : State) (c : CoreId) (k : CoreSt) : (s.setCore c k).authWas = s.authWas := rfl
@[simp] theorem State.setCore_norTrims (s : State) (c : CoreId) (k : CoreSt) : (s.setCore c k).norTrims = s.norTrims := rfl
@[simp] theorem State.setCore_secFloor (s : State) (c : CoreId) (k : CoreSt) : (s.setCore c k).secFloor = s.secFloor := rfl
@[simp] theorem State.setCore_runningB (s : State) (c : CoreId) (k : CoreSt) : (s.setCore c k).runningB = s.runningB := rfl
@[simp] theorem State.setCore_updateWritten (s : State) (c : CoreId) (k : CoreSt) : (s.setCore c k).updateWritten = s.updateWritten := rfl
@[simp] theorem State.setCore_updChecking (s : State) (c : CoreId) (k : CoreSt) : (s.setCore c k).updChecking = s.updChecking := rfl
@[simp] theorem State.setCore_linkKeys (s : State) (c : CoreId) (k : CoreSt) : (s.setCore c k).linkKeys = s.linkKeys := rfl
@[simp] theorem State.setCore_fabKey (s : State) (c : CoreId) (k : CoreSt) : (s.setCore c k).fabKey = s.fabKey := rfl
@[simp] theorem State.setCore_challenges (s : State) (c : CoreId) (k : CoreSt) : (s.setCore c k).challenges = s.challenges := rfl
@[simp] theorem State.setCore_checking (s : State) (c : CoreId) (k : CoreSt) : (s.setCore c k).checking = s.checking := rfl
@[simp] theorem State.setCore_tokens (s : State) (c : CoreId) (k : CoreSt) : (s.setCore c k).tokens = s.tokens := rfl
@[simp] theorem State.setCore_spdmStage (s : State) (c : CoreId) (k : CoreSt) : (s.setCore c k).spdmStage = s.spdmStage := rfl
@[simp] theorem State.setCore_spdm (s : State) (c : CoreId) (k : CoreSt) : (s.setCore c k).spdm = s.spdm := rfl
@[simp] theorem State.setCore_spdmNext (s : State) (c : CoreId) (k : CoreSt) : (s.setCore c k).spdmNext = s.spdmNext := rfl
@[simp] theorem State.setCore_injSession (s : State) (c : CoreId) (k : CoreSt) : (s.setCore c k).injSession = s.injSession := rfl
@[simp] theorem State.setCore_imgStage (s : State) (c : CoreId) (k : CoreSt) : (s.setCore c k).imgStage = s.imgStage := rfl
@[simp] theorem State.setCore_mgtTx (s : State) (c : CoreId) (k : CoreSt) : (s.setCore c k).mgtTx = s.mgtTx := rfl
@[simp] theorem State.setCore_quotes (s : State) (c : CoreId) (k : CoreSt) : (s.setCore c k).quotes = s.quotes := rfl
@[simp] theorem State.setCore_vaon (s : State) (c : CoreId) (k : CoreSt) : (s.setCore c k).vaon = s.vaon := rfl
@[simp] theorem State.setCore_vin (s : State) (c : CoreId) (k : CoreSt) : (s.setCore c k).vin = s.vin := rfl
@[simp] theorem State.setCore_vinAt (s : State) (c : CoreId) (k : CoreSt) : (s.setCore c k).vinAt = s.vinAt := rfl
@[simp] theorem State.setCore_sysRef (s : State) (c : CoreId) (k : CoreSt) : (s.setCore c k).sysRef = s.sysRef := rfl
@[simp] theorem State.setCore_sysRefAt (s : State) (c : CoreId) (k : CoreSt) : (s.setCore c k).sysRefAt = s.sysRefAt := rfl
@[simp] theorem State.setCore_resetN (s : State) (c : CoreId) (k : CoreSt) : (s.setCore c k).resetN = s.resetN := rfl
@[simp] theorem State.setCore_perstN (s : State) (c : CoreId) (k : CoreSt) : (s.setCore c k).perstN = s.perstN := rfl
@[simp] theorem State.setCore_npRuns (s : State) (c : CoreId) (k : CoreSt) : (s.setCore c k).npRuns = s.npRuns := rfl
@[simp] theorem State.setCore_rails (s : State) (c : CoreId) (k : CoreSt) : (s.setCore c k).rails = s.rails := rfl
@[simp] theorem State.setCore_hostUp (s : State) (c : CoreId) (k : CoreSt) : (s.setCore c k).hostUp = s.hostUp := rfl
@[simp] theorem State.setCore_offCause (s : State) (c : CoreId) (k : CoreSt) : (s.setCore c k).offCause = s.offCause := rfl
@[simp] theorem State.setCore_offWarned (s : State) (c : CoreId) (k : CoreSt) : (s.setCore c k).offWarned = s.offWarned := rfl
@[simp] theorem State.setCore_offAt (s : State) (c : CoreId) (k : CoreSt) : (s.setCore c k).offAt = s.offAt := rfl
@[simp] theorem State.setCore_romOnly (s : State) (c : CoreId) (k : CoreSt) : (s.setCore c k).romOnly = s.romOnly := rfl
@[simp] theorem State.setCore_ldgTorn (s : State) (c : CoreId) (k : CoreSt) : (s.setCore c k).ldgTorn = s.ldgTorn := rfl
@[simp] theorem State.setCore_revokeAt (s : State) (c : CoreId) (k : CoreSt) : (s.setCore c k).revokeAt = s.revokeAt := rfl
@[simp] theorem State.setCore_pending (s : State) (c : CoreId) (k : CoreSt) : (s.setCore c k).pending = s.pending := rfl
@[simp] theorem State.setCore_regs (s : State) (c : CoreId) (k : CoreSt) : (s.setCore c k).regs = s.regs := rfl
@[simp] theorem State.setCore_resp (s : State) (c : CoreId) (k : CoreSt) : (s.setCore c k).resp = s.resp := rfl
@[simp] theorem State.setCore_w1cAt (s : State) (c : CoreId) (k : CoreSt) : (s.setCore c k).w1cAt = s.w1cAt := rfl
@[simp] theorem State.setCore_freeCtr (s : State) (c : CoreId) (k : CoreSt) : (s.setCore c k).freeCtr = s.freeCtr := rfl

/-! ### resetWin -/

@[simp] theorem State.resetWin_cores (s : State) (w : Win) (lo hi : Nat) : (s.resetWin w lo hi).cores = s.cores := rfl
@[simp] theorem State.resetWin_barriers (s : State) (w : Win) (lo hi : Nat) : (s.resetWin w lo hi).barriers = s.barriers := rfl
@[simp] theorem State.resetWin_sram (s : State) (w : Win) (lo hi : Nat) : (s.resetWin w lo hi).sram = s.sram := rfl
@[simp] theorem State.resetWin_spdErr (s : State) (w : Win) (lo hi : Nat) : (s.resetWin w lo hi).spdErr = s.spdErr := rfl
@[simp] theorem State.resetWin_rowCls (s : State) (w : Win) (lo hi : Nat) : (s.resetWin w lo hi).rowCls = s.rowCls := rfl
@[simp] theorem State.resetWin_ueSeen (s : State) (w : Win) (lo hi : Nat) : (s.resetWin w lo hi).ueSeen = s.ueSeen := rfl
@[simp] theorem State.resetWin_acc (s : State) (w : Win) (lo hi : Nat) : (s.resetWin w lo hi).acc = s.acc := rfl
@[simp] theorem State.resetWin_bankQ (s : State) (w : Win) (lo hi : Nat) : (s.resetWin w lo hi).bankQ = s.bankQ := rfl
@[simp] theorem State.resetWin_writeBack (s : State) (w : Win) (lo hi : Nat) : (s.resetWin w lo hi).writeBack = s.writeBack := rfl
@[simp] theorem State.resetWin_clrNow (s : State) (w : Win) (lo hi : Nat) : (s.resetWin w lo hi).clrNow = s.clrNow := rfl
@[simp] theorem State.resetWin_clrPend (s : State) (w : Win) (lo hi : Nat) : (s.resetWin w lo hi).clrPend = s.clrPend := rfl
@[simp] theorem State.resetWin_heldWins (s : State) (w : Win) (lo hi : Nat) : (s.resetWin w lo hi).heldWins = s.heldWins := rfl
@[simp] theorem State.resetWin_bist (s : State) (w : Win) (lo hi : Nat) : (s.resetWin w lo hi).bist = s.bist := rfl
@[simp] theorem State.resetWin_failedRgns (s : State) (w : Win) (lo hi : Nat) : (s.resetWin w lo hi).failedRgns = s.failedRgns := rfl
@[simp] theorem State.resetWin_repairMap (s : State) (w : Win) (lo hi : Nat) : (s.resetWin w lo hi).repairMap = s.repairMap := rfl
@[simp] theorem State.resetWin_repairFailed (s : State) (w : Win) (lo hi : Nat) : (s.resetWin w lo hi).repairFailed = s.repairFailed := rfl
@[simp] theorem State.resetWin_repairSeen (s : State) (w : Win) (lo hi : Nat) : (s.resetWin w lo hi).repairSeen = s.repairSeen := rfl
@[simp] theorem State.resetWin_routerTable (s : State) (w : Win) (lo hi : Nat) : (s.resetWin w lo hi).routerTable = s.routerTable := rfl
@[simp] theorem State.resetWin_atps (s : State) (w : Win) (lo hi : Nat) : (s.resetWin w lo hi).atps = s.atps := rfl
@[simp] theorem State.resetWin_ctxs (s : State) (w : Win) (lo hi : Nat) : (s.resetWin w lo hi).ctxs = s.ctxs := rfl
@[simp] theorem State.resetWin_hbm (s : State) (w : Win) (lo hi : Nat) : (s.resetWin w lo hi).hbm = s.hbm := rfl
@[simp] theorem State.resetWin_hbmKey (s : State) (w : Win) (lo hi : Nat) : (s.resetWin w lo hi).hbmKey = s.hbmKey := rfl
@[simp] theorem State.resetWin_hbmBad (s : State) (w : Win) (lo hi : Nat) : (s.resetWin w lo hi).hbmBad = s.hbmBad := rfl
@[simp] theorem State.resetWin_frames (s : State) (w : Win) (lo hi : Nat) : (s.resetWin w lo hi).frames = s.frames := rfl
@[simp] theorem State.resetWin_ptes (s : State) (w : Win) (lo hi : Nat) : (s.resetWin w lo hi).ptes = s.ptes := rfl
@[simp] theorem State.resetWin_shared (s : State) (w : Win) (lo hi : Nat) : (s.resetWin w lo hi).shared = s.shared := rfl
@[simp] theorem State.resetWin_prefixes (s : State) (w : Win) (lo hi : Nat) : (s.resetWin w lo hi).prefixes = s.prefixes := rfl
@[simp] theorem State.resetWin_kind5 (s : State) (w : Win) (lo hi : Nat) : (s.resetWin w lo hi).kind5 = s.kind5 := rfl
@[simp] theorem State.resetWin_prefixRefs (s : State) (w : Win) (lo hi : Nat) : (s.resetWin w lo hi).prefixRefs = s.prefixRefs := rfl
@[simp] theorem State.resetWin_pageMoves (s : State) (w : Win) (lo hi : Nat) : (s.resetWin w lo hi).pageMoves = s.pageMoves := rfl
@[simp] theorem State.resetWin_hints (s : State) (w : Win) (lo hi : Nat) : (s.resetWin w lo hi).hints = s.hints := rfl
@[simp] theorem State.resetWin_pins (s : State) (w : Win) (lo hi : Nat) : (s.resetWin w lo hi).pins = s.pins := rfl
@[simp] theorem State.resetWin_admitted (s : State) (w : Win) (lo hi : Nat) : (s.resetWin w lo hi).admitted = s.admitted := rfl
@[simp] theorem State.resetWin_forkWait (s : State) (w : Win) (lo hi : Nat) : (s.resetWin w lo hi).forkWait = s.forkWait := rfl
@[simp] theorem State.resetWin_hostBufs (s : State) (w : Win) (lo hi : Nat) : (s.resetWin w lo hi).hostBufs = s.hostBufs := rfl
@[simp] theorem State.resetWin_checkRecs (s : State) (w : Win) (lo hi : Nat) : (s.resetWin w lo hi).checkRecs = s.checkRecs := rfl
@[simp] theorem State.resetWin_farPages (s : State) (w : Win) (lo hi : Nat) : (s.resetWin w lo hi).farPages = s.farPages := rfl
@[simp] theorem State.resetWin_reserved (s : State) (w : Win) (lo hi : Nat) : (s.resetWin w lo hi).reserved = s.reserved := rfl
@[simp] theorem State.resetWin_publishing (s : State) (w : Win) (lo hi : Nat) : (s.resetWin w lo hi).publishing = s.publishing := rfl
@[simp] theorem State.resetWin_demoting (s : State) (w : Win) (lo hi : Nat) : (s.resetWin w lo hi).demoting = s.demoting := rfl
@[simp] theorem State.resetWin_keyGen (s : State) (w : Win) (lo hi : Nat) : (s.resetWin w lo hi).keyGen = s.keyGen := rfl
@[simp] theorem State.resetWin_scrubAt (s : State) (w : Win) (lo hi : Nat) : (s.resetWin w lo hi).scrubAt = s.scrubAt := rfl
@[simp] theorem State.resetWin_rglRem (s : State) (w : Win) (lo hi : Nat) : (s.resetWin w lo hi).rglRem = s.rglRem := rfl
@[simp] theorem State.resetWin_rglTok (s : State) (w : Win) (lo hi : Nat) : (s.resetWin w lo hi).rglTok = s.rglTok := rfl
@[simp] theorem State.resetWin_cous (s : State) (w : Win) (lo hi : Nat) : (s.resetWin w lo hi).cous = s.cous := rfl
@[simp] theorem State.resetWin_cancels (s : State) (w : Win) (lo hi : Nat) : (s.resetWin w lo hi).cancels = s.cancels := rfl
@[simp] theorem State.resetWin_drvs (s : State) (w : Win) (lo hi : Nat) : (s.resetWin w lo hi).drvs = s.drvs := rfl
@[simp] theorem State.resetWin_drvRem (s : State) (w : Win) (lo hi : Nat) : (s.resetWin w lo hi).drvRem = s.drvRem := rfl
@[simp] theorem State.resetWin_wsets (s : State) (w : Win) (lo hi : Nat) : (s.resetWin w lo hi).wsets = s.wsets := rfl
@[simp] theorem State.resetWin_peerWsets (s : State) (w : Win) (lo hi : Nat) : (s.resetWin w lo hi).peerWsets = s.peerWsets := rfl
@[simp] theorem State.resetWin_draining (s : State) (w : Win) (lo hi : Nat) : (s.resetWin w lo hi).draining = s.draining := rfl
@[simp] theorem State.resetWin_imgArea (s : State) (w : Win) (lo hi : Nat) : (s.resetWin w lo hi).imgArea = s.imgArea := rfl
@[simp] theorem State.resetWin_planArea (s : State) (w : Win) (lo hi : Nat) : (s.resetWin w lo hi).planArea = s.planArea := rfl
@[simp] theorem State.resetWin_sessions (s : State) (w : Win) (lo hi : Nat) : (s.resetWin w lo hi).sessions = s.sessions := rfl
@[simp] theorem State.resetWin_items (s : State) (w : Win) (lo hi : Nat) : (s.resetWin w lo hi).items = s.items := rfl
@[simp] theorem State.resetWin_itemNo (s : State) (w : Win) (lo hi : Nat) : (s.resetWin w lo hi).itemNo = s.itemNo := rfl
@[simp] theorem State.resetWin_steps (s : State) (w : Win) (lo hi : Nat) : (s.resetWin w lo hi).steps = s.steps := rfl
@[simp] theorem State.resetWin_stepNo (s : State) (w : Win) (lo hi : Nat) : (s.resetWin w lo hi).stepNo = s.stepNo := rfl
@[simp] theorem State.resetWin_plans (s : State) (w : Win) (lo hi : Nat) : (s.resetWin w lo hi).plans = s.plans := rfl
@[simp] theorem State.resetWin_prefillLane (s : State) (w : Win) (lo hi : Nat) : (s.resetWin w lo hi).prefillLane = s.prefillLane := rfl
@[simp] theorem State.resetWin_laneMoves (s : State) (w : Win) (lo hi : Nat) : (s.resetWin w lo hi).laneMoves = s.laneMoves := rfl
@[simp] theorem State.resetWin_loadOwed (s : State) (w : Win) (lo hi : Nat) : (s.resetWin w lo hi).loadOwed = s.loadOwed := rfl
@[simp] theorem State.resetWin_homeTurn (s : State) (w : Win) (lo hi : Nat) : (s.resetWin w lo hi).homeTurn = s.homeTurn := rfl
@[simp] theorem State.resetWin_held (s : State) (w : Win) (lo hi : Nat) : (s.resetWin w lo hi).held = s.held := rfl
@[simp] theorem State.resetWin_tokenRecs (s : State) (w : Win) (lo hi : Nat) : (s.resetWin w lo hi).tokenRecs = s.tokenRecs := rfl
@[simp] theorem State.resetWin_progSet (s : State) (w : Win) (lo hi : Nat) : (s.resetWin w lo hi).progSet = s.progSet := rfl
@[simp] theorem State.resetWin_failReps (s : State) (w : Win) (lo hi : Nat) : (s.resetWin w lo hi).failReps = s.failReps := rfl
@[simp] theorem State.resetWin_farDrops (s : State) (w : Win) (lo hi : Nat) : (s.resetWin w lo hi).farDrops = s.farDrops := rfl
@[simp] theorem State.resetWin_sysImage (s : State) (w : Win) (lo hi : Nat) : (s.resetWin w lo hi).sysImage = s.sysImage := rfl
@[simp] theorem State.resetWin_images (s : State) (w : Win) (lo hi : Nat) : (s.resetWin w lo hi).images = s.images := rfl
@[simp] theorem State.resetWin_loads (s : State) (w : Win) (lo hi : Nat) : (s.resetWin w lo hi).loads = s.loads := rfl
@[simp] theorem State.resetWin_moves (s : State) (w : Win) (lo hi : Nat) : (s.resetWin w lo hi).moves = s.moves := rfl
@[simp] theorem State.resetWin_movesNext (s : State) (w : Win) (lo hi : Nat) : (s.resetWin w lo hi).movesNext = s.movesNext := rfl
@[simp] theorem State.resetWin_claims (s : State) (w : Win) (lo hi : Nat) : (s.resetWin w lo hi).claims = s.claims := rfl
@[simp] theorem State.resetWin_saves (s : State) (w : Win) (lo hi : Nat) : (s.resetWin w lo hi).saves = s.saves := rfl
@[simp] theorem State.resetWin_vacant (s : State) (w : Win) (lo hi : Nat) : (s.resetWin w lo hi).vacant = s.vacant := rfl
@[simp] theorem State.resetWin_resumeAt (s : State) (w : Win) (lo hi : Nat) : (s.resetWin w lo hi).resumeAt = s.resumeAt := rfl
@[simp] theorem State.resetWin_drains (s : State) (w : Win) (lo hi : Nat) : (s.resetWin w lo hi).drains = s.drains := rfl
@[simp] theorem State.resetWin_jobShort (s : State) (w : Win) (lo hi : Nat) : (s.resetWin w lo hi).jobShort = s.jobShort := rfl
@[simp] theorem State.resetWin_jobHalted (s : State) (w : Win) (lo hi : Nat) : (s.resetWin w lo hi).jobHalted = s.jobHalted := rfl
@[simp] theorem State.resetWin_now (s : State) (w : Win) (lo hi : Nat) : (s.resetWin w lo hi).now = s.now := rfl
@[simp] theorem State.resetWin_nowFrac (s : State) (w : Win) (lo hi : Nat) : (s.resetWin w lo hi).nowFrac = s.nowFrac := rfl
@[simp] theorem State.resetWin_nowHigh (s : State) (w : Win) (lo hi : Nat) : (s.resetWin w lo hi).nowHigh = s.nowHigh := rfl
@[simp] theorem State.resetWin_lastRdsr (s : State) (w : Win) (lo hi : Nat) : (s.resetWin w lo hi).lastRdsr = s.lastRdsr := rfl
@[simp] theorem State.resetWin_cmps (s : State) (w : Win) (lo hi : Nat) : (s.resetWin w lo hi).cmps = s.cmps := rfl
@[simp] theorem State.resetWin_calendar (s : State) (w : Win) (lo hi : Nat) : (s.resetWin w lo hi).calendar = s.calendar := rfl
@[simp] theorem State.resetWin_links (s : State) (w : Win) (lo hi : Nat) : (s.resetWin w lo hi).links = s.links := rfl
@[simp] theorem State.resetWin_lostSlots (s : State) (w : Win) (lo hi : Nat) : (s.resetWin w lo hi).lostSlots = s.lostSlots := rfl
@[simp] theorem State.resetWin_lostLinks (s : State) (w : Win) (lo hi : Nat) : (s.resetWin w lo hi).lostLinks = s.lostLinks := rfl
@[simp] theorem State.resetWin_master (s : State) (w : Win) (lo hi : Nat) : (s.resetWin w lo hi).master = s.master := rfl
@[simp] theorem State.resetWin_backup (s : State) (w : Win) (lo hi : Nat) : (s.resetWin w lo hi).backup = s.backup := rfl
@[simp] theorem State.resetWin_lostMastership (s : State) (w : Win) (lo hi : Nat) : (s.resetWin w lo hi).lostMastership = s.lostMastership := rfl
@[simp] theorem State.resetWin_holdoverAt (s : State) (w : Win) (lo hi : Nat) : (s.resetWin w lo hi).holdoverAt = s.holdoverAt := rfl
@[simp] theorem State.resetWin_treatedAsLost (s : State) (w : Win) (lo hi : Nat) : (s.resetWin w lo hi).treatedAsLost = s.treatedAsLost := rfl
@[simp] theorem State.resetWin_masterLostAt (s : State) (w : Win) (lo hi : Nat) : (s.resetWin w lo hi).masterLostAt = s.masterLostAt := rfl
@[simp] theorem State.resetWin_tookOverAt (s : State) (w : Win) (lo hi : Nat) : (s.resetWin w lo hi).tookOverAt = s.tookOverAt := rfl
@[simp] theorem State.resetWin_exMasters (s : State) (w : Win) (lo hi : Nat) : (s.resetWin w lo hi).exMasters = s.exMasters := rfl
@[simp] theorem State.resetWin_syncCopy (s : State) (w : Win) (lo hi : Nat) : (s.resetWin w lo hi).syncCopy = s.syncCopy := rfl
@[simp] theorem State.resetWin_coord (s : State) (w : Win) (lo hi : Nat) : (s.resetWin w lo hi).coord = s.coord := rfl
@[simp] theorem State.resetWin_outOfSystem (s : State) (w : Win) (lo hi : Nat) : (s.resetWin w lo hi).outOfSystem = s.outOfSystem := rfl
@[simp] theorem State.resetWin_recabling (s : State) (w : Win) (lo hi : Nat) : (s.resetWin w lo hi).recabling = s.recabling := rfl
@[simp] theorem State.resetWin_linkTx (s : State) (w : Win) (lo hi : Nat) : (s.resetWin w lo hi).linkTx = s.linkTx := rfl
@[simp] theorem State.resetWin_hostTx (s : State) (w : Win) (lo hi : Nat) : (s.resetWin w lo hi).hostTx = s.hostTx := rfl
@[simp] theorem State.resetWin_switchPoints (s : State) (w : Win) (lo hi : Nat) : (s.resetWin w lo hi).switchPoints = s.switchPoints := rfl
@[simp] theorem State.resetWin_recableAt (s : State) (w : Win) (lo hi : Nat) : (s.resetWin w lo hi).recableAt = s.recableAt := rfl
@[simp] theorem State.resetWin_cqReserved (s : State) (w : Win) (lo hi : Nat) : (s.resetWin w lo hi).cqReserved = s.cqReserved := rfl
@[simp] theorem State.resetWin_unsignalled (s : State) (w : Win) (lo hi : Nat) : (s.resetWin w lo hi).unsignalled = s.unsignalled := rfl
@[simp] theorem State.resetWin_postQ (s : State) (w : Win) (lo hi : Nat) : (s.resetWin w lo hi).postQ = s.postQ := rfl
@[simp] theorem State.resetWin_hostReads (s : State) (w : Win) (lo hi : Nat) : (s.resetWin w lo hi).hostReads = s.hostReads := rfl
@[simp] theorem State.resetWin_inbox (s : State) (w : Win) (lo hi : Nat) : (s.resetWin w lo hi).inbox = s.inbox := rfl
@[simp] theorem State.resetWin_ringTurn (s : State) (w : Win) (lo hi : Nat) : (s.resetWin w lo hi).ringTurn = s.ringTurn := rfl
@[simp] theorem State.resetWin_ethTx (s : State) (w : Win) (lo hi : Nat) : (s.resetWin w lo hi).ethTx = s.ethTx := rfl
@[simp] theorem State.resetWin_ethRx (s : State) (w : Win) (lo hi : Nat) : (s.resetWin w lo hi).ethRx = s.ethRx := rfl
@[simp] theorem State.resetWin_wallOfsL (s : State) (w : Win) (lo hi : Nat) : (s.resetWin w lo hi).wallOfsL = s.wallOfsL := rfl
@[simp] theorem State.resetWin_fabPairs (s : State) (w : Win) (lo hi : Nat) : (s.resetWin w lo hi).fabPairs = s.fabPairs := rfl
@[simp] theorem State.resetWin_fabTxc (s : State) (w : Win) (lo hi : Nat) : (s.resetWin w lo hi).fabTxc = s.fabTxc := rfl
@[simp] theorem State.resetWin_fabRxTxc (s : State) (w : Win) (lo hi : Nat) : (s.resetWin w lo hi).fabRxTxc = s.fabRxTxc := rfl
@[simp] theorem State.resetWin_fabReqs (s : State) (w : Win) (lo hi : Nat) : (s.resetWin w lo hi).fabReqs = s.fabReqs := rfl
@[simp] theorem State.resetWin_fabTag (s : State) (w : Win) (lo hi : Nat) : (s.resetWin w lo hi).fabTag = s.fabTag := rfl
@[simp] theorem State.resetWin_fabTx (s : State) (w : Win) (lo hi : Nat) : (s.resetWin w lo hi).fabTx = s.fabTx := rfl
@[simp] theorem State.resetWin_fabDead (s : State) (w : Win) (lo hi : Nat) : (s.resetWin w lo hi).fabDead = s.fabDead := rfl
@[simp] theorem State.resetWin_unreachable (s : State) (w : Win) (lo hi : Nat) : (s.resetWin w lo hi).unreachable = s.unreachable := rfl
@[simp] theorem State.resetWin_segments (s : State) (w : Win) (lo hi : Nat) : (s.resetWin w lo hi).segments = s.segments := rfl
@[simp] theorem State.resetWin_leases (s : State) (w : Win) (lo hi : Nat) : (s.resetWin w lo hi).leases = s.leases := rfl
@[simp] theorem State.resetWin_smfBusy (s : State) (w : Win) (lo hi : Nat) : (s.resetWin w lo hi).smfBusy = s.smfBusy := rfl
@[simp] theorem State.resetWin_hostGts (s : State) (w : Win) (lo hi : Nat) : (s.resetWin w lo hi).hostGts = s.hostGts := rfl
@[simp] theorem State.resetWin_rgnPend (s : State) (w : Win) (lo hi : Nat) : (s.resetWin w lo hi).rgnPend = s.rgnPend := rfl
@[simp] theorem State.resetWin_wakeFrom (s : State) (w : Win) (lo hi : Nat) : (s.resetWin w lo hi).wakeFrom = s.wakeFrom := rfl
@[simp] theorem State.resetWin_ivrShort (s : State) (w : Win) (lo hi : Nat) : (s.resetWin w lo hi).ivrShort = s.ivrShort := rfl
@[simp] theorem State.resetWin_trimPend (s : State) (w : Win) (lo hi : Nat) : (s.resetWin w lo hi).trimPend = s.trimPend := rfl
@[simp] theorem State.resetWin_stretch (s : State) (w : Win) (lo hi : Nat) : (s.resetWin w lo hi).stretch = s.stretch := rfl
@[simp] theorem State.resetWin_ceils (s : State) (w : Win) (lo hi : Nat) : (s.resetWin w lo hi).ceils = s.ceils := rfl
@[simp] theorem State.resetWin_hotAt (s : State) (w : Win) (lo hi : Nat) : (s.resetWin w lo hi).hotAt = s.hotAt := rfl
@[simp] theorem State.resetWin_coolAt (s : State) (w : Win) (lo hi : Nat) : (s.resetWin w lo hi).coolAt = s.coolAt := rfl
@[simp] theorem State.resetWin_riseAt (s : State) (w : Win) (lo hi : Nat) : (s.resetWin w lo hi).riseAt = s.riseAt := rfl
@[simp] theorem State.resetWin_trimOver (s : State) (w : Win) (lo hi : Nat) : (s.resetWin w lo hi).trimOver = s.trimOver := rfl
@[simp] theorem State.resetWin_idleAt (s : State) (w : Win) (lo hi : Nat) : (s.resetWin w lo hi).idleAt = s.idleAt := rfl
@[simp] theorem State.resetWin_hbmAt (s : State) (w : Win) (lo hi : Nat) : (s.resetWin w lo hi).hbmAt = s.hbmAt := rfl
@[simp] theorem State.resetWin_dividedFor (s : State) (w : Win) (lo hi : Nat) : (s.resetWin w lo hi).dividedFor = s.dividedFor := rfl
@[simp] theorem State.resetWin_wakeWaits (s : State) (w : Win) (lo hi : Nat) : (s.resetWin w lo hi).wakeWaits = s.wakeWaits := rfl
@[simp] theorem State.resetWin_energyRem (s : State) (w : Win) (lo hi : Nat) : (s.resetWin w lo hi).energyRem = s.energyRem := rfl
@[simp] theorem State.resetWin_standby (s : State) (w : Win) (lo hi : Nat) : (s.resetWin w lo hi).standby = s.standby := rfl
@[simp] theorem State.resetWin_energyHigh (s : State) (w : Win) (lo hi : Nat) : (s.resetWin w lo hi).energyHigh = s.energyHigh := rfl
@[simp] theorem State.resetWin_ldgIngress (s : State) (w : Win) (lo hi : Nat) : (s.resetWin w lo hi).ldgIngress = s.ldgIngress := rfl
@[simp] theorem State.resetWin_ldgOpen (s : State) (w : Win) (lo hi : Nat) : (s.resetWin w lo hi).ldgOpen = s.ldgOpen := rfl
@[simp] theorem State.resetWin_ldgHist (s : State) (w : Win) (lo hi : Nat) : (s.resetWin w lo hi).ldgHist = s.ldgHist := rfl
@[simp] theorem State.resetWin_ldgCommit (s : State) (w : Win) (lo hi : Nat) : (s.resetWin w lo hi).ldgCommit = s.ldgCommit := rfl
@[simp] theorem State.resetWin_ldgRing (s : State) (w : Win) (lo hi : Nat) : (s.resetWin w lo hi).ldgRing = s.ldgRing := rfl
@[simp] theorem State.resetWin_ldgPersist (s : State) (w : Win) (lo hi : Nat) : (s.resetWin w lo hi).ldgPersist = s.ldgPersist := rfl
@[simp] theorem State.resetWin_ldgSeq (s : State) (w : Win) (lo hi : Nat) : (s.resetWin w lo hi).ldgSeq = s.ldgSeq := rfl
@[simp] theorem State.resetWin_ldgAcked (s : State) (w : Win) (lo hi : Nat) : (s.resetWin w lo hi).ldgAcked = s.ldgAcked := rfl
@[simp] theorem State.resetWin_ldgAt (s : State) (w : Win) (lo hi : Nat) : (s.resetWin w lo hi).ldgAt = s.ldgAt := rfl
@[simp] theorem State.resetWin_ldgClosed (s : State) (w : Win) (lo hi : Nat) : (s.resetWin w lo hi).ldgClosed = s.ldgClosed := rfl
@[simp] theorem State.resetWin_snaps (s : State) (w : Win) (lo hi : Nat) : (s.resetWin w lo hi).snaps = s.snaps := rfl
@[simp] theorem State.resetWin_injSeen (s : State) (w : Win) (lo hi : Nat) : (s.resetWin w lo hi).injSeen = s.injSeen := rfl
@[simp] theorem State.resetWin_tmx (s : State) (w : Win) (lo hi : Nat) : (s.resetWin w lo hi).tmx = s.tmx := rfl
@[simp] theorem State.resetWin_pinFault (s : State) (w : Win) (lo hi : Nat) : (s.resetWin w lo hi).pinFault = s.pinFault := rfl
@[simp] theorem State.resetWin_pinPwrWarn (s : State) (w : Win) (lo hi : Nat) : (s.resetWin w lo hi).pinPwrWarn = s.pinPwrWarn := rfl
@[simp] theorem State.resetWin_tmxOut (s : State) (w : Win) (lo hi : Nat) : (s.resetWin w lo hi).tmxOut = s.tmxOut := rfl
@[simp] theorem State.resetWin_tmxUntil (s : State) (w : Win) (lo hi : Nat) : (s.resetWin w lo hi).tmxUntil = s.tmxUntil := rfl
@[simp] theorem State.resetWin_ppsHigh (s : State) (w : Win) (lo hi : Nat) : (s.resetWin w lo hi).ppsHigh = s.ppsHigh := rfl
@[simp] theorem State.resetWin_warnReleased (s : State) (w : Win) (lo hi : Nat) : (s.resetWin w lo hi).warnReleased = s.warnReleased := rfl
@[simp] theorem State.resetWin_pendingSys (s : State) (w : Win) (lo hi : Nat) : (s.resetWin w lo hi).pendingSys = s.pendingSys := rfl
@[simp] theorem State.resetWin_genFloor (s : State) (w : Win) (lo hi : Nat) : (s.resetWin w lo hi).genFloor = s.genFloor := rfl
@[simp] theorem State.resetWin_fwCopies (s : State) (w : Win) (lo hi : Nat) : (s.resetWin w lo hi).fwCopies = s.fwCopies := rfl
@[simp] theorem State.resetWin_preferredB (s : State) (w : Win) (lo hi : Nat) : (s.resetWin w lo hi).preferredB = s.preferredB := rfl
@[simp] theorem State.resetWin_bootFails (s : State) (w : Win) (lo hi : Nat) : (s.resetWin w lo hi).bootFails = s.bootFails := rfl
@[simp] theorem State.resetWin_norImage (s : State) (w : Win) (lo hi : Nat) : (s.resetWin w lo hi).norImage = s.norImage := rfl
@[simp] theorem State.resetWin_norOlder (s : State) (w : Win) (lo hi : Nat) : (s.resetWin w lo hi).norOlder = s.norOlder := rfl
@[simp] theorem State.resetWin_norAt (s : State) (w : Win) (lo hi : Nat) : (s.resetWin w lo hi).norAt = s.norAt := rfl
@[simp] theorem State.resetWin_authority (s : State) (w : Win) (lo hi : Nat) : (s.resetWin w lo hi).authority = s.authority := rfl
@[simp] theorem State.resetWin_authWas (s : State) (w : Win) (lo hi : Nat) : (s.resetWin w lo hi).authWas = s.authWas := rfl
@[simp] theorem State.resetWin_norTrims (s : State) (w : Win) (lo hi : Nat) : (s.resetWin w lo hi).norTrims = s.norTrims := rfl
@[simp] theorem State.resetWin_secFloor (s : State) (w : Win) (lo hi : Nat) : (s.resetWin w lo hi).secFloor = s.secFloor := rfl
@[simp] theorem State.resetWin_runningB (s : State) (w : Win) (lo hi : Nat) : (s.resetWin w lo hi).runningB = s.runningB := rfl
@[simp] theorem State.resetWin_updateWritten (s : State) (w : Win) (lo hi : Nat) : (s.resetWin w lo hi).updateWritten = s.updateWritten := rfl
@[simp] theorem State.resetWin_updChecking (s : State) (w : Win) (lo hi : Nat) : (s.resetWin w lo hi).updChecking = s.updChecking := rfl
@[simp] theorem State.resetWin_linkKeys (s : State) (w : Win) (lo hi : Nat) : (s.resetWin w lo hi).linkKeys = s.linkKeys := rfl
@[simp] theorem State.resetWin_fabKey (s : State) (w : Win) (lo hi : Nat) : (s.resetWin w lo hi).fabKey = s.fabKey := rfl
@[simp] theorem State.resetWin_challenges (s : State) (w : Win) (lo hi : Nat) : (s.resetWin w lo hi).challenges = s.challenges := rfl
@[simp] theorem State.resetWin_checking (s : State) (w : Win) (lo hi : Nat) : (s.resetWin w lo hi).checking = s.checking := rfl
@[simp] theorem State.resetWin_tokens (s : State) (w : Win) (lo hi : Nat) : (s.resetWin w lo hi).tokens = s.tokens := rfl
@[simp] theorem State.resetWin_spdmStage (s : State) (w : Win) (lo hi : Nat) : (s.resetWin w lo hi).spdmStage = s.spdmStage := rfl
@[simp] theorem State.resetWin_spdm (s : State) (w : Win) (lo hi : Nat) : (s.resetWin w lo hi).spdm = s.spdm := rfl
@[simp] theorem State.resetWin_spdmNext (s : State) (w : Win) (lo hi : Nat) : (s.resetWin w lo hi).spdmNext = s.spdmNext := rfl
@[simp] theorem State.resetWin_injSession (s : State) (w : Win) (lo hi : Nat) : (s.resetWin w lo hi).injSession = s.injSession := rfl
@[simp] theorem State.resetWin_imgStage (s : State) (w : Win) (lo hi : Nat) : (s.resetWin w lo hi).imgStage = s.imgStage := rfl
@[simp] theorem State.resetWin_mgtTx (s : State) (w : Win) (lo hi : Nat) : (s.resetWin w lo hi).mgtTx = s.mgtTx := rfl
@[simp] theorem State.resetWin_quotes (s : State) (w : Win) (lo hi : Nat) : (s.resetWin w lo hi).quotes = s.quotes := rfl
@[simp] theorem State.resetWin_vaon (s : State) (w : Win) (lo hi : Nat) : (s.resetWin w lo hi).vaon = s.vaon := rfl
@[simp] theorem State.resetWin_vin (s : State) (w : Win) (lo hi : Nat) : (s.resetWin w lo hi).vin = s.vin := rfl
@[simp] theorem State.resetWin_vinAt (s : State) (w : Win) (lo hi : Nat) : (s.resetWin w lo hi).vinAt = s.vinAt := rfl
@[simp] theorem State.resetWin_sysRef (s : State) (w : Win) (lo hi : Nat) : (s.resetWin w lo hi).sysRef = s.sysRef := rfl
@[simp] theorem State.resetWin_sysRefAt (s : State) (w : Win) (lo hi : Nat) : (s.resetWin w lo hi).sysRefAt = s.sysRefAt := rfl
@[simp] theorem State.resetWin_resetN (s : State) (w : Win) (lo hi : Nat) : (s.resetWin w lo hi).resetN = s.resetN := rfl
@[simp] theorem State.resetWin_perstN (s : State) (w : Win) (lo hi : Nat) : (s.resetWin w lo hi).perstN = s.perstN := rfl
@[simp] theorem State.resetWin_npRuns (s : State) (w : Win) (lo hi : Nat) : (s.resetWin w lo hi).npRuns = s.npRuns := rfl
@[simp] theorem State.resetWin_rails (s : State) (w : Win) (lo hi : Nat) : (s.resetWin w lo hi).rails = s.rails := rfl
@[simp] theorem State.resetWin_hostUp (s : State) (w : Win) (lo hi : Nat) : (s.resetWin w lo hi).hostUp = s.hostUp := rfl
@[simp] theorem State.resetWin_offCause (s : State) (w : Win) (lo hi : Nat) : (s.resetWin w lo hi).offCause = s.offCause := rfl
@[simp] theorem State.resetWin_offWarned (s : State) (w : Win) (lo hi : Nat) : (s.resetWin w lo hi).offWarned = s.offWarned := rfl
@[simp] theorem State.resetWin_offAt (s : State) (w : Win) (lo hi : Nat) : (s.resetWin w lo hi).offAt = s.offAt := rfl
@[simp] theorem State.resetWin_romOnly (s : State) (w : Win) (lo hi : Nat) : (s.resetWin w lo hi).romOnly = s.romOnly := rfl
@[simp] theorem State.resetWin_ldgTorn (s : State) (w : Win) (lo hi : Nat) : (s.resetWin w lo hi).ldgTorn = s.ldgTorn := rfl
@[simp] theorem State.resetWin_revokeAt (s : State) (w : Win) (lo hi : Nat) : (s.resetWin w lo hi).revokeAt = s.revokeAt := rfl
@[simp] theorem State.resetWin_pending (s : State) (w : Win) (lo hi : Nat) : (s.resetWin w lo hi).pending = s.pending := rfl
@[simp] theorem State.resetWin_resp (s : State) (w : Win) (lo hi : Nat) : (s.resetWin w lo hi).resp = s.resp := rfl
@[simp] theorem State.resetWin_w1cAt (s : State) (w : Win) (lo hi : Nat) : (s.resetWin w lo hi).w1cAt = s.w1cAt := rfl
@[simp] theorem State.resetWin_freeCtr (s : State) (w : Win) (lo hi : Nat) : (s.resetWin w lo hi).freeCtr = s.freeCtr := rfl

/-! ### answer -/

@[simp] theorem State.answer_cores (s : State) (b : List Byte) (p : Bool) : (s.answer b p).cores = s.cores := rfl
@[simp] theorem State.answer_barriers (s : State) (b : List Byte) (p : Bool) : (s.answer b p).barriers = s.barriers := rfl
@[simp] theorem State.answer_sram (s : State) (b : List Byte) (p : Bool) : (s.answer b p).sram = s.sram := rfl
@[simp] theorem State.answer_spdErr (s : State) (b : List Byte) (p : Bool) : (s.answer b p).spdErr = s.spdErr := rfl
@[simp] theorem State.answer_rowCls (s : State) (b : List Byte) (p : Bool) : (s.answer b p).rowCls = s.rowCls := rfl
@[simp] theorem State.answer_ueSeen (s : State) (b : List Byte) (p : Bool) : (s.answer b p).ueSeen = s.ueSeen := rfl
@[simp] theorem State.answer_acc (s : State) (b : List Byte) (p : Bool) : (s.answer b p).acc = s.acc := rfl
@[simp] theorem State.answer_bankQ (s : State) (b : List Byte) (p : Bool) : (s.answer b p).bankQ = s.bankQ := rfl
@[simp] theorem State.answer_writeBack (s : State) (b : List Byte) (p : Bool) : (s.answer b p).writeBack = s.writeBack := rfl
@[simp] theorem State.answer_clrNow (s : State) (b : List Byte) (p : Bool) : (s.answer b p).clrNow = s.clrNow := rfl
@[simp] theorem State.answer_clrPend (s : State) (b : List Byte) (p : Bool) : (s.answer b p).clrPend = s.clrPend := rfl
@[simp] theorem State.answer_heldWins (s : State) (b : List Byte) (p : Bool) : (s.answer b p).heldWins = s.heldWins := rfl
@[simp] theorem State.answer_bist (s : State) (b : List Byte) (p : Bool) : (s.answer b p).bist = s.bist := rfl
@[simp] theorem State.answer_failedRgns (s : State) (b : List Byte) (p : Bool) : (s.answer b p).failedRgns = s.failedRgns := rfl
@[simp] theorem State.answer_repairMap (s : State) (b : List Byte) (p : Bool) : (s.answer b p).repairMap = s.repairMap := rfl
@[simp] theorem State.answer_repairFailed (s : State) (b : List Byte) (p : Bool) : (s.answer b p).repairFailed = s.repairFailed := rfl
@[simp] theorem State.answer_repairSeen (s : State) (b : List Byte) (p : Bool) : (s.answer b p).repairSeen = s.repairSeen := rfl
@[simp] theorem State.answer_routerTable (s : State) (b : List Byte) (p : Bool) : (s.answer b p).routerTable = s.routerTable := rfl
@[simp] theorem State.answer_atps (s : State) (b : List Byte) (p : Bool) : (s.answer b p).atps = s.atps := rfl
@[simp] theorem State.answer_ctxs (s : State) (b : List Byte) (p : Bool) : (s.answer b p).ctxs = s.ctxs := rfl
@[simp] theorem State.answer_hbm (s : State) (b : List Byte) (p : Bool) : (s.answer b p).hbm = s.hbm := rfl
@[simp] theorem State.answer_hbmKey (s : State) (b : List Byte) (p : Bool) : (s.answer b p).hbmKey = s.hbmKey := rfl
@[simp] theorem State.answer_hbmBad (s : State) (b : List Byte) (p : Bool) : (s.answer b p).hbmBad = s.hbmBad := rfl
@[simp] theorem State.answer_frames (s : State) (b : List Byte) (p : Bool) : (s.answer b p).frames = s.frames := rfl
@[simp] theorem State.answer_ptes (s : State) (b : List Byte) (p : Bool) : (s.answer b p).ptes = s.ptes := rfl
@[simp] theorem State.answer_shared (s : State) (b : List Byte) (p : Bool) : (s.answer b p).shared = s.shared := rfl
@[simp] theorem State.answer_prefixes (s : State) (b : List Byte) (p : Bool) : (s.answer b p).prefixes = s.prefixes := rfl
@[simp] theorem State.answer_kind5 (s : State) (b : List Byte) (p : Bool) : (s.answer b p).kind5 = s.kind5 := rfl
@[simp] theorem State.answer_prefixRefs (s : State) (b : List Byte) (p : Bool) : (s.answer b p).prefixRefs = s.prefixRefs := rfl
@[simp] theorem State.answer_pageMoves (s : State) (b : List Byte) (p : Bool) : (s.answer b p).pageMoves = s.pageMoves := rfl
@[simp] theorem State.answer_hints (s : State) (b : List Byte) (p : Bool) : (s.answer b p).hints = s.hints := rfl
@[simp] theorem State.answer_pins (s : State) (b : List Byte) (p : Bool) : (s.answer b p).pins = s.pins := rfl
@[simp] theorem State.answer_admitted (s : State) (b : List Byte) (p : Bool) : (s.answer b p).admitted = s.admitted := rfl
@[simp] theorem State.answer_forkWait (s : State) (b : List Byte) (p : Bool) : (s.answer b p).forkWait = s.forkWait := rfl
@[simp] theorem State.answer_hostBufs (s : State) (b : List Byte) (p : Bool) : (s.answer b p).hostBufs = s.hostBufs := rfl
@[simp] theorem State.answer_checkRecs (s : State) (b : List Byte) (p : Bool) : (s.answer b p).checkRecs = s.checkRecs := rfl
@[simp] theorem State.answer_farPages (s : State) (b : List Byte) (p : Bool) : (s.answer b p).farPages = s.farPages := rfl
@[simp] theorem State.answer_reserved (s : State) (b : List Byte) (p : Bool) : (s.answer b p).reserved = s.reserved := rfl
@[simp] theorem State.answer_publishing (s : State) (b : List Byte) (p : Bool) : (s.answer b p).publishing = s.publishing := rfl
@[simp] theorem State.answer_demoting (s : State) (b : List Byte) (p : Bool) : (s.answer b p).demoting = s.demoting := rfl
@[simp] theorem State.answer_keyGen (s : State) (b : List Byte) (p : Bool) : (s.answer b p).keyGen = s.keyGen := rfl
@[simp] theorem State.answer_scrubAt (s : State) (b : List Byte) (p : Bool) : (s.answer b p).scrubAt = s.scrubAt := rfl
@[simp] theorem State.answer_rglRem (s : State) (b : List Byte) (p : Bool) : (s.answer b p).rglRem = s.rglRem := rfl
@[simp] theorem State.answer_rglTok (s : State) (b : List Byte) (p : Bool) : (s.answer b p).rglTok = s.rglTok := rfl
@[simp] theorem State.answer_cous (s : State) (b : List Byte) (p : Bool) : (s.answer b p).cous = s.cous := rfl
@[simp] theorem State.answer_cancels (s : State) (b : List Byte) (p : Bool) : (s.answer b p).cancels = s.cancels := rfl
@[simp] theorem State.answer_drvs (s : State) (b : List Byte) (p : Bool) : (s.answer b p).drvs = s.drvs := rfl
@[simp] theorem State.answer_drvRem (s : State) (b : List Byte) (p : Bool) : (s.answer b p).drvRem = s.drvRem := rfl
@[simp] theorem State.answer_wsets (s : State) (b : List Byte) (p : Bool) : (s.answer b p).wsets = s.wsets := rfl
@[simp] theorem State.answer_peerWsets (s : State) (b : List Byte) (p : Bool) : (s.answer b p).peerWsets = s.peerWsets := rfl
@[simp] theorem State.answer_draining (s : State) (b : List Byte) (p : Bool) : (s.answer b p).draining = s.draining := rfl
@[simp] theorem State.answer_imgArea (s : State) (b : List Byte) (p : Bool) : (s.answer b p).imgArea = s.imgArea := rfl
@[simp] theorem State.answer_planArea (s : State) (b : List Byte) (p : Bool) : (s.answer b p).planArea = s.planArea := rfl
@[simp] theorem State.answer_sessions (s : State) (b : List Byte) (p : Bool) : (s.answer b p).sessions = s.sessions := rfl
@[simp] theorem State.answer_items (s : State) (b : List Byte) (p : Bool) : (s.answer b p).items = s.items := rfl
@[simp] theorem State.answer_itemNo (s : State) (b : List Byte) (p : Bool) : (s.answer b p).itemNo = s.itemNo := rfl
@[simp] theorem State.answer_steps (s : State) (b : List Byte) (p : Bool) : (s.answer b p).steps = s.steps := rfl
@[simp] theorem State.answer_stepNo (s : State) (b : List Byte) (p : Bool) : (s.answer b p).stepNo = s.stepNo := rfl
@[simp] theorem State.answer_plans (s : State) (b : List Byte) (p : Bool) : (s.answer b p).plans = s.plans := rfl
@[simp] theorem State.answer_prefillLane (s : State) (b : List Byte) (p : Bool) : (s.answer b p).prefillLane = s.prefillLane := rfl
@[simp] theorem State.answer_laneMoves (s : State) (b : List Byte) (p : Bool) : (s.answer b p).laneMoves = s.laneMoves := rfl
@[simp] theorem State.answer_loadOwed (s : State) (b : List Byte) (p : Bool) : (s.answer b p).loadOwed = s.loadOwed := rfl
@[simp] theorem State.answer_homeTurn (s : State) (b : List Byte) (p : Bool) : (s.answer b p).homeTurn = s.homeTurn := rfl
@[simp] theorem State.answer_held (s : State) (b : List Byte) (p : Bool) : (s.answer b p).held = s.held := rfl
@[simp] theorem State.answer_tokenRecs (s : State) (b : List Byte) (p : Bool) : (s.answer b p).tokenRecs = s.tokenRecs := rfl
@[simp] theorem State.answer_progSet (s : State) (b : List Byte) (p : Bool) : (s.answer b p).progSet = s.progSet := rfl
@[simp] theorem State.answer_failReps (s : State) (b : List Byte) (p : Bool) : (s.answer b p).failReps = s.failReps := rfl
@[simp] theorem State.answer_farDrops (s : State) (b : List Byte) (p : Bool) : (s.answer b p).farDrops = s.farDrops := rfl
@[simp] theorem State.answer_sysImage (s : State) (b : List Byte) (p : Bool) : (s.answer b p).sysImage = s.sysImage := rfl
@[simp] theorem State.answer_images (s : State) (b : List Byte) (p : Bool) : (s.answer b p).images = s.images := rfl
@[simp] theorem State.answer_loads (s : State) (b : List Byte) (p : Bool) : (s.answer b p).loads = s.loads := rfl
@[simp] theorem State.answer_moves (s : State) (b : List Byte) (p : Bool) : (s.answer b p).moves = s.moves := rfl
@[simp] theorem State.answer_movesNext (s : State) (b : List Byte) (p : Bool) : (s.answer b p).movesNext = s.movesNext := rfl
@[simp] theorem State.answer_claims (s : State) (b : List Byte) (p : Bool) : (s.answer b p).claims = s.claims := rfl
@[simp] theorem State.answer_saves (s : State) (b : List Byte) (p : Bool) : (s.answer b p).saves = s.saves := rfl
@[simp] theorem State.answer_vacant (s : State) (b : List Byte) (p : Bool) : (s.answer b p).vacant = s.vacant := rfl
@[simp] theorem State.answer_resumeAt (s : State) (b : List Byte) (p : Bool) : (s.answer b p).resumeAt = s.resumeAt := rfl
@[simp] theorem State.answer_drains (s : State) (b : List Byte) (p : Bool) : (s.answer b p).drains = s.drains := rfl
@[simp] theorem State.answer_jobShort (s : State) (b : List Byte) (p : Bool) : (s.answer b p).jobShort = s.jobShort := rfl
@[simp] theorem State.answer_jobHalted (s : State) (b : List Byte) (p : Bool) : (s.answer b p).jobHalted = s.jobHalted := rfl
@[simp] theorem State.answer_now (s : State) (b : List Byte) (p : Bool) : (s.answer b p).now = s.now := rfl
@[simp] theorem State.answer_nowFrac (s : State) (b : List Byte) (p : Bool) : (s.answer b p).nowFrac = s.nowFrac := rfl
@[simp] theorem State.answer_nowHigh (s : State) (b : List Byte) (p : Bool) : (s.answer b p).nowHigh = s.nowHigh := rfl
@[simp] theorem State.answer_lastRdsr (s : State) (b : List Byte) (p : Bool) : (s.answer b p).lastRdsr = s.lastRdsr := rfl
@[simp] theorem State.answer_cmps (s : State) (b : List Byte) (p : Bool) : (s.answer b p).cmps = s.cmps := rfl
@[simp] theorem State.answer_calendar (s : State) (b : List Byte) (p : Bool) : (s.answer b p).calendar = s.calendar := rfl
@[simp] theorem State.answer_links (s : State) (b : List Byte) (p : Bool) : (s.answer b p).links = s.links := rfl
@[simp] theorem State.answer_lostSlots (s : State) (b : List Byte) (p : Bool) : (s.answer b p).lostSlots = s.lostSlots := rfl
@[simp] theorem State.answer_lostLinks (s : State) (b : List Byte) (p : Bool) : (s.answer b p).lostLinks = s.lostLinks := rfl
@[simp] theorem State.answer_master (s : State) (b : List Byte) (p : Bool) : (s.answer b p).master = s.master := rfl
@[simp] theorem State.answer_backup (s : State) (b : List Byte) (p : Bool) : (s.answer b p).backup = s.backup := rfl
@[simp] theorem State.answer_lostMastership (s : State) (b : List Byte) (p : Bool) : (s.answer b p).lostMastership = s.lostMastership := rfl
@[simp] theorem State.answer_holdoverAt (s : State) (b : List Byte) (p : Bool) : (s.answer b p).holdoverAt = s.holdoverAt := rfl
@[simp] theorem State.answer_treatedAsLost (s : State) (b : List Byte) (p : Bool) : (s.answer b p).treatedAsLost = s.treatedAsLost := rfl
@[simp] theorem State.answer_masterLostAt (s : State) (b : List Byte) (p : Bool) : (s.answer b p).masterLostAt = s.masterLostAt := rfl
@[simp] theorem State.answer_tookOverAt (s : State) (b : List Byte) (p : Bool) : (s.answer b p).tookOverAt = s.tookOverAt := rfl
@[simp] theorem State.answer_exMasters (s : State) (b : List Byte) (p : Bool) : (s.answer b p).exMasters = s.exMasters := rfl
@[simp] theorem State.answer_syncCopy (s : State) (b : List Byte) (p : Bool) : (s.answer b p).syncCopy = s.syncCopy := rfl
@[simp] theorem State.answer_coord (s : State) (b : List Byte) (p : Bool) : (s.answer b p).coord = s.coord := rfl
@[simp] theorem State.answer_outOfSystem (s : State) (b : List Byte) (p : Bool) : (s.answer b p).outOfSystem = s.outOfSystem := rfl
@[simp] theorem State.answer_recabling (s : State) (b : List Byte) (p : Bool) : (s.answer b p).recabling = s.recabling := rfl
@[simp] theorem State.answer_linkTx (s : State) (b : List Byte) (p : Bool) : (s.answer b p).linkTx = s.linkTx := rfl
@[simp] theorem State.answer_hostTx (s : State) (b : List Byte) (p : Bool) : (s.answer b p).hostTx = s.hostTx := rfl
@[simp] theorem State.answer_switchPoints (s : State) (b : List Byte) (p : Bool) : (s.answer b p).switchPoints = s.switchPoints := rfl
@[simp] theorem State.answer_recableAt (s : State) (b : List Byte) (p : Bool) : (s.answer b p).recableAt = s.recableAt := rfl
@[simp] theorem State.answer_cqReserved (s : State) (b : List Byte) (p : Bool) : (s.answer b p).cqReserved = s.cqReserved := rfl
@[simp] theorem State.answer_unsignalled (s : State) (b : List Byte) (p : Bool) : (s.answer b p).unsignalled = s.unsignalled := rfl
@[simp] theorem State.answer_postQ (s : State) (b : List Byte) (p : Bool) : (s.answer b p).postQ = s.postQ := rfl
@[simp] theorem State.answer_hostReads (s : State) (b : List Byte) (p : Bool) : (s.answer b p).hostReads = s.hostReads := rfl
@[simp] theorem State.answer_inbox (s : State) (b : List Byte) (p : Bool) : (s.answer b p).inbox = s.inbox := rfl
@[simp] theorem State.answer_ringTurn (s : State) (b : List Byte) (p : Bool) : (s.answer b p).ringTurn = s.ringTurn := rfl
@[simp] theorem State.answer_ethTx (s : State) (b : List Byte) (p : Bool) : (s.answer b p).ethTx = s.ethTx := rfl
@[simp] theorem State.answer_ethRx (s : State) (b : List Byte) (p : Bool) : (s.answer b p).ethRx = s.ethRx := rfl
@[simp] theorem State.answer_wallOfsL (s : State) (b : List Byte) (p : Bool) : (s.answer b p).wallOfsL = s.wallOfsL := rfl
@[simp] theorem State.answer_fabPairs (s : State) (b : List Byte) (p : Bool) : (s.answer b p).fabPairs = s.fabPairs := rfl
@[simp] theorem State.answer_fabTxc (s : State) (b : List Byte) (p : Bool) : (s.answer b p).fabTxc = s.fabTxc := rfl
@[simp] theorem State.answer_fabRxTxc (s : State) (b : List Byte) (p : Bool) : (s.answer b p).fabRxTxc = s.fabRxTxc := rfl
@[simp] theorem State.answer_fabReqs (s : State) (b : List Byte) (p : Bool) : (s.answer b p).fabReqs = s.fabReqs := rfl
@[simp] theorem State.answer_fabTag (s : State) (b : List Byte) (p : Bool) : (s.answer b p).fabTag = s.fabTag := rfl
@[simp] theorem State.answer_fabTx (s : State) (b : List Byte) (p : Bool) : (s.answer b p).fabTx = s.fabTx := rfl
@[simp] theorem State.answer_fabDead (s : State) (b : List Byte) (p : Bool) : (s.answer b p).fabDead = s.fabDead := rfl
@[simp] theorem State.answer_unreachable (s : State) (b : List Byte) (p : Bool) : (s.answer b p).unreachable = s.unreachable := rfl
@[simp] theorem State.answer_segments (s : State) (b : List Byte) (p : Bool) : (s.answer b p).segments = s.segments := rfl
@[simp] theorem State.answer_leases (s : State) (b : List Byte) (p : Bool) : (s.answer b p).leases = s.leases := rfl
@[simp] theorem State.answer_smfBusy (s : State) (b : List Byte) (p : Bool) : (s.answer b p).smfBusy = s.smfBusy := rfl
@[simp] theorem State.answer_hostGts (s : State) (b : List Byte) (p : Bool) : (s.answer b p).hostGts = s.hostGts := rfl
@[simp] theorem State.answer_rgnPend (s : State) (b : List Byte) (p : Bool) : (s.answer b p).rgnPend = s.rgnPend := rfl
@[simp] theorem State.answer_wakeFrom (s : State) (b : List Byte) (p : Bool) : (s.answer b p).wakeFrom = s.wakeFrom := rfl
@[simp] theorem State.answer_ivrShort (s : State) (b : List Byte) (p : Bool) : (s.answer b p).ivrShort = s.ivrShort := rfl
@[simp] theorem State.answer_trimPend (s : State) (b : List Byte) (p : Bool) : (s.answer b p).trimPend = s.trimPend := rfl
@[simp] theorem State.answer_stretch (s : State) (b : List Byte) (p : Bool) : (s.answer b p).stretch = s.stretch := rfl
@[simp] theorem State.answer_ceils (s : State) (b : List Byte) (p : Bool) : (s.answer b p).ceils = s.ceils := rfl
@[simp] theorem State.answer_hotAt (s : State) (b : List Byte) (p : Bool) : (s.answer b p).hotAt = s.hotAt := rfl
@[simp] theorem State.answer_coolAt (s : State) (b : List Byte) (p : Bool) : (s.answer b p).coolAt = s.coolAt := rfl
@[simp] theorem State.answer_riseAt (s : State) (b : List Byte) (p : Bool) : (s.answer b p).riseAt = s.riseAt := rfl
@[simp] theorem State.answer_trimOver (s : State) (b : List Byte) (p : Bool) : (s.answer b p).trimOver = s.trimOver := rfl
@[simp] theorem State.answer_idleAt (s : State) (b : List Byte) (p : Bool) : (s.answer b p).idleAt = s.idleAt := rfl
@[simp] theorem State.answer_hbmAt (s : State) (b : List Byte) (p : Bool) : (s.answer b p).hbmAt = s.hbmAt := rfl
@[simp] theorem State.answer_dividedFor (s : State) (b : List Byte) (p : Bool) : (s.answer b p).dividedFor = s.dividedFor := rfl
@[simp] theorem State.answer_wakeWaits (s : State) (b : List Byte) (p : Bool) : (s.answer b p).wakeWaits = s.wakeWaits := rfl
@[simp] theorem State.answer_energyRem (s : State) (b : List Byte) (p : Bool) : (s.answer b p).energyRem = s.energyRem := rfl
@[simp] theorem State.answer_standby (s : State) (b : List Byte) (p : Bool) : (s.answer b p).standby = s.standby := rfl
@[simp] theorem State.answer_energyHigh (s : State) (b : List Byte) (p : Bool) : (s.answer b p).energyHigh = s.energyHigh := rfl
@[simp] theorem State.answer_ldgIngress (s : State) (b : List Byte) (p : Bool) : (s.answer b p).ldgIngress = s.ldgIngress := rfl
@[simp] theorem State.answer_ldgOpen (s : State) (b : List Byte) (p : Bool) : (s.answer b p).ldgOpen = s.ldgOpen := rfl
@[simp] theorem State.answer_ldgHist (s : State) (b : List Byte) (p : Bool) : (s.answer b p).ldgHist = s.ldgHist := rfl
@[simp] theorem State.answer_ldgCommit (s : State) (b : List Byte) (p : Bool) : (s.answer b p).ldgCommit = s.ldgCommit := rfl
@[simp] theorem State.answer_ldgRing (s : State) (b : List Byte) (p : Bool) : (s.answer b p).ldgRing = s.ldgRing := rfl
@[simp] theorem State.answer_ldgPersist (s : State) (b : List Byte) (p : Bool) : (s.answer b p).ldgPersist = s.ldgPersist := rfl
@[simp] theorem State.answer_ldgSeq (s : State) (b : List Byte) (p : Bool) : (s.answer b p).ldgSeq = s.ldgSeq := rfl
@[simp] theorem State.answer_ldgAcked (s : State) (b : List Byte) (p : Bool) : (s.answer b p).ldgAcked = s.ldgAcked := rfl
@[simp] theorem State.answer_ldgAt (s : State) (b : List Byte) (p : Bool) : (s.answer b p).ldgAt = s.ldgAt := rfl
@[simp] theorem State.answer_ldgClosed (s : State) (b : List Byte) (p : Bool) : (s.answer b p).ldgClosed = s.ldgClosed := rfl
@[simp] theorem State.answer_snaps (s : State) (b : List Byte) (p : Bool) : (s.answer b p).snaps = s.snaps := rfl
@[simp] theorem State.answer_injSeen (s : State) (b : List Byte) (p : Bool) : (s.answer b p).injSeen = s.injSeen := rfl
@[simp] theorem State.answer_tmx (s : State) (b : List Byte) (p : Bool) : (s.answer b p).tmx = s.tmx := rfl
@[simp] theorem State.answer_pinFault (s : State) (b : List Byte) (p : Bool) : (s.answer b p).pinFault = s.pinFault := rfl
@[simp] theorem State.answer_pinPwrWarn (s : State) (b : List Byte) (p : Bool) : (s.answer b p).pinPwrWarn = s.pinPwrWarn := rfl
@[simp] theorem State.answer_tmxOut (s : State) (b : List Byte) (p : Bool) : (s.answer b p).tmxOut = s.tmxOut := rfl
@[simp] theorem State.answer_tmxUntil (s : State) (b : List Byte) (p : Bool) : (s.answer b p).tmxUntil = s.tmxUntil := rfl
@[simp] theorem State.answer_ppsHigh (s : State) (b : List Byte) (p : Bool) : (s.answer b p).ppsHigh = s.ppsHigh := rfl
@[simp] theorem State.answer_warnReleased (s : State) (b : List Byte) (p : Bool) : (s.answer b p).warnReleased = s.warnReleased := rfl
@[simp] theorem State.answer_pendingSys (s : State) (b : List Byte) (p : Bool) : (s.answer b p).pendingSys = s.pendingSys := rfl
@[simp] theorem State.answer_genFloor (s : State) (b : List Byte) (p : Bool) : (s.answer b p).genFloor = s.genFloor := rfl
@[simp] theorem State.answer_fwCopies (s : State) (b : List Byte) (p : Bool) : (s.answer b p).fwCopies = s.fwCopies := rfl
@[simp] theorem State.answer_preferredB (s : State) (b : List Byte) (p : Bool) : (s.answer b p).preferredB = s.preferredB := rfl
@[simp] theorem State.answer_bootFails (s : State) (b : List Byte) (p : Bool) : (s.answer b p).bootFails = s.bootFails := rfl
@[simp] theorem State.answer_norImage (s : State) (b : List Byte) (p : Bool) : (s.answer b p).norImage = s.norImage := rfl
@[simp] theorem State.answer_norOlder (s : State) (b : List Byte) (p : Bool) : (s.answer b p).norOlder = s.norOlder := rfl
@[simp] theorem State.answer_norAt (s : State) (b : List Byte) (p : Bool) : (s.answer b p).norAt = s.norAt := rfl
@[simp] theorem State.answer_authority (s : State) (b : List Byte) (p : Bool) : (s.answer b p).authority = s.authority := rfl
@[simp] theorem State.answer_authWas (s : State) (b : List Byte) (p : Bool) : (s.answer b p).authWas = s.authWas := rfl
@[simp] theorem State.answer_norTrims (s : State) (b : List Byte) (p : Bool) : (s.answer b p).norTrims = s.norTrims := rfl
@[simp] theorem State.answer_secFloor (s : State) (b : List Byte) (p : Bool) : (s.answer b p).secFloor = s.secFloor := rfl
@[simp] theorem State.answer_runningB (s : State) (b : List Byte) (p : Bool) : (s.answer b p).runningB = s.runningB := rfl
@[simp] theorem State.answer_updateWritten (s : State) (b : List Byte) (p : Bool) : (s.answer b p).updateWritten = s.updateWritten := rfl
@[simp] theorem State.answer_updChecking (s : State) (b : List Byte) (p : Bool) : (s.answer b p).updChecking = s.updChecking := rfl
@[simp] theorem State.answer_linkKeys (s : State) (b : List Byte) (p : Bool) : (s.answer b p).linkKeys = s.linkKeys := rfl
@[simp] theorem State.answer_fabKey (s : State) (b : List Byte) (p : Bool) : (s.answer b p).fabKey = s.fabKey := rfl
@[simp] theorem State.answer_challenges (s : State) (b : List Byte) (p : Bool) : (s.answer b p).challenges = s.challenges := rfl
@[simp] theorem State.answer_checking (s : State) (b : List Byte) (p : Bool) : (s.answer b p).checking = s.checking := rfl
@[simp] theorem State.answer_tokens (s : State) (b : List Byte) (p : Bool) : (s.answer b p).tokens = s.tokens := rfl
@[simp] theorem State.answer_spdmStage (s : State) (b : List Byte) (p : Bool) : (s.answer b p).spdmStage = s.spdmStage := rfl
@[simp] theorem State.answer_spdm (s : State) (b : List Byte) (p : Bool) : (s.answer b p).spdm = s.spdm := rfl
@[simp] theorem State.answer_spdmNext (s : State) (b : List Byte) (p : Bool) : (s.answer b p).spdmNext = s.spdmNext := rfl
@[simp] theorem State.answer_injSession (s : State) (b : List Byte) (p : Bool) : (s.answer b p).injSession = s.injSession := rfl
@[simp] theorem State.answer_imgStage (s : State) (b : List Byte) (p : Bool) : (s.answer b p).imgStage = s.imgStage := rfl
@[simp] theorem State.answer_mgtTx (s : State) (b : List Byte) (p : Bool) : (s.answer b p).mgtTx = s.mgtTx := rfl
@[simp] theorem State.answer_quotes (s : State) (b : List Byte) (p : Bool) : (s.answer b p).quotes = s.quotes := rfl
@[simp] theorem State.answer_vaon (s : State) (b : List Byte) (p : Bool) : (s.answer b p).vaon = s.vaon := rfl
@[simp] theorem State.answer_vin (s : State) (b : List Byte) (p : Bool) : (s.answer b p).vin = s.vin := rfl
@[simp] theorem State.answer_vinAt (s : State) (b : List Byte) (p : Bool) : (s.answer b p).vinAt = s.vinAt := rfl
@[simp] theorem State.answer_sysRef (s : State) (b : List Byte) (p : Bool) : (s.answer b p).sysRef = s.sysRef := rfl
@[simp] theorem State.answer_sysRefAt (s : State) (b : List Byte) (p : Bool) : (s.answer b p).sysRefAt = s.sysRefAt := rfl
@[simp] theorem State.answer_resetN (s : State) (b : List Byte) (p : Bool) : (s.answer b p).resetN = s.resetN := rfl
@[simp] theorem State.answer_perstN (s : State) (b : List Byte) (p : Bool) : (s.answer b p).perstN = s.perstN := rfl
@[simp] theorem State.answer_npRuns (s : State) (b : List Byte) (p : Bool) : (s.answer b p).npRuns = s.npRuns := rfl
@[simp] theorem State.answer_rails (s : State) (b : List Byte) (p : Bool) : (s.answer b p).rails = s.rails := rfl
@[simp] theorem State.answer_hostUp (s : State) (b : List Byte) (p : Bool) : (s.answer b p).hostUp = s.hostUp := rfl
@[simp] theorem State.answer_offCause (s : State) (b : List Byte) (p : Bool) : (s.answer b p).offCause = s.offCause := rfl
@[simp] theorem State.answer_offWarned (s : State) (b : List Byte) (p : Bool) : (s.answer b p).offWarned = s.offWarned := rfl
@[simp] theorem State.answer_offAt (s : State) (b : List Byte) (p : Bool) : (s.answer b p).offAt = s.offAt := rfl
@[simp] theorem State.answer_romOnly (s : State) (b : List Byte) (p : Bool) : (s.answer b p).romOnly = s.romOnly := rfl
@[simp] theorem State.answer_ldgTorn (s : State) (b : List Byte) (p : Bool) : (s.answer b p).ldgTorn = s.ldgTorn := rfl
@[simp] theorem State.answer_revokeAt (s : State) (b : List Byte) (p : Bool) : (s.answer b p).revokeAt = s.revokeAt := rfl
@[simp] theorem State.answer_pending (s : State) (b : List Byte) (p : Bool) : (s.answer b p).pending = s.pending := rfl
@[simp] theorem State.answer_regs (s : State) (b : List Byte) (p : Bool) : (s.answer b p).regs = s.regs := rfl
@[simp] theorem State.answer_w1cAt (s : State) (b : List Byte) (p : Bool) : (s.answer b p).w1cAt = s.w1cAt := rfl
@[simp] theorem State.answer_freeCtr (s : State) (b : List Byte) (p : Bool) : (s.answer b p).freeCtr = s.freeCtr := rfl

/-! ### permissionError -/

@[simp] theorem State.permissionError_cores (s : State) (n : Nat) : (s.permissionError n).cores = s.cores := rfl
@[simp] theorem State.permissionError_barriers (s : State) (n : Nat) : (s.permissionError n).barriers = s.barriers := rfl
@[simp] theorem State.permissionError_sram (s : State) (n : Nat) : (s.permissionError n).sram = s.sram := rfl
@[simp] theorem State.permissionError_spdErr (s : State) (n : Nat) : (s.permissionError n).spdErr = s.spdErr := rfl
@[simp] theorem State.permissionError_rowCls (s : State) (n : Nat) : (s.permissionError n).rowCls = s.rowCls := rfl
@[simp] theorem State.permissionError_ueSeen (s : State) (n : Nat) : (s.permissionError n).ueSeen = s.ueSeen := rfl
@[simp] theorem State.permissionError_acc (s : State) (n : Nat) : (s.permissionError n).acc = s.acc := rfl
@[simp] theorem State.permissionError_bankQ (s : State) (n : Nat) : (s.permissionError n).bankQ = s.bankQ := rfl
@[simp] theorem State.permissionError_writeBack (s : State) (n : Nat) : (s.permissionError n).writeBack = s.writeBack := rfl
@[simp] theorem State.permissionError_clrNow (s : State) (n : Nat) : (s.permissionError n).clrNow = s.clrNow := rfl
@[simp] theorem State.permissionError_clrPend (s : State) (n : Nat) : (s.permissionError n).clrPend = s.clrPend := rfl
@[simp] theorem State.permissionError_heldWins (s : State) (n : Nat) : (s.permissionError n).heldWins = s.heldWins := rfl
@[simp] theorem State.permissionError_bist (s : State) (n : Nat) : (s.permissionError n).bist = s.bist := rfl
@[simp] theorem State.permissionError_failedRgns (s : State) (n : Nat) : (s.permissionError n).failedRgns = s.failedRgns := rfl
@[simp] theorem State.permissionError_repairMap (s : State) (n : Nat) : (s.permissionError n).repairMap = s.repairMap := rfl
@[simp] theorem State.permissionError_repairFailed (s : State) (n : Nat) : (s.permissionError n).repairFailed = s.repairFailed := rfl
@[simp] theorem State.permissionError_repairSeen (s : State) (n : Nat) : (s.permissionError n).repairSeen = s.repairSeen := rfl
@[simp] theorem State.permissionError_routerTable (s : State) (n : Nat) : (s.permissionError n).routerTable = s.routerTable := rfl
@[simp] theorem State.permissionError_atps (s : State) (n : Nat) : (s.permissionError n).atps = s.atps := rfl
@[simp] theorem State.permissionError_ctxs (s : State) (n : Nat) : (s.permissionError n).ctxs = s.ctxs := rfl
@[simp] theorem State.permissionError_hbm (s : State) (n : Nat) : (s.permissionError n).hbm = s.hbm := rfl
@[simp] theorem State.permissionError_hbmKey (s : State) (n : Nat) : (s.permissionError n).hbmKey = s.hbmKey := rfl
@[simp] theorem State.permissionError_hbmBad (s : State) (n : Nat) : (s.permissionError n).hbmBad = s.hbmBad := rfl
@[simp] theorem State.permissionError_frames (s : State) (n : Nat) : (s.permissionError n).frames = s.frames := rfl
@[simp] theorem State.permissionError_ptes (s : State) (n : Nat) : (s.permissionError n).ptes = s.ptes := rfl
@[simp] theorem State.permissionError_shared (s : State) (n : Nat) : (s.permissionError n).shared = s.shared := rfl
@[simp] theorem State.permissionError_prefixes (s : State) (n : Nat) : (s.permissionError n).prefixes = s.prefixes := rfl
@[simp] theorem State.permissionError_kind5 (s : State) (n : Nat) : (s.permissionError n).kind5 = s.kind5 := rfl
@[simp] theorem State.permissionError_prefixRefs (s : State) (n : Nat) : (s.permissionError n).prefixRefs = s.prefixRefs := rfl
@[simp] theorem State.permissionError_pageMoves (s : State) (n : Nat) : (s.permissionError n).pageMoves = s.pageMoves := rfl
@[simp] theorem State.permissionError_hints (s : State) (n : Nat) : (s.permissionError n).hints = s.hints := rfl
@[simp] theorem State.permissionError_pins (s : State) (n : Nat) : (s.permissionError n).pins = s.pins := rfl
@[simp] theorem State.permissionError_admitted (s : State) (n : Nat) : (s.permissionError n).admitted = s.admitted := rfl
@[simp] theorem State.permissionError_forkWait (s : State) (n : Nat) : (s.permissionError n).forkWait = s.forkWait := rfl
@[simp] theorem State.permissionError_hostBufs (s : State) (n : Nat) : (s.permissionError n).hostBufs = s.hostBufs := rfl
@[simp] theorem State.permissionError_checkRecs (s : State) (n : Nat) : (s.permissionError n).checkRecs = s.checkRecs := rfl
@[simp] theorem State.permissionError_farPages (s : State) (n : Nat) : (s.permissionError n).farPages = s.farPages := rfl
@[simp] theorem State.permissionError_reserved (s : State) (n : Nat) : (s.permissionError n).reserved = s.reserved := rfl
@[simp] theorem State.permissionError_publishing (s : State) (n : Nat) : (s.permissionError n).publishing = s.publishing := rfl
@[simp] theorem State.permissionError_demoting (s : State) (n : Nat) : (s.permissionError n).demoting = s.demoting := rfl
@[simp] theorem State.permissionError_keyGen (s : State) (n : Nat) : (s.permissionError n).keyGen = s.keyGen := rfl
@[simp] theorem State.permissionError_scrubAt (s : State) (n : Nat) : (s.permissionError n).scrubAt = s.scrubAt := rfl
@[simp] theorem State.permissionError_rglRem (s : State) (n : Nat) : (s.permissionError n).rglRem = s.rglRem := rfl
@[simp] theorem State.permissionError_rglTok (s : State) (n : Nat) : (s.permissionError n).rglTok = s.rglTok := rfl
@[simp] theorem State.permissionError_cous (s : State) (n : Nat) : (s.permissionError n).cous = s.cous := rfl
@[simp] theorem State.permissionError_cancels (s : State) (n : Nat) : (s.permissionError n).cancels = s.cancels := rfl
@[simp] theorem State.permissionError_drvs (s : State) (n : Nat) : (s.permissionError n).drvs = s.drvs := rfl
@[simp] theorem State.permissionError_drvRem (s : State) (n : Nat) : (s.permissionError n).drvRem = s.drvRem := rfl
@[simp] theorem State.permissionError_wsets (s : State) (n : Nat) : (s.permissionError n).wsets = s.wsets := rfl
@[simp] theorem State.permissionError_peerWsets (s : State) (n : Nat) : (s.permissionError n).peerWsets = s.peerWsets := rfl
@[simp] theorem State.permissionError_draining (s : State) (n : Nat) : (s.permissionError n).draining = s.draining := rfl
@[simp] theorem State.permissionError_imgArea (s : State) (n : Nat) : (s.permissionError n).imgArea = s.imgArea := rfl
@[simp] theorem State.permissionError_planArea (s : State) (n : Nat) : (s.permissionError n).planArea = s.planArea := rfl
@[simp] theorem State.permissionError_sessions (s : State) (n : Nat) : (s.permissionError n).sessions = s.sessions := rfl
@[simp] theorem State.permissionError_items (s : State) (n : Nat) : (s.permissionError n).items = s.items := rfl
@[simp] theorem State.permissionError_itemNo (s : State) (n : Nat) : (s.permissionError n).itemNo = s.itemNo := rfl
@[simp] theorem State.permissionError_steps (s : State) (n : Nat) : (s.permissionError n).steps = s.steps := rfl
@[simp] theorem State.permissionError_stepNo (s : State) (n : Nat) : (s.permissionError n).stepNo = s.stepNo := rfl
@[simp] theorem State.permissionError_plans (s : State) (n : Nat) : (s.permissionError n).plans = s.plans := rfl
@[simp] theorem State.permissionError_prefillLane (s : State) (n : Nat) : (s.permissionError n).prefillLane = s.prefillLane := rfl
@[simp] theorem State.permissionError_laneMoves (s : State) (n : Nat) : (s.permissionError n).laneMoves = s.laneMoves := rfl
@[simp] theorem State.permissionError_loadOwed (s : State) (n : Nat) : (s.permissionError n).loadOwed = s.loadOwed := rfl
@[simp] theorem State.permissionError_homeTurn (s : State) (n : Nat) : (s.permissionError n).homeTurn = s.homeTurn := rfl
@[simp] theorem State.permissionError_held (s : State) (n : Nat) : (s.permissionError n).held = s.held := rfl
@[simp] theorem State.permissionError_tokenRecs (s : State) (n : Nat) : (s.permissionError n).tokenRecs = s.tokenRecs := rfl
@[simp] theorem State.permissionError_progSet (s : State) (n : Nat) : (s.permissionError n).progSet = s.progSet := rfl
@[simp] theorem State.permissionError_failReps (s : State) (n : Nat) : (s.permissionError n).failReps = s.failReps := rfl
@[simp] theorem State.permissionError_farDrops (s : State) (n : Nat) : (s.permissionError n).farDrops = s.farDrops := rfl
@[simp] theorem State.permissionError_sysImage (s : State) (n : Nat) : (s.permissionError n).sysImage = s.sysImage := rfl
@[simp] theorem State.permissionError_images (s : State) (n : Nat) : (s.permissionError n).images = s.images := rfl
@[simp] theorem State.permissionError_loads (s : State) (n : Nat) : (s.permissionError n).loads = s.loads := rfl
@[simp] theorem State.permissionError_moves (s : State) (n : Nat) : (s.permissionError n).moves = s.moves := rfl
@[simp] theorem State.permissionError_movesNext (s : State) (n : Nat) : (s.permissionError n).movesNext = s.movesNext := rfl
@[simp] theorem State.permissionError_claims (s : State) (n : Nat) : (s.permissionError n).claims = s.claims := rfl
@[simp] theorem State.permissionError_saves (s : State) (n : Nat) : (s.permissionError n).saves = s.saves := rfl
@[simp] theorem State.permissionError_vacant (s : State) (n : Nat) : (s.permissionError n).vacant = s.vacant := rfl
@[simp] theorem State.permissionError_resumeAt (s : State) (n : Nat) : (s.permissionError n).resumeAt = s.resumeAt := rfl
@[simp] theorem State.permissionError_drains (s : State) (n : Nat) : (s.permissionError n).drains = s.drains := rfl
@[simp] theorem State.permissionError_jobShort (s : State) (n : Nat) : (s.permissionError n).jobShort = s.jobShort := rfl
@[simp] theorem State.permissionError_jobHalted (s : State) (n : Nat) : (s.permissionError n).jobHalted = s.jobHalted := rfl
@[simp] theorem State.permissionError_now (s : State) (n : Nat) : (s.permissionError n).now = s.now := rfl
@[simp] theorem State.permissionError_nowFrac (s : State) (n : Nat) : (s.permissionError n).nowFrac = s.nowFrac := rfl
@[simp] theorem State.permissionError_nowHigh (s : State) (n : Nat) : (s.permissionError n).nowHigh = s.nowHigh := rfl
@[simp] theorem State.permissionError_lastRdsr (s : State) (n : Nat) : (s.permissionError n).lastRdsr = s.lastRdsr := rfl
@[simp] theorem State.permissionError_cmps (s : State) (n : Nat) : (s.permissionError n).cmps = s.cmps := rfl
@[simp] theorem State.permissionError_calendar (s : State) (n : Nat) : (s.permissionError n).calendar = s.calendar := rfl
@[simp] theorem State.permissionError_links (s : State) (n : Nat) : (s.permissionError n).links = s.links := rfl
@[simp] theorem State.permissionError_lostSlots (s : State) (n : Nat) : (s.permissionError n).lostSlots = s.lostSlots := rfl
@[simp] theorem State.permissionError_lostLinks (s : State) (n : Nat) : (s.permissionError n).lostLinks = s.lostLinks := rfl
@[simp] theorem State.permissionError_master (s : State) (n : Nat) : (s.permissionError n).master = s.master := rfl
@[simp] theorem State.permissionError_backup (s : State) (n : Nat) : (s.permissionError n).backup = s.backup := rfl
@[simp] theorem State.permissionError_lostMastership (s : State) (n : Nat) : (s.permissionError n).lostMastership = s.lostMastership := rfl
@[simp] theorem State.permissionError_holdoverAt (s : State) (n : Nat) : (s.permissionError n).holdoverAt = s.holdoverAt := rfl
@[simp] theorem State.permissionError_treatedAsLost (s : State) (n : Nat) : (s.permissionError n).treatedAsLost = s.treatedAsLost := rfl
@[simp] theorem State.permissionError_masterLostAt (s : State) (n : Nat) : (s.permissionError n).masterLostAt = s.masterLostAt := rfl
@[simp] theorem State.permissionError_tookOverAt (s : State) (n : Nat) : (s.permissionError n).tookOverAt = s.tookOverAt := rfl
@[simp] theorem State.permissionError_exMasters (s : State) (n : Nat) : (s.permissionError n).exMasters = s.exMasters := rfl
@[simp] theorem State.permissionError_syncCopy (s : State) (n : Nat) : (s.permissionError n).syncCopy = s.syncCopy := rfl
@[simp] theorem State.permissionError_coord (s : State) (n : Nat) : (s.permissionError n).coord = s.coord := rfl
@[simp] theorem State.permissionError_outOfSystem (s : State) (n : Nat) : (s.permissionError n).outOfSystem = s.outOfSystem := rfl
@[simp] theorem State.permissionError_recabling (s : State) (n : Nat) : (s.permissionError n).recabling = s.recabling := rfl
@[simp] theorem State.permissionError_linkTx (s : State) (n : Nat) : (s.permissionError n).linkTx = s.linkTx := rfl
@[simp] theorem State.permissionError_hostTx (s : State) (n : Nat) : (s.permissionError n).hostTx = s.hostTx := rfl
@[simp] theorem State.permissionError_switchPoints (s : State) (n : Nat) : (s.permissionError n).switchPoints = s.switchPoints := rfl
@[simp] theorem State.permissionError_recableAt (s : State) (n : Nat) : (s.permissionError n).recableAt = s.recableAt := rfl
@[simp] theorem State.permissionError_cqReserved (s : State) (n : Nat) : (s.permissionError n).cqReserved = s.cqReserved := rfl
@[simp] theorem State.permissionError_unsignalled (s : State) (n : Nat) : (s.permissionError n).unsignalled = s.unsignalled := rfl
@[simp] theorem State.permissionError_postQ (s : State) (n : Nat) : (s.permissionError n).postQ = s.postQ := rfl
@[simp] theorem State.permissionError_hostReads (s : State) (n : Nat) : (s.permissionError n).hostReads = s.hostReads := rfl
@[simp] theorem State.permissionError_inbox (s : State) (n : Nat) : (s.permissionError n).inbox = s.inbox := rfl
@[simp] theorem State.permissionError_ringTurn (s : State) (n : Nat) : (s.permissionError n).ringTurn = s.ringTurn := rfl
@[simp] theorem State.permissionError_ethTx (s : State) (n : Nat) : (s.permissionError n).ethTx = s.ethTx := rfl
@[simp] theorem State.permissionError_ethRx (s : State) (n : Nat) : (s.permissionError n).ethRx = s.ethRx := rfl
@[simp] theorem State.permissionError_wallOfsL (s : State) (n : Nat) : (s.permissionError n).wallOfsL = s.wallOfsL := rfl
@[simp] theorem State.permissionError_fabPairs (s : State) (n : Nat) : (s.permissionError n).fabPairs = s.fabPairs := rfl
@[simp] theorem State.permissionError_fabTxc (s : State) (n : Nat) : (s.permissionError n).fabTxc = s.fabTxc := rfl
@[simp] theorem State.permissionError_fabRxTxc (s : State) (n : Nat) : (s.permissionError n).fabRxTxc = s.fabRxTxc := rfl
@[simp] theorem State.permissionError_fabReqs (s : State) (n : Nat) : (s.permissionError n).fabReqs = s.fabReqs := rfl
@[simp] theorem State.permissionError_fabTag (s : State) (n : Nat) : (s.permissionError n).fabTag = s.fabTag := rfl
@[simp] theorem State.permissionError_fabTx (s : State) (n : Nat) : (s.permissionError n).fabTx = s.fabTx := rfl
@[simp] theorem State.permissionError_fabDead (s : State) (n : Nat) : (s.permissionError n).fabDead = s.fabDead := rfl
@[simp] theorem State.permissionError_unreachable (s : State) (n : Nat) : (s.permissionError n).unreachable = s.unreachable := rfl
@[simp] theorem State.permissionError_segments (s : State) (n : Nat) : (s.permissionError n).segments = s.segments := rfl
@[simp] theorem State.permissionError_leases (s : State) (n : Nat) : (s.permissionError n).leases = s.leases := rfl
@[simp] theorem State.permissionError_smfBusy (s : State) (n : Nat) : (s.permissionError n).smfBusy = s.smfBusy := rfl
@[simp] theorem State.permissionError_hostGts (s : State) (n : Nat) : (s.permissionError n).hostGts = s.hostGts := rfl
@[simp] theorem State.permissionError_rgnPend (s : State) (n : Nat) : (s.permissionError n).rgnPend = s.rgnPend := rfl
@[simp] theorem State.permissionError_wakeFrom (s : State) (n : Nat) : (s.permissionError n).wakeFrom = s.wakeFrom := rfl
@[simp] theorem State.permissionError_ivrShort (s : State) (n : Nat) : (s.permissionError n).ivrShort = s.ivrShort := rfl
@[simp] theorem State.permissionError_trimPend (s : State) (n : Nat) : (s.permissionError n).trimPend = s.trimPend := rfl
@[simp] theorem State.permissionError_stretch (s : State) (n : Nat) : (s.permissionError n).stretch = s.stretch := rfl
@[simp] theorem State.permissionError_ceils (s : State) (n : Nat) : (s.permissionError n).ceils = s.ceils := rfl
@[simp] theorem State.permissionError_hotAt (s : State) (n : Nat) : (s.permissionError n).hotAt = s.hotAt := rfl
@[simp] theorem State.permissionError_coolAt (s : State) (n : Nat) : (s.permissionError n).coolAt = s.coolAt := rfl
@[simp] theorem State.permissionError_riseAt (s : State) (n : Nat) : (s.permissionError n).riseAt = s.riseAt := rfl
@[simp] theorem State.permissionError_trimOver (s : State) (n : Nat) : (s.permissionError n).trimOver = s.trimOver := rfl
@[simp] theorem State.permissionError_idleAt (s : State) (n : Nat) : (s.permissionError n).idleAt = s.idleAt := rfl
@[simp] theorem State.permissionError_hbmAt (s : State) (n : Nat) : (s.permissionError n).hbmAt = s.hbmAt := rfl
@[simp] theorem State.permissionError_dividedFor (s : State) (n : Nat) : (s.permissionError n).dividedFor = s.dividedFor := rfl
@[simp] theorem State.permissionError_wakeWaits (s : State) (n : Nat) : (s.permissionError n).wakeWaits = s.wakeWaits := rfl
@[simp] theorem State.permissionError_energyRem (s : State) (n : Nat) : (s.permissionError n).energyRem = s.energyRem := rfl
@[simp] theorem State.permissionError_standby (s : State) (n : Nat) : (s.permissionError n).standby = s.standby := rfl
@[simp] theorem State.permissionError_energyHigh (s : State) (n : Nat) : (s.permissionError n).energyHigh = s.energyHigh := rfl
@[simp] theorem State.permissionError_ldgIngress (s : State) (n : Nat) : (s.permissionError n).ldgIngress = s.ldgIngress := rfl
@[simp] theorem State.permissionError_ldgOpen (s : State) (n : Nat) : (s.permissionError n).ldgOpen = s.ldgOpen := rfl
@[simp] theorem State.permissionError_ldgHist (s : State) (n : Nat) : (s.permissionError n).ldgHist = s.ldgHist := rfl
@[simp] theorem State.permissionError_ldgCommit (s : State) (n : Nat) : (s.permissionError n).ldgCommit = s.ldgCommit := rfl
@[simp] theorem State.permissionError_ldgRing (s : State) (n : Nat) : (s.permissionError n).ldgRing = s.ldgRing := rfl
@[simp] theorem State.permissionError_ldgPersist (s : State) (n : Nat) : (s.permissionError n).ldgPersist = s.ldgPersist := rfl
@[simp] theorem State.permissionError_ldgSeq (s : State) (n : Nat) : (s.permissionError n).ldgSeq = s.ldgSeq := rfl
@[simp] theorem State.permissionError_ldgAcked (s : State) (n : Nat) : (s.permissionError n).ldgAcked = s.ldgAcked := rfl
@[simp] theorem State.permissionError_ldgAt (s : State) (n : Nat) : (s.permissionError n).ldgAt = s.ldgAt := rfl
@[simp] theorem State.permissionError_ldgClosed (s : State) (n : Nat) : (s.permissionError n).ldgClosed = s.ldgClosed := rfl
@[simp] theorem State.permissionError_snaps (s : State) (n : Nat) : (s.permissionError n).snaps = s.snaps := rfl
@[simp] theorem State.permissionError_injSeen (s : State) (n : Nat) : (s.permissionError n).injSeen = s.injSeen := rfl
@[simp] theorem State.permissionError_tmx (s : State) (n : Nat) : (s.permissionError n).tmx = s.tmx := rfl
@[simp] theorem State.permissionError_pinFault (s : State) (n : Nat) : (s.permissionError n).pinFault = s.pinFault := rfl
@[simp] theorem State.permissionError_pinPwrWarn (s : State) (n : Nat) : (s.permissionError n).pinPwrWarn = s.pinPwrWarn := rfl
@[simp] theorem State.permissionError_tmxOut (s : State) (n : Nat) : (s.permissionError n).tmxOut = s.tmxOut := rfl
@[simp] theorem State.permissionError_tmxUntil (s : State) (n : Nat) : (s.permissionError n).tmxUntil = s.tmxUntil := rfl
@[simp] theorem State.permissionError_ppsHigh (s : State) (n : Nat) : (s.permissionError n).ppsHigh = s.ppsHigh := rfl
@[simp] theorem State.permissionError_warnReleased (s : State) (n : Nat) : (s.permissionError n).warnReleased = s.warnReleased := rfl
@[simp] theorem State.permissionError_pendingSys (s : State) (n : Nat) : (s.permissionError n).pendingSys = s.pendingSys := rfl
@[simp] theorem State.permissionError_genFloor (s : State) (n : Nat) : (s.permissionError n).genFloor = s.genFloor := rfl
@[simp] theorem State.permissionError_fwCopies (s : State) (n : Nat) : (s.permissionError n).fwCopies = s.fwCopies := rfl
@[simp] theorem State.permissionError_preferredB (s : State) (n : Nat) : (s.permissionError n).preferredB = s.preferredB := rfl
@[simp] theorem State.permissionError_bootFails (s : State) (n : Nat) : (s.permissionError n).bootFails = s.bootFails := rfl
@[simp] theorem State.permissionError_norImage (s : State) (n : Nat) : (s.permissionError n).norImage = s.norImage := rfl
@[simp] theorem State.permissionError_norOlder (s : State) (n : Nat) : (s.permissionError n).norOlder = s.norOlder := rfl
@[simp] theorem State.permissionError_norAt (s : State) (n : Nat) : (s.permissionError n).norAt = s.norAt := rfl
@[simp] theorem State.permissionError_authority (s : State) (n : Nat) : (s.permissionError n).authority = s.authority := rfl
@[simp] theorem State.permissionError_authWas (s : State) (n : Nat) : (s.permissionError n).authWas = s.authWas := rfl
@[simp] theorem State.permissionError_norTrims (s : State) (n : Nat) : (s.permissionError n).norTrims = s.norTrims := rfl
@[simp] theorem State.permissionError_secFloor (s : State) (n : Nat) : (s.permissionError n).secFloor = s.secFloor := rfl
@[simp] theorem State.permissionError_runningB (s : State) (n : Nat) : (s.permissionError n).runningB = s.runningB := rfl
@[simp] theorem State.permissionError_updateWritten (s : State) (n : Nat) : (s.permissionError n).updateWritten = s.updateWritten := rfl
@[simp] theorem State.permissionError_updChecking (s : State) (n : Nat) : (s.permissionError n).updChecking = s.updChecking := rfl
@[simp] theorem State.permissionError_linkKeys (s : State) (n : Nat) : (s.permissionError n).linkKeys = s.linkKeys := rfl
@[simp] theorem State.permissionError_fabKey (s : State) (n : Nat) : (s.permissionError n).fabKey = s.fabKey := rfl
@[simp] theorem State.permissionError_challenges (s : State) (n : Nat) : (s.permissionError n).challenges = s.challenges := rfl
@[simp] theorem State.permissionError_checking (s : State) (n : Nat) : (s.permissionError n).checking = s.checking := rfl
@[simp] theorem State.permissionError_tokens (s : State) (n : Nat) : (s.permissionError n).tokens = s.tokens := rfl
@[simp] theorem State.permissionError_spdmStage (s : State) (n : Nat) : (s.permissionError n).spdmStage = s.spdmStage := rfl
@[simp] theorem State.permissionError_spdm (s : State) (n : Nat) : (s.permissionError n).spdm = s.spdm := rfl
@[simp] theorem State.permissionError_spdmNext (s : State) (n : Nat) : (s.permissionError n).spdmNext = s.spdmNext := rfl
@[simp] theorem State.permissionError_injSession (s : State) (n : Nat) : (s.permissionError n).injSession = s.injSession := rfl
@[simp] theorem State.permissionError_imgStage (s : State) (n : Nat) : (s.permissionError n).imgStage = s.imgStage := rfl
@[simp] theorem State.permissionError_mgtTx (s : State) (n : Nat) : (s.permissionError n).mgtTx = s.mgtTx := rfl
@[simp] theorem State.permissionError_quotes (s : State) (n : Nat) : (s.permissionError n).quotes = s.quotes := rfl
@[simp] theorem State.permissionError_vaon (s : State) (n : Nat) : (s.permissionError n).vaon = s.vaon := rfl
@[simp] theorem State.permissionError_vin (s : State) (n : Nat) : (s.permissionError n).vin = s.vin := rfl
@[simp] theorem State.permissionError_vinAt (s : State) (n : Nat) : (s.permissionError n).vinAt = s.vinAt := rfl
@[simp] theorem State.permissionError_sysRef (s : State) (n : Nat) : (s.permissionError n).sysRef = s.sysRef := rfl
@[simp] theorem State.permissionError_sysRefAt (s : State) (n : Nat) : (s.permissionError n).sysRefAt = s.sysRefAt := rfl
@[simp] theorem State.permissionError_resetN (s : State) (n : Nat) : (s.permissionError n).resetN = s.resetN := rfl
@[simp] theorem State.permissionError_perstN (s : State) (n : Nat) : (s.permissionError n).perstN = s.perstN := rfl
@[simp] theorem State.permissionError_npRuns (s : State) (n : Nat) : (s.permissionError n).npRuns = s.npRuns := rfl
@[simp] theorem State.permissionError_rails (s : State) (n : Nat) : (s.permissionError n).rails = s.rails := rfl
@[simp] theorem State.permissionError_hostUp (s : State) (n : Nat) : (s.permissionError n).hostUp = s.hostUp := rfl
@[simp] theorem State.permissionError_offCause (s : State) (n : Nat) : (s.permissionError n).offCause = s.offCause := rfl
@[simp] theorem State.permissionError_offWarned (s : State) (n : Nat) : (s.permissionError n).offWarned = s.offWarned := rfl
@[simp] theorem State.permissionError_offAt (s : State) (n : Nat) : (s.permissionError n).offAt = s.offAt := rfl
@[simp] theorem State.permissionError_romOnly (s : State) (n : Nat) : (s.permissionError n).romOnly = s.romOnly := rfl
@[simp] theorem State.permissionError_ldgTorn (s : State) (n : Nat) : (s.permissionError n).ldgTorn = s.ldgTorn := rfl
@[simp] theorem State.permissionError_revokeAt (s : State) (n : Nat) : (s.permissionError n).revokeAt = s.revokeAt := rfl
@[simp] theorem State.permissionError_pending (s : State) (n : Nat) : (s.permissionError n).pending = s.pending := rfl
@[simp] theorem State.permissionError_regs (s : State) (n : Nat) : (s.permissionError n).regs = s.regs := rfl
@[simp] theorem State.permissionError_w1cAt (s : State) (n : Nat) : (s.permissionError n).w1cAt = s.w1cAt := rfl
@[simp] theorem State.permissionError_freeCtr (s : State) (n : Nat) : (s.permissionError n).freeCtr = s.freeCtr := rfl

/-! ### The queue -/

@[simp] theorem State.regs_withPending (s : State) (q : List Instr) : ({ s with pending := q } : State).regs = s.regs := rfl
@[simp] theorem State.rd_withPending (s : State) (q : List Instr) (w : Win) (o : Nat) :
    ({ s with pending := q } : State).rd w o = s.rd w o := rfl
@[simp] theorem State.core_withPending (s : State) (q : List Instr) (c : CoreId) :
    ({ s with pending := q } : State).core c = s.core c := rfl

end Sys2Proof.Machine
end

