-- ==== Sys2Proof/Laws/Tab.lean ====
section
/-! SUPPORT. Sparse tables: what a read gives after a write, and that every table operation keeps the canonical form. -/

namespace Sys2Proof.Machine

variable {α : Type}

/-! ### Reads -/

theorem tabGet_tabDel_self (d : Nat → α) (t : Tab α) (k : Nat) : tabGet d (tabDel k t) k = d k := by
  induction t with
  | nil => rfl
  | cons p t ih =>
    by_cases h : p.1 = k
    · simpa [tabDel, h] using ih
    · simpa [tabDel, h, tabGet] using ih

theorem tabGet_tabDel_other (d : Nat → α) (t : Tab α) {k j : Nat} (h : j ≠ k) : tabGet d (tabDel k t) j = tabGet d t j := by
  induction t with
  | nil => rfl
  | cons p t ih =>
    by_cases hp : p.1 = k
    · have hj : ¬ p.1 = j := by omega
      simpa [tabDel, hp, tabGet, show ¬ k = j by omega] using ih
    · have ih' : tabGet d (t.filter (fun p => decide (p.1 ≠ k))) j = tabGet d t j := ih
      by_cases hj : p.1 = j
      · simp [tabDel, tabGet, hj, h]
      · simpa [tabDel, hp, tabGet, hj, h] using ih'

theorem tabGet_tabPut_self (d : Nat → α) (t : Tab α) (k : Nat) (v : α) (h : ∀ p ∈ t, p.1 ≠ k) :
    tabGet d (tabPut k v t) k = v := by
  induction t with
  | nil => simp [tabPut, tabGet]
  | cons p t ih =>
    have hp := h p (by simp)
    by_cases hk : k < p.1
    · simp [tabPut, hk, tabGet]
    · simp [tabPut, hk, tabGet, hp, ih (fun q hq => h q (by simp [hq]))]

theorem tabGet_tabPut_other (d : Nat → α) (t : Tab α) {k j : Nat} (v : α) (h : j ≠ k) :
    tabGet d (tabPut k v t) j = tabGet d t j := by
  induction t with
  | nil => simp [tabPut, tabGet, Ne.symm h]
  | cons p t ih =>
    by_cases hk : k < p.1
    · simp [tabPut, hk, tabGet, Ne.symm h]
    · simp only [tabPut, if_neg hk, tabGet, ih]

theorem mem_tabDel {t : Tab α} {k : Nat} {p : Nat × α} : p ∈ tabDel k t ↔ p ∈ t ∧ p.1 ≠ k := by
  simp [tabDel]

theorem tabAdd_eq (b : Bool) (k : Nat) (v : α) (t : Tab α) : tabAdd b k v t = if b then t else tabPut k v t := by
  cases t <;> cases b <;> rfl

/-- A write lists nothing where the value is the default, and puts the entry in its place otherwise. -/
theorem tabSet_eq [DecidableEq α] (d : Nat → α) (t : Tab α) (k : Nat) (v : α) :
    tabSet d t k v = if v = d k then tabDel k t else tabPut k v (tabDel k t) := by
  simp [tabSet, tabAdd_eq]

/-- A key reads as it was written. -/
theorem tabGet_tabSet_self [DecidableEq α] (d : Nat → α) (t : Tab α) (k : Nat) (v : α) :
    tabGet d (tabSet d t k v) k = v := by
  by_cases h : v = d k
  · simp [tabSet_eq, h, tabGet_tabDel_self]
  · simp only [tabSet_eq, h, if_false]
    exact tabGet_tabPut_self d _ k v (fun p hp => (mem_tabDel.1 hp).2)

/-- A write leaves every other key as it was. -/
theorem tabGet_tabSet_other [DecidableEq α] (d : Nat → α) (t : Tab α) {k j : Nat} (v : α) (h : j ≠ k) :
    tabGet d (tabSet d t k v) j = tabGet d t j := by
  by_cases hv : v = d k
  · simp [tabSet_eq, hv, tabGet_tabDel_other d t h]
  · simp [tabSet_eq, hv, tabGet_tabPut_other d _ v h, tabGet_tabDel_other d t h]

theorem tabGet_tabSet [DecidableEq α] (d : Nat → α) (t : Tab α) (k j : Nat) (v : α) :
    tabGet d (tabSet d t k v) j = if j = k then v else tabGet d t j := by
  by_cases h : j = k
  · subst h; simp [tabGet_tabSet_self]
  · simp [h, tabGet_tabSet_other d t v h]

/-- A run of keys written leaves every key outside the run as it was. -/
theorem tabGet_tabSetList_outside [DecidableEq α] (d : Nat → α) (vs : List α) : ∀ (t : Tab α) (k j : Nat),
    (j < k ∨ k + vs.length ≤ j) → tabGet d (tabSetList d t k vs) j = tabGet d t j := by
  induction vs with
  | nil => intros; rfl
  | cons v vs ih =>
    intro t k j h
    simp only [List.length_cons] at h
    rw [tabSetList, ih _ _ _ (by omega), tabGet_tabSet_other d t v (by omega)]

/-- A run of keys reads as it was written. -/
theorem tabGet_tabSetList_inside [DecidableEq α] (d : Nat → α) (vs : List α) : ∀ (t : Tab α) (k i : Nat) (h : i < vs.length),
    tabGet d (tabSetList d t k vs) (k + i) = vs[i] := by
  induction vs with
  | nil => intro t k i h; simp at h
  | cons v vs ih =>
    intro t k i h
    cases i with
    | zero =>
      rw [tabSetList, tabGet_tabSetList_outside d vs _ _ _ (by omega)]
      simp [tabGet_tabSet_self]
    | succ i =>
      have h' : i < vs.length := by simpa using h
      have := ih (tabSet d t k v) (k + 1) i h'
      simpa [tabSetList, show k + 1 + i = k + (i + 1) by omega] using this

/-! ### The canonical form -/

/-- The canonical form as a proposition: keys strictly rising, no entry equal to the default. -/
theorem tabWf_iff [DecidableEq α] (d : Nat → α) (t : Tab α) :
    tabWf d t = true ↔ t.Pairwise (fun p q => p.1 < q.1) ∧ ∀ p ∈ t, p.2 ≠ d p.1 := by
  simp [tabWf]

theorem tabWf_filter [DecidableEq α] {d : Nat → α} {t : Tab α} (f : Nat × α → Bool) (h : tabWf d t = true) :
    tabWf d (t.filter f) = true := by
  rw [tabWf_iff] at *
  exact ⟨h.1.filter _, fun p hp => h.2 p (List.mem_filter.1 hp).1⟩

theorem mem_tabPut {k : Nat} {v : α} {t : Tab α} {p : Nat × α} : p ∈ tabPut k v t ↔ p = (k, v) ∨ p ∈ t := by
  induction t with
  | nil => simp [tabPut]
  | cons q t ih =>
    by_cases h : k < q.1
    · simp [tabPut, h]
    · simp only [tabPut, h, if_false, List.mem_cons, ih]
      constructor
      · rintro (h | h | h) <;> simp [h]
      · rintro (h | h | h) <;> simp [h]

theorem tabPut_rising {k : Nat} {v : α} {t : Tab α} (ht : t.Pairwise (fun p q => p.1 < q.1)) (hk : ∀ p ∈ t, p.1 ≠ k) :
    (tabPut k v t).Pairwise (fun p q => p.1 < q.1) := by
  induction t with
  | nil => simp [tabPut]
  | cons q t ih =>
    rw [List.pairwise_cons] at ht
    by_cases h : k < q.1
    · simp only [tabPut, h, if_true, List.pairwise_cons]
      refine ⟨?_, ht.1, ht.2⟩
      intro p hp
      rcases List.mem_cons.1 hp with rfl | hp
      · exact h
      · have := ht.1 p hp; omega
    · simp only [tabPut, h, if_false, List.pairwise_cons]
      refine ⟨?_, ih ht.2 (fun p hp => hk p (by simp [hp]))⟩
      intro p hp
      have hq := hk q (by simp)
      rcases mem_tabPut.1 hp with rfl | hp
      · show q.1 < k; omega
      · exact ht.1 p hp

/-- Setting a key keeps the canonical form. -/
theorem tabSet_wf [DecidableEq α] {d : Nat → α} {t : Tab α} (k : Nat) (v : α) (h : tabWf d t = true) :
    tabWf d (tabSet d t k v) = true := by
  have hdel : tabWf d (tabDel k t) = true := tabWf_filter _ h
  by_cases hv : v = d k
  · simpa [tabSet_eq, hv] using hdel
  · simp only [tabSet_eq, hv, if_false]
    rw [tabWf_iff] at *
    refine ⟨tabPut_rising hdel.1 (fun p hp => (mem_tabDel.1 hp).2), ?_⟩
    intro p hp
    rcases mem_tabPut.1 hp with rfl | hp
    · exact hv
    · exact hdel.2 p hp

/-- Clearing a range keeps the canonical form. -/
theorem tabClear_wf [DecidableEq α] {d : Nat → α} {t : Tab α} (lo hi : Nat) (h : tabWf d t = true) :
    tabWf d (tabClear t lo hi) = true := tabWf_filter _ h

/-- Setting a run of keys keeps the canonical form. -/
theorem tabSetList_wf [DecidableEq α] {d : Nat → α} (vs : List α) : ∀ {t : Tab α} (k : Nat), tabWf d t = true →
    tabWf d (tabSetList d t k vs) = true := by
  induction vs with
  | nil => intro t k h; exact h
  | cons v vs ih => intro t k h; exact ih (k + 1) (tabSet_wf k v h)

theorem tabWf_nil [DecidableEq α] (d : Nat → α) : tabWf d ([] : Tab α) = true := by simp [tabWf]

end Sys2Proof.Machine
end

