-- ==== Sys2Proof/Laws/Ops.lean ====
section
/-! SUPPORT. The shared operations over registers, cores and memories: what a read gives after a write, and that every memory
operation keeps the canonical form. -/

namespace Sys2Proof.Machine

/-! ### Registers -/

@[simp] theorem State.rd_wr_self (s : State) (w : Win) (o : Nat) (v : Word32) : (s.wr w o v).rd w o = v :=
  tabGet_tabSet_self _ _ _ _

theorem State.rd_wr_other (s : State) (w x : Win) (o p : Nat) (v : Word32) (h : regKey x p ≠ regKey w o) :
    (s.wr w o v).rd x p = s.rd x p := tabGet_tabSet_other _ _ _ h

/-- A write of a register, read at any register. -/
theorem State.rd_wr (s : State) (w x : Win) (o p : Nat) (v : Word32) :
    (s.wr w o v).rd x p = if regKey x p = regKey w o then v else s.rd x p := tabGet_tabSet _ _ _ _ _

/-- A register keyed k after a write. -/
theorem State.regs_wr (s : State) (w : Win) (o : Nat) (v : Word32) (k : Nat) :
    tabGet regReset (s.wr w o v).regs k = if k = regKey w o then v else tabGet regReset s.regs k := tabGet_tabSet _ _ _ _ _

theorem State.wr_wf (s : State) (w : Win) (o : Nat) (v : Word32) (h : tabWf regReset s.regs = true) :
    tabWf regReset (s.wr w o v).regs = true := tabSet_wf _ _ h

/-! ### Cores -/

@[simp] theorem State.core_setCore_self (s : State) (c : CoreId) (k : CoreSt) : (s.setCore c k).core c = k :=
  tabGet_tabSet_self _ _ _ _

theorem State.core_setCore_other (s : State) (c d : CoreId) (k : CoreSt) (h : coreKey d ≠ coreKey c) :
    (s.setCore c k).core d = s.core d := tabGet_tabSet_other _ _ _ h

@[simp] theorem State.core_onCore_self (s : State) (c : CoreId) (f : CoreSt → CoreSt) : (s.onCore c f).core c = f (s.core c) :=
  State.core_setCore_self _ _ _

theorem State.core_onCore_other (s : State) (c d : CoreId) (f : CoreSt → CoreSt) (h : coreKey d ≠ coreKey c) :
    (s.onCore c f).core d = s.core d := State.core_setCore_other _ _ _ _ h

@[simp] theorem State.core_wr (s : State) (w : Win) (o : Nat) (v : Word32) (c : CoreId) : (s.wr w o v).core c = s.core c := rfl
@[simp] theorem State.rd_setCore (s : State) (c : CoreId) (k : CoreSt) (w : Win) (o : Nat) : (s.setCore c k).rd w o = s.rd w o :=
  rfl
@[simp] theorem State.rd_onCore (s : State) (c : CoreId) (f : CoreSt → CoreSt) (w : Win) (o : Nat) :
    (s.onCore c f).rd w o = s.rd w o := rfl

/-- S0 reads zero whatever is written (R57). -/
@[simp] theorem CoreSt.setS_zero (k : CoreSt) (v : Word64) : k.setS 0 v = k := rfl
@[simp] theorem CoreSt.s_zero (k : CoreSt) : k.s 0 = 0 := rfl
theorem CoreSt.s_setS_self (k : CoreSt) (i : Nat) (v : Word64) (h : i ≠ 0) : (k.setS i v).s i = v := by
  simp only [CoreSt.s, CoreSt.setS, h, if_false]
  exact tabGet_tabSet_self _ _ _ _
theorem CoreSt.s_setS_other (k : CoreSt) (i j : Nat) (v : Word64) (h : j ≠ i) : (k.setS i v).s j = k.s j := by
  by_cases hi : i = 0
  · simp [CoreSt.setS, hi]
  · by_cases hj : j = 0
    · simp [CoreSt.s, hj]
    · simp only [CoreSt.s, CoreSt.setS, hi, hj, if_false]
      exact tabGet_tabSet_other _ _ _ h
@[simp] theorem CoreSt.a_setA_self (k : CoreSt) (i : Nat) (v : Addr) : (k.setA i v).a i = v := tabGet_tabSet_self _ _ _ _
theorem CoreSt.a_setA_other (k : CoreSt) (i j : Nat) (v : Addr) (h : j ≠ i) : (k.setA i v).a j = k.a j :=
  tabGet_tabSet_other _ _ _ h
@[simp] theorem CoreSt.v_setV_self (k : CoreSt) (i : Nat) (v : BitVec 2048) : (k.setV i v).v i = v := tabGet_tabSet_self _ _ _ _
theorem CoreSt.v_setV_other (k : CoreSt) (i j : Nat) (v : BitVec 2048) (h : j ≠ i) : (k.setV i v).v j = k.v j :=
  tabGet_tabSet_other _ _ _ h

/-! ### Memories -/

/-- A slice whose tester redirects no row is written where its bytes stand. -/
theorem State.sliceSet_sram (s : State) (c : CoreId) (o : Nat) (bs : List Byte) (hr : (s.bistOf c).redirect = none) :
    (s.sliceSet c o bs).sram = tabSetList byteReset s.sram (sliceKey c o) bs := by
  simp [State.sliceSet, hr]

/-- A byte of a slice after a write to the slice. -/
theorem State.sliceSet_outside (s : State) (c : CoreId) (o : Nat) (bs : List Byte) (k : Nat) (hr : (s.bistOf c).redirect = none)
    (h : k < sliceKey c o ∨ sliceKey c o + bs.length ≤ k) :
    tabGet byteReset (s.sliceSet c o bs).sram k = tabGet byteReset s.sram k := by
  rw [State.sliceSet_sram s c o bs hr, tabGet_tabSetList_outside _ _ _ _ _ h]

theorem State.sliceSet_inside (s : State) (c : CoreId) (o : Nat) (bs : List Byte) (i : Nat) (hr : (s.bistOf c).redirect = none)
    (h : i < bs.length) : tabGet byteReset (s.sliceSet c o bs).sram (sliceKey c o + i) = bs[i] := by
  rw [State.sliceSet_sram s c o bs hr, tabGet_tabSetList_inside _ _ _ _ _ h]

theorem foldl_tabSet_wf (key : Nat → Nat) : ∀ (l : List (Byte × Nat)) {t : List Host.Cell}, tabWf byteReset t = true →
    tabWf byteReset (l.foldl (fun t p => tabSet byteReset t (key p.2) p.1) t) = true := by
  intro l
  induction l with
  | nil => intro t h; exact h
  | cons p l ih => intro t h; exact ih (tabSet_wf _ _ h)

theorem State.sliceSet_wf (s : State) (c : CoreId) (o : Nat) (bs : List Byte) (h : tabWf byteReset s.sram = true) :
    tabWf byteReset (s.sliceSet c o bs).sram = true := by
  unfold State.sliceSet
  split
  · exact tabSetList_wf _ _ h
  · exact foldl_tabSet_wf (fun i => s.byteKey c (o + i)) _ h

theorem State.bufTake_wf (s : State) (c : CoreId) (w : Nat) (h : tabWf byteReset s.sram = true) :
    tabWf byteReset (s.bufTake c w).sram = true := by
  rw [State.bufTake]
  split_ifs
  · simp only [State.setBist]
    exact tabSetList_wf _ _ h
  · exact h

theorem State.accWrite_wf (s : State) (c : CoreId) (o : Nat) (bs : List Byte) (h : tabWf byteReset s.acc = true) :
    tabWf byteReset (s.accWrite c o bs).acc = true := tabSetList_wf _ _ h

theorem State.setAccRow_wf (s : State) (c : CoreId) (b r : Nat) (v : BitVec 2048) (h : tabWf byteReset s.acc = true) :
    tabWf byteReset (s.setAccRow c b r v).acc = true := State.accWrite_wf _ _ _ _ h

@[simp] theorem State.useFrames_hbm (s : State) (d : Dye) (n m : Nat) (up : Bool) : (s.useFrames d n up m).hbm = s.hbm := rfl
@[simp] theorem State.carry_hbm (s : State) (w : Win) (d : Dye) (n : Nat) : (s.carry w d n).hbm = s.hbm := rfl
@[simp] theorem State.carry_frames (s : State) (w : Win) (d : Dye) (n : Nat) : (s.carry w d n).frames = s.frames := rfl
@[simp] theorem State.hbmAwake_hbm (s : State) (h : Fin 8) : (s.hbmAwake h).hbm = s.hbm := by
  unfold State.hbmAwake; split <;> rfl
@[simp] theorem State.hbmAwake_frames (s : State) (h : Fin 8) : (s.hbmAwake h).frames = s.frames := by
  unfold State.hbmAwake; split <;> rfl
/-- An access of local HBM is carried and wakes its controller; neither touches the bytes or the frames. -/
@[simp] theorem State.hbmUse_hbm (s : State) (d : Dye) (o n : Nat) : (s.hbmUse d o n).hbm = s.hbm := by
  simp [State.hbmUse]
@[simp] theorem State.hbmUse_frames (s : State) (d : Dye) (o n : Nat) : (s.hbmUse d o n).frames = s.frames := by
  simp [State.hbmUse]

theorem State.freeFrame_hbm (s : State) (f : Nat) : (s.freeFrame f).hbm = tabClear s.hbm (f * 65536) ((f + 1) * 65536) := by
  rw [State.freeFrame]
  cases (s.frame f).held <;> rfl

theorem State.freeFrame_wf (s : State) (f : Nat) (h : tabWf byteReset s.hbm = true) :
    tabWf byteReset (s.freeFrame f).hbm = true := by
  rw [State.freeFrame_hbm]; exact tabClear_wf _ _ h

theorem State.hbmFresh_wf (s : State) (f g : Nat) (h : tabWf byteReset s.hbm = true) :
    tabWf byteReset (s.hbmFresh f g).hbm = true := by
  rw [State.hbmFresh]
  split_ifs
  · exact tabClear_wf _ _ h
  · exact tabSetList_wf _ _ h
  · exact h

theorem State.hbmWriteG_wf (s : State) (o : Nat) (bs : List Byte) (h : tabWf byteReset s.hbm = true) :
    tabWf byteReset (s.hbmWriteG o bs).hbm = true := by
  rw [State.hbmWriteG]
  split_ifs
  · exact h
  · exact tabSetList_wf _ _ (State.hbmFresh_wf _ _ _ h)

theorem State.hbmWriteF_wf (k : Nat) : ∀ (s : State) (o : Nat) (bs : List Byte), tabWf byteReset s.hbm = true →
    tabWf byteReset (s.hbmWriteF k o bs).hbm = true := by
  induction k with
  | zero => intro s o bs h; exact h
  | succ k ih =>
    intro s o bs h
    unfold State.hbmWriteF
    split
    · exact h
    · exact ih _ _ _ (State.hbmWriteG_wf _ _ _ (by simpa using h))

theorem State.hbmWrite_wf (s : State) (o : Nat) (bs : List Byte) (h : tabWf byteReset s.hbm = true) :
    tabWf byteReset (s.hbmWrite o bs).hbm = true := State.hbmWriteF_wf _ _ _ _ h

end Sys2Proof.Machine
end

