-- ==== Sys2Proof/Laws/Core.lean ====
section
/-! SUPPORT. Issue: the opcode that each format's word spells, and what one issue does when the word at the PC is the one named. -/

namespace Sys2Proof.Machine

/-! ### The opcode of a word (R58) -/

theorem opcode_of_sum (op r : Nat) (h : op < 256) : bitsOf (BitVec.ofNat 64 (op % 256 + r * 2 ^ 8)) 0 8 = op := by
  simp only [bitsOf, BitVec.toNat_ofNat]
  omega

theorem opcodeOf_encodeR (op : Nat) (w : RWord) (h : op < 256) : opcodeOf (encodeR op w) = op := by
  rw [opcodeOf, encodeR, headBits]
  convert opcode_of_sum op (w.p.toNat + b2n w.pneg * 2 ^ 3 + w.d.toNat * 2 ^ 4 + w.a.toNat * 2 ^ 9 + w.b.toNat * 2 ^ 14
    + w.c.toNat * 2 ^ 19 + w.fn.toNat * 2 ^ 24 + w.rsv.toNat * 2 ^ 32) h using 3
  omega

theorem opcodeOf_encodeI (op : Nat) (w : IWord) (h : op < 256) : opcodeOf (encodeI op w) = op := by
  rw [opcodeOf, encodeI, headBits]
  convert opcode_of_sum op (w.p.toNat + b2n w.pneg * 2 ^ 3 + w.d.toNat * 2 ^ 4 + w.a.toNat * 2 ^ 9 + w.rsv.toNat * 2 ^ 14
    + w.fn.toNat * 2 ^ 16 + w.imm.toNat * 2 ^ 24) h using 3
  omega

theorem opcodeOf_encodeM (op : Nat) (w : MWord) (h : op < 256) : opcodeOf (encodeM op w) = op := by
  rw [opcodeOf, encodeM, headBits]
  convert opcode_of_sum op (w.p.toNat + b2n w.pneg * 2 ^ 3 + w.as.toNat * 2 ^ 4 + w.bank.toNat * 2 ^ 8 + b2n w.wb * 2 ^ 11
    + b2n w.accum * 2 ^ 12 + w.row0.toNat * 2 ^ 13 + w.mrows.toNat * 2 ^ 20 + b2n w.rsv35 * 2 ^ 27 + w.fmt.toNat * 2 ^ 28
    + w.rsv.toNat * 2 ^ 32) h using 3
  omega

theorem opcodeOf_encodeX (op : Nat) (w : XWord) (h : op < 256) : opcodeOf (encodeX op w) = op := by
  rw [opcodeOf, encodeX, headBits]
  convert opcode_of_sum op (w.p.toNat + b2n w.pneg * 2 ^ 3 + w.ad.toNat * 2 ^ 4 + w.as.toNat * 2 ^ 8 + w.sa.toNat * 2 ^ 12
    + w.sb.toNat * 2 ^ 17 + w.n.toNat * 2 ^ 22 + w.rsv.toNat * 2 ^ 26 + w.fn.toNat * 2 ^ 32 + w.imm16.toNat * 2 ^ 40) h using 3
  omega

theorem opcodeOf_encodeB (op : Nat) (w : BWord) (h : op < 256) : opcodeOf (encodeB op w) = op := by
  rw [opcodeOf, encodeB, headBits]
  convert opcode_of_sum op (w.p.toNat + b2n w.pneg * 2 ^ 3 + w.sa.toNat * 2 ^ 4 + w.rsv.toNat * 2 ^ 9 + w.imm.toNat * 2 ^ 24) h
    using 3
  omega

/-! ### One issue -/

/-- A legal word at the PC whose predicate holds: the instruction's own effect. -/
theorem State.issue_runs (s : State) (c : CoreId) (x : Word64) (num : Nat) (p : BitVec 3) (pneg : Bool) (body : State → State)
    (hi : (s.core c).canIssue = true) (hx : (s.core c).istore[(s.core c).pc]? = some x)
    (hp : (s.core c).predicate p pneg = true) (ho : opDefined (opcodeOf x) = true) :
    s.issue c x 0 num p pneg body = body s := by
  simp [State.issue, hi, hx, hp, ho]

/-- A legal word at the PC whose predicate fails: the PC moves on (R58). -/
theorem State.issue_skips (s : State) (c : CoreId) (x : Word64) (num : Nat) (p : BitVec 3) (pneg : Bool) (body : State → State)
    (hi : (s.core c).canIssue = true) (hx : (s.core c).istore[(s.core c).pc]? = some x)
    (hp : (s.core c).predicate p pneg = false) (ho : opDefined (opcodeOf x) = true) :
    s.issue c x 0 num p pneg body = s.onCore c CoreSt.advance := by
  simp [State.issue, hi, hx, hp, ho]

/-- An illegal word at the PC: the fault that the check names (R58, R86). -/
theorem State.issue_illegal (s : State) (c : CoreId) (x : Word64) (code num : Nat) (p : BitVec 3) (pneg : Bool)
    (body : State → State) (hi : (s.core c).canIssue = true) (hx : (s.core c).istore[(s.core c).pc]? = some x)
    (ho : opDefined (opcodeOf x) = true) (hc : code ≠ 0) :
    s.issue c x code num p pneg body = s.faultHere c code num (opcodeOf x) := by
  simp [State.issue, hi, hx, ho, hc]

/-- A core that cannot issue: nothing happens. -/
theorem State.issue_waits (s : State) (c : CoreId) (x : Word64) (code num : Nat) (p : BitVec 3) (pneg : Bool)
    (body : State → State) (hi : (s.core c).canIssue = false) : s.issue c x code num p pneg body = s := by
  simp [State.issue, hi]

/-! ### An effect on one core -/

theorem State.retire_core_self (s : State) (c : CoreId) (f : CoreSt → CoreSt) : (s.retire c f).core c = (f (s.core c)).advance :=
  State.core_onCore_self _ _ _

theorem State.retire_core_other (s : State) (c d : CoreId) (f : CoreSt → CoreSt) (h : coreKey d ≠ coreKey c) :
    (s.retire c f).core d = s.core d := State.core_onCore_other _ _ _ _ h

/-- The PC's move touches the PC and the loop stack alone. -/
theorem CoreSt.advance_frame (k : CoreSt) : k.advance = { k with pc := k.advance.pc, loops := k.advance.loops } := rfl

/-! ### Clean reads of a slice (R101) -/

theorem State.eccReads_clean (c : CoreId) : ∀ (ws : List Nat) (s : State),
    (∀ w ∈ ws, s.errAt c w = 0 ∧ s.injAims c w = false) → s.eccReads c ws = ((ws.map (fun w => (w, 0)), false), s) := by
  intro ws
  induction ws with
  | nil => intro s _; rfl
  | cons w ws ih =>
    intro s h
    have h0 : s.eccRead c w = ((0, false), s) := by simp [State.eccRead, State.eccSee, h w (by simp)]
    simp [State.eccReads, h0, ih s (fun v hv => h v (by simp [hv]))]

/-- A read of words without errors returns the stored bytes and changes nothing. -/
theorem State.sliceRead_clean (s : State) (c : CoreId) (o n : Nat)
    (h : ∀ w ∈ wordsOf o n, s.errAt c w = 0 ∧ s.injAims c w = false) :
    s.sliceRead c o n = ((s.sliceRaw c o n, false), s) := by
  simp [State.sliceRead, State.eccReads_clean c _ s h]

/-- Where nothing waits for a bank of the slice, an access meets nothing (R93, R103). -/
theorem State.bankWin_free (s : State) (c : CoreId) (i rank : Nat) (ws : List Nat) (h : ∀ r ∈ s.bankQ, r.core ≠ c) :
    s.bankWin c i rank ws = s := by
  have h0 : s.bankQ.any (fun r => r.core == c) = false := by simpa using h
  simp [State.bankWin, h0]

theorem State.bankRest_free (s : State) (c : CoreId) (ws : List Nat) (h : ∀ r ∈ s.bankQ, r.core ≠ c) : s.bankRest c ws = s := by
  have h0 : s.bankQ.any (fun r => r.core == c) = false := by simpa using h
  simp [State.bankRest, h0]

/-- A master's read of clean words in a slice that nothing waits for: the stored bytes, and no change. -/
theorem State.portRead_clean (s : State) (c : CoreId) (i o n : Nat) (hq : ∀ r ∈ s.bankQ, r.core ≠ c)
    (h : ∀ w ∈ wordsOf o n, s.errAt c w = 0 ∧ s.injAims c w = false) :
    s.portRead c i o n = ((s.sliceRaw c o n, false), s) := by
  simp [State.portRead, State.bankWin_free s c i 0 _ hq, State.sliceRead_clean s c o n h, State.bankRest_free s c _ hq]

end Sys2Proof.Machine
end

