-- ==== Sys2Proof/Tests/Slice0.lean ====
section
/-! SUPPORT. Tests by decide: well-formedness, words of tile programs, worked examples of the spec, and, for every statement with
hypotheses, a state and operands that meet them. -/

/-! ### Small states -/

set_option Elab.async false

namespace Sys2Proof.Tests
open Sys2Proof Sys2Proof.Machine

def c0 : CoreId := ⟨0, 0⟩
/-- Core 0 of region 0 stands at the one word of its program. -/
def runs (x : Word64) (k : CoreSt := {}) : State :=
  { State.reset with cores := [(0, { k with run := .running, istore := [x] })] }
/-- Region 0 is Active, and window 0 of its core 0 opens the whole slice to every master. -/
def act (s : State) : State :=
  (List.range 10).foldl (fun (t : State) j => t.wr (.spd 0) (SPD_MACC + 4 * j) 0xFFFFFF)
    ((s.wr .pwr PWR_RGN_STATUS 0).wr (.spd 0) SPD_WIN 0x80080000)
/-- The key slots of every HBM controller are loaded. -/
def keysOn (s : State) : State := (List.finRange 8).foldl (fun (t : State) k => t.wr (.hbm k) HBM_KEYSLOTS 0xFFFF) s
def fill (n : Nat) : List Byte := List.replicate n 0

/-! ### The queue -/

/-- A command in front of another is the one that a step takes. -/
theorem test_step_takes_the_front :
    (match step { State.reset with pending := [.perstN, .vinLoss] } with
      | .next t => decide (t.perstN = false ∧ t.vin = true ∧ t.pending = [.vinLoss])
      | _ => false) = true := by decide +kernel
theorem test_empty_queue_ticks : (match step State.reset with | .next t => decide (t.now = 40) | _ => false) = true := by decide +kernel
theorem wit_StepTakesTheFrontCommand : ({ State.reset with pending := [.perstN] } : State).pending = .perstN :: [] ∧
    State.reset.pending = [] := by decide
theorem wit_StepKeepsMemoryWf : Memory.wf State.reset = true ∧
    (match step State.reset with | .next _ => true | _ => false) = true := by decide +kernel

/-! ### Well-formedness refuses -/

def sample (j h o : Nat) : SensorSample := ⟨List.replicate j 0, List.replicate h 0, List.replicate o 0⟩
theorem test_wf_sample : (Instr.thermalSample (sample 16 8 6)).wf = true := by decide
theorem test_wf_sample_short : (Instr.thermalSample (sample 15 8 6)).wf = false := by decide
theorem test_wf_sample_hbm : (Instr.thermalSample (sample 16 9 6)).wf = false := by decide
theorem test_wf_sample_optic : (Instr.thermalSample (sample 16 8 5)).wf = false := by decide
theorem test_wf_link_packet : (Instr.messagePacket { type := 0, dye := 1, srcSlot := 0, dstSlot := 1, payload := fill 4097 }).wf = false := by
  decide +kernel
theorem test_wf_fabric_packet : (Instr.fabricWrite { op := 2, dye := 1, srcSlot := 0, dstSlot := 1, payload := fill 4097 }).wf = false := by
  decide +kernel
theorem test_wf_quote_short : (Instr.quoteDone 1 (fill 95)).wf = false := by decide +kernel
theorem test_wf_quote : (Instr.quoteDone 1 (fill 96)).wf = true := by decide +kernel

/-! ### Images -/

def img (d : Dye) (bs : List SectionBody) : Image :=
  { kind := 1, dye := d, generation := 1, length := 0, keyDigest := 0, digest := 0,
    sections := bs.map (fun b => { type := 0, offset := 0, len := 0, body := b }) }
def entry (mode : BitVec 2) (ps : List PackageRec) : PartEntry :=
  { dye := 1, mode := mode, elastic := false, rgnMin := 1, rgnMax := 1, priority := 0, share := 1, minT := [], imageKey := 0, packages := ps }
/-- This package (slot 63) serves dye 1 with region 0, as its only package. -/
def served (bs : List SectionBody := []) (mode : BitVec 2 := 0) : State :=
  { State.reset with sysImage := some (img 0 [.partitions [entry mode [{ slot := 63, regions := [0] }]]]),
                     images := [(1, some (img 1 bs))], regs := [(regKey (.rgn 0) RGN_OWNER, 1)] }

/-! ### Words of tile programs, written out from Tables 3-3 to 3-5 -/

theorem wit_WordsRoundTrip : wordOf (.add c0 { d := 31, a := 1, b := 2 }) = some (c0, 0x83F001) ∧
    instrOf c0 0x83F001 = some (.add c0 { d := 31, a := 1, b := 2 }) := by decide +kernel
/-- Format R: SUB, D in bits 12 to 16, A in 17 to 21, B in 22 to 26, under P5 inverted (bits 8 to 10, and 11). -/
theorem test_word_R : instrOf c0 0xC05D02 = some (.sub c0 { p := 5, pneg := true, d := 5, a := 0, b := 3 }) := by decide +kernel
/-- Format I: ADDI, FN in bits 24 to 31, IMM in 32 to 63. -/
theorem test_word_I : instrOf c0 0xFFFFFFFF00041006 = some (.addi c0 { d := 1, a := 2, imm := 0xFFFFFFFF }) := by decide +kernel
/-- Format M: MMA, AS in bits 12 to 15, BANK in 16 to 18, WB 19, ACCUM 20, ROW0 in 21 to 27, MROWS in 28 to 34, FMT in 36 to 39. -/
theorem test_word_M : instrOf c0 0x87FFFDA031 = some (.mma c0 {
      as := 10, bank := 5, wb := true, accum := true, row0 := 127, mrows := 127, fmt := 8 }) := by decide +kernel
/-- Format X: DMA, AD in bits 12 to 15, AS in 16 to 19, SA in 20 to 24, SB in 25 to 29, N in 30 to 33, FN in 40 to 47. -/
theorem test_word_X : instrOf c0 0x000001C402F21040 = some (.dma c0 { ad := 1, as := 2, sa := 15, sb := 1, n := 0, rsv := 0x31, fn := 1 }) := by
  decide +kernel
/-- Format X: FENCE with IMM16 in bits 48 to 63. -/
theorem test_word_fence : instrOf c0 0x0007000000000064 = some (.fence c0 { imm16 := 7 }) := by decide +kernel
/-- Format B: BR back by two words, IMM in bits 32 to 63; LOOP names its count in bits 12 to 16. -/
theorem test_word_B : instrOf c0 0xFFFFFFFE00000070 = some (.br c0 { imm := 0xFFFFFFFE }) ∧
    instrOf c0 0x0000000300007071 = some (.loop c0 { sa := 7, imm := 3 }) := by decide +kernel
/-- An opcode that Table 3-5 does not list. -/
theorem test_word_none : instrOf c0 0x0E = none ∧ instrOf c0 0x74 = none ∧ instrOf c0 0xFF = none := by decide +kernel

/-! ### States that meet the statements' hypotheses: registers (chapters 0, 1, 13) -/

theorem noneBlocked_of (s : State) (h : s.cores.all (fun e => e.2.blocked.isNone) = true) : NoneBlocked s := by
  intro d
  have : ∀ (t : Tab CoreSt), t.all (fun e => e.2.blocked.isNone) = true → (tabGet coreReset t (coreKey d)).blocked = none := by
    intro t
    induction t with
    | nil => intro _; rfl
    | cons p t ih =>
      intro h
      simp only [List.all_cons, Bool.and_eq_true] at h
      simp only [tabGet]
      split
      · simpa using h.1
      · exact ih h.2
  exact this _ h

/-- A region owned by dye 1 as its ordinal 0. -/
def owned (s : State) : State := s.wr (.rgn 0) RGN_OWNER 1
theorem wit_RegisterAccessResults :
    (let s := State.reset
     let m := Master.nightPorter
     s.place (s.dyeOf m) (0xC0070018 : Addr).toNat = .regs 0x70018 ∧ s.regAt (s.dyeOf m) 0x70018 = .at .inj INJ_PATTERN ∧
     s.writeReach m .inj INJ_PATTERN = .ok ∧ w1cMask .inj INJ_PATTERN = 0 ∧ rwMask .inj INJ_PATTERN = some 0xFFFFFFFF ∧
     s.mayStore .inj INJ_PATTERN = true ∧ ¬(Win.inj = .ldg ∧ INJ_PATTERN = LDG_ALERT_LVL)) ∧
    (let s := State.reset
     s.place 0 (0xC0170000 : Addr).toNat = .regs 0x170000 ∧ s.regAt 0 0x170000 = .hole) ∧
    (let s := State.reset
     s.dyeOf (.vf 1) = 1 ∧ s.place 1 (0xC0070018 : Addr).toNat = .regs 0x70018 ∧ s.regAt 1 0x70018 = .at .inj INJ_PATTERN ∧
     s.writeReach (.vf 1) .inj INJ_PATTERN = .error) := by decide +kernel
theorem wit_Bar2Results :
    (let s := (owned State.reset).wr (.vf 1) PCI_VF_APERTURE_L 0xC4000000
     let a := ((s.rd64 (.vf 1) PCI_VF_APERTURE_L).toNat + (0x3003C : BitVec 24).toNat) % 2 ^ 64
     s.hostUp = true ∧ a % 64 = 60 ∧ a < 2 ^ 48 ∧ s.place 1 a = .regs 0x403003C ∧ s.regAt 1 0x403003C = .at (.spd 0) 0x3C ∧
     s.readReach (.vf 1) (.spd 0) 0x3C = .ok ∧ Win.spd 0 ≠ .cnt ∧ paged (.spd 0) = false ∧ Win.spd 0 ≠ .ldg) ∧
    (let s := (State.reset.wr (.vf 1) PCI_VF_APERTURE_H 0x100).setFrame 0 { state := 1, owner := 1 }
     s.hostUp = true ∧ ((s.rd64 (.vf 1) PCI_VF_APERTURE_L).toNat + (0x3C : BitVec 24).toNat) % 2 ^ 64 = 0x1000000003C ∧
     s.place 1 0x1000000003C = .hbm 0x3C ∧ (s.write (.vf 1) 0x1000000003C [1, 2, 3, 4]).1 ≠ .refused) := by decide +kernel
theorem wit_ManagementWindowsAnswerOnlyTheManagementPartition :
    (let s := (State.reset.wr (.vf 15) PCI_VF_APERTURE_L 0xC008FFFC).wr (.vf 0) PCI_VF_APERTURE_L 0xC008FFFC
     s.dyeOf (.vf 15) = 15 ∧ s.dyeOf .nightPorter = 0 ∧ s.hostUp = true ∧
     (∀ d ∈ [(0 : Dye), 15], ((s.rd64 (.vf d) PCI_VF_APERTURE_L).toNat + (0 : BitVec 24).toNat) % 2 ^ 64 = 0xC008FFFC) ∧
     s.place 15 0xC008FFFC = .regs 0x8FFFC ∧ s.regAt 15 0x8FFFC = .at .tmx 0xFFFC ∧
     s.place 0 0xC00BFFFC = .regs 0xBFFFC ∧ s.regAt 0 0xBFFFC = .at .npt 0xFFFC ∧ s.regAt 0 0x70000 = .at .inj 0) := by decide +kernel

/-! ### The core (chapter 3) -/

theorem issues_of_all {l : List Word64} (h : (l.all fun x => decide (Issues (runs x) c0 x 0 false)) = true) :
    ∀ x ∈ l, Issues (runs x) c0 x 0 false := fun x hx => of_decide_eq_true (List.all_eq_true.mp h x hx)

theorem wit_ScalarResults : ∀ x ∈ [encodeR opNOP {}, encodeR opADD {}, encodeR opSUB {}, encodeR opMUL {}, encodeR opLOGIC {},
    encodeR opLOGIC { fn := 3 }, encodeR opSHIFT {}, encodeR opSHIFT { fn := 2 }, encodeI opADDI {}, encodeI opMOVI {},
    encodeI opMOVI { fn := 1 }], Issues (runs x) c0 x 0 false := issues_of_all (by decide +kernel)
theorem wit_ScalarResults_predicate : (let x := encodeR opADD { p := 1, pneg := true, d := 31, a := 31, b := 31 }
    Issues (runs x) c0 x 1 true) := by decide +kernel
/-- S0 (R57): a sum written to it is discarded, and it adds as 0. -/
theorem test_add_s0 : (match exec (.add c0 { d := 0, a := 1, b := 0 }) (runs (encodeR opADD { d := 0, a := 1 }) { sregs := [(1, 7)] }) with
    | .next t => decide ((t.core c0).s 0 = 0 ∧ (t.core c0).pc = 1)
    | _ => false) = true := by decide +kernel
/-- Addition wraps modulo 2^64, with the destination also a source (Table 3-5). -/
theorem test_add_wraps : (match exec (.add c0 { d := 1, a := 1, b := 1 }) (runs (encodeR opADD { d := 1, a := 1, b := 1 })
    { sregs := [(1, 0x8000000000000001)] }) with
    | .next t => decide ((t.core c0).s 1 = 2)
    | _ => false) = true := by decide +kernel
theorem test_shift_arith : (match exec (.shift c0 { d := 1, a := 1, b := 2, fn := 2 })
    (runs (encodeR opSHIFT { d := 1, a := 1, b := 2, fn := 2 }) { sregs := [(1, 0x8000000000000000), (2, 63)] }) with
    | .next t => decide ((t.core c0).s 1 = 0xFFFFFFFFFFFFFFFF)
    | _ => false) = true := by decide +kernel
theorem wit_PredicateAndAddressResults : ∀ x ∈ [encodeR opCMP { d := 1 }, encodeR opCMP { d := 7, fn := 5 }, encodeI opCMPI { d := 7 },
    encodeI opCMPI { d := 7, fn := 5 }, encodeR opPLOG { d := 7, a := 7, b := 7 }, encodeR opPLOG { d := 1, fn := 3 },
    encodeR opAMOV { d := 15 }, encodeR opAADD { d := 15, a := 15, b := 31, fn := 7 }, encodeI opAADDI { d := 15, a := 15 },
    encodeR opARD { d := 31, a := 15 }, encodeI opRDSR { d := 31, imm := 1 }, encodeI opRDSR { d := 1, imm := 5 }],
    Issues (runs x) c0 x 0 false := issues_of_all (by decide +kernel)
theorem wit_PredicateAndAddressResults_counter : (let x := encodeI opRDSR { d := 1 }
    Issues (runs x) c0 x 0 false ∧ (runs x).lastRdsr ≤ (runs x).now + 2) := by decide +kernel
theorem wit_SliceLoadsAndStores :
    (let x := encodeI opLDS { imm := 0x1FFFF8 }
     let s := act (runs x)
     QuietSlice s c0 ∧ Issues s c0 x 0 false ∧ s.ownOfs c0 ((s.core c0).a 0 + (0x1FFFF8 : BitVec 32).signExtend 48) 8 8 = some 0x1FFFF8 ∧
     CleanWords s c0 0x1FFFF8 8 ∧ s.sliceOk c0 1 0 0x1FFFF8 8 = true ∧ s.sliceOk c0 1 1 0x1FFFF8 8 = true) ∧
    (let x := encodeI opSTS { imm := 0x1FFFF8 }
     let s := act (runs x)
     QuietSlice s c0 ∧ Issues s c0 x 0 false ∧ s.ownOfs c0 ((s.core c0).a 0 + (0x1FFFF8 : BitVec 32).signExtend 48) 8 8 = some 0x1FFFF8 ∧
     CleanWords s c0 0x1FFFF8 8 ∧ s.sliceOk c0 1 0 0x1FFFF8 8 = true ∧ s.sliceOk c0 1 1 0x1FFFF8 8 = true) ∧
    (let x := encodeI opVLD { imm := 0x1FFF00 }
     let s := act (runs x)
     QuietSlice s c0 ∧ Issues s c0 x 0 false ∧ s.ownOfs c0 ((s.core c0).a 0 + (0x1FFF00 : BitVec 32).signExtend 48) 256 32 = some 0x1FFF00 ∧
     CleanWords s c0 0x1FFF00 256 ∧ s.sliceOk c0 1 0 0x1FFF00 256 = true ∧ s.sliceOk c0 1 1 0x1FFF00 256 = true) ∧
    (let x := encodeI opVST { imm := 0x1FFF00 }
     let s := act (runs x)
     QuietSlice s c0 ∧ Issues s c0 x 0 false ∧ s.ownOfs c0 ((s.core c0).a 0 + (0x1FFF00 : BitVec 32).signExtend 48) 256 32 = some 0x1FFF00 ∧
     CleanWords s c0 0x1FFF00 256 ∧ s.sliceOk c0 1 0 0x1FFF00 256 = true ∧ s.sliceOk c0 1 1 0x1FFF00 256 = true) := by decide +kernel
theorem wit_VectorResults : ∀ x ∈ [encodeR opVOP {}, encodeR opVOP { fn := 6 }, encodeR opVFMA { c := 31 }, encodeR opVFUNC { fn := 4 },
    encodeR opVRED { fn := 1 }, encodeR opVCVT { fn := 3 }, encodeR opVCVT { fn := 7, b := 31 }, encodeR opVQMX { fn := 5 },
    encodeR opVBCAST {}, encodeR opVBCAST { fn := 1, b := 31 }, encodeR opVTAIL { b := 31 }], Issues (runs x) c0 x 0 false :=
  issues_of_all (by decide +kernel)
theorem wit_MatrixResults :
    (let x := encodeR opVACC { a := 7, b := 1 }
     let s := runs x { sregs := [(1, 127)] }
     ((s.core c0).s 1).toNat = 127 ∧ (s.core c0).mmaInto 7 = false ∧ Issues s c0 x 0 false) ∧
    (let x := encodeR opVACC { a := 7, b := 1, fn := 2 }
     let s := runs x { sregs := [(1, 127)] }
     ((s.core c0).s 1).toNat = 127 ∧ (s.core c0).mmaInto 7 = false ∧ Issues s c0 x 0 false) ∧
    (let x := encodeM opMLOAD { fmt := 9 }
     let s := act (runs x)
     s.ownOfs c0 ((s.core c0).a 0) (blockBytes 9) 32 = some 0 ∧ (s.core c0).mq.length < 4 ∧ Issues s c0 x 0 false) ∧
    (let x := encodeM opMMA { row0 := 127, fmt := 8 }
     let s := act (runs x { wb0 := { issued := some 8 } })
     ((s.core c0).wbuf false).issued = some 8 ∧ pairOk 8 8 = true ∧
     s.ownOfs c0 ((s.core c0).a 0) (streamBytes (blockK 8) 8 1) 32 = some 0 ∧ s.dmaOnBank c0 0 = false ∧ Issues s c0 x 0 false) ∧
    (let s := act { State.reset with cores := [(0, { mq := [MOp.mload true 8 0 0] })] }
     (s.core c0).mq = MOp.mload true 8 0 0 :: [] ∧ (s.core c0).blocked = none ∧ s.sliceOk c0 2 0 0 (blockBytes 8) = true ∧
     CleanWords s c0 0 (blockBytes 8) ∧ QuietSlice s c0) ∧
    (let s := act { State.reset with cores := [(0, { mq := [MOp.mma true 8 0 7 false 126 2 0 0], wb1 := { fmt := 8 } })] }
     (s.core c0).mq = MOp.mma true 8 0 7 false 126 2 0 0 :: [] ∧ fmtMx 8 = false ∧
     s.sliceOk c0 2 0 0 (recBytes (blockK ((s.core c0).wbuf true).fmt) 8) = true ∧
     CleanWords s c0 0 (recBytes (blockK ((s.core c0).wbuf true).fmt) 8) ∧ QuietSlice s c0) := by decide +kernel
/-- A transfer in progress. -/
def xfer (send : Bool) : Xfer := { send := send, num := 7, src := 0, bytes := 32, pc := 0, started := true }
theorem wit_DmaResults :
    (let x := encodeX opDMA { n := 7 }
     Issues (runs x) c0 x 0 false ∧ (dmaXfer ((runs x).core c0) { n := 7 }).bytes = 0) ∧
    (let w : XWord := { ad := 1, sa := 1, n := 7 }
     let x := encodeX opDMA w
     let s := act (runs x { sregs := [(1, 32)], aregs := [(1, 64)], xq := [xfer false] })
     let y := dmaXfer (s.core c0) w
     Issues s c0 x 0 false ∧ y.bytes ≠ 0 ∧ s.dmaReach c0 y = true ∧ s.dmaFar c0 y = false ∧ (s.core c0).xq = xfer false :: []) ∧
    (let s := act { State.reset with cores := [(0, { run := .running, xq := [xfer false] })] }
     let r := s.copyRows c0 (xfer false) 1 0 []
     (s.core c0).xq = [xfer false] ∧ (∀ b < 8, (s.core c0).mmaInto b = false) ∧
     (s.cores.all (fun e => e.2.blocked.isNone)) = true ∧ (s.core c0).quiet = false ∧ (s.core c0).refusedSends = [] ∧
     r.1 = (false, false) ∧ r.2.cores.all (fun e => e.2.blocked.isNone) = true ∧ (r.2.core c0).refusedSends = []) ∧
    (let x := encodeX opDWAIT { imm16 := 0xFF }
     Issues (runs x) c0 x 0 false ∧ ((runs x).core c0).xq = [] ∧ ((runs x).core c0).errTags = 0) := by decide +kernel
/-- Dye 1's region 0 is Active with cores 0 and 1 whose windows are open; core 0 stands at the word x as k says, and core 1 is q. -/
def duo (x : Word64) (k : CoreSt) (q : CoreSt := {}) : State :=
  (act { served with cores := [(0, { k with run := .running, istore := [x] }), (1, q)] }).wr (.spd 0) (SPD_WIN + 0x20) 0x80080000
def c1 : CoreId := ⟨0, 1⟩
theorem wit_MessageResults :
    (let w : XWord := { sa := 1, n := 15 }
     let x := encodeX opSEND w
     let s := duo x { sregs := [(1, 32)], schan := [(15, 0x80000001)], credits := [(15, [{ num := 0, cap := 32, epoch := 0 }])],
                      xq := [xfer false] }
     let k := s.core c0
     Issues s c0 x 0 false ∧ bitOf (k.schanOf 15) 31 = true ∧ s.peerNamed c0 (k.schanOf 15) = true ∧
     (s.ownOfs c0 (k.a 0) 32 1).isSome = true ∧ k.creditFor 15 (natGet k.sends 15) = some { num := 0, cap := 32, epoch := 0 } ∧
     (k.s 1).toNat = 32 ∧ k.xq = xfer false :: []) ∧
    (let w : XWord := { sa := 1, n := 15 }
     let x := encodeX opRECV w
     let s := duo x { sregs := [(1, 32)], rchan := [(15, 0x800F0001)] }
     let k := s.core c0
     Issues s c0 x 0 false ∧ bitOf (k.rchanOf 15) 31 = true ∧ s.ownOfs c0 (k.a 0) 32 1 = some 0 ∧ (k.postedOf 15).length < 2 ∧
     natGet k.delivered 15 ≤ natGet k.posts 15 ∧ s.bindLocal c0 (k.rchanOf 15) = some c1 ∧ coreKey c1 ≠ coreKey c0 ∧
     (s.core c1).blocked = none ∧ (s.core c1).refusedSends = []) ∧
    (let x := encodeX opSWAIT { imm16 := 0xFFFF }
     let k := (runs x).core c0
     Issues (runs x) c0 x 0 false ∧ (∀ j < 16, k.sendBusy j = false) ∧ k.errSends = 0) ∧
    (let x := encodeX opRWAIT { sb := 31, n := 15 }
     let s := runs x { posted := [(15, [{ ofs := 0, cap := 32, seq := 0, filled := some 32 }])] }
     Issues s c0 x 0 false ∧ (s.core c0).postedOf 15 = { ofs := 0, cap := 32, seq := 0, filled := some 32 } :: []) ∧
    (let s := duo 0 { xq := [xfer true], schan := [(7, 0x800F0001)] } { posted := [(15, [{ ofs := 0, cap := 32, seq := 0 }])] }
     let y := xfer true
     let r := s.read (.transferEngine c0) y.src.toNat y.bytes
     let d := r.2.deliver c1 15 y.seq y.cepoch r.1.data
     (s.core c0).xq = [y] ∧ s.cores.all (fun e => e.2.blocked.isNone) = true ∧ (s.core c0).quiet = false ∧
     (s.core c0).refusedSends = [] ∧ s.sendTarget c0 y.num = some (c1, 15) ∧ r.1.refused = false ∧ r.1.poison = false ∧
     d.1 = .written ∧ d.2.cores.all (fun e => e.2.blocked.isNone) = true ∧ (d.2.core c0).refusedSends = []) := by decide +kernel

/-! ### Synchronisation and control (chapter 3) -/

theorem wit_SyncResults :
    (let x := encodeX opSEMSET { as := 1, sa := 1 }
     let s := act (runs x { aregs := [(1, 0x1FFFF8)], sregs := [(1, 5)] })
     let k := s.core c0
     Issues s c0 x 0 false ∧ s.place (s.owner 0) (k.a 1).toNat = .slice c0 0x1FFFF8 ∧ s.sliceOk c0 1 2 0x1FFFF8 8 = true ∧
     CleanWords s c0 0x1FFFF8 8 ∧ QuietSlice s c0) ∧
    (let x := encodeX opSEMCLR { as := 1, sa := 1 }
     let s := act (runs x { aregs := [(1, 0x1FFFF8)], sregs := [(1, 5)] })
     Issues s c0 x 0 false ∧ s.sliceOk c0 1 2 0x1FFFF8 8 = true) ∧
    (let x := encodeX opSEMWAIT { sa := 1, sb := 2 }
     let s := act (runs x { sregs := [(1, 5), (2, 2)] })
     let k := s.core c0
     Issues s c0 x 0 false ∧ s.ownOfs c0 (k.a 0) 8 8 = some 0 ∧ s.sliceOk c0 1 0 0 8 = true ∧ CleanWords s c0 0 8 ∧ QuietSlice s c0 ∧
     BitVec.ofNat 64 (leNat (s.sliceRaw c0 0 8)) &&& k.s 1 = k.s 2 &&& k.s 1) ∧
    (let x := encodeX opBARRIER { n := 15 }
     let s : State := { runs x { barid := [(15, 0x80000007)] } with
       images := [(0, some (img 0 [.groups [] [(7, [0])]]))], barriers := [(7, { gen := 1 })] }
     let k := s.core c0
     Issues s c0 x 0 false ∧ bitOf (k.baridOf 15) 31 = true ∧ bitsOf (k.baridOf 15) 0 12 = 7 ∧ s.owner 0 = 0 ∧
     (s.barrierMembers 0 7).contains (s.lcoord c0) = true ∧ natGet k.arrivals 15 < (s.bar 0 7).gen) ∧
    (let s : State := { served [.groups [] [(7, [0])]] with barriers := [(barKey 1 7, { arrived := [c0] })] }
     s.barrierLocal 1 7 ≠ [] ∧ s.barrierAllHere 1 7 = true ∧ s.barrierAllThere 1 7 = true ∧ s.cores = []) ∧
    (let x := encodeX opFENCE { imm16 := 0xF }
     let k := (runs x).core c0
     Issues (runs x) c0 x 0 false ∧ k.mq = [] ∧ (∀ n < 8, k.tagBusy n = false) ∧ (∀ n < 16, k.sendBusy n = false) ∧ k.errTags = 0 ∧
     k.errSends = 0) ∧
    (let x := encodeX opFENCE { imm16 := 2 }
     let s := runs x { xq := [{ send := false, num := 7, src := 0, bytes := 32, pc := 0 }] }
     let k := s.core c0
     Issues s c0 x 0 false ∧ k.tagBusy 7 = true ∧ k.stopPend = false ∧ s.groupOf c0 = [c0] ∧ k.run ≠ .faulted) ∧
    (let x := encodeX opFENCE {}
     Issues (runs x) c0 x 0 false) := by decide +kernel
theorem wit_ControlResults :
    (let x := encodeB opBR { imm := 0xFFFFFFFF }
     let s : State := { State.reset with cores := [(0, { run := .running, pc := 1, istore := [0, x] })] }
     Issues s c0 x 0 false ∧ (1 : Int) + (0xFFFFFFFF : BitVec 32).toInt = 0 ∧ (s.core c0).loops = []) ∧
    (let x := encodeB opLOOP { sa := 1, imm := 1 }
     let s : State := { State.reset with cores := [(0, { run := .running, istore := [x, 0], sregs := [(1, 1)], loops := [⟨0, 1, 1⟩] })] }
     Issues s c0 x 0 false ∧ (s.core c0).pc + 1 < (s.core c0).istore.length ∧ (s.core c0).loops.length < 4 ∧ (s.core c0).s 1 ≠ 0) ∧
    (let x := encodeB opTBOUND {}
     let k := (runs x).core c0
     Issues (runs x) c0 x 0 false ∧ k.mq = [] ∧ k.xq = [] ∧ k.sent = [] ∧ k.refusedSends = []) ∧
    (let x := encodeB opHALT {}
     Issues (runs x) c0 x 0 false) ∧
    (let s : State := { State.reset with cores := [(0, { run := .gate })] }
     let k := s.core c0
     k.run = .gate ∧ k.stopPend = false ∧ bitOf k.tgroup 31 = false ∧ s.held = [] ∧ k.remoteWait = false) ∧
    (let s : State := { State.reset with cores := [(0, { run := .running, tileLimit := 0 })] }
     let k := s.core c0
     k.run = .running ∧ k.stopPend = false ∧ k.abandoning = false ∧ bitOf k.tgroup 31 = false ∧
     k.tileLimit.toNat ≤ s.cyclesSince 0 k.tileAt) := by decide +kernel
theorem wit_ControlResults_posted : ∀ n, ∀ b ∈ ((runs (encodeB opHALT {})).core c0).postedOf n, b.filled.isSome = true :=
  fun _ _ h => absurd h List.not_mem_nil
/-- A branch below word 0 takes a loop fault (R60). -/
theorem test_branch_out : (match exec (.br c0 { imm := 0xFFFFFFFF }) (runs (encodeB opBR { imm := 0xFFFFFFFF })) with
    | .next t => decide ((t.core c0).run = .faulted ∧ (t.core c0).fault = 0x09)
    | _ => false) = true := by decide +kernel
theorem wit_CoreControlResults :
    (State.reset.core c0).run = .idle ∧
    (let s : State := { State.reset with cores := [(0, { run := .stopped })] }
     (s.core c0).run = .stopped) ∧
    (let s : State := { State.reset with cores := [(0, { run := .gate, tgroup := 0x80000001 }), (1, { run := .gate, tgroup := 0x80000001 })] }
     (s.core c0).run = .gate ∧ { c0 with pos := 1 } ∈ s.groupOf c0 ∧ (s.core { c0 with pos := 1 }).run = .gate ∧
     { c0 with pos := 2 } ∉ s.groupOf c0) ∧
    (let s : State := { State.reset with cores := [(0, { run := .faulted, fault := 1 })] }
     (s.core c0).run = .faulted) ∧
    (let s : State := { State.reset with cores := [(0, { run := .running, abandoning := true })] }
     (s.core c0).abandoning = true ∧ (s.core c0).xq = [] ∧
     s.cores.all (fun e => e.2.blocked.isNone) = true) ∧
    Master.nightPorter ≠ .regionController c0.region := by decide +kernel
theorem wit_FailedPredicateIsNop :
    (let x := encodeR opADD { p := 7 }
     let k := (runs x).core c0
     k.canIssue = true ∧ k.istore[k.pc]? = some x ∧ k.predicate 7 false = false) ∧
    (let x := encodeI opLDS { p := 0, pneg := true }
     let k := (runs x).core c0
     k.canIssue = true ∧ k.istore[k.pc]? = some x ∧ k.predicate 0 true = false) ∧
    (let x := encodeB opBR { p := 1 }
     let k := (runs x).core c0
     k.canIssue = true ∧ k.istore[k.pc]? = some x ∧ k.predicate 1 false = false) := by decide +kernel
theorem wit_IllegalWordsFault :
    (let k := (runs 0x0E).core c0
     k.canIssue = true ∧ bitOf k.tgroup 31 = false ∧ k.istore[k.pc]? = some 0x0E ∧ opDefined (opcodeOf 0x0E) = false) ∧
    (let k := (runs (encodeR opADD { rsv := 1 })).core c0
     k.canIssue = true ∧ k.istore[k.pc]? = some (encodeR opADD { rsv := 1 })) := by decide +kernel
theorem wit_CoreCtrlAcceptsOnlyTheRegionController :
    let s : State := { State.reset with cores := [(0, { run := .running })] }
    let m := Master.regionController c0.region
    Master.sequencer c0 ≠ m ∧ (∀ x ∈ [m, .sequencer c0], s.place (s.dyeOf x) (0xD0000004 : Addr).toNat = .regs 0x10000004) ∧
    s.regAt (s.dyeOf m) 0x10000004 = .at (.core c0) CORE_CTRL ∧ s.regAt (s.dyeOf (.sequencer c0)) 0x10000004 = .at (.core c0) CORE_CTRL := by
  decide +kernel

/-! ### The scratchpad (chapter 4) -/

theorem wit_BankResults :
    (let s := act State.reset
     s.place (s.dyeOf (.sequencer c0)) (0x1FFFF8 : Addr).toNat = .slice c0 0x1FFFF8 ∧ masterIndex (.sequencer c0) c0 = some 1 ∧
     s.sliceOk c0 1 (accKind (.bitSet 1)) 0x1FFFF8 (accBytes (.bitSet 1)) = true) ∧
    (let s : State := { act State.reset with bankQ := [{ core := c0, word := 31, first := 31, idx := 1, master := .sequencer c0, acc := .read 1 }] }
     bankOf (32 * 31) = 31 ∧ s.errAt c0 31 = 0 ∧ s.injAims c0 31 = false ∧ (s.bistOf c0).redirect = none ∧ s.cores = []) ∧
    wordKey c0 65535 ∈ ({ State.reset with writeBack := [65535] } : State).writeBack := by decide +kernel
theorem wit_WindowResults :
    State.reset.coresStill 0 = true ∧ winBad 0x80080000 = false ∧ State.reset.classRows ⟨0, 0⟩ 0x80080000 = [] ∧
    (let s : State := { State.reset with cores := [(0, { run := .running })] }
     s.coresStill 0 = false) ∧ Master.sequencer c0 ≠ .regionController 0 := by decide +kernel
theorem wit_ClearResults :
    (let v : Word32 := 0x03FFFF01
     bitOf v 0 = true ∧ bitOf v 1 = false ∧ bitOf v 26 = false ∧ bitsOf v 8 9 = 511 ∧ bitsOf v 17 9 = 511 ∧
     clrGet State.reset.clrPend 0 = none ∧ State.reset.coresIdle 0 = true) ∧
    (let c : Clear := { whole := false, core := some 63, first := 511, last := 511, cause := .request }
     let s : State := { State.reset with clrPend := [(0, some c)] }
     clrGet s.clrNow 0 = none ∧ clrGet s.clrPend 0 = some c ∧ s.bankQ = [] ∧ s.bist = []) ∧
    (let c : Clear := { whole := false, core := some 63, first := 511, last := 511, cause := .request }
     let s : State := { State.reset with clrNow := [(0, some c)] }
     clrGet s.clrNow 0 = some c ∧ c.first ≤ c.last ∧ c.last < 512 ∧ (s.bistOf ⟨0, 63⟩).redirect = none ∧ s.heldWins = []) := by decide +kernel
theorem wit_BackgroundTestResults :
    (let s := (act State.reset).wr (.spd 0) SPD_BIST_CTRL 1
     s.bit (.spd 0) SPD_BIST_CTRL 0 = true ∧ s.rgnActive 0 = true ∧ s.clearing 0 = false ∧ (s.bistOf c0).active = false ∧
     (s.bistOf c0).failed = none) ∧
    (let s : State := { act State.reset with bist := [(0, { row := 511, active := true })] }
     let b := s.bistOf c0
     b.active = true ∧ b.failed = none ∧ b.row < 512 ∧ s.rgnActive 0 = true) := by decide +kernel

/-! ### Pipelines (chapter 5) -/

/-- Region 0 is Active in a phase, with the queues and masks of a. -/
def atp0 (phase : Word32) (a : AtpSt) : State := (act { State.reset with atps := [(0, a)] }).wr (.atp 0) ATP_PHASE phase
theorem wit_PipelineRegisterResults :
    (let s := State.reset
     s.bit (.atp 0) ATP_STATUS 9 = false ∧ bitOf (1 : Word32) 0 = true ∧ s.atp 0 = {} ∧ (s.atp 0).dq.length < 4096 ∧
     (s.atp 0).aq.length < 1024 ∧ (s.atp 0).tq.length < 256 ∧ bitsOf (s.staged 0 .att) 0 4 ≠ 2 ∧ s.unitState 0 .tok ≠ 1) ∧
    (let s := State.reset.wr (.atp 0) ATP_DQW 2
     bitsOf (s.staged 0 .att) 0 4 = 2 ∧ bitOf (s.staged 0 .att) 14 = false ∧
     s.busyAt (s.owner 0) (bitsOf (s.staged 0 .att) 16 48) = false) ∧
    (let s := State.reset.wr (.atp 0) ATP_STATUS 0x3F
     s.bit (.atp 0) ATP_STATUS 9 = false ∧ s.unitState 0 .att = 3 ∧ s.unitState 0 .app = 3 ∧ s.unitState 0 .tok = 3) ∧
    (let s := State.reset.wr (.atp 0) ATP_STATUS 0x200
     s.bit (.atp 0) ATP_STATUS 9 = true) ∧ Master.nightPorter ≠ .regionController 0 := by decide +kernel
theorem wit_PipelineWorkResults_job :
    (let d : Word256 := 1
     let s := atp0 2 { dq := [d, 0x2012] }
     s.unitTakes 0 .att = true ∧ (s.atp 0).dq = d :: [0x2012] ∧ descType d = 1 ∧ jobRun [0x2012] = some ([0x2012], []) ∧
     (jobCheck (s.fld (.atp 0) ATP_CFG 16 14) (s.sessionLens (s.owner 0) (bitsOf d 32 16)) d [0x2012]).1 = 0) := by decide +kernel
theorem wit_PipelineWorkResults_merge :
    (let d : Word256 := 0x13
     let s : State := { (atp0 2 { dq := [d], masks := [(0, 3)] }).wr (.atp 0) ATP_LCLASS 0x80010101 with sram := [(258, 0x80), (259, 0xFF)] }
     let n := mergeOf d
     let c := s.lclass 0 n.lclass
     let s0 := s.setAtp 0 { (s.atp 0) with masks := natSet (s.atp 0).masks n.mergeId 0 }
     let p := s0.readPartials 0 n c.dv n.nsplit
     let outs := (List.range n.rows).map (fun i => rowOut 1 (mergedRow p.1.1 i))
     s.unitTakes 0 .att = true ∧ (s.atp 0).dq = d :: [] ∧ descType d = 3 ∧ mergeReserved d = false ∧
     natGet (s.atp 0).masks n.mergeId % 2 ^ n.nsplit = 2 ^ n.nsplit - 1 ∧ c.ok = true ∧ n.o % 256 = 0 ∧ n.part % 256 = 0 ∧
     s.tier0 (s.owner 0) n.o (n.rows * outStride c.dv) = true ∧
     s.tier0 (s.owner 0) n.part ((n.nsplit - 1) * n.stride * 256 + n.rows * (outStride c.dv + 8)) = true ∧
     p.1.2 = 0 ∧ (p.2.writeOutputs 0 n.o c.dv outs []).1 = .ok) := by decide +kernel
/-- An attention section whose layer 0 has one block of 32 channels, every scale 1. -/
def scales0 : SectionBody := .attention [] 1 [] [{ layer := 0, channels := 32, sideFmt := 0, sideScale := 0x3F800000, threshold := 0x7F000000, scales := List.replicate 32 0x3F800000 }]
/-- The page at 0x10000 of core 0's slice, with one block of channels and one token. -/
def pageAt (s : State) : State := { s with sram := [(0x1EA00, 0x56), (0x1EA01, 0x4B), (0x1EA02, 1), (0x1EA03, 1), (0x1EA04, 1)] }
theorem wit_PipelineWorkResults_append :
    (let d : Word256 := 5 + 0x10000 * 2 ^ 112 + 2 ^ 208
     let s : State := { pageAt (atp0 1 { aq := [d] }) with images := [(0, some (img 0 [scales0]))] }
     let x := appOf d
     s.unitTakes 0 .app = true ∧ (s.atp 0).aq = d :: [] ∧ appReserved d = false ∧ x.page % 65536 = 0 ∧
     s.nearPlace (s.owner 0) x.page = true ∧ s.sharedAt (s.owner 0) x.page = false ∧ descType d = 5 ∧ x.pos % 256 + x.n ≤ 256 ∧ (s.appendTokens 0 x x.n).1 = 0) := by
  decide +kernel
theorem wit_PipelineWorkResults_commit :
    (let d : Word256 := 6 + 0x10000 * 2 ^ 112 + 2 ^ 208
     let s := pageAt (atp0 1 { aq := [d] })
     let x := appOf d
     s.unitTakes 0 .app = true ∧ (s.atp 0).aq = d :: [] ∧ appReserved d = false ∧ x.page % 65536 = 0 ∧
     s.nearPlace (s.owner 0) x.page = true ∧ s.sharedAt (s.owner 0) x.page = false ∧ descType d = 6 ∧ x.src % 65536 = 0 ∧
     s.nearPlace (s.owner 0) x.src = true ∧ (s.commitNode 0 x).1 = .done) := by decide +kernel
theorem wit_PipelineWorkResults_token :
    (let d : Word256 := 8
     let s := atp0 3 { tq := [d] }
     let x := tokOf d
     let c := (s.ctx (s.owner 0) x.session).getD { id := 0 }
     s.unitTakes 0 .tok = true ∧ (s.atp 0).tq = d :: [] ∧ descType d = 8 ∧ tokReserved d = false ∧ x.kind = 0 ∧ x.nodes = 1 ∧
     x.out % 32 = 0 ∧ (s.touchRows 0 x.vocab [x.logits]).1 = 0 ∧
     distOf c.temp c.topP c.topK (s.logitRow 0 x.logits x.vocab).1 = some [(0, 0x3F800000)]) ∧
    (let d : Word256 := 8
     let s : State := { atp0 3 { tq := [d] } with sram := [(2, 0xC0), (3, 0x7F)] }
     let x := tokOf d
     let c := (s.ctx (s.owner 0) x.session).getD { id := 0 }
     s.unitTakes 0 .tok = true ∧ (s.atp 0).tq = d :: [] ∧ (s.touchRows 0 x.vocab [x.logits]).1 = 0 ∧
     distOf c.temp c.topP c.topK (s.logitRow 0 x.logits x.vocab).1 = none) := by decide +kernel

/-! ### Local HBM and the tiers (chapter 6) -/

/-- Frame 0 is owned by dye 1, whose key slot 1 is loaded; a stale mask and a state of controller 0 beside it. -/
def hbm1 (stale : BitVec 16) (ctl : Word32) : State :=
  { (State.reset.wr (.hbm 0) HBM_KEYSLOTS 0xFFFF).wr (.hbm 0) HBM_STATUS ctl with frames := [(0, { state := 1, owner := 1, stale := stale })] }
theorem wit_HbmResults :
    (let s := hbm1 0 1
     s.otherKey (s.frame 0) 0 = false ∧ ({ s with hbmKey := [(0, 9)] } : State).otherKey (s.frame 0) 0 = true ∧
     s.place 1 (0x10000000FFF : Addr).toNat = .hbm 0xFFF ∧ (s.frame 0).state ≠ 4 ∧ s.hbmReach 1 false 0xFFF = true ∧
     s.hbmReach 1 true 0xFFF = true ∧ s.hbmAimed 0x10000000FFF (.read 1) = false ∧ bitOf (s.frame 0).stale 0 = false ∧
     s.hbmFailed 0xFFF = false ∧ s.bit (.hbm (hbmCtl 0xFFF)) HBM_KEYSLOTS 1 = true ∧
     tabGet (fun _ => false) s.hbmBad 63 = false ∧ s.fld (.hbm 0) HBM_STATUS 0 2 = 1 ∧
     ({ s with now := 100000 } : State).hbmQuiet 0 = true ∧ s.ptes = [] ∧ s.shared = [] ∧
     s.fld (.hbm 4) HBM_STATUS 0 2 ≠ 3 ∧ s.fld (.hbm 5) HBM_STATUS 0 2 ≠ 3 ∧ s.fld (.hbm 6) HBM_STATUS 0 2 ≠ 3 ∧
     s.fld (.hbm 7) HBM_STATUS 0 2 ≠ 3) ∧
    (let s := hbm1 0xFFFF 2
     s.place 1 (0x10000000000 : Addr).toNat = .hbm 0 ∧ s.hbmReach 1 false 0 = true ∧ bitOf (s.frame 0).stale 0 = true ∧
     s.fld (.hbm 0) HBM_STATUS 0 2 = 2) := by decide +kernel
/-- Dye 1 served here, with a session in slot 0 of ten positions and a shared prefix 0 whose count is 2. -/
def tier1 : State :=
  { served with ctxs := [(ctxKey 1 0, some { id := 1, len := 10 })], prefixes := [(sharedKey 1 0, { live := true, len := 10, count := 2 })],
                hostBufs := [{ dye := 1, addr := 0x10000 }], kind5 := [(17, [5])] }
theorem wit_PrefixResults :
    (let s := tier1
     s.tierBusy 1 = false ∧ s.isFront 1 = true ∧ s.ctx 1 0 = some { id := 1, len := 10 } ∧ s.sessionBusy 1 1 = false ∧
     (s.prefixRec 1 1).live = false ∧ 1 / 1024 < (tabGet (fun _ => []) s.kind5 (16 + 1)).length ∧ s.sessionPtes 1 0 = [] ∧ 1 < (s.prefixRec 1 0).count ∧ (s.prefixRec 1 0).gen < 0xFFFF ∧
     (∀ b ∈ s.hostBufs, ¬(b.dye = 1 ∧ b.addr = 0x20000)) ∧
     s.hostBufs.find? (fun b => b.dye == 1 && b.addr == 0x10000) = some { dye := 1, addr := 0x10000 }) ∧
    (let s := { tier1 with publishing := [(1, 0)] }
     s.publishing.contains (1, 0) = true ∧ (s.prefixRec 1 0).live = true) := by decide +kernel
/-- The handle of a live prefix names it. -/
theorem handle_names (s : State) (d : Dye) (i : Nat) (hi : i < 2 ^ 32) (hl : (s.prefixRec d i).live = true)
    (hr : (s.prefixRec d i).released = false) : s.handleIndex d (s.handleOf d i) = some i := by
  have h : ∀ (c : BitVec 12) (g : Nat), bitsOf (BitVec.ofNat 64 (i % 2 ^ 32 + g % 65536 * 2 ^ 32 + d.val * 2 ^ 48 + c.toNat * 2 ^ 52) : Word64) 0 32 = i ∧
      bitsOf (BitVec.ofNat 64 (i % 2 ^ 32 + g % 65536 * 2 ^ 32 + d.val * 2 ^ 48 + c.toNat * 2 ^ 52) : Word64) 48 4 = d.val := by
    intro c g
    have := c.isLt
    have := d.isLt
    simp only [bitsOf, BitVec.toNat_ofNat]
    omega
  have a := h (Config.handleCheck (s.keyNo d) (i % 2 ^ 32 + (s.prefixRec d i).gen % 65536 * 2 ^ 32 + d.val * 2 ^ 48)) (s.prefixRec d i).gen
  change bitsOf (s.handleOf d i) 0 32 = i ∧ bitsOf (s.handleOf d i) 48 4 = d.val at a
  simp only [State.handleIndex, a.1, a.2, hl, hr]
  simp
theorem wit_PrefixResults_handle : tier1.handleIndex 1 (tier1.handleOf 1 0) = some 0 :=
  handle_names tier1 1 0 (by decide) (by decide +kernel) (by decide +kernel)
theorem wit_PageMoveResults :
    (let s : State := { tier1 with ptes := [(pteKey 1 0 0 0, some { tier := 0, frame := 0 })],
                                   hints := [{ dye := 1, session := 0, resume := false, tier := 3 }] }
     let u := s.endSuspends
     let m : PageMove := { dye := 1, session := some 0, layer := 0, page := 0, fromTier := 0, toTier := 1, cause := 1 }
     s.pageMoves = [] ∧ u.suspendPage 0 = some (m, { tier := 0, frame := 0 }) ∧ u.hasRoom u.freeTotal 1 = true ∧
     s.movePte m = some { tier := 0, frame := 0 } ∧ (∀ x ∈ s.moveSessions m, s.attending x.1 x.2 = false)) ∧
    (let h : Hint := { dye := 1, session := 0, resume := true }
     let m : PageMove := { dye := 1, session := some 0, layer := 0, page := 0, fromTier := 3, toTier := 1, cause := 3 }
     let s : State := { tier1 with ptes := [(pteKey 1 0 0 0, some { tier := 3, frame := 0 })], hints := [h] }
     s.resumeHint 1 0 = some h ∧ h.started = false ∧ h.start ≤ s.now ∧ s.belowTier1 1 0 = [(m, { tier := 3, frame := 0 })] ∧
     s.movePte m = some { tier := 3, frame := 0 } ∧ (∀ x ∈ s.moveSessions m, s.attending x.1 x.2 = false)) ∧
    ({ State.reset with pins := [⟨1, 0, false, 0, 0⟩] } : State).pins.all (fun p => decide (p.until_ ≤ State.reset.now)) = true := by
  decide +kernel
def ctx1 : Ctx := { id := 1, len := 10, dir := { root := 1, l1 := [(0, 1)], l2 := [(0, 1)] } }
/-- The session of dye 1 with its tables in place, one page of it at a tier, and a move of that page. -/
def paging (p : Pte) (m : PageMove) (cs : List Word32) : State :=
  { tier1 with ctxs := [(ctxKey 1 0, some ctx1)],
               ptes := [(pteKey 1 0 0 0, some p)], pageMoves := [m],
               checkRecs := (List.range 16).map (fun g => (3 * 2 ^ 36 + g, cs.getD g 0)) }
def evicted : PageMove := { dye := 1, session := some 0, layer := 0, page := 0, fromTier := 1, toTier := 3, cause := 0 }
def promoted : PageMove := { dye := 1, session := some 0, layer := 0, page := 0, fromTier := 3, toTier := 1, cause := 3 }
set_option maxRecDepth 100000 in
theorem wit_PageMoveResults_evict :
    let p : Pte := { tier := 1, frame := 0x1000000, busy := true }
    let s := paging p evicted []
    s.pageMoves[0]? = some evicted ∧ s.movePte evicted = some p ∧ s.destOk evicted 0 = true ∧ s.forkWait = [] ∧ s.hints = [] ∧
    (∃ c, s.ctx 1 0 = some c ∧ c.dir.root ≠ 0 ∧ natGet c.dir.l1 0 ≠ 0 ∧ natGet c.dir.l2 0 ≠ 0) ∧
    (({ s with pageMoves := [] } : State).pageBytes 1 p).1.2 = false := by
  refine ⟨rfl, by decide +kernel, by decide +kernel, rfl, rfl, ⟨ctx1, by decide +kernel⟩, by decide +kernel⟩
/-- Sixteen check words laid down are read back. -/
theorem sixteen (cs : List Word32) (k : Nat) (h : cs.length = 16) :
    tabGetList (fun _ => 0) ((List.range 16).map (fun g => (k + g, cs.getD g 0))) k 16 = cs := by
  match cs, h with
  | [a, b, c, d, e, f, g, h, i, j, l, m, n, o, p, q], _ =>
    simp only [tabGetList, tabGet, List.range, List.range.loop, List.map_cons, List.map_nil, List.getD_cons_zero, List.getD_cons_succ]
    simp
    repeat' apply And.intro
    all_goals intro h; omega
theorem wit_PageMoveResults_promote : ∃ cs,
    let p : Pte := { tier := 3, frame := 0, busy := true }
    let s := paging p promoted cs
    let b := ({ s with pageMoves := [] } : State).pageBytes 1 p
    s.pageMoves[0]? = some promoted ∧ s.movePte promoted = some p ∧ s.destOk promoted 0x1000000 = true ∧ s.forkWait = [] ∧
    (∃ c, s.ctx 1 0 = some c ∧ c.dir.root ≠ 0 ∧ natGet c.dir.l1 0 ≠ 0 ∧ natGet c.dir.l2 0 ≠ 0 ∧ s.kvClass 1 c.cls = false) ∧
    b.1.2 = false ∧ crcs (takePad 0 65536 b.1.1) = tabGetList (fun _ => 0) s.checkRecs ((3 * 2 ^ 32 + p.frame.toNat) * 16) 16 := by
  refine ⟨crcs (takePad 0 65536 (tabGetList byteReset [] (farKey 3 0) 65536)), rfl, by decide +kernel, by decide +kernel, rfl,
    ⟨ctx1, by decide +kernel⟩, rfl, (sixteen _ _ (by simp [crcs])).symm⟩

/-! ### Couriers (chapter 7) -/

theorem wit_CourierRegisterResults :
    (let s := State.reset
     s.couClearing 0 = false ∧ bitOf (1 : Word32) 0 = true ∧ (s.cou 0).queue.length < 32 ∧
     ¬(s.couPhase 0 = 1 ∧ s.couState 0 = cIDLE) ∧ (s.cou 0).cur = none ∧ (s.cou 0).queue = [] ∧ s.couState 0 = cIDLE ∧
     bitsOf (4 : Word32) 0 3 < 5) ∧
    (let s := State.reset.wr (.cou 0) COU_PHASE 1
     s.couClearing 0 = false ∧ s.couPhase 0 = 1 ∧ s.couState 0 = cIDLE ∧ (s.cou 0).cur = none) ∧
    (let s : State := { State.reset.wr (.cou 0) COU_STATUS 8 with cous := [(0, { heldIn := 1 })] }
     s.couClearing 0 = false ∧ s.couState 0 = cHELD ∧ (s.cou 0).heldIn ≠ 2 ∧ (s.cou 0).heldIn ≠ 4 ∧ bitOf (0 : Word32) 0 = false) ∧
    (let s := State.reset.wr (.cou 0) COU_STATUS 4
     s.couClearing 0 = false ∧ s.couState 0 ∈ [cCOUNT, cGRANT, cDATA, cRETURN, cCOMBINE]) ∧
    (let s := State.reset.wr (.cou 0) COU_STATUS 9
     s.couClearing 0 = false ∧ s.couState 0 = cSTOPPED ∧ s.bit (.cou 0) COU_CFG 1 = false ∧
     s.couUnfinished 0 (s.couPhase 0) = false ∧ (s.cou 0).cur = none) ∧
    (let s := State.reset.wr (.cou 0) COU_STATUS 0x400
     s.couClearing 0 = true) ∧ Master.nightPorter ≠ .regionController 0 := by decide +kernel
/-- Region 0 is Active in a phase with a Courier's contents; frame 0 holds the head of a route record. -/
def cou0 (phase : Word32) (c : CouSt) : State :=
  { (keysOn (act { State.reset with cous := [(0, c)] })).wr (.cou 0) COU_PHASE phase with
    frames := [(0, { state := 1, stale := 0 })], hbm := [(0, 0x43), (1, 0x4F), (2, 1)] }
def route0 : Word512 := 0x11 + 0x10000000000 * 2 ^ 256
theorem wit_CourierResults :
    (let d := route0
     let s := cou0 1 { queue := [d] }
     let x := routeOf d
     let rd := s.readRecord 0 x.record
     let rr := rd.1.2
     s.couRuns 0 = true ∧ s.couPhase 0 = 1 ∧ (s.cou 0).active = false ∧ (s.cou 0).queue = d :: [] ∧ routeBad d = false ∧
     s.routeAddrs 0 x = true ∧ rd.1.1 = 0 ∧ rr.magic = 0x4F43 ∧ rr.version = 1 ∧ rr.layer.toNat = x.layer ∧ x.nTok = 1 ∧
     (rd.2.selectTokens 0 x rr x.nTok).1.1 = 0) ∧
    (let s := cou0 1 {}
     let x : ExTag := { gen := 0, layer := 3, start := 5 }
     s.couTakes 0 x = true ∧ s.couPhase 0 ≠ 2 ∧
     (∀ y ∈ (s.cou 0).counts, ¬(y.layer = x.layer ∧ y.start = x.start ∧ y.pkg = 0 ∧ y.rgn = 0)) ∧
     s.couTakes 0 { x with gen := 1 } = false ∧ s.couOurs 0 x = false) ∧
    (let rr := recordHead 0
     let s := cou0 2 { cur := some route0, route := some rr, selDone := true, placed := some [] }
     let x := s.couTag 0
     s.couOurs 0 x = true ∧ s.couOurs 0 { x with layer := x.layer + 1 } = false ∧ s.couRuns 0 = true ∧ s.couPhase 0 = 2 ∧
     (s.cou 0).selDone = true ∧ (0, 0) ∉ (s.cou 0).grants ∧ (s.cou 0).grantQ = [] ∧
     (s.cou 0).cur = some route0 ∧ (s.cou 0).route = some rr ∧ (s.cou 0).placed = some [] ∧
     (s.write (.courier 0) (((rr.experts[0]?).map (fun e => e.inAddr.toNat)).getD 0 + 256) (takePad 0 (dispOf rr) [])).1 = .ok ∧
     (s.write (.courier 0) ((s.rd64 (.cou 0) COU_OVF_IN_L).toNat % 2 ^ 48) (takePad 0 (dispOf rr) [])).1 = .ok ∧
     (0, 0) ∉ (s.cou 0).returned ∧
     (s.write (.courier 0) ((routeOf route0).res) (takePad 0 (combOf rr) [])).1 = .ok) ∧
    (let rr : RouteRecord := { recordHead 0 with dispUnits := 1, hBlk := 1 }
     let s := cou0 2 { cur := some route0, route := some rr, selDone := true, placed := some [] }
     (s.write (.courier 0) 256 (takePad 0 (dispOf rr) [])).1 = .ok ∧ dispOf rr = 32 ∧
     (s.write (.courier 0) ((routeOf route0).res) (takePad 0 (combOf rr) [])).1 = .ok ∧ combOf rr = 64) := by decide +kernel

/-! ### Drovers and weights (chapter 8) -/

/-- An entry that lays 32 bytes raw into core 0, from frame 0's third 4 KiB, its check words in the fourth. -/
def stream0 : Word512 := 0x91 + 0x10000002000 * 2 ^ 64 + 32 * 2 ^ 112 + 2 ^ 186 + 2 ^ 193 + 0x10000003000 * 2 ^ 256
/-- Engine 0 serves dye 0: an all-zero plan of the decode lane, a table of one entry, a VERIFIED set 0. -/
def drv0 (c : DrvCtx) : State :=
  let s := (keysOn (act { State.reset with drvs := [(0, { c with planD := 0x10000000000 })] })).wr64 (.drv 0)
    (pageOff 0 DRV_D_TABLE_L) 0x10000001000
  { s.wr (.drv 0) (pageOff 0 DRV_D_WSTATE) 2 with
    frames := [(0, { state := 1, stale := 0 })],
    hbm := [(0x1000, 0x91), (0x1009, 0x20), (0x100D, 1), (0x100E, 32), (0x1017, 4), (0x1018, 2), (0x1021, 0x30), (0x1025, 1),
            (0x3000, 0x89), (0x3001, 0x41), (0x3002, 0xF9), (0x3003, 0x98)] }
theorem wit_StreamResults_start :
    (let s := drv0 {}
     let y := streamOf stream0
     s.drvStopped 0 0 = false ∧ (s.drv 0 0).clearing = false ∧ s.activeOn 0 < 8 ∧
     (s.table 0 0).zipIdx.find? (fun p => s.mayStart 0 0 (s.table 0 0) p.2 p.1) = some (stream0, 0) ∧
     s.entryBad 0 0 stream0 = false ∧ streamAddrBad y = false ∧ s.wstate (if y.isShared then 0 else 0) y.wset = wVERIFIED ∧ y.mode = 1 ∧
     y.len = y.nCores * y.perCore * 32) ∧
    (let a : ActiveStream := { idx := 0, entry := stream0, start := 0, complete := true }
     let s := drv0 { active := [a] }
     (s.drv 0 0).active.find? (fun a => (streamOf a.entry).stream == 0 && a.complete) = some a ∧
     (s.table 0 0).zipIdx.find? (fun p => (streamOf p.1).stream == 0) = some (stream0, 0) ∧
     s.startFor 0 0 (streamOf stream0) = 0 ∧ (s.drv 0 0).over (0, 0) = false ∧ s.planFor 0 0 (streamOf stream0) ≠ 0 ∧
     s.readyPoint 0 0 (streamOf stream0) ≤ s.now) ∧
    (let s := drv0 {}
     (s.table 0 0).zipIdx.find? (fun p => (streamOf p.1).stream == 0) = some (stream0, 0) ∧ 0 = s.startFor 0 0 (streamOf stream0) ∧
     (s.drv 0 0).active = [] ∧ (0, 0) ∉ (s.drv 0 0).ended ∧ (0, 0) ∉ (s.drv 0 0).failed) ∧
    (let h : BufHeld := { idx := 0, buf := 0, layer := 3, start := 0 }
     let s := drv0 { held := [h, { h with layer := 4 }] }
     s.layerEnded 0 0 3 = true ∧ h ∈ (s.drv 0 0).held) := by decide +kernel
set_option maxRecDepth 100000 in
theorem wit_StreamResults_fetch :
    (let a : ActiveStream := { idx := 0, entry := stream0, start := 0 }
     let s := drv0 { active := [a] }
     let y := streamOf a.entry
     let x := (s.turnOn 0 0 a.key).read (.drover 0 0) (y.src + 4096 * a.granule) 4096
     let w := x.2.read (.drover 0 0) (y.crc + 4 * a.granule) 4
     let s1 := (w.2.bump (.drv 0) DRV_EVT_KIB_STORED 4).bumpP (.drv 0) 0 DRV_D_KIB_STORED 4
     s.drvStopped 0 0 = false ∧ (s.drv 0 0).nextTurn = some a ∧ s.mayTake 0 0 = true ∧ y.stream = 0 ∧
     s.wstate 0 y.wset = wVERIFIED ∧ s.streamRegion 0 0 y = some 0 ∧ y.mode = 1 ∧ y.len - 4096 * a.granule ≠ 0 ∧ x.1.refused = false ∧
     x.1.poison = false ∧ w.1.refused = false ∧ s.onDie 0 0 (y.src + 4096 * a.granule) (min (y.len - 4096 * a.granule) 4096) = true ∧
     s.onDie 0 0 (y.crc + 4 * a.granule) 4 = true ∧ (crc32c x.1.data).toNat = leNat w.1.data ∧
     (s1.layRaw 0 0 0 y 65 a.written (x.1.data.take 32)).1 = 0) := by decide +kernel
theorem wit_DroverControlResults :
    (let s := State.reset
     Master.regionController 0 ≠ .innkeeper ∧ s.owner 0 = 0 ∧ regionDie 0 = engineDie 3 ∧ s.dyeOf (.regionController 0) = 0 ∧
     (((List.finRange 16).filter (· ≠ 5)).map (fun q => s.fld (.drv 3) (DRV_SHARE + 4 * q.val) 0 9)).sum + bitsOf (256 : Word32) 0 9 ≤ 256 ∧
     256 < (((List.finRange 16).filter (· ≠ 5)).map (fun q => s.fld (.drv 3) (DRV_SHARE + 4 * q.val) 0 9)).sum + bitsOf (257 : Word32) 0 9 ∧
     s.wsets = []) ∧
    (let s := State.reset.wr (.drv 3) (pageOff 0 DRV_D_STATUS) 3
     s.drvStopped 3 0 = true) ∧
    (drv0 {}).planLane 0 0 0x10000000000 = false ∧
    ({ drv0 {} with hbm := [(3, 1)] } : State).planLane 0 0 0x10000000000 = true := by decide +kernel
/-- With no frame in use, a run of n frames is found. -/
theorem takeRun_empty (s : State) (d : Dye) (die n st : Nat) (h : s.frames = []) (hd : die < 2) (hn : n ≤ 2 ^ 21) :
    ∃ base u, s.takeRun d die n st = (some base, u) := by
  have hm := Nat.mod_lt (Config.freeNat s.draw.1) (show 0 < 2 ^ 22 by decide)
  have hf : s.runFree (die * 2 ^ 23 + Config.freeNat s.draw.1 % 2 ^ 22) n = true := by
    simp only [State.runFree, List.all_eq_true, State.frame, h, List.mem_range]
    intro i hi
    have : ¬ 16771072 ≤ die * 2 ^ 23 + Config.freeNat s.draw.1 % 2 ^ 22 + i := by omega
    simp only [tabGet, frameReset, this, if_false]
    rfl
  simp only [State.takeRun, hf, if_true]
  rw [if_pos ⟨by omega, trivial, by omega⟩]
  exact ⟨_, _, rfl⟩
def wset0 : ManifestSet := { wset := 0, mode := 0, srcFmt := 0, dstFmt := 0, firstUnit := 0, nUnits := 2 }
def manifest0 : Manifest :=
  { keyDigest := 7, sets := [wset0], units := [{ hash := 9, dest := 1, len := 1048576 }, { hash := 9, dest := 1, len := 4 }] }
def weights1 : State := served [.weights [{ wset := 0, dies := [0], frames := 1, mode := 0, keyDigests := [7] }]]
def loading1 : WsetSt := { bases := [0], frames := 1, set := wset0, units := manifest0.units }
theorem wit_WeightResults :
    (let s := weights1
     s.manifestOk 1 manifest0 = true ∧ manifest0.sets = [wset0] ∧ s.wstate 1 wset0.wset.val = wEMPTY ∧ s.frames = [] ∧
     (((s.weightEntry 1 wset0.wset.val).map (·.frames)).getD 0) = 1 ∧
     ((s.weightEntry 1 wset0.wset.val).map (·.dies)).getD [] = [0]) ∧
    (let x := loading1
     let s : State := { (weights1.setWstate 1 0 wLOADING) with wsets := [(wsetKey 1 0, some x)] }
     s.unitSet 1 1 = some (0, x) ∧ x.units[1]? = some { hash := 9, dest := 1, len := 4 } ∧
     (x.unitsOf (s.pkgOrd 1)).findIdx? (· == 1) = some 1 ∧ 1 ∉ x.passed ∧ (fill 4).length = 4 ∧ x.set.mode ≠ 1 ∧
     0 ∈ x.unitsOf (s.pkgOrd 1) ∧ 0 ∉ x.passed) ∧
    (let s : State := { (weights1.setWstate 1 0 wDAMAGED) with wsets := [(wsetKey 1 0, some { loading1 with bad := [256] })] }
     s.wset 1 0 = some { loading1 with bad := [256] } ∧ s.wstate 1 0 = wDAMAGED ∧
     s.unitsNeeded 1 0 { loading1 with bad := [256] } = [1] ∧ s.unitsNeeded 1 0 loading1 = [] ∧ loading1.set.mode ≠ 1 ∧
     s.wstate 1 0 ≠ wEMPTY ∧ s.draining = []) ∧
    (let i : Item := { uid := 0, dye := 1, raw := 0 }
     let s : State := { (weights1.setWstate 1 0 wVERIFIED) with items := [i] }
     s.wstate 1 0 ≠ wEMPTY ∧ s.draining = [] ∧ i ∈ s.items ∧ i.dye = 1) := by decide +kernel
theorem wit_WeightResults_run : ∃ bases u, weights1.takeRuns 1 1 1 [0] [] = (some bases, u) := by
  obtain ⟨b, u, h⟩ := takeRun_empty weights1 1 0 1 1 (by decide +kernel) (by decide) (by decide)
  exact ⟨[b], u, by simp [State.takeRuns, h]⟩

/-! ### The Innkeeper (chapter 9) -/

/-- A cost row of one layer for a lane, and the image of dye 1 with both and shapes. -/
def row0 (lane : Bool) : CostRow :=
  { lane := lane, cls := 0, bucket := 0, maxRows := 8, maxChunk := 8, stepCap := 1000000000, tTok := 1000,
    groups := [{ ng := 1, phases := List.replicate 7 (1000, 10, 1, 0) }] }
/-- Dye 1 is served here at 1,000 MHz, the counter is synchronised, and a ring handed over a work item. -/
def inn1 (raw : Word512) : State :=
  { ((served [.costs [row0 false, row0 true], .partcfg { shapes := [{ regions := 2, prefillRgn := 1 }] }]).wr .cnt CNT_STATUS 2).wr
      .inn (pageOff 1 INN_D_FREQ) 1000 with inbox := [(1, raw)] }
def sess0 : Session := { id := 0, slot := 0, group := 0, cls := 0, maxLen := 100 }
/-- The same with an open session 0 of class 0. -/
def inn2 (raw : Word512) : State := { inn1 raw with sessions := [(sessKey 1 0, some sess0)] }
/-- What the Innkeeper checks before it looks at the item. -/
def opened (s : State) : Bool :=
  (s.partEntry 1).any (fun p => p.mode != 1) && s.isFront 1 && !s.bit .inn INN_STATUS 1 && !s.bit .inn INN_STATUS 2 &&
  (s.image 1).isSome && s.lostSlots == [] && decide (2 ≤ s.fld .cnt CNT_STATUS 0 2) && !s.treatedAsLost && !s.recabling &&
  (s.inbox.find? (fun x => x.1 == 1)).isSome
def item1 (raw : Word512) : Item := { uid := 0, dye := 1, raw := raw }
theorem wit_SessionResults :
    (let raw : Word512 := 1 + 0x3F800000 * 2 ^ 192 + 2 ^ 224
     let s := inn1 raw
     let i := item1 raw
     opened s = true ∧ i.kind = 1 ∧ i.formatBad = false ∧ s.sess 1 i.session = none ∧ s.imageLoading 1 = false ∧ i.limitBad = false ∧
     s.weightsBad 1 = false ∧ s.pickGroup 1 = some 0) ∧
    (let s := inn2 8
     let i := item1 8
     opened s = true ∧ i.kind = 8 ∧ i.formatBad = false ∧ s.sess 1 i.session = some sess0 ∧ s.stateBad i sess0 = false ∧
     s.sessItems 1 i.session = []) ∧
    (let raw : Word512 := 5 + 3 * 2 ^ 224
     let s := inn2 raw
     let i := item1 raw
     opened s = true ∧ i.kind = 5 ∧ i.formatBad = false ∧ s.sess 1 i.session = some sess0 ∧ s.stateBad i sess0 = false) ∧
    (let s := inn2 6
     let i := item1 6
     opened s = true ∧ i.kind = 6 ∧ i.formatBad = false ∧ s.sess 1 i.session = some sess0 ∧ s.stateBad i sess0 = false) := by
  decide +kernel
/-- A step item is in order, its lane serves, and the search ends as p says. -/
def stepItem (s : State) (raw : Word512) (p : Found → Bool) : Bool :=
  let u : State := { s with inbox := [] }
  let i0 := item1 raw
  let base := s.projected 1 sess0
  let i : Item := { i0 with rows := s.itemRows i0, base := base, adds := max i0.fewest (s.itemRows i0), bucket := cfgBucket (s.cfg 1) base }
  opened s && !i0.formatBad && !i0.limitBad && s.sess 1 i0.session == some sess0 && !s.stateBad i0 sess0 && !s.lengthBad i0 sess0 &&
  !s.weightsBad 1 && decide (s.now ≤ i0.deadline) && decide (i0.deadline ≤ s.now + tenSeconds) && s.laneOk 1 i0.prefill &&
  p (u.findStep i sess0 none)
def isOpens (f : Found) : Bool := match f with | .opens _ _ => true | _ => false
def isJoins (f : Found) : Bool := match f with | .joins _ _ => true | _ => false
def second : Word512 := 1000000000 * 2 ^ 64
def step0 (st : StepState) (prefill : Bool := false) : Step :=
  { dye := 1, prefill := prefill, number := 0, cls := 0, start := 100000, price := 100, state := st, fPrice := 950 }
theorem wit_StepItemResults :
    stepItem { inn2 (2 + second + 2 ^ 128) with prefillLane := [(0, true)] } (2 + second + 2 ^ 128) isOpens = true ∧
    stepItem (inn2 (3 + second)) (3 + second) isOpens = true ∧
    stepItem (inn2 (4 + second + 2 ^ 129)) (4 + second + 2 ^ 129) isOpens = true ∧
    stepItem { inn2 (3 + second) with steps := [step0 .isOpen] } (3 + second) isJoins = true := by decide +kernel
def plan0 : StepPlan :=
  { dye := 1, lane := false, step := 0, start := 0, fPrice := 950, layers := [[0, 0, 0, 0, 0, 0, 0, 0]], token := 0, endOfs := 100 }
theorem wit_StepLifeResults :
    (let p : Step := { step0 .isOpen with start := 50000, items := [0] }
     let s : State := { inn2 0 with steps := [p], items := [{ uid := 0, dye := 1, raw := 3 + second, rows := 1, adds := 1 }] }
     s.stepNamed 1 0 = some p ∧ p.start ≤ s.now + cfgSeal (s.cfg 1) ∧
     p.state = .isOpen ∧ (s.quoteStep 1 p.prefill p.cls p.start ((s.stepItems p).map s.priced) p.load).isSome = true) ∧
    (inn2 0).plans = [] ∧
    (let q : PlanSt := { plan := plan0 }
     let s : State := { inn2 0 with plans := [q] }
     s.plans.find? (fun q => q.plan.dye == 1 && q.plan.step == 0) = some q ∧ q.running = false ∧ q.plan.start.toNat ≤ s.now) ∧
    (let q : PlanSt := { plan := plan0, running := true }
     let p := step0 .running
     let s : State := { inn2 0 with plans := [q], steps := [p] }
     s.plans.find? (fun q => q.plan.dye == s.owner 0 && q.plan.step == 0 && q.plan.lane == s.inPrefill 0) = some q ∧
     q.plan.start.toNat + pointOfs q.plan 0 .attention ≤ s.now ∧ tabGet heldReset s.held (0 : RegionNo).val = none ∧
     (0 : RegionNo) ∉ q.waits ∧ s.phaseHeld q.plan 0 0 .attention = false ∧ s.phaseHeld q.plan 0 0 .select = false ∧
     s.isFront 1 = true ∧ s.stepNamed 1 0 = some p ∧ p.state = .running ∧ s.stepItems p = [] ∧ (s.cfg 1).degraded = false) := by
  decide +kernel
theorem wit_AdmittedWorkResults :
    (let s : State := { (inn2 0).wr (.rgn 1) RGN_OWNER 0x11 with steps := [step0 .isOpen true, { step0 .isOpen with price := 10 }] }
     s.isFront 1 = true ∧ (s.image 1).isSome = true ∧ s.laneMoves = [] ∧ 2 * s.backlog 1 false < s.backlog 1 true ∧
     (let can := ((s.laneRegs 1 false).filter (fun r => (s.laneRegs 1 false).any (fun q => q != r && regionDie q == regionDie r))).filter
        (fun r => (List.range (s.pkgTable 1).length).all (fun k =>
          match ((((s.pkgTable 1)[k]?).map (·.regions)).getD []).drop (s.ordinal r) |>.head? with
          | some x => (s.laneOn 1 false k).any (fun q => q != x && regionDie q == regionDie x)
          | none => true))
      can.getLast? = some 1) ∧
     (s.cfg 1).prefillMin ≤ s.prefillCount 1 + 1 ∧ s.prefillCount 1 + 1 ≤ (s.cfg 1).prefillMax ∧
     (s.cfg 1).shapes.any (fun x => x.regions == (s.regionsOf 1).length && x.prefillRgn == s.prefillCount 1 + 1) = true ∧
     s.now < (((s.laneSteps 1 false).getLast?).map Step.end_).getD s.now) ∧
    (let s : State := { inn2 0 with steps := [step0 .running], plans := [{ plan := plan0, running := true }] }
     s.stepNamed 1 0 = some (step0 .running) ∧ (s.plans.find? (fun q => q.plan.dye == 1 && q.plan.step == 0)).isSome = true ∧ 0 < 900 ∧ 900 < (step0 .running).fPrice ∧ (step0 .running).items = []) ∧
    (let i : Item := item1 3
     let s : State := { inn2 0 with items := [i] }
     s.items.filter (fun i => i.dye == 1 && i.tag == 0 && i.stepKind && !i.late && decide (i.deadline ≤ s.now + cfgGuard (s.cfg 1))) = [i]) ∧
    (let s : State := { inn2 0 with steps := [step0 .sealed] }
     s.stepNamed 1 0 = some (step0 .sealed)) ∧
    (let i : Item := item1 3
     let s : State := { inn2 0 with steps := [{ step0 .sealed with items := [0] }], items := [i] }
     s.stepNamed 1 0 = some { step0 .sealed with items := [0] } ∧ s.findItems [0] = [i]) ∧
    State.reset.dyeOf .nightPorter = 0 ∧ State.reset.dyeOf (.vf 1) ≠ 0 := by decide +kernel
theorem wit_DeadlineOutOfRangeIsRefused :
    (let raw : Word512 := 3 + (tenSeconds + 1000) * 2 ^ 64
     let s := inn2 raw
     let i := item1 raw
     opened s = true ∧ i.kind = 3 ∧ i.formatBad = false ∧ i.limitBad = false ∧ s.weightsBad 1 = false ∧
     s.now + tenSeconds < i.deadline ∧ s.sess 1 i.session = some sess0 ∧ s.stateBad i sess0 = false ∧ s.lengthBad i sess0 = false) ∧
    (let raw : Word512 := 3 + 1000 * 2 ^ 64
     let s : State := { inn2 raw with now := 1001 }
     let i := item1 raw
     opened s = true ∧ i.formatBad = false ∧ i.deadline < s.now ∧ s.stateBad i sess0 = false) ∧
    (let raw : Word512 := 7 + (tenSeconds + 1000) * 2 ^ 64 + 0x3F800000 * 2 ^ 192 + 2 ^ 224
     let s := inn1 raw
     let i := item1 raw
     opened s = true ∧ i.kind = 7 ∧ i.formatBad = false ∧ i.limitBad = false ∧ s.weightsBad 1 = false ∧
     s.now + tenSeconds < i.deadline ∧ s.sess 1 i.session = none ∧ s.imageLoading 1 = false) := by decide +kernel

theorem bitsOf_extract {w : Nat} (x : BitVec w) (lo n : Nat) : bitsOf x lo n = (x.extractLsb' lo n).toNat := by
  simp [bitsOf, BitVec.extractLsb'_toNat, Nat.shiftRight_eq_div_pow]
/-- A word with a value as its bits [319:256]. -/
def withAddr (c : Word512) (h : Word64) : Word512 := h.setWidth 512 <<< 256 ||| c
theorem withAddr_low (c : Word512) (h : Word64) (lo n : Nat) (hn : lo + n ≤ 256) : bitsOf (withAddr c h) lo n = bitsOf c lo n := by
  rw [bitsOf_extract, bitsOf_extract]
  have : (withAddr c h).extractLsb' lo n = c.extractLsb' lo n := by
    ext i hi
    have : lo + i < 256 := by omega
    simp [withAddr, this]
  rw [this]
theorem withAddr_addr (c : Word512) (h : Word64) (hc : ∀ i < 64, c.getLsbD (256 + i) = false) : (withAddr c h).extractLsb' 256 64 = h := by
  ext i hi
  have := hc i hi
  simp only [BitVec.getElem_extractLsb', withAddr, BitVec.getLsbD_or, BitVec.getLsbD_shiftLeft, BitVec.getLsbD_setWidth, this, Bool.or_false]
  have : ¬ 256 + i < 256 := by omega
  have : 256 + i < 512 := by omega
  have : i < 512 := by omega
  simp [*, BitVec.getLsbD_eq_getElem]
def forkBase : Word512 := 7 + 0x3F800000 * 2 ^ 192 + 2 ^ 224
/-- A FORK of the prefix that a handle names; the handle's check bits are the package's own (log entry 5). -/
def forkRaw (h : Word64) : Word512 := withAddr forkBase h
/-- A package with a live prefix 0 of no positions, and a FORK of it by its own handle. -/
def forkState (h : Word64) : State := { inn1 (forkRaw h) with prefixes := [(sharedKey 1 0, { live := true, count := 1 })] }
theorem wit_SessionResults_fork_state :
    let s := forkState 0
    let i := item1 forkBase
    opened s = true ∧ i.formatBad = false ∧ i.limitBad = false ∧ s.sess 1 i.session = none ∧ s.imageLoading 1 = false ∧
    s.weightsBad 1 = false ∧ s.pickGroup 1 = some 0 ∧ s.now ≤ i.deadline ∧ i.deadline ≤ s.now + tenSeconds ∧
    (s.prefixRec 1 0).lost = false ∧ (s.prefixRec 1 0).len % 256 = 0 ∧ s.framesReady 1 0 = some 0 ∧
    s.now + movesNs (s.pageMoves.length + ((s.prefixRec 1 0).table.map (·.1)).dedup.length) s.tier0Rate ≤ i.deadline := by
  decide +kernel
theorem wit_SessionResults_fork (h : Word64) (hh : h = (forkState 0).handleOf 1 0) :
    (forkState h).inbox.find? (fun x => x.1 == 1) = some (1, forkRaw h) ∧ (item1 (forkRaw h)).kind = 7 ∧
    (item1 (forkRaw h)).deadline = 0 ∧ (forkState h).now = 0 ∧ (forkState h).handleIndex 1 (item1 (forkRaw h)).addr = some 0 := by
  refine ⟨rfl, ?_, ?_, rfl, ?_⟩
  · simp only [Item.kind, item1, forkRaw]; rw [withAddr_low _ _ _ _ (by decide)]; decide +kernel
  · simp only [Item.deadline, item1, forkRaw]; rw [withAddr_low _ _ _ _ (by decide)]; decide +kernel
  · have e : (item1 (forkRaw h)).addr = h := withAddr_addr _ _ (by decide +kernel)
    have a : (forkState 0).prefixes = (forkState h).prefixes := rfl
    have g : (forkState 0).handleOf 1 0 = (forkState h).handleOf 1 0 := by
      have b : (forkState 0).keyGen = (forkState h).keyGen := rfl
      simp only [State.handleOf, State.keyNo, State.prefixRec, a, b]
    have r : (forkState h).prefixRec 1 0 = (forkState 0).prefixRec 1 0 := by simp only [State.prefixRec, a]
    have q := handle_names (forkState h) 1 0 (by decide) (by rw [r]; decide +kernel) (by rw [r]; decide +kernel)
    rw [← g, ← hh] at q
    rw [e]
    exact q

/-! ### Images and partitions (chapters 10 and 11) -/

def topo1 : Topology := { kind := 1, axes := [1, 1, 1], coords := [(63, (0, 0, 0))], links := [(63, [none, none, none, none, none, none])] }
/-- A system image for this package alone, signed by authority key 7. -/
def sys1 : Image :=
  { kind := 1, dye := 0, generation := 3, length := 320, keyDigest := 7, digest := 9,
    sections := [{ type := 1, offset := 128, len := 64, body := .topology topo1 }, { type := 2, offset := 192, len := 64, body := .partitions [] },
                 { type := 4, offset := 256, len := 64, body := .tiers [] }] }
/-- The page of dye 0 in a state, with a load. -/
def img0 (st : Word32) (l : LoadSt) : State :=
  { State.reset.wrP .pkg 0 PKG_IMG_D_STATUS st with authority := [(0, some 7)], loads := [(0, l)] }
theorem wit_ImageResults :
    (let s := img0 0 {}
     s.pageAllows .nightPorter 0 = true ∧ s.loading 0 = false ∧ s.receives 0 = true ∧ (s.rdP .pkg 0 PKG_IMG_D_LEN).toNat ≤ imageLimit 0 ∧
     (s.loadOf 0).origin = false ∧ s.sysImage = none) ∧
    (let s : State := { State.reset with authority := [(0, some 7)], regs := [(regKey .pkg PKG_REVISION, 0x02001001)] }
     s.sysImage = none ∧ s.norImage = none ∧ s.loading 0 = false ∧ s.verify 0 sys1 = none) ∧
    (let s := { served with loads := [] }
     s.pageAllows (.vf 1) 1 = true ∧ s.loading 1 = false ∧ s.sessOf 1 = [] ∧ s.items = [] ∧ s.receives 1 = true) ∧
    (let s := img0 2 { origin := true }
     1 ≤ s.imgState 0 ∧ s.imgState 0 ≤ 3 ∧ s.moves = []) ∧
    (let s := img0 1 { origin := true }
     s.imgState 0 = 1 ∧ (s.loadOf 0).origin = true ∧ s.formatBad 0 sys1 = none ∧ s.signatureBad 0 sys1 = none ∧ s.entriesBusy sys1 = false) ∧
    (let s := img0 3 { image := some sys1, origin := true }
     s.imgState 0 = 3 ∧ (s.loadOf 0).origin = true ∧ (s.loadSlots 0).map (·.val) = [63]) ∧
    (let s := img0 4 { image := some sys1, tAct := some 0 }
     (s.loadOf 0).image = some sys1 ∧ (s.loadOf 0).tAct = some 0 ∧ s.imgState 0 = 4 ∧ s.sysImage = none) ∧
    (let s : State := { served.wrP .pkg 1 PKG_IMG_D_STATUS 4 with loads := [(1, { image := some (img 1 []), tAct := some 0 })] }
     (s.loadOf 1).image = some (img 1 []) ∧ (s.loadOf 1).tAct = some 0 ∧ s.imgState 1 = 4) := by decide +kernel
/-- An ELASTIC partition of regions of this package. -/
def elastic1 (d : Dye) (rs : List RegionNo) (mode : BitVec 2) : PartEntry :=
  { dye := d, mode := mode, elastic := true, rgnMin := 1, rgnMax := 4, priority := d.val, share := 1, minT := [], imageKey := 0,
    packages := [{ slot := 63, regions := rs }] }
/-- Dye 1 is an ELASTIC partition of regions 0 and 1 here, dye 2 one of regions 2 and 3, without images. -/
def elastic2 (mode : BitVec 2 := 0) : State :=
  let s := (((State.reset.wr (.rgn 0) RGN_OWNER 1).wr (.rgn 1) RGN_OWNER 0x11).wr (.rgn 2) RGN_OWNER 2).wr (.rgn 3) RGN_OWNER 0x12
  { (s.wr .pkg (PKG_PART_STATUS + 4) 1).wr .pkg (PKG_PART_STATUS + 8) 1 with sysImage := some (img 0 [.partitions [elastic1 1 [0, 1] mode, elastic1 2 [2, 3] mode]]) }
def moving (st : Word32) (m : MoveSt) (s : State) : State := { s.wr (.rgn 0) RGN_MOVE_STATUS st with moves := [(0, some m)] }
theorem wit_MoveResults :
    (let s := elastic2
     s.moveOf 0 = none ∧ s.claims = [] ∧ s.moveCode 0 2 = 0 ∧ s.moveCode 0 3 ≠ 0 ∧ s.isFront 1 = true ∧ s.loading 1 = false ∧ s.loading 2 = false ∧ s.dyeOf .nightPorter = 0 ∧
     s.owner 0 ≠ 0 ∧ s.isNorla (s.owner 0) = false ∧ s.owner 4 = 0 ∧ s.moveOf 4 = none ∧ s.moveCode 4 2 = 0 ∧ s.loading 0 = false ∧
     s.isNorla 2 = false ∧ s.dyeOf (.vf 1) ≠ 0) ∧
    (let s : State := { elastic2 with sysImage := some (img 0 [.partitions [
        { elastic1 1 [0, 1] 0 with packages := [{ slot := 5, regions := [0] }, { slot := 63, regions := [0, 1] }] }, elastic1 2 [2, 3] 0]]) }
     s.isFront 1 = false ∧ s.isNorla 1 = false ∧ s.owner 0 = 1 ∧ s.moveOf 0 = none ∧ s.moveCode 0 2 = 0) ∧
    (let s := elastic2 1
     s.owner 0 ≠ 0 ∧ s.isNorla (s.owner 0) = true ∧ s.moveOf 0 = none ∧ s.claims = [] ∧ s.moveCode 0 0 = 0 ∧ s.loading 0 = false) ∧
    (let m : MoveSt := { toDye := 2, fromDye := 1, at_ := 0 }
     let s := moving 1 m elastic2
     s.moveOf 0 = some m ∧ s.mvState 0 = 1 ∧ m.asked = false ∧ m.at_ ≤ s.now) ∧
    (let m : MoveSt := { toDye := 0, fromDye := 1, at_ := 0 }
     let s := moving 4 m (elastic2.wr (.spd 0) SPD_CLR_STATUS 0x04400010)
     s.moveOf 0 = some m ∧ s.mvState 0 = 4 ∧ s.cleared 0 = true ∧ s.isNorla 0 = false ∧ s.nextMove 0 = none) ∧
    (let m : MoveSt := { toDye := 2, fromDye := 1, at_ := 0, save := true }
     let s := moving 2 m (elastic2 1)
     s.moveOf 0 = some m ∧ m.save = true ∧ s.mvState 0 = 2 ∧ s.coresStill 0 = true) ∧
    (let m : MoveSt := { toDye := 2, fromDye := 1, at_ := 0 }
     let s := moving 4 m (elastic2.wr (.spd 0) SPD_CLR_STATUS 0x04400010)
     s.moveOf 0 = some m ∧ s.mvState 0 = 4 ∧ s.cleared 0 = true ∧ m.toDye ≠ 0 ∧ s.partState m.toDye = 1 ∧ s.isNorla m.toDye = false ∧
     s.nextMove 0 = none) ∧
    (let m : MoveSt := { toDye := 1, fromDye := 2, at_ := 0 }
     let s := moving 8 m (elastic2 1)
     s.moveOf 0 = some m ∧ s.owner 0 = 1 ∧ s.mvState 0 = 8 ∧ s.save 1 (s.ordinal 0) = none ∧ s.nextMove 0 = none) ∧
    (let a : SaveArea := { region := 0, sram := [(5, 7)], acc := [(9, 1)], cores := [(3, { pc := 1 })] }
     let s : State := { moving 8 { toDye := 1, fromDye := 2, at_ := 0 } (elastic2 1) with saves := [(saveKey 1 0, some a)] }
     s.owner 0 = 1 ∧ s.mvState 0 = 8 ∧ s.save 1 (s.ordinal 0) = some a ∧ tabWf byteReset a.sram = true ∧ tabWf byteReset a.acc = true ∧
     tabWf coreReset a.cores = true) := by decide +kernel
theorem wit_JobAndKillResults :
    (let s := ((served [] 1).wr .pkg (PKG_PART_STATUS + 4) 1).wr64 .pkg (pageOff 1 PKG_JOB_D_AT_L) 100000
     s.isNorla 1 = true ∧ s.isFront 1 = true ∧ (s.image 1).isSome = true ∧ s.partState 1 = 1 ∧ s.jobState 1 ∉ [1, 2, 3] ∧
     s.now + 100000 ≤ (s.rd64 .pkg (pageOff 1 PKG_JOB_D_AT_L)).toNat ∧ s.dyeOf .nightPorter = 0 ∧ Master.nightPorter ≠ .vf 1) ∧
    (let s := (served [] 1).wr .pkg (pageOff 1 PKG_JOB_D_STATUS) 1
     s.jobState 1 = 1 ∧ (s.rd64 .pkg (pageOff 1 PKG_JOB_D_AT_L)).toNat ≤ s.now) ∧
    (let s : State := { (served [] 1).wr .pkg (pageOff 1 PKG_JOB_D_STATUS) 3 with resumeAt := [(1, 1)] }
     s.jobState 1 = 3 ∧ natGet s.resumeAt (1 : Dye).val ≠ 0 ∧ natGet s.resumeAt (1 : Dye).val ≤ s.now + 1) ∧
    (let s := (served.wr .pkg (PKG_PART_STATUS + 4) 2).wr (.spd 0) SPD_CLR_STATUS 0x04400010
     s.partState 1 = 2 ∧ s.regionsOf 1 = [0] ∧ s.cleared 0 = true) := by decide +kernel

/-! ### Links, packets, the counter (chapter 12) -/

/-- This package and slot 5 beside it along X. -/
def pairTopo : Topology :=
  { kind := 1, axes := [2, 1, 1], coords := [(63, (0, 0, 0)), (5, (1, 0, 0))],
    links := [(63, [some 5, none, none, none, none, none]), (5, [none, some 63, none, none, none, none])] }
def pair1 : Image := { sys1 with sections := [{ type := 1, offset := 128, len := 64, body := .topology pairTopo }] }
def link0 (st : Word32) (x : LinkSt := {}) : State := { State.reset.wr (.tlk 0) TLK_STATUS st with links := [(0, x)] }
def train0 : TrainingResult := { light := true, lanes := 0x1FFFF, slot := 5, coord := (0, 0, 0), archLevel := 1, generation := 0, delay := 9 }
theorem wit_LinkResults :
    (let s := link0 1
     s.linkState 0 = tTRAINING ∧ train0.light = true ∧ (s.link 0).waiting = none ∧ (s.link 0).trainedSlot = none ∧
     s.partnerOk 0 train0 = true ∧ s.topology = none ∧ chooseWidth (train0.lanes &&& ~~~(s.link 0).lost) (s.link 0).bestOf8 = some (tUP16, 16, none, false)) ∧
    (let s : State := { link0 1 with sysImage := some pair1 }
     s.linkState 0 = tTRAINING ∧ (s.link 0).trainedSlot = none ∧ s.partnerOk 0 { train0 with coord := (1, 0, 0) } = true ∧
     (∃ tp, s.topology = some tp ∧ neighbour tp 5 (opposite (0 : Fin 6).val) = some s.slot) ∧
     s.partnerOk 0 train0 = false ∧ (chooseWidth (train0.lanes &&& ~~~(s.link 0).lost) (s.link 0).bestOf8).isSome = true) ∧
    (link0 0).linkState 0 = tDARK ∧ (link0 1).linkState 0 = tTRAINING ∧
    (let s : State := { State.reset with recabling := true }
     s.recabling = true) ∧
    (let s := link0 2
     s.linkState 0 = tUP16 ∧ s.bit (.tlk 0) TLK_STATUS 10 = false ∧ (s.link 0).swapLane = none ∧ s.linkUp 0 = true ∧
     s.linkState 0 ≠ tTRAINING ∧ s.linkState 0 ≠ tDARK ∧ (63, (0 : Fin 6).val) ∉ s.lostLinks ∧ s.anyUp = true) ∧
    (let s := link0 3 { spareTraining := true, swapLane := some 15, lasers := true }
     s.linkState 0 = tUP15 ∧ (s.link 0).spareTraining = true ∧ (s.link 0).swapLane = some 15 ∧ s.recabling = false ∧
     (s.link 0).lasers = true) ∧
    State.reset.dyeOf .nightPorter = 0 ∧ State.reset.dyeOf (.vf 1) ≠ 0 ∧
    (let s : State := { State.reset with sysImage := some sys1, master := some 4, backup := some 63, lostSlots := [4] }
     s.recabling = false ∧ s.topology.isSome = true ∧ s.master = some 4 ∧ 4 ∈ s.lostSlots ∧ s.backup = some 63 ∧ 63 ∉ s.lostSlots ∧
     s.lostBoth = false) ∧
    (let s : State := { State.reset with master := some 4 }
     s.master = some 4 ∧ 4 ∉ s.lostSlots) := by
  refine ⟨by decide +kernel, ⟨by decide +kernel, by decide +kernel, by decide +kernel, ⟨pairTopo, by decide +kernel⟩, by decide +kernel⟩,
    by decide +kernel⟩
/-- Core 0 of dye 1's region with a posted buffer, a message sent, and open windows. -/
def peer0 (k : CoreSt) : State :=
  act { served with cores := [(0, k)] }
def packet0 (type : BitVec 4) : LinkPacket := { type := type, dye := 1, srcSlot := 5, dstSlot := 63, target := 0, seq := 0, offset := 0, payload := fill 32 }
theorem wit_PacketResults :
    (let p := packet0 1
     let k : CoreSt := { posted := [(0, [{ ofs := 0, cap := 32, seq := 0 }])] }
     let s := peer0 k
     p.ttl ≠ 0 ∧ p.dstSlot = s.slot ∧ s.targetCore p = some c0 ∧ (s.core c0).blocked = none ∧ natGet (s.core c0).delivered 0 ≤ 0 ∧
     ((s.core c0).postedOf 0).find? (fun b => b.filled.isNone) = some { ofs := 0, cap := 32, seq := 0 } ∧ p.seq.toNat = 0 ∧
     p.offset.toNat * 32 = 0 ∧ p.last = true ∧ (s.core c0).refusedSends = [] ∧
     (s.write (.transferEngine c0) ((s.ordinal 0 * 64 + 0) * 0x200000 + 0 + p.offset.toNat * 32) p.payload).1 = .ok ∧
     (let p := { p with seq := 1 }
      s.targetCore p = some c0 ∧ natGet (s.core c0).delivered 0 ≤ p.seq.toNat ∧ 0 ≠ p.seq.toNat)) ∧
    (let x : Xfer := { send := true, num := 0, src := 0, bytes := 32, pc := 0 }
     let s := peer0 { sent := [x] }
     s.targetCore (packet0 3) = some c0 ∧ s.answered c0 (packet0 3) = some x ∧ ((s.core c0).refuseSend x).refusedSends = [x] ∧
     ((s.core c0).refuseSend x).creditFor 0 x.seq = none ∧
     (packet0 9).type = 9) ∧
    (let s := peer0 {}
     (s.bar 1 0).gen ≤ (packet0 4).seq.toNat ∧ (5, 0) ∉ (s.bar 1 0).packets) ∧
    ({ packet0 1 with ttl := 0 } : LinkPacket).ttl = 0 ∧ State.reset.master ≠ some State.reset.slot ∧
    (State.reset.wr .pkg (pageOff 1 PKG_JOB_D_STATUS) 3).jobState 1 = 3 ∧
    (({ State.reset with loads := [(1, { image := some (img 1 []) })] } : State).loadOf 1).image.isSome = true := by decide +kernel
def cnt (st : Word32) : State := State.reset.wr .cnt CNT_STATUS st
theorem wit_CounterResults :
    (let s := cnt 0
     s.master ≠ some s.slot ∧ s.fld .cnt CNT_STATUS 12 3 ≠ 7 ∧ s.sync < 2 ∧ s.cmps = []) ∧
    (cnt 2).sync = 2 ∧ (cnt 2).master ≠ some (cnt 2).slot ∧
    (let s : State := { cnt 3 with now := 1000000 }
     s.sync = 3 ∧ s.holdoverAt + 1000000 ≤ s.now ∧ s.treatedAsLost = false ∧ s.spanning = []) ∧
    (let s : State := { State.reset with cmps := [(63, { armed := true })] }
     let c := tabGet cmpReset s.cmps (63 : Fin 64).val
     c.armed = true ∧ c.value ≤ s.now ∧ c.what = none ∧ s.calendar = [] ∧ (tabGet cmpReset s.cmps 0).armed = false) ∧
    (let s := served
     s.regionsOf 1 ≠ [] ∧ s.now < (1 : Word64).toNat ∧ s.isFront 1 = true ∧ (0 : Word64).toNat ≤ s.now) ∧
    (let s : State := { act served with switchPoints := [(1, 1000, 0)] }
     s.switchPoints.filter (fun p => p.1 == 1 && decide (p.2.2 ≤ s.now)) = [(1, 1000, 0)] ∧ s.owner 0 = 1 ∧ s.rgnActive 0 = true) := by
  decide +kernel

/-! ### Host port, Ethernet, fabric (chapter 13) -/

/-- The rings of dye 1 are on; its tails and heads at their reset values. -/
def rings : State := State.reset.wr (.vf 1) PCI_VF_STATUS 1
theorem wit_HostResults :
    State.reset.place 1 (0x800000000000 : Addr).toNat = .host 0 ∧ State.reset.hostUp = true ∧
    ({ State.reset with hostUp := false } : State).hostUp = false ∧ State.reset.ringsOn 1 = false ∧ State.reset.ringNext ≠ some 1 ∧
    ({ State.reset with hostReads := [(1, 0, 4)] } : State).hostReads.find? (fun q => q.1 == 1) = some (1, 0, 4) ∧
    rings.ringsOn 1 = true ∧ ((4096 : Word32) - rings.rd (.vf 1) PCI_VF_SQ_HEAD).toNat ≤ rings.sqSize 1 ∧
    rings.sqSize 1 < ((4097 : Word32) - rings.rd (.vf 1) PCI_VF_SQ_HEAD).toNat ∧ rings.inbox = [] ∧
    (rings.wr (.vf 1) PCI_VF_SQ_TAIL 1).ringNext = some 1 ∧
    (let p : PostRec := { dye := 1, data := 4, event := true }
     ({ rings with postQ := [p] } : State).postQ.find? (fun p => p.dye == 1) = some p) ∧ rings.fld (.vf 1) PCI_VF_INT_COAL 0 8 ≤ 1 := by
  decide +kernel
theorem wit_HostPortResults :
    (let s : State := { State.reset.wr (.vf 1) PCI_VF_INT_COAL 0x0501 with unsignalled := [(1, 3)] }
     natGet s.unsignalled (1 : Dye).val ≠ 0 ∧ s.fld (.vf 1) PCI_VF_INT_COAL 8 16 ≠ 0) := by decide +kernel
/-- Port 0 is UP; dye 1's queue there has MAC address 2 and VLAN 3. -/
def eth0 : State :=
  ((State.reset.wr (.eth 0) ETH_STATUS 2).wr (.eth 0) (pageOff 1 ETH_D_MAC_L) 2).wr (.eth 0) (pageOff 1 ETH_D_MAC_H) 0x80030000
theorem wit_EthernetResults :
    (let f : EthFrame := { mac := 2, vlan := 3, fabric := false, event1588 := false, bytes := fill 64 }
     let s := eth0.wr (.eth 0) (pageOff 1 ETH_D_RXQ_TAIL) 1
     s.ethUp 0 = true ∧ f.fabric = false ∧ (List.finRange 16).find? (fun d => s.ethName 0 d == some (f.mac, f.vlan)) = some 1 ∧
     s.rd (.eth 0) (pageOff 1 ETH_D_RXQ_HEAD) ≠ s.rd (.eth 0) (pageOff 1 ETH_D_RXQ_TAIL) ∧ f.bytes.length ≤ 9216 ∧
     (List.finRange 16).find? (fun d => s.ethName 0 d == some ((5 : BitVec 48), f.vlan)) = none ∧
     eth0.rd (.eth 0) (pageOff 1 ETH_D_RXQ_HEAD) = eth0.rd (.eth 0) (pageOff 1 ETH_D_RXQ_TAIL) ∧ (fill 9217).length > 9216 ∧
     State.reset.ethUp 0 = false ∧ State.reset.fld (.eth 0) ETH_STATUS 0 2 = 0 ∧ s.ethName 0 1 = some (2, 3) ∧
     s.fld (.eth 0) ETH_STATUS 0 2 ≠ 0 ∧ s.dyeOf .nightPorter = 0 ∧ s.dyeOf (.vf 1) ≠ 0) ∧
    (let x : EthOut := { port := 0, dye := 1, mac := 2, vlan := 3, index := 0 }
     let s : State := { eth0 with ethTx := [x] }
     s.ethUp 0 = true ∧ s.ethTx.find? (fun e => e.dye == 1 && e.port == 0) = some x) ∧
    (let s : State := { State.reset with master := some 63 }
     s.master = some s.slot ∧ s.anyUp = false) ∧
    (let s : State := { State.reset.wr (.tlk 0) TLK_STATUS 2 with master := some 63 }
     s.master = some s.slot ∧ s.anyUp = true) ∧
    State.reset.master ≠ some State.reset.slot := by decide +kernel
/-- Segment 0 is dye 1's, in frame 0 with keys loaded; the counter is locked. -/
def seg0 (g : Segment) : State :=
  { (keysOn State.reset).wr .cnt CNT_STATUS 2 with segments := [(0, some g)], frames := [(0, { state := 1, owner := 1, stale := 0 })] }
def req (op : BitVec 4) (us : Word64 := 100) : FabricPacket :=
  { op := op, dye := 1, srcSlot := 5, dstSlot := 63, countM1 := 31, operand0 := us, payload := fill 128 }
/-- A request in its place (the abbreviation FabricArrives of the statements). -/
def arrives (s : State) (p : FabricPacket) (g : Segment) : Bool :=
  p.dstSlot == s.slot && p.tagOk && decide (natGet s.fabRxTxc (pairKey p.srcSlot p.port * 16 + p.dye.val) ≤ p.txc.toNat) &&
  p.seq == BitVec.ofNat 32 (tabGet pairReset s.fabPairs (pairKey p.srcSlot p.port)).rxNext &&
  s.segment (p.offset.toNat / segBytes) == some g && g.dye == p.dye && (g.state != 1 || decide (s.now < g.expiry))
def free0 : Segment := { dye := 1 }
def held0 (sl : SlotNo) : Segment := { dye := 1, state := 1, holder := sl, expiry := 1000 }
/-- The bytes 0 to n - 1 of the segment lie in one granule without a mark, and no uncorrectable unit is listed. -/
def clean (s : State) (n : Nat) : Bool :=
  (s.frame 0).state == 1 && decide (n ≤ 4096) && !bitOf (s.frame 0).stale 0 && !s.hbmFailed 0 && !s.otherKey (s.frame 0) 0 &&
  s.bit (.hbm (hbmCtl 0)) HBM_KEYSLOTS (s.frame 0).owner.val && s.hbmBad == []
theorem wit_FabricHomeResults :
    ([1, 2, 3, 4, 5, 6, 7, 8].all fun op => arrives (seg0 (held0 5)) (req op) (held0 5) && arrives (seg0 free0) (req op) free0) = true ∧
    clean (seg0 free0) 4096 = true ∧ clean (seg0 (held0 5)) 4096 = true ∧ (req 2).payload ≠ [] ∧ (seg0 free0).sync = 2 ∧
    (seg0 free0).leasesHeld = 0 ∧ (req 1).offset.toNat % 128 = 0 ∧ 100 ≤ (req 6).operand0.toNat ∧
    (req 6 10000000).operand0.toNat ≤ 10000000 ∧ (held0 5).donated = false := by decide +kernel
theorem wit_FabricTransportResults :
    (let q : FabReq := { tag := 0, dst := 5, port := 0, packet := req 3, issuer := .command 1, sentAt := 0 }
     let s : State := { State.reset with fabReqs := [q] }
     (req 9).dstSlot = s.slot ∧ (req 9).tagOk = true ∧
     natGet s.fabRxTxc (pairKey (req 9).srcSlot (req 9).port * 16 + (req 9).dye.val) ≤ (req 9).txc.toNat ∧
     (req 9).seq = BitVec.ofNat 32 (tabGet pairReset s.fabPairs (pairKey (req 9).srcSlot (req 9).port)).rxNext ∧
     s.fabReqs.find? (fun q => q.dst == (req 9).srcSlot && BitVec.ofNat 16 q.tag == (req 9).tag) = some q ∧ 2 < q.packet.op.toNat) ∧
    (let q : FabReq := { tag := 7, dst := 5, port := 0, packet := req 3, issuer := .tier, sentAt := 0 }
     let s : State := { State.reset with fabReqs := [q], now := 50000, fabDead := [(5, 2)] }
     s.fabReqs.find? (fun q => BitVec.ofNat 16 q.tag == 7) = some q ∧ q.sentAt + 50000 ≤ s.now ∧ 2 ≤ natGet s.fabDead q.dst.val ∧
     natGet ({ s with fabDead := [] } : State).fabDead q.dst.val < 2 ∧ (∀ q ∈ s.fabReqs, BitVec.ofNat 16 q.tag ≠ 8)) ∧
    (let s : State := { seg0 (held0 5) with now := 1000 }
     s.segment 0 = some (held0 5) ∧ (held0 5).state = 1 ∧ (held0 5).expiry ≤ s.now) ∧
    5 ∈ ({ State.reset with unreachable := [5] } : State).unreachable ∧
    (let x : LeaseHeld := { slot := 5, seg := 0, expiry := 50000, us := 100, tier := true }
     let s : State := { State.reset with leases := [x] }
     s.leases.filter (fun x => x.tier && x.seg == 0 && decide (x.expiry ≤ s.now + x.us * 500) &&
        !s.fabReqs.any (fun q => q.packet.op == 7 && q.dst == x.slot && q.packet.offset.toNat / segBytes == 0)) = [x] ∧
     x.slot ∉ s.lostSlots ∧ x.slot ∉ s.unreachable) := by decide +kernel
theorem wit_SmfCommandResults :
    (let s := seg0 free0
     tabGet (fun _ => false) s.smfBusy (1 : Dye).val = false ∧ sharedAddr 0x7F0000000000 = some (s.slot, 0) ∧ s.segment 0 = some free0 ∧
     free0.dye = 1 ∧ free0.state = 0 ∧ s.sync = 2 ∧ s.leasesHeld < 65536 ∧ clean s 8 = true) ∧
    (let s := seg0 (held0 63)
     s.segment 0 = some (held0 63) ∧ s.now < (held0 63).expiry ∧ (held0 63).holder = s.slot ∧ clean s 8 = true) ∧
    tabGet (fun _ => false) ({ seg0 free0 with smfBusy := [(1, true)] } : State).smfBusy (1 : Dye).val = true ∧
    (let s : State := seg0 free0
     sharedAddr 0x450000000000 = some (5, 0) ∧ (5 : SlotNo) ≠ s.slot ∧ 5 ∉ s.lostSlots ∧ 5 ∉ s.unreachable ∧ 2 ≤ s.sync ∧
     s.leaseLate 1 5 0 = false) ∧
    served.shortBy 1 32 = 0 ∧ tabGet (fun _ => false) served.smfBusy (1 : Dye).val = false := by decide +kernel
/-- With no frame and no segment in use, a free segment is found from any number on. -/
theorem freeSeg_empty (s : State) (hf : s.frames = []) (hs : s.segments = []) :
    ∀ fuel n m, m < fuel → (n + m) % 524288 < 524096 → ∃ k, s.freeSegFrom fuel n = some k := by
  intro fuel
  induction fuel with
  | zero => intro n m h; omega
  | succ k ih =>
    intro n m hm hn
    simp only [State.freeSegFrom]
    split
    · exact ⟨_, rfl⟩
    · next hc =>
      cases m with
      | succ m => exact ih (n + 1) m (by omega) (by rw [show n + 1 + m = n + (m + 1) by omega]; exact hn)
      | zero =>
        exfalso
        apply hc
        simp only [State.segment, hs, State.frame, hf, tabGet, segReset, Option.isNone_none, Bool.true_and, List.all_eq_true, List.mem_range]
        intro i hi
        have : ¬ 16771072 ≤ 32 * (n % 524288) + i := by simp only [Nat.add_zero] at hn; omega
        simp only [frameReset, this, if_false]
        rfl
theorem wit_SmfCommandResults_alloc :
    ∃ k, State.reset.draw.2.freeSegFrom (State.reset.frames.length + 200) (Config.freeNat State.reset.draw.1) = some k := by
  let n := Config.freeNat State.reset.draw.1
  by_cases h : n % 524288 < 524096
  · exact freeSeg_empty _ rfl rfl _ _ 0 (by decide) h
  · exact freeSeg_empty _ rfl rfl _ _ (524288 - n % 524288) (by show _ < 0 + 200; omega) (by show (n + _) % 524288 < _; omega)

/-! ### Power, clocks, heat (chapter 14) -/

/-- Region 0 of dye 1 in a power state with a target. -/
def rgnIn (st : Word32) (s : State := served) : State := s.wr .pwr (rgnReg 0) st
theorem wit_RegionPowerResults :
    (let s := (rgnIn 0).wr (.spd 0) SPD_CLR_STATUS 0
     0 ∉ s.failedRgns ∧ s.owner 0 ≠ 0 ∧ s.dyeOf .nightPorter = 0 ∧ s.rgnState 0 = 0 ∧ s.mayLeave 0 = true ∧ s.idleServe 0 = true ∧
     s.tier0In 0 = [] ∧ s.bit .pwr PWR_STATUS 4 = false ∧ s.bit .thm THM_STATUS 2 = false ∧ s.dyeOf (.vf 1) ≠ 0 ∧ Master.vf 1 ≠ .innkeeper ∧
     s.idleFor 0 s.idleRet = false ∧ s.idleFor 0 s.idleOff = false ∧ s.moveOf 0 = none ∧ s.bist = []) ∧
    (let s : State := { (rgnIn 0).wr (.spd 0) SPD_CLR_STATUS 0 with now := 10000000 }
     tabGet (fun _ => false) s.ivrShort (0 : RegionNo).val = false ∧ s.idleFor 0 s.idleRet = true ∧ s.idleFor 0 s.idleOff = true) ∧
    (let s := (rgnIn 0).wr (.atp 0) ATP_STATUS 1
     s.rgnState 0 = 0 ∧ s.mayLeave 0 = false) ∧
    (rgnIn 1).rgnState 0 = 1 ∧ (rgnIn 1).noWake = false ∧ (rgnIn 2).rgnState 0 = 2 ∧ (rgnIn 3).rgnState 0 = 3 ∧
    (rgnIn 4).rgnState 0 = 4 ∧ (rgnIn 4).noWake = false ∧ (rgnIn 5).rgnState 0 = 5 ∧
    (let s : State := { rgnIn 5 with trimOver := [0] }
     s.overTrimmed 0 = true ∧ natGet s.wakeFrom (0 : RegionNo).val ≠ 3) ∧
    (let s := rgnIn (4 + 3 * 8)
     s.rgnState 0 = 4 ∧ natGet s.rgnPend (0 : RegionNo).val = 0 ∧ s.rgnTarget 0 = 3) ∧
    (let s := rgnIn 5
     s.rgnState 0 = 5 ∧ natGet s.rgnPend (0 : RegionNo).val = 0 ∧ s.overTrimmed 0 = false ∧ natGet s.wakeFrom (0 : RegionNo).val ≠ 3 ∧ s.rgnTarget 0 = 0) ∧
    (let s : State := { rgnIn 5 with wakeFrom := [(0, 3)] }
     s.rgnState 0 = 5 ∧ natGet s.wakeFrom (0 : RegionNo).val = 3 ∧ natGet s.rgnPend (0 : RegionNo).val = 0 ∧ s.overTrimmed 0 = false) ∧
    (let s := rgnIn 0 State.reset
     s.rgnState 0 ≠ 3 ∧ s.rgnState 0 ≠ 6 ∧ s.moveOf 0 = none ∧ s.owner 0 = 0 ∧ s.steps = [] ∧ s.plans = []) ∧
    (let s : State := { rgnIn (3 + 2 * 128) with ivrShort := [(0, true)] }
     tabGet (fun _ => false) s.ivrShort (0 : RegionNo).val = true ∧ s.fld .pwr (rgnReg 0) 7 2 = 2 ∧ s.noWake = false) ∧
    (rgnIn (3 + 128)).fld .pwr (rgnReg 0) 7 2 < 2 := by decide +kernel
/-- Dye 1 governed between 600 and 1,800 MHz, at 1,000 MHz. -/
def gov0 : State := (served [.partcfg { fMin := 600, fMax := 1800 }]).wr .inn (pageOff 1 INN_D_FREQ) 1000
theorem wit_GovernorResults :
    (let t : SensorSample := sample 16 8 6
     t.wf = true ∧ (∀ x ∈ t.junction, x < 95) ∧ (∀ x ∈ t.hbm, x < 90) ∧ (∀ x ∈ t.optic, x < 75)) ∧ (sample 15 8 6).wf = false ∧
    (let t : SensorSample := ⟨List.replicate 16 110, List.replicate 8 0, List.replicate 6 0⟩
     t.wf = true ∧ State.reset.bit .thm THM_STATUS 2 = false ∧ 110 ≤ t.junction.getD (0 : RegionNo).val 0) ∧
    (let s : State := { gov0.wr .thm THM_MAX 0x500000 with hotAt := [(0, 1)], now := 200000 }
     natGet s.hotAt (0 : RegionNo).val ≠ 0 ∧ natGet s.hotAt (0 : RegionNo).val + 200000 ≤ s.now + 1 ∧ s.hotPackage = true ∧ 1 ∈ s.governed) ∧
    ({ State.reset with hotAt := [(0, 1)] } : State).now + 1 < natGet ({ State.reset with hotAt := [(0, 1)] } : State).hotAt 0 + 200000 ∧
    (State.reset.wr .thm THM_RGN 100).hotPackage = false ∧ (gov0.wr .thm THM_RGN 100).hotPackage = false ∧
    (State.reset.wr .thm THM_RGN 95).junction 0 = 95 ∧
    (let s : State := { State.reset.wr .thm THM_RGN 100 with hotAt := [(0, 1)], now := 200000 }
     natGet s.hotAt (0 : RegionNo).val ≠ 0 ∧ natGet s.hotAt (0 : RegionNo).val + 200000 ≤ s.now + 1 ∧ 100 ≤ s.junction 0 ∧ s.owner 0 ∉ s.governed) ∧
    (let s : State := { gov0.wr .thm THM_RGN 100 with hotAt := [(0, 1)], now := 200000 }
     100 ≤ s.junction 0 ∧ s.owner 0 ∈ s.governed) ∧
    (let s : State := { gov0.wr .pwr (pageOff 1 PWR_D_CEIL) (900 * 65536) with coolAt := 1, now := 10000000 }
     s.coolAt ≠ 0 ∧ max s.coolAt (natGet s.riseAt (1 : Dye).val) + 10000000 ≤ s.now + 1 ∧ 1 ∈ s.governed ∧
     s.thermCeil 1 < min (s.budgetCeil 1) (s.fMaxOf 1) ∧ s.thermCeil 1 ≠ 0 ∧ s.fMaxOf 1 < 2048) ∧
    State.reset.dyeOf .nightPorter = 0 ∧ State.reset.dyeOf (.vf 1) ≠ 0 ∧ (∀ q, State.reset.junction q < 95) ∧
    (let s := gov0
     s.isFront 1 = true ∧ (s.image 1).isSome = true ∧ s.pkgTable 1 = [{ slot := 63, regions := [0] }] ∧ s.peers 1 = [] ∧
     900 ≤ s.fMaxOf 1 ∧ max (s.fMinOf 1) (900 / 25 * 25) < s.targetFreq 1 ∧ 1200 ≤ s.fMaxOf 1 ∧
     s.targetFreq 1 < max (s.fMinOf 1) (1200 / 25 * 25)) ∧
    State.reset.dyeOf .nightPorter = 0 := by decide +kernel
theorem wit_GovernorResults_events :
    (let s : State := { gov0 with sysImage := some (img 0 [.partitions [entry 0 [{ slot := 5, regions := [0] }, { slot := 63, regions := [0] }]]]) }
     s.isFront 1 = false) ∧
    (let s := State.reset
     min 2800000 (450 * s.fld .pkg PKG_SUPPLY 0 16) < 2800001 ∧ 1200 * s.fld .pwr PWR_CAP 0 12 < 3360001 ∧
     0 ≤ min 2800000 (450 * s.fld .pkg PKG_SUPPLY 0 16)) ∧
    (let s := (State.reset.wr .pwr (rgnReg 0) 0).wr .pwr PWR_RGN_TRIM 10
     s.rgnState 0 = 0 ∧ 10 ≤ s.fld .pwr (PWR_RGN_TRIM + 4 * (0 : RegionNo).val) 0 4) ∧
    State.reset.bit .clk CLK_PLL_LOCK (0 : RegionNo).val = false ∧
    (let x : Stretch := { fast := false, freq := 800, since := 0 }
     let s : State := { gov0 with stretch := [(1, some x)], now := 65000 }
     s.stretchOf 1 = some x ∧ x.since + 65000 ≤ s.now ∧ s.switchPoints = []) ∧
    (let s := State.reset.wr .pwr (rgnReg 0) 0
     s.rgnState 0 = 0 ∧ s.fld .pwr (PWR_RGN_TRIM + 4 * (0 : RegionNo).val) 0 4 < 10) ∧
    State.reset.bit .clk CLK_STATUS 0 = true ∧
    (let s := State.reset.wr .clk CLK_PLL_LOCK 1
     s.bit .clk CLK_PLL_LOCK (0 : RegionNo).val = true ∧ s.owner 0 = 0 ∧ s.steps = [] ∧ s.plans = []) ∧
    State.reset.bit .pwr PWR_STATUS 4 = false ∧ (State.reset.wr .pwr PWR_STATUS 0x11).bit .pwr PWR_STATUS 4 = true ∧
    (let s : State := { State.reset with warnReleased := 1, now := 10000000 }
     s.warnReleased ≠ 0 ∧ s.warnReleased + 10000000 ≤ s.now + 1 ∧ s.vin = true) := by decide +kernel

/-! ### The Ledger, snapshots, injection, timing pins (chapter 15) -/

def event0 (sev : Nat) (inj : Bool := false) : LedgerEvent := { type := 2, detector := 1, dye := 1, severity := sev, injected := inj }
def rec0 : LdgRec := { type := 2, detector := 1, dye := 1, severity := 3 }
theorem wit_LedgerResults :
    (let s := State.reset
     s.bit .ldg LDG_STATUS 1 = false ∧ s.ldgClosed = false ∧ s.ldgIngress = [] ∧ s.ldgOpen = [] ∧ (event0 2).type ≠ 1 ∧
     (event0 2).severity < 3 ∧ 3 ≤ (event0 3).severity ∧ (event0 3).severity ≠ 5 ∧ (event0 5).severity = 5 ∧ (event0 5).injected = false ∧
     ({ event0 2 with type := 1 } : LedgerEvent).detector.toNat ∉ ([0x08, 0x0A, 0x0B, 0x0C, 0x0D, 0x16, 0x22, 0x27] : List Nat) ∧
     s.mramFree = true ∧ ({ s with ldgAt := 1 } : State).mramFree = false ∧ s.ldgAt ≠ s.now + 1 ∧
     ({ s with ldgAt := 1 } : State).ldgAt = s.now + 1 ∧ s.rgnState 0 = 3 ∧ (event0 3 true).injected = true ∧ s.bit .inj INJ_STATUS 1 = false ∧
     s.ldgRing.length < ringSize) ∧
    ({ State.reset with ldgClosed := true } : State).ldgClosed = true ∧
    ({ State.reset with ldgCommit := [rec0] } : State).ldgCommit = rec0 :: [] ∧
    (let s : State := { State.reset with ldgRing := [rec0], ldgSeq := 1 }
     (∀ x ∈ s.ldgRing, x.seq < s.ldgSeq) ∧
     s.ldgRing.find? (fun x => x.seq % 2 ^ 32 == (s.rd .ldg LDG_REC_IDX).toNat) = some rec0 ∧
     s.ldgRing.find? (fun x => x.dye == 1 && decide ((s.rdP .ldg 1 LDG_D_REC_IDX).toNat ≤ x.seq)) = some rec0 ∧
     s.dyeOf (.vf 1) = 1 ∧ s.dyeOf (.vf 2) ≠ 1 ∧ s.dyeOf (.vf 2) ≠ 0 ∧ s.dyeOf .nightPorter = 0) ∧
    State.reset.ldgRing.find? (fun x => x.seq % 2 ^ 32 == (State.reset.rd .ldg LDG_REC_IDX).toNat) = none ∧
    (let s := rgnIn 0 State.reset
     s.rgnState 0 ≠ 3 ∧ s.rgnState 0 ≠ 6 ∧ s.owner 0 = 0 ∧ s.steps = [] ∧ s.plans = []) := by decide +kernel
theorem wit_SnapshotInjectionPinResults :
    (let s := (State.reset.wr64 .ldg (snapBase 0) 30000).wr64 .ldg (snapBase 2) 2000
     (s.snap 0).armed = false ∧ s.now + 30000 ≤ (s.rd64 .ldg (snapBase 0)).toNat ∧ (s.rd64 .ldg (snapBase 0)).toNat ≤ s.now + 10000000000 ∧
     s.isFront 1 = true ∧
     (s.snap 2).armed = false ∧ s.now + 2000 ≤ (s.rd64 .ldg (snapBase 2)).toNat ∧ s.dyeOf (.vf 1) = 1 ∧ s.dyeOf .nightPorter = 0) ∧
    (State.reset.rd64 .ldg (snapBase 0)).toNat < State.reset.now + 2000 ∧
    (let s : State := { State.reset with snaps := [(0, { armed := true })] }
     (s.snap 0).armed = true ∧ (s.snap 0).value ≤ s.now ∧ (s.snap 0).waits = [] ∧ (s.snap 1).armed = false) ∧
    (let s : State := { State.reset with snaps := [(0, { armed := true, waits := [5] })] }
     (s.snap 0).armed = true ∧ (s.snap 0).value ≤ s.now ∧ 5 ∈ (s.snap 0).waits ∧ 5 ∉ s.lostSlots) ∧
    (let s : State := { State.reset with snaps := [(2, { armed := true, asker := some 5 })] }
     (s.snap 2).armed = true ∧ (s.snap 2).value ≤ s.now ∧ (s.snap 2).waits = [] ∧ (s.snap 2).asker = some 5) ∧
    ((State.reset.wr .inj INJ_STATUS 3).bit .inj INJ_STATUS 0 = true ∧ (State.reset.wr .inj INJ_STATUS 3).bit .inj INJ_STATUS 1 = true) ∧
    ((State.reset.wr .inj INJ_STATUS 1).bit .inj INJ_STATUS 0 = true ∧ (State.reset.wr .inj INJ_STATUS 1).injBadTarget = true) ∧
    (let s : State := { State.reset.wr .tmx TMX_STATUS 2 with tmx := [(0, { next := 0x0A01, waiting := some 0 })] }
     s.fld .tmx (TMX_STATUS + 4 * (0 : Fin 4).val) 0 2 = 2 ∧ (tabGet tmxReset s.tmx (0 : Fin 4).val).waiting = some 0) ∧
    State.reset.fld .tmx (TMX_STATUS + 4 * (0 : Fin 4).val) 0 2 ≠ 2 ∧
    (let s : State := { State.reset with snaps := [(2, { armed := true })] }
     (s.snap 2).armed = true ∧ (s.snap 2).value ≤ s.now) ∧
    (let s := ((State.reset.wr .inj INJ_STATUS 1).wr .inj INJ_DETECTOR 0x10).wr64 .inj INJ_ADDR_L 0x10000000000
     s.bit .inj INJ_STATUS 0 = true ∧ s.bit .inj INJ_STATUS 1 = false ∧ s.injBadTarget = false ∧ s.injOwner = 0) ∧
    State.reset.bit .inj INJ_STATUS 0 = false ∧ State.reset.fld .tmx (TMX_STATUS + 4 * (3 : Fin 4).val) 8 2 = 0 ∧
    tmxArgBad (bitsOf (0x0A01 : Word32) 0 8) (bitsOf (0x0A01 : Word32) 8 8) = false ∧
    State.reset.tmxDye (bitsOf (0x0A01 : Word32) 0 8) (bitsOf (0x0A01 : Word32) 8 8) = 0 ∧
    (let s : State := { State.reset.wr .tmx TMX_STATUS 2 with tmx := [(0, { next := 0x0A01 })] }
     s.fld .tmx (TMX_STATUS + 4 * (0 : Fin 4).val) 0 2 = 2 ∧ (tabGet tmxReset s.tmx (0 : Fin 4).val).waiting = none) ∧
    (let s : State := { State.reset.wr .cnt CNT_STATUS 0x10 with master := some 63 }
     s.master = some s.slot ∧ s.bit .cnt CNT_STATUS 4 = true) := by decide +kernel

/-! ### Security, management, pins (chapters 16 and 17) -/

def path0 : MgtPath := { session := some 65537 }
/-- A session with an authenticated requester, whose authority is key 7. -/
def mgt0 (s : State := State.reset) : State :=
  { s with spdmStage := 3, spdm := [{ id := 65537, finished := true, requester := some 7 }], authority := [(0, some 7)] }
theorem wit_SpdmResults :
    (let s := mgt0
     s.npRuns = true ∧ s.romOnly = false ∧ 3 ≤ s.spdmStage ∧ s.sessionOf path0 = some { id := 65537, finished := true, requester := some 7 } ∧
     s.isAuthority 7 = true ∧ (s.measurement 6).isSome = true) ∧
    (let s := State.reset
     s.npRuns = true ∧ s.romOnly = false ∧ s.spdmStage < 3 ∧ s.sessionOf path0 = none) ∧
    (let x : SpdmSession := { id := 65537 }
     let s : State := { mgt0 with spdm := [x] }
     x ∈ s.spdm ∧ x.finished = false ∧ ((some 7).map s.isAuthority).getD true = true ∧ ((some 8).map s.isAuthority).getD true = false) := by
  decide +kernel
theorem wit_ManagementResults :
    (let s := mgt0
     s.npRuns = true ∧ s.romOnly = false ∧ s.authenticated path0 = true ∧ 649 < s.fld .pwr PWR_FLOOR 0 12 ∧ s.fld .pwr PWR_FLOOR 0 12 ≤ 650 ∧
     s.updChecking = false ∧ ({ s with updChecking := true } : State).updChecking = true ∧ ({ s with npRuns := false } : State).npRuns = false ∧
     s.partState 1 ≠ 1 ∧ (fill 1025).length > 1024 ∧ (fill 1024).length ≤ 1024 ∧ s.imgStage.length + 1024 ≤ 4194304 ∧ s.imgStage.length ≠ sys1.length ∧ s.rails = true ∧ s.hasTenants = false ∧ s.checking = none ∧
     s.updateWritten = false ∧ s.authenticated {} = false ∧ (s.sensor 0).isSome = true ∧ s.sensor 0x50 = none ∧ (∃ j < 4, s.authorityAt j ≠ none) ∧
     s.authorityAt 1 ≠ some 7 ∧ s.authorityAt 0 = some 7 ∧ (∀ j < 4, j ≠ 0 → s.authorityAt j ≠ some 7) ∧ s.sessionOf path0 = some { id := 65537, finished := true, requester := some 7 }) ∧
    ({ mgt0 with updateWritten := true } : State).updateWritten = true ∧
    (let s := mgt0 (State.reset.wr .pkg (PKG_PART_STATUS + 4) 1)
     s.partState 1 = 1 ∧ s.hasTenants = true) ∧
    (let s : State := { mgt0 with imgStage := fill 320 }
     s.imgStage.length = sys1.length ∧ sys1.length ≠ 0 ∧ s.loading 0 = false ∧ s.receives 0 = true ∧ s.formatBad 0 sys1 = none ∧
     s.signatureBad 0 sys1 = none ∧ s.entriesBusy sys1 = false) ∧
    (mgt0 (State.reset.wrP .pkg 0 PKG_IMG_D_STATUS 2)).loading 0 = true ∧
    (∀ j < 4, State.reset.authorityAt j = none) ∧
    ({ mgt0 with rails := false } : State).rails = false := by decide +kernel
/-- Dye 1 is in use here with its keys, and a token for its image waits for its check. -/
def token0 (notAfter : Word64 := 1000) : DebugToken :=
  { dye := 1, scope := 1, notAfter := notAfter, challenge := 5, generation := 1, keyDigest := 0 }
def sec0 : State :=
  { (served.wr .pkg (PKG_PART_STATUS + 4) 1).wr .sec (pageOff 1 SEC_D_STATUS) 1 with
    challenges := [(1, some { value := 5, issuedAt := 0 })] }
def copy0 (sig ready : Bool) : FirmwareCopy := { fwVersion := 1, secVersion := 0, sigOk := sig, ready := ready, npDigest := 0, dieDigest := 0 }
theorem wit_TokenQuoteBootResults :
    (let c : Option Challenge := some { value := 5, issuedAt := 0 }
     let s : State := { sec0 with checking := some (token0, c) }
     s.checking = some (token0, c) ∧ tabGet (fun _ => none) s.challenges token0.dye.val = c ∧ natGet s.revokeAt token0.dye.val ≠ s.now + 1 ∧
     s.tokenCode token0 c = 0 ∧ s.now < token0.notAfter.toNat ∧ s.dyeOf .nightPorter = 0 ∧ s.dyeOf (.vf 1) = 1) ∧
    (let c : Option Challenge := some { value := 6, issuedAt := 0 }
     let s : State := { sec0 with checking := some (token0, c), challenges := [(1, c)] }
     tabGet (fun _ => none) s.challenges token0.dye.val = c ∧ s.tokenCode token0 c ≠ 0) ∧
    (let s : State := { sec0 with tokens := [(1, some (token0 0))] }
     s.tokenOf 1 = some (token0 0) ∧ (token0 0).notAfter.toNat ≤ s.now) ∧
    (let s : State := { sec0 with tokens := [(1, some token0)] }
     s.tokenOf 1 = some token0 ∧ s.now < token0.notAfter.toNat ∧ s.checking = none) ∧
    (let q : QuoteReq := { addr := 0x800000000000, nonce := List.replicate 8 3 }
     let s : State := { sec0 with quotes := [(1, some q)] }
     tabGet (fun _ => none) s.quotes (1 : Dye).val = some q ∧ s.keysLoaded 1 = true ∧ s.place 1 (q.addr.toNat % 2 ^ 48) = .host 0 ∧
     s.hostUp = true ∧ q.nonce.length = 8) ∧
    sec0.keysLoaded 1 = true ∧ tabGet (fun _ => none) sec0.quotes (1 : Dye).val = none ∧ sec0.keysLoaded 2 = false ∧
    (let s : State := { State.reset with rails := false, preferredB := false, fwCopies := [], now := 2000000 }
     s.npRuns = true ∧ s.vaon = true ∧ s.secFloor ≤ (copy0 true true).secVersion ∧ s.norImage = none ∧ s.norOlder = none ∧ s.bootFails = 0 ∧
     s.railsMayStart = true ∧ (copy0 false false).sigOk = false ∧ ({ s with vin := false } : State).railsMayStart = false) := by decide +kernel
theorem wit_PinResults :
    ({ State.reset with vaon := false } : State).resetN = true ∧ ({ State.reset with resetN := false, vaon := false } : State).vaon = false ∧
    State.reset.norAt ≠ State.reset.now + 1 ∧ State.reset.authWas = none ∧
    (∃ p, ({ State.reset with authWas := some (0, []) } : State).authWas = some p ∧ p.1 ≠ State.reset.now + 1) ∧
    ({ State.reset with perstN := false } : State).perstN = false ∧ ({ State.reset with vin := false } : State).vin = false ∧
    ({ State.reset with sysRef := false } : State).sysRef = false ∧ State.reset.vaon = true ∧ State.reset.perstN = true ∧
    State.reset.vin = true ∧ State.reset.rails = true ∧
    (let s : State := { State.reset with resetN := false }
     s.resetN = false ∧ s.vaon = true) ∧
    (let s : State := { State.reset with rails := false, now := 1000000 }
     s.npRuns = true ∧ s.romOnly = false ∧ s.vin = true ∧ s.sysRef = true ∧ s.resetN = true ∧ s.vinAt + 1000000 ≤ s.now ∧
     s.sysRefAt + 1000000 ≤ s.now ∧ s.norImage = none ∧ s.norOlder = none ∧ s.sysImage = none) ∧
    ({ State.reset with rails := false } : State).now < ({ State.reset with rails := false } : State).vinAt + 1000000 := by
  refine ⟨by decide +kernel, by decide +kernel, by decide +kernel, by decide +kernel, ⟨_, rfl, by decide +kernel⟩, by decide +kernel⟩

end Sys2Proof.Tests
end

section
/-! The step of the block by the shape of its queue, and the statement about it. -/

namespace Sys2Proof.Machine

/-- With no command waiting a step is one edge of the reference clock (log entry 81). -/
theorem step_of_pending_nil {s : State} (h : s.pending = []) : step s = .next s.tick := by
  simp only [step, h]

/-- With commands waiting a step takes the front one and leaves the rest of the queue to it. -/
theorem step_of_pending_cons {s : State} {c : Instr} {rest : List Instr} (h : s.pending = c :: rest) :
    step s = exec c { s with pending := rest } := by
  simp only [step, h]

/-- A command put in front of the queue is the one that runs, on the state it was put before. -/
theorem step_push_front (s : State) (c : Instr) : step { s with pending := c :: s.pending } = exec c s :=
  step_of_pending_cons (s := { s with pending := c :: s.pending }) rfl

/-- Settles O1, by the two shapes of the queue. -/
theorem stepTakesTheFrontCommand : Obligations.StepTakesTheFrontCommand := by
  intro s c rest
  exact ⟨step_of_pending_cons, step_push_front s c, step_of_pending_nil⟩

end Sys2Proof.Machine
end

section
/-! SUPPORT. Bit fields of a register, and what the operations shared by the commands of the system counter can change: the Ledger's
intake, comparators and calendars, the registers that follow the Innkeeper, and a switch of frequency. -/

namespace Sys2Proof.Machine

/-! ### Lists -/

/-- Where an element is the only one of its kind, taking it out leaves none equal to it. -/
theorem not_mem_erase_of_filter_eq_singleton {α : Type} [BEq α] [LawfulBEq α] {l : List α} {p : α → Bool} {a : α}
    (h : l.filter p = [a]) : a ∉ l.erase a := by
  have hp : p a = true := (List.mem_filter.1 (h ▸ List.mem_singleton_self a)).2
  have hcount : l.count a = 1 := by rw [← List.count_filter hp, h, List.count_singleton_self]
  rw [← List.count_eq_zero, List.count_erase_self, hcount]

/-! ### Fields -/

/-- What stands above the field, the field, and what stands below it. -/
theorem toNat_putBits {w : Nat} (x : BitVec w) (lo n v : Nat) (h : lo + n ≤ w) :
    (putBits x lo n v).toNat = x.toNat / 2 ^ (lo + n) * 2 ^ (lo + n) + v % 2 ^ n * 2 ^ lo + x.toNat % 2 ^ lo := by
  have hfield : x.toNat / 2 ^ lo = x.toNat / 2 ^ (lo + n) * 2 ^ n + bitsOf x lo n := by
    rw [bitsOf, pow_add, ← Nat.div_div_eq_div_mul, Nat.div_add_mod']
  have hsplit : x.toNat = x.toNat / 2 ^ (lo + n) * 2 ^ (lo + n) + bitsOf x lo n * 2 ^ lo + x.toNat % 2 ^ lo := by
    conv_lhs => rw [← Nat.div_add_mod' x.toNat (2 ^ lo), hfield]
    ring
  have hv : v % 2 ^ n * 2 ^ lo + x.toNat % 2 ^ lo < 2 ^ (lo + n) := by
    have h1 : v % 2 ^ n < 2 ^ n := Nat.mod_lt _ (by positivity)
    have h2 : x.toNat % 2 ^ lo < 2 ^ lo := Nat.mod_lt _ (by positivity)
    calc v % 2 ^ n * 2 ^ lo + x.toNat % 2 ^ lo < (v % 2 ^ n + 1) * 2 ^ lo := by linarith
      _ ≤ 2 ^ n * 2 ^ lo := Nat.mul_le_mul_right _ h1
      _ = 2 ^ (lo + n) := by ring
  have hhi : (x.toNat / 2 ^ (lo + n) + 1) * 2 ^ (lo + n) ≤ 2 ^ w := by
    have hw : 2 ^ w = 2 ^ (w - (lo + n)) * 2 ^ (lo + n) := by rw [← pow_add, Nat.sub_add_cancel h]
    rw [hw]
    exact Nat.mul_le_mul_right _ (Nat.div_lt_of_lt_mul (by rw [mul_comm, ← hw]; exact x.isLt))
  rw [putBits, BitVec.toNat_ofNat, Nat.mod_eq_of_lt] <;> [skip; rw [add_mul] at hhi] <;> omega

/-- A field reads as it was written. -/
theorem bitsOf_putBits_self {w : Nat} (x : BitVec w) (lo n v : Nat) (h : lo + n ≤ w) :
    bitsOf (putBits x lo n v) lo n = v % 2 ^ n := by
  have hlo : x.toNat % 2 ^ lo < 2 ^ lo := Nat.mod_lt _ (by positivity)
  rw [bitsOf, toNat_putBits x lo n v h, pow_add, Nat.mul_comm (2 ^ lo), ← mul_assoc, ← add_mul, Nat.add_comm,
    Nat.add_mul_div_right _ _ (by positivity),
    Nat.div_eq_of_lt hlo, Nat.zero_add, Nat.mul_add_mod_self_right, Nat.mod_mod]

/-- A field below the one written keeps its value. -/
theorem bitsOf_putBits_below {w : Nat} (x : BitVec w) (lo n v l m : Nat) (h : lo + n ≤ w) (hl : l + m ≤ lo) :
    bitsOf (putBits x lo n v) l m = bitsOf x l m := by
  have hlow : ∀ y : Nat, y / 2 ^ l % 2 ^ m = y % 2 ^ lo % 2 ^ (l + m) / 2 ^ l := by
    intro y
    rw [Nat.mod_mod_of_dvd _ (pow_dvd_pow 2 hl), pow_add, Nat.mod_mul_right_div_self]
  have hkeep : (putBits x lo n v).toNat % 2 ^ lo = x.toNat % 2 ^ lo := by
    rw [toNat_putBits x lo n v h, pow_add, Nat.mul_comm (2 ^ lo), ← mul_assoc, ← add_mul, Nat.add_comm,
      Nat.add_mul_mod_self_right, Nat.mod_mod]
  rw [bitsOf, bitsOf, hlow, hlow, hkeep]

theorem State.fld_wr_other (s : State) (w x : Win) (o p lo n : Nat) (v : Word32) (h : regKey x p ≠ regKey w o) :
    (s.wr w o v).fld x p lo n = s.fld x p lo n := by
  rw [State.fld, State.rd_wr_other s w x o p v h, State.fld]
theorem State.fld_setFld_self (s : State) (w : Win) (o lo n v : Nat) (h : lo + n ≤ 32) :
    (s.setFld w o lo n v).fld w o lo n = v % 2 ^ n := by
  rw [State.fld, State.setFld, State.rd_wr_self, bitsOf_putBits_self _ _ _ _ h]
theorem State.fld_setFld_below (s : State) (w : Win) (o lo n v l m : Nat) (h : lo + n ≤ 32) (hl : l + m ≤ lo) :
    (s.setFld w o lo n v).fld w o l m = s.fld w o l m := by
  rw [State.fld, State.setFld, State.rd_wr_self, bitsOf_putBits_below _ _ _ _ _ _ h hl, State.fld]
theorem State.fld_setFld_other (s : State) (w x : Win) (o p lo n v l m : Nat) (h : regKey x p ≠ regKey w o) :
    (s.setFld w o lo n v).fld x p l m = s.fld x p l m := State.fld_wr_other _ _ _ _ _ _ _ _ h

/-! ### What a shared operation can change -/

/-- An event enters the Ledger's intake, or is counted in LDG_FOLDED. -/
theorem State.ledger_frame (s : State) (e : LedgerEvent) :
    ∃ g i o, s.ledger e = { s with regs := g, ldgIngress := i, ldgOpen := o } ∧
      ∀ k, k ≠ regKey .ldg LDG_FOLDED → tabGet regReset g k = tabGet regReset s.regs k := by
  have hbump : ∀ k, k ≠ regKey .ldg LDG_FOLDED →
      tabGet regReset (s.bump .ldg LDG_FOLDED).regs k = tabGet regReset s.regs k := fun k h => tabGet_tabSet_other _ _ _ h
  unfold State.ledger
  split_ifs
  · exact ⟨_, _, _, rfl, fun _ _ => rfl⟩
  · exact ⟨_, _, _, rfl, fun _ _ => rfl⟩
  · exact ⟨_, _, _, rfl, hbump⟩
  · exact ⟨_, _, _, rfl, fun _ _ => rfl⟩
  · exact ⟨_, _, _, rfl, hbump⟩

theorem State.rd_ledger (s : State) (e : LedgerEvent) (w : Win) (o : Nat) (h : regKey w o ≠ regKey .ldg LDG_FOLDED) :
    (s.ledger e).rd w o = s.rd w o := by
  obtain ⟨g, i, x, ht, hg⟩ := s.ledger_frame e
  rw [ht]
  exact hg _ h

theorem State.fld_ledger (s : State) (e : LedgerEvent) (w : Win) (o lo n : Nat) (h : regKey w o ≠ regKey .ldg LDG_FOLDED) :
    (s.ledger e).fld w o lo n = s.fld w o lo n := by
  rw [State.fld, State.rd_ledger s e w o h, State.fld]

/-- An INFO record enters the Ledger and nothing else. -/
theorem State.info_frame (s : State) (d : Dye) (l : List Nat) :
    ∃ g i o, s.info d l = { s with regs := g, ldgIngress := i, ldgOpen := o } := by
  obtain ⟨g, i, o, h, -⟩ := s.ledger_frame { type := 5, detector := 0, dye := d, severity := 0, detail := l }
  exact ⟨g, i, o, h⟩

/-- An event of a package unit enters the Ledger and nothing else. -/
theorem State.detectUnit_frame (s : State) (d : Nat) (dye : Dye) (unit : Nat) (detail : List Nat) :
    ∃ g i o, s.detectUnit d dye unit detail = { s with regs := g, ldgIngress := i, ldgOpen := o } ∧
      ∀ k, k ≠ regKey .ldg LDG_FOLDED → tabGet regReset g k = tabGet regReset s.regs k := State.ledger_frame _ _

/-- A pulse shows on the pins of the test multiplexer alone. -/
theorem State.pulse_frame (s : State) (n : Nat) (hit : Nat → Bool) : ∃ o u, s.pulse n hit = { s with tmxOut := o, tmxUntil := u } := by
  refine List.foldlRecOn (motive := fun t : State => ∃ o u, t = { s with tmxOut := o, tmxUntil := u }) _ _ ⟨_, _, rfl⟩ ?_
  rintro _ ⟨o, u, rfl⟩ a -
  split <;> exact ⟨_, _, rfl⟩

/-- An event that is armed stands on a comparator or on the calendar. -/
theorem State.armCmp_frame (s : State) (o v : Nat) (x : CalWhat) : ∃ c l, s.armCmp o v x = { s with cmps := c, calendar := l } := by
  unfold State.armCmp
  split <;> exact ⟨_, _, rfl⟩

theorem State.rearm_frame (s : State) (o : Nat) : ∃ c l, s.rearm o = { s with cmps := c, calendar := l } := by
  simp only [State.rearm]
  split
  · exact ⟨_, _, rfl⟩
  · next e _ =>
    obtain ⟨c, l, h⟩ := ({ s with calendar := s.calendar.erase e } : State).armCmp_frame o e.value e.what
    exact ⟨c, l, h⟩

theorem State.rearmAll_frame (s : State) : ∃ c l, s.rearmAll = { s with cmps := c, calendar := l } := by
  refine List.foldlRecOn (motive := fun t : State => ∃ c l, t = { s with cmps := c, calendar := l }) _ _ ⟨_, _, rfl⟩ ?_
  rintro t ht - -
  refine List.foldlRecOn (motive := fun t : State => ∃ c l, t = { s with cmps := c, calendar := l }) _ _ ht ?_
  rintro _ ⟨c, l, rfl⟩ o -
  exact State.rearm_frame _ o

/-- An owner without events on the calendar has nothing to arm. -/
theorem State.rearm_none (s : State) (o : Nat) (h : ∀ e ∈ s.calendar, e.owner ≠ o) : s.rearm o = s := by
  have hmine : s.calendar.filter (fun e => e.owner == o) = [] := by simpa using h
  simp only [State.rearm, hmine, List.foldl_nil]

/-- A switch point is listed, last, and what it replaces is gone. -/
theorem State.schedule_frame (s : State) (d : Dye) (f v : Nat) :
    ∃ p c l, s.schedule d f v = { s with switchPoints := p ++ [(d, f, v)], cmps := c, calendar := l } := by
  simp only [State.schedule]
  obtain ⟨c, l, h⟩ := State.armCmp_frame _ 0 v (.freq d f)
  exact ⟨_, c, l, h⟩

theorem State.endStretch_frame (s : State) (d : Dye) : ∃ x h, s.endStretch d = { s with stretch := x, ldgHist := h } := by
  unfold State.endStretch
  split
  · exact ⟨_, _, rfl⟩
  · unfold State.hist
    split_ifs <;> exact ⟨_, _, rfl⟩

/-! ### The registers of the Innkeeper follow its state -/

/-- Where only registers differ, a write leaves it so. -/
theorem State.wr_onlyRegs {s t : State} (h : ∃ g, t = { s with regs := g }) (w : Win) (o : Nat) (v : Word32) :
    ∃ g, t.wr w o v = { s with regs := g } := by
  obtain ⟨g, rfl⟩ := h
  exact ⟨_, rfl⟩

theorem State.innFollow_frame (s : State) (d : Dye) : ∃ g, s.innFollow d = { s with regs := g } := by
  simp only [State.innFollow, State.countSess, State.setBit, State.setFld, State.wrP]
  iterate 7 refine State.wr_onlyRegs ?_ _ _ _
  exact ⟨_, rfl⟩

/-- Registers of other windows stay. -/
theorem State.rd_innFollow_other (s : State) (d : Dye) (w : Win) (o : Nat) (h : ∀ p, p < 0x10000 → regKey w o ≠ regKey .inn p) :
    (s.innFollow d).rd w o = s.rd w o := by
  have hp : ∀ p, p < 0x100 → regKey w o ≠ regKey .inn (pageOff d p) := fun p hp => h _ (by have := d.isLt; simp only [pageOff]; omega)
  simp only [State.innFollow, State.countSess, State.setBit, State.setFld, State.wrP]
  rw [State.rd_wr_other _ _ _ _ _ _ (hp _ (by decide)), State.rd_wr_other _ _ _ _ _ _ (h _ (by decide)),
    State.rd_wr_other _ _ _ _ _ _ (h _ (by decide)), State.rd_wr_other _ _ _ _ _ _ (hp _ (by decide)),
    State.rd_wr_other _ _ _ _ _ _ (hp _ (by decide)), State.rd_wr_other _ _ _ _ _ _ (hp _ (by decide)),
    State.rd_wr_other _ _ _ _ _ _ (hp _ (by decide))]

theorem regKey_page_ne (w : Win) (d : Dye) {o p : Nat} (h : o ≠ p) : regKey w (pageOff d o) ≠ regKey w (pageOff d p) := by
  simp only [regKey, pageOff]; omega
theorem regKey_page_ne_low (w : Win) (d : Dye) {o p : Nat} (h : p < 0x1000) : regKey w (pageOff d o) ≠ regKey w p := by
  simp only [regKey, pageOff]; omega

/-- INN_D_FREQ keeps its frequency: f_price beside it is brought up to date. -/
theorem State.commonFreq_innFollow (s : State) (d : Dye) : (s.innFollow d).commonFreq d = s.commonFreq d := by
  have hlt : s.commonFreq d < 2 ^ 16 := Nat.mod_lt _ (by decide)
  have hrd : ∃ n, (s.innFollow d).rd .inn (pageOff d INN_D_FREQ) = BitVec.ofNat 32 (s.commonFreq d + n * 2 ^ 16) := by
    simp only [State.innFollow, State.countSess, State.setBit, State.setFld, State.wrP]
    rw [State.rd_wr_other _ _ _ _ _ _ (regKey_page_ne _ _ (by decide)), State.rd_wr_other _ _ _ _ _ _ (regKey_page_ne_low _ _ (by decide)),
      State.rd_wr_other _ _ _ _ _ _ (regKey_page_ne_low _ _ (by decide)), State.rd_wr_other _ _ _ _ _ _ (regKey_page_ne _ _ (by decide)),
      State.rd_wr_other _ _ _ _ _ _ (regKey_page_ne _ _ (by decide)), State.rd_wr_self]
    exact ⟨_, rfl⟩
  obtain ⟨n, hn⟩ := hrd
  rw [State.commonFreq, State.fld, hn, bitsOf, BitVec.toNat_ofNat]
  omega

/-! ### A switch of frequency -/

/-- The regions of a list run at f, and trims that waited are applied. -/
def State.retune (s : State) (f : Nat) (l : List RegionNo) : State := l.foldl (fun (t : State) r => (t.setRgnFreq r f).applyTrim r) s

/-- A switch: the dye's frequency, its Active regions, a stretch that ends, and the registers that follow. -/
theorem State.switchTo_eq (s : State) (d : Dye) (f : Nat) : ∃ l, (∀ r, s.owner r = d → s.rgnActive r = true → r ∈ l) ∧
    s.switchTo d f = (((s.setFld .inn (pageOff d INN_D_FREQ) 0 16 f).retune f l).endStretch d).innFollow d := by
  refine ⟨_, fun r ho ha => ?_, rfl⟩
  have hd := d.isLt
  have howner : (s.setFld .inn (pageOff d INN_D_FREQ) 0 16 f).owner r = s.owner r :=
    congrArg (Fin.ofNat 16) (State.fld_setFld_other s _ (.rgn r) _ _ _ _ _ _ _ (by
      simp only [regKey, winIndex, pageOff, RGN_OWNER, INN_D_FREQ]; omega))
  have hactive : (s.setFld .inn (pageOff d INN_D_FREQ) 0 16 f).rgnActive r = s.rgnActive r :=
    congrArg (· == 0) (State.fld_setFld_other s _ .pwr _ _ _ _ _ _ _ (by
      simp only [regKey, winIndex, pageOff, PWR_RGN_STATUS, INN_D_FREQ]; omega))
  simp [State.regionsOf, allRegions, howner, hactive, ho, ha]

theorem State.retune_frame (f : Nat) : ∀ (l : List RegionNo) (s : State), ∃ g p, s.retune f l = { s with regs := g, trimPend := p }
  | [], s => ⟨_, _, rfl⟩
  | r :: l, s => by
    obtain ⟨g, p, h⟩ := State.retune_frame f l ((s.setRgnFreq r f).applyTrim r)
    exact ⟨g, p, h⟩

theorem State.rd_retune_other (f : Nat) (w : Win) (o : Nat) (h : ∀ r, regKey w o ≠ regKey .pwr (rgnReg r)) :
    ∀ (l : List RegionNo) (s : State), (s.retune f l).rd w o = s.rd w o
  | [], _ => rfl
  | r :: l, s => (State.rd_retune_other f w o h l _).trans (State.rd_wr_other s _ _ _ _ _ (h r))

theorem State.rgnFreq_eq (s : State) (r : RegionNo) : s.rgnFreq r = bitsOf (s.rd .pwr (rgnReg r)) 16 11 := rfl

theorem State.rgnFreq_setRgnFreq (s : State) (q r : RegionNo) (f : Nat) (hf : f < 2048) :
    (s.setRgnFreq q f).rgnFreq r = if r = q then f else s.rgnFreq r := by
  split
  · next h =>
    subst h
    exact (State.fld_setFld_self s .pwr (rgnReg r) 16 11 f (by decide)).trans (Nat.mod_eq_of_lt hf)
  · next h =>
    refine State.fld_setFld_other s .pwr .pwr (rgnReg q) (rgnReg r) _ _ _ _ _ ?_
    have : r.val ≠ q.val := fun e => h (Fin.ext e)
    simp only [regKey, rgnReg]
    omega

theorem State.rgnFreq_retune (f : Nat) (hf : f < 2048) (r : RegionNo) :
    ∀ (l : List RegionNo) (s : State), (s.retune f l).rgnFreq r = if r ∈ l then f else s.rgnFreq r
  | [], _ => rfl
  | q :: l, s => by
    have htail : (s.retune f (q :: l)).rgnFreq r = if r ∈ l then f else (s.setRgnFreq q f).rgnFreq r :=
      State.rgnFreq_retune f hf r l ((s.setRgnFreq q f).applyTrim q)
    rw [htail, State.rgnFreq_setRgnFreq s q r f hf]
    by_cases hq : r = q <;> simp [hq]

theorem regKey_pwr_ne_inn (r : RegionNo) {p : Nat} (h : p < 0x10000) : regKey .pwr (rgnReg r) ≠ regKey .inn p := by
  simp only [regKey, winIndex, rgnReg, PWR_RGN_STATUS]; omega

theorem State.switchTo_frame (s : State) (d : Dye) (f : Nat) :
    ∃ g p x h, s.switchTo d f = { s with regs := g, trimPend := p, stretch := x, ldgHist := h } := by
  obtain ⟨l, -, h⟩ := s.switchTo_eq d f
  obtain ⟨g, p, h1⟩ := State.retune_frame f l (s.setFld .inn (pageOff d INN_D_FREQ) 0 16 f)
  obtain ⟨x, y, h2⟩ := State.endStretch_frame ((s.setFld .inn (pageOff d INN_D_FREQ) 0 16 f).retune f l) d
  obtain ⟨g', h3⟩ := State.innFollow_frame (((s.setFld .inn (pageOff d INN_D_FREQ) 0 16 f).retune f l).endStretch d) d
  rw [h, h3, h2, h1]
  exact ⟨g', p, x, y, rfl⟩

theorem State.endStretch_rd (s : State) (d : Dye) (w : Win) (o : Nat) : (s.endStretch d).rd w o = s.rd w o := by
  obtain ⟨x, h, e⟩ := s.endStretch_frame d
  rw [e]
  rfl

/-- From the switch on the dye runs at f. -/
theorem State.commonFreq_switchTo (s : State) (d : Dye) (f : Nat) (hf : f < 2048) : (s.switchTo d f).commonFreq d = f := by
  obtain ⟨l, -, h⟩ := s.switchTo_eq d f
  have hd := d.isLt
  have hkey : ∀ r, regKey .inn (pageOff d INN_D_FREQ) ≠ regKey .pwr (rgnReg r) := fun r =>
    (regKey_pwr_ne_inn r (by simp only [pageOff, INN_D_FREQ]; omega)).symm
  rw [h, State.commonFreq_innFollow, State.commonFreq, State.fld, State.endStretch_rd, State.rd_retune_other f _ _ hkey]
  exact (State.fld_setFld_self s _ _ 0 16 f (by decide)).trans (Nat.mod_eq_of_lt (by omega))

/-- From the switch on every Active region of the dye runs at f. -/
theorem State.rgnFreq_switchTo (s : State) (d : Dye) (f : Nat) (hf : f < 2048) (r : RegionNo) (ho : s.owner r = d)
    (ha : s.rgnActive r = true) : (s.switchTo d f).rgnFreq r = f := by
  obtain ⟨l, hl, h⟩ := s.switchTo_eq d f
  have hmem : ((s.setFld .inn (pageOff d INN_D_FREQ) 0 16 f).retune f l).rgnFreq r = f := by
    rw [State.rgnFreq_retune f hf r l, if_pos (hl r ho ha)]
  rw [h, State.rgnFreq_eq, State.rd_innFollow_other _ _ _ _ (fun p hp => regKey_pwr_ne_inn r hp), State.endStretch_rd]
  exact hmem

/-! ### Frames of a statement -/

theorem SameRegsBut.refl (ks : List Nat) (s : State) : SameRegsBut ks s s := fun _ _ => rfl

theorem SameRegsBut.wr {ks : List Nat} {s t : State} (h : SameRegsBut ks s t) (w : Win) (o : Nat) (v : Word32) (hk : regKey w o ∈ ks) :
    SameRegsBut ks s (t.wr w o v) := fun k hn =>
  (tabGet_tabSet_other _ _ _ (fun e => hn (by rw [e]; exact hk))).trans (h k hn)

theorem SameMemory.of_eq {s t : State} (h1 : t.sram = s.sram) (h2 : t.acc = s.acc) (h3 : t.hbm = s.hbm) : SameMemory s t :=
  ⟨fun _ => by rw [h1], fun _ => by rw [h2], fun _ => by rw [h3]⟩

end Sys2Proof.Machine
end

section
/-! SUPPORT. What a failing dye leaves alone: its steps and items fail (R222 to R224), and whether the package counts as lost (R278)
stays. One lemma per operation, callee first. Where a lemma holds by unfolding its proof is written (rfl), which keeps it a rewrite
rule: used by definition it would have the kernel compare whole states. -/

namespace Sys2Proof.Machine

/-- The mark after a choice between two states, for a proof that splits the choice. -/
theorem State.treatedAsLost_ite (c : Prop) [Decidable c] (a b : State) :
    (if c then a else b).treatedAsLost = if c then a.treatedAsLost else b.treatedAsLost :=
  apply_ite (fun t : State => t.treatedAsLost) c a b

/-- What no step of a fold touches, the fold does not touch. -/
@[simp] theorem State.foldl_treatedAsLost {α : Type} {f : State → α → State} (h : ∀ t a, (f t a).treatedAsLost = t.treatedAsLost) :
    ∀ (l : List α) (s : State), (l.foldl f s).treatedAsLost = s.treatedAsLost
  | [], _ => rfl
  | a :: l, s => (State.foldl_treatedAsLost h l (f s a)).trans (h s a)

/-! #### Registers and the Ledger's intake -/

@[simp] theorem State.setFld_treatedAsLost (s : State) (w : Win) (o lo n v : Nat) :
    (s.setFld w o lo n v).treatedAsLost = s.treatedAsLost := (rfl)
@[simp] theorem State.setBit_treatedAsLost (s : State) (w : Win) (o i : Nat) (b : Bool) :
    (s.setBit w o i b).treatedAsLost = s.treatedAsLost := (rfl)
@[simp] theorem State.bump_treatedAsLost (s : State) (w : Win) (o n : Nat) : (s.bump w o n).treatedAsLost = s.treatedAsLost := (rfl)
@[simp] theorem State.bumpP_treatedAsLost (s : State) (w : Win) (d : Dye) (o n : Nat) :
    (s.bumpP w d o n).treatedAsLost = s.treatedAsLost := (rfl)
@[simp] theorem State.onCore_treatedAsLost (s : State) (c : CoreId) (f : CoreSt → CoreSt) :
    (s.onCore c f).treatedAsLost = s.treatedAsLost := (rfl)
@[simp] theorem State.ledger_treatedAsLost (s : State) (e : LedgerEvent) : (s.ledger e).treatedAsLost = s.treatedAsLost := by
  unfold State.ledger; split_ifs <;> rfl
@[simp] theorem State.detectCore_treatedAsLost (s : State) (d : Nat) (c : CoreId) (l : List Nat) :
    (s.detectCore d c l).treatedAsLost = s.treatedAsLost := by
  simp [State.detectCore]
@[simp] theorem State.detectUnit_treatedAsLost (s : State) (n : Nat) (d : Dye) (u : Nat) (l : List Nat) :
    (s.detectUnit n d u l).treatedAsLost = s.treatedAsLost := by
  simp [State.detectUnit]
@[simp] theorem State.pulse_treatedAsLost (s : State) (n : Nat) (hit : Nat → Bool) :
    (s.pulse n hit).treatedAsLost = s.treatedAsLost := by
  simp [State.pulse, State.treatedAsLost_ite]

/-! #### Slices -/

@[simp] theorem State.setErr_treatedAsLost (s : State) (c : CoreId) (w : Nat) (e : BitVec 288) :
    (s.setErr c w e).treatedAsLost = s.treatedAsLost := (rfl)
@[simp] theorem State.sliceSet_treatedAsLost (s : State) (c : CoreId) (o : Nat) (bs : List Byte) :
    (s.sliceSet c o bs).treatedAsLost = s.treatedAsLost := by
  unfold State.sliceSet; split <;> rfl
@[simp] theorem State.bufTake_treatedAsLost (s : State) (c : CoreId) (w : Nat) : (s.bufTake c w).treatedAsLost = s.treatedAsLost := by
  simp only [State.bufTake]; split <;> rfl
@[simp] theorem State.injFired_treatedAsLost (s : State) : s.injFired.treatedAsLost = s.treatedAsLost := by
  simp only [State.injFired]
  split <;> simp
@[simp] theorem State.injDue_treatedAsLost (s : State) : s.injDue.2.treatedAsLost = s.treatedAsLost := by
  simp only [State.injDue]; split <;> rfl
@[simp] theorem State.injMark_treatedAsLost (s : State) (n : Nat) : (s.injMark n).treatedAsLost = s.treatedAsLost := (rfl)
@[simp] theorem State.eccSee_treatedAsLost (s : State) (c : CoreId) (w : Nat) (e : BitVec 288) :
    (s.eccSee c w e).2.treatedAsLost = s.treatedAsLost := by
  unfold State.eccSee
  extract_lets cl r s1 s3 s2
  have h1 : s1.treatedAsLost = s.treatedAsLost := (State.wr_treatedAsLost _ _ _ _).trans (State.bump_treatedAsLost _ _ _ _)
  have h2 : s2.treatedAsLost = s.treatedAsLost := (State.wr_treatedAsLost _ _ _ _).trans (State.bump_treatedAsLost _ _ _ _)
  clear_value s1 s2
  split
  · rfl
  · split
    · rfl
    · exact (State.detectCore_treatedAsLost _ _ _ _).trans h1
    · exact (State.detectCore_treatedAsLost _ _ _ _).trans h2
@[simp] theorem State.eccRead_treatedAsLost (s : State) (c : CoreId) (w : Nat) :
    (s.eccRead c w).2.treatedAsLost = s.treatedAsLost := by
  simp only [State.eccRead]; split_ifs <;> simp
@[simp] theorem State.eccReads_treatedAsLost (c : CoreId) :
    ∀ (ws : List Nat) (s : State), (s.eccReads c ws).2.treatedAsLost = s.treatedAsLost
  | [], _ => rfl
  | w :: ws, s => by simp [State.eccReads, State.eccReads_treatedAsLost c ws]
@[simp] theorem State.sliceRead_treatedAsLost (s : State) (c : CoreId) (o n : Nat) :
    (s.sliceRead c o n).2.treatedAsLost = s.treatedAsLost :=
  State.eccReads_treatedAsLost _ _ _
@[simp] theorem State.eccWrite_treatedAsLost (c : CoreId) (o n : Nat) :
    ∀ (ws : List Nat) (s : State), (s.eccWrite c o n ws).2.treatedAsLost = s.treatedAsLost
  | [], _ => rfl
  | w :: ws, s => by
    unfold State.eccWrite
    extract_lets cl merge s0 e e0 e1 e2 r t
    have h0 : s0.treatedAsLost = s.treatedAsLost := by simp only [s0]; split <;> rfl
    have hr : r.2.treatedAsLost = s0.treatedAsLost := by
      simp only [r, e]
      split_ifs <;> simp
    have ht : t.2.treatedAsLost = r.2.treatedAsLost := State.eccWrite_treatedAsLost c o n ws r.2
    split <;> exact ht.trans (hr.trans h0)
@[simp] theorem State.sliceWrite_treatedAsLost (s : State) (c : CoreId) (o : Nat) (bs : List Byte) :
    (s.sliceWrite c o bs).2.treatedAsLost = s.treatedAsLost := by
  simp only [State.sliceWrite]
  split_ifs <;> simp

/-! #### Local HBM -/

@[simp] theorem State.carry_treatedAsLost (s : State) (w : Win) (d : Dye) (n : Nat) :
    (s.carry w d n).treatedAsLost = s.treatedAsLost := (rfl)
@[simp] theorem State.setFrame_treatedAsLost (s : State) (f : Nat) (x : Frame) :
    (s.setFrame f x).treatedAsLost = s.treatedAsLost := (rfl)
@[simp] theorem State.useFrames_treatedAsLost (s : State) (d : Dye) (k : Nat) (up : Bool) (n : Nat) :
    (s.useFrames d k up n).treatedAsLost = s.treatedAsLost := (rfl)
@[simp] theorem State.freeFrame_treatedAsLost (s : State) (f : Nat) : (s.freeFrame f).treatedAsLost = s.treatedAsLost := by
  simp only [State.freeFrame]
  split <;> simp
@[simp] theorem State.hbmUe_treatedAsLost (s : State) (u : Nat) : (s.hbmUe u).treatedAsLost = s.treatedAsLost := by
  simp only [State.hbmUe]
  rw [State.detectUnit_treatedAsLost, State.wr_treatedAsLost, State.bump_treatedAsLost]
@[simp] theorem State.hbmReadG_treatedAsLost (s : State) (d : Dye) (o n : Nat) :
    (s.hbmReadG d o n).2.treatedAsLost = s.treatedAsLost := by
  simp only [State.hbmReadG]
  split_ifs <;> simp
@[simp] theorem State.hbmFresh_treatedAsLost (s : State) (f g : Nat) : (s.hbmFresh f g).treatedAsLost = s.treatedAsLost := by
  simp only [State.hbmFresh]
  split_ifs <;> rfl
@[simp] theorem State.hbmWriteG_treatedAsLost (s : State) (o : Nat) (bs : List Byte) :
    (s.hbmWriteG o bs).treatedAsLost = s.treatedAsLost := by
  simp only [State.hbmWriteG]
  split_ifs <;> simp
@[simp] theorem State.pkgFollow_treatedAsLost (s : State) : s.pkgFollow.treatedAsLost = s.treatedAsLost := (rfl)
@[simp] theorem State.hbmAwake_treatedAsLost (s : State) (h : Fin 8) : (s.hbmAwake h).treatedAsLost = s.treatedAsLost := by
  unfold State.hbmAwake; split <;> rfl
@[simp] theorem State.hbmUse_treatedAsLost (s : State) (d : Dye) (o n : Nat) : (s.hbmUse d o n).treatedAsLost = s.treatedAsLost := by
  have frame : ∀ (t : State) (v : Tab Nat), ({ t with hbmAt := v } : State).treatedAsLost = t.treatedAsLost := fun _ _ => rfl
  exact (frame _ _).trans ((State.carry_treatedAsLost _ _ _ _).trans (State.hbmAwake_treatedAsLost _ _))
@[simp] theorem State.hbmReadF_treatedAsLost (d : Dye) :
    ∀ (k o n : Nat) (s : State), (s.hbmReadF d k o n).2.treatedAsLost = s.treatedAsLost
  | 0, _, _, _ => rfl
  | k + 1, o, n, s => by
    simp only [State.hbmReadF]
    split_ifs <;> simp [State.hbmReadF_treatedAsLost d k]
@[simp] theorem State.hbmRead_treatedAsLost (s : State) (d : Dye) (o n : Nat) :
    (s.hbmRead d o n).2.treatedAsLost = s.treatedAsLost := by
  simp [State.hbmRead]
@[simp] theorem State.hbmWriteF_treatedAsLost :
    ∀ (k o : Nat) (bs : List Byte) (s : State), (s.hbmWriteF k o bs).treatedAsLost = s.treatedAsLost
  | 0, _, _, _ => rfl
  | k + 1, o, bs, s => by
    simp only [State.hbmWriteF]
    split_ifs <;> simp [State.hbmWriteF_treatedAsLost k]
@[simp] theorem State.hbmWrite_treatedAsLost (s : State) (o : Nat) (bs : List Byte) :
    (s.hbmWrite o bs).treatedAsLost = s.treatedAsLost := by
  simp [State.hbmWrite]

/-! #### Comparators and cores -/

@[simp] theorem State.disarm_treatedAsLost (s : State) (p : CalWhat → Bool) : (s.disarm p).treatedAsLost = s.treatedAsLost := (rfl)
@[simp] theorem State.cutWait_treatedAsLost (s : State) (c : CoreId) : (s.cutWait c).treatedAsLost = s.treatedAsLost := by
  simp only [State.cutWait]; split <;> rfl
@[simp] theorem State.checkAbandon_treatedAsLost (s : State) (c : CoreId) : (s.checkAbandon c).treatedAsLost = s.treatedAsLost := by
  unfold State.checkAbandon; split <;> simp
@[simp] theorem State.checkAbandons_treatedAsLost (s : State) (cs : List CoreId) :
    (s.checkAbandons cs).treatedAsLost = s.treatedAsLost := by
  simp [State.checkAbandons]
@[simp] theorem State.coreStop_treatedAsLost (s : State) (c : CoreId) : (s.coreStop c).treatedAsLost = s.treatedAsLost := by
  simp only [State.coreStop]; split <;> simp

/-! #### Page tables -/

@[simp] theorem State.takeFrame_treatedAsLost (s : State) (d : Dye) (die : Fin 2) (k : Nat) :
    (s.takeFrame d die k).2.treatedAsLost = s.treatedAsLost := by
  simp only [State.takeFrame]
  split
  · rfl
  · split <;> rfl
@[simp] theorem State.setCtx_treatedAsLost (s : State) (d : Dye) (n : Nat) (c : Option Ctx) :
    (s.setCtx d n c).treatedAsLost = s.treatedAsLost := (rfl)
@[simp] theorem State.dirGrow_treatedAsLost (s : State) (d : Dye) (die : Fin 2) (x : TabDir) :
    (s.dirGrow d die x).2.2.treatedAsLost = s.treatedAsLost := by
  simp only [State.dirGrow]
  split
  · rfl
  · split <;> simp
@[simp] theorem State.dirRoot_treatedAsLost (s : State) (d : Dye) (die : Fin 2) (x : TabDir) :
    (s.dirRoot d die x).2.treatedAsLost = s.treatedAsLost := by
  simp only [State.dirRoot]
  split
  · rfl
  · split <;> simp
@[simp] theorem State.dirL1_treatedAsLost (s : State) (d : Dye) (die : Fin 2) (x : TabDir) (l : Nat) :
    (s.dirL1 d die x l).2.treatedAsLost = s.treatedAsLost := by
  simp only [State.dirL1]
  split
  · rfl
  · split <;> simp
@[simp] theorem State.dirL2_treatedAsLost (s : State) (d : Dye) (die : Fin 2) (x : TabDir) (l i : Nat) :
    (s.dirL2 d die x l i).2.treatedAsLost = s.treatedAsLost := by
  simp only [State.dirL2]
  split
  · rfl
  · split <;> simp
@[simp] theorem State.dirSet_treatedAsLost (s : State) (d : Dye) (die : Fin 2) (x : TabDir) (l n : Nat) (p : Option Pte) :
    (s.dirSet d die x l n p).2.treatedAsLost = s.treatedAsLost := by
  cases p <;> simp only [State.dirSet, Option.isNone_none, Option.isNone_some, if_true, if_false, Bool.false_eq_true] <;>
    split <;> simp
@[simp] theorem State.dirFree_treatedAsLost (s : State) (x : TabDir) : (s.dirFree x).treatedAsLost = s.treatedAsLost := by
  simp [State.dirFree]
@[simp] theorem State.setPte_treatedAsLost (s : State) (k : Nat) (p : Option Pte) :
    (s.setPte k p).treatedAsLost = s.treatedAsLost := by
  simp only [State.setPte]; split <;> simp
@[simp] theorem State.kind5Grow_treatedAsLost (s : State) (k : Nat) (d : Dye) :
    ∀ n, (s.kind5Grow k d n).treatedAsLost = s.treatedAsLost
  | 0 => rfl
  | n + 1 => by
    simp only [State.kind5Grow]
    split
    · rfl
    · split <;> simp [State.kind5Grow_treatedAsLost s k d n]
@[simp] theorem State.setShared_treatedAsLost (s : State) (k : Nat) (p : Option Pte) :
    (s.setShared k p).treatedAsLost = s.treatedAsLost := by
  simp only [State.setShared]
  split <;> simp [State.treatedAsLost_ite]
@[simp] theorem State.setPrefix_treatedAsLost (s : State) (d : Dye) (i : Nat) (p : PrefixRec) :
    (s.setPrefix d i p).treatedAsLost = s.treatedAsLost := by
  simp [State.setPrefix, State.treatedAsLost_ite]

/-! #### The background tester -/

@[simp] theorem State.bufClear_treatedAsLost (s : State) (c : CoreId) : (s.bufClear c).treatedAsLost = s.treatedAsLost := (rfl)
@[simp] theorem State.bufBack_treatedAsLost (s : State) (c : CoreId) (w : Nat) :
    (s.bufBack c w).treatedAsLost = s.treatedAsLost := (rfl)
@[simp] theorem State.testRestore_treatedAsLost (s : State) (c : CoreId) : (s.testRestore c).treatedAsLost = s.treatedAsLost := by
  simp [State.testRestore]
@[simp] theorem State.bistBits_treatedAsLost (s : State) (r : RegionNo) : (s.bistBits r).treatedAsLost = s.treatedAsLost := (rfl)
@[simp] theorem State.testRelease_treatedAsLost (s : State) (c : CoreId) : (s.testRelease c).treatedAsLost = s.treatedAsLost := by
  simp only [State.testRelease]; split <;> rfl
@[simp] theorem State.testsEnd_treatedAsLost (s : State) (r : RegionNo) : (s.testsEnd r).treatedAsLost = s.treatedAsLost := by
  simp [State.testsEnd, State.treatedAsLost_ite]

/-! #### Sessions, records and pages -/

@[simp] theorem State.setSess_treatedAsLost (s : State) (d : Dye) (n : Nat) (x : Option Session) :
    (s.setSess d n x).treatedAsLost = s.treatedAsLost := (rfl)
@[simp] theorem State.countSess_treatedAsLost (s : State) (d : Dye) : (s.countSess d).treatedAsLost = s.treatedAsLost := (rfl)
@[simp] theorem State.postRec_treatedAsLost (s : State) (p : PostRec) : (s.postRec p).treatedAsLost = s.treatedAsLost := by
  unfold State.postRec; split <;> rfl
@[simp] theorem State.giveEntries_treatedAsLost (s : State) (d : Dye) (n : Nat) :
    (s.giveEntries d n).treatedAsLost = s.treatedAsLost := (rfl)
@[simp] theorem State.postFailure_treatedAsLost (s : State) (i : Item) (code fate : Nat) :
    (s.postFailure i code fate).treatedAsLost = s.treatedAsLost := by
  simp [State.postFailure, State.treatedAsLost_ite]
@[simp] theorem State.dropPage_treatedAsLost (s : State) (d : Dye) (p : Pte) : (s.dropPage d p).treatedAsLost = s.treatedAsLost := by
  unfold State.dropPage; split <;> simp
@[simp] theorem State.retirePage_treatedAsLost (s : State) (d : Dye) (p : Pte) (mine : PageMove → Bool) :
    (s.retirePage d p mine).treatedAsLost = s.treatedAsLost := by
  unfold State.retirePage; split <;> simp
@[simp] theorem State.freePrefix_treatedAsLost (s : State) (d : Dye) (i : Nat) :
    (s.freePrefix d i).treatedAsLost = s.treatedAsLost := by
  simp [State.freePrefix]
@[simp] theorem State.derefPrefix_treatedAsLost (s : State) (d : Dye) (i : Nat) :
    (s.derefPrefix d i).treatedAsLost = s.treatedAsLost := by
  simp only [State.derefPrefix]; split <;> simp
@[simp] theorem State.derefSession_treatedAsLost (s : State) (d : Dye) (n : Nat) :
    (s.derefSession d n).treatedAsLost = s.treatedAsLost := by
  simp [State.derefSession]
@[simp] theorem State.freeTables_treatedAsLost (s : State) (d : Dye) (n : Nat) :
    (s.freeTables d n).treatedAsLost = s.treatedAsLost := by
  simp only [State.freeTables]
  split <;> simp [State.treatedAsLost_ite]

/-! #### Weight sets -/

@[simp] theorem State.tellAll_treatedAsLost (s : State) (d : Dye) (m : ControlMsg) :
    (s.tellAll d m).treatedAsLost = s.treatedAsLost := (rfl)
@[simp] theorem State.setWstate_treatedAsLost (s : State) (d : Dye) (w v : Nat) :
    (s.setWstate d w v).treatedAsLost = s.treatedAsLost := by
  simp [State.setWstate]
@[simp] theorem State.setWset_treatedAsLost (s : State) (d : Dye) (w : Nat) (x : Option WsetSt) :
    (s.setWset d w x).treatedAsLost = s.treatedAsLost := (rfl)
@[simp] theorem State.emptyWset_treatedAsLost (s : State) (d : Dye) (w : Nat) : (s.emptyWset d w).treatedAsLost = s.treatedAsLost := by
  simp only [State.emptyWset]; split <;> simp
@[simp] theorem State.tellWstate_treatedAsLost (s : State) (d : Dye) (w v : Nat) :
    (s.tellWstate d w v).treatedAsLost = s.treatedAsLost := by
  simp [State.tellWstate]
@[simp] theorem State.drainWeights_treatedAsLost (s : State) : s.drainWeights.treatedAsLost = s.treatedAsLost := by
  unfold State.drainWeights
  exact State.foldl_treatedAsLost (fun t p => by split_ifs <;> simp) _ _

/-! #### Power states of regions -/

@[simp] theorem State.setRgnState_treatedAsLost (s : State) (r : RegionNo) (v : Nat) :
    (s.setRgnState r v).treatedAsLost = s.treatedAsLost := (rfl)
@[simp] theorem State.setRgnTarget_treatedAsLost (s : State) (r : RegionNo) (v : Nat) :
    (s.setRgnTarget r v).treatedAsLost = s.treatedAsLost := (rfl)
@[simp] theorem State.setRgnFreq_treatedAsLost (s : State) (r : RegionNo) (v : Nat) :
    (s.setRgnFreq r v).treatedAsLost = s.treatedAsLost := (rfl)
@[simp] theorem State.wakeClearing_treatedAsLost (s : State) (r : RegionNo) :
    (s.wakeClearing r).treatedAsLost = s.treatedAsLost := (rfl)
@[simp] theorem State.dieAwake_treatedAsLost (s : State) (die : Nat) : (s.dieAwake die).treatedAsLost = s.treatedAsLost := by
  simp [State.dieAwake]
@[simp] theorem State.beginWake_treatedAsLost (s : State) (r : RegionNo) (a b : Nat) :
    (s.beginWake r a b).treatedAsLost = s.treatedAsLost := by
  simp [State.beginWake, State.treatedAsLost_ite]
@[simp] theorem State.beginEntry_treatedAsLost (s : State) (r : RegionNo) (n : Nat) :
    (s.beginEntry r n).treatedAsLost = s.treatedAsLost := by
  simp [State.beginEntry, State.treatedAsLost_ite]
@[simp] theorem State.pend_treatedAsLost (s : State) (r : RegionNo) (n : Option Nat) :
    (s.pend r n).treatedAsLost = s.treatedAsLost := (rfl)
@[simp] theorem State.rgnRequest_treatedAsLost (s : State) (r : RegionNo) (n : Nat) :
    (s.rgnRequest r n).treatedAsLost = s.treatedAsLost := by
  unfold State.rgnRequest
  extract_lets st
  clear_value st
  simp only [State.treatedAsLost_ite, State.pend_treatedAsLost, State.setRgnTarget_treatedAsLost, State.setFld_treatedAsLost,
    State.beginWake_treatedAsLost, State.beginEntry_treatedAsLost, State.pkgFollow_treatedAsLost, ite_self]

/-! #### Items and steps -/

@[simp] theorem State.innFollow_treatedAsLost (s : State) (d : Dye) : (s.innFollow d).treatedAsLost = s.treatedAsLost := (rfl)
@[simp] theorem State.reportPlain_treatedAsLost (s : State) (i : Item) (n : Nat) :
    (s.reportPlain i n).treatedAsLost = s.treatedAsLost :=
  State.postRec_treatedAsLost _ _
@[simp] theorem State.freeSession_treatedAsLost (s : State) (d : Dye) (x : Session) :
    (s.freeSession d x).treatedAsLost = s.treatedAsLost := by
  have frame : ∀ (t : State) v w, ({ t with tokenRecs := v, linkTx := w } : State).treatedAsLost = t.treatedAsLost := fun _ _ _ => rfl
  refine (frame _ _ _).trans ?_
  simp
@[simp] theorem State.closeIfDone_treatedAsLost (s : State) (d : Dye) (n : Nat) :
    (s.closeIfDone d n).treatedAsLost = s.treatedAsLost := by
  simp only [State.closeIfDone]
  split
  · rfl
  · split
    · simp
    · rfl
@[simp] theorem State.lowerValid_treatedAsLost (s : State) (d : Dye) (p : Pte) (v : Nat) :
    (s.lowerValid d p v).treatedAsLost = s.treatedAsLost := by
  unfold State.lowerValid
  extract_lets o r
  have hr : r.2.treatedAsLost = s.treatedAsLost := by rw [State.hbmRead_treatedAsLost]
  clear_value o r
  split
  · split
    · exact (State.hbmWrite_treatedAsLost _ _ _).trans hr
    · exact hr
  · split
    · split
      · simp [State.treatedAsLost_ite]
      · rfl
    · rfl
@[simp] theorem State.setLen_treatedAsLost (s : State) (d : Dye) (n len : Nat) (b : Bool) :
    (s.setLen d n len b).treatedAsLost = s.treatedAsLost := by
  simp only [State.setLen]
  split <;> split <;> simp
@[simp] theorem State.tellLen_treatedAsLost (s : State) (d : Dye) (n len : Nat) (b : Bool) :
    (s.tellLen d n len b).treatedAsLost = s.treatedAsLost := (rfl)
@[simp] theorem State.finishItem_treatedAsLost (s : State) (i : Item) : (s.finishItem i).treatedAsLost = s.treatedAsLost := by
  simp [State.finishItem, State.treatedAsLost_ite]
@[simp] theorem State.failItem_treatedAsLost (s : State) (i : Item) (code fate : Nat) :
    (s.failItem i code fate).treatedAsLost = s.treatedAsLost := by
  simp only [State.failItem]
  split
  · simp
  · split <;> simp [State.treatedAsLost_ite]
@[simp] theorem State.endPlan_treatedAsLost (s : State) (d : Dye) (no : Word32) :
    (s.endPlan d no).treatedAsLost = s.treatedAsLost := by
  simp [State.endPlan]
@[simp] theorem State.endStep_treatedAsLost (s : State) (d : Dye) (no : Word32) :
    (s.endStep d no).treatedAsLost = s.treatedAsLost := by
  simp [State.endStep]
@[simp] theorem State.stopLane_treatedAsLost (s : State) (d : Dye) (b : Bool) : (s.stopLane d b).treatedAsLost = s.treatedAsLost := by
  simp [State.stopLane]
@[simp] theorem State.endEarly_treatedAsLost (s : State) (d : Dye) (no : Word32) :
    (s.endEarly d no).treatedAsLost = s.treatedAsLost := by
  simp [State.endEarly]
@[simp] theorem State.failStep_treatedAsLost (s : State) (p : Step) (code : Nat) :
    (s.failStep p code).treatedAsLost = s.treatedAsLost := by
  simp [State.failStep, State.treatedAsLost_ite]
@[simp] theorem State.failDye_treatedAsLost (s : State) (d : Dye) (code : Nat) :
    (s.failDye d code).treatedAsLost = s.treatedAsLost := by
  simp [State.failDye, State.treatedAsLost_ite]

end Sys2Proof.Machine
end

section
/-! The commands of the system counter (R25, R277 to R282), and the statement about them. -/

namespace Sys2Proof.Machine

/-! ### SYNC_EXCHANGE (R277) -/

/-- Offset and rate as an exchange with the parent leaves them. -/
def State.tuned (s : State) (off trim : Int) : State :=
  (s.wr .cnt CNT_OFFSET (BitVec.ofNat 32 (signedField 16 (clampInt (-32768) 32767 off)))).wr .cnt CNT_RATE
    (BitVec.ofNat 32 (signedField 24 (clampInt (-100000) 100000 trim)))

/-- The state of synchronisation after an exchange that began in another. -/
def State.exchanged (s : State) (off trim : Int) : State :=
  if s.sync = 0 then (s.tuned off trim).setSync 1
  else if s.sync = 3 then { (s.tuned off trim).setSync 2 with holdoverAt := 0, treatedAsLost := false }
  else s.tuned off trim

/-- The master has no parent, and a package without a path reaches none (Table 12-9). -/
theorem exec_syncExchange (t1 t2 t3 t4 : Word64) (trim : BitVec 24) (s : State) (hm : s.master ≠ some s.slot)
    (hp : s.fld .cnt CNT_STATUS 12 3 ≠ 7) : exec (.syncExchange t1 t2 t3 t4 trim) s =
      .next (s.exchanged ((((t2.toNat : Int) - t1.toNat) + ((t3.toNat : Int) - t4.toNat)) / 2) (fieldSigned 24 trim.toNat)) := by
  change execSyncExchange t1 t2 t3 t4 trim s = _
  rw [execSyncExchange, if_neg (not_or.2 ⟨hm, hp⟩), State.exchanged, State.tuned]
  extract_lets off s1 s2
  split_ifs <;> rfl

theorem State.sync_setSync (s : State) (v : Nat) (h : v < 4) : (s.setSync v).sync = v :=
  (State.fld_setFld_self s .cnt CNT_STATUS 0 2 v (by decide)).trans (Nat.mod_eq_of_lt h)

theorem State.rd_setSync_other (s : State) (v o : Nat) (h : regKey .cnt o ≠ regKey .cnt CNT_STATUS) :
    (s.setSync v).rd .cnt o = s.rd .cnt o := State.rd_wr_other _ _ _ _ _ _ h

theorem State.rd_tuned_offset (s : State) (off trim : Int) : (s.tuned off trim).rd .cnt CNT_OFFSET =
    BitVec.ofNat 32 (signedField 16 (clampInt (-32768) 32767 off)) := by
  rw [State.tuned, State.rd_wr_other _ _ _ _ _ _ (by decide), State.rd_wr_self]

theorem State.rd_tuned_rate (s : State) (off trim : Int) : (s.tuned off trim).rd .cnt CNT_RATE =
    BitVec.ofNat 32 (signedField 24 (clampInt (-100000) 100000 trim)) := State.rd_wr_self _ _ _ _

theorem State.sync_tuned (s : State) (off trim : Int) : (s.tuned off trim).sync = s.sync :=
  (State.fld_wr_other _ _ _ _ _ _ _ _ (by decide)).trans (State.fld_wr_other _ _ _ _ _ _ _ _ (by decide))

theorem State.sync_exchanged (s : State) (off trim : Int) :
    (s.exchanged off trim).sync = if s.sync = 0 then 1 else if s.sync = 3 then 2 else s.sync := by
  have hframe : ∀ t : State, ({ t with holdoverAt := 0, treatedAsLost := false } : State).sync = t.sync := fun _ => rfl
  unfold State.exchanged
  split_ifs
  · exact State.sync_setSync _ _ (by decide)
  · exact (hframe _).trans (State.sync_setSync _ 2 (by decide))
  · exact s.sync_tuned off trim

/-- An exchange tunes offset and rate, and writes no register but these and the status. -/
theorem State.regs_exchanged (s : State) (off trim : Int) :
    (s.exchanged off trim).regs = (s.tuned off trim).regs ∨ ∃ v, (s.exchanged off trim).regs = ((s.tuned off trim).setSync v).regs := by
  have hframe : ∀ t : State, ({ t with holdoverAt := 0, treatedAsLost := false } : State).regs = t.regs := fun _ => rfl
  unfold State.exchanged
  split_ifs
  · exact .inr ⟨1, rfl⟩
  · exact .inr ⟨2, hframe _⟩
  · exact .inl rfl

theorem State.rd_congr {s t : State} (h : s.regs = t.regs) (w : Win) (o : Nat) : s.rd w o = t.rd w o := by
  rw [State.rd, State.rd, h]

theorem State.rd_exchanged (s : State) (off trim : Int) (o : Nat) (h : regKey .cnt o ≠ regKey .cnt CNT_STATUS) :
    (s.exchanged off trim).rd .cnt o = (s.tuned off trim).rd .cnt o := by
  rcases s.regs_exchanged off trim with e | ⟨v, e⟩
  · exact State.rd_congr e _ _
  · exact (State.rd_congr e _ _).trans (State.rd_setSync_other _ v o h)

theorem State.sameRegs_exchanged (s : State) (off trim : Int) :
    SameRegsBut [regKey .cnt CNT_OFFSET, regKey .cnt CNT_RATE, regKey .cnt CNT_STATUS] s (s.exchanged off trim) := by
  have hu : SameRegsBut [regKey .cnt CNT_OFFSET, regKey .cnt CNT_RATE, regKey .cnt CNT_STATUS] s (s.tuned off trim) :=
    ((SameRegsBut.refl _ s).wr _ _ _ (by decide)).wr _ _ _ (by decide)
  intro k hk
  rcases s.regs_exchanged off trim with e | ⟨v, e⟩
  · rw [e]; exact hu k hk
  · rw [e]; exact hu.wr .cnt CNT_STATUS _ (by decide) k hk

theorem State.exchanged_frame (s : State) (off trim : Int) :
    ∃ g h l, s.exchanged off trim = { s with regs := g, holdoverAt := h, treatedAsLost := l } := by
  obtain ⟨g, hg⟩ : ∃ g, (s.tuned off trim).setSync 2 = { s with regs := g } := ⟨_, rfl⟩
  unfold State.exchanged
  rw [hg]
  split_ifs <;> exact ⟨_, _, _, rfl⟩

/-- An exchange of a package that has a parent and a path to it. -/
theorem syncExchange_answers (s : State) (t1 t2 t3 t4 : Word64) (trim : BitVec 24) (hm : s.master ≠ some s.slot)
    (hp : s.fld .cnt CNT_STATUS 12 3 ≠ 7) :
    let off : Int := (((t2.toNat : Int) - t1.toNat) + ((t3.toNat : Int) - t4.toNat)) / 2
    Answers (.syncExchange t1 t2 t3 t4 trim) s (fun t =>
      t.rd .cnt CNT_OFFSET = BitVec.ofNat 32 (signedField 16 (clampInt (-32768) 32767 off)) ∧
      t.rd .cnt CNT_RATE = BitVec.ofNat 32 (signedField 24 (clampInt (-100000) 100000 (fieldSigned 24 trim.toNat))) ∧
      t.sync = (if s.sync = 0 then 1 else if s.sync = 3 then 2 else s.sync) ∧
      SameRegsBut [regKey .cnt CNT_OFFSET, regKey .cnt CNT_RATE, regKey .cnt CNT_STATUS] s t ∧
      t = { s with regs := t.regs, holdoverAt := t.holdoverAt, treatedAsLost := t.treatedAsLost }) := by
  intro off
  obtain ⟨g, h, l, ht⟩ := s.exchanged_frame off (fieldSigned 24 trim.toNat)
  refine ⟨_, exec_syncExchange t1 t2 t3 t4 trim s hm hp, ?_, ?_, s.sync_exchanged _ _, s.sameRegs_exchanged _ _, ?_⟩
  · exact (s.rd_exchanged _ _ _ (by decide)).trans (s.rd_tuned_offset _ _)
  · exact (s.rd_exchanged _ _ _ (by decide)).trans (s.rd_tuned_rate _ _)
  · change s.exchanged off (fieldSigned 24 trim.toNat) = _
    rw [ht]

/-! ### COUNTER_FIRST_LOCK and HOLDOVER (R278) -/

/-- The first lock, while no comparator is armed. -/
theorem exec_counterFirstLock (v : Word64) (s : State) (hs : s.sync < 2) (hc : ∀ e ∈ s.cmps, e.2.armed = false) :
    exec (.counterFirstLock v) s =
      .next ((({ s with now := v.toNat, nowFrac := 0, lastRdsr := 0 } : State).setSync 2).rearmAll.info 0 [0x25, s.now, v.toNat]) := by
  have hany : (s.cmps.any fun e => e.2.armed) = false := by simpa using hc
  change execCounterFirstLock v s = _
  rw [execCounterFirstLock, if_neg (by simp [hany, hs])]

theorem State.sync_info (s : State) (d : Dye) (l : List Nat) : (s.info d l).sync = s.sync :=
  State.fld_ledger _ _ _ _ _ _ (by decide)

theorem State.sync_rearmAll (s : State) : s.rearmAll.sync = s.sync := by
  obtain ⟨c, l, h⟩ := s.rearmAll_frame
  rw [h]
  rfl

/-- Neither the events put on comparators nor the record of the lock touch the counter, the cores or a memory. -/
theorem counterFirstLock_answers (v : Word64) (s : State) (hs : s.sync < 2) (hc : ∀ e ∈ s.cmps, e.2.armed = false) :
    Answers (.counterFirstLock v) s (fun t =>
      t.now = v.toNat ∧ t.nowFrac = 0 ∧ t.sync = 2 ∧ t.cores = s.cores ∧ SameMemory s t) := by
  refine ⟨_, exec_counterFirstLock v s hs hc, ?_⟩
  generalize hu : ({ s with now := v.toNat, nowFrac := 0, lastRdsr := 0 } : State).setSync 2 = u
  have hsync : u.sync = 2 := hu ▸ State.sync_setSync _ 2 (by decide)
  have hlock : (u.rearmAll.info 0 [0x25, s.now, v.toNat]).sync = 2 :=
    (State.sync_info _ _ _).trans (u.sync_rearmAll.trans hsync)
  obtain ⟨c, l, hr⟩ := u.rearmAll_frame
  obtain ⟨g, i, o, ht⟩ := u.rearmAll.info_frame 0 [0x25, s.now, v.toNat]
  refine ⟨?_, ?_, hlock, ?_, ?_⟩ <;> rw [ht, hr, ← hu]
  · rfl
  · rfl
  · rfl
  · exact SameMemory.of_eq rfl rfl rfl

/-- HOLDOVER is entered, counted and told to the Ledger, whose LDG_FOLDED is no register of the counter. -/
theorem holdover_answers (s : State) (hs : s.sync = 2) (hm : s.master ≠ some s.slot) :
    Answers .holdover s (fun t => t.sync = 3 ∧ t.fld .cnt CNT_STATUS 12 3 = 7 ∧
      t.rd .cnt CNT_SYNC_LOSS = s.rd .cnt CNT_SYNC_LOSS + 1 ∧ t.holdoverAt = s.now ∧
      t = { s with regs := t.regs, holdoverAt := t.holdoverAt, ldgIngress := t.ldgIngress, ldgOpen := t.ldgOpen }) := by
  have hexec : exec .holdover s = .next (s.enterHoldover.setFld .cnt CNT_STATUS 12 3 7) := by
    change execHoldover s = _
    rw [execHoldover, if_neg (by simp [hs, hm])]
  obtain ⟨g, i, o, hl, hg⟩ := ((s.setSync 3).bump .cnt CNT_SYNC_LOSS).detectUnit_frame 0x29 0 0 []
  have hu : s.enterHoldover = { s with regs := g, holdoverAt := s.now, ldgIngress := i, ldgOpen := o } := by
    rw [State.enterHoldover, if_neg (by simp [hs]), hl]
    rfl
  have hrd : ∀ p, regKey .cnt p ≠ regKey .ldg LDG_FOLDED →
      s.enterHoldover.rd .cnt p = ((s.setSync 3).bump .cnt CNT_SYNC_LOSS).rd .cnt p := by
    intro p hp
    rw [hu]
    exact hg _ hp
  have hsync : s.enterHoldover.sync = 3 := by
    rw [State.sync, State.fld, hrd _ (by decide), State.bump, State.rd_wr_other _ _ _ _ _ _ (by decide)]
    exact s.sync_setSync 3 (by decide)
  have hloss : s.enterHoldover.rd .cnt CNT_SYNC_LOSS = s.rd .cnt CNT_SYNC_LOSS + 1 := by
    rw [hrd _ (by decide), State.bump, State.rd_wr_self, s.rd_setSync_other 3 _ (by decide)]
    rfl
  refine ⟨_, hexec, ?_, State.fld_setFld_self _ _ _ _ _ _ (by decide), ?_, ?_, ?_⟩
  · exact (State.fld_setFld_below _ _ _ _ _ _ _ _ (by decide) (by decide)).trans hsync
  · exact (State.rd_wr_other _ _ _ _ _ _ (by decide)).trans hloss
  · rw [hu]; rfl
  · rw [hu]; rfl

/-- The failures of the partitions that span the package leave it counted as lost. -/
theorem holdoverTimeout_answers (s : State) (hs : s.sync = 3) (hn : s.holdoverAt + 1000000 ≤ s.now) (hl : s.treatedAsLost = false) :
    Answers .holdoverTimeout s (fun t => t.treatedAsLost = true ∧ (s.spanning = [] → t = { s with treatedAsLost := true })) := by
  have hexec : exec .holdoverTimeout s =
      .next (s.spanning.foldl (fun (t : State) d => t.failDye d 5) { s with treatedAsLost := true }) := by
    change execHoldoverTimeout s = _
    rw [execHoldoverTimeout, if_neg (by simp [hs, hl, hn])]
    rfl
  refine ⟨_, hexec, ?_, fun h => by rw [h]; rfl⟩
  exact State.foldl_treatedAsLost (fun t d => t.failDye_treatedAsLost d 5) _ _

/-! ### Comparators (R281) -/

/-- A comparator that fires, for nothing that has no command of its own, and whose owner has no event to arm next. -/
theorem comparatorFire_answers (s : State) (n : Fin 64) (ha : (tabGet cmpReset s.cmps n.val).armed = true)
    (hv : (tabGet cmpReset s.cmps n.val).value ≤ s.now) (hw : (tabGet cmpReset s.cmps n.val).what = none)
    (hc : ∀ e ∈ s.calendar, e.owner ≠ (tabGet cmpReset s.cmps n.val).owner) : Answers (.comparatorFire n) s (fun t =>
      (tabGet cmpReset t.cmps n.val).armed = false ∧ (∀ k, k ≠ n.val → tabGet cmpReset t.cmps k = tabGet cmpReset s.cmps k) ∧
      t = { s with cmps := t.cmps, tmxOut := t.tmxOut, tmxUntil := t.tmxUntil }) := by
  generalize hfree : s.cmpFree n.val (tabGet cmpReset s.cmps n.val) = c
  have hoff : c.armed = false := by rw [← hfree]; rfl
  have hrearm : ∀ k, ({ s with cmps := k } : State).rearm (tabGet cmpReset s.cmps n.val).owner = { s with cmps := k } :=
    fun _ => State.rearm_none _ _ hc
  have hexec : exec (.comparatorFire n) s =
      .next (({ s with cmps := tabSet cmpReset s.cmps n.val c } : State).pulse 2 (fun arg => arg == n.val)) := by
    change execComparatorFire n s = _
    simp only [execComparatorFire]
    rw [if_neg (by simp [ha, hv]), hw, hfree, hrearm]
  obtain ⟨o, u, hp⟩ := State.pulse_frame { s with cmps := tabSet cmpReset s.cmps n.val c } 2 (fun arg => arg == n.val)
  refine ⟨_, hexec, ?_⟩
  rw [hp]
  refine ⟨?_, fun k hk => tabGet_tabSet_other _ _ _ hk, rfl⟩
  exact (congrArg Cmp.armed (tabGet_tabSet_self _ _ _ _)).trans hoff

/-- Before its value, or not armed, a comparator does nothing. -/
theorem comparatorFire_waits (s : State) (n : Fin 64)
    (h : (tabGet cmpReset s.cmps n.val).armed = false ∨ s.now < (tabGet cmpReset s.cmps n.val).value) :
    Answers (.comparatorFire n) s (fun t => t = s) := by
  refine ⟨s, ?_, rfl⟩
  change execComparatorFire n s = _
  simp only [execComparatorFire]
  exact if_pos (by simpa using h)

/-! ### Switch points (R282) -/

/-- A packet for a value to come: its switch point is listed, and a package that is not the front acknowledges. -/
theorem freqPacket_ahead (s : State) (d : Dye) (f : Nat) (tsw : Word64) (hr : s.regionsOf d ≠ []) (hn : s.now < tsw.toNat) :
    Answers (.freqPacket d f tsw) s (fun t => (d, f, tsw.toNat) ∈ t.switchPoints ∧
      t.linkTx = s.linkTx ++ (if s.isFront d then [] else [LinkOut.freqAck d]) ∧
      t = { s with switchPoints := t.switchPoints, cmps := t.cmps, calendar := t.calendar, linkTx := t.linkTx }) := by
  obtain ⟨p, c, l, hsched⟩ := s.schedule_frame d f tsw.toNat
  have hfront : (s.schedule d f tsw.toNat).isFront d = s.isFront d := by rw [hsched]; rfl
  have hexec : exec (.freqPacket d f tsw) s = .next (if s.isFront d then s.schedule d f tsw.toNat else
      { s.schedule d f tsw.toNat with linkTx := (s.schedule d f tsw.toNat).linkTx ++ [.freqAck d] }) := by
    change execFreqPacket d f tsw s = _
    rw [execFreqPacket, if_neg hr, if_neg (Nat.not_le.2 hn)]
    simp only [hfront]
  refine ⟨_, hexec, ?_⟩
  rw [hsched]
  split <;> exact ⟨by simp, by simp, rfl⟩

theorem State.commonFreq_info (s : State) (d q : Dye) (l : List Nat) : (s.info d l).commonFreq q = s.commonFreq q :=
  State.fld_ledger _ _ _ _ _ _ (by have := q.isLt; simp only [regKey, winIndex, pageOff, INN_D_FREQ, LDG_FOLDED]; omega)

theorem State.rgnFreq_info (s : State) (d : Dye) (r : RegionNo) (l : List Nat) : (s.info d l).rgnFreq r = s.rgnFreq r :=
  State.fld_ledger _ _ _ _ _ _ (by have := r.isLt; simp only [regKey, winIndex, PWR_RGN_STATUS, LDG_FOLDED]; omega)

/-- A packet whose value has passed takes effect at once, with a record. -/
theorem freqPacket_passed (s : State) (d : Dye) (f : Nat) (tsw : Word64) (hr : s.regionsOf d ≠ []) (hn : tsw.toNat ≤ s.now)
    (hf : f < 2048) : Answers (.freqPacket d f tsw) s (fun t => t.commonFreq d = f ∧
      (∀ r, s.owner r = d → s.rgnActive r = true → t.rgnFreq r = f) ∧ SameMemory s t) := by
  refine ⟨(s.switchTo d f).info d [0x26, f, tsw.toNat], ?_, ?_, fun r ho ha => ?_, ?_⟩
  · change execFreqPacket d f tsw s = _
    rw [execFreqPacket, if_neg hr, if_pos hn]
  · rw [State.commonFreq_info, State.commonFreq_switchTo s d f hf]
  · rw [State.rgnFreq_info, State.rgnFreq_switchTo s d f hf r ho ha]
  · obtain ⟨g, p, x, h, ht⟩ := s.switchTo_frame d f
    obtain ⟨g', i, o, hu⟩ := (s.switchTo d f).info_frame d [0x26, f, tsw.toNat]
    rw [hu, ht]
    exact SameMemory.of_eq rfl rfl rfl

/-- The one switch point that is due takes effect and is listed no more. -/
theorem switchPoint_answers (s : State) (d : Dye) (f x : Nat)
    (hdue : s.switchPoints.filter (fun p => p.1 == d && decide (p.2.2 ≤ s.now)) = [(d, f, x)]) (hf : f < 2048) :
    Answers (.switchPoint d) s (fun t => t.commonFreq d = f ∧ (∀ r, s.owner r = d → s.rgnActive r = true → t.rgnFreq r = f) ∧
      (d, f, x) ∉ t.switchPoints ∧ SameMemory s t) := by
  generalize hu : (({ s with switchPoints := s.switchPoints.erase (d, f, x) } : State).disarm (fun w => w == .freq d f)) = u
  have hexec : exec (.switchPoint d) s = .next (u.switchTo d f) := by
    change execSwitchPoint d s = _
    simp only [execSwitchPoint, hdue, List.foldl_cons, List.foldl_nil, hu]
  obtain ⟨g, p, y, h, ht⟩ := u.switchTo_frame d f
  refine ⟨_, hexec, u.commonFreq_switchTo d f hf, fun r ho ha => u.rgnFreq_switchTo d f hf r ?_ ?_, ?_, ?_⟩
  · rw [← hu]; exact ho
  · rw [← hu]; exact ha
  · rw [ht, ← hu]; exact not_mem_erase_of_filter_eq_singleton hdue
  · rw [ht, ← hu]; exact SameMemory.of_eq rfl rfl rfl

/-! ### The statement -/

/-- Settles O46, clause by clause. -/
theorem counterResults : Obligations.CounterResults := fun s =>
  ⟨syncExchange_answers s, fun v => counterFirstLock_answers v s, holdover_answers s, holdoverTimeout_answers s,
    fun n => ⟨comparatorFire_answers s n, comparatorFire_waits s n⟩,
    fun d f tsw hr => ⟨freqPacket_ahead s d f tsw hr, freqPacket_passed s d f tsw hr⟩, switchPoint_answers s⟩

end Sys2Proof.Machine
end

section
/-! SUPPORT. Rules that the matrix engine's statement rests on: bytes of a number, runs of keys of a table, rows and banks of the
accumulators, an effect on one core alone, a core that waits for nothing, and a clean read of an operand. -/

namespace Sys2Proof.Machine

/-! ### Bytes and runs of keys -/

@[simp] theorem length_leBytes (n : Nat) : ∀ v : Nat, (leBytes v n).length = n := by
  induction n with
  | zero => intro v; rfl
  | succ n ih => intro v; simp [leBytes, ih]

/-- The bytes of a number spell it again, as far as they reach. -/
theorem leNat_leBytes (n : Nat) : ∀ v : Nat, leNat (leBytes v n) = v % 256 ^ n := by
  induction n with
  | zero => intro v; simp [leBytes, leNat, Nat.mod_one]
  | succ n ih =>
    intro v
    rw [leBytes, leNat, ih, BitVec.toNat_ofNat, pow_succ' 256 n, Nat.mod_mul]

theorem length_tabGetList {α : Type} (d : Nat → α) (t : Tab α) (n : Nat) : ∀ k, (tabGetList d t k n).length = n := by
  induction n with
  | zero => intro k; rfl
  | succ n ih => intro k; rw [tabGetList, List.length_cons, ih]

theorem getElem_tabGetList {α : Type} (d : Nat → α) (t : Tab α) (n : Nat) : ∀ (k i : Nat) (h : i < (tabGetList d t k n).length),
    (tabGetList d t k n)[i] = tabGet d t (k + i) := by
  induction n with
  | zero => intro k i h; simp [tabGetList] at h
  | succ n ih =>
    intro k i h
    cases i with
    | zero => rfl
    | succ i => simpa [tabGetList, Nat.add_assoc, Nat.add_comm 1] using ih (k + 1) i (by simpa [tabGetList] using h)

/-- A run of keys reads back as the list that was written to it. -/
theorem tabGetList_tabSetList {α : Type} [DecidableEq α] (d : Nat → α) (t : Tab α) (k n : Nat) (vs : List α) (h : vs.length = n) :
    tabGetList d (tabSetList d t k vs) k n = vs := by
  subst h
  refine List.ext_getElem (length_tabGetList _ _ _ _) fun i _ hi => ?_
  rw [getElem_tabGetList, tabGet_tabSetList_inside d vs t k i hi]

/-- A range cleared reads as the default; every other key as before. -/
theorem tabGet_tabClear {α : Type} (d : Nat → α) (t : Tab α) (lo hi j : Nat) :
    tabGet d (tabClear t lo hi) j = if lo ≤ j ∧ j < hi then d j else tabGet d t j := by
  induction t with
  | nil => simp [tabClear, tabGet]
  | cons p t ih =>
    rw [tabClear] at ih ⊢
    by_cases hp : p.1 < lo ∨ hi ≤ p.1
    · rw [List.filter_cons_of_pos (by simpa using hp), tabGet, ih, tabGet]
      by_cases hj : p.1 = j
      · rw [if_pos hj, if_pos hj, if_neg (by omega)]
      · rw [if_neg hj, if_neg hj]
    · rw [List.filter_cons_of_neg (by simpa using hp), ih, tabGet]
      by_cases hj : p.1 = j
      · rw [if_pos (by omega), if_pos (by omega)]
      · rw [if_neg hj]

/-! ### Accumulators (R69) -/

/-- A row reads as it was written. -/
@[simp] theorem State.accRow_setAccRow_self (s : State) (c : CoreId) (b r : Nat) (v : BitVec 2048) :
    (s.setAccRow c b r v).accRow c b r = v := by
  simp only [State.accRow, State.setAccRow, State.accRead, State.accWrite]
  rw [tabGetList_tabSetList _ _ _ _ _ (length_leBytes 256 _), leNat_leBytes]
  exact BitVec.eq_of_toNat_eq (by rw [BitVec.toNat_ofNat]; have := v.isLt; omega)

/-- A write of a row leaves every byte outside its 256 as it was. -/
theorem State.acc_setAccRow_outside (s : State) (c : CoreId) (b r : Nat) (v : BitVec 2048) (j : Nat)
    (h : j < accKey c (b * 0x8000 + r * 256) ∨ accKey c (b * 0x8000 + r * 256) + 256 ≤ j) :
    tabGet byteReset (s.setAccRow c b r v).acc j = tabGet byteReset s.acc j := by
  rw [State.setAccRow, State.accWrite, tabGet_tabSetList_outside _ _ _ _ _ (by rwa [length_leBytes])]

/-- A bank cleared reads zero; every other accumulator byte as before. -/
theorem State.acc_accClear (s : State) (c : CoreId) (b j : Nat) :
    tabGet byteReset (s.accClear c b).acc j =
      if accKey c (b * 0x8000) ≤ j ∧ j < accKey c ((b + 1) * 0x8000) then 0 else tabGet byteReset s.acc j :=
  tabGet_tabClear _ _ _ _ _

@[simp] theorem State.core_setAccRow (s : State) (c d : CoreId) (b r : Nat) (v : BitVec 2048) :
    (s.setAccRow c b r v).core d = s.core d := rfl
@[simp] theorem State.core_accClear (s : State) (c d : CoreId) (b : Nat) : (s.accClear c b).core d = s.core d := rfl

/-! ### An effect on one core -/

@[simp] theorem State.accRow_onCore (s : State) (c d : CoreId) (f : CoreSt → CoreSt) (b r : Nat) :
    (s.onCore d f).accRow c b r = s.accRow c b r := rfl
@[simp] theorem State.acc_onCore (s : State) (c : CoreId) (f : CoreSt → CoreSt) : (s.onCore c f).acc = s.acc := rfl

theorem sameMemory_onCore (s : State) (c : CoreId) (f : CoreSt → CoreSt) : SameMemory s (s.onCore c f) :=
  SameMemory.of_eq rfl rfl rfl

theorem sameOtherCores_onCore (s : State) (c : CoreId) (f : CoreSt → CoreSt) : SameOtherCores c s (s.onCore c f) :=
  fun d h => State.core_onCore_other s c d f h

theorem onlyCore_onCore (s : State) (c : CoreId) (f : CoreSt → CoreSt) : OnlyCore c (f (s.core c)) s (s.onCore c f) :=
  ⟨State.core_onCore_self s c f, sameOtherCores_onCore s c f, rfl, sameMemory_onCore s c f, rfl⟩

theorem onlyCore_retire (s : State) (c : CoreId) (f : CoreSt → CoreSt) : OnlyCore c (f (s.core c)).advance s (s.retire c f) :=
  onlyCore_onCore s c _

/-! ### Cores that wait for nothing -/

theorem State.settle1_unblocked (s : State) (c : CoreId) (h : (s.core c).blocked = none) : s.settle1 c = (s, []) := by
  simp only [State.settle1, h, ite_self]

theorem State.settleF_unblocked (s : State) (n : Nat) : ∀ cs : List CoreId, (∀ c ∈ cs, (s.core c).blocked = none) →
    State.settleF n cs s = s := by
  induction n with
  | zero => intro cs _; rfl
  | succ n ih =>
    intro cs h
    cases cs with
    | nil => rfl
    | cons c cs =>
      rw [State.settleF, State.settle1_unblocked s c (h c (by simp)), List.append_nil]
      exact ih cs fun d hd => h d (by simp [hd])

/-- Cores looked at again that wait for nothing stay as they are. -/
theorem State.settle_unblocked (s : State) (cs : List CoreId) (h : ∀ c ∈ cs, (s.core c).blocked = none) : s.settle cs = s :=
  s.settleF_unblocked _ cs h

/-- An effect on a core that waits for nothing and still does sets no core free. -/
theorem State.settle_onCore_unblocked (s : State) (c : CoreId) (f : CoreSt → CoreSt) (h : (f (s.core c)).blocked = none) :
    (s.onCore c f).settle [c] = s.onCore c f :=
  State.settle_unblocked _ _ (by simpa using h)

/-! ### The matrix engine's buffers and its reads -/

/-- A buffer's write touches that buffer alone. -/
theorem CoreSt.setWbuf_frame (k : CoreSt) (wb : Bool) (b : WBuf) :
    k.setWbuf wb b = { k with wb0 := if wb then k.wb0 else b, wb1 := if wb then b else k.wb1 } := by
  cases wb <;> rfl

theorem CoreSt.wbuf_setWbuf_self (k : CoreSt) (wb : Bool) (b : WBuf) : (k.setWbuf wb b).wbuf wb = b := by
  cases wb <;> rfl

/-- A permitted read of clean words in a quiet slice: the stored bytes, and no change (R101). -/
theorem State.engineRead_clean (s : State) (c : CoreId) (o n pc op : Nat) (hok : s.sliceOk c 2 0 o n = true)
    (hclean : CleanWords s c o n) (hquiet : QuietSlice s c) :
    s.engineRead c o n pc op = (some (s.sliceRaw c o n), s) := by
  simp [State.engineRead, hok, State.portRead_clean s c 2 o n hquiet.1 hclean]

end Sys2Proof.Machine
end

section
/-! VACC, MLOAD, MMA and the two events of the matrix engine (R35, R39, R61, R64 to R67, R69), and the statement about them. -/

namespace Sys2Proof.Machine

/-! ### VACC (R61, R69) -/

/-- A word of format R is legal where its reserved bits, its FN and each of its fields are as its operation names them (R58). -/
theorem checkR_eq_zero {w : RWord} {fnOk : Bool} {d a b c : Fld} (hrsv : w.rsv = 0) (hfn : fnOk = true) (hd : fldOk d w.d = true)
    (ha : fldOk a w.a = true) (hb : fldOk b w.b = true) (hc : fldOk c w.c = true) : checkR w fnOk d a b c = 0 := by
  simp [checkR, hrsv, hfn, hd, ha, hb, hc]

/-- The words of VACC that are legal: Sc is named by FN 1 alone, and FN 3 names neither a row nor a register. -/
theorem checkR_vacc (w : RWord) (hrsv : w.rsv = 0) (ha : w.a.toNat < 8) (hfn : w.fn.toNat ≤ 3) (hc : w.fn ≠ 1 → w.c = 0)
    (hz : w.fn = 3 → w.b = 0 ∧ w.d = 0) :
    checkR w (decide (w.fn.toNat ≤ 3)) (if w.fn = 3 then .unused else .all) (.low 3) (if w.fn = 3 then .unused else .all)
      (if w.fn = 1 then .all else .unused) = 0 := by
  refine checkR_eq_zero hrsv (decide_eq_true hfn) ?_ (decide_eq_true ha) ?_ ?_
  · split_ifs with h
    · rw [(hz h).2]; rfl
    · rfl
  · split_ifs with h
    · rw [(hz h).1]; rfl
    · rfl
  · split_ifs with h
    · rfl
    · rw [hc h]; rfl

section
variable {s : State} {c : CoreId} {w : RWord} (hrsv : w.rsv = 0) (ha : w.a.toNat < 8)
  (hrow : ((s.core c).s w.b.toNat).toNat ≤ 127) (hfree : (s.core c).mmaInto w.a.toNat = false)
  (hi : Issues s c (encodeR opVACC w) w.p w.pneg)
include hrsv ha hrow hfree hi

/-- VACC where it issues, its row is one of the bank's and no queued MMA targets the bank: the effect that FN names. -/
theorem exec_vacc (hfn : w.fn.toNat ≤ 3) (hc : w.fn ≠ 1 → w.c = 0) (hz : w.fn = 3 → w.b = 0 ∧ w.d = 0) :
    let row := ((s.core c).s w.b.toNat).toNat
    exec (.vacc c w) s = .next (
      if w.fn = 0 then s.retire c (fun k => k.setV w.d.toNat (s.accRow c w.a.toNat row))
      else if w.fn = 1 then s.retire c (fun k =>
        let r := readoutScaled ((k.s w.c.toNat).extractLsb' 0 32) (s.accRow c w.a.toNat row)
        (k.setV w.d.toNat r.1).addEv r.2)
      else if w.fn = 2 then (s.setAccRow c w.a.toNat row ((s.core c).v w.d.toNat)).retire c id
      else (s.accClear c w.a.toNat).retire c id) := by
  obtain ⟨hcan, hword, hpred⟩ := hi
  have hop : opDefined (opcodeOf (encodeR opVACC w)) = true := by rw [opcodeOf_encodeR _ _ (by decide)]; decide
  change execVacc c w s = _
  rw [execVacc, checkR_vacc w hrsv ha hfn hc hz, s.issue_runs c _ _ _ _ _ hcan hword hpred hop, if_neg (by omega), hfree,
    if_neg Bool.false_ne_true]

theorem vacc_read_answers (hfn : w.fn = 0) (hc : w.c = 0) : Answers (.vacc c w) s (OnlyCore c
    (((s.core c).setV w.d.toNat (s.accRow c w.a.toNat ((s.core c).s w.b.toNat).toNat)).advance) s) := by
  refine ⟨_, exec_vacc hrsv ha hrow hfree hi (by simp [hfn]) (fun _ => hc) (by simp [hfn]), ?_⟩
  rw [if_pos hfn]
  exact onlyCore_retire s c _

theorem vacc_scaled_answers (hfn : w.fn = 1) : Answers (.vacc c w) s (OnlyCore c (
    let r := readoutScaled (((s.core c).s w.c.toNat).extractLsb' 0 32) (s.accRow c w.a.toNat ((s.core c).s w.b.toNat).toNat)
    (((s.core c).setV w.d.toNat r.1).addEv r.2).advance) s) := by
  refine ⟨_, exec_vacc hrsv ha hrow hfree hi (by simp [hfn]) (fun h => absurd hfn h) (by simp [hfn]), ?_⟩
  rw [if_neg (by simp [hfn]), if_pos hfn]
  exact onlyCore_retire s c _

theorem vacc_write_answers (hfn : w.fn = 2) (hc : w.c = 0) : Answers (.vacc c w) s (fun t =>
    let row := ((s.core c).s w.b.toNat).toNat
    t.accRow c w.a.toNat row = (s.core c).v w.d.toNat ∧
    (∀ j, j < accKey c (w.a.toNat * 0x8000 + row * 256) ∨ accKey c (w.a.toNat * 0x8000 + row * 256) + 256 ≤ j →
      tabGet byteReset t.acc j = tabGet byteReset s.acc j) ∧
    t.core c = (s.core c).advance ∧ t.sram = s.sram ∧ t.hbm = s.hbm ∧ t.regs = s.regs) := by
  refine ⟨_, exec_vacc hrsv ha hrow hfree hi (by simp [hfn]) (fun _ => hc) (by simp [hfn]), ?_⟩
  rw [if_neg (by simp [hfn]), if_neg (by simp [hfn]), if_pos hfn]
  refine ⟨?_, fun j hj => ?_, State.retire_core_self _ _ _, rfl, rfl, rfl⟩
  · rw [State.retire, State.accRow_onCore, State.accRow_setAccRow_self]
  · rw [State.retire, State.acc_onCore, s.acc_setAccRow_outside c _ _ _ j hj]

theorem vacc_zero_answers (hfn : w.fn = 3) (hc : w.c = 0) (hb : w.b = 0) (hd : w.d = 0) : Answers (.vacc c w) s (fun t =>
    (∀ j, tabGet byteReset t.acc j = if accKey c (w.a.toNat * 0x8000) ≤ j ∧ j < accKey c ((w.a.toNat + 1) * 0x8000) then 0
      else tabGet byteReset s.acc j) ∧
    t.core c = (s.core c).advance ∧ t.sram = s.sram ∧ t.hbm = s.hbm ∧ t.regs = s.regs) := by
  refine ⟨_, exec_vacc hrsv ha hrow hfree hi (by simp [hfn]) (fun _ => hc) (fun _ => ⟨hb, hd⟩), ?_⟩
  rw [if_neg (by simp [hfn]), if_neg (by simp [hfn]), if_neg (by simp [hfn])]
  exact ⟨s.acc_accClear c _, State.retire_core_self _ _ _, rfl, rfl, rfl⟩

end

/-! ### MLOAD and MMA join the queue (R61, R64 to R66) -/

section
variable {s : State} {c : CoreId} {m : MWord} {o : Nat} (hrsv : m.rsv = 0) (hrsv35 : m.rsv35 = false) (hfmt : m.fmt.toNat ≤ 9)
  (hroom : (s.core c).mq.length < 4)
include hrsv hrsv35 hfmt hroom

/-- MLOAD where it issues, its block lies in the own slice and the queue has a place. -/
theorem exec_mload (hbank : m.bank = 0) (haccum : m.accum = false) (hrow0 : m.row0 = 0) (hmrows : m.mrows = 0)
    (hown : s.ownOfs c ((s.core c).a m.as.toNat) (blockBytes m.fmt.toNat) 32 = some o)
    (hi : Issues s c (encodeM opMLOAD m) m.p m.pneg) :
    exec (.mload c m) s = .next (s.retire c (fun k =>
      { (k.setWbuf m.wb { k.wbuf m.wb with issued := some m.fmt.toNat }) with
        mq := k.mq ++ [.mload m.wb m.fmt.toNat o k.pc] })) := by
  obtain ⟨hcan, hword, hpred⟩ := hi
  have hop : opDefined (opcodeOf (encodeM opMLOAD m)) = true := by rw [opcodeOf_encodeM _ _ (by decide)]; decide
  have hlegal : (m.rsv = 0 && !m.rsv35 && m.bank = 0 && !m.accum && m.row0 = 0 && m.mrows = 0) = true := by
    simp [hrsv, hrsv35, hbank, haccum, hrow0, hmrows]
  change execMload c m s = _
  simp only [execMload, hlegal, if_true, ne_eq, not_true_eq_false, if_false, if_pos hfmt]
  rw [s.issue_runs c _ _ _ _ _ hcan hword hpred hop]
  simp only [hown, if_neg (Nat.not_le.2 hroom)]

theorem mload_answers (hbank : m.bank = 0) (haccum : m.accum = false) (hrow0 : m.row0 = 0) (hmrows : m.mrows = 0)
    (hown : s.ownOfs c ((s.core c).a m.as.toNat) (blockBytes m.fmt.toNat) 32 = some o)
    (hi : Issues s c (encodeM opMLOAD m) m.p m.pneg) :
    Answers (.mload c m) s (fun t => (t.core c).mq = (s.core c).mq ++ [MOp.mload m.wb m.fmt.toNat o (s.core c).pc] ∧
      ((t.core c).wbuf m.wb).issued = some m.fmt.toNat ∧ (t.core c).pc = (s.core c).advance.pc ∧ SameOtherCores c s t ∧
      t.regs = s.regs ∧ SameMemory s t) := by
  refine ⟨_, exec_mload hrsv hrsv35 hfmt hroom hbank haccum hrow0 hmrows hown hi, ?_⟩
  obtain ⟨hcore, hother, hregs, hmem, -⟩ := onlyCore_retire s c (fun k =>
    { (k.setWbuf m.wb { k.wbuf m.wb with issued := some m.fmt.toNat }) with
      mq := k.mq ++ [.mload m.wb m.fmt.toNat o k.pc] })
  refine ⟨by rw [hcore]; rfl, ?_, ?_, hother, hregs, hmem⟩
  · rw [hcore]
    exact congrArg WBuf.issued (CoreSt.wbuf_setWbuf_self _ _ _)
  · rw [hcore, CoreSt.setWbuf_frame]
    rfl

/-- MMA where it issues, its operands are a pair of Table 2-3, its rows lie in the bank and its stream in the own slice, and neither
the queue nor a DMA on the bank holds it back. -/
theorem exec_mma {wf : Nat} (hissued : ((s.core c).wbuf m.wb).issued = some wf) (hpair : pairOk wf m.fmt.toNat = true)
    (hrows : m.row0.toNat + (m.mrows.toNat + 1) ≤ 128)
    (hown : s.ownOfs c ((s.core c).a m.as.toNat) (streamBytes (blockK wf) m.fmt.toNat (m.mrows.toNat + 1)) 32 = some o)
    (hdma : s.dmaOnBank c m.bank.toNat = false) (hi : Issues s c (encodeM opMMA m) m.p m.pneg) :
    exec (.mma c m) s = .next (s.retire c (fun k => { k with mq := k.mq ++
      [.mma m.wb m.fmt.toNat o m.bank.toNat m.accum m.row0.toNat (m.mrows.toNat + 1) 0 k.pc] })) := by
  obtain ⟨hcan, hword, hpred⟩ := hi
  have hop : opDefined (opcodeOf (encodeM opMMA m)) = true := by rw [opcodeOf_encodeM _ _ (by decide)]; decide
  have hlegal : (m.rsv = 0 && !m.rsv35) = true := by simp [hrsv, hrsv35]
  change execMma c m s = _
  simp only [execMma, hlegal, if_true, ne_eq, not_true_eq_false, if_false, if_pos hfmt]
  rw [s.issue_runs c _ _ _ _ _ hcan hword hpred hop]
  simp [hissued, hpair, hown, hdma, Nat.not_lt.2 hrows, Nat.not_le.2 hroom]

end

/-! ### A block loads and a row is written (R39, R64 to R67) -/

section
variable {s : State} {c : CoreId} {wb : Bool} {f o pc : Nat} {rest : List MOp} (hfree : (s.core c).blocked = none)
  (hquiet : QuietSlice s c)
include hfree hquiet

/-- MLOAD_COMPLETE of the front MLOAD: its buffer holds the block's bytes, and the MLOAD leaves the queue. -/
theorem mloadComplete_answers (hmq : (s.core c).mq = MOp.mload wb f o pc :: rest)
    (hok : s.sliceOk c 2 0 o (blockBytes f) = true) (hclean : CleanWords s c o (blockBytes f)) :
    Answers (.mloadComplete c) s (OnlyCore c { ((s.core c).setWbuf wb
      { (s.core c).wbuf wb with fmt := f, block := s.sliceRaw c o (blockBytes f) }) with mq := rest } s) := by
  have hexec : exec (.mloadComplete c) s = .next (s.onCore c (fun k =>
      { (k.setWbuf wb { k.wbuf wb with fmt := f, block := s.sliceRaw c o (blockBytes f) }) with mq := rest })) := by
    change execMloadComplete c s = _
    rw [execMloadComplete, hmq]
    simp only [nextMload, State.engineRead_clean s c o _ pc opMLOAD hok hclean hquiet]
    rw [State.settle_onCore_unblocked _ _ _ (by simpa [CoreSt.setWbuf_frame] using hfree)]
  exact ⟨_, hexec, onlyCore_onCore s c _⟩

/-- MMA_ROW_WRITTEN of the first of several rows, not MX, without accumulation: the row's chunk sums stand in the bank, and the MMA
goes on with its next row. -/
theorem mmaRowWritten_answers {bank row0 n : Nat} (hmq : (s.core c).mq = MOp.mma wb f o bank false row0 n 0 pc :: rest)
    (hmx : fmtMx f = false) (hn : 1 < n) (hok : s.sliceOk c 2 0 o (recBytes (blockK ((s.core c).wbuf wb).fmt) f) = true)
    (hclean : CleanWords s c o (recBytes (blockK ((s.core c).wbuf wb).fmt) f)) :
    let b := (s.core c).wbuf wb
    let v := mmaRow b.fmt b.block (operandVals f (s.sliceRaw c o (recBytes (blockK b.fmt) f)) [] (blockK b.fmt))
      (List.replicate 64 0)
    Answers (.mmaRowWritten c) s (fun t => t.accRow c bank row0 = ofLanes v.1 ∧
      (t.core c).mq = MOp.mma wb f o bank false row0 n 1 pc :: rest ∧
      (t.core c).evInvalid = ((s.core c).addEv v.2).evInvalid ∧
      SameOtherCores c s t ∧ t.regs = s.regs ∧ t.sram = s.sram ∧ t.hbm = s.hbm) := by
  intro b v
  have hexec : exec (.mmaRowWritten c) s = .next ((s.setAccRow c bank row0 (ofLanes v.1)).onCore c
      (fun k => { (k.addEv v.2) with mq := MOp.mma wb f o bank false row0 n 1 pc :: rest })) := by
    change execMmaRowWritten c s = _
    rw [execMmaRowWritten, hmq]
    simp only [nextMma, Nat.zero_mul, Nat.add_zero, State.engineRead_clean s c o _ pc opMMA hok hclean hquiet, hmx, if_false,
      Bool.false_eq_true, Nat.zero_add, if_pos hn]
    rw [State.settle_onCore_unblocked _ _ _ (by exact hfree)]
    rfl
  refine ⟨_, hexec, ?_, ?_, ?_, sameOtherCores_onCore _ c _, rfl, rfl, rfl⟩
  · rw [State.accRow_onCore, State.accRow_setAccRow_self]
  · rw [State.core_onCore_self]
  · rw [State.core_onCore_self]
    rfl

end

/-! ### The statement -/

/-- Settles O13, instruction by instruction. -/
theorem matrixResults : Obligations.MatrixResults := fun s c _ _ _ hw hm hm35 =>
  ⟨fun ha hrow hfree hi => ⟨vacc_read_answers hw ha hrow hfree hi, vacc_write_answers hw ha hrow hfree hi,
      vacc_scaled_answers hw ha hrow hfree hi, vacc_zero_answers hw ha hrow hfree hi⟩,
    fun hbank haccum hrow0 hmrows hfmt hown hroom hi =>
      mload_answers hm hm35 hfmt hroom hbank haccum hrow0 hmrows hown hi,
    fun _ hfmt hissued hpair hrows hown hroom hdma hi =>
      ⟨_, exec_mma hm hm35 hfmt hroom hissued hpair hrows hown hdma hi, onlyCore_retire s c _⟩,
    fun _ _ _ _ hmq hfree hok hclean hquiet => mloadComplete_answers hfree hquiet hmq hok hclean,
    fun _ _ _ _ _ _ _ hmq hfree hmx hn hok hclean hquiet => mmaRowWritten_answers hfree hquiet hmq hmx hn hok hclean⟩

end Sys2Proof.Machine
end

section
/-! The words of tile programs (R58, Tables 3-3 to 3-5): in each format the fields of a word spell it and are spelt by it, and the
statement about them. -/

namespace Sys2Proof.Machine

/-! ### Fields of a word -/

theorem b2n_lt_two (b : Bool) : b2n b < 2 := by cases b <;> decide

theorem extractLsb'_eq_iff {n : Nat} (x : Word64) (k : Nat) (v : BitVec n) :
    x.extractLsb' k n = v ↔ x.toNat / 2 ^ k % 2 ^ n = v.toNat := by
  rw [← BitVec.toNat_inj, BitVec.extractLsb'_toNat, Nat.shiftRight_eq_div_pow]

theorem toNat_extractLsb' (x : Word64) (k n : Nat) : (x.extractLsb' k n).toNat = x.toNat / 2 ^ k % 2 ^ n :=
  ((extractLsb'_eq_iff x k _).1 rfl).symm

theorem bitOf_eq_iff (x : Word64) (k : Nat) (b : Bool) : bitOf x k = b ↔ x.toNat / 2 ^ k % 2 = b2n b := by
  rw [bitOf]
  rcases Nat.mod_two_eq_zero_or_one (x.toNat / 2 ^ k) with h | h <;> cases b <;> simp [h, b2n]

theorem b2n_bitOf (x : Word64) (k : Nat) : b2n (bitOf x k) = x.toNat / 2 ^ k % 2 := ((bitOf_eq_iff x k _).1 rfl).symm

/-! ### Each format: no field is lost, and no bit is -/

theorem fieldsR_encodeR (op : Nat) (w : RWord) : fieldsR (encodeR op w) = w := by
  obtain ⟨p, pneg, d, a, b, c, fn, rsv⟩ := w
  have hpneg := b2n_lt_two pneg
  simp only [fieldsR, RWord.mk.injEq, extractLsb'_eq_iff, bitOf_eq_iff, encodeR, headBits, BitVec.toNat_ofNat]
  refine ⟨?_, ?_, ?_, ?_, ?_, ?_, ?_, ?_⟩ <;> omega

theorem encodeR_fieldsR (x : Word64) : encodeR (opcodeOf x) (fieldsR x) = x := by
  apply BitVec.eq_of_toNat_eq
  simp only [encodeR, headBits, opcodeOf, bitsOf, fieldsR, BitVec.toNat_ofNat, toNat_extractLsb', b2n_bitOf]
  omega

theorem fieldsI_encodeI (op : Nat) (w : IWord) : fieldsI (encodeI op w) = w := by
  obtain ⟨p, pneg, d, a, rsv, fn, imm⟩ := w
  have hpneg := b2n_lt_two pneg
  simp only [fieldsI, IWord.mk.injEq, extractLsb'_eq_iff, bitOf_eq_iff, encodeI, headBits, BitVec.toNat_ofNat]
  refine ⟨?_, ?_, ?_, ?_, ?_, ?_, ?_⟩ <;> omega

theorem encodeI_fieldsI (x : Word64) : encodeI (opcodeOf x) (fieldsI x) = x := by
  apply BitVec.eq_of_toNat_eq
  simp only [encodeI, headBits, opcodeOf, bitsOf, fieldsI, BitVec.toNat_ofNat, toNat_extractLsb', b2n_bitOf]
  omega

theorem fieldsM_encodeM (op : Nat) (w : MWord) : fieldsM (encodeM op w) = w := by
  obtain ⟨p, pneg, as, bank, wb, accum, row0, mrows, rsv35, fmt, rsv⟩ := w
  have hpneg := b2n_lt_two pneg
  have hwb := b2n_lt_two wb
  have haccum := b2n_lt_two accum
  have hrsv35 := b2n_lt_two rsv35
  simp only [fieldsM, MWord.mk.injEq, extractLsb'_eq_iff, bitOf_eq_iff, encodeM, headBits, BitVec.toNat_ofNat]
  refine ⟨?_, ?_, ?_, ?_, ?_, ?_, ?_, ?_, ?_, ?_, ?_⟩ <;> omega

theorem encodeM_fieldsM (x : Word64) : encodeM (opcodeOf x) (fieldsM x) = x := by
  apply BitVec.eq_of_toNat_eq
  simp only [encodeM, headBits, opcodeOf, bitsOf, fieldsM, BitVec.toNat_ofNat, toNat_extractLsb', b2n_bitOf]
  omega

theorem fieldsX_encodeX (op : Nat) (w : XWord) : fieldsX (encodeX op w) = w := by
  obtain ⟨p, pneg, ad, as, sa, sb, n, rsv, fn, imm16⟩ := w
  have hpneg := b2n_lt_two pneg
  simp only [fieldsX, XWord.mk.injEq, extractLsb'_eq_iff, bitOf_eq_iff, encodeX, headBits, BitVec.toNat_ofNat]
  refine ⟨?_, ?_, ?_, ?_, ?_, ?_, ?_, ?_, ?_, ?_⟩ <;> omega

theorem encodeX_fieldsX (x : Word64) : encodeX (opcodeOf x) (fieldsX x) = x := by
  apply BitVec.eq_of_toNat_eq
  simp only [encodeX, headBits, opcodeOf, bitsOf, fieldsX, BitVec.toNat_ofNat, toNat_extractLsb', b2n_bitOf]
  omega

theorem fieldsB_encodeB (op : Nat) (w : BWord) : fieldsB (encodeB op w) = w := by
  obtain ⟨p, pneg, sa, rsv, imm⟩ := w
  have hpneg := b2n_lt_two pneg
  simp only [fieldsB, BWord.mk.injEq, extractLsb'_eq_iff, bitOf_eq_iff, encodeB, headBits, BitVec.toNat_ofNat]
  refine ⟨?_, ?_, ?_, ?_, ?_⟩ <;> omega

theorem encodeB_fieldsB (x : Word64) : encodeB (opcodeOf x) (fieldsB x) = x := by
  apply BitVec.eq_of_toNat_eq
  simp only [encodeB, headBits, opcodeOf, bitsOf, fieldsB, BitVec.toNat_ofNat, toNat_extractLsb', b2n_bitOf]
  omega

/-! ### The two directions -/

/-- An instruction's word has its opcode, and its format's fields come back. -/
theorem instrOf_wordOf (i : Instr) (c : CoreId) (x : Word64) (h : wordOf i = some (c, x)) : instrOf c x = some i := by
  cases i with
  | nop _ w | add _ w | sub _ w | mul _ w | logic _ w | shift _ w | cmp _ w | plog _ w | amov _ w | aadd _ w | ard _ w | vop _ w
  | vfma _ w | vfunc _ w | vred _ w | vcvt _ w | vqmx _ w | vbcast _ w | vtail _ w | vacc _ w =>
    cases h
    rw [instrOf, opcodeOf_encodeR _ _ (by decide), fieldsR_encodeR]
    rfl
  | addi _ w | movi _ w | cmpi _ w | lds _ w | sts _ w | rdsr _ w | aaddi _ w | vld _ w | vst _ w =>
    cases h
    rw [instrOf, opcodeOf_encodeI _ _ (by decide), fieldsI_encodeI]
    rfl
  | mload _ w | mma _ w =>
    cases h
    rw [instrOf, opcodeOf_encodeM _ _ (by decide), fieldsM_encodeM]
    rfl
  | dma _ w | dwait _ w | send _ w | recv _ w | swait _ w | rwait _ w | semset _ w | semclr _ w | semwait _ w | barrier _ w
  | fence _ w =>
    cases h
    rw [instrOf, opcodeOf_encodeX _ _ (by decide), fieldsX_encodeX]
    rfl
  | br _ w | loop _ w | tbound _ w | halt _ w =>
    cases h
    rw [instrOf, opcodeOf_encodeB _ _ (by decide), fieldsB_encodeB]
    rfl
  | _ => cases h

/-- Each row of Table 3-5 gives the word's opcode its format, and the word is its opcode and that format's fields. -/
theorem wordOf_instrOf (c : CoreId) (x : Word64) (i : Instr) (h : instrOf c x = some i) : wordOf i = some (c, x) := by
  have hR := encodeR_fieldsR x
  have hI := encodeI_fieldsI x
  have hM := encodeM_fieldsM x
  have hX := encodeX_fieldsX x
  have hB := encodeB_fieldsB x
  unfold instrOf at h
  split at h <;> cases h <;> rename_i hop <;> rw [hop] at hR hI hM hX hB <;> exact congrArg (fun y => some (c, y)) ‹_›

/-- Settles O5, one direction each. -/
theorem wordsRoundTrip : Obligations.WordsRoundTrip := ⟨instrOf_wordOf, wordOf_instrOf⟩

end Sys2Proof.Machine
end

section
/-! The state after a cold start (the Reset columns), and the statement about it. -/

namespace Sys2Proof.Machine

/-- A region after reset: Off with target Off, of the management partition, its last clear done. -/
theorem region_reset (r : RegionNo) : State.reset.rgnState r = 3 ∧ State.reset.rgnTarget r = 3 ∧ State.reset.owner r = 0 ∧
    State.reset.rd (.spd r) SPD_CLR_STATUS = 0x04400013 := by
  revert r; decide

/-- A link after reset is DARK. -/
theorem link_reset (l : Fin 6) : State.reset.fld (.tlk l) TLK_STATUS 0 3 = 0 := by
  revert l; decide

/-- A dye after reset has its rings off and no partition. -/
theorem dye_reset (d : Dye) : State.reset.ringsOn d = false ∧ State.reset.partState d = 0 := by
  revert d; decide

/-- Settles O2: no table lists anything, so that registers read their Reset columns, and cores and memory their defaults. -/
theorem resetState : Obligations.ResetState :=
  ⟨rfl, rfl, region_reset, fun _ => ⟨rfl, rfl, rfl, rfl, rfl⟩, link_reset, dye_reset, by decide, by decide, by decide,
    fun _ => ⟨rfl, rfl, rfl⟩⟩

end Sys2Proof.Machine
end

section
/-! SUPPORT. Rules that the core's statements share: which words are legal, what one issue of a legal word gives, and effects on one core
alone. -/

namespace Sys2Proof.Machine

/-! ### Legal words (R58, R59) -/

theorem opDefined_lt {op : Nat} (h : opDefined op = true) : op < 256 := by
  simp only [opDefined, Bool.or_eq_true, Bool.and_eq_true, decide_eq_true_eq, beq_iff_eq] at h
  omega

theorem opDefined_encodeR {op : Nat} (w : RWord) (h : opDefined op = true) : opDefined (opcodeOf (encodeR op w)) = true := by
  rwa [opcodeOf_encodeR _ _ (opDefined_lt h)]
theorem opDefined_encodeI {op : Nat} (w : IWord) (h : opDefined op = true) : opDefined (opcodeOf (encodeI op w)) = true := by
  rwa [opcodeOf_encodeI _ _ (opDefined_lt h)]
theorem opDefined_encodeX {op : Nat} (w : XWord) (h : opDefined op = true) : opDefined (opcodeOf (encodeX op w)) = true := by
  rwa [opcodeOf_encodeX _ _ (opDefined_lt h)]
theorem opDefined_encodeB {op : Nat} (w : BWord) (h : opDefined op = true) : opDefined (opcodeOf (encodeB op w)) = true := by
  rwa [opcodeOf_encodeB _ _ (opDefined_lt h)]

theorem fldOk_unused {v : BitVec 5} (h : v = 0) : fldOk .unused v = true := by rw [h]; rfl
theorem fldOk_low {v : BitVec 5} {n : Nat} (h : v.toNat < 2 ^ n) : fldOk (.low n) v = true := decide_eq_true h

/-- A word of format I is legal where its reserved bits, its FN and its fields are as its operation names them (R58). -/
theorem checkI_eq_zero {w : IWord} {fnOk : Bool} {d a : Fld} (hrsv : w.rsv = 0) (hfn : fnOk = true) (hd : fldOk d w.d = true)
    (ha : fldOk a w.a = true) : checkI w fnOk d a = 0 := by
  simp [checkI, hrsv, hfn, hd, ha]

/-- A destination predicate that is not P0 is legal (R57). -/
theorem checkPd_eq_zero {code : Nat} {d : BitVec 5} (hcode : code = 0) (hd : 0 < d.toNat) : checkPd code d = 0 := by
  have hne : d ≠ 0 := fun h => by simp [h] at hd
  rw [checkPd, if_neg (by simp [hcode]), if_neg hne]

/-! ### One issue (R58) -/

section
variable {i : Instr} {s : State} {c : CoreId} {x : Word64} {leg num : Nat} {p : BitVec 3} {pneg : Bool} {body : State → State}
  (hexec : exec i s = .next (s.issue c x leg num p pneg body)) (hleg : leg = 0) (ho : opDefined (opcodeOf x) = true)
include hexec hleg ho

/-- A legal word that issues has its instruction's effect. -/
theorem exec_of_issues (hi : Issues s c x p pneg) : exec i s = .next (body s) := by
  rw [hexec, hleg, s.issue_runs c x num p pneg body hi.1 hi.2.1 hi.2.2 ho]

/-- A legal word that issues and has an effect on its core alone: that effect, and the PC moves on. -/
theorem answers_of_retire {f : CoreSt → CoreSt} {k : CoreSt} (hi : Issues s c x p pneg) (hbody : body s = s.retire c f)
    (hk : f (s.core c) = k) : Answers i s (OnlyCore c k.advance s) :=
  ⟨_, exec_of_issues hexec hleg ho hi, by rw [hbody, ← hk]; exact onlyCore_retire s c f⟩

/-- A legal word whose predicate fails is a NOP. -/
theorem answers_of_skip (hcan : (s.core c).canIssue = true) (hword : (s.core c).istore[(s.core c).pc]? = some x)
    (hpred : (s.core c).predicate p pneg = false) : Answers i s (OnlyCore c (s.core c).advance s) := by
  refine ⟨_, hexec, ?_⟩
  rw [hleg, s.issue_skips c x num p pneg body hcan hword hpred ho]
  exact onlyCore_onCore s c CoreSt.advance

end

/-- A core that can issue is RUNNING, waits for nothing and does not abandon. -/
theorem CoreSt.canIssue_iff (k : CoreSt) : k.canIssue = true ↔ k.run = .running ∧ k.abandoning = false ∧ k.blocked = none := by
  simp [CoreSt.canIssue, and_assoc]

end Sys2Proof.Machine
end

section
/-! The scalar, predicate and address instructions (R57 to R59, R279, Table 3-5), instructions whose predicate fails (R58), and the
statements about them. -/

namespace Sys2Proof.Machine

/-! ### Conditions and shifts -/

theorem condOp_ge (x y : Word64) : condOp 3 x y = decide (y.toInt ≤ x.toInt) := by
  change (!x.slt y) = _
  rw [BitVec.slt, ← decide_not, decide_eq_decide, not_lt]
theorem condOp_uge (x y : Word64) : condOp 5 x y = decide (y.toNat ≤ x.toNat) := by
  change (!x.ult y) = _
  rw [BitVec.ult, ← decide_not, decide_eq_decide, not_lt]
theorem bitsOf_low_six (y : Word64) : bitsOf y 0 6 = y.toNat % 64 := by simp [bitsOf]

/-! ### NOP to MOVI -/

/-- Settles O9, instruction by instruction: each is legal, and its effect is a write of Sd. -/
theorem scalarResults : Obligations.ScalarResults := by
  intro s c w i hw hc hi k sd si x y
  have hR : ∀ {fnOk : Bool}, fnOk = true → checkR w fnOk .all .all .all .unused = 0 :=
    fun hfn => checkR_eq_zero hw hfn rfl rfl rfl (fldOk_unused hc)
  have hop : ∀ {op : Nat}, opDefined op = true → opDefined (opcodeOf (encodeR op w)) = true := opDefined_encodeR w
  refine ⟨fun hfn hd ha hb hiss => ?_, fun hfn hiss => ?_, fun hfn hiss => ?_, fun hfn hiss => ?_,
    fun hiss => ⟨fun hfn => ?_, fun hfn => ?_, fun hfn => ?_, fun hfn => ?_⟩, fun hiss => ⟨fun hfn => ?_, fun hfn => ?_, fun hfn => ?_⟩,
    fun hfn hiss => ?_, fun ha hiss => ⟨fun hfn => ?_, fun hfn => ?_⟩⟩
  case refine_1 =>
    exact answers_of_retire rfl
      (checkR_eq_zero hw (by simp [hfn]) (fldOk_unused hd) (fldOk_unused ha) (fldOk_unused hb) (fldOk_unused hc)) (hop (by decide))
      hiss rfl rfl
  case refine_2 | refine_3 | refine_4 =>
    exact answers_of_retire rfl (hR (by simp [hfn])) (hop (by decide)) hiss rfl rfl
  case refine_5 | refine_6 | refine_7 | refine_8 =>
    exact answers_of_retire rfl (hR (by simp [hfn])) (hop (by decide)) hiss rfl (by rw [hfn]; rfl)
  case refine_9 | refine_10 | refine_11 =>
    exact answers_of_retire rfl (hR (by simp [hfn])) (hop (by decide)) hiss rfl (by rw [hfn, ← bitsOf_low_six]; rfl)
  case refine_12 =>
    exact answers_of_retire rfl (checkI_eq_zero hi (by simp [hfn]) rfl rfl) (opDefined_encodeI i (by decide)) hiss rfl rfl
  case refine_13 | refine_14 =>
    exact answers_of_retire rfl (checkI_eq_zero hi (by simp [hfn]) rfl (fldOk_unused ha)) (opDefined_encodeI i (by decide)) hiss rfl
      (by rw [hfn]; rfl)

/-! ### CMP to PLOG -/

section
variable {s : State} {c : CoreId} {w : RWord} {i : IWord}

/-- CMP and CMPI write the condition that FN names; PLOG the function of two predicates. -/
theorem cmp_answers (hrsv : w.rsv = 0) (hc : w.c = 0) (hd : 0 < w.d.toNat) (hlow : w.d.toNat < 8) (hfn : w.fn.toNat ≤ 5)
    (hiss : Issues s c (encodeR opCMP w) w.p w.pneg) : Answers (.cmp c w) s (OnlyCore c
      (((s.core c).setP w.d.toNat (condOp w.fn.toNat ((s.core c).s w.a.toNat) ((s.core c).s w.b.toNat))).advance) s) :=
  answers_of_retire rfl
    (checkPd_eq_zero (checkR_eq_zero hrsv (decide_eq_true hfn) (fldOk_low hlow) rfl rfl (fldOk_unused hc)) hd)
    (opDefined_encodeR w (by decide)) hiss rfl rfl

theorem cmpi_answers (hrsv : i.rsv = 0) (hd : 0 < i.d.toNat) (hlow : i.d.toNat < 8) (hfn : i.fn.toNat ≤ 5)
    (hiss : Issues s c (encodeI opCMPI i) i.p i.pneg) : Answers (.cmpi c i) s (OnlyCore c
      (((s.core c).setP i.d.toNat (condOp i.fn.toNat ((s.core c).s i.a.toNat) (i.imm.signExtend 64))).advance) s) :=
  answers_of_retire rfl (checkPd_eq_zero (checkI_eq_zero hrsv (decide_eq_true hfn) (fldOk_low hlow) rfl) hd)
    (opDefined_encodeI i (by decide)) hiss rfl rfl

theorem plog_answers (hrsv : w.rsv = 0) (hc : w.c = 0) (hd : 0 < w.d.toNat) (hlow : w.d.toNat < 8) (ha : w.a.toNat < 8)
    (hb : w.b.toNat < 8) (hfn : w.fn.toNat ≤ 3) (hiss : Issues s c (encodeR opPLOG w) w.p w.pneg) : Answers (.plog c w) s (OnlyCore c
      (((s.core c).setP w.d.toNat (plogOp w.fn.toNat ((s.core c).p w.a.toNat) ((s.core c).p w.b.toNat))).advance) s) :=
  answers_of_retire rfl
    (checkPd_eq_zero (checkR_eq_zero hrsv (decide_eq_true hfn) (fldOk_low hlow) (fldOk_low ha) (fldOk_low hb) (fldOk_unused hc)) hd)
    (opDefined_encodeR w (by decide)) hiss rfl rfl

/-! ### RDSR -/

/-- RDSR of a special value that is defined: legal, and its effect is that value's. -/
theorem exec_rdsr (hrsv : i.rsv = 0) (hfn : i.fn = 0) (ha : i.a = 0) (himm : i.imm.toNat ≤ 5)
    (hiss : Issues s c (encodeI opRDSR i) i.p i.pneg) : exec (.rdsr c i) s = .next (
      if i.imm = 0 then s.rdsrCounter.2.retire c (fun k => k.setS i.d.toNat (BitVec.ofNat 64 s.rdsrCounter.1))
      else s.retire c (fun k => k.setS i.d.toNat (BitVec.ofNat 64 (
        if i.imm = 1 then (s.lcoord c).toNat else if i.imm = 2 then (s.core c).tile else if i.imm = 3 then (s.core c).epoch.toNat
        else if i.imm = 4 then s.cyclesSince c.region (s.core c).stepAt else s.rgnFreq c.region)))) := by
  have hcheck : checkI i (i.fn == 0) .all .unused = 0 := checkI_eq_zero hrsv (by simp [hfn]) rfl (fldOk_unused ha)
  have hleg : (if checkI i (i.fn == 0) .all .unused ≠ 0 then checkI i (i.fn == 0) .all .unused
      else if i.imm.toNat ≤ 5 then 0 else fOPERAND) = 0 := by rw [hcheck, if_pos himm]; rfl
  exact (exec_of_issues (i := .rdsr c i) (s := s) rfl hleg (opDefined_encodeI i (by decide)) hiss).trans rfl

/-- The counter as RDSR 0 reads it (R279): never below the read before, and within 2 ns where that one is not above. -/
theorem State.rdsrCounter_bounds (s : State) : s.rdsrCounter.2 = { s with freeCtr := s.freeCtr + 1, lastRdsr := s.rdsrCounter.1 } ∧
    s.lastRdsr ≤ s.rdsrCounter.1 ∧
    (s.lastRdsr ≤ s.now + 2 → s.now ≤ s.rdsrCounter.1 + 2 ∧ s.rdsrCounter.1 ≤ s.now + 2) := by
  have hfive : Config.freeNat s.freeCtr % 5 < 5 := Nat.mod_lt _ (by decide)
  refine ⟨rfl, le_max_left _ _, fun hlast => ?_⟩
  change s.now ≤ max s.lastRdsr (s.now + Config.freeNat s.freeCtr % 5 - 2) + 2 ∧
    max s.lastRdsr (s.now + Config.freeNat s.freeCtr % 5 - 2) ≤ s.now + 2
  omega

theorem rdsr_counter_answers (hrsv : i.rsv = 0) (hfn : i.fn = 0) (ha : i.a = 0) (himm : i.imm = 0) (hd : 0 < i.d.toNat)
    (hiss : Issues s c (encodeI opRDSR i) i.p i.pneg) : Answers (.rdsr c i) s (fun t =>
      (t.core c).s i.d.toNat = BitVec.ofNat 64 t.lastRdsr ∧ s.lastRdsr ≤ t.lastRdsr ∧
      (s.lastRdsr ≤ s.now + 2 → s.now ≤ t.lastRdsr + 2 ∧ t.lastRdsr ≤ s.now + 2) ∧
      (t.core c).pc = (s.core c).advance.pc ∧ SameOtherCores c s t ∧ t.regs = s.regs ∧ SameMemory s t) := by
  obtain ⟨hstate, hlast, hnear⟩ := s.rdsrCounter_bounds
  refine ⟨_, exec_rdsr hrsv hfn ha (by simp [himm]) hiss, ?_⟩
  rw [if_pos himm, hstate]
  refine ⟨?_, hlast, hnear, ?_, fun d h => State.retire_core_other _ _ _ _ h, rfl, SameMemory.of_eq rfl rfl rfl⟩
  · rw [State.retire_core_self, CoreSt.advance_frame]
    exact CoreSt.s_setS_self _ _ _ (Nat.pos_iff_ne_zero.1 hd)
  · rw [State.retire_core_self, CoreSt.setS, if_neg (Nat.pos_iff_ne_zero.1 hd)]
    rfl

end

/-- Settles O10, instruction by instruction. -/
theorem predicateAndAddressResults : Obligations.PredicateAndAddressResults := by
  intro s c w i hw hc hi k pd x y z
  refine ⟨fun hd hlow hiss => ?_, fun hd hlow hiss => ?_, fun hd hlow ha hb hiss => ?_, fun hfn hd hb hiss => ?_,
    fun hfn hd ha hiss => ?_, fun hfn hd ha hiss => ?_, fun hfn ha hb hiss => ?_, fun hfn ha hiss => ?_⟩
  case refine_1 =>
    have h := fun hfn => cmp_answers hw hc hd hlow hfn hiss
    refine ⟨fun hfn => ?_, fun hfn => ?_, fun hfn => ?_, fun hfn => ?_, fun hfn => ?_, fun hfn => ?_⟩ <;> simp only [hfn] at h
    · exact h (by decide)
    · exact h (by decide)
    · exact h (by decide)
    · rw [← condOp_ge]; exact h (by decide)
    · exact h (by decide)
    · rw [← condOp_uge]; exact h (by decide)
  case refine_2 =>
    have h := fun hfn => cmpi_answers hi hd hlow hfn hiss
    refine ⟨fun hfn => ?_, fun hfn => ?_, fun hfn => ?_⟩ <;> simp only [hfn] at h
    · exact h (by decide)
    · exact h (by decide)
    · rw [← condOp_uge]; exact h (by decide)
  case refine_3 =>
    have h := fun hfn => plog_answers hw hc hd hlow ha hb hfn hiss
    refine ⟨fun hfn => ?_, fun hfn => ?_, fun hfn => ?_, fun hfn => ?_⟩ <;> simp only [hfn] at h <;> exact h (by decide)
  case refine_4 =>
    exact answers_of_retire rfl (checkR_eq_zero hw (by simp [hfn]) (fldOk_low hd) rfl (fldOk_unused hb) (fldOk_unused hc))
      (opDefined_encodeR w (by decide)) hiss rfl rfl
  case refine_5 =>
    exact answers_of_retire rfl (checkR_eq_zero hw (decide_eq_true hfn) (fldOk_low hd) (fldOk_low ha) rfl (fldOk_unused hc))
      (opDefined_encodeR w (by decide)) hiss rfl rfl
  case refine_6 =>
    exact answers_of_retire rfl (checkI_eq_zero hi (by simp [hfn]) (fldOk_low hd) (fldOk_low ha)) (opDefined_encodeI i (by decide))
      hiss rfl rfl
  case refine_7 =>
    exact answers_of_retire rfl (checkR_eq_zero hw (by simp [hfn]) rfl (fldOk_low ha) (fldOk_unused hb) (fldOk_unused hc))
      (opDefined_encodeR w (by decide)) hiss rfl rfl
  case refine_8 =>
    have h := fun himm => exec_rdsr hi hfn ha himm hiss
    refine ⟨fun himm => ?_, fun himm => ?_, fun himm => ?_, fun himm => ?_, fun himm hd =>
      rdsr_counter_answers hi hfn ha himm hd hiss⟩ <;> rw [himm] at h <;> exact ⟨_, h (by decide), onlyCore_retire s c _⟩

/-- Settles O19: each of the words is legal, so that the failed predicate makes it a NOP. -/
theorem failedPredicateIsNop : Obligations.FailedPredicateIsNop := by
  intro s c w i b hw hc hfn hi hifn hia hb hsa k skips nop
  have hR : checkR w (w.fn == 0) .all .all .all .unused = 0 := checkR_eq_zero hw (by simp [hfn]) rfl rfl rfl (fldOk_unused hc)
  have hVop : checkR w (decide (w.fn.toNat ≤ 6)) .all .all (if w.fn.toNat < 5 then .all else .unused) .unused = 0 :=
    checkR_eq_zero hw (by simp [hfn]) rfl rfl (by rw [hfn]; rfl) (fldOk_unused hc)
  have hI : checkI i (i.fn == 0) .all .all = 0 := checkI_eq_zero hi (by simp [hifn]) rfl rfl
  have hIown : checkI i (i.fn == 0) .all (.low 4) = 0 := checkI_eq_zero hi (by simp [hifn]) rfl (fldOk_low hia)
  have hB : checkB b false true = 0 := by simp [checkB, hb, hsa]
  have hopR : ∀ {op : Nat}, opDefined op = true → opDefined (opcodeOf (encodeR op w)) = true := opDefined_encodeR w
  have hopI : ∀ {op : Nat}, opDefined op = true → opDefined (opcodeOf (encodeI op i)) = true := opDefined_encodeI i
  exact ⟨fun h => answers_of_skip rfl hR (hopR (by decide)) h.1 h.2.1 h.2.2,
    fun h => answers_of_skip rfl hR (hopR (by decide)) h.1 h.2.1 h.2.2,
    fun h => answers_of_skip rfl hR (hopR (by decide)) h.1 h.2.1 h.2.2,
    fun h => answers_of_skip rfl hI (hopI (by decide)) h.1 h.2.1 h.2.2,
    fun h => answers_of_skip rfl hIown (hopI (by decide)) h.1 h.2.1 h.2.2,
    fun h => answers_of_skip rfl hIown (hopI (by decide)) h.1 h.2.1 h.2.2,
    fun h => answers_of_skip rfl hIown (hopI (by decide)) h.1 h.2.1 h.2.2,
    fun h => answers_of_skip rfl hVop (hopR (by decide)) h.1 h.2.1 h.2.2,
    fun h => answers_of_skip rfl hB (opDefined_encodeB b (by decide)) h.1 h.2.1 h.2.2⟩

end Sys2Proof.Machine
end

section
/-! SUPPORT. Writes of clean words of a slice (R93, R101): the bytes are stored, and of the rest only the marks of errors seen and of
write-backs may change. -/

namespace Sys2Proof.Machine

/-- s after bytes were stored at offset o of a slice; u and wb are the marks of errors seen and of write-backs that are left. -/
def State.wroteSlice (s : State) (c : CoreId) (o : Nat) (bs : List Byte) (u : Tab Nat) (wb : List Nat) : State :=
  { s with sram := tabSetList byteReset s.sram (sliceKey c o) bs, ueSeen := u, writeBack := wb }

/-! ### What a write leaves -/

section
variable (s : State) (c : CoreId) (o : Nat) (bs : List Byte) (u : Tab Nat) (wb : List Nat)

@[simp] theorem State.core_wroteSlice (d : CoreId) : (s.wroteSlice c o bs u wb).core d = s.core d := rfl
@[simp] theorem State.bistOf_wroteSlice (d : CoreId) : (s.wroteSlice c o bs u wb).bistOf d = s.bistOf d := rfl

theorem State.sram_wroteSlice_outside (j : Nat) (h : j < sliceKey c o ∨ sliceKey c o + bs.length ≤ j) :
    tabGet byteReset (s.wroteSlice c o bs u wb).sram j = tabGet byteReset s.sram j :=
  tabGet_tabSetList_outside _ _ _ _ _ h

/-- The bytes read back, where the background tester redirects no row. -/
theorem State.sliceRaw_wroteSlice (n : Nat) (hlen : bs.length = n) (hr : (s.bistOf c).redirect = none) :
    (s.wroteSlice c o bs u wb).sliceRaw c o n = bs := by
  rw [State.sliceRaw, State.bistOf_wroteSlice, if_pos hr]
  exact tabGetList_tabSetList _ _ _ _ _ hlen

@[simp] theorem State.sliceRaw_onCore (d : CoreId) (f : CoreSt → CoreSt) (n : Nat) :
    (s.onCore d f).sliceRaw c o n = s.sliceRaw c o n := rfl

/-- Bytes stored and the PC moved on: the bytes stand in the slice, and only they and the core have changed. -/
theorem wroteSlice_retire (n : Nat) (hlen : bs.length = n) (hr : (s.bistOf c).redirect = none) :
    ((s.wroteSlice c o bs u wb).retire c id).sliceRaw c o n = bs ∧
    (∀ j, j < sliceKey c o ∨ sliceKey c o + n ≤ j →
      tabGet byteReset ((s.wroteSlice c o bs u wb).retire c id).sram j = tabGet byteReset s.sram j) ∧
    ((s.wroteSlice c o bs u wb).retire c id).core c = (s.core c).advance ∧
    SameOtherCores c s ((s.wroteSlice c o bs u wb).retire c id) :=
  ⟨by rw [State.retire, State.sliceRaw_onCore, s.sliceRaw_wroteSlice c o bs u wb n hlen hr],
    fun j hj => s.sram_wroteSlice_outside c o bs u wb j (by rwa [hlen]), State.retire_core_self _ _ _,
    fun d h => State.retire_core_other (s.wroteSlice c o bs u wb) c d id h⟩

end

/-! ### Clean writes -/

section
variable {s : State} {c : CoreId}

/-- A read of a word without an error, at which no injection is armed, meets nothing. -/
theorem State.eccRead_clean {w : Nat} (h : s.errAt c w = 0 ∧ s.injAims c w = false) : s.eccRead c w = ((0, false), s) := by
  simp [State.eccRead, State.eccSee, h]

/-- A write meets no error in clean words, so that all of them are performed. -/
theorem State.eccWrite_clean (o n : Nat) : ∀ (ws : List Nat) (s : State), (∀ w ∈ ws, s.errAt c w = 0 ∧ s.injAims c w = false) →
    ∃ u wb, s.eccWrite c o n ws = ([], { s with ueSeen := u, writeBack := wb }) := by
  intro ws
  induction ws with
  | nil => intro s _; exact ⟨_, _, rfl⟩
  | cons w ws ih =>
    intro s h
    obtain ⟨v, hv⟩ : ∃ v, (if natGet s.ueSeen (wordKey c w) = 1 then { s with ueSeen := natSet s.ueSeen (wordKey c w) 2 } else s) =
        { s with ueSeen := v } := by
      split
      · exact ⟨_, rfl⟩
      · exact ⟨_, rfl⟩
    have hw : ({ s with ueSeen := v } : State).errAt c w = 0 ∧ ({ s with ueSeen := v } : State).injAims c w = false :=
      h w (by simp)
    obtain ⟨u, wb, hrest⟩ := ih { s with ueSeen := v } fun x hx => h x (by simp [hx])
    refine ⟨u, wb.filter (· ≠ wordKey c w), ?_⟩
    simp [State.eccWrite, hv, State.eccRead_clean hw, hw.1, hrest]

theorem State.sliceWrite_clean {o : Nat} {bs : List Byte} (hr : (s.bistOf c).redirect = none)
    (hclean : CleanWords s c o bs.length) : ∃ u wb, s.sliceWrite c o bs = (false, s.wroteSlice c o bs u wb) := by
  obtain ⟨u, wb, h⟩ := State.eccWrite_clean o bs.length (wordsOf o bs.length) s hclean
  refine ⟨u, wb, ?_⟩
  have hr' : (({ s with ueSeen := u, writeBack := wb } : State).bistOf c).redirect = none := hr
  simp only [State.sliceWrite, if_pos hr, h, if_true, State.sliceSet, if_pos hr', State.wroteSlice]

/-- A core that waits for nothing has no word that a SEMWAIT waits on. -/
theorem State.semTouch_unblocked (hfree : (s.core c).blocked = none) (ws : List Nat) : s.semTouch c ws = s := by
  simp only [State.semTouch, State.semWord, hfree]

section
variable (hquiet : QuietSlice s c) (hfree : (s.core c).blocked = none)
include hquiet hfree

theorem State.portWrite_clean (i : Nat) {o : Nat} {bs : List Byte} (hclean : CleanWords s c o bs.length) :
    ∃ u wb, s.portWrite c i o bs = (false, s.wroteSlice c o bs u wb) := by
  obtain ⟨u, wb, h⟩ := State.sliceWrite_clean hquiet.2 hclean
  refine ⟨u, wb, ?_⟩
  simp only [State.portWrite, s.bankWin_free c i 1 _ hquiet.1, h]
  rw [State.semTouch_unblocked (by exact hfree), State.bankRest_free _ c _ (by exact hquiet.1)]

/-- Bits set or cleared in a clean word leave the word they make (R102). -/
theorem State.portAlias_clean (i : Nat) {o : Nat} (set : Bool) (mask : Word64) (hclean : CleanWords s c o 8) :
    ∃ u wb, s.portAlias c i o set mask = (false,
      s.wroteSlice c o (leBytes (aliasWord set (BitVec.ofNat 64 (leNat (s.sliceRaw c o 8))) mask).toNat 8) u wb) := by
  obtain ⟨u, wb, h⟩ := State.sliceWrite_clean
    (bs := leBytes (aliasWord set (BitVec.ofNat 64 (leNat (s.sliceRaw c o 8))) mask).toNat 8) hquiet.2 (by rwa [length_leBytes])
  refine ⟨u, wb, ?_⟩
  simp only [State.portAlias, s.bankWin_free c i _ _ hquiet.1, State.applyMask, h]
  rw [State.semTouch_unblocked (by exact hfree), State.bankRest_free _ c _ (by exact hquiet.1)]

end

/-! ### Loads and stores of the own slice (R59, R101) -/

theorem State.ownLoad_clean {a : Addr} {n align o : Nat} (op : Nat) (f : List Byte → CoreSt → CoreSt)
    (hown : s.ownOfs c a n align = some o) (hok : s.sliceOk c 1 0 o n = true) (hclean : CleanWords s c o n)
    (hquiet : QuietSlice s c) : s.ownLoad c a n align op f = s.retire c (f (s.sliceRaw c o n)) := by
  simp [State.ownLoad, hown, hok, s.portRead_clean c 1 o n hquiet.1 hclean]

theorem State.ownStore_clean {a : Addr} {align o : Nat} (op : Nat) {bs : List Byte} (hown : s.ownOfs c a bs.length align = some o)
    (hok : s.sliceOk c 1 1 o bs.length = true) (hclean : CleanWords s c o bs.length) (hquiet : QuietSlice s c)
    (hfree : (s.core c).blocked = none) : ∃ u wb, s.ownStore c a align op bs = (s.wroteSlice c o bs u wb).retire c id := by
  obtain ⟨u, wb, h⟩ := State.portWrite_clean hquiet hfree 1 hclean
  exact ⟨u, wb, by simp [State.ownStore, hown, hok, h]⟩

/-- A store of n bytes that issues: exactly its bytes are written, and the PC moves on. -/
theorem answers_of_store {i : Instr} {x : Word64} {leg num op n align o : Nat} {p : BitVec 3} {pneg : Bool} {a : Addr} {bs : List Byte}
    {body : State → State} (hexec : exec i s = .next (s.issue c x leg num p pneg body)) (hleg : leg = 0)
    (hdef : opDefined (opcodeOf x) = true) (hi : Issues s c x p pneg) (hbody : body s = s.ownStore c a align op bs)
    (hlen : bs.length = n) (hown : s.ownOfs c a n align = some o) (hok : s.sliceOk c 1 1 o n = true)
    (hclean : CleanWords s c o n) (hquiet : QuietSlice s c) : Answers i s (fun t => t.sliceRaw c o n = bs ∧
      (∀ j, j < sliceKey c o ∨ sliceKey c o + n ≤ j → tabGet byteReset t.sram j = tabGet byteReset s.sram j) ∧
      t.core c = (s.core c).advance ∧ SameOtherCores c s t ∧ t.regs = s.regs ∧ t.acc = s.acc ∧ t.hbm = s.hbm) := by
  subst hlen
  obtain ⟨-, -, hfree⟩ := (CoreSt.canIssue_iff _).1 hi.1
  obtain ⟨u, wb, h⟩ := State.ownStore_clean op hown hok hclean hquiet hfree
  obtain ⟨hraw, hout, hcore, hother⟩ := wroteSlice_retire s c o bs u wb bs.length rfl hquiet.2
  exact ⟨_, exec_of_issues hexec hleg hdef hi, by rw [hbody, h]; exact ⟨hraw, hout, hcore, hother, rfl, rfl, rfl⟩⟩

end

/-- Settles O11: each access meets only clean words, so that a load gives what stands there and a store leaves its bytes. -/
theorem sliceLoadsAndStores : Obligations.SliceLoadsAndStores := by
  intro s c i o hrsv hfn ha hquiet k a
  have hleg : checkI i (i.fn == 0) .all (.low 4) = 0 := checkI_eq_zero hrsv (by simp [hfn]) rfl (fldOk_low ha)
  have hop : ∀ {op : Nat}, opDefined op = true → opDefined (opcodeOf (encodeI op i)) = true := opDefined_encodeI i
  refine ⟨fun hown hclean => ⟨fun hok hiss => ?_, fun hok hiss => ?_⟩, fun hown hclean => ⟨fun hok hiss => ?_, fun hok hiss => ?_⟩⟩
  case refine_1 | refine_3 =>
    exact answers_of_retire rfl hleg (hop (by decide)) hiss (State.ownLoad_clean _ _ hown hok hclean hquiet) rfl
  case refine_2 | refine_4 =>
    exact answers_of_store rfl hleg (hop (by decide)) hiss rfl (length_leBytes _ _) hown hok hclean hquiet

end Sys2Proof.Machine
end

section
/-! SUPPORT. Cores after an effect on one of them, waits that end at once, and transfer queues in which nothing has to start. -/

namespace Sys2Proof.Machine

/-! ### Effects on one core, one after the other -/

/-- Every core after an effect on core c: what has c's place takes the effect. -/
theorem State.core_onCore (s : State) (c d : CoreId) (f : CoreSt → CoreSt) :
    (s.onCore c f).core d = if coreKey d = coreKey c then f (s.core c) else s.core d := tabGet_tabSet _ _ _ _ _

theorem SameMemory.trans {s t u : State} (h : SameMemory s t) (g : SameMemory t u) : SameMemory s u :=
  ⟨fun k => (g.1 k).trans (h.1 k), fun k => (g.2.1 k).trans (h.2.1 k), fun k => (g.2.2 k).trans (h.2.2 k)⟩

theorem SameOtherCores.trans {c : CoreId} {s t u : State} (h : SameOtherCores c s t) (g : SameOtherCores c t u) :
    SameOtherCores c s u := fun d hd => (g d hd).trans (h d hd)

theorem OnlyCore.refl (c : CoreId) (s : State) : OnlyCore c (s.core c) s s :=
  ⟨rfl, fun _ _ => rfl, rfl, SameMemory.of_eq rfl rfl rfl, rfl⟩

/-- A further effect on the core that alone has changed. -/
theorem OnlyCore.onCore {c : CoreId} {k : CoreSt} {s t : State} (h : OnlyCore c k s t) (f : CoreSt → CoreSt) :
    OnlyCore c (f k) s (t.onCore c f) := by
  obtain ⟨hcore, hother, hregs, hmem, hpending⟩ := h
  exact ⟨by rw [State.core_onCore_self, hcore], hother.trans (sameOtherCores_onCore t c f), hregs,
    hmem.trans (sameMemory_onCore t c f), hpending⟩

theorem OnlyCore.retire {c : CoreId} {k : CoreSt} {s t : State} (h : OnlyCore c k s t) : OnlyCore c k.advance s (t.retire c id) :=
  h.onCore CoreSt.advance

/-! ### Cores that wait -/

theorem noneBlocked_onCore {s : State} {c : CoreId} {f : CoreSt → CoreSt} (h : NoneBlocked s) (hf : (f (s.core c)).blocked = none) :
    NoneBlocked (s.onCore c f) := by
  intro d
  rw [State.core_onCore]
  split
  · exact hf
  · exact h d

theorem State.settleAll_unblocked {s : State} (h : NoneBlocked s) : s.settleAll = s := s.settle_unblocked _ fun d _ => h d

@[simp] theorem State.settle_nil (s : State) : s.settle [] = s := s.settle_unblocked [] (by simp)

/-- A waiting instruction whose wait ends as it issues. -/
theorem State.waitOn_ends {s t : State} {c : CoreId} {b : Blocked} {wake : List CoreId} (h : tryBlocked b c s = .ends t wake) :
    s.waitOn c b = t.settle wake := by
  simp only [State.waitOn, h]

/-! ### Transfer queues (R70) -/

theorem State.startXfers_nil {s : State} {c : CoreId} (h : (s.core c).xq = []) : ∀ n, s.startXfers c n = s
  | 0 => rfl
  | n + 1 => by simp only [State.startXfers, h]

/-- Behind a transfer in progress nothing starts. -/
theorem State.startXfers_started {s : State} {c : CoreId} {y : Xfer} {ys : List Xfer} (h : (s.core c).xq = y :: ys)
    (hstart : y.started = true) (hsend : y.send = false) : ∀ n, s.startXfers c n = s
  | 0 => rfl
  | n + 1 => by simp [State.startXfers, h, hstart, hsend]

theorem State.retrySends_none {s : State} {c : CoreId} (h : (s.core c).refusedSends = []) (ch : Nat) : s.retrySends c ch = s := by
  simp only [State.retrySends, h, List.find?_nil]

/-- With its queue empty and no refused send, a core has nothing to start. -/
theorem State.nextXfers_idle {s : State} {c : CoreId} (hxq : (s.core c).xq = []) (href : (s.core c).refusedSends = []) :
    s.nextXfers c = s := by
  rw [State.nextXfers, State.startXfers_nil hxq]
  exact List.foldlRecOn (motive := fun t => t = s) _ _ rfl (by rintro t rfl ch -; exact State.retrySends_none href ch)

/-- The last transfer leaves a core's queue, and no core on the package waits: nothing else happens. -/
theorem State.leaveQueue {s : State} {c : CoreId} {f : CoreSt → CoreSt} (hblocked : (f (s.core c)).blocked = (s.core c).blocked)
    (hxq : (f (s.core c)).xq = []) (href : (f (s.core c)).refusedSends = []) (h : NoneBlocked s) :
    ((s.onCore c f).nextXfers c).settleAll = s.onCore c f := by
  rw [State.nextXfers_idle (by rwa [State.core_onCore_self]) (by rwa [State.core_onCore_self]),
    State.settleAll_unblocked (noneBlocked_onCore h (by rw [hblocked]; exact h c))]

/-- An error of a transfer of a core that runs marks its tag or its channel. -/
theorem State.lateError_running {s : State} {c : CoreId} (h : (s.core c).quiet = false) (f late : CoreSt → CoreSt) :
    s.lateError c f late = s.onCore c f := by
  rw [State.lateError, h, if_neg Bool.false_ne_true]

/-! ### One bit -/

theorem bitOf_putBits_self {w : Nat} (x : BitVec w) (i : Nat) (h : i < w) : bitOf (putBits x i 1 1) i = true := by
  have hfield := bitsOf_putBits_self x i 1 1 h
  rw [bitsOf, pow_one] at hfield
  rw [bitOf, hfield]
  rfl

theorem land_zero_of_bitVec {w : Nat} (m : Nat) {x : BitVec w} (h : x = 0) : Nat.land m x.toNat = 0 := by
  subst h
  exact Nat.and_zero m

end Sys2Proof.Machine
end

section
/-! DMA, its completion and DWAIT (R68, R70), and the statement about them. -/

namespace Sys2Proof.Machine

/-- A word of format X is legal where its reserved bits and each field that its operation does not name are 0 (R58). -/
theorem checkX_eq_zero {w : XWord} {fnOk ad as sa sb n imm : Bool} (hrsv : w.rsv = 0) (hfn : fnOk = true)
    (had : ad = true ∨ w.ad = 0) (has : as = true ∨ w.as = 0) (hsa : sa = true ∨ w.sa = 0) (hsb : sb = true ∨ w.sb = 0)
    (hn : n = true ∨ w.n = 0) (himm : imm = true ∨ w.imm16 = 0) : checkX w fnOk ad as sa sb n imm = 0 := by
  rw [checkX, if_pos]
  simp only [Bool.and_eq_true, Bool.or_eq_true, decide_eq_true_eq]
  exact ⟨⟨⟨⟨⟨⟨⟨hrsv, hfn⟩, had⟩, has⟩, hsa⟩, hsb⟩, hn⟩, himm⟩

section
variable {s : State} {c : CoreId} {w : XWord}

/-- DMA of format FN 0 where it issues. -/
theorem dma_legal (hrsv : w.rsv = 0) (himm : w.imm16 = 0) (hfn : w.fn = 0) (hsb : w.sb = 0) (hn : w.n.toNat < 8) :
    checkX w (decide (w.fn.toNat ≤ 1) && decide (w.n.toNat < 8)) true true true (decide (w.fn = 1)) true false = 0 :=
  checkX_eq_zero hrsv (by simp [hfn, hn]) (.inl rfl) (.inl rfl) (.inl rfl) (.inr hsb) (.inl rfl) (.inr himm)

/-- A DMA of bytes within reach on this package, behind a transfer in progress in a queue with a place: it joins the queue. -/
theorem dma_joins (hrsv : w.rsv = 0) (himm : w.imm16 = 0) (hfn : w.fn = 0) (hsb : w.sb = 0) (hn : w.n.toNat < 8)
    (hiss : Issues s c (encodeX opDMA w) w.p w.pneg) {y : Xfer} {ys : List Xfer} (hbytes : (dmaXfer (s.core c) w).bytes ≠ 0)
    (hreach : s.dmaReach c (dmaXfer (s.core c) w) = true) (hnear : s.dmaFar c (dmaXfer (s.core c) w) = false)
    (hxq : (s.core c).xq = y :: ys) (hroom : ys.length < 7) (hstart : y.started = true) (hsend : y.send = false) :
    Answers (.dma c w) s (OnlyCore c ({ s.core c with xq := (s.core c).xq ++ [dmaXfer (s.core c) w] } : CoreSt).advance s) := by
  have hrows : (dmaXfer (s.core c) w).rows = 1 := if_pos hfn
  have hmoves : ¬ ((dmaXfer (s.core c) w).bytes = 0 ∨ (dmaXfer (s.core c) w).rows = 0) :=
    not_or.2 ⟨hbytes, by rw [hrows]; decide⟩
  have hfull : ¬ 8 ≤ (s.core c).xq.length := by rw [hxq, List.length_cons]; omega
  have hjoin : (s.onCore c (fun k => { k with xq := k.xq ++ [dmaXfer (s.core c) w] })).startXfers c 8 =
      s.onCore c (fun k => { k with xq := k.xq ++ [dmaXfer (s.core c) w] }) :=
    State.startXfers_started (y := y) (ys := ys ++ [dmaXfer (s.core c) w]) (by rw [State.core_onCore_self, hxq]; rfl) hstart hsend 8
  refine ⟨_, (exec_of_issues (i := .dma c w) (s := s) rfl (dma_legal hrsv himm hfn hsb hn) (opDefined_encodeX w (by decide)) hiss).trans rfl, ?_⟩
  simp only [hmoves, hreach, hnear, hfull, if_false, Bool.not_true, Bool.false_eq_true]
  change OnlyCore c _ s (((s.onCore c (fun k => { k with xq := k.xq ++ [dmaXfer (s.core c) w] })).startXfers c 8).retire c id)
  rw [hjoin]
  exact (onlyCore_onCore s c _).retire

/-- DMA_COMPLETE with an error of the one DMA in the queue of a core that runs: it leaves the queue, and its tag is marked. -/
theorem dmaComplete_error {y : Xfer} {data : List Byte} (hxq : (s.core c).xq = [y]) (hsend : y.send = false)
    (hbanks : ∀ b < 8, (s.core c).mmaInto b = false) (hnone : NoneBlocked s) (hquiet : (s.core c).quiet = false)
    (href : (s.core c).refusedSends = []) : exec (.dmaComplete c false data) s =
      .next (s.onCore c (fun k => { k with xq := [], errTags := putBits k.errTags y.num 1 1 })) := by
  have hfree : (List.range 8).any (fun b => s.dmaOnBank c b && (s.core c).mmaInto b) = false := by
    simp only [List.any_eq_false, List.mem_range, Bool.and_eq_true, not_and]
    exact fun b hb _ => by simp [hbanks b hb]
  change execDmaComplete c false data s = _
  simp only [execDmaComplete, hxq, hsend, hfree, Bool.false_eq_true, if_false, Bool.not_false, if_true,
    State.lateError_running hquiet]
  rw [State.leaveQueue rfl rfl href hnone]

/-- DMA_COMPLETE of the one DMA in the queue whose rows were copied: it leaves the queue. -/
theorem dmaComplete_copied {y : Xfer} {data : List Byte} (hxq : (s.core c).xq = [y]) (hsend : y.send = false)
    (hbanks : ∀ b < 8, (s.core c).mmaInto b = false) (hok : (s.copyRows c y y.rows 0 data).1 = (false, false))
    (hnone : NoneBlocked (s.copyRows c y y.rows 0 data).2) (href : ((s.copyRows c y y.rows 0 data).2.core c).refusedSends = []) :
    exec (.dmaComplete c true data) s = .next ((s.copyRows c y y.rows 0 data).2.onCore c (fun k => { k with xq := [] })) := by
  have hfree : (List.range 8).any (fun b => s.dmaOnBank c b && (s.core c).mmaInto b) = false := by
    simp only [List.any_eq_false, List.mem_range, Bool.and_eq_true, not_and]
    exact fun b hb _ => by simp [hbanks b hb]
  change execDmaComplete c true data s = _
  simp only [execDmaComplete, hxq, hsend, hfree, Bool.false_eq_true, if_false, Bool.not_true, hok]
  rw [State.leaveQueue rfl rfl href hnone]

/-- The errors of the tags of a mask cleared, and what is remembered of the tags. -/
def CoreSt.clearTags (mask : Nat) (k : CoreSt) : CoreSt :=
  { k with errTags := BitVec.ofNat 8 (Nat.land k.errTags.toNat (255 - mask)),
           remoteTags := BitVec.ofNat 8 (Nat.land k.remoteTags.toNat (255 - mask)) }

/-- DWAIT ends at once where no DMA is in the queue and no tag has an error. -/
theorem tryDwait_idle (hxq : (s.core c).xq = []) (herr : (s.core c).errTags = 0) :
    tryDwait w c s = done (s.onCore c (CoreSt.clearTags (bitsOf w.imm16 0 8))) c := by
  have hbusy : (List.range 8).any (fun t => bitsOf w.imm16 0 8 / 2 ^ t % 2 == 1 && (s.core c).tagBusy t) = false := by
    simp [CoreSt.tagBusy, hxq]
  simp only [tryDwait, hbusy, Bool.false_eq_true, if_false, land_zero_of_bitVec _ herr, ne_eq,
    not_true_eq_false]
  rfl

end

/-- Settles O14, clause by clause. -/
theorem dmaResults : Obligations.DmaResults := by
  intro s c w hrsv k x
  refine ⟨fun himm hfn hsb hn hiss => ⟨fun hbytes => ?_, fun y ys hbytes hreach hnear hxq hroom hstart hsend => ?_⟩,
    fun y data hxq hsend hbanks => ⟨fun hnone hquiet href => ?_, fun hok hnone href => ?_⟩,
    fun hfn had has hsa hsb hn hxq herr hiss => ?_⟩
  case refine_1 =>
    exact ⟨_, (exec_of_issues (i := .dma c w) (s := s) rfl (dma_legal hrsv himm hfn hsb hn) (opDefined_encodeX w (by decide)) hiss).trans
      (congrArg _ (if_pos (Or.inl hbytes))), onlyCore_retire s c id⟩
  case refine_2 =>
    obtain ⟨t, hexec, hcore, hother, hregs, hmem, -⟩ :=
      dma_joins hrsv himm hfn hsb hn hiss hbytes hreach hnear hxq hroom hstart hsend
    exact ⟨t, hexec, by rw [hcore]; rfl, by rw [hcore]; rfl, hother, hregs, hmem⟩
  case refine_3 =>
    refine ⟨_, dmaComplete_error hxq hsend hbanks hnone hquiet href, ?_, fun hnum => ?_, sameOtherCores_onCore s c _, rfl,
      sameMemory_onCore s c _⟩
    · rw [State.core_onCore_self]
    · rw [State.core_onCore_self]
      exact bitOf_putBits_self _ _ hnum
  case refine_4 =>
    refine ⟨_, dmaComplete_copied hxq hsend hbanks hok hnone href, ?_, ?_, sameMemory_onCore _ c _, rfl⟩
    · rw [State.core_onCore_self]
    · rw [State.core_onCore_self]
  case refine_5 =>
    have hleg : checkX w (w.fn == 0) false false false false false true = 0 :=
      checkX_eq_zero hrsv (by simp [hfn]) (.inr had) (.inr has) (.inr hsa) (.inr hsb) (.inr hn) (.inl rfl)
    obtain ⟨hcore, hother, hregs, hmem, -⟩ :=
      (onlyCore_onCore s c (CoreSt.clearTags (bitsOf w.imm16 0 8))).onCore CoreSt.advance
    refine ⟨_, exec_of_issues (i := .dwait c w) (s := s) rfl hleg (opDefined_encodeX w (by decide)) hiss, ?_⟩
    rw [State.waitOn_ends (b := .x opDWAIT w) (wake := []) (tryDwait_idle hxq herr), State.settle_nil]
    refine ⟨?_, ?_, ?_, hother, hregs, hmem⟩ <;> rw [hcore]
    · rfl
    · exact hxq
    · exact ((CoreSt.canIssue_iff _).1 hiss.1).2.2

end Sys2Proof.Machine
end

section
/-! SEND, RECV, SWAIT, RWAIT and the end of a send (R71 to R73), and the statement about them. -/

namespace Sys2Proof.Machine

theorem natGet_natBump (t : Tab Nat) (i : Nat) : natGet (natBump t i) i = natGet t i + 1 := tabGet_tabSet_self _ _ _ _

@[simp] theorem CoreSt.postedOf_setPosted (k : CoreSt) (n : Nat) (l : List Posted) : (k.setPosted n l).postedOf n = l :=
  tabGet_tabSet_self _ _ _ _

/-- The transfer of SEND word w of core c against credit cr. -/
def State.sendXfer (s : State) (c : CoreId) (w : XWord) (cr : Credit) : Xfer :=
  { send := true, num := w.n.toNat, src := (s.core c).a w.as.toNat, bytes := ((s.core c).s w.sa.toNat).toNat, pc := (s.core c).pc,
    seq := natGet (s.core c).sends w.n.toNat, epoch := (s.core c).epoch, remote := s.bindRemote c ((s.core c).schanOf w.n.toNat),
    cepoch := cr.epoch }

/-- A send joins the transfer queue. -/
def CoreSt.queueSend (n : Nat) (x : Xfer) (k : CoreSt) : CoreSt := { k with xq := k.xq ++ [x], sends := natBump k.sends n }

/-- A receive posts its buffer. -/
def CoreSt.post (n : Nat) (b : Posted) (k : CoreSt) : CoreSt :=
  { k.setPosted n (k.postedOf n ++ [b]) with posts := natBump k.posts n }

/-- The errors of the sends of a mask cleared. -/
def CoreSt.clearSends (mask : Nat) (k : CoreSt) : CoreSt :=
  { k with errSends := BitVec.ofNat 16 (Nat.land k.errSends.toNat (65535 - mask)) }

theorem CoreSt.clearSends_none {k : CoreSt} (h : k.errSends = 0) (mask : Nat) : k.clearSends mask = k := by
  have hclear : BitVec.ofNat 16 (Nat.land k.errSends.toNat (65535 - mask)) = k.errSends := by
    rw [h]
    exact congrArg (BitVec.ofNat 16) (Nat.zero_and _)
  rw [CoreSt.clearSends, hclear]

/-- A check that asks for the contrary of what holds does not fail. -/
theorem not_bnot {b : Bool} (h : b = true) : ¬ (!b) = true := by rw [h]; decide

theorem not_isNone {α : Type} {o : Option α} (h : o.isSome = true) : ¬ o.isNone = true := by
  rw [Option.isNone_iff_eq_none, ← Option.not_isSome_iff_eq_none]
  exact not_not.2 h

section
variable {s : State} {c : CoreId} {w : XWord}

theorem State.peerNamed_of_bindLocal {b : Word32} {q : CoreId} (h : s.bindLocal c b = some q) : s.peerNamed c b = true := by
  unfold State.bindLocal at h
  unfold State.peerNamed
  split at h
  · split at h
    case h_1 heq => rw [heq]; rfl
    case h_2 => cases h
  · cases h

/-- A SEND that holds the credit for its message, behind a transfer in progress in a queue with a place (R72). -/
theorem trySend_joins {cr : Credit} {y : Xfer} {ys : List Xfer}
    (hcr : (s.core c).creditFor w.n.toNat (natGet (s.core c).sends w.n.toNat) = some cr)
    (hmod : ((s.core c).s w.sa.toNat).toNat % 32 = 0) (hlow : 32 ≤ ((s.core c).s w.sa.toNat).toNat)
    (hcap : ((s.core c).s w.sa.toNat).toNat ≤ cr.cap) (hhigh : ((s.core c).s w.sa.toNat).toNat ≤ 2 ^ 20)
    (hxq : (s.core c).xq = y :: ys) (hroom : ys.length < 7) (hstart : y.started = true) (hsend : y.send = false) :
    trySend w c s = done (s.onCore c (CoreSt.queueSend w.n.toNat (s.sendXfer c w cr))) c := by
  have hfits : ¬ (((s.core c).s w.sa.toNat).toNat % 32 ≠ 0 ∨ ((s.core c).s w.sa.toNat).toNat < 32 ∨
      2 ^ 20 < ((s.core c).s w.sa.toNat).toNat ∨ cr.cap < ((s.core c).s w.sa.toNat).toNat) := by omega
  have hfull : ¬ 8 ≤ (s.core c).xq.length := by rw [hxq, List.length_cons]; omega
  simp only [trySend, hcr]
  rw [if_neg hfits, if_neg hfull]
  refine congrArg (done · c) (State.startXfers_started (y := y) (ys := ys ++ [s.sendXfer c w cr]) ?_ hstart hsend 8)
  rw [State.core_onCore_self, hxq]
  rfl

/-- A RECV with a place for its buffer posts it and gives its sender q on this package the credit (R72). -/
theorem tryRecv_posts {q : CoreId} {o : Nat} {b : Posted}
    (hofs : s.ownOfs c ((s.core c).a w.ad.toNat) ((s.core c).s w.sa.toNat).toNat 1 = some o)
    (hroom : ((s.core c).postedOf w.n.toNat).length < 2)
    (hnew : natGet (s.core c).delivered w.n.toNat ≤ natGet (s.core c).posts w.n.toNat)
    (hbind : s.bindLocal c ((s.core c).rchanOf w.n.toNat) = some q) (hne : coreKey q ≠ coreKey c)
    (href : (s.core q).refusedSends = [])
    (hb : b = { ofs := o, cap := ((s.core c).s w.sa.toNat).toNat, seq := natGet (s.core c).posts w.n.toNat, epoch := (s.core c).epoch,
                pc := (s.core c).pc }) :
    tryRecv w c s = done ((s.onCore c (CoreSt.post w.n.toNat b)).onCore q (fun x =>
      x.addCredit (bitsOf ((s.core c).rchanOf w.n.toNat) 16 4) { num := b.seq, cap := b.cap / 32 * 32, epoch := b.epoch })) c [q] := by
  have hgive : (s.onCore c (CoreSt.post w.n.toNat b)).giveCredit c w.n.toNat (b.cap / 32 * 32) =
      ([q], (s.onCore c (CoreSt.post w.n.toNat b)).onCore q (fun x =>
        x.addCredit (bitsOf ((s.core c).rchanOf w.n.toNat) 16 4) { num := b.seq, cap := b.cap / 32 * 32, epoch := b.epoch })) := by
    have hbind' : (s.onCore c (CoreSt.post w.n.toNat b)).bindLocal c ((CoreSt.post w.n.toNat b (s.core c)).rchanOf w.n.toNat) =
      some q := hbind
    have hnum : natGet (CoreSt.post w.n.toNat b (s.core c)).posts w.n.toNat - 1 = b.seq := by
      rw [hb]
      exact congrArg (· - 1) (natGet_natBump _ _)
    simp only [State.giveCredit, State.core_onCore_self, hbind', hnum]
    subst hb
    rfl
  subst hb
  simp only [tryRecv, hofs]
  rw [if_neg (by omega : ¬ 2 ≤ _), if_neg (by omega : ¬ _ < _)]
  change done (List.foldl _ (State.giveCredit (s.onCore c (CoreSt.post w.n.toNat _)) c _ _).2
    (State.giveCredit (s.onCore c (CoreSt.post w.n.toNat _)) c _ _).1) c
    (State.giveCredit (s.onCore c (CoreSt.post w.n.toNat _)) c _ _).1 = _
  rw [hgive]
  refine congrArg (done · c [q]) (State.retrySends_none ?_ _)
  rw [State.core_onCore_self]
  exact (congrArg CoreSt.refusedSends (State.core_onCore_other s _ _ _ hne)).trans href

/-- SWAIT ends at once where no send of its channels is outstanding and no send has an error. -/
theorem trySwait_idle (hidle : ∀ j < 16, bitOf w.imm16 j = true → (s.core c).sendBusy j = false) (herr : (s.core c).errSends = 0) :
    trySwait w c s = done (s.onCore c (CoreSt.clearSends w.imm16.toNat)) c := by
  have hbusy : (List.range 16).any (fun n => bitOf w.imm16 n && (s.core c).sendBusy n) = false := by
    simp only [List.any_eq_false, List.mem_range, Bool.and_eq_true, not_and]
    exact fun j hj hbit => by simp [hidle j hj hbit]
  simp only [trySwait, hbusy, Bool.false_eq_true, if_false, land_zero_of_bitVec _ herr, ne_eq, not_true_eq_false]
  rfl

/-- RWAIT ends at once where the oldest buffer is full. -/
theorem tryRwait_filled {b : Posted} {bs : List Posted} {l : Nat} (hposted : (s.core c).postedOf w.n.toNat = b :: bs)
    (hfill : b.filled = some l) : tryRwait w c s =
      done (s.onCore c (fun k => (k.setS w.sb.toNat (BitVec.ofNat 64 l)).setPosted w.n.toNat bs)) c := by
  simp only [tryRwait, hposted, hfill]

/-- SEND_COMPLETE with an error of the one send in the queue of a core that runs: it leaves the queue, and its channel is marked. -/
theorem sendComplete_error {y : Xfer} (hxq : (s.core c).xq = [y]) (hsend : y.send = true) (hnone : NoneBlocked s)
    (hquiet : (s.core c).quiet = false) (href : (s.core c).refusedSends = []) : exec (.sendComplete c false) s =
      .next (s.onCore c (fun k => { k with xq := [], errSends := putBits k.errSends y.num 1 1 })) := by
  change execSendComplete c false s = _
  simp only [execSendComplete, hxq, hsend, Bool.not_true, Bool.false_eq_true, if_false, Bool.not_false, if_true,
    State.lateError_running hquiet]
  rw [State.leaveQueue rfl rfl href hnone]

end

/-- SEND_COMPLETE of the one send in the queue, to core q on this package, whose message is delivered: it leaves the queue. -/
theorem sendComplete_delivered {s u : State} {c q : CoreId} {ch : Nat} {y : Xfer} {data : List Byte} (hxq : (s.core c).xq = [y])
    (hsend : y.send = true) (htarget : s.sendTarget c y.num = some (q, ch))
    (hrefused : (s.read (.transferEngine c) y.src.toNat y.bytes).1.refused = false)
    (hpoison : (s.read (.transferEngine c) y.src.toNat y.bytes).1.poison = false)
    (hdata : (s.read (.transferEngine c) y.src.toNat y.bytes).1.data = data)
    (hdeliver : (s.read (.transferEngine c) y.src.toNat y.bytes).2.deliver q ch y.seq y.cepoch data = (.written, u))
    (hnone : NoneBlocked u) (href : (u.core c).refusedSends = []) :
    exec (.sendComplete c true) s = .next (u.onCore c (fun k => { k with xq := [] })) := by
  subst hdata
  change execSendComplete c true s = _
  simp only [execSendComplete, hxq, hsend, htarget, hrefused, hpoison, hdeliver, Bool.not_true, Bool.false_eq_true, if_false]
  rw [State.leaveQueue rfl rfl href hnone]

/-- Settles O15, clause by clause. -/
theorem messageResults : Obligations.MessageResults := by
  intro s c w hrsv hfn k n len
  refine ⟨fun had hsb himm hchan hpeer hofs hiss cr y ys hcr hmod hlow hcap hhigh hxq hroom hstart hsend => ?_,
    fun o q has hsb himm hchan hofs hroom hnew hbind hne hblocked href hiss => ?_,
    fun had has hsa hsb hn hidle herr hiss => ?_, fun b bs l had has hsa himm hposted hfill hiss => ?_,
    fun y hxq hsend => ⟨fun hnone hquiet href => ?_, fun q ch htarget hrefused hpoison hwritten hnone href => ?_⟩⟩
  case refine_1 =>
    have hleg : checkX w (w.fn == 0) false true true false true false = 0 :=
      checkX_eq_zero hrsv (by simp [hfn]) (.inr had) (.inl rfl) (.inl rfl) (.inr hsb) (.inl rfl) (.inr himm)
    have hbody := exec_of_issues (i := .send c w) (s := s) rfl hleg (opDefined_encodeX w (by decide)) hiss
    obtain ⟨hcore, hother, hregs, hmem, -⟩ := (onlyCore_onCore s c (CoreSt.queueSend n (s.sendXfer c w cr))).onCore CoreSt.advance
    refine ⟨_, hbody.trans (congrArg _ ((if_neg (not_bnot hchan)).trans ((if_neg (not_bnot hpeer)).trans
      ((if_neg (not_isNone hofs)).trans (State.waitOn_ends (b := .x opSEND w) (wake := [])
        (trySend_joins hcr hmod hlow hcap hhigh hxq hroom hstart hsend)))))), ?_⟩
    rw [State.settle_nil]
    exact ⟨⟨s.sendXfer c w cr, congrArg CoreSt.xq hcore, rfl, rfl, rfl, rfl, rfl, rfl⟩,
      (congrArg (fun k => natGet (CoreSt.sends k) n) hcore).trans (natGet_natBump _ _), (congrArg CoreSt.pc hcore).trans rfl, hother, hregs, hmem⟩
  case refine_2 =>
    have hleg : checkX w (w.fn == 0) true false true false true false = 0 :=
      checkX_eq_zero hrsv (by simp [hfn]) (.inl rfl) (.inr has) (.inl rfl) (.inr hsb) (.inl rfl) (.inr himm)
    have hbody := exec_of_issues (i := .recv c w) (s := s) rfl hleg (opDefined_encodeX w (by decide)) hiss
    refine ⟨_, hbody.trans (congrArg _ ((if_neg (not_bnot hchan)).trans ((if_neg (not_bnot (State.peerNamed_of_bindLocal hbind))).trans
      ((if_neg (not_isNone (by rw [hofs]; rfl))).trans (State.waitOn_ends (b := .x opRECV w)
        (tryRecv_posts hofs hroom hnew hbind hne href rfl)))))), ?_⟩
    have hq : ∀ f g h, (((s.onCore c f).onCore q g).onCore c h).core q = g (s.core q) := fun f g h => by
      rw [State.core_onCore_other _ _ _ _ hne, State.core_onCore_self, State.core_onCore_other _ _ _ _ hne]
    have hc : ∀ f g h, (((s.onCore c f).onCore q g).onCore c h).core c = h (f (s.core c)) := fun f g h => by
      rw [State.core_onCore_self, State.core_onCore_other _ _ _ _ hne.symm, State.core_onCore_self]
    rw [State.settle_unblocked]
    · refine ⟨?_, ?_, ?_, ?_, fun d hdc hdq => ?_, rfl, ?_⟩
      · rw [hc]
        exact CoreSt.postedOf_setPosted _ _ _
      · rw [hc]
        exact natGet_natBump _ _
      · rw [hc]
        rfl
      · rw [hq]
      · rw [State.core_onCore_other _ _ _ _ hdc, State.core_onCore_other _ _ _ _ hdq, State.core_onCore_other _ _ _ _ hdc]
      · exact ((sameMemory_onCore _ _ _).trans (sameMemory_onCore _ _ _)).trans (sameMemory_onCore _ _ _)
    · simp only [List.mem_singleton]
      rintro d rfl
      rw [hq]
      exact hblocked
  case refine_3 =>
    have hleg : checkX w (w.fn == 0) false false false false false true = 0 :=
      checkX_eq_zero hrsv (by simp [hfn]) (.inr had) (.inr has) (.inr hsa) (.inr hsb) (.inr hn) (.inl rfl)
    have honly := (onlyCore_onCore s c (CoreSt.clearSends w.imm16.toNat)).onCore CoreSt.advance
    rw [CoreSt.clearSends_none herr] at honly
    refine ⟨_, exec_of_issues (i := .swait c w) (s := s) rfl hleg (opDefined_encodeX w (by decide)) hiss, ?_⟩
    rw [State.waitOn_ends (b := .x opSWAIT w) (wake := []) (trySwait_idle hidle herr), State.settle_nil]
    exact honly
  case refine_4 =>
    have hleg : checkX w (w.fn == 0) false false false true true false = 0 :=
      checkX_eq_zero hrsv (by simp [hfn]) (.inr had) (.inr has) (.inr hsa) (.inl rfl) (.inl rfl) (.inr himm)
    refine ⟨_, exec_of_issues (i := .rwait c w) (s := s) rfl hleg (opDefined_encodeX w (by decide)) hiss, ?_⟩
    rw [State.waitOn_ends (b := .x opRWAIT w) (wake := []) (tryRwait_filled hposted hfill), State.settle_nil]
    exact (onlyCore_onCore s c _).onCore CoreSt.advance
  case refine_5 =>
    refine ⟨_, sendComplete_error hxq hsend hnone hquiet href, ?_, fun hnum => ?_, sameOtherCores_onCore s c _, rfl,
      sameMemory_onCore s c _⟩
    · rw [State.core_onCore_self]
    · rw [State.core_onCore_self]
      exact bitOf_putBits_self _ _ hnum
  case refine_6 =>
    refine ⟨_, sendComplete_delivered hxq hsend htarget hrefused hpoison rfl (Prod.ext hwritten rfl) hnone href, ?_, ?_,
      sameOtherCores_onCore _ c _, rfl, sameMemory_onCore _ c _⟩
    · rw [State.core_onCore_self]
    · rw [State.core_onCore_self]

end Sys2Proof.Machine
end

section
/-! SUPPORT. Keys of cores and the members of a tile group (R79) after an effect on one core. -/

namespace Sys2Proof.Machine

@[simp] theorem coreOfKey_coreKey (c : CoreId) : coreOfKey (coreKey c) = c := by
  obtain ⟨⟨r, hr⟩, ⟨p, hp⟩⟩ := c
  simp only [coreKey, coreOfKey, CoreId.mk.injEq]
  exact ⟨Fin.ext (by simp only [Fin.ofNat]; omega), Fin.ext (by simp only [Fin.ofNat]; omega)⟩

theorem coreKey_inj {c d : CoreId} (h : coreKey c = coreKey d) : c = d := by
  rw [← coreOfKey_coreKey c, h, coreOfKey_coreKey]

theorem coreKey_ne {c d : CoreId} (h : c ≠ d) : coreKey c ≠ coreKey d := fun hk => h (coreKey_inj hk)

/-- The entries of a table after a key is written: the key's own, or entries from before. -/
theorem mem_tabSet {α : Type} [DecidableEq α] {d : Nat → α} {t : Tab α} {k : Nat} {v : α} {p : Nat × α} (h : p ∈ tabSet d t k v) :
    p = (k, v) ∨ p ∈ t := by
  rw [tabSet_eq] at h
  split at h
  · exact .inr (mem_tabDel.1 h).1
  · exact (mem_tabPut.1 h).imp_right fun hp => (mem_tabDel.1 hp).1

/-- An effect on core c that keeps its tile group adds no member to a group but c itself. -/
theorem mem_groupOf_onCore {s : State} {c d q : CoreId} {f : CoreSt → CoreSt} (hf : (f (s.core c)).tgroup = (s.core c).tgroup)
    (h : q ∈ (s.onCore c f).groupOf d) : q ∈ s.groupOf d ∨ q = c := by
  have hgroup : ∀ e, ((s.onCore c f).core e).tgroup = (s.core e).tgroup := fun e => by
    rw [State.core_onCore]
    split
    case isTrue he => rw [hf, coreKey_inj he]
    case isFalse => rfl
  simp only [State.groupOf, hgroup] at h ⊢
  by_cases hbit : bitOf (s.core d).tgroup 31
  · simp only [hbit, if_true, List.mem_filter, List.mem_map] at h ⊢
    obtain ⟨⟨e, he, rfl⟩, hmember⟩ := h
    rcases mem_tabSet he with rfl | he
    · exact .inr (coreOfKey_coreKey c)
    · exact .inl ⟨⟨e, he, rfl⟩, hmember⟩
  · simp only [hbit] at h ⊢
    exact .inl h

end Sys2Proof.Machine
end

section
/-! Semaphores, barriers and FENCE (R74 to R76, R102), and the statement about them. -/

namespace Sys2Proof.Machine

/-- A recorded duration changes the histograms alone (R340). -/
theorem State.hist_frame (s : State) (kind : Nat) (d : Dye) (unit v : Nat) : ∃ h, s.hist kind d unit v = { s with ldgHist := h } := by
  rw [State.hist]
  split
  · exact ⟨_, rfl⟩
  · split
    · exact ⟨_, rfl⟩
    · exact ⟨_, rfl⟩

/-- An arrival at a barrier is counted. -/
def CoreSt.arrive (n : Nat) (k : CoreSt) : CoreSt := { k with arrivals := natBump k.arrivals n }

/-- What a FENCE that has drained leaves of what is remembered of the tags. -/
def CoreSt.fenced (w : XWord) (k : CoreSt) : CoreSt := if bitOf w.imm16 1 then { k with remoteTags := 0 } else k

/-- What a FENCE names has drained. -/
def CoreSt.Drained (w : XWord) (k : CoreSt) : Prop :=
  (bitOf w.imm16 0 = true → k.mq = []) ∧ (bitOf w.imm16 1 = true → ∀ n < 8, k.tagBusy n = false) ∧
    (bitOf w.imm16 2 = true → ∀ n < 16, k.sendBusy n = false)

/-- The wait begins: the core stands at its word. -/
def CoreSt.beginWait (b : Blocked) (remote : Bool) (now : Nat) (k : CoreSt) : CoreSt :=
  { k with blocked := some b, remoteWait := remote, waitAt := now, semHit := false }

section
variable (b : Blocked) (remote : Bool) (now : Nat) (k : CoreSt)

@[simp] theorem CoreSt.pc_beginWait : (k.beginWait b remote now).pc = k.pc := rfl
@[simp] theorem CoreSt.run_beginWait : (k.beginWait b remote now).run = k.run := rfl
@[simp] theorem CoreSt.sregs_beginWait : (k.beginWait b remote now).sregs = k.sregs := rfl
@[simp] theorem CoreSt.blocked_beginWait : (k.beginWait b remote now).blocked = some b := rfl

end

section
variable {s : State} {c : CoreId} {w : XWord}

/-- SEMSET and SEMCLR on a clean word of the own slice that nothing waits for: the word takes the mask, and the PC moves on. -/
theorem semaphore_clean {a : Addr} {o op : Nat} (set : Bool) (mask : Word64) (hplace : s.place (s.owner c.region) a.toNat = .slice c o)
    (halign : o % 8 = 0) (hok : s.sliceOk c 1 2 o 8 = true) (hclean : CleanWords s c o 8) (hquiet : QuietSlice s c)
    (hfree : (s.core c).blocked = none) : ∃ u wb, s.semaphore c a set mask op =
      (s.wroteSlice c o (leBytes (aliasWord set (BitVec.ofNat 64 (leNat (s.sliceRaw c o 8))) mask).toNat 8) u wb).retire c id := by
  obtain ⟨u, wb, hport⟩ := State.portAlias_clean hquiet hfree 1 set mask hclean
  refine ⟨u, wb, ?_⟩
  simp only [State.semaphore, hplace, if_true, halign, hok, hport, decide_true, Bool.and_self, Bool.false_eq_true, if_false]
  exact State.settle_onCore_unblocked _ c _ hfree

/-- SEMSET and SEMCLR where they issue: exactly the aliased word is written, and the PC moves on. -/
theorem answers_semaphore {i : Instr} {op o : Nat} (set : Bool) (hexec : exec i s = .next (s.issue c (encodeX op w)
      (checkX w (w.fn == 0) false true true false false false) 0 w.p w.pneg
      (fun s => s.semaphore c ((s.core c).a w.as.toNat) set ((s.core c).s w.sa.toNat) op)))
    (hdef : opDefined op = true) (hleg : checkX w (w.fn == 0) false true true false false false = 0)
    (hplace : s.place (s.owner c.region) ((s.core c).a w.as.toNat).toNat = .slice c o) (halign : o % 8 = 0)
    (hok : s.sliceOk c 1 2 o 8 = true) (hclean : CleanWords s c o 8) (hquiet : QuietSlice s c)
    (hiss : Issues s c (encodeX op w) w.p w.pneg) : Answers i s (fun t =>
      t.sliceRaw c o 8 = leBytes (aliasWord set (BitVec.ofNat 64 (leNat (s.sliceRaw c o 8))) ((s.core c).s w.sa.toNat)).toNat 8 ∧
      (t.core c).pc = (s.core c).advance.pc ∧
      (∀ j, j < sliceKey c o ∨ sliceKey c o + 8 ≤ j → tabGet byteReset t.sram j = tabGet byteReset s.sram j) ∧
      SameOtherCores c s t ∧ t.regs = s.regs) := by
  obtain ⟨-, -, hfree⟩ := (CoreSt.canIssue_iff _).1 hiss.1
  obtain ⟨u, wb, hsem⟩ := semaphore_clean (op := op) set ((s.core c).s w.sa.toNat) hplace halign hok hclean hquiet hfree
  obtain ⟨hraw, hout, hcore, hother⟩ := wroteSlice_retire s c o _ u wb 8 (length_leBytes _ _) hquiet.2
  exact ⟨_, (exec_of_issues hexec hleg (opDefined_encodeX w hdef) hiss).trans (congrArg _ hsem), hraw, congrArg CoreSt.pc hcore, hout,
    hother, rfl⟩

/-- SEMWAIT ends at once where the named bits of a clean word match. -/
theorem trySemwait_match {o : Nat} (hofs : s.ownOfs c ((s.core c).a w.as.toNat) 8 8 = some o) (hok : s.sliceOk c 1 0 o 8 = true)
    (hclean : CleanWords s c o 8) (hquiet : QuietSlice s c)
    (hmatch : BitVec.ofNat 64 (leNat (s.sliceRaw c o 8)) &&& (s.core c).s w.sa.toNat =
      (s.core c).s w.sb.toNat &&& (s.core c).s w.sa.toNat) : trySemwait w c s = done s c := by
  simp only [trySemwait, hofs, hok, s.portRead_clean c 1 o 8 hquiet.1 hclean, hmatch, Bool.not_true, Bool.false_eq_true, if_false,
    if_true]

/-- FENCE waits exactly where something that it names has not drained. -/
theorem fenceBusy_eq_false_iff (k : CoreSt) : ((bitOf w.imm16 0 && k.mq != []) || (bitOf w.imm16 1 && (List.range 8).any k.tagBusy) ||
    (bitOf w.imm16 2 && (List.range 16).any k.sendBusy)) = false ↔ k.Drained w := by
  simp only [CoreSt.Drained, Bool.or_eq_false_iff, Bool.and_eq_false_imp, bne_eq_false_iff_eq, List.any_eq_false, List.mem_range,
    Bool.not_eq_true, and_assoc]

theorem tryFence_drained (h : (s.core c).Drained w) (htags : bitOf w.imm16 1 = true → (s.core c).errTags = 0)
    (hsends : bitOf w.imm16 2 = true → (s.core c).errSends = 0) : tryFence w c s = done (s.onCore c (CoreSt.fenced w)) c := by
  simp only [tryFence]
  rw [(fenceBusy_eq_false_iff _).2 h, if_neg Bool.false_ne_true, if_neg (by simpa using htags), if_neg (by simpa using hsends)]
  rfl

theorem tryFence_waits (h : ¬ (s.core c).Drained w) : tryBlocked (.x opFENCE w) c s = .waits s := by
  change tryFence w c s = _
  rw [← fenceBusy_eq_false_iff, Bool.not_eq_false] at h
  simp only [tryFence]
  rw [if_pos h]

/-- An arrival at a barrier whose generation is complete does not count as one of the next. -/
theorem arrives_before {n : Nat} {b : BarrierSt} (hgen : natGet (s.core c).arrivals n < b.gen) :
    ¬ b.gen < natGet ((s.onCore c (CoreSt.arrive n)).core c).arrivals n := by
  rw [State.core_onCore_self, CoreSt.arrive, natGet_natBump]
  exact Nat.not_lt.2 hgen

@[simp] theorem State.bar_onCore (d : Dye) (g : Nat) (f : CoreSt → CoreSt) : (s.onCore c f).bar d g = s.bar d g := rfl
@[simp] theorem State.owner_onCore (r : RegionNo) (f : CoreSt → CoreSt) : (s.onCore c f).owner r = s.owner r := rfl
@[simp] theorem CoreSt.baridOf_arrive (n m : Nat) (k : CoreSt) : (k.arrive n).baridOf m = k.baridOf m := rfl

/-- BARRIER ends at once where its generation is complete. -/
theorem tryBarrier_complete (hgen : natGet (s.core c).arrivals w.n.toNat <
      (s.bar (s.owner c.region) (bitsOf ((s.core c).baridOf w.n.toNat) 0 12)).gen) :
    tryBarrier w c (s.onCore c (CoreSt.arrive w.n.toNat)) = done (s.onCore c (CoreSt.arrive w.n.toNat)) c := by
  have harrive : natGet ((s.core c).arrive w.n.toNat).arrivals w.n.toNat ≤
      (s.bar (s.owner c.region) (bitsOf ((s.core c).baridOf w.n.toNat) 0 12)).gen := by
    rw [CoreSt.arrive, natGet_natBump]
    exact hgen
  simp only [tryBarrier, State.core_onCore_self, State.bar_onCore, State.owner_onCore, CoreSt.baridOf_arrive, harrive, if_true]

end

/-- A core that waits with no stop pending and no member of its group faulted does not abandon its tile (R83). -/
theorem State.waitOn_waits {s : State} {c : CoreId} {b : Blocked} (hwaits : tryBlocked b c s = .waits s)
    (hrun : (s.core c).run = .running) (hstop : (s.core c).stopPend = false) (hgroup : ∀ q ∈ s.groupOf c, (s.core q).run ≠ .faulted) :
    s.waitOn c b = s.onCore c (CoreSt.beginWait b (s.blockedRemote c b) s.now) := by
  have hstay : (s.onCore c (CoreSt.beginWait b (s.blockedRemote c b) s.now)).mustAbandon c = false := by
    have hnone : ((s.onCore c (CoreSt.beginWait b (s.blockedRemote c b) s.now)).groupOf c).any (fun q =>
        ((s.onCore c (CoreSt.beginWait b (s.blockedRemote c b) s.now)).core q).run == .faulted) = false := by
      simp only [List.any_eq_false, beq_iff_eq]
      intro q hq
      rw [State.core_onCore]
      split
      · exact ne_of_eq_of_ne hrun (by decide)
      case isFalse hne =>
        exact hgroup q ((mem_groupOf_onCore rfl hq).resolve_right fun h => hne (congrArg coreKey h))
    rw [State.mustAbandon, hnone, State.core_onCore_self]
    simp [CoreSt.beginWait, hstop]
  simp only [State.waitOn, hwaits]
  change (s.onCore c (CoreSt.beginWait b (s.blockedRemote c b) s.now)).checkAbandon c = _
  rw [State.checkAbandon, hstay, if_neg Bool.false_ne_true]

/-- A barrier after the release of its generation (R74). -/
def BarrierSt.released (b : BarrierSt) : BarrierSt :=
  { gen := b.gen + 1, arrived := [], packets := b.packets.filter (fun p => p.2 ≠ b.gen) }

/-- BARRIER_RELEASE where every member has arrived: the next generation, the duration recorded, and the members look again. -/
theorem execBarrierRelease_complete {s : State} {d : Dye} {g : Nat} (hlocal : s.barrierLocal d g ≠ [])
    (hhere : s.barrierAllHere d g = true) (hthere : s.barrierAllThere d g = true) : execBarrierRelease d g s =
      .next (((s.setBar d g (s.bar d g).released).hist 0 d g ((s.bar d g).lastAt - (s.bar d g).firstAt)).settle (s.barrierLocal d g)) := by
  simp only [execBarrierRelease, hlocal, hhere, hthere, ne_eq, not_false_eq_true, decide_true, Bool.and_self, if_true]
  rfl

@[simp] theorem State.core_setBar (s : State) (d : Dye) (g : Nat) (b : BarrierSt) (q : CoreId) : (s.setBar d g b).core q = s.core q := rfl

theorem noneBlocked_setBar {s : State} (h : NoneBlocked s) (d : Dye) (g : Nat) (b : BarrierSt) : NoneBlocked (s.setBar d g b) := by
  intro q
  rw [State.core_setBar]
  exact h q

/-- Where no core waits, the members have nothing to look for. -/
theorem settle_hist_unblocked {s : State} (hnone : NoneBlocked s) (kind : Nat) (d : Dye) (unit v : Nat) (cs : List CoreId) :
    ∃ h, (s.hist kind d unit v).settle cs = { s with ldgHist := h } := by
  obtain ⟨h, hhist⟩ := s.hist_frame kind d unit v
  have hfree : NoneBlocked { s with ldgHist := h } := hnone
  rw [hhist]
  exact ⟨h, State.settle_unblocked _ _ fun q _ => hfree q⟩

theorem answers_barrierRelease {s : State} {d : Dye} {g : Nat} (hlocal : s.barrierLocal d g ≠ []) (hhere : s.barrierAllHere d g = true)
    (hthere : s.barrierAllThere d g = true) (hnone : NoneBlocked s) : Answers (.barrierRelease d g) s (fun t =>
      (t.bar d g).gen = (s.bar d g).gen + 1 ∧ (t.bar d g).arrived = [] ∧ t.regs = s.regs ∧ t.cores = s.cores ∧ SameMemory s t) := by
  obtain ⟨h, hsettle⟩ := settle_hist_unblocked (noneBlocked_setBar hnone d g (s.bar d g).released) 0 d g
    ((s.bar d g).lastAt - (s.bar d g).firstAt) (s.barrierLocal d g)
  have hexec := execBarrierRelease_complete hlocal hhere hthere
  rw [hsettle] at hexec
  have hbar : ({ s.setBar d g (s.bar d g).released with ldgHist := h } : State).bar d g = (s.bar d g).released :=
    tabGet_tabSet_self _ _ _ _
  refine ⟨_, hexec, ?_, ?_, rfl, rfl, SameMemory.of_eq rfl rfl rfl⟩
  · rw [hbar]
    rfl
  · rw [hbar]
    rfl

/-- Settles O16, clause by clause. -/
theorem syncResults : Obligations.SyncResults := by
  intro s c w hrsv hfn k m old
  have hfn' : (w.fn == 0) = true := by simp [hfn]
  refine ⟨fun o had hsb hn himm hplace halign hroom hok hclean hquiet => ?_,
    fun o had hn himm hofs hok hclean hquiet hmatch hiss => ?_, ?_,
    fun d g hlocal hhere hthere hnone => ?_, fun had has hsa hsb hn hiss => ?_⟩
  case refine_1 =>
    have hleg : checkX w (w.fn == 0) false true true false false false = 0 :=
      checkX_eq_zero hrsv hfn' (.inr had) (.inl rfl) (.inl rfl) (.inr hsb) (.inr hn) (.inr himm)
    exact ⟨answers_semaphore true rfl (by decide) hleg hplace halign hok hclean hquiet,
      answers_semaphore false rfl (by decide) hleg hplace halign hok hclean hquiet⟩
  case refine_2 =>
    have hleg : checkX w (w.fn == 0) false true true true false false = 0 :=
      checkX_eq_zero hrsv hfn' (.inr had) (.inl rfl) (.inl rfl) (.inl rfl) (.inr hn) (.inr himm)
    refine ⟨_, exec_of_issues (i := .semwait c w) (s := s) rfl hleg (opDefined_encodeX w (by decide)) hiss, ?_⟩
    rw [State.waitOn_ends (b := .x opSEMWAIT w) (wake := []) (trySemwait_match hofs hok hclean hquiet hmatch), State.settle_nil]
    exact onlyCore_onCore s c _
  case refine_3 =>
    intro n g d had has hsa hsb himm hchan hmember hgen hiss
    have hleg : checkX w (w.fn == 0) false false false false true false = 0 :=
      checkX_eq_zero hrsv hfn' (.inr had) (.inr has) (.inr hsa) (.inr hsb) (.inl rfl) (.inr himm)
    have hthere : ¬ (!bitOf (k.baridOf n) 31 || !(s.barrierMembers d g).contains (s.lcoord c)) = true := by
      rw [hchan, hmember]; decide
    refine ⟨_, (exec_of_issues (i := .barrier c w) (s := s) rfl hleg (opDefined_encodeX w (by decide)) hiss).trans (congrArg _
      ((if_neg hthere).trans ((congrArg (fun t => State.waitOn t c (.x opBARRIER w)) (if_neg (arrives_before hgen))).trans
        (State.waitOn_ends (b := .x opBARRIER w) (wake := []) (tryBarrier_complete hgen))))), ?_⟩
    rw [State.settle_nil]
    exact (onlyCore_onCore s c (CoreSt.arrive n)).onCore CoreSt.advance
  case refine_4 =>
    exact answers_barrierRelease hlocal hhere hthere hnone
  case refine_5 =>
    have hleg : checkX w (w.fn == 0) false false false false false true = 0 :=
      checkX_eq_zero hrsv hfn' (.inr had) (.inr has) (.inr hsa) (.inr hsb) (.inr hn) (.inl rfl)
    have hbody := exec_of_issues (i := .fence c w) (s := s) rfl hleg (opDefined_encodeX w (by decide)) hiss
    have hdrained : k.Drained w → (bitOf w.imm16 1 = true → k.errTags = 0) → (bitOf w.imm16 2 = true → k.errSends = 0) →
        Answers (.fence c w) s (OnlyCore c (k.fenced w).advance s) := fun h htags hsends => by
      refine ⟨_, hbody.trans (congrArg _ (State.waitOn_ends (b := .x opFENCE w) (wake := []) (tryFence_drained h htags hsends))), ?_⟩
      rw [State.settle_nil]
      exact (onlyCore_onCore s c _).onCore CoreSt.advance
    refine ⟨hdrained, fun hbusy hstop hgroup => ?_, fun himm => ?_⟩
    · obtain ⟨hrun, -, -⟩ := (CoreSt.canIssue_iff _).1 hiss.1
      obtain ⟨hcore, hother, hregs, hmem, -⟩ :=
        onlyCore_onCore s c (CoreSt.beginWait (.x opFENCE w) (s.blockedRemote c (.x opFENCE w)) s.now)
      rw [State.waitOn_waits (tryFence_waits hbusy) hrun hstop hgroup] at hbody
      refine ⟨_, hbody, ?_, ?_, ?_, hother, hregs, hmem, ?_⟩ <;> rw [hcore]
      · exact CoreSt.pc_beginWait _ _ _ _
      · exact CoreSt.run_beginWait _ _ _ _
      · exact CoreSt.sregs_beginWait _ _ _ _
      · exact CoreSt.blocked_beginWait _ _ _ _
    · have hbit : ∀ i, ¬ bitOf w.imm16 i = true := fun i => by simp [himm, bitOf]
      have hsame : k.fenced w = k := if_neg (hbit 1)
      rw [← hsame]
      exact hdrained ⟨fun h => absurd h (hbit 0), fun h => absurd h (hbit 1), fun h => absurd h (hbit 2)⟩
        (fun h => absurd h (hbit 1)) (fun h => absurd h (hbit 2))

end Sys2Proof.Machine
end

section
/-! SUPPORT. What the end of a wait counts, tile groups of one core, and a fault of a core (R77, R79, R81, R86). -/

namespace Sys2Proof.Machine

/-- A core without a tile group is alone (R79). -/
theorem State.groupOf_alone {s : State} {c : CoreId} (h : bitOf (s.core c).tgroup 31 = false) : s.groupOf c = [c] := by
  simp only [State.groupOf, h, Bool.false_eq_true, if_false]

/-- n stall cycles counted (Table 3-12). -/
def CoreSt.stalled (n : Word32) (k : CoreSt) : CoreSt :=
  if k.remoteWait then { k with stallRemote := k.stallRemote + n } else { k with stallLocal := k.stallLocal + n }

theorem CoreSt.stalled_eq (k : CoreSt) (n : Word32) : ∃ r l, k.stalled n = { k with stallRemote := r, stallLocal := l } ∧
    (k.remoteWait = false → l = k.stallLocal + n) := by
  by_cases h : k.remoteWait = true
  · exact ⟨_, _, if_pos h, fun hlocal => absurd (h.symm.trans hlocal) (by decide)⟩
  · exact ⟨_, _, if_neg h, fun _ => rfl⟩

section
variable {s t : State} {c : CoreId} {k : CoreSt}

/-- The end of a wait counts its stall cycles and nothing else. -/
theorem OnlyCore.countStall (h : OnlyCore c k s t) : ∃ r l, OnlyCore c { k with stallRemote := r, stallLocal := l } s (t.countStall c) ∧
    (k.remoteWait = false → l = k.stallLocal + BitVec.ofNat 32 (t.cyclesSince c.region k.waitAt)) := by
  obtain ⟨r, l, hstall, hlocal⟩ := k.stalled_eq (BitVec.ofNat 32 (t.cyclesSince c.region (t.core c).waitAt))
  refine ⟨r, l, ?_, fun hremote => by rw [hlocal hremote, h.1]⟩
  rw [← hstall]
  exact h.onCore _

theorem OnlyCore.cutWait (h : OnlyCore c k s t) : ∃ r l, OnlyCore c { k with stallRemote := r, stallLocal := l } s (t.cutWait c) := by
  rw [State.cutWait]
  split
  · obtain ⟨r, l, honly, -⟩ := h.countStall
    exact ⟨r, l, honly⟩
  · exact ⟨k.stallRemote, k.stallLocal, h⟩

theorem OnlyCore.tileMaxNow (h : OnlyCore c k s t) : ∃ m, OnlyCore c { k with tileMax := m } s (t.tileMaxNow c) := ⟨_, h.onCore _⟩

end

/-- A Ledger record leaves all but LDG_FOLDED and the Ledger itself as it is. -/
theorem State.ledger_keeps (s : State) (e : LedgerEvent) : (s.ledger e).cores = s.cores ∧ SameMemory s (s.ledger e) ∧
    SameRegsBut [regKey .ldg LDG_FOLDED] s (s.ledger e) := by
  obtain ⟨g, i, o, hledger, hregs⟩ := s.ledger_frame e
  rw [hledger]
  exact ⟨rfl, SameMemory.of_eq rfl rfl rfl, fun k hk => hregs k (by simpa using hk)⟩

theorem State.faultRec_keeps (s : State) (c : CoreId) (code : Nat) : (s.faultRec c code).cores = s.cores ∧
    SameMemory s (s.faultRec c code) ∧ SameRegsBut [regKey .ldg LDG_FOLDED] s (s.faultRec c code) := s.ledger_keeps _

theorem State.core_faultRec (s : State) (c d : CoreId) (code : Nat) : (s.faultRec c code).core d = s.core d := by
  rw [State.core, State.core, (s.faultRec_keeps c code).1]

/-- A fault of a running core that is alone in its tile group stops it, and no other core. -/
theorem State.coreFault_alone {s : State} {c : CoreId} (hquiet : (s.core c).quiet = false) (halone : bitOf (s.core c).tgroup 31 = false)
    (code pc num op : Nat) : ∃ r l, (s.coreFault c code pc num op).core c =
        CoreSt.faulted { s.core c with stallRemote := r, stallLocal := l } code pc num op ∧
      SameOtherCores c s (s.coreFault c code pc num op) ∧ SameMemory s (s.coreFault c code pc num op) ∧
      SameRegsBut [regKey .ldg LDG_FOLDED] s (s.coreFault c code pc num op) := by
  obtain ⟨r, l, hcut⟩ := (OnlyCore.refl c s).cutWait
  obtain ⟨hcore, hother, hregs, hmem, -⟩ := hcut.onCore (fun k => k.faulted code pc num op)
  obtain ⟨-, hmem', hregs'⟩ := ((s.cutWait c).onCore c (fun k => k.faulted code pc num op)).faultRec_keeps c code
  have hgroup : (((s.cutWait c).onCore c (fun k => k.faulted code pc num op)).faultRec c code).groupOf c = [c] := by
    refine State.groupOf_alone ?_
    rw [State.core_faultRec, hcore]
    exact halone
  have hfault : s.coreFault c code pc num op = ((s.cutWait c).onCore c (fun k => k.faulted code pc num op)).faultRec c code := by
    simp [State.coreFault, hquiet, hgroup, State.checkAbandons]
  rw [hfault]
  exact ⟨r, l, (State.core_faultRec _ _ _ _).trans hcore, fun d hd => (State.core_faultRec _ _ _ _).trans (hother d hd),
    hmem.trans hmem', fun k hk => (hregs' k hk).trans (congrArg (tabGet regReset · k) hregs)⟩

end Sys2Proof.Machine
end

section
/-! BR, LOOP, TBOUND, HALT, the tile gate and the watchdog (R60, R77 to R79), and the statement about them. -/

namespace Sys2Proof.Machine

theorem checkB_eq_zero {w : BWord} {sa imm : Bool} (hrsv : w.rsv = 0) (hsa : sa = true ∨ w.sa = 0) (himm : imm = true ∨ w.imm = 0) :
    checkB w sa imm = 0 := by
  simp only [checkB, Bool.and_eq_true, Bool.or_eq_true, decide_eq_true_eq]
  exact if_pos ⟨⟨hrsv, hsa⟩, himm⟩

/-- The end of a tile whose work has drained: its checkpoint (R78). -/
def CoreSt.endTile (k : CoreSt) : CoreSt := { k.checkpoint with deliveredLog := [], tileTags := 0 }
def CoreSt.enterGate (now : Nat) (k : CoreSt) : CoreSt := { k with run := .gate, waitAt := now }
def CoreSt.halt (k : CoreSt) : CoreSt := { k with run := .halted, stopPend := false, remoteWait := false, credits := [] }

theorem CoreSt.gateOpen_gate {k : CoreSt} {now : Nat} (h : k.run = .gate) : k.gateOpen now =
    { k with run := .running, tile := k.tile + 1, pc := k.ckpt.pc, loops := k.ckpt.loops, tileAt := now } := if_pos (by rw [h]; rfl)

/-- The checkpoint names the next instruction. -/
theorem CoreSt.ckpt_endTile (k : CoreSt) : k.endTile.ckpt.pc = k.advance.pc ∧ k.endTile.ckpt.sregs = k.sregs ∧
    k.endTile.ckpt.aregs = k.aregs ∧ k.endTile.ckpt.tile = k.tile := ⟨rfl, rfl, rfl, rfl⟩

section
variable {s : State} {c : CoreId}

theorem State.branch_inside {imm : Word32} (hlow : 0 ≤ ((s.core c).pc : Int) + imm.toInt)
    (hhigh : ((s.core c).pc : Int) + imm.toInt < (s.core c).istore.length) (hloops : (s.core c).loops = []) :
    s.branch c imm = s.onCore c (fun k => { k with pc := (((s.core c).pc : Int) + imm.toInt).toNat }) := by
  have hin : ¬ (((s.core c).pc : Int) + imm.toInt < 0 ∨ ((s.core c).istore.length : Int) ≤ (s.core c).pc + imm.toInt) := by omega
  simp only [State.branch, hloops, hin, if_false, List.any_nil, Bool.false_eq_true]

theorem State.loopIn_enters {sa n : Nat} (hn : n ≠ 0) (hbody : (s.core c).pc + n < (s.core c).istore.length)
    (hloops : (s.core c).loops.length < 4) (hcount : (s.core c).s sa ≠ 0) : s.loopIn c sa n = s.onCore c (fun k => { k with
      pc := k.pc + 1, loops := { first := k.pc + 1, last := k.pc + n, left := (k.s sa).toNat } :: k.loops }) := by
  simp only [State.loopIn, hn, Nat.not_le.2 hbody, Nat.not_le.2 hloops, hcount, if_false]

/-- The end of a tile where nothing of it is outstanding (R78). -/
theorem tryTile_drained (halt : Bool) (hmq : (s.core c).mq = []) (hxq : (s.core c).xq = []) (hsent : (s.core c).sent = [])
    (href : (s.core c).refusedSends = []) (hfilled : ∀ n, ∀ b ∈ (s.core c).postedOf n, b.filled.isSome = true) :
    tryTile halt c s = .ends (if halt then ((s.onCore c CoreSt.endTile).tileMaxNow c).onCore c CoreSt.halt
      else (s.onCore c CoreSt.endTile).onCore c (CoreSt.enterGate s.now)) [] := by
  have hnone : (List.range 16).find? (fun n => ((s.core c).postedOf n).any (fun b => b.filled.isNone)) = none := by
    simp only [List.find?_eq_none, List.any_eq_true, not_exists, not_and]
    exact fun n _ b hb => not_isNone (hfilled n b hb)
  simp only [tryTile, hmq, hxq, hsent, href, hnone, ne_eq, not_true_eq_false, or_self, if_false]
  cases halt <;> rfl

/-- A gate at which the one core of the group waits opens (R79). -/
theorem tileGateOpen_alone (hrun : (s.core c).run = .gate) (hstop : (s.core c).stopPend = false)
    (halone : bitOf (s.core c).tgroup 31 = false)
    (hheld : ∀ h, tabGet (fun _ => none) s.held c.region.val = some h → h.stream = false) :
    exec (.tileGateOpen c) s = .next (((s.countStall c).tileMaxNow c).onCore c (CoreSt.gateOpen s.now)) := by
  have hopen : (tabGet (fun _ => none) s.held c.region.val).any (fun h => h.stream) = false := by
    cases hget : tabGet (fun _ => none) s.held c.region.val with
    | none => rfl
    | some h => exact hheld h hget
  change execTileGateOpen c s = _
  simp only [execTileGateOpen, State.groupOf_alone halone, List.foldl_cons, List.foldl_nil, List.any_cons, List.any_nil, hstop,
    Bool.false_eq_true, if_false, hrun, hopen, State.gateLeave]
  rfl

/-- A tile that has lasted CORE_TILE_LIMIT cycles takes the overrun fault (R77). -/
theorem tileOverrun_faults (hrun : (s.core c).run = .running) (hstop : (s.core c).stopPend = false)
    (habandon : (s.core c).abandoning = false) (hlimit : (s.core c).tileLimit.toNat ≤ s.cyclesSince c.region (s.core c).tileAt) :
    exec (.tileOverrun c) s = .next (s.coreFault c fOVERRUN (s.core c).pc 0
      ((((s.core c).istore[(s.core c).pc]?).map opcodeOf).getD 0)) := by
  have hbits : bitsOf (s.core c).tileLimit 0 32 = (s.core c).tileLimit.toNat := by
    rw [bitsOf, pow_zero, Nat.div_one, Nat.mod_eq_of_lt (s.core c).tileLimit.isLt]
  change execTileOverrun c s = _
  simp only [execTileOverrun, hrun, hstop, habandon, hbits, hlimit]
  rfl

end

/-- Settles O17, clause by clause. -/
theorem controlResults : Obligations.ControlResults := by
  intro s c w hrsv k tgt
  refine ⟨fun hsa hlow hhigh hloops hiss => ?_, fun hlt hpos hbody hloops hcount hiss => ?_,
    fun hsa himm hp hpneg hmq hxq hsent href hfilled => ?_, fun hrun hstop halone hheld => ?_,
    fun hrun hstop habandon halone hlimit => ?_⟩
  case refine_1 =>
    refine ⟨_, (exec_of_issues (i := .br c w) (s := s) rfl (checkB_eq_zero hrsv (.inr hsa) (.inl rfl)) (opDefined_encodeB w (by decide)) hiss).trans
      (congrArg _ (State.branch_inside hlow hhigh hloops)), onlyCore_onCore s c _⟩
  case refine_2 =>
    have hhigh : bitsOf w.imm 16 16 = 0 := by
      rw [bitsOf, Nat.div_eq_of_lt (by omega), Nat.zero_mod]
    have hbits : bitsOf w.imm 0 16 = w.imm.toNat := by
      rw [bitsOf, pow_zero, Nat.div_one, Nat.mod_eq_of_lt (by omega)]
    have hexec := exec_of_issues (i := .loop c w) (s := s) rfl ((if_pos hhigh).trans (checkB_eq_zero hrsv (.inl rfl) (.inl rfl)))
      (opDefined_encodeB w (by decide)) hiss
    rw [hbits, State.loopIn_enters (by omega) hbody hloops hcount] at hexec
    exact ⟨_, hexec, onlyCore_onCore s c _⟩
  case refine_3 =>
    have hleg : checkTile w = 0 := by
      simp [checkTile, checkB_eq_zero (sa := false) (imm := false) hrsv (.inr hsa) (.inr himm), hp, hpneg]
    obtain ⟨hpc, hsregs, haregs, htile⟩ := CoreSt.ckpt_endTile k
    refine ⟨fun hiss => ?_, fun hiss => ?_⟩
    · have hexec := exec_of_issues (i := .tbound c w) (s := s) rfl hleg (opDefined_encodeB w (by decide)) hiss
      obtain ⟨hcore, hother, hregs, hmem, -⟩ := (onlyCore_onCore s c CoreSt.endTile).onCore (CoreSt.enterGate s.now)
      rw [State.waitOn_ends (b := .b opTBOUND w) (tryTile_drained false hmq hxq hsent href hfilled), State.settle_nil] at hexec
      refine ⟨_, hexec, ?_⟩
      simp only [Bool.false_eq_true, if_false, hcore]
      exact ⟨rfl, hpc, hsregs, haregs, htile, hother, hregs, hmem⟩
    · have hexec := exec_of_issues (i := .halt c w) (s := s) rfl hleg (opDefined_encodeB w (by decide)) hiss
      obtain ⟨m, honly⟩ := (onlyCore_onCore s c CoreSt.endTile).tileMaxNow
      obtain ⟨hcore, hother, hregs, hmem, -⟩ := honly.onCore CoreSt.halt
      rw [State.waitOn_ends (b := .b opHALT w) (tryTile_drained true hmq hxq hsent href hfilled), State.settle_nil] at hexec
      refine ⟨_, hexec, ?_⟩
      simp only [if_true, hcore]
      exact ⟨rfl, hpc, rfl, hother, hregs, hmem⟩
  case refine_4 =>
    obtain ⟨r, l, hstall, hlocal⟩ := (OnlyCore.refl c s).countStall
    obtain ⟨m, hmax⟩ := hstall.tileMaxNow
    obtain ⟨hcore, hother, hregs, hmem, -⟩ := hmax.onCore (CoreSt.gateOpen s.now)
    rw [CoreSt.gateOpen_gate (by exact hrun)] at hcore
    exact ⟨_, tileGateOpen_alone hrun hstop halone hheld, (congrArg CoreSt.run hcore :), (congrArg CoreSt.tile hcore :), (congrArg CoreSt.pc hcore :),
      (congrArg CoreSt.loops hcore :), (congrArg CoreSt.tileAt hcore :), (congrArg CoreSt.sregs hcore :),
      fun hremote => (congrArg CoreSt.stallLocal hcore).trans (hlocal hremote), hother, hregs, hmem⟩
  case refine_5 =>
    have hquiet : k.quiet = false := by simp [CoreSt.quiet, hrun, habandon]
    obtain ⟨r, l, hcore, hother, hmem, hregs⟩ := State.coreFault_alone hquiet halone fOVERRUN k.pc 0
      (((k.istore[k.pc]?).map opcodeOf).getD 0)
    exact ⟨_, tileOverrun_faults hrun hstop habandon hlimit, (congrArg CoreSt.run hcore :), (congrArg CoreSt.fault hcore :),
      (congrArg CoreSt.faultPc hcore :), (congrArg CoreSt.epoch hcore :), hother, hmem, hregs⟩

end Sys2Proof.Machine
end

section
/-! SUPPORT. One effect on each of several cores, and abandonments begun by a stop (R81, R83). -/

namespace Sys2Proof.Machine

/-- What reads other than its reset value has an entry. -/
theorem mem_of_tabGet_ne {α : Type} {d : Nat → α} {t : Tab α} {k : Nat} (h : tabGet d t k ≠ d k) : (k, tabGet d t k) ∈ t := by
  induction t with
  | nil => exact absurd rfl h
  | cons p t ih =>
    rw [tabGet] at h ⊢
    by_cases hp : p.1 = k
    · simp only [if_pos hp]
      rw [← hp]
      exact List.mem_cons_self
    · simp only [if_neg hp] at h ⊢
      exact List.mem_cons_of_mem _ (ih h)

/-- The same effect on each core of a list, where twice is as once. -/
theorem State.core_foldl_onCore {f : CoreSt → CoreSt} (hf : ∀ k, f (f k) = f k) (d : CoreId) : ∀ (cs : List CoreId) (s : State),
    (cs.foldl (fun t q => t.onCore q f) s).core d = if d ∈ cs then f (s.core d) else s.core d
  | [], s => rfl
  | c :: cs, s => by
    rw [List.foldl_cons, State.core_foldl_onCore hf d cs, State.core_onCore]
    by_cases hd : d = c
    · subst hd
      simp [hf]
    · simp [hd, coreKey_ne hd]

/-- Effects on cores change nothing but cores. -/
theorem State.keeps_foldl {s : State} {f : State → CoreId → State}
    (hf : ∀ t c, (f t c).regs = t.regs ∧ SameMemory t (f t c)) (cs : List CoreId) :
    (cs.foldl f s).regs = s.regs ∧ SameMemory s (cs.foldl f s) := by
  refine List.foldlRecOn (motive := fun t => t.regs = s.regs ∧ SameMemory s t) cs f ⟨rfl, SameMemory.of_eq rfl rfl rfl⟩ ?_
  rintro t ⟨hregs, hmem⟩ c -
  exact ⟨(hf t c).1.trans hregs, hmem.trans (hf t c).2⟩

theorem CoreSt.askStop_askStop (now : Nat) (k : CoreSt) : (k.askStop now).askStop now = k.askStop now := by
  by_cases h : (k.run == .running || k.run == .gate) = true
  · have hk : k.askStop now = { k with stopPend := true, stopAt := if k.stopPend then k.stopAt else now } := if_pos h
    rw [hk, CoreSt.askStop, if_pos h]
    rfl
  · have hk : k.askStop now = k := if_neg h
    rw [hk, hk]

theorem CoreSt.askStop_gate {k : CoreSt} (now : Nat) (h : k.run = .gate) : (k.askStop now).run = .gate ∧ (k.askStop now).stopPend = true := by
  have hk : k.askStop now = { k with stopPend := true, stopAt := if k.stopPend then k.stopAt else now } :=
    if_pos (by rw [h]; rfl)
  rw [hk]
  exact ⟨h, rfl⟩

/-- Only a running core abandons its tile. -/
theorem State.checkAbandon_of_not_running {s : State} {c : CoreId} (h : (s.core c).run ≠ .running) : s.checkAbandon c = s := by
  have hstay : s.mustAbandon c = false := by simp [State.mustAbandon, h]
  rw [State.checkAbandon, hstay, if_neg Bool.false_ne_true]

/-- An abandonment begins on its core alone. -/
theorem State.checkAbandon_only (s : State) (c : CoreId) : ∃ k, OnlyCore c k s (s.checkAbandon c) := by
  rw [State.checkAbandon]
  split
  · obtain ⟨r, l, hcut⟩ := (OnlyCore.refl c s).cutWait
    exact ⟨_, hcut.onCore CoreSt.beginAbandon⟩
  · exact ⟨_, OnlyCore.refl c s⟩

/-- Abandonments leave a core that is not of the list, or does not run, as it is. -/
theorem State.core_checkAbandons {d : CoreId} : ∀ (cs : List CoreId) (s : State), (d ∉ cs ∨ (s.core d).run ≠ .running) →
    (s.checkAbandons cs).core d = s.core d
  | [], s, _ => rfl
  | c :: cs, s, h => by
    have hcore : (s.checkAbandon c).core d = s.core d := by
      by_cases hd : d = c
      · subst hd
        rw [State.checkAbandon_of_not_running (h.resolve_left (by simp))]
      · obtain ⟨k, -, hother, -⟩ := s.checkAbandon_only c
        exact hother d (coreKey_ne hd)
    have hrest := State.core_checkAbandons cs (s.checkAbandon c) (h.imp (fun hd hmem => hd (List.mem_cons_of_mem _ hmem)) (by rw [hcore]; exact id))
    exact hrest.trans hcore

theorem State.checkAbandons_keeps (s : State) (cs : List CoreId) : (s.checkAbandons cs).regs = s.regs ∧ SameMemory s (s.checkAbandons cs) :=
  State.keeps_foldl (fun t c => let ⟨_, _, _, hregs, hmem, _⟩ := t.checkAbandon_only c; ⟨hregs, hmem⟩) cs

/-- A core in any state but the reset state that has a tile group is a member of it (R79). -/
theorem State.mem_groupOf_self {s : State} {c : CoreId} (h : (s.core c).run ≠ .idle) : c ∈ s.groupOf c := by
  have hentry : (coreKey c, s.core c) ∈ s.cores := mem_of_tabGet_ne fun hreset => h (congrArg CoreSt.run hreset)
  rw [State.groupOf]
  split
  case isTrue hbit =>
    rw [List.mem_filter]
    exact ⟨List.mem_map.2 ⟨_, hentry, coreOfKey_coreKey c⟩, by simp [hbit]⟩
  case isFalse => exact List.mem_singleton.2 rfl

end Sys2Proof.Machine
end

section
/-! CORE_CTRL and the end of an abandonment (R78, R81, R83, R89), and the statements about them. -/

namespace Sys2Proof.Machine

theorem OnlyCore.answer {c : CoreId} {k : CoreSt} {s t : State} (h : OnlyCore c k s t) (b : List Byte) : OnlyCore c k s (t.answer b) := h

/-- The region controller's request is performed and answered (R89). -/
theorem State.ctrlFrom_controller (s : State) (c : CoreId) (f : State → State) :
    s.ctrlFrom (.regionController c.region) c f = (f s).answer [] := if_pos rfl

/-- Another master's request is a permission error (R89). -/
theorem State.ctrlFrom_other {m : Master} {c : CoreId} (h : m ≠ .regionController c.region) (s : State) (f : State → State) :
    s.ctrlFrom m c f = s.permissionError := if_neg h

theorem State.startBarriers_frame (s : State) (c : CoreId) : ∃ b : Tab BarrierSt, s.startBarriers c = { s with barriers := b } := by
  refine List.foldlRecOn (motive := fun t => ∃ b : Tab BarrierSt, t = { s with barriers := b }) _ _ ⟨s.barriers, rfl⟩ ?_
  rintro t ⟨b, rfl⟩ n -
  dsimp only
  split
  · exact ⟨_, rfl⟩
  · exact ⟨b, rfl⟩

section
variable {s : State} {c : CoreId}

theorem coreGo_idle (h : (s.core c).run = .idle) : OnlyCore c ((s.core c).start s.now) s (s.coreGo c) := by
  obtain ⟨b, hbar⟩ := s.startBarriers_frame c
  have hgo : s.coreGo c = (s.startBarriers c).onCore c (CoreSt.start s.now) := by simp only [State.coreGo, h]
  rw [hgo, hbar]
  exact OnlyCore.onCore ⟨rfl, fun _ _ => rfl, rfl, SameMemory.of_eq rfl rfl rfl, rfl⟩ _

/-- A stopped core back at its gate, with the cycles that its tile had when the stop began (R77). -/
def CoreSt.resume (now : Nat) (k : CoreSt) : CoreSt :=
  { k.restoreCkpt with run := .gate, tileAt := now - (k.stopAt - k.tileAt), waitAt := now }

theorem coreGo_stopped (h : (s.core c).run = .stopped) : OnlyCore c ((s.core c).resume s.now) s (s.coreGo c) := by
  have hgo : s.coreGo c = s.onCore c (CoreSt.resume s.now) := by simp only [State.coreGo, h]; rfl
  rw [hgo]
  exact onlyCore_onCore s c _

/-- STOP of a core at its gate: a stop is asked of the members of its group, and those that wait elsewhere may abandon (R81, R83). -/
theorem coreStop_gate (h : (s.core c).run = .gate) : s.coreStop c =
    ((s.groupOf c).foldl (fun t q => t.onCore q (CoreSt.askStop s.now)) s).checkAbandons (s.groupOf c) := by
  simp only [State.coreStop, h]
  rfl

/-- A core after STOP of a core at its gate: asked to stop if it is a member at its own gate, unchanged if it is no member. -/
theorem core_coreStop (h : (s.core c).run = .gate) (q : CoreId) :
    ((s.core q).run = .gate → q ∈ s.groupOf c → (s.coreStop c).core q = (s.core q).askStop s.now) ∧
    (q ∉ s.groupOf c → (s.coreStop c).core q = s.core q) := by
  have hask := State.core_foldl_onCore (CoreSt.askStop_askStop s.now) q (s.groupOf c) s
  rw [coreStop_gate h]
  refine ⟨fun hrun hq => ?_, fun hq => ?_⟩
  · rw [if_pos hq] at hask
    rw [State.core_checkAbandons _ _ (.inr (by rw [hask, (CoreSt.askStop_gate s.now hrun).1]; decide)), hask]
  · rw [State.core_checkAbandons _ _ (.inl hq), hask, if_neg hq]

theorem coreStop_keeps (h : (s.core c).run = .gate) : (s.coreStop c).regs = s.regs ∧ SameMemory s (s.coreStop c) := by
  obtain ⟨hregs, hmem⟩ := State.keeps_foldl (s := s) (f := fun t q => t.onCore q (CoreSt.askStop s.now))
    (fun t q => ⟨rfl, sameMemory_onCore t q _⟩) (s.groupOf c)
  obtain ⟨hregs', hmem'⟩ := State.checkAbandons_keeps ((s.groupOf c).foldl (fun t q => t.onCore q (CoreSt.askStop s.now)) s) (s.groupOf c)
  rw [coreStop_gate h]
  exact ⟨hregs'.trans hregs, hmem.trans hmem'⟩

theorem coreFaultAck_faulted (h : (s.core c).run = .faulted) : OnlyCore c { s.core c with run := .idle, fault := 0 } s (s.coreFaultAck c) := by
  rw [State.coreFaultAck, if_pos (by rw [h]; rfl)]
  exact onlyCore_onCore s c _

/-- A core whose abandonment ends, at its checkpoint (Table 3-9). -/
def CoreSt.endAbandon (k : CoreSt) : CoreSt :=
  { k.restoreCkpt with run := .abandoned, abandoning := false, stopPend := false, remoteWait := false, posted := [], errTags := 0,
                       errSends := 0, remoteTags := 0 }

theorem abandonComplete_idle (h : (s.core c).abandoning = true) (hxq : (s.core c).xq = []) (hnone : NoneBlocked s) :
    exec (.abandonComplete c) s = .next (s.onCore c CoreSt.endAbandon) := by
  have hcut : s.cutHead c = s := by simp only [State.cutHead, hxq]
  have hsettle : (s.onCore c CoreSt.endAbandon).settleAll = s.onCore c CoreSt.endAbandon :=
    State.settleAll_unblocked (noneBlocked_onCore hnone (hnone c))
  change execAbandonComplete c s = _
  simp only [execAbandonComplete, h, if_true, hcut]
  exact congrArg _ hsettle

/-- GO, STOP and FAULT_ACK of another master than the region's controller (R89). -/
theorem coreCtrl_refused {m : Master} (h : m ≠ .regionController c.region) :
    ∀ i ∈ [Instr.coreGo m c, .coreStop m c, .coreFaultAck m c],
      Answers i s (fun t => t = { s with resp := t.resp } ∧ t.resp.permission = true) := by
  have hrefused : ∀ {i : Instr} {f : State → State}, exec i s = .next (s.ctrlFrom m c f) →
      Answers i s (fun t => t = { s with resp := t.resp } ∧ t.resp.permission = true) := fun hexec => by
    rw [State.ctrlFrom_other h] at hexec
    exact ⟨_, hexec, rfl, rfl⟩
  intro i hi
  simp only [List.mem_cons, List.not_mem_nil, or_false] at hi
  rcases hi with rfl | rfl | rfl
  · exact hrefused (f := fun s => s.coreGo c) rfl
  · exact hrefused (f := fun s => s.coreStop c) rfl
  · exact hrefused (f := fun s => s.coreFaultAck c) rfl

end

/-- Settles O18, command by command. -/
theorem coreControlResults : Obligations.CoreControlResults := by
  intro s c k m
  have hctrl : ∀ {i : Instr} {f : State → State} {P : State → Prop}, exec i s = .next (s.ctrlFrom m c f) → P ((f s).answer []) →
      Answers i s P := fun hexec hP => ⟨_, hexec, by rw [State.ctrlFrom_controller]; exact hP⟩
  refine ⟨fun hrun => hctrl rfl ?_, fun hrun => hctrl rfl ?_, fun q hrun => hctrl rfl ?_, fun hrun => hctrl rfl ?_,
    fun q habandon hxq hnone => ?_, fun w hw => coreCtrl_refused hw⟩
  case refine_1 =>
    obtain ⟨hcore, hother, hregs, hmem, -⟩ := (coreGo_idle hrun).answer []
    exact ⟨(congrArg CoreSt.run hcore :), (congrArg CoreSt.pc hcore :), (congrArg CoreSt.tile hcore :),
      (congrArg (fun k => (CoreSt.ckpt k).sregs) hcore :), (congrArg (fun k => (CoreSt.ckpt k).pc) hcore :), hother, hregs, hmem⟩
  case refine_2 =>
    obtain ⟨hcore, hother, hregs, hmem, -⟩ := (coreGo_stopped hrun).answer []
    exact ⟨(congrArg CoreSt.run hcore :), (congrArg CoreSt.pc hcore :), (congrArg CoreSt.sregs hcore :), hother, hregs, hmem⟩
  case refine_3 =>
    obtain ⟨hregs, hmem⟩ := coreStop_keeps hrun
    have hmember : ∀ d, (s.core d).run = .gate → d ∈ s.groupOf c →
        ((s.coreStop c).core d).run = .gate ∧ ((s.coreStop c).core d).stopPend = true := fun d hd hmem => by
      rw [(core_coreStop hrun d).1 hd hmem]
      exact CoreSt.askStop_gate _ hd
    obtain ⟨hgate, hstop⟩ := hmember c hrun (State.mem_groupOf_self (ne_of_eq_of_ne hrun (by decide)))
    exact ⟨hgate, hstop, hmember q, (core_coreStop hrun q).2, hregs, hmem⟩
  case refine_4 => exact (coreFaultAck_faulted hrun).answer []
  case refine_5 =>
    obtain ⟨hcore, hother, hregs, hmem, -⟩ := onlyCore_onCore s c CoreSt.endAbandon
    exact ⟨_, abandonComplete_idle habandon hxq hnone, (congrArg CoreSt.run hcore :), (congrArg CoreSt.abandoning hcore :),
      (congrArg CoreSt.pc hcore :), (congrArg CoreSt.sregs hcore :), (congrArg CoreSt.posted hcore :), hother q, hregs, hmem⟩

/-! ### Register writes of CORE_CTRL (R89, Table 3-11) -/

section
variable {s : State} {c : CoreId} {m : Master}

/-- A register write of 4 bytes at an aligned offset of a unit's window. -/
theorem registerWrite_there {a : Addr} {o : Nat} (v : Word32) (hplace : s.place (s.dyeOf m) a.toNat = .regs o) (halign : o % 4 = 0) :
    exec (.registerWrite m (.device a) 4 v) s = .next (s.writeReg m (s.regAt (s.dyeOf m) o) v) := by
  have hsize : ¬ (4 ≠ 4 ∨ o % 4 ≠ 0) := by simp [halign]
  change execRegisterWrite m (.device a) 4 v s = _
  simp only [execRegisterWrite, hplace]
  exact if_neg hsize

theorem writeReach_coreCtrl : s.writeReach m (.core c) CORE_CTRL =
    if m == .regionController c.region then .ok else .error := rfl

/-- A write of CORE_CTRL by the region controller is answered, and then the commands behind its bits act. -/
theorem writeReg_coreCtrl (v : Word32) : s.writeReg (.regionController c.region) (.at (.core c) CORE_CTRL) v =
    (s.answer []).onBits v [(2, execCoreFaultAck (.regionController c.region) c), (0, execCoreGo (.regionController c.region) c),
      (1, execCoreStop (.regionController c.region) c)] := by
  have hreach : s.writeReach (.regionController c.region) (.core c) CORE_CTRL = .ok := by simp [writeReach_coreCtrl]
  simp only [State.writeReg, hreach]
  rfl

theorem writeReg_coreCtrl_other (h : m ≠ .regionController c.region) (v : Word32) :
    s.writeReg m (.at (.core c) CORE_CTRL) v = s.permissionError := by
  have hreach : s.writeReach m (.core c) CORE_CTRL = .error := by simp [writeReach_coreCtrl, h]
  simp only [State.writeReg, hreach]

/-- Commands that each answer without a permission error leave no permission error. -/
theorem State.permission_onBits {v : Word32} {l : List (Nat × (State → Out))}
    (hl : ∀ e ∈ l, ∀ t : State, t.resp.permission = false → (t.after (e.2 t)).resp.permission = false)
    (hs : s.resp.permission = false) : (s.onBits v l).resp.permission = false := by
  refine List.foldlRecOn (motive := fun t : State => t.resp.permission = false) l _ hs fun t ht e he => ?_
  split
  · exact hl e he t ht
  · exact ht

/-- GO, STOP and FAULT_ACK of the region's controller are no permission errors. -/
theorem coreCtrl_accepted (f : State → State) (t : State) :
    (t.after (.next (t.ctrlFrom (.regionController c.region) c f))).resp.permission = false := by
  rw [State.ctrlFrom_controller]
  rfl

end

/-- Settles O21: each request goes through the check of its master, a register write through the write rights of CORE_CTRL too. -/
theorem coreCtrlAcceptsOnlyTheRegionController : Obligations.CoreCtrlAcceptsOnlyTheRegionController := by
  intro s c m refused write there
  refine ⟨fun hm => ⟨coreCtrl_refused hm, fun a o v ⟨hplace, halign, hreg⟩ => ?_⟩, ?_⟩
  · refine ⟨s.permissionError, ?_, rfl, rfl⟩
    rw [registerWrite_there v hplace halign, hreg, writeReg_coreCtrl_other hm]
  · rintro rfl
    refine ⟨fun i hi => ?_, fun a o v ⟨hplace, halign, hreg⟩ => ⟨_, registerWrite_there v hplace halign, ?_⟩⟩
    · simp only [List.mem_cons, List.not_mem_nil, or_false] at hi
      rcases hi with rfl | rfl | rfl
      · exact ⟨_, rfl, coreCtrl_accepted (fun s => s.coreGo c) s⟩
      · exact ⟨_, rfl, coreCtrl_accepted (fun s => s.coreStop c) s⟩
      · exact ⟨_, rfl, coreCtrl_accepted (fun s => s.coreFaultAck c) s⟩
    · rw [hreg, writeReg_coreCtrl]
      refine State.permission_onBits (fun e he t _ => ?_) rfl
      simp only [List.mem_cons, List.not_mem_nil, or_false] at he
      rcases he with rfl | rfl | rfl
      · exact coreCtrl_accepted (fun s => s.coreFaultAck c) t
      · exact coreCtrl_accepted (fun s => s.coreGo c) t
      · exact coreCtrl_accepted (fun s => s.coreStop c) t

end Sys2Proof.Machine
end

section
/-! SUPPORT. Writes by device address leave a core that waits for nothing waiting for nothing: the ECC, the regulators and local HBM
touch no core, and what a bank serves, or a fault that it gives, ends waits and begins none. -/

namespace Sys2Proof.Machine

/-! ### Operations that touch no core -/

theorem State.cores_ite (c : Prop) [Decidable c] (a b : State) : (if c then a else b).cores = if c then a.cores else b.cores :=
  apply_ite (fun t : State => t.cores) c a b

@[simp] theorem State.foldl_cores {α : Type} {f : State → α → State} (h : ∀ t a, (f t a).cores = t.cores) (l : List α) (s : State) :
    (l.foldl f s).cores = s.cores :=
  List.foldlRecOn (motive := fun t : State => t.cores = s.cores) l f rfl fun t ht a _ => (h t a).trans ht

@[simp] theorem State.setBit_cores (s : State) (w : Win) (o i : Nat) (b : Bool) : (s.setBit w o i b).cores = s.cores := rfl
@[simp] theorem State.bump_cores (s : State) (w : Win) (o n : Nat) : (s.bump w o n).cores = s.cores := rfl
@[simp] theorem State.ledger_cores (s : State) (e : LedgerEvent) : (s.ledger e).cores = s.cores := (s.ledger_keeps e).1
@[simp] theorem State.detectCore_cores (s : State) (d : Nat) (c : CoreId) (l : List Nat) : (s.detectCore d c l).cores = s.cores :=
  s.ledger_cores _
@[simp] theorem State.faultRec_cores (s : State) (c : CoreId) (code : Nat) : (s.faultRec c code).cores = s.cores := s.ledger_cores _
@[simp] theorem State.pulse_cores (s : State) (n : Nat) (hit : Nat → Bool) : (s.pulse n hit).cores = s.cores := by
  obtain ⟨o, u, h⟩ := s.pulse_frame n hit
  rw [h]

/-! #### Slices -/

@[simp] theorem State.setErr_cores (s : State) (c : CoreId) (w : Nat) (e : BitVec 288) : (s.setErr c w e).cores = s.cores := rfl
@[simp] theorem State.sliceSet_cores (s : State) (c : CoreId) (o : Nat) (bs : List Byte) : (s.sliceSet c o bs).cores = s.cores := by
  unfold State.sliceSet
  split <;> rfl
@[simp] theorem State.bufTake_cores (s : State) (c : CoreId) (w : Nat) : (s.bufTake c w).cores = s.cores := by
  have frame : ∀ (b : Bist) (x : Tab Byte) (e : Tab (BitVec 288)), (({ s with sram := x, spdErr := e } : State).setBist c b).cores = s.cores :=
    fun _ _ _ => rfl
  simp only [State.bufTake]
  split
  · exact frame _ _ _
  · rfl
@[simp] theorem State.injFired_cores (s : State) : s.injFired.cores = s.cores := by
  simp [State.injFired, State.cores_ite]
@[simp] theorem State.injDue_cores (s : State) : s.injDue.2.cores = s.cores := by
  simp only [State.injDue]
  split <;> rfl
@[simp] theorem State.injMark_cores (s : State) (n : Nat) : (s.injMark n).cores = s.cores := rfl

/-- An error that is seen is counted and recorded: one that is corrected, and one that is not. -/
@[simp] theorem State.eccSee_cores (s : State) (c : CoreId) (w : Nat) (e : BitVec 288) : (s.eccSee c w e).2.cores = s.cores := by
  have hseen : ∀ (t : State) (o v : Nat) (x : Word32) (d : Nat),
      (((t.bump (.spd c.region) o).wr (.spd c.region) v x).detectCore d c [w]).cores = t.cores := fun t o v x d =>
    (State.detectCore_cores _ _ _ _).trans rfl
  simp only [State.eccSee]
  split
  · rfl
  · split
    · rfl
    · exact hseen _ _ _ _ _
    · exact hseen _ _ _ _ _

@[simp] theorem State.eccRead_cores (s : State) (c : CoreId) (w : Nat) : (s.eccRead c w).2.cores = s.cores := by
  simp only [State.eccRead]
  split_ifs <;> simp

@[simp] theorem State.eccReads_cores (c : CoreId) : ∀ (ws : List Nat) (s : State), (s.eccReads c ws).2.cores = s.cores
  | [], _ => rfl
  | w :: ws, s => (State.eccReads_cores c ws _).trans (s.eccRead_cores c w)

@[simp] theorem State.sliceRead_cores (s : State) (c : CoreId) (o n : Nat) : (s.sliceRead c o n).2.cores = s.cores :=
  State.eccReads_cores _ _ _

@[simp] theorem State.eccWrite_cores (c : CoreId) (o n : Nat) : ∀ (ws : List Nat) (s : State), (s.eccWrite c o n ws).2.cores = s.cores
  | [], _ => rfl
  | w :: ws, s => by
    unfold State.eccWrite
    extract_lets cl merge s0 e e0 e1 e2 r t
    have h0 : s0.cores = s.cores := by simp only [s0, State.cores_ite, ite_self]
    have hr : r.2.cores = s0.cores := by
      simp only [r, e]
      split_ifs <;> simp
    have ht : t.2.cores = s.cores := (State.eccWrite_cores c o n ws r.2).trans (hr.trans h0)
    split <;> exact ht

@[simp] theorem State.sliceWrite_cores (s : State) (c : CoreId) (o : Nat) (bs : List Byte) : (s.sliceWrite c o bs).2.cores = s.cores := by
  simp only [State.sliceWrite]
  split_ifs <;> simp

/-! #### Regulators, local HBM and the fabric engine -/

@[simp] theorem State.carry_cores (s : State) (w : Win) (d : Dye) (n : Nat) : (s.carry w d n).cores = s.cores := rfl
@[simp] theorem State.bridge_cores (s : State) (m : Master) (die : Nat) (write : Bool) (n : Nat) : (s.bridge m die write n).cores = s.cores := by
  simp only [State.bridge]
  split
  · split <;> rfl
  · rfl
@[simp] theorem State.hbmFresh_cores (s : State) (f g : Nat) : (s.hbmFresh f g).cores = s.cores := by
  simp only [State.hbmFresh]
  split_ifs <;> rfl
@[simp] theorem State.hbmWriteG_cores (s : State) (o : Nat) (bs : List Byte) : (s.hbmWriteG o bs).cores = s.cores := by
  simp only [State.hbmWriteG]
  split_ifs <;> simp
@[simp] theorem State.hbmAwake_cores (s : State) (h : Fin 8) : (s.hbmAwake h).cores = s.cores := by
  unfold State.hbmAwake
  split <;> rfl
@[simp] theorem State.hbmUse_cores (s : State) (d : Dye) (o n : Nat) : (s.hbmUse d o n).cores = s.cores := by
  have frame : ∀ (t : State) (v : Tab Nat), ({ t with hbmAt := v } : State).cores = t.cores := fun _ _ => rfl
  exact (frame _ _).trans ((State.carry_cores _ _ _ _).trans (State.hbmAwake_cores _ _))
@[simp] theorem State.hbmWriteF_cores : ∀ (k o : Nat) (bs : List Byte) (s : State), (s.hbmWriteF k o bs).cores = s.cores
  | 0, _, _, _ => rfl
  | k + 1, o, bs, s => by
    simp only [State.hbmWriteF]
    split
    · rfl
    · simp [State.hbmWriteF_cores k]
@[simp] theorem State.hbmWrite_cores (s : State) (o : Nat) (bs : List Byte) : (s.hbmWrite o bs).cores = s.cores :=
  State.hbmWriteF_cores _ _ _ _
@[simp] theorem State.fabRequest_cores (s : State) (p : FabricPacket) (who : FabIssuer) : (s.fabRequest p who).2.cores = s.cores := by
  simp only [State.fabRequest]
  split <;> rfl

/-! ### Waits that only end -/

/-- No core begins to wait. -/
def NoNewWait (s t : State) : Prop := ∀ q, (s.core q).blocked = none → (t.core q).blocked = none

theorem NoNewWait.refl (s : State) : NoNewWait s s := fun _ h => h
theorem NoNewWait.trans {s t u : State} (h : NoNewWait s t) (g : NoNewWait t u) : NoNewWait s u := fun q hq => g q (h q hq)
theorem NoNewWait.of_cores {s t : State} (h : t.cores = s.cores) : NoNewWait s t := fun q hq => by
  rw [State.core, h]
  exact hq

theorem NoNewWait.onCore (s : State) (c : CoreId) {f : CoreSt → CoreSt} (hf : ∀ k, k.blocked = none → (f k).blocked = none) :
    NoNewWait s (s.onCore c f) := by
  intro q hq
  rw [State.core_onCore]
  split
  case isTrue hk =>
    rw [← coreKey_inj hk]
    exact hf _ hq
  case isFalse => exact hq

theorem NoNewWait.foldl {α : Type} {f : State → α → State} (hf : ∀ t a, NoNewWait t (f t a)) (l : List α) (s : State) :
    NoNewWait s (l.foldl f s) :=
  List.foldlRecOn (motive := fun t => NoNewWait s t) l f (NoNewWait.refl s) fun t ht a _ => ht.trans (hf t a)

/-- The one core that changes waits for nothing afterwards, unless it waits as before. -/
theorem OnlyCore.noNewWait {c : CoreId} {k : CoreSt} {s t : State} (h : OnlyCore c k s t) (hk : (s.core c).blocked = none → k.blocked = none) :
    NoNewWait s t := by
  obtain ⟨hcore, hother, -⟩ := h
  intro q hq
  by_cases hc : q = c
  · subst hc
    rw [hcore]
    exact hk hq
  · rw [hother q (coreKey_ne hc)]
    exact hq

/-! #### Faults -/

theorem State.noNewWait_cutWait (s : State) (c : CoreId) : NoNewWait s (s.cutWait c) := by
  obtain ⟨r, l, h⟩ := (OnlyCore.refl c s).cutWait
  exact h.noNewWait id

theorem State.noNewWait_checkAbandon (s : State) (c : CoreId) : NoNewWait s (s.checkAbandon c) := by
  rw [State.checkAbandon]
  split
  · exact (s.noNewWait_cutWait c).trans (NoNewWait.onCore _ c fun k _ => rfl)
  · exact NoNewWait.refl s

theorem CoreSt.blocked_askStop (now : Nat) (k : CoreSt) : (k.askStop now).blocked = k.blocked := by
  rw [CoreSt.askStop]
  split <;> rfl

/-- A fault ends the wait of its core, and those of members of its group that abandon (R83, R86). -/
theorem State.noNewWait_coreFault (s : State) (c : CoreId) (code pc num op : Nat) : NoNewWait s (s.coreFault c code pc num op) := by
  simp only [State.coreFault]
  split
  · exact NoNewWait.of_cores (State.faultRec_cores _ _ _)
  · refine NoNewWait.trans ?_ (NoNewWait.foldl State.noNewWait_checkAbandon _ _)
    refine NoNewWait.trans ?_ (NoNewWait.foldl (fun t q => NoNewWait.onCore t q fun k hk => ?_) _ _)
    · exact ((s.noNewWait_cutWait c).trans (NoNewWait.onCore _ c fun k _ => rfl)).trans (NoNewWait.of_cores (State.faultRec_cores _ _ _))
    · rw [CoreSt.blocked_askStop]
      exact hk

theorem State.noNewWait_masterFault (s : State) (m : Master) (c : CoreId) (code : Nat) : NoNewWait s (s.masterFault m c code) :=
  s.noNewWait_coreFault _ _ _ _ _

/-! #### The banks of a slice (R93) -/

theorem State.noNewWait_semTouch (s : State) (c : CoreId) (ws : List Nat) : NoNewWait s (s.semTouch c ws) := by
  rw [State.semTouch]
  split
  · split
    · exact NoNewWait.onCore s c fun k hk => hk
    · exact NoNewWait.refl s
  · exact NoNewWait.refl s

theorem State.noNewWait_ueAnswer (s : State) (r : BankReq) (n : Nat) : NoNewWait s (s.ueAnswer r n) := by
  have hresp : ∀ x, NoNewWait s { s with resp := x } := fun x => NoNewWait.of_cores rfl
  simp only [State.ueAnswer]
  split
  · exact (hresp _).trans (State.noNewWait_masterFault _ _ _ _)
  · exact hresp _

/-- The end of a served write, performed or not. -/
theorem noNewWait_served {s : State} (d : Bool × State) (hd : d.2.cores = s.cores) (r : BankReq) (n : Nat) :
    NoNewWait s (if d.1 then d.2.ueAnswer r n else d.2.semTouch r.core [r.word]) := by
  split
  · exact (NoNewWait.of_cores hd).trans (State.noNewWait_ueAnswer _ _ _)
  · exact (NoNewWait.of_cores hd).trans (State.noNewWait_semTouch _ _ _)

theorem State.noNewWait_serve (s : State) (r : BankReq) : NoNewWait s (s.serve r) := by
  simp only [State.serve]
  split
  case h_1 n _ =>
    have hread : ∀ d p, NoNewWait s ((s.sliceRead r.core (32 * r.word + r.first) n).2.answer d p) := fun d p =>
      NoNewWait.of_cores ((State.answer_cores _ _ _).trans (State.sliceRead_cores _ _ _ _))
    split
    · split
      · exact (hread _ _).trans (State.noNewWait_masterFault _ _ _ _)
      · exact hread _ _
    · exact hread _ _
  all_goals exact noNewWait_served _ (State.sliceWrite_cores _ _ _ _) _ _

theorem State.noNewWait_serveWord (s : State) (c : CoreId) (w lo hi : Nat) : NoNewWait s (s.serveWord c w lo hi) := by
  have hqueue : ∀ l, NoNewWait s { s with bankQ := l } := fun l => NoNewWait.of_cores rfl
  simp only [State.serveWord]
  split
  · exact NoNewWait.refl s
  · exact (hqueue _).trans (NoNewWait.foldl (fun t k => NoNewWait.foldl State.noNewWait_serve _ _) _ _)

theorem State.noNewWait_bankLose (s : State) (c : CoreId) (bank w n : Nat) : NoNewWait s (s.bankLose c bank w n) := NoNewWait.of_cores rfl

theorem State.noNewWait_bankWin1 (c : CoreId) (i w rank : Nat) : ∀ (n age : Nat) (s : State), NoNewWait s (s.bankWin1 c i w rank n age)
  | 0, _, s => NoNewWait.refl s
  | n + 1, age, s => by
    have hserve : ∀ x k lo hi, NoNewWait s ((s.bankLose c (bankOf (32 * w)) x k).serveWord c x lo hi) := fun x k lo hi =>
      (s.noNewWait_bankLose c _ x k).trans (State.noNewWait_serveWord _ _ _ _ _)
    simp only [State.bankWin1]
    split
    · exact NoNewWait.refl s
    · split
      · exact NoNewWait.refl s
      · split
        · exact (s.noNewWait_bankLose c _ w 0).trans (State.noNewWait_serveWord _ _ _ _ _)
        · exact (hserve _ _ _ _).trans (State.noNewWait_bankWin1 c i w rank n _ _)

theorem State.noNewWait_bankWin (s : State) (c : CoreId) (i rank : Nat) (ws : List Nat) : NoNewWait s (s.bankWin c i rank ws) := by
  rw [State.bankWin]
  split
  · exact NoNewWait.foldl (fun t w => State.noNewWait_bankWin1 c i w rank _ 0 t) ws s
  · exact NoNewWait.refl s

theorem State.noNewWait_bankRest (s : State) (c : CoreId) (ws : List Nat) : NoNewWait s (s.bankRest c ws) := by
  rw [State.bankRest]
  split
  · exact NoNewWait.foldl (fun t w => t.noNewWait_serveWord c w 0 4) ws s
  · exact NoNewWait.refl s

theorem State.noNewWait_portWrite (s : State) (c : CoreId) (i o : Nat) (bs : List Byte) : NoNewWait s (s.portWrite c i o bs).2 := by
  have hwrite : NoNewWait s ((s.bankWin c i 1 (wordsOf o bs.length)).sliceWrite c o bs).2 :=
    (s.noNewWait_bankWin c i 1 _).trans (NoNewWait.of_cores (State.sliceWrite_cores _ _ _ _))
  exact (hwrite.trans (State.noNewWait_semTouch _ _ _)).trans (State.noNewWait_bankRest _ _ _)

/-! #### Writes by device address (R27) -/

theorem State.noNewWait_writePiece (s : State) (m : Master) (a : Nat) (bs : List Byte) : NoNewWait s (s.writePiece m a bs).2 := by
  simp only [State.writePiece]
  split
  case h_1 => exact (NoNewWait.of_cores (State.bridge_cores _ _ _ _ _)).trans (State.noNewWait_portWrite _ _ _ _ _)
  case h_2 => exact NoNewWait.of_cores rfl
  case h_3 => exact NoNewWait.of_cores ((State.hbmWrite_cores _ _ _).trans (State.bridge_cores _ _ _ _ _))
  case h_4 =>
    split
    · exact NoNewWait.refl s
    · exact NoNewWait.of_cores ((State.fabRequest_cores _ _ _).trans (State.carry_cores _ _ _ _))
  case h_5 => exact NoNewWait.of_cores rfl
  case h_6 => exact NoNewWait.refl s

theorem State.noNewWait_writeF (m : Master) : ∀ (k a : Nat) (bs : List Byte) (s : State), NoNewWait s (s.writeF m k a bs).2
  | 0, _, _, s => NoNewWait.refl s
  | k + 1, a, bs, s => by
    simp only [State.writeF]
    split
    · exact NoNewWait.refl s
    · exact (s.noNewWait_writePiece m a _).trans (State.noNewWait_writeF m k _ _ _)

/-- A write that is not refused leaves a core that waits for nothing waiting for nothing. -/
theorem State.noNewWait_write {s : State} {m : Master} {a : Nat} {bs : List Byte} (h : (s.write m a bs).1 ≠ .refused) :
    NoNewWait s (s.write m a bs).2 := by
  rw [State.write] at h ⊢
  split at h
  · exact absurd rfl h
  · exact State.noNewWait_writeF m _ a bs s

end Sys2Proof.Machine
end

section
/-! Packets that arrive over the links (R72 to R74, R84, R272 to R275), and the statement about them. -/

namespace Sys2Proof.Machine

/-! ### Packets that leave -/

/-- Bytes carried touch no memory and no packet. -/
theorem State.overLink_keeps (s : State) (dst : SlotNo) (d : Dye) (n : Nat) : (s.overLink dst d n).cores = s.cores ∧
    SameMemory s (s.overLink dst d n) ∧ (s.overLink dst d n).linkTx = s.linkTx := by
  rw [State.overLink]
  split
  · exact ⟨rfl, SameMemory.of_eq rfl rfl rfl, rfl⟩
  · exact ⟨rfl, SameMemory.of_eq rfl rfl rfl, rfl⟩

/-- A packet that is sent joins what the links send. -/
theorem State.sendPacket_keeps (s : State) (p : LinkPacket) : (s.sendPacket p).cores = s.cores ∧ SameMemory s (s.sendPacket p) ∧
    (s.sendPacket p).linkTx = s.linkTx ++ [.packet p] := by
  obtain ⟨hcores, hmem, htx⟩ := s.overLink_keeps p.dstSlot p.dye p.payload.length
  exact ⟨hcores, hmem, congrArg (· ++ [LinkOut.packet p]) htx⟩

/-- What a message is answered with: an acknowledgement (3) or a refusal (9) of its number and epoch, to its source. -/
theorem State.answerMessage_keeps (s : State) (q : CoreId) (p : LinkPacket) (type : Nat) : (s.answerMessage q p type).cores = s.cores ∧
    SameMemory s (s.answerMessage q p type) ∧ ∃ a : LinkPacket, (s.answerMessage q p type).linkTx = s.linkTx ++ [.packet a] ∧
      a.type = BitVec.ofNat 4 type ∧ a.dstSlot = p.srcSlot ∧ a.seq = p.seq ∧ a.epoch = p.epoch := by
  obtain ⟨hcores, hmem, htx⟩ := s.sendPacket_keeps { type := BitVec.ofNat 4 type, dye := p.dye, srcSlot := s.slot, dstSlot := p.srcSlot,
                                                     target := BitVec.ofNat 16 (bitsOf ((s.core q).rchanOf p.channel.toNat) 0 16),
                                                     channel := BitVec.ofNat 4 (bitsOf ((s.core q).rchanOf p.channel.toNat) 16 4),
                                                     epoch := p.epoch, seq := p.seq }
  exact ⟨hcores, hmem, _, htx, rfl, rfl, rfl, rfl⟩

/-! ### Packets that arrive -/

/-- The last part of a message fills the oldest posted buffer that is not full. -/
def CoreSt.fill (ch n : Nat) (k : CoreSt) : CoreSt := k.setPosted ch (growFirst n true (k.postedOf ch))

/-- A message of a channel is delivered (R73). -/
def CoreSt.deliver (ch : Nat) (e : Delivered) (k : CoreSt) : CoreSt :=
  { k with delivered := natBump k.delivered ch, deliveredLog := k.deliveredLog ++ [e] }

/-- The bytes of a whole message stand in the buffer at offset o of core q's slice: it fills the buffer and is delivered. -/
def State.takeMessage (s : State) (q : CoreId) (p : LinkPacket) (o : Nat) : State :=
  let t := s.onCore q (CoreSt.fill p.channel.toNat (p.offset.toNat * 32 + p.payload.length))
  t.onCore q (CoreSt.deliver p.channel.toNat
    { ch := p.channel.toNat, seq := p.seq.toNat, data := t.sliceRaw q o (p.offset.toNat * 32 + p.payload.length) })

theorem State.core_takeMessage (s : State) (q : CoreId) (p : LinkPacket) (o : Nat) : ∃ e, (s.takeMessage q p o).core q =
    CoreSt.deliver p.channel.toNat e (CoreSt.fill p.channel.toNat (p.offset.toNat * 32 + p.payload.length) (s.core q)) :=
  ⟨_, by rw [State.takeMessage, State.core_onCore_self, State.core_onCore_self]⟩

theorem State.takeMessage_keeps (s : State) (q : CoreId) (p : LinkPacket) (o : Nat) :
    SameMemory s (s.takeMessage q p o) ∧ (s.takeMessage q p o).linkTx = s.linkTx :=
  ⟨(sameMemory_onCore _ _ _).trans (sameMemory_onCore _ _ _), rfl⟩

/-- A refused SEND waits for its next credit and is no longer outstanding (R84). -/
def CoreSt.takeBack (x : Xfer) (k : CoreSt) : CoreSt := { k.refuseSend x with sent := k.sent.filter (fun y => y ≠ x) }

section
variable {s : State} {p : LinkPacket}

/-- A packet of its type for this package is acted on. -/
theorem State.routed_here {type : Nat} (htype : p.type.toNat = type) (httl : p.ttl ≠ 0) (hdst : p.dstSlot = s.slot) (f : State → Out) :
    s.routed p type f = f s := by
  rw [State.routed, if_neg (not_or.2 ⟨not_not.2 htype, httl⟩), if_neg (not_not.2 hdst)]

/-- A packet whose TTL is 0 is dropped (R272). -/
theorem State.routed_dead (type : Nat) (httl : p.ttl = 0) (f : State → Out) : s.routed p type f = .next (s.dropPacket p) := by
  rw [State.routed, if_pos (.inr httl)]

variable {q : CoreId} (hq : s.targetCore p = some q) (httl : p.ttl ≠ 0) (hdst : p.dstSlot = s.slot)
include hq httl hdst

/-- The next part of the message that the oldest posted buffer b waits for, the last one: it is written, and the message is delivered
and acknowledged (R73, R275). -/
theorem messagePacket_last {b : Posted} {u : State} (htype : p.type = 1)
    (hnew : natGet (s.core q).delivered p.channel.toNat ≤ p.seq.toNat)
    (hbuf : ((s.core q).postedOf p.channel.toNat).find? (fun b => b.filled.isNone) = some b) (hseq : b.seq = p.seq.toNat)
    (hofs : p.offset.toNat * 32 = b.got ∨ p.offset = 0) (hlast : p.last = true)
    (hwrite : s.write (.transferEngine q) ((s.ordinal q.region * 64 + q.pos.val) * 0x200000 + b.ofs + p.offset.toNat * 32) p.payload =
      (.ok, u)) (hfree : (s.core q).blocked = none) :
    exec (.messagePacket p) s = .next ((u.takeMessage q p b.ofs).answerMessage q p 3) := by
  have hfits : ¬ (b.seq ≠ p.seq.toNat ∨ (p.offset.toNat * 32 ≠ b.got ∧ p.offset.toNat * 32 ≠ 0)) := by
    rw [not_or, not_and_or, not_not, not_not, not_not]
    exact ⟨hseq, hofs.imp_right fun h => by rw [h]; rfl⟩
  have hfree' : (u.core q).blocked = none := by
    have hwait := State.noNewWait_write (s := s) (m := .transferEngine q)
      (a := (s.ordinal q.region * 64 + q.pos.val) * 0x200000 + b.ofs + p.offset.toNat * 32) (bs := p.payload) (by rw [hwrite]; nofun) q hfree
    rwa [hwrite] at hwait
  have hsettle : ((u.takeMessage q p b.ofs).answerMessage q p 3).settle [q] = (u.takeMessage q p b.ofs).answerMessage q p 3 := by
    refine State.settle_unblocked _ _ fun d hd => ?_
    obtain ⟨e, hcore⟩ := u.core_takeMessage q p b.ofs
    rw [List.mem_singleton.1 hd, State.core, (State.answerMessage_keeps _ q p 3).1, ← State.core, hcore]
    exact hfree'
  change execMessagePacket p s = _
  rw [execMessagePacket, State.routed_here (by rw [htype]; rfl) httl hdst]
  simp only [hq, Nat.not_lt.2 hnew, if_false, hbuf, hlast, hwrite, ne_eq, not_true_eq_false, Bool.not_true, Bool.false_eq_true]
  exact (if_neg hfits).trans (congrArg _ hsettle)

/-- A message whose number the oldest posted buffer does not wait for is refused (R84). -/
theorem messagePacket_refused {b : Posted} (htype : p.type = 1) (hnew : natGet (s.core q).delivered p.channel.toNat ≤ p.seq.toNat)
    (hbuf : ((s.core q).postedOf p.channel.toNat).find? (fun b => b.filled.isNone) = some b) (hseq : b.seq ≠ p.seq.toNat)
    (hlast : p.last = true) : exec (.messagePacket p) s = .next (s.answerMessage q p 9) := by
  change execMessagePacket p s = _
  rw [execMessagePacket, State.routed_here (by rw [htype]; rfl) httl hdst]
  simp only [hq, Nat.not_lt.2 hnew, if_false, hbuf, hlast, if_true]
  exact if_pos (.inl hseq)

/-- A credit reaches its sender (R72). -/
theorem creditPacket_here (htype : p.type = 2) (href : (s.core q).refusedSends = []) (hfree : (s.core q).blocked = none) :
    exec (.creditPacket p) s = .next (s.onCore q (fun k => k.addCredit p.channel.toNat
      { num := p.seq.toNat - 1, cap := p.offset.toNat * 32, epoch := p.epoch })) := by
  change execCreditPacket p s = _
  rw [execCreditPacket, State.routed_here (by rw [htype]; rfl) httl hdst]
  simp only [hq]
  rw [State.retrySends_none (by rw [State.core_onCore_self]; exact href), State.settle_onCore_unblocked _ _ _ hfree]

/-- An acknowledgement ends the send that it names (R73). -/
theorem ackPacket_here {x : Xfer} (htype : p.type = 3) (hx : s.answered q p = some x) (hfree : (s.core q).blocked = none) :
    exec (.ackPacket p) s = .next (s.onCore q (fun k => { k with sent := k.sent.filter (fun y => y ≠ x) })) := by
  change execAckPacket p s = _
  rw [execAckPacket, State.routed_here (by rw [htype]; rfl) httl hdst]
  simp only [hq, hx]
  rw [State.settle_onCore_unblocked _ _ _ hfree]

/-- A refusal leaves the send that it names waiting for its next credit (R84). -/
theorem refusedPacket_here {x : Xfer} (htype : p.type = 9) (hx : s.answered q p = some x)
    (honly : ((s.core q).refuseSend x).refusedSends = [x])
    (hcredit : ((s.core q).refuseSend x).creditFor p.channel.toNat x.seq = none) (hfree : (s.core q).blocked = none) :
    exec (.refusedPacket p) s = .next (s.onCore q (CoreSt.takeBack x)) := by
  have hretry : (s.onCore q (CoreSt.takeBack x)).retrySends q p.channel.toNat = s.onCore q (CoreSt.takeBack x) := by
    have honly' : (CoreSt.takeBack x (s.core q)).refusedSends = [x] := honly
    have hcredit' : (CoreSt.takeBack x (s.core q)).creditFor p.channel.toNat x.seq = none := hcredit
    simp only [State.retrySends, State.core_onCore_self, honly', List.find?_cons, List.find?_nil]
    split
    · rfl
    · next y hy =>
      have hxy : y = x := by
        split at hy
        · exact (Option.some.inj hy).symm
        · cases hy
      rw [hxy, hcredit']
  change execRefusedPacket p s = _
  rw [execRefusedPacket, State.routed_here (by rw [htype]; rfl) httl hdst]
  simp only [hq, hx]
  change Host.Outcome.next (((s.onCore q (CoreSt.takeBack x)).retrySends q p.channel.toNat).settle [q]) = _
  rw [hretry, State.settle_onCore_unblocked _ _ _ hfree]

end

/-- A packet whose TTL is 0 is counted on the link towards its source, and nothing else happens. -/
theorem dropPacket_counts (s : State) (p : LinkPacket) :
    ((s.dropPacket p).rd (.tlk ((s.nextLink p.srcSlot).getD 0)) TLK_DROPPED = s.rd (.tlk ((s.nextLink p.srcSlot).getD 0)) TLK_DROPPED + 1 ∧
      SameRegsBut [regKey (.tlk ((s.nextLink p.srcSlot).getD 0)) TLK_DROPPED] s (s.dropPacket p)) ∧
    s.dropPacket p = { s with regs := (s.dropPacket p).regs } :=
  ⟨⟨State.rd_wr_self _ _ _ _, (SameRegsBut.refl _ s).wr _ _ _ (List.mem_singleton.2 rfl)⟩, rfl⟩

/-- A barrier packet of a generation that is not over is kept (R74). -/
theorem barrierPacket_here {s : State} {p : LinkPacket} (httl : p.ttl ≠ 0) (hdst : p.dstSlot = s.slot) (htype : p.type = 4)
    (hgen : (s.bar p.dye p.target.toNat).gen ≤ p.seq.toNat)
    (hnew : (p.srcSlot, p.seq.toNat) ∉ (s.bar p.dye p.target.toNat).packets) :
    exec (.barrierPacket p) s = .next (s.setBar p.dye p.target.toNat { s.bar p.dye p.target.toNat with
      packets := (s.bar p.dye p.target.toNat).packets ++ [(p.srcSlot, p.seq.toNat)] }) := by
  have hkeep : ¬ (p.seq.toNat < (s.bar p.dye p.target.toNat).gen ∨
      (s.bar p.dye p.target.toNat).packets.contains (p.srcSlot, p.seq.toNat) = true) := by
    rw [List.contains_iff_mem]
    exact not_or.2 ⟨Nat.not_lt.2 hgen, hnew⟩
  change execBarrierPacket p s = _
  rw [execBarrierPacket, State.routed_here (by rw [htype]; rfl) httl hdst]
  exact if_neg hkeep

/-! ### Control messages (R274) -/

theorem rd64_wr64 (s : State) (w : Win) (o : Nat) (v : Word64) (h : regKey w o ≠ regKey w (o + 4)) : (s.wr64 w o v).rd64 w o = v := by
  rw [State.rd64, State.wr64, State.rd_wr_self, State.rd_wr_other _ _ _ _ _ _ h, State.rd_wr_self]
  refine BitVec.eq_of_toNat_eq ?_
  have hv := v.isLt
  simp only [bitsOf, BitVec.toNat_ofNat]
  omega

/-- A write of another register leaves a 64-bit value as it is. -/
theorem rd64_wr_other (s : State) (w x : Win) (o p : Nat) (v : Word32) (hlow : regKey x p ≠ regKey w o)
    (hhigh : regKey x (p + 4) ≠ regKey w o) : (s.wr w o v).rd64 x p = s.rd64 x p := by
  rw [State.rd64, State.rd_wr_other _ _ _ _ _ _ hlow, State.rd_wr_other _ _ _ _ _ _ hhigh, State.rd64]

theorem bit_setBit_self (s : State) (w : Win) (o i : Nat) (h : i < 32) : (s.setBit w o i true).bit w o i = true := by
  rw [State.bit, State.setBit, State.setFld, State.rd_wr_self]
  exact bitOf_putBits_self _ _ h

/-- The wall clock's offset is taken, by the counter's backup also as its copy. -/
theorem answers_wallOfs {s : State} {src : SlotNo} {v : Word64} (hmaster : s.master ≠ some s.slot) :
    Answers (.controlPacket src (.wallOfs v)) s (fun t => t.rd64 .cnt CNT_WALL_OFS_L = v ∧ t.bit .cnt CNT_STATUS 4 = true ∧
      (s.backup = some s.slot → t.syncCopy = some v) ∧ t = { s with regs := t.regs, syncCopy := t.syncCopy }) := by
  have hofs : ((s.wr64 .cnt CNT_WALL_OFS_L v).setBit .cnt CNT_STATUS 4 true).rd64 .cnt CNT_WALL_OFS_L = v :=
    (rd64_wr_other _ _ _ _ _ _ (by decide) (by decide)).trans (rd64_wr64 _ _ _ _ (by decide))
  exact ⟨_, congrArg Host.Outcome.next (if_neg hmaster), hofs, bit_setBit_self _ _ _ _ (by decide), fun h => if_pos h, rfl⟩

/-- A resume point is kept, and the counter compared with it. -/
theorem answers_resumeAt {s : State} {src : SlotNo} {d : Dye} {at_ : Word64} (hstate : s.jobState d = 3) :
    Answers (.controlPacket src (.resumeAt d at_)) s (fun t => natGet t.resumeAt d.val = at_.toNat + 1 ∧
      t = { s with resumeAt := t.resumeAt, cmps := t.cmps, calendar := t.calendar }) := by
  obtain ⟨c, l, harm⟩ := ({ s with resumeAt := natSet s.resumeAt d.val (at_.toNat + 1) } : State).armCmp_frame 0 at_.toNat (.jobResume d)
  refine ⟨_, congrArg Host.Outcome.next ((if_neg (not_not.2 hstate)).trans harm), tabGet_tabSet_self _ _ _ _, rfl⟩

/-- An activation time is kept for an image that is loaded, and the counter compared with it. -/
theorem answers_tAct {s : State} {src : SlotNo} {d : Dye} {at_ : Word64} (himage : (s.loadOf d).image.isSome = true) :
    Answers (.controlPacket src (.tAct d at_)) s (fun t => t.imgState d = 4 ∧ (t.loadOf d).tAct = some at_.toNat ∧ SameMemory s t) := by
  obtain ⟨c, l, harm⟩ := ((s.setLoad d { s.loadOf d with tAct := some at_.toNat }).setImg d 4).armCmp_frame 0 at_.toNat (.tAct d)
  refine ⟨_, congrArg Host.Outcome.next ((if_neg (not_isNone himage)).trans harm), ?_, ?_, SameMemory.of_eq rfl rfl rfl⟩
  · exact (congrArg (bitsOf · 0 3) (State.rd_wr_self (s.setLoad d { s.loadOf d with tAct := some at_.toNat }) _ _ _)).trans (by decide)
  · exact congrArg LoadSt.tAct (tabGet_tabSet_self _ _ _ _)

/-- Settles O45, packet by packet. -/
theorem packetResults : Obligations.PacketResults := by
  intro s p src
  refine ⟨fun httl hdst => ⟨fun q hq hfree => ?_, fun htype hgen hnew => ?_⟩, fun httl i hi => ?_, fun d slot rec _ => ?_,
    fun d slot id cls temp topK topP seed maxLen home => ?_, fun d step pairs => ⟨_, rfl, rfl⟩,
    fun v hmaster => answers_wallOfs hmaster, fun d at_ hstate => answers_resumeAt hstate, fun d at_ himage => answers_tAct himage⟩
  case refine_1 =>
    intro k ch
    refine ⟨?_, fun b htype hnew hbuf hseq hlast => ?_, fun htype href => ?_,
      fun x hx => ⟨fun htype => ?_, fun htype honly hcredit => ?_⟩⟩
    · intro b htype hnew hbuf hseq hofs hlast w hok
      obtain ⟨e, hcore⟩ := w.2.core_takeMessage q p b.ofs
      obtain ⟨hmem, htx⟩ := w.2.takeMessage_keeps q p b.ofs
      obtain ⟨hcores, hmem', a, htx', ha⟩ := (w.2.takeMessage q p b.ofs).answerMessage_keeps q p 3
      have hcore' : ((w.2.takeMessage q p b.ofs).answerMessage q p 3).core q = _ :=
        (congrArg (fun t => tabGet coreReset t (coreKey q)) hcores).trans hcore
      refine ⟨_, messagePacket_last hq httl hdst htype hnew hbuf hseq hofs hlast (Prod.ext hok rfl) hfree, ?_, ?_, hmem.trans hmem',
        a, htx'.trans (congrArg (· ++ _) htx), ha⟩
      · rw [hcore']
        exact natGet_natBump _ _
      · rw [hcore']
        exact CoreSt.postedOf_setPosted _ _ _
    · obtain ⟨hcores, hmem, ha⟩ := s.answerMessage_keeps q p 9
      exact ⟨_, messagePacket_refused hq httl hdst htype hnew hbuf hseq hlast, hmem, hcores, ha⟩
    · exact ⟨_, creditPacket_here hq httl hdst htype href hfree, onlyCore_onCore s q _⟩
    · exact ⟨_, ackPacket_here hq httl hdst htype hx hfree, onlyCore_onCore s q _⟩
    · exact ⟨_, refusedPacket_here hq httl hdst htype hx honly hcredit hfree, onlyCore_onCore s q _⟩
  case refine_2 =>
    have hbar := tabGet_tabSet_self barReset s.barriers (barKey p.dye p.target.toNat)
      { s.bar p.dye p.target.toNat with packets := (s.bar p.dye p.target.toNat).packets ++ [(p.srcSlot, p.seq.toNat)] }
    exact ⟨_, barrierPacket_here httl hdst htype hgen hnew, (congrArg BarrierSt.packets hbar :), (congrArg BarrierSt.gen hbar :), rfl⟩
  case refine_3 =>
    have hdrop : ∀ {i : Instr}, exec i s = .next (s.dropPacket p) → Answers i s (fun t =>
        (let w := Win.tlk ((s.nextLink p.srcSlot).getD 0)
         t.rd w TLK_DROPPED = s.rd w TLK_DROPPED + 1 ∧ SameRegsBut [regKey w TLK_DROPPED] s t) ∧ t = { s with regs := t.regs }) :=
      fun hexec => ⟨_, hexec, dropPacket_counts s p⟩
    simp only [List.mem_cons, List.not_mem_nil, or_false] at hi
    rcases hi with rfl | rfl | rfl | rfl | rfl
    · exact hdrop ((rfl : _ = execMessagePacket p s).trans (State.routed_dead 1 httl _))
    · exact hdrop ((rfl : _ = execCreditPacket p s).trans (State.routed_dead 2 httl _))
    · exact hdrop ((rfl : _ = execAckPacket p s).trans (State.routed_dead 3 httl _))
    · exact hdrop ((rfl : _ = execRefusedPacket p s).trans (State.routed_dead 9 httl _))
    · exact hdrop ((rfl : _ = execBarrierPacket p s).trans (State.routed_dead 4 httl _))
  case refine_4 => exact ⟨_, rfl, tabGet_tabSet_self _ _ _ _, rfl⟩
  case refine_5 => exact ⟨_, rfl, tabGet_tabSet_self _ _ _ _, rfl⟩

end Sys2Proof.Machine
end

section
/-! SUPPORT. The three byte memories stay in canonical form, whatever the command (R62, R91, R138). Each function of the model that gives
a state has one lemma, under the function's name and in the model's order: what it is given is in canonical form, so what it gives is.
The functions that write a memory write it with tabSetList, tabSet or tabClear, whose own lemmas (Laws/Tab) say that the form stays;
every other function leaves the memories alone or is put together from functions before it, and its lemma is put together from theirs in
the same way. -/

set_option Elab.async false

namespace Sys2Proof.Machine

/-- The three byte memories of a state are in canonical form: Memory.wf, memory by memory. -/
structure MemWf (s : State) : Prop where
  sram : tabWf byteReset s.sram = true
  acc : tabWf byteReset s.acc = true
  hbm : tabWf byteReset s.hbm = true

/-- The next state that a command answers, if it answers one, has its memories in canonical form. -/
def OutWf : Out → Prop
  | .next t => MemWf t
  | _ => True

/-- So has the state that trying a wait leaves. -/
def TriedWf : Tried → Prop
  | .waits t => MemWf t
  | .ends t _ => MemWf t

variable {s t : State}

theorem memWf_iff : MemWf s ↔ Memory.wf s = true := by
  simp only [Memory.wf, Bool.and_eq_true]
  exact ⟨fun h => ⟨⟨h.sram, h.acc⟩, h.hbm⟩, fun h => ⟨h.1.1, h.1.2, h.2⟩⟩

/-! ### How the claim passes through the forms that the model is written in -/

section
variable {u : TileUnits} {m : MemoryUnits} {a : StreamUnits} {b : InnkeeperUnits} {c : ImageUnits} {d : LinkUnits} {e : HostUnits}
  {f : PowerUnits} {g : LedgerUnits} {i : SecurityUnits} {j : PinUnits} {p : List Instr} {q : Tab Word32} {r : Resp} {v : Tab Nat}
  {n : Nat}

/-- An update outside the units that hold the memories. -/
theorem MemWf.upd (h : MemWf s) : MemWf ⟨s.toTileUnits, s.toMemoryUnits, a, b, c, d, e, f, g, i, j, p, q, r, v, n⟩ :=
  ⟨h.sram, h.acc, h.hbm⟩
/-- An update of the tiles that leaves the scratchpads and the accumulators. -/
theorem MemWf.updTiles (h : MemWf s) (hsram : u.sram = s.sram := by rfl) (hacc : u.acc = s.acc := by rfl) :
    MemWf ⟨u, s.toMemoryUnits, a, b, c, d, e, f, g, i, j, p, q, r, v, n⟩ :=
  ⟨hsram ▸ h.sram, hacc ▸ h.acc, h.hbm⟩
/-- An update of the memory units that leaves local HBM's bytes. -/
theorem MemWf.updMem (h : MemWf s) (hhbm : m.hbm = s.hbm := by rfl) :
    MemWf ⟨s.toTileUnits, m, a, b, c, d, e, f, g, i, j, p, q, r, v, n⟩ :=
  ⟨h.sram, h.acc, hhbm ▸ h.hbm⟩
theorem MemWf.updBoth (h : MemWf s) (hsram : u.sram = s.sram := by rfl) (hacc : u.acc = s.acc := by rfl)
    (hhbm : m.hbm = s.hbm := by rfl) :
    MemWf ⟨u, m, s.toStreamUnits, b, c, d, e, f, g, i, j, p, q, r, v, n⟩ :=
  ⟨hsram ▸ h.sram, hacc ▸ h.acc, hhbm ▸ h.hbm⟩
/-- An update of one memory to a table in canonical form. -/
theorem MemWf.updSram (h : MemWf s) (hsram : tabWf byteReset u.sram = true) (hacc : u.acc = s.acc := by rfl) :
    MemWf ⟨u, s.toMemoryUnits, a, b, c, d, e, f, g, i, j, p, q, r, v, n⟩ :=
  ⟨hsram, hacc ▸ h.acc, h.hbm⟩
theorem MemWf.updAcc (h : MemWf s) (hacc : tabWf byteReset u.acc = true) (hsram : u.sram = s.sram := by rfl) :
    MemWf ⟨u, s.toMemoryUnits, a, b, c, d, e, f, g, i, j, p, q, r, v, n⟩ :=
  ⟨hsram ▸ h.sram, hacc, h.hbm⟩
theorem MemWf.updHbm (h : MemWf s) (hhbm : tabWf byteReset m.hbm = true) :
    MemWf ⟨s.toTileUnits, m, a, b, c, d, e, f, g, i, j, p, q, r, v, n⟩ :=
  ⟨h.sram, h.acc, hhbm⟩
end

/-- Bytes of the scratchpads that are written or cleared together with the errors of their words. -/
theorem MemWf.putBytes {k bs e} (h : MemWf s) : MemWf { s with sram := tabSetList byteReset s.sram k bs, spdErr := e } :=
  ⟨tabSetList_wf _ _ h.sram, h.acc, h.hbm⟩
theorem MemWf.dropBytes {lo hi e} (h : MemWf s) : MemWf { s with sram := tabClear s.sram lo hi, spdErr := e } :=
  ⟨tabClear_wf _ _ h.sram, h.acc, h.hbm⟩

theorem MemWf.ite {p : Prop} [Decidable p] (hs : MemWf s) (ht : MemWf t) : MemWf (if p then s else t) := by
  split
  · exact hs
  · exact ht

theorem OutWf.ite {p : Prop} [Decidable p] {x y : Out} (hx : OutWf x) (hy : OutWf y) : OutWf (if p then x else y) := by
  split
  · exact hx
  · exact hy

theorem TriedWf.ite {p : Prop} [Decidable p] {x y : Tried} (hx : TriedWf x) (hy : TriedWf y) :
    TriedWf (if p then x else y) := by
  split
  · exact hx
  · exact hy

/-- The state of an answer that is given together with it. -/
theorem MemWf.snd {α : Type} {x : α} (h : MemWf s) : MemWf (x, s).2 := h

theorem OutWf.next (h : MemWf s) : OutWf (.next s) := h
theorem TriedWf.waits (h : MemWf s) : TriedWf (.waits s) := h
theorem TriedWf.ends {wake : List CoreId} (h : MemWf s) : TriedWf (.ends s wake) := h

/-- A fold whose every step keeps a property of the value that it carries. -/
theorem foldl_keeps {α β : Type} {P : β → Prop} {f : β → α → β} (hf : ∀ b a, P b → P (f b a)) :
    ∀ (l : List α) (b : β), P b → P (l.foldl f b)
  | [], _, h => h
  | a :: l, b, h => foldl_keeps hf l (f b a) (hf b a h)

section
variable {α β γ : Type} {l : List α}

theorem MemWf.foldl {f : State → α → State} (h : MemWf s) (hf : ∀ t a, MemWf t → MemWf (f t a)) : MemWf (l.foldl f s) :=
  foldl_keeps hf l s h
/-- Folds that carry the state together with something else. -/
theorem MemWf.foldlFst {f : State × β → α → State × β} {p : State × β} (h : MemWf p.1)
    (hf : ∀ q a, MemWf q.1 → MemWf (f q a).1) : MemWf (l.foldl f p).1 :=
  foldl_keeps (P := fun q => MemWf q.1) hf l p h
theorem MemWf.foldlSnd {f : β × State → α → β × State} {p : β × State} (h : MemWf p.2)
    (hf : ∀ q a, MemWf q.2 → MemWf (f q a).2) : MemWf (l.foldl f p).2 :=
  foldl_keeps (P := fun q => MemWf q.2) hf l p h
theorem MemWf.foldlSndSnd {f : β × γ × State → α → β × γ × State} {p : β × γ × State} (h : MemWf p.2.2)
    (hf : ∀ q a, MemWf q.2.2 → MemWf (f q a).2.2) : MemWf (l.foldl f p).2.2 :=
  foldl_keeps (P := fun q => MemWf q.2.2) hf l p h

end

/-- The memories of the state after reset are empty. -/
theorem memWf_reset : MemWf State.reset := ⟨tabWf_nil _, tabWf_nil _, tabWf_nil _⟩

/-! ### Ops -/
theorem MemWf.wr {w o v} (h : MemWf s) : MemWf (s.wr w o v) := h.upd
theorem MemWf.setFld {w o lo n v} (h : MemWf s) : MemWf (s.setFld w o lo n v) := h.wr
theorem MemWf.setBit {w o i b} (h : MemWf s) : MemWf (s.setBit w o i b) := h.setFld
theorem MemWf.setW1c {w o i} (h : MemWf s) : MemWf (s.setW1c w o i) := h.setBit.upd
theorem MemWf.bump {w o n} (h : MemWf s) : MemWf (s.bump w o n) := h.wr
theorem MemWf.wrList {w} : ∀ {vs o} {s : State}, MemWf s → MemWf (s.wrList w o vs)
  | [], _, _, h => h
  | _ :: _, _, _, h => h.wr.wrList
theorem MemWf.wrP {w d o v} (h : MemWf s) : MemWf (s.wrP w d o v) := h.wr
theorem MemWf.bumpP {w d o n} (h : MemWf s) : MemWf (s.bumpP w d o n) := h.bump
theorem MemWf.wr64 {w o v} (h : MemWf s) : MemWf (s.wr64 w o v) := h.wr.wr
theorem MemWf.shadow {w src dst seq n} (h : MemWf s) : MemWf (s.shadow w src dst seq n) := h.wrList.bump
theorem MemWf.resetWin {w lo hi} (h : MemWf s) : MemWf (s.resetWin w lo hi) := h.upd
theorem MemWf.draw (h : MemWf s) : MemWf s.draw.2 := h.upd
theorem MemWf.setCore {c k} (h : MemWf s) : MemWf (s.setCore c k) := h.updTiles
theorem MemWf.onCore {c f} (h : MemWf s) : MemWf (s.onCore c f) := h.setCore
theorem MemWf.ledger {e} (h : MemWf s) : MemWf (s.ledger e) := .ite h (.ite (.ite h.upd h.bump) (.ite h.upd h.bump.upd))
theorem MemWf.detectCore {d c detail} (h : MemWf s) : MemWf (s.detectCore d c detail) := h.ledger
theorem MemWf.detectRgn {d r detail} (h : MemWf s) : MemWf (s.detectRgn d r detail) := h.ledger
theorem MemWf.detectUnit {d dye unit detail} (h : MemWf s) : MemWf (s.detectUnit d dye unit detail) := h.ledger
theorem MemWf.info {d detail} (h : MemWf s) : MemWf (s.info d detail) := h.ledger
theorem MemWf.hist {kind d unit v} (h : MemWf s) : MemWf (s.hist kind d unit v) := .ite h (.ite h.upd h)
theorem MemWf.pulse {sel hit} (h : MemWf s) : MemWf (s.pulse sel hit) := h.foldl fun _ _ ht => .ite ht.upd ht
theorem MemWf.answer {data poison} (h : MemWf s) : MemWf (s.answer data poison) := h.upd
theorem MemWf.permissionError {n} (h : MemWf s) : MemWf (s.permissionError n) := h.upd
theorem MemWf.refuseRec {m a c r} (h : MemWf s) : MemWf (s.refuseRec m a c r) := h.ledger
theorem MemWf.refuse {m a n c} (h : MemWf s) : MemWf (s.refuse m a n c) := h.refuseRec.upd
theorem MemWf.setBist {c b} (h : MemWf s) : MemWf (s.setBist c b) := h.updTiles
theorem MemWf.setErr {c w e} (h : MemWf s) : MemWf (s.setErr c w e) := h.updTiles
theorem MemWf.sliceSet {c o bs} (h : MemWf s) : MemWf (s.sliceSet c o bs) :=
  .ite (h.updSram (tabSetList_wf _ _ h.sram)) (h.updSram (foldl_tabSet_wf (fun i => s.byteKey c (o + i)) _ h.sram))
theorem MemWf.bufTake {c w} (h : MemWf s) : MemWf (s.bufTake c w) := by
  unfold State.bufTake
  extract_lets
  split
  · exact .setBist h.putBytes
  · exact h
theorem MemWf.injFired (h : MemWf s) : MemWf s.injFired := .ite h.bump.setBit.pulse.setBit h.bump.setBit.pulse
theorem MemWf.injDue (h : MemWf s) : MemWf s.injDue.2 := by
  unfold State.injDue
  extract_lets
  split <;> exact h.upd
theorem MemWf.injMark {n} (h : MemWf s) : MemWf (s.injMark n) := h.upd
theorem MemWf.ueMark {k} (h : MemWf s) : MemWf (s.ueMark k) := h.updTiles
theorem MemWf.eccSee {c w e} (h : MemWf s) : MemWf (s.eccSee c w e).2 := by
  unfold State.eccSee
  extract_lets
  split
  · exact h
  · split
    · exact h
    · exact h.bump.wr.detectCore.updTiles
    · exact h.bump.wr.detectCore.ueMark
theorem MemWf.eccRead {c w} (h : MemWf s) : MemWf (s.eccRead c w).2 := by
  unfold State.eccRead
  extract_lets
  split
  · split
    · exact h.injDue.eccSee.updTiles.injMark.injFired
    · exact h.injDue.eccSee
  · exact h.eccSee
theorem MemWf.eccReads {c} : ∀ {ws} {s : State}, MemWf s → MemWf (s.eccReads c ws).2
  | [], _, h => h
  | _ :: _, _, h => h.eccRead.eccReads
theorem MemWf.sliceRead {c o n} (h : MemWf s) : MemWf (s.sliceRead c o n).2 := h.eccReads
theorem MemWf.eccWrite {c o n} : ∀ {ws} {s : State}, MemWf s → MemWf (s.eccWrite c o n ws).2
  | [], _, h => h
  | _ :: _, s, h => by
    unfold State.eccWrite
    extract_lets _ _ s0 _ _ _ _ r t
    have hs0 : MemWf s0 := .ite h.updTiles h
    have hr : MemWf r.2 := by
      unfold r
      split
      · split
        · exact hs0.eccRead
        · split
          · exact hs0.eccRead
          · exact hs0.eccRead.setErr
      · split
        · exact hs0
        · split
          · exact hs0.setErr
          · exact hs0.setErr
    exact .ite hr.eccWrite (.updTiles hr.eccWrite)
theorem MemWf.sliceWrite {c o bs} (h : MemWf s) : MemWf (s.sliceWrite c o bs).2 := by
  unfold State.sliceWrite
  extract_lets _ s0
  have hs0 : MemWf s0 := .ite h (h.foldl fun _ _ ht => ht.bufTake)
  split
  · exact hs0.eccWrite.sliceSet
  · exact hs0.eccWrite.foldl fun _ _ ht => ht.sliceSet
theorem MemWf.accWrite {c o bs} (h : MemWf s) : MemWf (s.accWrite c o bs) := h.updAcc (tabSetList_wf _ _ h.acc)
theorem MemWf.accClear {c bank} (h : MemWf s) : MemWf (s.accClear c bank) := h.updAcc (tabClear_wf _ _ h.acc)
theorem MemWf.setAccRow {c b r v} (h : MemWf s) : MemWf (s.setAccRow c b r v) := h.accWrite
theorem MemWf.charge {d pj} (h : MemWf s) : MemWf (s.charge d pj) := h.wr64.upd
theorem MemWf.carry {w d bytes} (h : MemWf s) : MemWf (s.carry w d bytes) := h.bump.charge.updMem
theorem MemWf.setFrame {f x} (h : MemWf s) : MemWf (s.setFrame f x) := h.updMem
theorem MemWf.useFrames {d tier up n} (h : MemWf s) : MemWf (s.useFrames d tier up n) := h.wr
theorem MemWf.freeFrame {f} (h : MemWf s) : MemWf (s.freeFrame f) := by
  have h1 : MemWf (if (s.frame f).held then s.useFrames (s.frame f).owner 1 false else s) := .ite h.useFrames h
  exact h1.updHbm (tabClear_wf _ _ h1.hbm)
theorem MemWf.grantFrame {f d state kind} (h : MemWf s) : MemWf (s.grantFrame f d state kind) := h.setFrame.useFrames
theorem MemWf.hbmUe {u} (h : MemWf s) : MemWf (s.hbmUe u) := h.bump.wr.detectUnit
theorem MemWf.hbmReadG {d o n} (h : MemWf s) : MemWf (s.hbmReadG d o n).2 := by
  unfold State.hbmReadG
  extract_lets
  split
  · exact h.bump.bumpP
  · split
    · exact h
    · split
      · exact h.detectUnit
      · split
        · exact h.foldl fun _ _ ht => ht.hbmUe
        · split <;> exact h
theorem MemWf.hbmFresh {f g} (h : MemWf s) : MemWf (s.hbmFresh f g) :=
  .ite (.setFrame (h.updHbm (tabClear_wf _ _ h.hbm))) (.ite (h.updHbm (tabSetList_wf _ _ h.hbm)) h)
theorem MemWf.hbmWriteG {o bs} (h : MemWf s) : MemWf (s.hbmWriteG o bs) :=
  .ite h (h.hbmFresh.updHbm (tabSetList_wf _ _ h.hbmFresh.hbm))
theorem MemWf.pkgFollow (h : MemWf s) : MemWf s.pkgFollow := h.setFld
theorem MemWf.hbmAwake {ctl} (h : MemWf s) : MemWf (s.hbmAwake ctl) := .ite h.setFld.pkgFollow h
theorem MemWf.hbmUse {d o n} (h : MemWf s) : MemWf (s.hbmUse d o n) := h.hbmAwake.carry.upd
theorem MemWf.hbmReadF {d} : ∀ {k o n} {s : State}, MemWf s → MemWf (s.hbmReadF d k o n).2
  | 0, _, _, _, h => h
  | _ + 1, _, _, _, h => by
    unfold State.hbmReadF
    split
    · exact h
    · exact h.hbmUse.hbmReadG.hbmReadF
theorem MemWf.hbmRead {d o n} (h : MemWf s) : MemWf (s.hbmRead d o n).2 := h.hbmReadF
theorem MemWf.hbmWriteF : ∀ {k o bs} {s : State}, MemWf s → MemWf (s.hbmWriteF k o bs)
  | 0, _, _, _, h => h
  | _ + 1, _, _, _, h => .ite h h.hbmUse.hbmWriteG.hbmWriteF
theorem MemWf.hbmWrite {o bs} (h : MemWf s) : MemWf (s.hbmWrite o bs) := h.hbmWriteF
theorem MemWf.armCmp {o value what} (h : MemWf s) : MemWf (s.armCmp o value what) := by
  unfold State.armCmp
  split <;> exact h.upd
theorem MemWf.rearm {o} (h : MemWf s) : MemWf (s.rearm o) := by
  unfold State.rearm
  extract_lets
  split
  · exact h
  · exact h.upd.armCmp
theorem MemWf.rearmAll (h : MemWf s) : MemWf s.rearmAll := h.foldl fun _ _ ht => ht.foldl fun _ _ hu => hu.rearm
theorem MemWf.disarm {p} (h : MemWf s) : MemWf (s.disarm p) := h.upd
/-! ### Faults -/
theorem MemWf.countStall {c} (h : MemWf s) : MemWf (s.countStall c) := by
  unfold State.countStall
  exact h.onCore
theorem MemWf.cutWait {c} (h : MemWf s) : MemWf (s.cutWait c) := .ite h.countStall h
theorem MemWf.checkAbandon {c} (h : MemWf s) : MemWf (s.checkAbandon c) := .ite h.cutWait.onCore h
theorem MemWf.checkAbandons {cs} (h : MemWf s) : MemWf (s.checkAbandons cs) := h.foldl fun _ _ ht => ht.checkAbandon
theorem MemWf.faultRec {c code} (h : MemWf s) : MemWf (s.faultRec c code) := h.ledger
theorem MemWf.coreFault {c code pc num op} (h : MemWf s) : MemWf (s.coreFault c code pc num op) :=
  .ite h.faultRec (.checkAbandons (h.cutWait.onCore.faultRec.foldl fun _ _ ht => ht.onCore))
theorem MemWf.faultHere {c code num op} (h : MemWf s) : MemWf (s.faultHere c code num op) := h.coreFault
theorem MemWf.lateError {c f late} (h : MemWf s) : MemWf (s.lateError c f late) := .ite h.onCore.faultRec h.onCore
theorem MemWf.masterFault {m c code} (h : MemWf s) : MemWf (s.masterFault m c code) := h.coreFault
/-! ### Bank -/
theorem MemWf.applyMask {q o set mask} (h : MemWf s) : MemWf (s.applyMask q o set mask).2 := h.sliceWrite
theorem MemWf.semTouch {c ws} (h : MemWf s) : MemWf (s.semTouch c ws) := by
  unfold State.semTouch
  split
  · exact .ite h.onCore h
  · exact h
theorem MemWf.ueAnswer {r n} (h : MemWf s) : MemWf (s.ueAnswer r n) := by
  unfold State.ueAnswer
  extract_lets
  split
  · exact h.upd.masterFault
  · exact h.upd
theorem MemWf.serve {r} (h : MemWf s) : MemWf (s.serve r) := by
  unfold State.serve
  extract_lets
  split
  · exact .ite (by split; exacts [h.sliceRead.answer.masterFault, h.sliceRead.answer]) h.sliceRead.answer
  · exact .ite h.sliceWrite.ueAnswer h.sliceWrite.semTouch
  · exact .ite h.applyMask.ueAnswer h.applyMask.semTouch
  · exact .ite h.applyMask.ueAnswer h.applyMask.semTouch
theorem MemWf.bankLose {c bank w n} (h : MemWf s) : MemWf (s.bankLose c bank w n) := h.updTiles.bump
theorem MemWf.serveWord {c w lo hi} (h : MemWf s) : MemWf (s.serveWord c w lo hi) :=
  .ite h (h.updTiles.foldl fun _ _ ht => ht.foldl fun _ _ hu => hu.serve)
theorem MemWf.bankWin1 {c i w rank} : ∀ {n age} {s : State}, MemWf s → MemWf (s.bankWin1 c i w rank n age)
  | 0, _, _, h => h
  | _ + 1, _, _, h => by
    unfold State.bankWin1
    extract_lets
    split
    · exact h
    · split
      · exact h
      · exact .ite h.bankLose.serveWord h.bankLose.serveWord.bankWin1
theorem MemWf.bankWin {c i rank ws} (h : MemWf s) : MemWf (s.bankWin c i rank ws) := .ite (h.foldl fun _ _ ht => ht.bankWin1) h
theorem MemWf.bankRest {c ws} (h : MemWf s) : MemWf (s.bankRest c ws) := .ite (h.foldl fun _ _ ht => ht.serveWord) h
theorem MemWf.portRead {c i o n} (h : MemWf s) : MemWf (s.portRead c i o n).2 := h.bankWin.sliceRead.bankRest
theorem MemWf.portWrite {c i o bs} (h : MemWf s) : MemWf (s.portWrite c i o bs).2 := h.bankWin.sliceWrite.semTouch.bankRest
theorem MemWf.portAlias {c i o set mask} (h : MemWf s) : MemWf (s.portAlias c i o set mask).2 :=
  h.bankWin.applyMask.semTouch.bankRest
theorem MemWf.refuseSlice {m q a n} (h : MemWf s) : MemWf (s.refuseSlice m q a n) := by
  unfold State.refuseSlice
  extract_lets
  split
  · exact h.bump.refuse.masterFault
  · exact h.bump.refuse
/-! ### Access -/
theorem MemWf.fabSend {p} (h : MemWf s) : MemWf (s.fabSend p) := h.upd
theorem MemWf.fabRequest {p who} (h : MemWf s) : MemWf (s.fabRequest p who).2 := by
  unfold State.fabRequest
  extract_lets
  split
  · exact h.bump
  · exact h.fabSend.upd
theorem MemWf.refusedRec {m b} (h : MemWf s) : MemWf (s.refusedRec m b) := by
  unfold State.refusedRec
  split
  · exact h.bump.refuseRec
  · exact h.refuseRec
  · exact h.refuseRec
  · exact h.refuseRec
theorem MemWf.bridge {m die write n} (h : MemWf s) : MemWf (s.bridge m die write n) := by
  unfold State.bridge
  split
  · exact .ite h h.carry
  · exact h
theorem MemWf.readPiece {m a n far} (h : MemWf s) : MemWf (s.readPiece m a n far).2 := by
  unfold State.readPiece
  extract_lets
  split
  · exact h.bridge.portRead
  · exact h
  · exact h.bridge.hbmRead
  · exact h
  · exact h.carry
  · exact h
theorem MemWf.readF {m} : ∀ {k a n far} {s : State}, MemWf s → MemWf (s.readF m k a n far).2
  | 0, _, _, _, _, h => h
  | _ + 1, _, _, _, _, h => by
    unfold State.readF
    split
    · exact h
    · exact h.readPiece.readF
theorem MemWf.read {m a n far} (h : MemWf s) : MemWf (s.read m a n far).2 := by
  unfold State.read
  split
  · exact h.refusedRec
  · exact h.readF
theorem MemWf.writePiece {m a bs} (h : MemWf s) : MemWf (s.writePiece m a bs).2 := by
  unfold State.writePiece
  extract_lets
  split
  · exact h.bridge.portWrite
  · exact h.accWrite
  · exact h.bridge.hbmWrite
  · extract_lets
    split
    · exact h
    · exact h.carry.fabRequest
  · exact h.carry.upd
  · exact h
theorem MemWf.writeF {m} : ∀ {k a bs} {s : State}, MemWf s → MemWf (s.writeF m k a bs).2
  | 0, _, _, _, h => h
  | _ + 1, _, _, _, h => by
    unfold State.writeF
    split
    · exact h
    · exact h.writePiece.writeF
theorem MemWf.write {m a bs} (h : MemWf s) : MemWf (s.write m a bs).2 := by
  unfold State.write
  split
  · exact h.refusedRec
  · exact h.writeF
theorem MemWf.askPiece {m a n} (h : MemWf s) : MemWf (s.askPiece m a n) := by
  unfold State.askPiece
  extract_lets
  split
  · exact h.fabRequest
  · exact h.upd
  · exact h
theorem MemWf.askF {m} : ∀ {k a n} {s : State}, MemWf s → MemWf (s.askF m k a n)
  | 0, _, _, _, h => h
  | _ + 1, _, _, _, h => .ite h h.askPiece.askF
theorem MemWf.ask {m a n} (h : MemWf s) : MemWf (s.ask m a n) := .ite h.askF h
/-! ### Routes -/
theorem MemWf.overLink {dst d bytes} (h : MemWf s) : MemWf (s.overLink dst d bytes) := by
  unfold State.overLink
  split
  · exact h.carry
  · exact h
theorem MemWf.sendPacket {p} (h : MemWf s) : MemWf (s.sendPacket p) := h.overLink.upd
/-! ### CoreOps -/
theorem MemWf.issue {c word illegal num p pneg} {body : State → State} (h : MemWf s) (hbody : ∀ t0, MemWf t0 → MemWf (body t0)) :
    MemWf (s.issue c word illegal num p pneg body) :=
  .ite h (by split; exacts [h.faultHere, .ite h.faultHere (.ite h (.ite h.faultHere (.ite h.onCore (hbody _ h))))])
theorem MemWf.retire {c f} (h : MemWf s) : MemWf (s.retire c f) := h.onCore
theorem MemWf.copyRows {c x} : ∀ {n i far} {s : State}, MemWf s → MemWf (s.copyRows c x n i far).2
  | 0, _, _, _, h => h
  | _ + 1, _, _, _, h => by
    unfold State.copyRows
    extract_lets
    split
    · exact h.read
    · exact h.read.write.copyRows
theorem MemWf.fillFault {q ch b w} (h : MemWf s) : MemWf (s.fillFault q ch b w) := h.coreFault
theorem MemWf.deliver {q ch seq epoch data} (h : MemWf s) : MemWf (s.deliver q ch seq epoch data).2 := by
  unfold State.deliver
  extract_lets
  split
  · exact h
  · split
    · exact h
    · extract_lets
      split
      · exact h
      · split
        · exact .snd h.write.fillFault
        · exact .snd h.write.onCore
theorem MemWf.giveCredit {c ch cap} (h : MemWf s) : MemWf (s.giveCredit c ch cap).2 := by
  unfold State.giveCredit
  extract_lets
  split
  · exact .snd h.onCore
  · split
    · exact .snd h.sendPacket
    · exact h
theorem MemWf.askRows {c x} (h : MemWf s) : ∀ {n}, MemWf (s.askRows c x n)
  | 0 => h
  | _ + 1 => h.askRows.ask
theorem MemWf.launchSend {c x xs} (h : MemWf s) : MemWf (s.launchSend c x xs) := by
  unfold State.launchSend
  extract_lets
  split
  · exact h.read.onCore.coreFault
  · split
    · exact h.read.lateError
    · split
      · exact .ite h.read.lateError (h.read.onCore.foldl fun _ _ ht => ht.sendPacket)
      · exact h.read.lateError
theorem MemWf.startXfers {c} : ∀ {n} {s : State}, MemWf s → MemWf (s.startXfers c n)
  | 0, _, h => h
  | _ + 1, _, h => by
    unfold State.startXfers
    split
    · exact h
    · exact .ite h.launchSend.startXfers (.ite h (.ite h.onCore h.onCore.askRows))
theorem MemWf.retrySends {c ch} (h : MemWf s) : MemWf (s.retrySends c ch) := by
  unfold State.retrySends
  extract_lets
  split
  · exact h
  · split
    · exact h
    · exact .ite h.coreFault (.ite h h.onCore.startXfers)
theorem MemWf.nextXfers {c} (h : MemWf s) : MemWf (s.nextXfers c) := h.startXfers.foldl fun _ _ ht => ht.retrySends
theorem MemWf.setBar {d g b} (h : MemWf s) : MemWf (s.setBar d g b) := h.updTiles
theorem MemWf.barrierArrive {c g} (h : MemWf s) : MemWf (s.barrierArrive c g) :=
  .ite (h.setBar.foldl fun _ _ ht => ht.sendPacket) h.setBar
theorem MemWf.done {c wake} (h : MemWf s) : TriedWf (done s c wake) := .ends h.onCore
theorem MemWf.tryDwait {w c} (h : MemWf s) : TriedWf (tryDwait w c s) :=
  .ite (.waits h) (.ite (.ends h.onCore.faultHere) h.onCore.done)
theorem MemWf.trySwait {w c} (h : MemWf s) : TriedWf (trySwait w c s) :=
  .ite (.waits h) (.ite (.ends h.onCore.faultHere) h.onCore.done)
theorem MemWf.tryRwait {w c} (h : MemWf s) : TriedWf (tryRwait w c s) := by
  unfold Machine.tryRwait
  split
  · exact .waits h
  · split
    · exact .waits h
    · exact h.onCore.done
theorem MemWf.trySend {w c} (h : MemWf s) : TriedWf (trySend w c s) := by
  unfold Machine.trySend
  extract_lets
  split
  · exact .waits h
  · exact .ite (.ends h.faultHere) (.ite (.waits h) h.onCore.startXfers.done)
theorem MemWf.tryRecv {w c} (h : MemWf s) : TriedWf (tryRecv w c s) := by
  unfold Machine.tryRecv
  extract_lets _ _ _ _ old f
  have hf : MemWf f.2 := by
    unfold f
    cases old with
    | none => exact h
    | some e => exact h.write
  split
  · exact .waits h
  · split
    · exact .ends h.faultHere
    · split
      · exact .ite (.ends hf.faultHere) hf.onCore.done
      · exact MemWf.done (h.onCore.giveCredit.foldl fun _ _ ht => ht.retrySends)
theorem MemWf.trySemwait {w c} (h : MemWf s) : TriedWf (trySemwait w c s) := by
  unfold Machine.trySemwait
  extract_lets
  split
  · exact .ends h.faultHere
  · extract_lets
    split
    · exact .ends h.bump.refuseRec.faultHere
    · exact .ite (.ends h.portRead.faultHere) (.ite h.portRead.done (.waits h.portRead))
theorem MemWf.tryBarrier {w c} (h : MemWf s) : TriedWf (tryBarrier w c s) := .ite h.done (.waits h)
theorem MemWf.tryFence {w c} (h : MemWf s) : TriedWf (tryFence w c s) :=
  .ite (.waits h) (.ite (.ends h.onCore.faultHere) (.ite (.ends h.onCore.faultHere) h.onCore.done))
theorem MemWf.tileMaxNow {c} (h : MemWf s) : MemWf (s.tileMaxNow c) := h.onCore
theorem MemWf.tryTile {halt c} (h : MemWf s) : TriedWf (tryTile halt c s) :=
  .ite (.waits h) (by split; exacts [.ends h.faultHere, .ite (.ends h.onCore.tileMaxNow.onCore) (.ends h.onCore.onCore)])
theorem MemWf.tryBlocked {b c} (h : MemWf s) : TriedWf (tryBlocked b c s) := by
  unfold Machine.tryBlocked
  split
  · split
    · exact h.tryDwait
    · split
      · exact h.trySwait
      · exact .ite h.tryRwait (.ite h.trySend (.ite h.tryRecv (.ite h.trySemwait (.ite h.tryBarrier h.tryFence))))
  · exact h.tryTile
theorem MemWf.endWait {c k} (h : MemWf t) : MemWf (t.endWait c k) := .ite h.onCore h
theorem MemWf.settle1 {c} (h : MemWf s) : MemWf (s.settle1 c).1 := by
  unfold State.settle1
  extract_lets
  split
  · exact h
  · split
    · exact h
    · split
      · exact h
      · next b _ _ =>
        have htry := MemWf.tryBlocked (b := b) (c := c) (h.onCore (c := c) (f := fun k => { k with semHit := false }))
        split
        · next heq => exact .ite (heq ▸ htry :) h
        · next heq => exact (heq ▸ htry : TriedWf (.ends _ _)).endWait
theorem MemWf.settleF : ∀ {n cs} {s : State}, MemWf s → MemWf (s.settleF n cs)
  | 0, _, _, h => h
  | _ + 1, [], _, h => h
  | _ + 1, _ :: _, _, h => h.settle1.settleF
theorem MemWf.settle {cs} (h : MemWf s) : MemWf (s.settle cs) := h.settleF
theorem MemWf.settleAll (h : MemWf s) : MemWf s.settleAll := h.settle
theorem MemWf.waitOn {c b} (h : MemWf s) : MemWf (s.waitOn c b) := by
  have htry := h.tryBlocked (b := b) (c := c)
  unfold State.waitOn
  split
  · next heq => exact (heq ▸ htry : TriedWf (.ends _ _)).settle
  · next heq => exact (heq ▸ htry : TriedWf (.waits _)).onCore.checkAbandon
/-! ### Tables -/
theorem MemWf.takeFrame {d die kind} (h : MemWf s) : MemWf (s.takeFrame d die kind).2 := by
  unfold State.takeFrame
  extract_lets
  split
  · exact h.draw
  · split
    · exact h.draw
    · exact h.draw.grantFrame
theorem MemWf.setCtx {d slot c} (h : MemWf s) : MemWf (s.setCtx d slot c) := h.updMem
theorem MemWf.dirGrow {d die x} (h : MemWf s) : MemWf (s.dirGrow d die x).2.2 := by
  unfold State.dirGrow
  extract_lets
  split
  · exact h
  · split <;> exact h.takeFrame
theorem MemWf.dirRoot {d die x} (h : MemWf s) : MemWf (s.dirRoot d die x).2 := by
  unfold State.dirRoot
  extract_lets
  split
  · exact h
  · split <;> exact h.dirGrow
theorem MemWf.dirL1 {d die x layer} (h : MemWf s) : MemWf (s.dirL1 d die x layer).2 := by
  unfold State.dirL1
  extract_lets
  split
  · exact h
  · split
    · exact .snd h.dirGrow
    · exact .snd h.dirGrow.hbmWrite
theorem MemWf.dirL2 {d die x layer i} (h : MemWf s) : MemWf (s.dirL2 d die x layer i).2 := by
  unfold State.dirL2
  extract_lets
  split
  · exact h
  · split
    · exact .snd h.dirGrow
    · exact .snd h.dirGrow.hbmWrite
theorem MemWf.dirSet {d die x layer page p} (h : MemWf s) : MemWf (s.dirSet d die x layer page p).2 := by
  unfold State.dirSet
  extract_lets _ a b c
  have ha : MemWf a.2 := by
    unfold a
    split
    · exact h
    · exact h.dirRoot
  have hb : MemWf b.2 := by
    unfold b
    split
    · exact ha
    · exact ha.dirL1
  have hc : MemWf c.2 := by
    unfold c
    split
    · exact hb
    · exact hb.dirL2
  split
  · exact hc
  · exact hc.hbmWrite
theorem MemWf.dirFree {x} (h : MemWf s) : MemWf (s.dirFree x) := h.foldl fun _ _ ht => ht.freeFrame
theorem MemWf.setPte {k p} (h : MemWf s) : MemWf (s.setPte k p) := by
  unfold State.setPte
  extract_lets
  split
  · exact h.updMem
  · exact h.updMem.dirSet.setCtx
theorem MemWf.kind5Grow {key d} (h : MemWf s) : ∀ {n}, MemWf (s.kind5Grow key d n)
  | 0 => h
  | _ + 1 => by
    unfold State.kind5Grow
    split
    · exact h
    · extract_lets
      split
      · exact h.kind5Grow.takeFrame
      · exact .updMem h.kind5Grow.takeFrame
theorem MemWf.setShared {k p} (h : MemWf s) : MemWf (s.setShared k p) := by
  unfold State.setShared
  extract_lets _ _ _ s2
  have hs2 : MemWf s2 := .ite h.updMem h.updMem.kind5Grow
  split
  · exact hs2
  · exact hs2.hbmWrite
theorem MemWf.setPrefix {d i p} (h : MemWf s) : MemWf (s.setPrefix d i p) := .updMem (.ite h.kind5Grow h)
theorem MemWf.touchPage {r a} (h : MemWf s) : MemWf (s.touchPage r a) := h.foldl fun _ _ ht => ht.setPte
/-! ### Pipeline -/
theorem MemWf.setAtp {r a} (h : MemWf s) : MemWf (s.setAtp r a) := h.updMem
theorem MemWf.setUnit {r u v} (h : MemWf s) : MemWf (s.setUnit r u v) := h.setFld
theorem MemWf.unitFollow {r u} (h : MemWf s) : MemWf (s.unitFollow r u) := .ite h (.ite h.setUnit (.ite h h.setUnit))
theorem MemWf.freeFollow {r u} (h : MemWf s) : MemWf (s.freeFollow r u) := h.setFld
theorem MemWf.putQueue {r u q} (h : MemWf s) : MemWf (s.putQueue r u q) := h.setAtp.freeFollow.unitFollow
theorem MemWf.reportFail {r session code} (h : MemWf s) : MemWf (s.reportFail r session code) := by
  unfold State.reportFail
  extract_lets
  split
  · exact h.upd
  · exact h
theorem MemWf.atpFault {r u code session} (h : MemWf s) : MemWf (s.atpFault r u code session) := h.wr.bump.setBit.ledger
theorem MemWf.atpError {r u code session} (h : MemWf s) : MemWf (s.atpError r u code session) := h.atpFault.reportFail
theorem MemWf.atpCtrl {m r} {f : State → State} (h : MemWf s) (hf : ∀ t0, MemWf t0 → MemWf (f t0)) : MemWf (s.atpCtrl m r f) :=
  .ite h.permissionError (.ite h.answer ((hf _ h).answer))
theorem MemWf.mispricedPage {r a} (h : MemWf s) : MemWf (s.mispricedPage r a) := h.foldl fun _ _ ht => ht.detectRgn.reportFail
theorem MemWf.atpPush {r u v} (h : MemWf s) : MemWf (s.atpPush r u v) :=
  .ite h (.ite h.mispricedPage (.ite h.setW1c.atpError h.putQueue))
theorem MemWf.execAtpDqPush {m r v} (h : MemWf s) : OutWf (execAtpDqPush m r v s) := .next (h.atpCtrl fun _ ht => ht.atpPush)
theorem MemWf.execAtpAqPush {m r v} (h : MemWf s) : OutWf (execAtpAqPush m r v s) := .next (h.atpCtrl fun _ ht => ht.atpPush)
theorem MemWf.execAtpTqPush {m r v} (h : MemWf s) : OutWf (execAtpTqPush m r v s) := .next (h.atpCtrl fun _ ht => ht.atpPush)
theorem MemWf.writeOutputs {r a dv rows ml} (h : MemWf s) : MemWf (s.writeOutputs r a dv rows ml).2 :=
  .write (.foldlSnd h fun _ _ ht => ht.write)
theorem MemWf.nanOutputs {r o dv rows n} (h : MemWf s) : MemWf (s.nanOutputs r o dv rows n) := .ite h.writeOutputs h
theorem MemWf.endMerge {r} (h : MemWf s) : MemWf (s.endMerge r) := by
  unfold State.endMerge
  split
  · exact h
  · exact .ite (.ite h h.nanOutputs.atpError.bump.putQueue) h
theorem MemWf.holdUnit {r old new u} (h : MemWf s) : MemWf (s.holdUnit r old new u) := .ite h.setUnit.detectRgn h
theorem MemWf.phaseWrite {r v} (h : MemWf s) : MemWf (s.phaseWrite r v) := by
  unfold State.phaseWrite
  extract_lets _ _ s0 s1 _ s3
  have hs0 : MemWf s0 := .ite h.endMerge h
  have hs1 : MemWf s1 := hs0.foldl fun _ _ ht => ht.holdUnit
  have hs3 : MemWf s3 := by
    unfold s3
    exact .ite hs1.wr.setFld (.ite hs1.wr.setFld.wr (.ite hs1.wr.setFld.wr (.ite hs1.wr.setFld.wr hs1.wr.setFld)))
  exact hs3.foldl fun _ _ ht => ht.unitFollow
theorem MemWf.execAtpPhaseWrite {m r v} (h : MemWf s) : OutWf (execAtpPhaseWrite m r v s) :=
  .next (h.atpCtrl fun _ ht => ht.phaseWrite)
theorem MemWf.abandonToken {r} (h : MemWf s) : MemWf (s.abandonToken r) := by
  unfold State.abandonToken
  split
  · exact h
  · exact .ite h h.write
theorem MemWf.atpStop {r} (h : MemWf s) : MemWf (s.atpStop r) := h.abandonToken.foldl fun _ _ ht => ht.setUnit
theorem MemWf.atpGo {r} (h : MemWf s) : MemWf (s.atpGo r) := h.foldl fun _ _ ht => .ite ht.setUnit.unitFollow ht
theorem MemWf.atpFlush {r} (h : MemWf s) : MemWf (s.atpFlush r) := .ite (h.foldl fun _ _ ht => ht.putQueue) h
theorem MemWf.execAtpStop {m r} (h : MemWf s) : OutWf (execAtpStop m r s) := .next (h.atpCtrl fun _ ht => ht.atpStop)
theorem MemWf.execAtpGo {m r} (h : MemWf s) : OutWf (execAtpGo m r s) := .next (h.atpCtrl fun _ ht => ht.atpGo)
theorem MemWf.execAtpFlush {m r} (h : MemWf s) : OutWf (execAtpFlush m r s) := .next (h.atpCtrl fun _ ht => ht.atpFlush)
theorem MemWf.execAtpErrAck {m r} (h : MemWf s) : OutWf (execAtpErrAck m r s) := .next (h.atpCtrl fun _ ht => ht.setBit)
theorem MemWf.atpClearStart {r} (h : MemWf s) : MemWf (s.atpClearStart r) := h.setAtp.resetWin.setBit
theorem MemWf.execAtpClearDone {r} (h : MemWf s) : OutWf (execAtpClearDone r s) := .ite (.next h.resetWin) (.next h)
/-! ### Attention -/
theorem MemWf.readPage {r x c splitPages p} (h : MemWf s) : MemWf (s.readPage r x c splitPages p).2 := by
  unfold State.readPage
  extract_lets
  split
  · exact .snd h
  · split
    · exact .snd h.read
    · split
      · exact .snd h.read
      · split
        · exact .snd h.read
        · split
          · exact .snd h.read
          · split
            · exact .snd h.read.read.read.read.read
            · split <;> exact .snd h.read.read.read.read.read
theorem MemWf.readPages {r x c sp} : ∀ {ps} {s : State}, MemWf s → MemWf (s.readPages r x c sp ps).2
  | [], _, h => h
  | _ :: _, s, h => by
    unfold State.readPages
    extract_lets _ s1
    have hs1 : MemWf s1 := .ite h.readPage.bump h.readPage
    split
    · exact h.readPage
    · exact hs1.readPages
theorem MemWf.readQueries {r a dk} (h : MemWf s) : ∀ {n}, MemWf (s.readQueries r a dk n).2
  | 0 => h
  | _ + 1 => h.readQueries.read
theorem MemWf.failJob {r j code} (h : MemWf s) : MemWf (s.failJob r j code) := h.nanOutputs.atpError
theorem MemWf.kvRead {r n} (h : MemWf s) : MemWf (s.kvRead r n) := h.bump.setAtp
theorem MemWf.mergeArrive {d rgn id split session} (h : MemWf s) : MemWf (s.mergeArrive d rgn id split session) := by
  unfold State.mergeArrive
  split
  · exact h
  · exact h.setAtp
theorem MemWf.runJob {r x} (h : MemWf s) : MemWf (s.runJob r x) := by
  unfold State.runJob
  extract_lets
  split
  · exact h.failJob
  · split
    · exact h.failJob
    · split
      · exact h.readQueries.failJob
      · split
        · exact h.readQueries.readPages.failJob
        · split
          · exact h.readQueries.readPages.kvRead.writeOutputs.atpError
          · split
            · exact h.readQueries.readPages.kvRead.writeOutputs.bump.bump
            · exact h.readQueries.readPages.kvRead.writeOutputs.bump.bump.mergeArrive
theorem MemWf.execAttentionJob {r} (h : MemWf s) : OutWf (execAttentionJob r s) := by
  unfold Machine.execAttentionJob
  split
  · exact .next h
  · split
    · exact .next h
    · split
      · exact .next h
      · split
        · exact .next h.putQueue.atpError
        · split
          · exact .next h
          · exact .next (.settleAll (.bump (.ite h.putQueue.failJob h.putQueue.runJob)))
theorem MemWf.readPartial {r a dv rows} (h : MemWf s) : MemWf (s.readPartial r a dv rows).2 := h.read
theorem MemWf.readPartials {r m dv} (h : MemWf s) : ∀ {n}, MemWf (s.readPartials r m dv n).2
  | 0 => h
  | _ + 1 => h.readPartials.readPartial
theorem MemWf.execMerge {r} (h : MemWf s) : OutWf (execMerge r s) := by
  unfold Machine.execMerge
  extract_lets
  split
  · exact .next h
  · split
    · exact .next h
    · extract_lets
      split
      · exact .next h
      · split
        · exact .next h.nanOutputs.atpError.bump.putQueue.settleAll
        · split
          · exact .next h
          · split
            · exact .next h.setAtp.nanOutputs.atpError.bump.putQueue.settleAll
            · split
              · exact .next h.setAtp.nanOutputs.atpError.bump.putQueue.settleAll
              · split
                · exact .next h.setAtp.readPartials.nanOutputs.atpError.bump.putQueue.settleAll
                · split
                  · exact .next h.setAtp.readPartials.writeOutputs.atpError.bump.putQueue.settleAll
                  · exact .next h.setAtp.readPartials.writeOutputs.bump.bump.putQueue.settleAll
/-! ### Append -/
theorem MemWf.writeParts {m page} : ∀ {ps} {s : State}, MemWf s → MemWf (s.writeParts m page ps).2
  | [], _, h => h
  | _ :: _, _, h => by
    unfold State.writeParts
    extract_lets
    split
    · exact h.write
    · exact h.write.writeParts
theorem MemWf.scaleRecord {m a} (h : MemWf s) : MemWf (s.scaleRecord m a).2 := h.read.read
theorem MemWf.appendToken {r x i} (h : MemWf s) : MemWf (s.appendToken r x i).2 := by
  unfold State.appendToken
  extract_lets _ _ _ _ _ rec_ _ i0
  have hrec_ : MemWf rec_.2 := by
    unfold rec_
    split
    · exact h.read.scaleRecord
    · exact .snd h.read
  have hi0 : MemWf i0.2 := by
    unfold i0
    split
    · exact hrec_.writeParts
    · exact .snd hrec_
  split
  · exact .snd h.read
  · split
    · exact .snd h.read
    · split
      · exact .snd h.read
      · split
        · exact .snd h.read
        · split
          · exact .snd hrec_
          · split
            · exact .snd hi0
            · split
              · exact .snd hi0.read.read
              · split
                · exact .snd hi0.read.read
                · split
                  · exact .snd hi0.read.read.writeParts
                  · exact .snd hi0.read.read.writeParts.bump.bump.bump.touchPage
/-- One token more, appended by f after the tokens that left p. -/
def thenAppend (f : State → Nat → AppEnd × State) (n : Nat) (p : Nat × State) : Nat × State :=
  if p.1 ≠ 0 then p
  else
    match (f p.2 n).1 with
    | .err code => (code, (f p.2 n).2)
    | _ => (0, (f p.2 n).2)
/-- State.appendToken stands aside as f: to find the equation, Lean would work it out. -/
theorem appendTokens_succ {r x n} :
    s.appendTokens r x (n + 1) = thenAppend (fun t i => t.appendToken r x i) n (s.appendTokens r x n) := by
  delta State.appendTokens State.appendTokens._f
  generalize @State.appendToken = f
  rfl
theorem MemWf.thenAppend {f n p} (hf : ∀ t i, MemWf t → MemWf (f t i).2) (h : MemWf p.2) : MemWf (thenAppend f n p).2 := by
  unfold Machine.thenAppend
  split
  · exact h
  · split
    · exact .snd (hf _ _ h)
    · exact .snd (hf _ _ h)
theorem MemWf.appendTokens {r x} (h : MemWf s) : ∀ {n}, MemWf (s.appendTokens r x n).2
  | 0 => h
  | _ + 1 => appendTokens_succ ▸ h.appendTokens.thenAppend fun _ _ ht => ht.appendToken
theorem MemWf.endAppend {r x code rest} (h : MemWf s) : MemWf (s.endAppend r x code rest) :=
  .settleAll (.putQueue (.ite h.atpError h))
theorem MemWf.execAppend {r} (h : MemWf s) : OutWf (execAppend r s) := by
  unfold Machine.execAppend
  split
  · exact .next h
  · split
    · exact .next h
    · exact .ite (.next h) (.ite (.next h.endAppend) (.ite (.next h.endAppend) (.next h.appendTokens.endAppend)))
theorem MemWf.commitNode {r x} (h : MemWf s) : MemWf (s.commitNode r x).2 := by
  unfold State.commitNode
  extract_lets _ _ _ _ _ _ _ _ _ bad
  split
  · exact .snd h.read
  · split
    · exact .snd h.read
    · split
      · exact .snd h.read
      · cases bad with
        | some code => exact .snd h.read.read.read.read.read.read
        | none =>
          dsimp only
          split
          · exact .snd h.read.read.read.read.read.read.writeParts
          · exact .snd h.read.read.read.read.read.read.writeParts.bump.touchPage
theorem MemWf.execCommit {r} (h : MemWf s) : OutWf (execCommit r s) := by
  unfold Machine.execCommit
  split
  · exact .next h
  · split
    · exact .next h
    · exact .ite (.next h) (.ite (.next h.endAppend) (.ite (.next h.endAppend) (.next h.commitNode.endAppend)))
/-! ### Scalar -/
theorem MemWf.sliceRefusal {c a op} (h : MemWf s) : MemWf (s.sliceRefusal c a op) := h.bump.refuseRec.faultHere
theorem MemWf.ownLoad {c a n align op f} (h : MemWf s) : MemWf (s.ownLoad c a n align op f) := by
  unfold State.ownLoad
  split
  · exact h.faultHere
  · exact .ite (.ite h.portRead.faultHere h.portRead.retire) h.sliceRefusal
theorem MemWf.ownStore {c a align op bs} (h : MemWf s) : MemWf (s.ownStore c a align op bs) := by
  unfold State.ownStore
  split
  · exact h.faultHere
  · exact .ite (.ite h.portWrite.faultHere h.portWrite.retire) h.sliceRefusal
theorem MemWf.execNop {c w} (h : MemWf s) : OutWf (execNop c w s) := .next (h.issue fun _ ht => ht.retire)
theorem MemWf.execAdd {c w} (h : MemWf s) : OutWf (execAdd c w s) := .next (h.issue fun _ ht => ht.retire)
theorem MemWf.execSub {c w} (h : MemWf s) : OutWf (execSub c w s) := .next (h.issue fun _ ht => ht.retire)
theorem MemWf.execMul {c w} (h : MemWf s) : OutWf (execMul c w s) := .next (h.issue fun _ ht => ht.retire)
theorem MemWf.execLogic {c w} (h : MemWf s) : OutWf (execLogic c w s) := .next (h.issue fun _ ht => ht.retire)
theorem MemWf.execShift {c w} (h : MemWf s) : OutWf (execShift c w s) := .next (h.issue fun _ ht => ht.retire)
theorem MemWf.execAddi {c w} (h : MemWf s) : OutWf (execAddi c w s) := .next (h.issue fun _ ht => ht.retire)
theorem MemWf.execMovi {c w} (h : MemWf s) : OutWf (execMovi c w s) := .next (h.issue fun _ ht => ht.retire)
theorem MemWf.execCmp {c w} (h : MemWf s) : OutWf (execCmp c w s) := .next (h.issue fun _ ht => ht.retire)
theorem MemWf.execCmpi {c w} (h : MemWf s) : OutWf (execCmpi c w s) := .next (h.issue fun _ ht => ht.retire)
theorem MemWf.execPlog {c w} (h : MemWf s) : OutWf (execPlog c w s) := .next (h.issue fun _ ht => ht.retire)
theorem MemWf.execLds {c w} (h : MemWf s) : OutWf (execLds c w s) := .next (h.issue fun _ ht => ht.ownLoad)
theorem MemWf.execSts {c w} (h : MemWf s) : OutWf (execSts c w s) := .next (h.issue fun _ ht => ht.ownStore)
theorem MemWf.rdsrCounter (h : MemWf s) : MemWf s.rdsrCounter.2 := h.draw.upd
theorem MemWf.execRdsr {c w} (h : MemWf s) : OutWf (execRdsr c w s) :=
  .next (h.issue fun _ ht => .ite ht.rdsrCounter.retire ht.retire)
theorem MemWf.execAmov {c w} (h : MemWf s) : OutWf (execAmov c w s) := .next (h.issue fun _ ht => ht.retire)
theorem MemWf.execAadd {c w} (h : MemWf s) : OutWf (execAadd c w s) := .next (h.issue fun _ ht => ht.retire)
theorem MemWf.execAaddi {c w} (h : MemWf s) : OutWf (execAaddi c w s) := .next (h.issue fun _ ht => ht.retire)
theorem MemWf.execArd {c w} (h : MemWf s) : OutWf (execArd c w s) := .next (h.issue fun _ ht => ht.retire)
/-! ### Vector -/
theorem MemWf.execVld {c w} (h : MemWf s) : OutWf (execVld c w s) := .next (h.issue fun _ ht => ht.ownLoad)
theorem MemWf.execVst {c w} (h : MemWf s) : OutWf (execVst c w s) := .next (h.issue fun _ ht => ht.ownStore)
theorem MemWf.execVop {c w} (h : MemWf s) : OutWf (execVop c w s) := .next (h.issue fun _ ht => ht.retire)
theorem MemWf.execVfma {c w} (h : MemWf s) : OutWf (execVfma c w s) := .next (h.issue fun _ ht => ht.retire)
theorem MemWf.execVfunc {c w} (h : MemWf s) : OutWf (execVfunc c w s) := .next (h.issue fun _ ht => ht.retire)
theorem MemWf.execVred {c w} (h : MemWf s) : OutWf (execVred c w s) := .next (h.issue fun _ ht => ht.retire)
theorem MemWf.execVcvt {c w} (h : MemWf s) : OutWf (execVcvt c w s) := .next (h.issue fun _ ht => ht.retire)
theorem MemWf.execVqmx {c w} (h : MemWf s) : OutWf (execVqmx c w s) := .next (h.issue fun _ ht => ht.retire)
theorem MemWf.execVbcast {c w} (h : MemWf s) : OutWf (execVbcast c w s) := .next (h.issue fun _ ht => ht.retire)
theorem MemWf.execVtail {c w} (h : MemWf s) : OutWf (execVtail c w s) := .next (h.issue fun _ ht => ht.retire)
theorem MemWf.execVacc {c w} (h : MemWf s) : OutWf (execVacc c w s) := by
  unfold Machine.execVacc
  refine .next (h.issue fun t ht => ?_)
  exact .ite ht.faultHere (.ite ht (.ite ht.retire (.ite ht.retire (.ite ht.setAccRow.retire ht.accClear.retire))))
/-! ### Matrix -/
theorem MemWf.execMload {c w} (h : MemWf s) : OutWf (execMload c w s) := by
  unfold Machine.execMload
  refine .next (h.issue fun t ht => ?_)
  extract_lets
  split
  · exact ht.faultHere
  · exact .ite ht ht.retire
theorem MemWf.execMma {c w} (h : MemWf s) : OutWf (execMma c w s) := by
  unfold Machine.execMma
  refine .next (h.issue fun t ht => ?_)
  extract_lets
  split
  · exact ht.faultHere
  · split
    · exact ht.faultHere
    · split
      · exact ht.faultHere
      · exact .ite ht ht.retire
theorem MemWf.engineRead {c o n pc op} (h : MemWf s) : MemWf (s.engineRead c o n pc op).2 := by
  unfold State.engineRead
  extract_lets
  split
  · split
    · exact h.portRead.coreFault
    · exact h.portRead
  · exact h.bump.refuseRec.coreFault
theorem MemWf.execMloadComplete {c} (h : MemWf s) : OutWf (execMloadComplete c s) := by
  unfold Machine.execMloadComplete
  split
  · exact .next h
  · extract_lets
    split
    · exact .next h.engineRead.checkAbandon
    · exact .next h.engineRead.onCore.settle
theorem MemWf.execMmaRowWritten {c} (h : MemWf s) : OutWf (execMmaRowWritten c s) := by
  unfold Machine.execMmaRowWritten
  split
  · exact .next h
  · extract_lets _ _ _ t
    have ht : MemWf t.2 := by
      unfold t
      split
      · exact h.engineRead.engineRead
      · exact h.engineRead
    split
    · exact .next h.engineRead.checkAbandon
    · split
      · exact .next ht.checkAbandon
      · exact .next ht.setAccRow.onCore.settle
/-! ### Courier -/
theorem MemWf.setCou {r c} (h : MemWf s) : MemWf (s.setCou r c) := h.upd
theorem MemWf.setCouState {r v} (h : MemWf s) : MemWf (s.setCouState r v) := h.setFld
theorem MemWf.couCtrl {m r} {f : State → State} (h : MemWf s) (hf : ∀ t0, MemWf t0 → MemWf (f t0)) : MemWf (s.couCtrl m r f) :=
  .ite h.permissionError (.ite h.answer ((hf _ h).answer))
theorem MemWf.readRecord {r a} (h : MemWf s) : MemWf (s.readRecord r a).2 := h.read.read.read
theorem MemWf.couError {r code layer} (h : MemWf s) : MemWf (s.couError r code layer) := h.wr.bump.setBit.ledger.reportFail
theorem MemWf.couFail {r code} (h : MemWf s) : MemWf (s.couFail r code) := .ite h h.couError.setCou
theorem MemWf.exchangeEnds {d prefill code} (h : MemWf s) : MemWf (s.exchangeEnds d prefill code) :=
  h.foldl fun _ _ ht => .ite (.ite ht.couFail.setCou ht.couFail.setCou.setCouState) ht
theorem MemWf.exchangeFail {r code} (h : MemWf s) : MemWf (s.exchangeFail r code) := h.exchangeEnds.upd
theorem MemWf.selectTokens {r x rr} (h : MemWf s) : ∀ {n}, MemWf (s.selectTokens r x rr n).2
  | 0 => h
  | _ + 1 => by
    unfold State.selectTokens
    extract_lets
    split
    · exact h.selectTokens
    · split
      · exact h.selectTokens.read
      · split
        · exact h.selectTokens.read
        · exact h.selectTokens.read.write
theorem MemWf.couTell {r pkg rgn kind data} (h : MemWf s) : MemWf (s.couTell r pkg rgn kind data) := by
  unfold State.couTell
  split
  · exact h
  · exact h.overLink.upd
theorem MemWf.sendCounts {r} (h : MemWf s) : MemWf (s.sendCounts r) := by
  unfold State.sendCounts
  split
  · exact h
  · exact h.foldl fun _ _ ht => ht.couTell
theorem MemWf.writeHeaders {r} (h : MemWf s) : MemWf (s.writeHeaders r) := by
  unfold State.writeHeaders
  extract_lets
  split
  · extract_lets _ s1
    have hs1 : MemWf s1 := h.foldl fun _ _ ht => .ite ht.write ht.write.couFail.setCou
    exact .ite hs1.setCou.setBit hs1.setCou
  · exact h
theorem MemWf.grantRound {r} (h : MemWf s) : MemWf (s.grantRound r) := by
  unfold State.grantRound
  extract_lets
  split
  · exact h
  · extract_lets _ _ _ _ _ s3
    have hs3 : MemWf s3 := h.setCou.bump.bump.bump.foldl fun _ _ ht => ht.couTell
    exact .ite h (.ite h.setCou.writeHeaders (.ite h (.ite h.exchangeFail hs3.upd.writeHeaders)))
theorem MemWf.sendRows {r x rr ctl g} (h : MemWf s) : MemWf (s.sendRows r x rr ctl g) := by
  unfold State.sendRows
  extract_lets _ _ _ s1 _ _ _ _ s3
  have hs1 : MemWf s1 := h.foldl fun _ _ ht => .couTell (.ite ht.read.couFail ht.read)
  have hs3 : MemWf s3 := hs1.setCou.bump.foldl fun _ _ ht => .ite ht.write ht.write.couFail
  exact hs3.bump
theorem MemWf.takeGrants {r} (h : MemWf s) : MemWf (s.takeGrants r) := by
  unfold State.takeGrants
  extract_lets
  split
  · exact h.setCou.foldl fun _ _ ht => ht.foldl fun _ _ hu => hu.sendRows
  · exact h
theorem MemWf.couProgress {r} (h : MemWf s) : MemWf (s.couProgress r) :=
  .ite h (.ite h.grantRound.takeGrants.setCouState h.grantRound.takeGrants)
theorem MemWf.outputRow {r x g} (h : MemWf s) : MemWf (s.outputRow r x g).2 := h.read
theorem MemWf.sendReturns {r} (h : MemWf s) : MemWf (s.sendReturns r) := by
  unfold State.sendReturns
  extract_lets
  split
  · exact h
  · exact h.foldl fun _ _ ht => .couTell (.ite ht.outputRow.couFail ht.outputRow)
theorem MemWf.combineToken {r x rr t} (h : MemWf s) : MemWf (s.combineToken r x rr t) := by
  unfold State.combineToken
  extract_lets _ _ _ _ sh _ rows _ _ _ _ _ s2
  have hsh : MemWf sh.2 := by
    unfold sh
    split
    · exact h.read
    · exact h
  have hrows : MemWf rows.2.2 := .foldlSndSnd (.ite hsh.couFail hsh) fun _ _ ht => .ite ht.read.couFail ht.read
  have hs2 : MemWf s2 := .ite hrows.write.setCou.couFail hrows.write.setCou
  exact .ite hs2 hs2.couFail
theorem MemWf.combineReady {r} (h : MemWf s) : MemWf (s.combineReady r) := by
  unfold State.combineReady
  extract_lets
  split
  · extract_lets _ _ s1
    have hs1 : MemWf s1 := h.foldl fun _ _ ht => ht.combineToken
    exact .ite h (.ite hs1.setCou.setCouState.setBit hs1.setCouState)
  · exact h
theorem MemWf.couEnter {r p} (h : MemWf s) : MemWf (s.couEnter r p) := by
  unfold State.couEnter
  extract_lets _ _ _ _ s2
  have hs2 : MemWf s2 := .ite h.setBit.setBit.wr h.setBit.setBit
  split
  · exact hs2.setCouState
  · split
    · exact .ite h.setCouState.sendCounts.couProgress h
    · split
      · exact .ite h.setCouState h.setCouState
      · exact .ite (.ite h.setCouState.sendReturns.combineReady h) (.ite h h.setCouState)
theorem MemWf.couResume {r p} (h : MemWf s) : MemWf (s.couResume r p) :=
  .ite h.setCou.setCouState (.ite h.setCou.setCouState.couProgress h.setCou.setCouState.combineReady)
theorem MemWf.couPhaseWrite {r v} (h : MemWf s) : MemWf (s.couPhaseWrite r v) := by
  unfold State.couPhaseWrite
  extract_lets
  split
  · exact h
  · split
    · exact h.wr.setFld
    · split
      · exact .ite h.wr.setFld.couResume h.wr.setFld
      · exact .ite h.wr.setFld.setCou.setCouState.detectRgn (.ite h.wr.setFld h.wr.setFld.couEnter)
theorem MemWf.execRoutePush {m r v} (h : MemWf s) : OutWf (execRoutePush m r v s) :=
  .next (h.couCtrl fun _ ht => .ite ht (.ite ht.setW1c.couError (.ite ht.setCou.setFld.couEnter ht.setCou.setFld)))
theorem MemWf.execCouPhaseWrite {m r v} (h : MemWf s) : OutWf (execCouPhaseWrite m r v s) :=
  .next (h.couCtrl fun _ ht => ht.couPhaseWrite)
theorem MemWf.execSelect {r} (h : MemWf s) : OutWf (execSelect r s) := by
  unfold Machine.execSelect
  extract_lets
  split
  · exact .next h
  · split
    · exact .next h
    · extract_lets _ _ _ _ t _ _ _ s2
      have ht : MemWf t.2 := by
        unfold t
        split
        · exact h.readRecord.selectTokens
        · exact h.readRecord
      have hs2 : MemWf s2 := .ite ht.setCou.setFld.couError ht.setCou.setFld.bump.bump
      exact .next hs2.setCouState.settleAll
theorem MemWf.execCountMessage {r srcPkg srcRgn x counts} (h : MemWf s) :
    OutWf (execCountMessage r srcPkg srcRgn x counts s) :=
  .ite (.next h) (.ite (.next h) (.next h.setCou.couProgress))
theorem MemWf.execGrantMessage {r homePkg homeRgn x grants} (h : MemWf s) :
    OutWf (execGrantMessage r homePkg homeRgn x grants s) :=
  .ite (.next h) (.next h.setCou.couProgress.settleAll)
theorem MemWf.execDispatchRow {r x expert row pool gid rank data ok} (h : MemWf s) :
    OutWf (execDispatchRow r x expert row pool gid rank data ok s) := by
  unfold Machine.execDispatchRow
  extract_lets
  split
  · exact .next h
  · split
    · extract_lets
      split
      · exact .next h.exchangeFail
      · exact .ite (.next h.write.exchangeFail) (.next h.write.setCou.writeHeaders.couProgress.settleAll)
    · exact .next h
theorem MemWf.execReturnRow {r x t rank data ok} (h : MemWf s) : OutWf (execReturnRow r x t rank data ok s) := by
  unfold Machine.execReturnRow
  extract_lets
  split
  · exact .next h
  · split
    · exact .ite (.next h) (.next (.settleAll (.combineReady (.setCou (.ite h.write.couFail h.write)))))
    · exact .next h
theorem MemWf.couAbandon {r p} (h : MemWf s) : MemWf (s.couAbandon r p) := .ite h.setCou.wr.setBit h.setCou.setBit
theorem MemWf.couStop {r} (h : MemWf s) : MemWf (s.couStop r) := .ite h (.setCouState (.ite h.couAbandon.setFld h))
theorem MemWf.couGo {r} (h : MemWf s) : MemWf (s.couGo r) :=
  .ite h (.ite h.setCouState.couAbandon.couEnter (.ite h.setCouState.couEnter h.setCouState.setCouState))
theorem MemWf.couFlush {r} (h : MemWf s) : MemWf (s.couFlush r) := .ite h.setCou.setFld h
theorem MemWf.execCouStop {m r} (h : MemWf s) : OutWf (execCouStop m r s) := .next (h.couCtrl fun _ ht => ht.couStop)
theorem MemWf.execCouGo {m r} (h : MemWf s) : OutWf (execCouGo m r s) := .next (h.couCtrl fun _ ht => ht.couGo)
theorem MemWf.execCouFlush {m r} (h : MemWf s) : OutWf (execCouFlush m r s) := .next (h.couCtrl fun _ ht => ht.couFlush)
theorem MemWf.execCouErrAck {m r} (h : MemWf s) : OutWf (execCouErrAck m r s) := .next (h.couCtrl fun _ ht => ht.setBit)
theorem MemWf.couClearStart {r} (h : MemWf s) : MemWf (s.couClearStart r) := h.setCou.resetWin.setBit
theorem MemWf.execCouClearDone {r} (h : MemWf s) : OutWf (execCouClearDone r s) := .ite (.next h.resetWin) (.next h)
theorem MemWf.couPeerLost {d} (h : MemWf s) : MemWf (s.couPeerLost d) := h.foldl fun _ _ ht => .ite ht.exchangeFail ht
/-! ### Stream -/
theorem MemWf.execDma {c w} (h : MemWf s) : OutWf (execDma c w s) :=
  .next (h.issue fun _ ht => .ite ht.retire (.ite ht.refusedRec.faultHere (.ite ht ht.onCore.startXfers.retire)))
theorem MemWf.execDmaComplete {c ok data} (h : MemWf s) : OutWf (execDmaComplete c ok data s) := by
  unfold Machine.execDmaComplete
  split
  · exact .next h
  · extract_lets
    split
    · exact .next h
    · split
      · exact .next h
      · split
        · exact .next h.lateError.nextXfers.settleAll
        · split
          · exact .next h.copyRows.onCore.coreFault.settleAll
          · exact .ite (.next h.copyRows.lateError.nextXfers.settleAll) (.next h.copyRows.onCore.nextXfers.settleAll)
theorem MemWf.execDwait {c w} (h : MemWf s) : OutWf (execDwait c w s) := .next (h.issue fun _ ht => ht.waitOn)
theorem MemWf.execSend {c w} (h : MemWf s) : OutWf (execSend c w s) :=
  .next (h.issue fun _ ht => .ite ht.faultHere (.ite ht.faultHere (.ite ht.faultHere ht.waitOn)))
theorem MemWf.execSendComplete {c ok} (h : MemWf s) : OutWf (execSendComplete c ok s) := by
  unfold Machine.execSendComplete
  split
  · extract_lets
    split
    · exact .next h
    · split
      · exact .next h.lateError.nextXfers.settleAll
      · split
        · exact .next h.lateError.nextXfers.settleAll
        · extract_lets
          split
          · exact .next h.read.onCore.coreFault.settleAll
          · split
            · exact .next h.read.lateError.nextXfers.settleAll
            · split
              · exact .next h.read.deliver.onCore.nextXfers.settleAll
              · exact .next h.read.deliver.lateError.nextXfers.settleAll
              · exact .next h.read.deliver.onCore.nextXfers.settleAll
  · split
    · exact .next h
    · exact .ite (.next h) (.next h.lateError.settle)
theorem MemWf.execRecv {c w} (h : MemWf s) : OutWf (execRecv c w s) :=
  .next (h.issue fun _ ht => .ite ht.faultHere (.ite ht.faultHere (.ite ht.faultHere ht.waitOn)))
theorem MemWf.execSwait {c w} (h : MemWf s) : OutWf (execSwait c w s) := .next (h.issue fun _ ht => ht.waitOn)
theorem MemWf.execRwait {c w} (h : MemWf s) : OutWf (execRwait c w s) := .next (h.issue fun _ ht => ht.waitOn)
theorem MemWf.semaphore {c a set mask op} (h : MemWf s) : MemWf (s.semaphore c a set mask op) := by
  unfold State.semaphore
  split
  · exact .ite (.ite h.portAlias.faultHere h.portAlias.retire.settle) h.bump.refuseRec.faultHere
  · exact h.refusedRec.faultHere
theorem MemWf.execSemset {c w} (h : MemWf s) : OutWf (execSemset c w s) := .next (h.issue fun _ ht => ht.semaphore)
theorem MemWf.execSemclr {c w} (h : MemWf s) : OutWf (execSemclr c w s) := .next (h.issue fun _ ht => ht.semaphore)
theorem MemWf.execSemwait {c w} (h : MemWf s) : OutWf (execSemwait c w s) := .next (h.issue fun _ ht => ht.waitOn)
theorem MemWf.execBarrier {c w} (h : MemWf s) : OutWf (execBarrier c w s) :=
  .next (h.issue fun _ ht => .ite ht.faultHere (.waitOn (.ite ht.onCore.barrierArrive ht.onCore)))
theorem MemWf.execBarrierRelease {d g} (h : MemWf s) : OutWf (execBarrierRelease d g s) := .ite (.next h.setBar.hist.settle) (.next h)
theorem MemWf.execFence {c w} (h : MemWf s) : OutWf (execFence c w s) := .next (h.issue fun _ ht => ht.waitOn)
/-! ### Tiles -/
theorem MemWf.branch {c imm} (h : MemWf s) : MemWf (s.branch c imm) := .ite h.faultHere (.ite h.faultHere h.onCore)
theorem MemWf.execBr {c w} (h : MemWf s) : OutWf (execBr c w s) := .next (h.issue fun _ ht => ht.branch)
theorem MemWf.loopIn {c sa n} (h : MemWf s) : MemWf (s.loopIn c sa n) :=
  .ite h.retire (.ite h.faultHere (.ite h.faultHere (.ite h.onCore h.onCore)))
theorem MemWf.execLoop {c w} (h : MemWf s) : OutWf (execLoop c w s) := .next (h.issue fun _ ht => ht.loopIn)
theorem MemWf.execTbound {c w} (h : MemWf s) : OutWf (execTbound c w s) := .next (h.issue fun _ ht => ht.waitOn)
theorem MemWf.execHalt {c w} (h : MemWf s) : OutWf (execHalt c w s) := .next (h.issue fun _ ht => ht.waitOn)
theorem MemWf.gateLeave {c opens} (h : MemWf s) : MemWf (s.gateLeave c opens) := .ite (.ite h.countStall.tileMaxNow h.countStall) h
theorem MemWf.execTileGateOpen {c} (h : MemWf s) : OutWf (execTileGateOpen c s) := by
  unfold Machine.execTileGateOpen
  extract_lets _ s1
  have hs1 : MemWf s1 := h.foldl fun _ _ ht => .ite ht.gateLeave.onCore ht
  exact .ite (.next hs1) (.next (hs1.foldl fun _ _ ht => ht.gateLeave.onCore))
theorem MemWf.execTileOverrun {c} (h : MemWf s) : OutWf (execTileOverrun c s) := .ite (.next h.coreFault) (.next h)
theorem MemWf.startBarriers {c} (h : MemWf s) : MemWf (s.startBarriers c) := h.foldl fun _ _ ht => .ite ht.setBar ht
theorem MemWf.coreGo {c} (h : MemWf s) : MemWf (s.coreGo c) := by
  unfold State.coreGo
  split
  · exact h.startBarriers.onCore
  · exact h.onCore
  · exact h.onCore
  · exact h
theorem MemWf.coreStop {c} (h : MemWf s) : MemWf (s.coreStop c) := .ite (.checkAbandons (h.foldl fun _ _ ht => ht.onCore)) h
theorem MemWf.coreFaultAck {c} (h : MemWf s) : MemWf (s.coreFaultAck c) := .ite h.onCore h
theorem MemWf.ctrlFrom {m c} {f : State → State} (h : MemWf s) (hf : ∀ t0, MemWf t0 → MemWf (f t0)) :
    MemWf (s.ctrlFrom m c f) :=
  .ite ((hf _ h).answer) h.permissionError
theorem MemWf.execCoreGo {m c} (h : MemWf s) : OutWf (execCoreGo m c s) := .next (h.ctrlFrom fun _ ht => ht.coreGo)
theorem MemWf.execCoreStop {m c} (h : MemWf s) : OutWf (execCoreStop m c s) := .next (h.ctrlFrom fun _ ht => ht.coreStop)
theorem MemWf.execCoreFaultAck {m c} (h : MemWf s) : OutWf (execCoreFaultAck m c s) := .next (h.ctrlFrom fun _ ht => ht.coreFaultAck)
theorem MemWf.cutHead {c} (h : MemWf s) : MemWf (s.cutHead c) := by
  unfold State.cutHead
  extract_lets
  split
  · exact h
  · exact .ite h.onCore h.draw.copyRows.onCore
theorem MemWf.execAbandonComplete {c} (h : MemWf s) : OutWf (execAbandonComplete c s) :=
  .ite (.next h.cutHead.onCore.settleAll) (.next h)
/-! ### Scratchpad -/
theorem MemWf.execScratchpadAccess {m a acc} (h : MemWf s) : OutWf (execScratchpadAccess m a acc s) := by
  unfold Machine.execScratchpadAccess
  split
  · exact .next h.updTiles
  · split
    · exact .next h.refuseSlice
    · exact .next h.refuse
theorem MemWf.execBankGrant {c bank flips} (h : MemWf s) : OutWf (execBankGrant c bank flips s) := by
  unfold Machine.execBankGrant
  split
  · exact .next h
  · exact .next (.settle (.serveWord (.bankLose (.ite h h.setErr))))
theorem MemWf.execEccWriteBack {c word} (h : MemWf s) : OutWf (execEccWriteBack c word s) := .ite (.next h.setErr.updTiles) (.next h)
theorem MemWf.bufClear {c} (h : MemWf s) : MemWf (s.bufClear c) := h.dropBytes
theorem MemWf.bufBack {c w} (h : MemWf s) : MemWf (s.bufBack c w) := h.putBytes
theorem MemWf.bufFill {c w} (h : MemWf s) : MemWf (s.bufFill c w) := h.putBytes
theorem MemWf.testRestore {c} (h : MemWf s) : MemWf (s.testRestore c) := .bufClear (h.foldl fun _ _ ht => ht.bufBack)
theorem MemWf.bistBits {r} (h : MemWf s) : MemWf (s.bistBits r) := h.setBit.setBit
theorem MemWf.testRelease {c} (h : MemWf s) : MemWf (s.testRelease c) := .ite h.setBist.setFld h.setBist

theorem MemWf.testsEnd {r} (h : MemWf s) : MemWf (s.testsEnd r) :=
  .ite (.bistBits (h.foldl fun _ _ ht => .ite ht.testRestore.testRelease ht)) h
theorem MemWf.testDrop {c first last} (h : MemWf s) : MemWf (s.testDrop c first last) :=
  .ite (.setBist (.ite h.bufClear h.testRestore)) h.setBist
theorem MemWf.zeroRows {c first last} (h : MemWf s) : MemWf (s.zeroRows c first last) := by
  unfold State.zeroRows
  extract_lets s0
  have hs0 : MemWf s0 := by
    unfold s0
    split
    · exact .ite h.bufClear h
    · exact h
  exact hs0.updSram (tabClear_wf _ _ hs0.sram)
theorem MemWf.flipRow {c act r} (h : MemWf s) : MemWf (s.flipRow c act r) := .updTiles (.zeroRows (.ite h.testDrop h))
theorem MemWf.clrEnd {r st cause cycles retried} (h : MemWf s) : MemWf (s.clrEnd r st cause cycles retried) :=
  h.setFld.setFld.setBit.setFld
theorem MemWf.classWrite {c n v} (h : MemWf s) : MemWf (s.classWrite c n v) :=
  .ite h.wr.answer (.answer (.wr (.clrEnd (.bistBits (.setFld (h.foldl fun _ _ ht => ht.flipRow))))))
theorem MemWf.winWrite {m r k n v} (h : MemWf s) : MemWf (s.winWrite m r k n v) :=
  .ite h.permissionError (.ite h.updTiles h.classWrite)
theorem MemWf.heldRun {r} (h : MemWf s) : MemWf (s.heldRun r) := .ite h (h.updTiles.foldl fun _ _ ht => ht.classWrite)
theorem MemWf.execSpdWinWrite {m r k n v} (h : MemWf s) : OutWf (execSpdWinWrite m r k n v s) := .next h.winWrite
theorem MemWf.maccWrite {m r i v} (h : MemWf s) : MemWf (s.maccWrite m r i v) := .ite h.permissionError h.wr.answer
theorem MemWf.execSpdMaccWrite {m r i v} (h : MemWf s) : OutWf (execSpdMaccWrite m r i v s) := .next h.maccWrite
theorem MemWf.clrBits {r} (h : MemWf s) : MemWf (s.clrBits r) := h.setBit.setBit
theorem MemWf.clrPut {r c} (h : MemWf s) : MemWf (s.clrPut r c) := h.updTiles.clrBits
theorem MemWf.hwClear {r cause} (h : MemWf s) : MemWf (s.hwClear r cause) := h.clrPut
theorem MemWf.clearRequest {m r v} (h : MemWf s) : MemWf (s.clearRequest m r v) :=
  .ite h.permissionError (.ite h.answer (.ite h.setW1c.answer h.clrPut.answer))
theorem MemWf.execSpdClearRequest {m r v} (h : MemWf s) : OutWf (execSpdClearRequest m r v s) := .next h.clearRequest
theorem MemWf.execClearStart {r} (h : MemWf s) : OutWf (execClearStart r s) := by
  unfold Machine.execClearStart
  split
  · extract_lets _ s2 _ _ s4 s5
    have hs2 : MemWf s2 := h.updTiles.foldl fun _ _ ht => ht.testDrop
    have hs4 : MemWf s4 := hs2.setFld.setFld.setFld.updTiles.foldl fun _ _ ht => ht.refuseSlice
    have hs5 : MemWf s5 := .ite hs4.atpClearStart.couClearStart hs4
    exact .next hs5.clrBits.bistBits
  · exact .next h
theorem MemWf.spdReset {r} (h : MemWf s) : MemWf (s.spdReset r) := h.resetWin.resetWin.updTiles
theorem MemWf.foldBist {r} (h : MemWf s) : MemWf (s.foldBist r) := h.updTiles
theorem MemWf.dropCores {r} (h : MemWf s) : MemWf (s.dropCores r) := h.updAcc (tabClear_wf _ _ h.acc)
theorem MemWf.clearAbandon {r} (h : MemWf s) : MemWf (s.clearAbandon r) := .ite h.setW1c.setFld.updTiles.clrBits h
theorem MemWf.clearFailRec {q} (h : MemWf s) : MemWf (s.clearFailRec q) := h.ledger
theorem MemWf.clearRows {r c} (h : MemWf s) : MemWf (s.clearRows r c) :=
  .ite (.updTiles (h.foldl fun _ _ ht => ht.zeroRows)) (h.foldl fun _ _ ht => ht.zeroRows)
theorem MemWf.execClearDone {r ok1 ok2} (h : MemWf s) : OutWf (execClearDone r ok1 ok2 s) := by
  unfold Machine.execClearDone
  split
  · exact .next h
  · extract_lets _ s0 _ _ _ s3
    have hs0 : MemWf s0 := .ite h.dropCores h
    have hs3 : MemWf s3 := by
      unfold s3
      split
      · exact hs0.clearRows.updTiles.clrEnd.spdReset.foldBist
      · exact hs0.clearRows.updTiles.clrEnd.spdReset.foldBist
      · exact hs0.clearRows.updTiles.clrEnd.spdReset.foldBist.setBit
      · exact hs0.clearRows.updTiles.clrEnd
    exact .ite (.next hs3.clrBits.heldRun) (.next hs3.setBit.updTiles.clrBits.heldRun.clearFailRec)
theorem MemWf.execBistRowStart {c} (h : MemWf s) : OutWf (execBistRowStart c s) := .ite (.next h.setBist.setFld.bistBits) (.next h)
theorem MemWf.execBistRowRelease {c marchOk} (h : MemWf s) : OutWf (execBistRowRelease c marchOk s) := by
  unfold Machine.execBistRowRelease
  extract_lets _ copied marched
  have hcopied : MemWf copied := h.foldl fun _ _ ht => ht.bufTake
  have hmarched : MemWf marched := hcopied.dropBytes
  split
  · exact .next h
  · split
    · exact .next hmarched.testRestore.testRelease.bistBits
    · exact .next hmarched.setBist.setFld.setBit.bistBits.detectCore
/-! ### Sessions -/
theorem MemWf.setSess {d id x} (h : MemWf s) : MemWf (s.setSess d id x) := h.upd
theorem MemWf.countSess {d} (h : MemWf s) : MemWf (s.countSess d) := h.wrP
theorem MemWf.postRec {p} (h : MemWf s) : MemWf (s.postRec p) := .ite h.upd h.bump
theorem MemWf.giveEntries {d n} (h : MemWf s) : MemWf (s.giveEntries d n) := h.upd
theorem MemWf.postFailure {i code fate} (h : MemWf s) : MemWf (s.postFailure i code fate) :=
  .ite h.postRec.bumpP.bumpP h.postRec.bumpP
theorem MemWf.postEventRec {d code session} (h : MemWf s) : MemWf (s.postEventRec d code session) := .ite h.setW1c.upd h.postRec
/-! ### Tiers -/
theorem MemWf.hbmLast {ctl o ue} (h : MemWf s) : MemWf (s.hbmLast ctl o ue) := h.wr
theorem MemWf.hbmCorrected {o} (h : MemWf s) : MemWf (s.hbmCorrected o) := h.bump.hbmLast.detectUnit
theorem MemWf.markBad {o} (h : MemWf s) : MemWf (s.markBad o) := h.updMem
theorem MemWf.unitEccs : ∀ {es o} {s : State}, MemWf s → MemWf (s.unitEccs o es)
  | [], _, _, h => h
  | e :: _, o, s, h => by
    unfold State.unitEccs
    extract_lets s1
    have hs1 : MemWf s1 := by
      unfold s1
      cases e with
      | clean => exact .ite h h
      | corrected => exact .ite h h.hbmCorrected
      | uncorrectable => exact .ite h h.markBad
    exact hs1.unitEccs
theorem MemWf.hbmServe {d a acc ecc} (h : MemWf s) : OutWf (s.hbmServe d a acc ecc) := by
  unfold State.hbmServe
  split
  · split
    · exact .ite (.next h.answer) (.ite (.next h.refuse) (.next h.unitEccs.hbmRead.answer))
    · exact .ite (.next h.answer) (.ite (.next h.refuse) (.next h.hbmWrite.answer))
    · exact .next h.refuse
  · exact .next h.refuse
theorem MemWf.execHbmAccess {d a acc ecc} (h : MemWf s) : OutWf (execHbmAccess d a acc ecc s) := by
  unfold Machine.execHbmAccess
  extract_lets _ hit
  have hserve := h.injDue.hbmServe (d := d) (a := a) (acc := acc)
    (ecc := takePad .clean ((s.rd64 .inj INJ_ADDR_L).toNat / 64 - a.toNat / 64) ecc ++ [hit])
  refine .ite h.hbmServe (.ite h.injDue.hbmServe ?_)
  split
  · next heq => exact .next (MemWf.updMem (heq ▸ hserve : OutWf (.next _))).injMark.injFired
  · exact hserve
theorem MemWf.execHbmScrubTick {ctl ecc} (h : MemWf s) : OutWf (execHbmScrubTick ctl ecc s) := by
  unfold Machine.execHbmScrubTick
  extract_lets
  split
  · exact .next h
  · split
    · exact .next h.updMem
    · exact .next h.updMem.hbmCorrected
    · exact .next h.updMem.markBad.bump.hbmLast.detectUnit
theorem MemWf.execHbmSelfRefreshEntry {ctl} (h : MemWf s) : OutWf (execHbmSelfRefreshEntry ctl s) :=
  .ite (.next h.setFld.pkgFollow) (.next h)
theorem MemWf.execHbmSelfRefreshExit {ctl} (h : MemWf s) : OutWf (execHbmSelfRefreshExit ctl s) := .next h.hbmAwake
theorem MemWf.dropPage {d p} (h : MemWf s) : MemWf (s.dropPage d p) := by
  unfold State.dropPage
  extract_lets
  split
  · exact h.freeFrame
  · exact h.useFrames.updMem
  · exact h.useFrames
theorem MemWf.retirePage {d p mine} (h : MemWf s) : MemWf (s.retirePage d p mine) := .ite h.updMem h.dropPage
theorem MemWf.freePrefix {d i} (h : MemWf s) : MemWf (s.freePrefix d i) :=
  .setPrefix (.dirFree (h.foldl fun _ _ ht => ht.retirePage.setShared))
theorem MemWf.derefPrefix {d i} (h : MemWf s) : MemWf (s.derefPrefix d i) := .ite h.freePrefix h.setPrefix
theorem MemWf.derefSession {d slot} (h : MemWf s) : MemWf (s.derefSession d slot) := .updMem (h.foldl fun _ _ ht => ht.derefPrefix)
theorem MemWf.freeTables {d slot} (h : MemWf s) : MemWf (s.freeTables d slot) := by
  unfold State.freeTables
  extract_lets s0 s1
  have hs0 : MemWf s0 := h.foldl fun _ _ ht => .setPte (.ite ht ht.retirePage)
  have hs1 : MemWf s1 := by
    unfold s1
    split
    · exact hs0
    · exact hs0.dirFree.setCtx
  exact hs1.derefSession.updMem
theorem MemWf.markCold {d slot} (h : MemWf s) : MemWf (s.markCold d slot) := by
  unfold State.markCold
  extract_lets s1
  have hs1 : MemWf s1 := h.foldl fun _ _ ht => ht.setPte
  split
  · exact h
  · exact hs1.setCtx.bumpP
theorem MemWf.goCold {d slot} (h : MemWf s) : MemWf (s.goCold d slot) := by
  unfold State.goCold
  extract_lets
  split
  · exact h
  · exact .ite h (.ite h.markCold.freeTables.setSess.postEventRec.upd h.markCold.upd)
theorem MemWf.coldArrives {d slot} (h : MemWf s) : MemWf (s.coldArrives d slot) :=
  .ite h.goCold (by split; exacts [h, .freeTables (.ite h h.markCold)])
theorem MemWf.losePages {test} (h : MemWf s) : MemWf (s.losePages test) := by
  unfold State.losePages
  extract_lets s1
  have hs1 : MemWf s1 := h.foldl fun _ _ ht => ht.goCold
  refine hs1.foldl fun t e ht => ?_
  split
  · exact ht
  · exact .ite ht ht.retirePage.setShared.setPrefix
theorem MemWf.controllerFailed {ctl} (h : MemWf s) : MemWf (s.controllerFailed ctl) := h.setFld.detectUnit.losePages
theorem MemWf.tierDone {d status} (h : MemWf s) : MemWf (s.tierDone d status) := h.wrP
theorem MemWf.tellPeers {d kind data} (h : MemWf s) : MemWf (s.tellPeers d kind data) := h.upd
theorem MemWf.tellAll {d m} (h : MemWf s) : MemWf (s.tellAll d m) := h.upd
theorem MemWf.execPublish {d session len} (h : MemWf s) : OutWf (execPublish d session len s) := by
  unfold Machine.execPublish
  extract_lets
  split
  · exact .next h.tierDone
  · split
    · exact .next h.upd
    · split
      · exact .next h.tierDone
      · exact .ite (.next h.tierDone) (.ite (.next h.tierDone) (.next h.updMem.wrP.tellPeers))
theorem MemWf.pageBytes {d p} (h : MemWf s) : MemWf (s.pageBytes d p).2 := by
  unfold State.pageBytes
  split
  · split
    · exact h.sliceRead
    · exact h
  · exact h.hbmRead
  · exact h
theorem MemWf.copyPage {d p die valid} (h : MemWf s) : MemWf (s.copyPage d p die valid).2 := by
  unfold State.copyPage
  extract_lets
  split
  · exact h.takeFrame
  · exact .ite h.takeFrame.pageBytes.hbmWrite.updMem h.takeFrame.pageBytes.hbmWrite
theorem MemWf.putMoves {m} (h : MemWf s) : MemWf { s with pageMoves := m } := h.updMem
theorem MemWf.sharePages {d index len home} : ∀ {l next} {s : State}, MemWf s → MemWf (s.sharePages d index len home l next).2
  | [], _, _, h => h
  | (_, _) :: _, _, s, h => by
    unfold State.sharePages
    extract_lets _ _ _ s1 s2
    have hs1 : MemWf s1 := h.setShared.setPte
    have hs2 : MemWf s2 := hs1.putMoves
    split
    · exact .snd h.sharePages
    · split
      · exact .snd hs2.sharePages
      · split
        · split
          · exact .snd h.copyPage
          · exact .snd h.copyPage.setShared.sharePages
        · exact h.sharePages
theorem MemWf.layPrefix {d home table} (h : MemWf s) : MemWf (s.layPrefix d home table).2 := .foldlSnd h fun _ _ ht => ht.dirSet
theorem MemWf.releasePrefix {d i} (h : MemWf s) : MemWf (s.releasePrefix d i) := h.setPrefix.derefPrefix
theorem MemWf.publishFails {d i} (h : MemWf s) : MemWf (s.publishFails d i) :=
  .ite (.tellAll (.ite h.updMem.tierDone.releasePrefix h.updMem.tierDone)) h
theorem MemWf.execPublishAtPackage {d session len index} (h : MemWf s) :
    OutWf (execPublishAtPackage d session len index s) := by
  unfold Machine.execPublishAtPackage
  extract_lets
  split
  · exact .next h
  · extract_lets _ _ s1
    have hs1 : MemWf s1 := h.sharePages.foldl fun _ _ ht => ht.setPrefix
    exact .ite (.next h) (.ite (.next (.ite h.publishFails h.upd)) (.next hs1.layPrefix.setPrefix.updMem))
theorem MemWf.execPublishResult {d index} (h : MemWf s) : OutWf (execPublishResult d index s) :=
  .ite (.ite (.next h.updMem.wrP.wrP.tierDone) (.next h.updMem.tierDone)) (.next h)
theorem MemWf.execRelease {d handle} (h : MemWf s) : OutWf (execRelease d handle s) := by
  unfold Machine.execRelease
  split
  · exact .next h.tierDone
  · split
    · exact .next h.tierDone
    · exact .ite (.next h.releasePrefix.tellAll.tierDone) (.next h.upd.tierDone)
theorem MemWf.execAddHostBuffer {d a} (h : MemWf s) : OutWf (execAddHostBuffer d a s) :=
  .ite (.next h.tierDone) (.ite (.next h.tierDone) (.next h.updMem.tierDone))
theorem MemWf.execWithdrawHostBuffer {d a} (h : MemWf s) : OutWf (execWithdrawHostBuffer d a s) :=
  .ite (.next h.tierDone) (by split; exacts [.next h.tierDone, .ite (.next h.tierDone) (.next h.updMem.tierDone)])
theorem MemWf.borrow (h : MemWf s) : MemWf s.borrow := by
  unfold State.borrow
  split
  · exact h
  · exact h.foldl fun _ _ ht => .ite ht ht.draw.fabRequest
theorem MemWf.loseDonors {gone} (h : MemWf s) : MemWf (s.loseDonors gone) := by
  unfold State.loseDonors
  split
  · exact h
  · exact .ite h h.losePages
theorem MemWf.sendPage {d tier frame bytes} (h : MemWf s) : MemWf (s.sendPage d tier frame bytes) :=
  .ite (by split; exacts [h, h.foldl fun _ _ ht => ht.fabRequest]) (by split; exacts [h, h.upd])
theorem MemWf.askPage {d tier frame} (h : MemWf s) : MemWf (s.askPage d tier frame) :=
  .ite (by split; exacts [h, h.foldl fun _ _ ht => ht.fabRequest]) (.ite (by split; exacts [h, h.upd]) h)
theorem MemWf.setMovePte {m p} (h : MemWf s) : MemWf (s.setMovePte m p) := by
  unfold State.setMovePte
  split
  · exact h.setPte
  · exact h.setShared
theorem MemWf.startMove {m} (h : MemWf s) : MemWf (s.startMove m) := by
  unfold State.startMove
  split
  · exact h
  · exact .ite h h.setMovePte.updMem.askPage
theorem MemWf.losePage {m} (h : MemWf s) : MemWf (s.losePage m) := by
  unfold State.losePage
  extract_lets s1
  have hs1 : MemWf s1 := h.foldl fun _ _ ht => ht.goCold
  split
  · exact hs1
  · split
    · exact hs1
    · exact hs1.dropPage.setShared.setPrefix
theorem MemWf.landPage {d tier dest bytes} (h : MemWf s) : MemWf (s.landPage d tier dest bytes) := by
  unfold State.landPage
  split
  · split
    · exact h.useFrames.sliceWrite
    · exact h
  · exact h.grantFrame.hbmWrite
  · exact h.useFrames.updMem.sendPage
theorem MemWf.promote {d slot cause} (h : MemWf s) : MemWf (s.promote d slot cause) :=
  .foldl (by split; exacts [h, h.updMem]) fun _ _ ht => ht.startMove
theorem MemWf.promoLate {d slot} (h : MemWf s) : MemWf (s.promoLate d slot) := by
  unfold State.promoLate
  split
  · exact h
  · exact .ite (.ite h.updMem.bumpP.hist h.updMem) h
theorem MemWf.endSuspends (h : MemWf s) : MemWf s.endSuspends := h.updMem
theorem MemWf.forkCopy {w} (h : MemWf s) : MemWf (s.forkCopy w) := by
  unfold State.forkCopy
  split
  · extract_lets
    split
    · exact h.copyPage.updMem
    · exact h.copyPage.setPte
  · exact h
theorem MemWf.forkRetry (h : MemWf s) : MemWf s.forkRetry := h.updMem.foldl fun _ _ ht => ht.forkCopy
theorem MemWf.tierFollow (h : MemWf s) : MemWf s.tierFollow := h.foldl fun _ _ ht => ht.wr.setBit
theorem MemWf.hbmReady (h : MemWf s) : MemWf s.hbmReady := .setBit (h.foldl fun _ _ ht => .ite ht.setFld.setBit ht)
theorem MemWf.demote {m} (h : MemWf s) : MemWf (s.demote m) := .ite h.startMove (.ite h.borrow h)
theorem MemWf.execBackgroundDemotion {tier} (h : MemWf s0) : OutWf (execBackgroundDemotion tier s0) := by
  unfold Machine.execBackgroundDemotion
  extract_lets
  split
  · exact .next h.endSuspends
  · split
    · exact .next h.endSuspends.demote
    · split
      · exact .next h.endSuspends.updMem
      · split
        · exact .next h.endSuspends.updMem
        · exact .ite (.next h.endSuspends.updMem.losePage) (.next h.endSuspends.updMem.demote)
theorem MemWf.moveOn {m} (h : MemWf s) : MemWf (s.moveOn m) := .ite h.startMove (.ite h.startMove h)
theorem MemWf.execPageMoveComplete {move read dest} (h : MemWf s) : OutWf (execPageMoveComplete move read dest s) := by
  unfold Machine.execPageMoveComplete
  extract_lets
  split
  · exact .next h
  · split
    · exact .next h.updMem.dropPage
    · split
      · exact .next h.updMem
      · extract_lets _ _ _ _ _ s3 s4 s5
        have hs3 : MemWf s3 := by
          unfold s3
          split
          · exact h.updMem.pageBytes.dropPage.landPage.setMovePte.bumpP
          · exact h.updMem.pageBytes.dropPage.landPage.setMovePte
        have hs4 : MemWf s4 := .ite hs3.updMem hs3
        have hs5 : MemWf s5 := hs4.foldl fun _ _ ht => ht.promoLate
        split
        · exact .next h.updMem.pageBytes.setMovePte.losePage
        · split
          · exact .next h.updMem.pageBytes.bump.detectUnit.setMovePte.losePage
          · exact .ite (.next h) (.next hs5.moveOn.endSuspends.forkRetry)
theorem MemWf.execPromotionStart {d session} (h : MemWf s) : OutWf (execPromotionStart d session s) := by
  unfold Machine.execPromotionStart
  split
  · exact .next h
  · exact .ite (.next h) (.ite (.next h.updMem) (.next h.promote))
theorem MemWf.execPinExpiry {d session} (h : MemWf s) : OutWf (execPinExpiry d session s) := .next h.updMem
/-! ### Drover -/
theorem MemWf.setDrv {e d c} (h : MemWf s) : MemWf (s.setDrv e d c) := h.upd
theorem MemWf.setWstate {d w v} (h : MemWf s) : MemWf (s.setWstate d w v) := h.foldl fun _ _ ht => ht.setFld
theorem MemWf.setWset {d w x} (h : MemWf s) : MemWf (s.setWset d w x) := h.upd
theorem MemWf.emptyWset {d w} (h : MemWf s) : MemWf (s.emptyWset d w) :=
  .setWstate (.setWset (by split; exacts [h, h.foldl fun _ _ ht => ht.foldl fun _ _ hu => hu.freeFrame]))
theorem MemWf.tellWstate {d w v} (h : MemWf s) : MemWf (s.tellWstate d w v) := h.setWstate.tellAll
theorem MemWf.damageWset {d w addrs} (h : MemWf s) : MemWf (s.damageWset d w addrs) := .tellWstate (by split; exacts [h, h.setWset])
theorem MemWf.drvFollow {e d} (h : MemWf s) : MemWf (s.drvFollow e d) :=
  .ite (.ite h h.setFld.setFld) (.setFld (.setFld (.ite h h.setFld.setFld)))
theorem MemWf.failStart {d start code} (h : MemWf s) : MemWf (s.failStart d start code) := by
  unfold State.failStart
  split
  · exact h.upd
  · exact h
theorem MemWf.stopStep {d r start} (h : MemWf s) : MemWf (s.stopStep d r start) := .ite (h.foldl fun _ _ ht => ht.coreStop) h
theorem MemWf.streamFail {e d key x code grans} (h : MemWf s) : MemWf (s.streamFail e d key x code grans) := by
  unfold State.streamFail
  extract_lets _ _ _ _ _ s4 s5
  have hs4 : MemWf s4 := .ite h.setDrv.wrP.bumpP.setBit.ledger.damageWset h.setDrv.wrP.bumpP.setBit.ledger
  have hs5 : MemWf s5 := by
    unfold s5
    split
    · exact hs4.stopStep
    · exact hs4
  exact hs5.failStart.drvFollow
/-! In the next three proofs an instruction is unfolded by its constant and not by its equation: to check the equation, the kernel
would work out the table of streams. -/
theorem MemWf.execStreamStart {e d} (h : MemWf s) : OutWf (execStreamStart e d s) := by
  generalize hf : @Machine.execStreamStart = f
  delta Machine.execStreamStart at hf
  subst hf
  beta_reduce
  split
  · exact .next h
  · extract_lets -underBinder
    split
    · exact .next h
    · extract_lets _ _ _ _ _ s1
      have hs1 : MemWf s1 := h.setDrv
      split
      · exact .next hs1.streamFail
      · exact .next hs1.setDrv.drvFollow
theorem MemWf.turnOn {e d key} (h : MemWf s) : MemWf (s.turnOn e d key) := h.setDrv
theorem MemWf.turnEnd {e d} (h : MemWf s) : MemWf (s.turnEnd e d) := by
  unfold State.turnEnd
  extract_lets _ s1
  have hs1 : MemWf s1 := h.setDrv
  split
  · exact hs1
  · exact hs1.foldl fun _ _ ht => ht.setDrv
theorem MemWf.kibWritten {e d n} (h : MemWf s) : MemWf (s.kibWritten e d n) := h.bumpP.charge.upd
theorem MemWf.laySlice {e d r core o bs} (h : MemWf s) : MemWf (s.laySlice e d r core o bs).2 := by
  unfold State.laySlice
  extract_lets
  split
  · split
    · exact h.portWrite
    · exact h.portWrite.kibWritten
  · exact h.bump.refuseRec
theorem MemWf.layRaw {e d r t} : ∀ {k p bs} {s : State}, MemWf s → MemWf (s.layRaw e d r t k p bs).2
  | 0, _, _, _, h => h
  | _ + 1, _, _, _, h => by
    unfold State.layRaw
    extract_lets
    split
    · exact h
    · split
      · exact h.laySlice
      · exact h.laySlice.layRaw
/-- A turn that comes to an end of its chunk leaves a state whose memories are in canonical form. -/
theorem MemWf.layChunk {e d r t a} (h : MemWf s) : ∀ x ∈ s.layChunk e d r t a, MemWf x.state := by
  unfold State.layChunk
  extract_lets _ _ _ _ rejected
  have hrejected : MemWf rejected.state := h.bump
  intro x hx
  split at hx
  · simp at hx
  · split at hx
    · rwa [← Option.some.inj hx]
    · split at hx
      · simp at hx
      · split at hx
        · rwa [← Option.some.inj hx]
        · rw [← Option.some.inj hx]
          exact h.laySlice
theorem MemWf.turnDone {x : TurnRes} {e d} (h : MemWf x.state) : MemWf (x.done e d) := .ite h.turnEnd.streamFail h.turnEnd.setDrv
theorem MemWf.takeGranule {e d r a bytes} (h : MemWf s) : MemWf (s.takeGranule e d r a bytes) := by
  unfold State.takeGranule
  extract_lets
  split
  · exact MemWf.turnDone h.layRaw
  · split
    · next hx => exact (h.layChunk _ hx).turnDone
    · exact h.setDrv
theorem MemWf.execChunkFetch {e d stream g} (h : MemWf s) : OutWf (execChunkFetch e d stream g s) := by
  generalize hf : @Machine.execChunkFetch = f
  delta Machine.execChunkFetch at hf
  subst hf
  beta_reduce
  extract_lets
  split
  · exact .next h
  · extract_lets _ _ s0 _ _ x w s1 _ _ _ _ _ fails _ s2
    have hs0 : MemWf s0 := h.turnOn
    have hs1 : MemWf s1 := hs0.read.read.bump.bumpP
    have hfails : ∀ {t code}, MemWf t → MemWf (fails t code) := fun ht => .settleAll (MemWf.turnDone ht)
    have hs2 : MemWf s2 := .ite hs1 hs1.bump.ledger
    split
    · exact .next h
    · split
      · exact .next h.streamFail.settleAll
      · split
        · exact .next h.streamFail.settleAll
        · split
          · next hx =>
            split at hx
            · exact .next (hs0.layChunk _ hx).turnDone.settleAll
            · simp at hx
          · refine .ite (.next (.settleAll (MemWf.turnDone hs0))) (.ite (.next (hfails hs1)) (.ite (.next hs1.bump.damageWset)
              (.ite (.next (hfails hs1.bump)) (.next hs2.takeGranule.settleAll))))
theorem MemWf.execStreamEnd {e d stream} (h : MemWf s) : OutWf (execStreamEnd e d stream s) := by
  unfold Machine.execStreamEnd
  extract_lets
  split
  · exact .next h
  · exact .next h.setDrv.drvFollow
theorem MemWf.execStreamReadyPoint {e d stream} (h : MemWf s) : OutWf (execStreamReadyPoint e d stream s) := by
  generalize hf : @Machine.execStreamReadyPoint = f
  delta Machine.execStreamReadyPoint at hf
  subst hf
  beta_reduce
  extract_lets
  split
  · exact .next h
  · exact .ite (.next h) (.next h.bumpP.detectUnit)
theorem MemWf.execBufferRelease {e d layer} (h : MemWf s) : OutWf (execBufferRelease e d layer s) := .next h.setDrv
theorem MemWf.execCancellation {e d stream start} (h : MemWf s) : OutWf (execCancellation e d stream start s) := by
  generalize hf : @Machine.execCancellation = f
  delta Machine.execCancellation at hf
  subst hf
  beta_reduce
  extract_lets
  split
  · exact .next h.upd
  · exact .ite (.next h.upd) (.next h.upd.setDrv.bumpP.drvFollow)
theorem MemWf.drvCtrl {m e d} {f : State → State} (h : MemWf s) (hf : ∀ t0, MemWf t0 → MemWf (f t0)) :
    MemWf (s.drvCtrl m e d f) :=
  .ite ((hf _ h).answer) h.permissionError
theorem MemWf.drvStop {e d} (h : MemWf s) : MemWf (s.drvStop e d) := h.setDrv.setFld.drvFollow
theorem MemWf.drvGo {e d} (h : MemWf s) : MemWf (s.drvGo e d) := .ite h.setFld.drvFollow h
theorem MemWf.execDrvStop {m e d} (h : MemWf s) : OutWf (execDrvStop m e d s) := .next (h.drvCtrl fun _ ht => ht.drvStop)
theorem MemWf.execDrvGo {m e d replay} (h : MemWf s) : OutWf (execDrvGo m e d replay s) :=
  .next (h.drvCtrl fun _ ht => ht.drvGo)
theorem MemWf.execDrvErrAck {m e d} (h : MemWf s) : OutWf (execDrvErrAck m e d s) := .next (h.drvCtrl fun _ ht => ht.setBit)
theorem MemWf.drvPlan {e d a} (h : MemWf s) : MemWf (s.drvPlan e d a) := h.wr64.setDrv.drvFollow
theorem MemWf.execDrvPlanWrite {m e d a} (h : MemWf s) : OutWf (execDrvPlanWrite m e d a s) :=
  .ite (.next h.drvPlan.answer) (.next h.permissionError)
theorem MemWf.execDrvShareWrite {m e d v} (h : MemWf s) : OutWf (execDrvShareWrite m e d v s) :=
  .ite (.next h.permissionError) (.next h.wr.answer)
theorem MemWf.drvClear {e d} (h : MemWf s) : MemWf (s.drvClear e d) :=
  .upd (.drvFollow (.resetWin (.setDrv (h.foldl fun _ _ ht => ht.emptyWset))))
theorem MemWf.execDrvDyeClear {e d} (h : MemWf s) : OutWf (execDrvDyeClear e d s) := .next h.drvClear.setDrv.drvFollow.resetWin
theorem MemWf.takeRun {d die n st} (h : MemWf s) : MemWf (s.takeRun d die n st).2 := by
  unfold State.takeRun
  extract_lets
  split
  · exact h.draw.foldl fun _ _ ht => ht.grantFrame
  · exact h.draw
theorem MemWf.takeRuns {d n st} : ∀ {dies l} {s : State}, MemWf s → MemWf (s.takeRuns d n st dies l).2
  | [], _, _, h => h
  | _ :: _, _, _, h => by
    unfold State.takeRuns
    extract_lets
    split
    · exact h.takeRun.takeRuns
    · exact h.takeRun.foldl fun _ _ ht => ht.foldl fun _ _ hu => hu.freeFrame
theorem MemWf.execManifestCheck {d mf} (h : MemWf s) : OutWf (execManifestCheck d mf s) := by
  unfold Machine.execManifestCheck
  refine .ite (.next h.ledger) (.next (h.foldl fun t x ht => .ite ht ?_))
  extract_lets _ _ f
  have hf : MemWf f.2 := ht.takeRuns
  split
  · exact hf
  · exact hf.setWset.setWstate
theorem MemWf.writeCrcs {d o n} (h : MemWf s) : MemWf (s.writeCrcs d o n) :=
  h.foldl fun _ _ ht => ht.foldl fun _ _ hu => hu.foldl fun _ _ hv => .ite hv.hbmWrite hv
theorem MemWf.drainFollow (h : MemWf s) : MemWf s.drainFollow := h.foldl fun _ _ ht => ht.setBit
theorem MemWf.writeSet {d x} : ∀ {k o bs} {s : State}, MemWf s → MemWf (s.writeSet d x k o bs)
  | 0, _, _, _, h => h
  | _ + 1, _, _, _, h => by
    unfold State.writeSet
    split
    · exact h
    · exact h.hbmWrite.writeCrcs.writeSet
theorem MemWf.wsetDone {d w x} (h : MemWf s) : MemWf (s.wsetDone d w x) := by
  unfold State.wsetDone
  extract_lets _ _ s1
  have hs1 : MemWf s1 := .ite (.ite h.writeSet (h.foldl fun _ _ ht => ht.writeSet)) h
  exact .ite hs1.setWset.tellWstate.upd.drainFollow hs1.setWset.tellWstate
theorem MemWf.forwardUnit {d unit dest data} (h : MemWf s) : MemWf (s.forwardUnit d unit dest data) :=
  h.foldl fun _ _ ht => .ite (by split; exacts [ht.overLink.upd, ht]) ht
theorem MemWf.execLoadUnit {d unit data hash} (h : MemWf s) : OutWf (execLoadUnit d unit data hash s) := by
  unfold Machine.execLoadUnit
  split
  · exact .next h
  · extract_lets
    split
    · exact .next h
    · extract_lets
      split
      · exact .next h.forwardUnit
      · extract_lets s2
        have hs2 : MemWf s2 := .ite h.forwardUnit.setWset h.forwardUnit.writeSet.setWset
        split
        · exact .next h.forwardUnit
        · split
          · split
            · exact .ite (.next h.forwardUnit.tellWstate) (.next h.forwardUnit.emptyWset.tellWstate)
            · exact .next h.forwardUnit.setWset.tellPeers
          · exact .ite (.next hs2.wsetDone) (.next hs2)
theorem MemWf.repairWset {d w} (h : MemWf s) : MemWf (s.repairWset d w) := by
  unfold State.repairWset
  split
  · exact h
  · exact .ite h (.ite h.setWset.setWstate.wsetDone (h.setWset.setWstate.foldl fun _ _ ht => ht.tellPeers))
theorem MemWf.execWeightSetRepair {d w} (h : MemWf s) : OutWf (execWeightSetRepair d w s) :=
  .ite (.next h) (.next h.tellAll.repairWset)
theorem MemWf.hearWstate {sl d w v} (h : MemWf s0) : MemWf (s0.hearWstate sl d w v) :=
  .ite h.upd.setWstate (.ite h.upd.emptyWset (.ite h.upd.repairWset h.upd))
theorem MemWf.drainWeights (h : MemWf s) : MemWf s.drainWeights := h.foldl fun _ _ ht => .ite ht.emptyWset.tellWstate ht
theorem MemWf.execWeightReplacement {d w} (h : MemWf s) : OutWf (execWeightReplacement d w s) :=
  .ite (.next h) (.next h.upd.drainFollow.drainWeights)
/-! ### Power -/
theorem MemWf.setRgnState {r v} (h : MemWf s) : MemWf (s.setRgnState r v) := h.setFld
theorem MemWf.setRgnTarget {r v} (h : MemWf s) : MemWf (s.setRgnTarget r v) := h.setFld
theorem MemWf.setRgnFreq {r f} (h : MemWf s) : MemWf (s.setRgnFreq r f) := h.setFld
theorem MemWf.pll {r b} (h : MemWf s) : MemWf (s.pll r b) := h.setBit
theorem MemWf.wakeClearing {r} (h : MemWf s) : MemWf (s.wakeClearing r) := h.atpClearStart.couClearStart.setFld.setFld.setBit
theorem MemWf.dieAwake {die} (h : MemWf s) : MemWf (s.dieAwake die) := h.foldl fun _ _ ht => ht.hbmAwake
theorem MemWf.beginWake {r from_ target} (h : MemWf s) : MemWf (s.beginWake r from_ target) :=
  .upd (.setRgnTarget (.setRgnState (.ite h.wakeClearing.dieAwake.setFld h)))
theorem MemWf.beginEntry {r target} (h : MemWf s) : MemWf (s.beginEntry r target) :=
  .setRgnFreq (.setRgnTarget (.setRgnState (.ite h.testsEnd h)))
theorem MemWf.pend {r target} (h : MemWf s) : MemWf (s.pend r target) := h.upd
theorem MemWf.rgnRequest {r target} (h : MemWf s) : MemWf (s.rgnRequest r target) := by
  unfold State.rgnRequest
  extract_lets
  split
  · exact h
  · split
    · exact h
    · split
      · exact h.pend
      · split
        · exact .ite h.setRgnTarget.pend h.pend
        · split
          · exact .ite h.setFld.pend h.pend
          · split
            · exact h.pend
            · split
              · exact h.setFld.pend.beginWake
              · exact .ite (.ite h.beginEntry.pend.pkgFollow h.pend) (.ite h.beginEntry.pend h.beginWake.pend)
theorem MemWf.execRegionPowerRequest {m r target} (h : MemWf s) : OutWf (execRegionPowerRequest m r target s) :=
  .ite (.next h.rgnRequest.answer) (.next h.permissionError)
theorem MemWf.offEntered {r} (h : MemWf s) : MemWf (s.offEntered r) := h.pll.dropCores.clearAbandon.foldBist.bistBits
theorem MemWf.execRegionEntryDone {r} (h : MemWf s) : OutWf (execRegionEntryDone r s) := by
  unfold Machine.execRegionEntryDone
  extract_lets _ _ _ _ s2
  have hs2 : MemWf s2 := .ite h.setRgnState.offEntered h.setRgnState
  split
  · split
    · exact .next hs2.pend.pkgFollow
    · split
      · exact .next hs2.setFld.pend.beginWake.pkgFollow
      · exact .ite (.next hs2.pend.rgnRequest.pkgFollow) (.next hs2.pkgFollow)
  · split
    · exact .next (.ite h.beginEntry.setRgnState.pend.offEntered.pkgFollow h.beginEntry.setRgnState.pend.pkgFollow)
    · exact .next h
theorem MemWf.putClears {now pend} (h : MemWf s) : MemWf { s with clrNow := now, clrPend := pend } := h.updTiles
theorem MemWf.wakeClear {r ok1 ok2} (h : MemWf s) : MemWf (s.wakeClear r ok1 ok2) :=
  h.dropCores.clearRows.setAtp.resetWin.setCou.resetWin.spdReset.foldBist.clrEnd.putClears.setBit.clrBits
theorem MemWf.applyTrim {r} (h : MemWf s) : MemWf (s.applyTrim r) := h.upd
theorem MemWf.failRegion {r} (h : MemWf s) : MemWf (s.failRegion r) := h.offEntered.setRgnState.setRgnFreq.updTiles
theorem MemWf.execRegionWakeDone {r clears} (h : MemWf s) : OutWf (execRegionWakeDone r clears s) := by
  unfold Machine.execRegionWakeDone
  extract_lets _ _ _ _ s1' _ s3
  have hs1' : MemWf s1' := .ite h.wakeClear h.setBit
  have hs3 : MemWf s3 := .ite hs1'.applyTrim.pll.setRgnState.setRgnFreq hs1'.applyTrim.pll.setRgnState
  split
  · exact .next h
  · split
    · exact .next h.wakeClear.failRegion.setBit.clearFailRec.pkgFollow
    · exact .ite (.next h.failRegion.upd.pkgFollow) (.next (.ite hs3.pend.rgnRequest.pkgFollow hs3.pkgFollow))
/-! ### Lanes -/
theorem MemWf.loadSet {r macc progs cores} (h : MemWf s) : MemWf (s.loadSet r macc progs cores) :=
  .foldl (h.foldl fun _ _ ht => ht.maccWrite) fun _ _ ht => .updTiles (.onCore (ht.foldl fun _ _ hu => hu.winWrite))
theorem MemWf.needSet {r prefill cls bucket} (h : MemWf s) : MemWf (s.needSet r prefill cls bucket) :=
  .ite h (by split; exacts [h, h.loadSet.upd])
theorem MemWf.loadPools {d} (h : MemWf s) : MemWf (s.loadPools d) := by
  unfold State.loadPools
  refine h.foldl fun t x ht => ?_
  extract_lets
  split
  · exact ht
  · exact ht.wr64.wr64.wr
theorem MemWf.pointTables {d} (h : MemWf s) : MemWf (s.pointTables d) := by
  unfold State.pointTables
  extract_lets
  split
  · exact h
  · exact h.foldl fun _ _ ht => ht.wr64
theorem MemWf.shapeFollow {d} (h : MemWf s) : MemWf (s.shapeFollow d) := h.loadPools.pointTables
/-! ### Pricing -/

theorem MemWf.demoteFor {d n} (h : MemWf s) : MemWf (s.demoteFor d n) := h.foldl fun _ _ ht => ht.demote
/-! ### Innkeeper -/
theorem MemWf.innFollow {d} (h : MemWf s) : MemWf (s.innFollow d) := h.wrP.wrP.wrP.wrP.wr.setBit.countSess
theorem MemWf.answerItem {i code time pricedEnd} (h : MemWf s) : MemWf (s.answerItem i code time pricedEnd) := h.postRec
theorem MemWf.refuseItem {i code earliest} (h : MemWf s) : MemWf (s.refuseItem i code earliest) := h.answerItem.bumpP.wrP.giveEntries
theorem MemWf.admitItem {i entries step start} (h : MemWf s) : MemWf (s.admitItem i entries step start) := h.bumpP.upd
theorem MemWf.putReserved {l} (h : MemWf s) : MemWf { s with reserved := l } := h.updMem
theorem MemWf.claimPages {d slot step layers base adds} (h : MemWf s) : MemWf (s.claimPages d slot step layers base adds) :=
  .promote (.ite h.demoteFor h.demoteFor.putReserved)
theorem MemWf.joinStep {i x p q} (h : MemWf s) : MemWf (s.joinStep i x p q) :=
  h.claimPages.tellAll.admitItem.upd.answerItem.innFollow
theorem MemWf.openStep {i x start q} (h : MemWf s) : MemWf (s.openStep i x start q) := h.upd.joinStep
theorem MemWf.admitStep {i0 x} (h : MemWf s) : MemWf (s.admitStep i0 x) := by
  unfold State.admitStep
  extract_lets
  split
  · split
    · exact h.refuseItem
    · exact h.refuseItem
    · exact h.refuseItem
  · refine .ite h.refuseItem ?_
    split
    · exact h.joinStep
    · exact h.openStep
    · exact h.refuseItem
theorem MemWf.placeSession {i len g} (h : MemWf s) : MemWf (s.placeSession i len g) := h.setSess.setCtx.countSess.upd
theorem MemWf.admitOpen {i} (h : MemWf s) : MemWf (s.admitOpen i) := by
  unfold State.admitOpen
  split
  · exact h.refuseItem
  · exact h.placeSession.answerItem.bumpP.giveEntries.innFollow
theorem MemWf.reportPlain {i committed} (h : MemWf s) : MemWf (s.reportPlain i committed) := h.postRec
theorem MemWf.forkTables {d slot index} (h : MemWf s) : MemWf (s.forkTables d slot index) :=
  .updMem (.setPrefix (h.demoteFor.foldl fun _ _ ht => by split; exacts [ht, .ite ht.setPte ht.forkCopy]))
theorem MemWf.admitFork {i} (h : MemWf s) : MemWf (s.admitFork i) := by
  unfold State.admitFork
  extract_lets
  split
  · exact h.refuseItem
  · split
    · exact h.refuseItem
    · extract_lets
      split
      · exact h.refuseItem
      · split
        · exact h.refuseItem
        · exact h.refuseItem
        · exact .ite h.refuseItem h.placeSession.forkTables.answerItem.reportPlain.tellAll.bumpP.giveEntries.innFollow
theorem MemWf.freeSession {d x} (h : MemWf s) : MemWf (s.freeSession d x) := h.freeTables.setCtx.setSess.countSess.upd
theorem MemWf.closeIfDone {d id} (h : MemWf s) : MemWf (s.closeIfDone d id) := by
  unfold State.closeIfDone
  extract_lets
  split
  · exact h
  · exact .ite (.innFollow (.freeSession (.upd (h.foldl fun _ _ ht => ht.reportPlain.giveEntries)))) h
theorem MemWf.admitClose {i x} (h : MemWf s) : MemWf (s.admitClose i x) := h.answerItem.admitItem.setSess.closeIfDone.innFollow
theorem MemWf.stopPromotion {d slot} (h : MemWf s) : MemWf (s.stopPromotion d slot) :=
  h.foldl fun _ _ ht => by split; exacts [ht, ht.setMovePte.updMem]
theorem MemWf.takeHint {d slot resume tier x} (h : MemWf s) : MemWf (s.takeHint d slot resume tier x) :=
  .ite h.updMem h.stopPromotion.updMem
theorem MemWf.admitHint {i x} (h : MemWf s) : MemWf (s.admitHint i x) := h.takeHint.tellAll.answerItem.bumpP.giveEntries.innFollow
theorem MemWf.refuseWeights {i} (h : MemWf s) : MemWf (s.refuseWeights i) := .ite h.draw.refuseItem h.refuseItem
theorem MemWf.takeItem {i} (h : MemWf s) : MemWf (s.takeItem i) := by
  have hopen : MemWf (if i.kind = 1 then s.admitOpen i else s.admitFork i) := .ite h.admitOpen h.admitFork
  have hother : ∀ x, MemWf (if s.stateBad i x then s.refuseItem i aSTATE allOnes64
      else if i.kind = 8 then s.admitClose i x
      else if i.kind = 5 ∨ i.kind = 6 then s.admitHint i x
      else if i.limitBad || s.lengthBad i x then s.refuseItem i aLIMIT allOnes64
      else if s.weightsBad i.dye then s.refuseWeights i
      else s.admitStep i x) := fun _ =>
    .ite h.refuseItem (.ite h.admitClose (.ite h.admitHint (.ite h.refuseItem (.ite h.refuseWeights h.admitStep))))
  unfold State.takeItem
  refine .ite h.refuseItem (.ite h.refuseItem (.ite h.refuseItem (.ite h.refuseItem (.ite h.refuseItem (.ite h.refuseItem
    (.ite h.refuseItem (.ite h.refuseItem (.ite ?_ ?_))))))))
  · exact .ite h.refuseItem (.ite h.refuseItem (.ite h.refuseWeights hopen))
  · split
    · exact h.refuseItem
    · exact hother _
theorem MemWf.takeFromInbox {d kind} (h : MemWf s) : MemWf (s.takeFromInbox d kind) := by
  unfold State.takeFromInbox
  split
  · exact h
  · exact .ite h h.upd.takeItem
theorem MemWf.execOpenSession {d} (h : MemWf s) : OutWf (execOpenSession d s) := .next h.takeFromInbox
theorem MemWf.execPrefill {d} (h : MemWf s) : OutWf (execPrefill d s) := .next h.takeFromInbox
theorem MemWf.execDecode {d} (h : MemWf s) : OutWf (execDecode d s) := .next h.takeFromInbox
theorem MemWf.execVerify {d} (h : MemWf s) : OutWf (execVerify d s) := .next h.takeFromInbox
theorem MemWf.execSuspend {d} (h : MemWf s) : OutWf (execSuspend d s) := .next h.takeFromInbox
theorem MemWf.execResume {d} (h : MemWf s) : OutWf (execResume d s) := .next h.takeFromInbox
theorem MemWf.execFork {d} (h : MemWf s) : OutWf (execFork d s) := .next h.takeFromInbox
theorem MemWf.execClose {d} (h : MemWf s) : OutWf (execClose d s) := .next h.takeFromInbox
/-! ### Steps -/
theorem MemWf.lowerValid {d p v} (h : MemWf s) : MemWf (s.lowerValid d p v) :=
  .ite (.ite h.hbmRead.hbmWrite h.hbmRead) (.ite (by split; exacts [.ite h.sliceRead.sliceWrite h.sliceRead, h]) h)
theorem MemWf.setLen {d slot len rollback} (h : MemWf s) : MemWf (s.setLen d slot len rollback) := by
  unfold State.setLen
  extract_lets s1 _ _ s2
  have hs1 : MemWf s1 := by
    unfold s1
    split
    · exact h
    · exact h.setCtx
  have hs2 : MemWf s2 := hs1.foldl fun _ _ ht => ht.dropPage.setPte
  exact .ite hs1 (hs2.foldl fun _ _ ht => ht.lowerValid)
theorem MemWf.tellLen {d slot len rollback} (h : MemWf s) : MemWf (s.tellLen d slot len rollback) := h.upd
theorem MemWf.finishItem {i} (h : MemWf s) : MemWf (s.finishItem i) := .drainWeights (.closeIfDone (.ite h.upd h.upd.closeIfDone))
theorem MemWf.failItem {i code fate} (h : MemWf s) : MemWf (s.failItem i code fate) := by
  unfold State.failItem
  extract_lets _ _ s3
  have hs3 : MemWf s3 := by
    unfold s3
    split
    · exact .ite h.postFailure.giveEntries h.postFailure.giveEntries.setLen.tellLen
    · exact h.postFailure.giveEntries
  exact .ite h.postFailure.upd hs3.finishItem
theorem MemWf.endPlan {d no} (h : MemWf s) : MemWf (s.endPlan d no) :=
  h.disarm.updMem.foldl fun _ _ ht => ht.foldl fun _ _ hu => hu.rgnRequest.upd
theorem MemWf.endStep {d no} (h : MemWf s) : MemWf (s.endStep d no) := h.endPlan.drainWeights.upd.innFollow
theorem MemWf.stopLane {d prefill} (h : MemWf s) : MemWf (s.stopLane d prefill) := h.foldl fun _ _ ht => ht.coreStop
theorem MemWf.endEarly {d no} (h : MemWf s) : MemWf (s.endEarly d no) := h.endStep.tellAll
theorem MemWf.stepEnds {d no} (h : MemWf s) : MemWf (s.stepEnds d no) :=
  .drainWeights (.endPlan (by split; exacts [.ite h.stopLane h, h]))
theorem MemWf.failStep {p code} (h : MemWf s) : MemWf (s.failStep p code) :=
  .endEarly (.ite (.stopLane (h.foldl fun _ _ ht => ht.failItem)) (h.foldl fun _ _ ht => ht.failItem))
theorem MemWf.dropEmpty {d} (h : MemWf s) : MemWf (s.dropEmpty d) := h.foldl fun _ _ ht => ht.endEarly
theorem MemWf.failNamed {d no session code} (h : MemWf s) : MemWf (s.failNamed d no session code) := by
  unfold State.failNamed
  split
  · exact h
  · exact h.failStep
  · exact .dropEmpty (h.foldl fun _ _ ht => ht.failItem)
theorem MemWf.setStep {p} (h : MemWf s) : MemWf (s.setStep p) := h.upd
theorem MemWf.execStepSeal {d step} (h : MemWf s) : OutWf (execStepSeal d step s) := by
  unfold Machine.execStepSeal
  split
  · exact .next h
  · exact .ite (.next h) (by split; exacts [.next h.setStep, .next h.setStep.upd.innFollow])
theorem MemWf.layPlan {p} (h : MemWf s) : MemWf (s.layPlan p) := .ite h (h.hbmWrite.foldl fun _ _ ht => ht.drvPlan)
theorem MemWf.rewritePlan {old p} (h : MemWf s) : MemWf (s.rewritePlan old p) := .ite h (.ite h.hbmWrite h.layPlan)
theorem MemWf.execStepPlan {p} (h : MemWf s) : OutWf (execStepPlan p s) := by
  unfold Machine.execStepPlan
  extract_lets old
  cases old with
  | none => exact .next (.armCmp (h.upd.layPlan.foldl fun _ _ ht => ht.rgnRequest))
  | some q => exact .next (.ite h.upd.rewritePlan h.upd.rewritePlan.disarm.armCmp)
theorem MemWf.startPage {d no slot layer page home start} (h : MemWf s) :
    MemWf (s.startPage d no slot layer page home start) := by
  unfold State.startPage
  refine .ite h ?_
  extract_lets
  split
  · exact h.takeFrame
  · exact h.takeFrame.setPte.putReserved
theorem MemWf.startPages {p} (h : MemWf s) : MemWf (s.startPages p) :=
  h.foldl fun _ _ ht => by split; exacts [ht, ht.foldl fun _ _ hu => hu.foldl fun _ _ hv => hv.startPage]
theorem MemWf.startRegion {p r} (h : MemWf s) : MemWf (s.startRegion p r) :=
  .ite h (.foldl (.needSet (h.foldl fun _ _ ht => .ite ht.onCore ht)) fun _ _ ht => ht.coreGo)
theorem MemWf.execStepStart {d step} (h : MemWf s) : OutWf (execStepStart d step s) := by
  unfold Machine.execStepStart
  split
  · exact .next h
  · extract_lets _ _ s2 s3
    have hs2 : MemWf s2 := h.upd.startPages.upd.foldl fun _ _ ht => ht.startRegion
    have hs3 : MemWf s3 := by
      unfold s3
      split
      · exact hs2.setStep
      · exact hs2
    exact .ite (.next h) (.next hs3.disarm.innFollow.pulse)
theorem MemWf.writePhases {r a c} (h : MemWf s) : MemWf (s.writePhases r a c) := h.phaseWrite.couPhaseWrite
theorem MemWf.misprice {d step slots} (h : MemWf s) : MemWf (s.misprice d step slots) :=
  h.foldl fun _ _ ht => .ite (ht.detectUnit.foldl fun _ _ hu => hu.failItem) ht.detectUnit.upd
theorem MemWf.walk {p r layer} (h : MemWf s) : MemWf (s.walk p r layer).2 := by
  unfold State.walk
  refine .foldlSnd h fun a w ha => ?_
  split
  · exact ha
  · split
    · exact ha
    · extract_lets -underBinder _ _ _ _ _ t
      have ht : MemWf t := ha.foldl fun u e hu => by
        extract_lets _ u1
        have hu1 : MemWf u1 := hu.setPte
        split
        · split
          · exact hu1.setShared
          · exact hu1
        · exact hu1
      exact ht
theorem MemWf.openPhase {s0 : State} {p r layer pt} (h : MemWf s0) : MemWf (s0.openPhase p r layer pt) := by
  unfold State.openPhase
  extract_lets s w
  have hs : MemWf s := .ite h.setBit h
  exact .writePhases (.ite hs.walk.misprice hs)
theorem MemWf.holdPhase {p r layer pt since} (h : MemWf s) : MemWf (s.holdPhase p r layer pt since) :=
  .upd (.ite h.writePhases.writePhases h)
theorem MemWf.startLate {q r} (h : MemWf s) : MemWf (s.startLate q r) := .ite h.upd.startRegion h
theorem MemWf.lateRegion {d r ns} (h : MemWf s) : MemWf (s.lateRegion d r ns) := .ite h.hist h.hist.upd
theorem MemWf.execPhasePoint {r step layer pt} (h : MemWf s0) : OutWf (execPhasePoint r step layer pt s0) := by
  unfold Machine.execPhasePoint
  split
  · exact .next h
  · extract_lets
    split
    · exact .next h
    · split
      · extract_lets
        split
        · exact .next h.startLate.upd
        · split
          · exact .next h.startLate.upd.openPhase.lateRegion
          · split
            · exact .next h.startLate.upd.openPhase.lateRegion.holdPhase
            · exact .next h.startLate.upd.openPhase.lateRegion.openPhase
      · exact .ite (.next h.startLate.holdPhase) (.next h.startLate.openPhase)
theorem MemWf.reportItem {p i alone} (h : MemWf s) : MemWf (s.reportItem p i alone) := by
  unfold State.reportItem
  extract_lets _ _ _ s0
  have hs0 : MemWf s0 := .hist (.ite h h.draw)
  split
  · exact h.finishItem
  · exact hs0.postRec.giveEntries.setSess.upd.setLen.tellLen.finishItem
theorem MemWf.applyLaneMoves (h : MemWf s) : MemWf s.applyLaneMoves := h.foldl fun _ _ ht => .ite ht.upd.shapeFollow ht
theorem MemWf.takeFails {d no} (h : MemWf s) : MemWf (s.takeFails d no).2 := h.upd
theorem MemWf.postFails (h : MemWf s) : MemWf s.postFails := h.foldl fun _ _ ht => .ite ht.upd.failNamed ht.upd.upd
theorem MemWf.execStepReport {d step} (h : MemWf s) : OutWf (execStepReport d step s) := by
  unfold Machine.execStepReport
  extract_lets
  split
  · exact .next h
  · extract_lets
    split
    · exact .next h
    · split
      · exact .next h.takeFails.upd.endPlan.drainWeights.applyLaneMoves
      · split
        · exact .next h.endPlan
        · extract_lets _ _ _ s2
          have hs2 : MemWf s2 := h.takeFails.bumpP.foldl fun _ _ ht => by split; exacts [ht.failItem, ht.reportItem]
          exact .ite (.next h) (.next hs2.bumpP.endStep.applyLaneMoves)
theorem MemWf.execReshareTick {d} (h : MemWf s0) : OutWf (execReshareTick d s0) := by
  unfold Machine.execReshareTick
  extract_lets
  split
  · exact .next h.applyLaneMoves
  · split
    · exact .next h.applyLaneMoves
    · split
      · exact .next h.applyLaneMoves
      · exact .ite (.next h.applyLaneMoves) (.next h.applyLaneMoves.upd.applyLaneMoves.tellAll.innFollow)
theorem MemWf.repriceStep {d no start code} : ∀ {n} {s : State}, MemWf s → MemWf (s.repriceStep d no start code n)
  | 0, _, h => h
  | _ + 1, _, h => by
    unfold State.repriceStep
    split
    · exact h
    · extract_lets
      split
      · exact .ite h.endEarly h.failStep
      · exact .ite (.ite h.setStep.upd h.setStep) (.repriceStep (h.foldl fun _ _ ht => ht.failItem))
theorem MemWf.repriceLane {d prefill code} (h : MemWf s) : MemWf (s.repriceLane d prefill code) :=
  .foldlFst h fun _ _ ht => by split; exacts [ht, by split; exacts [ht.failStep, ht.repriceStep.dropEmpty]]
theorem MemWf.execPriceChange {d cause} (h : MemWf s) : OutWf (execPriceChange d cause s) :=
  .ite (.next h.innFollow) (.next (.innFollow (.repriceLane (.repriceLane (.postEventRec (.ite h.postEventRec h))))))
theorem MemWf.execFreqAmend {d step f tsw} (h : MemWf s) : OutWf (execFreqAmend d step f tsw s) := by
  unfold Machine.execFreqAmend
  split
  · exact .ite (.next h) (.next (h.setStep.upd.rewritePlan.foldl fun _ _ ht => ht.failItem))
  · exact .next h
theorem MemWf.execFailGuardCheck {d tag} (h : MemWf s) : OutWf (execFailGuardCheck d tag s) :=
  .next (h.foldl fun _ _ ht => ht.failItem)
theorem MemWf.execItemFailure {d step code} (h : MemWf s) : OutWf (execItemFailure d step code s) := by
  unfold Machine.execItemFailure
  extract_lets
  split
  · exact .next h
  · extract_lets
    split
    · exact .next h.failStep
    · split
      · exact .next (.ite h h.failStep)
      · split
        · exact .next (.dropEmpty (h.foldl fun _ _ ht => ht.failItem))
        · split
          · exact .next (.dropEmpty (h.foldl fun _ _ ht => ht.failItem))
          · split
            · exact .next (.ite (h.foldl fun _ _ ht => ht.failItem) (.dropEmpty (h.foldl fun _ _ ht => ht.failItem)))
            · exact .next h
theorem MemWf.failDye {d code} (h : MemWf s) : MemWf (s.failDye d code) :=
  .ite (.foldl (h.foldl fun _ _ ht => ht.failStep) fun _ _ ht => ht.failItem) (h.foldl fun _ _ ht => ht.failStep)
theorem MemWf.regionFault {r} (h : MemWf s0) : MemWf (s0.regionFault r) := .foldl (.ite h h.upd) fun _ _ ht => ht.failStep
theorem MemWf.admission {bit on} (h : MemWf s) : MemWf (s.admission bit on) :=
  .ite h (.foldl (.ite (h.setBit.foldl fun _ _ ht => ht.postEventRec) h.setBit) fun _ _ ht => ht.innFollow)
theorem MemWf.execStopAdmit {m} (h : MemWf s) : OutWf (execStopAdmit m s) := .ite (.next h.permissionError) (.next h.admission.answer)
theorem MemWf.execResumeAdmit {m} (h : MemWf s) : OutWf (execResumeAdmit m s) :=
  .ite (.next h.permissionError) (.next h.admission.answer)
/-! ### Withdraw -/
theorem MemWf.tmxSwitch {n v} (h : MemWf s) : MemWf (s.tmxSwitch n v) := h.setFld.setBit.upd
theorem MemWf.withdraw (h : MemWf s) : MemWf s.withdraw := .foldl (.ite h.setBit h) fun _ _ ht => .ite ht.wr.tmxSwitch ht
theorem MemWf.tokenFollow {d} (h : MemWf s) : MemWf (s.tokenFollow d) := by
  unfold State.tokenFollow
  split
  · exact h.setBit.setFld.wr64
  · exact h.setFld.wr64
theorem MemWf.dropToken {d} (h : MemWf s) : MemWf (s.dropToken d) :=
  .ite h (.withdraw (.tokenFollow (.ite h.upd.ledger.setFld.setFld h.upd.ledger)))
/-! ### Partitions -/
theorem MemWf.setLoad {d l} (h : MemWf s) : MemWf (s.setLoad d l) := h.upd
theorem MemWf.refuseLoad {d code pkg sect ofs} (h : MemWf s) : MemWf (s.refuseLoad d code pkg sect ofs) :=
  h.wrP.wrP.setLoad.disarm
theorem MemWf.stopLoad {d code pkg sect ofs} (h : MemWf s) : MemWf (s.stopLoad d code pkg sect ofs) := h.refuseLoad.upd
theorem MemWf.setPartState {d v} (h : MemWf s) : MemWf (s.setPartState d v) := h.setFld
theorem MemWf.partFollow {d} (h : MemWf s) : MemWf (s.partFollow d) := .ite h h.setFld.setFld
theorem MemWf.setJob {d v} (h : MemWf s) : MemWf (s.setJob d v) := h.setFld
theorem MemWf.setOwner {r d ord} (h : MemWf s) : MemWf (s.setOwner r d ord) := h.wr
theorem MemWf.setMv {r v} (h : MemWf s) : MemWf (s.setMv r v) := h.setFld
theorem MemWf.setMove {r m} (h : MemWf s) : MemWf (s.setMove r m) := h.upd
theorem MemWf.setNext {r m} (h : MemWf s) : MemWf (s.setNext r m) := h.upd.setFld
theorem MemWf.stopRegion {r} (h : MemWf s) : MemWf (s.stopRegion r) :=
  .foldl (.couStop (.atpStop (h.foldl fun _ _ ht => ht.coreStop))) fun _ _ ht => ht.drvStop
theorem MemWf.stopJob {d} (h : MemWf s) : MemWf (s.stopJob d) := .upd (h.foldl fun _ _ ht => ht.stopRegion)
theorem MemWf.clearRegion {r cause} (h : MemWf s) : MemWf (s.clearRegion r cause) :=
  .ite (h.hwClear.atpClearStart.couClearStart.foldl fun _ _ ht => ht.drvClear) h.hwClear.atpClearStart.couClearStart
theorem MemWf.refuseMove {r code} (h : MemWf s) : MemWf (s.refuseMove r code) := h.setMv.setFld
theorem MemWf.startMove' {r m0} (h : MemWf s0) : MemWf (s0.startMove' r m0) := by
  unfold State.startMove'
  extract_lets _ _ _ s1
  have hs1 : MemWf s1 := .ite h.setMove.setFld.setFld.stopJob.setJob h.setMove.setFld.setFld.stopRegion
  split
  · exact h.setMove.setFld.setFld.setMv
  · split
    · exact hs1.setMove.setMv
    · exact .ite h.setMove.setFld.setFld.setMv.upd.setMove.armCmp h.setMove.setFld.setFld.setMv.setMove.upd
theorem MemWf.fixDrain {d at_} (h : MemWf s) : MemWf (s.fixDrain d at_) :=
  .ite h.upd.tellAll (h.foldl fun _ _ ht => by split; exacts [.ite ht.setMove.armCmp ht, ht])
theorem MemWf.orderMove {r dst loan} (h : MemWf s) : MemWf (s.orderMove r dst loan) :=
  .ite (.ite h.setFld h.setNext) (.ite h.refuseMove (.ite h.refuseMove (.ite h.setMove h.startMove')))
theorem MemWf.releaseMoves (h : MemWf s) : MemWf s.releaseMoves :=
  h.foldl fun _ _ ht => by split; exacts [.ite (.ite ht.startMove' ht.setMove.refuseMove) ht, ht]
theorem MemWf.execMove {m r toDye} (h : MemWf s) : OutWf (execMove m r toDye s) :=
  .ite (.next h.permissionError) (.next h.orderMove.answer)
theorem MemWf.execRegionClaim {d r} (h : MemWf s) : OutWf (execRegionClaim d r s) := by
  unfold Machine.execRegionClaim
  extract_lets
  split
  · exact .next h
  · split
    · exact .next h.setMove.setFld.upd
    · exact .ite (.next h.setFld) (.ite (.next h.orderMove) (.next h.orderMove.upd))
theorem MemWf.execDrainPoint {r} (h : MemWf s) : OutWf (execDrainPoint r s) := by
  unfold Machine.execDrainPoint
  split
  · exact .next h
  · exact .ite (.next h) (.next h.disarm.clearRegion.setMv)
theorem MemWf.endJob {d v} (h : MemWf s) : MemWf (s.endJob d v) := .ite h.setJob.upd h.setJob
theorem MemWf.hearHalted {d sl} (h : MemWf s) : MemWf (s.hearHalted d sl) := .ite h h.upd
theorem MemWf.jobDone {d} (h : MemWf s) : MemWf (s.jobDone d) := .ite h.endJob h
theorem MemWf.jobFaultHere {d} (h : MemWf s) : MemWf (s.jobFaultHere d) := h.endJob.foldl fun _ _ ht => ht.coreStop
theorem MemWf.chargeSave {d r} (h : MemWf s) : MemWf (s.chargeSave d r) := h.charge
theorem MemWf.setSave {d ord a} (h : MemWf s) : MemWf (s.setSave d ord a) := h.upd
theorem MemWf.shortHere {d} (h : MemWf s) : MemWf (s.shortHere d) := .ite h h.upd
theorem MemWf.execPreemptSaveDone {r} (h : MemWf s) : OutWf (execPreemptSaveDone r s) := by
  unfold Machine.execPreemptSaveDone
  split
  · exact .next h
  · exact .ite (.next h) (.next h.setSave.chargeSave.setFld.upd.shortHere.clearRegion.setMv.partFollow)
theorem MemWf.closeUp {d ord} (h : MemWf s) : MemWf (s.closeUp d ord) := h.foldl fun _ _ ht => .ite ht.setOwner ht
theorem MemWf.powerOff {r} (h : MemWf s) : MemWf (s.powerOff r) := h.setRgnState.setRgnFreq.offEntered.pend.pkgFollow
theorem MemWf.joinLane {r d} (h : MemWf s) : MemWf (s.joinLane r d) := h.upd
theorem MemWf.redye {r m} (h : MemWf s) : MemWf (s.redye r m) := by
  unfold State.redye
  extract_lets _ _ s2 _ s3
  have hs2 : MemWf s2 := .ite h.dropCores.upd.setOwner h.dropCores.upd.setOwner.closeUp
  have hs3 : MemWf s3 := by
    unfold s3
    exact .ite hs2.setOwner.powerOff (.ite hs2.setOwner.joinLane.setRgnFreq hs2.setOwner.joinLane.rgnRequest)
  exact hs3.upd.partFollow.partFollow.shapeFollow.shapeFollow.innFollow.innFollow
theorem MemWf.endMove {r m} (h : MemWf s) : MemWf (s.endMove r m) := by
  unfold State.endMove
  extract_lets
  split
  · exact h.setMove.setMv.setFld
  · exact h.setMove.setMv.setFld.setNext.orderMove
theorem MemWf.execRedyeDone {r} (h : MemWf s) : OutWf (execRedyeDone r s) := by
  unfold Machine.execRedyeDone
  extract_lets
  split
  · exact .ite (.next h) (.next (.ite h.redye.setMv h.redye.endMove))
  · exact .ite (.next h) (.next (.ite h.setOwner.powerOff.partFollow.setPartState h.setOwner.powerOff.partFollow))
/-- A range put back from a save area, keys shifted. -/
theorem putTab_wf {α : Type} [DecidableEq α] {d : Nat → α} {t : Tab α} {lo hi : Nat} (u : Tab α) (h : tabWf d t = true) :
    tabWf d (putTab d t lo hi u) = true :=
  foldl_keeps (P := fun v => tabWf d v = true) (fun _ _ hv => tabSet_wf _ _ hv) u _ (tabClear_wf _ _ h)
theorem MemWf.execRestore {d r} (h : MemWf s) : OutWf (execRestore d r s) := by
  unfold Machine.execRestore
  split
  · split
    · exact .next h
    · next a _ =>
      extract_lets b s' _ s1 s2
      have hs1 : MemWf s1 := ⟨putTab_wf a.sram h.testsEnd.sram, putTab_wf a.acc h.testsEnd.acc, h.testsEnd.hbm⟩
      have hs2 : MemWf s2 := by
        refine hs1.foldl fun t c ht => ?_
        split
        · exact ht.foldl fun _ _ hu => hu.bufFill
        · exact ht
      exact .next hs2.setAtp.setCou.setSave.chargeSave.partFollow
  · exact .ite (.next h.upd.orderMove) (.next h)
theorem MemWf.courierGen {d gen} (h : MemWf s) : MemWf (s.courierGen d gen) := h.foldl fun _ _ ht => ht.setFld.setBit
theorem MemWf.setResume {d} (h : MemWf s) : MemWf (s.setResume d) := .ite h h.upd.courierGen.armCmp.tellAll.upd
theorem MemWf.filled {d sl} (h : MemWf s) : MemWf (s.filled d sl) := h.upd.setResume
theorem MemWf.execRestoreDone {d r} (h : MemWf s) : OutWf (execRestoreDone d r s) := by
  unfold Machine.execRestoreDone
  extract_lets
  split
  · exact .next h
  · extract_lets
    split
    · exact .next h
    · split
      · exact .next h.upd.partFollow.endMove
      · exact .ite (.next h.upd.partFollow.endMove.filled) (.next h.upd.partFollow.endMove.filled.upd)
theorem MemWf.atpReissue {r} (h : MemWf s) : MemWf (s.atpReissue r) := .ite h (h.setAtp.setBit.foldl fun _ _ ht => ht.putQueue)
theorem MemWf.goRegion {r} (h : MemWf s) : MemWf (s.goRegion r) :=
  .foldl (.couGo (.atpReissue (.atpGo (h.foldl fun _ _ ht => .ite ht ht.coreGo)))) fun _ _ ht => ht.drvGo
theorem MemWf.execJobResumePoint {d} (h : MemWf s) : OutWf (execJobResumePoint d s) :=
  .ite (.next h) (.next (.disarm (.upd (.setJob (h.foldl fun _ _ ht => ht.goRegion)))))
theorem MemWf.killCore {c} (h : MemWf s) : MemWf (s.killCore c) := h.cutHead.onCore
theorem MemWf.killMoves {d} (h : MemWf s) : MemWf (s.killMoves d) :=
  h.foldl fun _ _ ht => by split; exacts [ht, .ite ht.setMove.setMv ht.setMove]
theorem MemWf.keySlots {d on} (h : MemWf s) : MemWf (s.keySlots d on) := .setBit (h.foldl fun _ _ ht => ht.setBit)
theorem MemWf.killHere {d} (h : MemWf s) : MemWf (s.killHere d) := by
  unfold State.killHere
  extract_lets _ s1 s2 s3 s4 s5 _ s7
  have hs1 : MemWf s1 := .ite h.dropToken.refuseLoad h.dropToken
  have hs2 : MemWf s2 := .ite hs1.failDye hs1
  have hs3 : MemWf s3 := hs2.foldl fun _ _ ht => ht.killCore
  have hs4 : MemWf s4 := hs3.foldl fun _ _ ht => ht.atpStop.couStop
  have hs5 : MemWf s5 := .keySlots (hs4.foldl fun _ _ ht => ht.drvStop)
  have hs7 : MemWf s7 := hs5.updBoth.killMoves.foldl fun _ _ ht => ht.clearRegion
  exact .ite h hs7.setJob.setPartState.disarm.innFollow
theorem MemWf.execPartCmdKill {m d} (h : MemWf s) : OutWf (execPartCmdKill m d s) :=
  .ite (.next h.permissionError) (.ite (.next h.answer) (.next h.killHere.upd.answer))
theorem MemWf.execKillArrival {d} (h : MemWf s) : OutWf (execKillArrival d s) := .next h.killHere
theorem MemWf.forgetDye {d} (h : MemWf s) : MemWf (s.forgetDye d) := by
  unfold State.forgetDye
  extract_lets mine s1
  have hs1 : MemWf s1 := h.foldl fun _ _ ht => ht.freeFrame
  exact ⟨hs1.sram, hs1.acc, hs1.hbm⟩
theorem MemWf.execKillSweepDone {d} (h : MemWf s) : OutWf (execKillSweepDone d s) := by
  unfold Machine.execKillSweepDone
  extract_lets _ _ s1
  have hs1 : MemWf s1 := h.foldl fun _ _ ht => ht.setOwner.powerOff
  exact .ite (.next h) (.next hs1.forgetDye.resetWin.resetWin.resetWin.resetWin.resetWin.upd.wr.innFollow)
theorem MemWf.jobLoad {r} (h : MemWf s) : MemWf (s.jobLoad r) := by
  unfold State.jobLoad
  extract_lets
  split
  · exact h
  · exact h.loadSet
theorem MemWf.execJobStart {m d} (h : MemWf s) : OutWf (execJobStart m d s) := by
  unfold Machine.execJobStart
  extract_lets _ _ s2
  have hs2 : MemWf s2 := h.upd.setJob.armCmp.foldl fun _ _ ht => ht.rgnRequest
  exact .ite (.next h.permissionError) (.ite (.next h.answer) (.next hs2.upd.answer))
theorem MemWf.execJobGoPoint {d} (h : MemWf s) : OutWf (execJobGoPoint d s) := by
  unfold Machine.execJobGoPoint
  extract_lets _ s0 s1 s2
  have hs0 : MemWf s0 := h.foldl fun _ _ ht => .ite ht.onCore ht
  have hs1 : MemWf s1 := hs0.foldl fun _ _ ht => ht.jobLoad
  have hs2 : MemWf s2 := hs1.foldl fun _ _ ht => ht.goRegion
  exact .ite (.next h) (.next hs2.setJob.disarm)
theorem MemWf.stopJobHere {d} (h : MemWf s) : MemWf (s.stopJobHere d) :=
  .endJob (.disarm (.foldl (h.foldl fun _ _ ht => ht.stopRegion) fun _ _ ht => ht.hwClear))
theorem MemWf.execJobStop {m d} (h : MemWf s) : OutWf (execJobStop m d s) :=
  .ite (.next h.permissionError) (.ite (.next h.answer) (.next h.stopJobHere.upd.answer))
theorem MemWf.jobFollow {d} (h : MemWf s) : MemWf (s.jobFollow d) :=
  .ite h (.ite h.jobFaultHere.tellAll (.ite h h.hearHalted.tellAll.jobDone))
/-! ### Verify -/
-- unused
/-! ### Images -/
theorem MemWf.setImg {d st} (h : MemWf s) : MemWf (s.setImg d st) := h.wrP
theorem MemWf.loadImage {d} (h : MemWf s) : MemWf (s.loadImage d) :=
  .ite h.setFld (.ite h.refuseLoad (.ite h.refuseLoad (.ite h.refuseLoad h.setImg.setLoad.upd.innFollow)))
theorem MemWf.execLoad {m d} (h : MemWf s) : OutWf (execLoad m d s) := .ite (.next h.permissionError) (.next h.loadImage.answer)
theorem MemWf.abortLoad {d} (h : MemWf s) : MemWf (s.abortLoad d) := .ite h.stopLoad.releaseMoves.innFollow h
theorem MemWf.execAbort {m d} (h : MemWf s) : OutWf (execAbort m d s) := .ite (.next h.permissionError) (.next h.abortLoad.answer)
theorem MemWf.distribute {d img} (h : MemWf s) : MemWf (s.distribute d img) := by
  unfold State.distribute
  extract_lets
  split
  · exact h.stopLoad.releaseMoves
  · exact h.stopLoad.releaseMoves
  · exact .ite h.stopLoad h.setLoad.setImg.upd
theorem MemWf.execImageFetchDone {d img} (h : MemWf s) : OutWf (execImageFetchDone d img s) := .ite (.next h) (.next h.distribute)
theorem MemWf.takeReport {d pkg code sect ofs} (h : MemWf s) : MemWf (s.takeReport d pkg code sect ofs) :=
  .ite h (.ite h.stopLoad.releaseMoves.innFollow (.ite h.setLoad.setImg.armCmp.upd h.setLoad))
theorem MemWf.execImageCopy {d img} (h : MemWf s) : OutWf (execImageCopy d img s) := by
  unfold Machine.execImageCopy
  extract_lets _ _ s1
  have hs1 : MemWf s1 := .setImg (.ite h h.setLoad)
  split
  · exact .next h
  · split
    · exact .ite (.next hs1.takeReport) (.next hs1.upd)
    · exact .ite (.next hs1.draw.takeReport) (.next hs1.draw.refuseLoad.upd)
theorem MemWf.execImageVerifyReport {d pkg code sect ofs} (h : MemWf s) :
    OutWf (execImageVerifyReport d pkg code sect ofs s) :=
  .next h.takeReport
theorem MemWf.report {data} (h : MemWf s) : MemWf (s.report data) := .ite h h.upd
theorem MemWf.ppsOwner (h : MemWf s) : MemWf s.ppsOwner := .ite h.wr.wr.upd (.ite h.wr.upd h)
theorem MemWf.cntFollow (h : MemWf s) : MemWf s.cntFollow := by
  unfold State.cntFollow
  extract_lets
  split
  · exact .ite h.setBit.setBit.setFld.setFld.setFld.upd.rearmAll h.setBit.setBit.setFld.setFld.setFld.upd
  · exact h.setBit.setBit.setFld.setFld
theorem MemWf.electFrom {ok} (h : MemWf s) : MemWf (s.electFrom ok) := by
  unfold State.electFrom
  split
  · exact h.upd
  · exact .ppsOwner (.cntFollow (.ite h.upd.info h.upd))
theorem MemWf.elect (h : MemWf s) : MemWf s.elect := h.electFrom
theorem MemWf.takeSync (h : MemWf s) : MemWf s.takeSync := by
  unfold State.takeSync
  split
  · exact .ite h.wr64.setBit h
  · exact h
theorem MemWf.floorFollow (h : MemWf s) : MemWf s.floorFollow := h.setFld.setBit
theorem MemWf.createPart {es e} (h : MemWf s) : MemWf (s.createPart es e) := by
  unfold State.createPart
  extract_lets
  split
  · exact h
  · extract_lets s1 _ s3
    have hs1 : MemWf s1 := h.foldl fun _ _ ht => .ite ht.setOwner ht
    have hs3 : MemWf s3 := hs1.keySlots.wr.foldl fun _ _ ht => ht.wrP
    exact hs3.partFollow.tierFollow
theorem MemWf.setRates {i} (h : MemWf s) : MemWf (s.setRates i) :=
  .foldl (h.foldl fun _ _ ht => ht.foldl fun _ _ hu => hu.wr) fun _ _ ht => ht.foldl fun _ _ hu => hu.wr
theorem MemWf.applyWiring (h : MemWf s) : MemWf s.applyWiring :=
  .elect (.foldl (.upd (by split; exacts [h.wr, h])) fun _ _ ht => ht.setFld)
theorem MemWf.describe {d i st} (h : MemWf s) : MemWf (s.describe d i st) := h.wrP.wrList.setImg
theorem MemWf.installSystem {img} (h : MemWf s) : MemWf (s.installSystem img) := by
  unfold State.installSystem
  extract_lets _ _ _ _ _ _ s2 _ s4
  have hs2 : MemWf s2 := h.upd.foldl fun _ _ ht => ht.createPart
  have hs4 : MemWf s4 := .ite hs2.setRates.applyWiring hs2.setRates
  exact .ite hs4.setImg hs4.describe
theorem MemWf.freeArea {d} (h : MemWf s) : MemWf (s.freeArea d) := by
  unfold State.freeArea
  extract_lets s1 _ s2
  have hs1 : MemWf s1 := by
    unfold s1
    split
    · exact h
    · exact h.foldl fun _ _ ht => ht.freeFrame
  have hs2 : MemWf s2 := .ite hs1 (hs1.foldl fun _ _ ht => ht.freeFrame)
  exact hs2.upd
theorem MemWf.layArea {d img} (h : MemWf s) : MemWf (s.layArea d img) := by
  unfold State.layArea
  extract_lets
  split
  · exact h.freeArea.takeRun
  · extract_lets s0 _ _ s2
    have hs0 : MemWf s0 := h.freeArea.takeRun.foldl fun _ _ ht => ht.foldl fun _ _ hu => hu.setFrame
    have hs2 : MemWf s2 := hs0.upd.foldl fun _ _ ht => .ite ht ht.hbmWrite
    split
    · exact hs2.takeRun
    · exact hs2.takeRun.upd
theorem MemWf.regionCfg {img r} (h : MemWf s) : MemWf (s.regionCfg img r) := .setBit (by split; exacts [h, h.wrList.wr])
theorem MemWf.dropWeights {d img} (h : MemWf s) : MemWf (s.dropWeights d img) := h.foldl fun _ _ ht => .ite ht ht.emptyWset
theorem MemWf.installPart {d img} (h : MemWf s) : MemWf (s.installPart d img) := by
  unfold State.installPart
  extract_lets _ _ _ _ s4 _ _ s6
  have hs4 : MemWf s4 := h.dropWeights.dropToken.updTiles.layArea.shapeFollow.foldl fun _ _ ht => ht.regionCfg
  have hs6 : MemWf s6 := hs4.wrP.foldl fun _ _ ht => ht.setRgnFreq
  exact .ite hs6.describe.floorFollow.innFollow.postEventRec hs6.describe.floorFollow.innFollow
theorem MemWf.execImageInstall {d} (h : MemWf s) : OutWf (execImageInstall d s) := by
  unfold Machine.execImageInstall
  extract_lets
  split
  · extract_lets s2
    have hs2 : MemWf s2 := .ite h.setLoad.disarm.installSystem h.setLoad.disarm.installPart
    exact .ite (.next h) (.next hs2.releaseMoves)
  · exact .next h
/-! ### Ledger -/
theorem MemWf.fold1 {e} (h : MemWf s) : MemWf (s.fold1 e) := .ite (.ite h.upd (.ite h.upd h.upd)) (.upd (.ite h.upd (.ite h.upd h.upd)))
theorem MemWf.foldAll (h : MemWf s) : MemWf s.foldAll := h.upd.foldl fun _ _ ht => ht.fold1
theorem MemWf.alertFollow (h : MemWf s) : MemWf s.alertFollow := h.setBit
theorem MemWf.headFollow (h : MemWf s) : MemWf s.headFollow := h.wr.wr
theorem MemWf.commit {r0} (h : MemWf s) : MemWf (s.commit r0) := by
  unfold State.commit
  extract_lets _ _ _ s2
  have hs2 : MemWf s2 := .alertFollow (.headFollow (.ite h.upd.setBit h.upd))
  exact .ite hs2.pulse.report hs2.pulse
theorem MemWf.ldgReady (h : MemWf s) : MemWf s.ldgReady := h.setBit
theorem MemWf.freeze (h : MemWf s) : MemWf s.freeze := .ite h.setBit h
/-- The state that a record to be committed has been taken from. -/
theorem MemWf.nextCommit (h : MemWf s) : ∀ x ∈ s.nextCommit, MemWf x.2 := by
  unfold State.nextCommit
  intro x hx
  split at hx
  · rw [← Option.some.inj hx]
    exact h.upd
  · split at hx
    · simp at hx
    · split at hx
      · rw [← Option.some.inj hx]
        exact h.upd
      · simp at hx
theorem MemWf.execRecordCommit {readBack} (h : MemWf s) : OutWf (execRecordCommit readBack s) := by
  unfold Machine.execRecordCommit
  split
  · exact .next h
  · split
    · exact .next h.freeze
    · next hx =>
      have ht := h.nextCommit _ hx
      exact .ite (.next ht.commit.freeze) (.next ht.upd.bump.detectUnit)
theorem MemWf.execLedgerPeriod (h : MemWf s0) : OutWf (execLedgerPeriod s0) := .ite (.next h) (.next h.foldAll.upd)
theorem MemWf.execAlertAck {m} (h : MemWf s) : OutWf (execAlertAck m s) :=
  .ite (.next h.permissionError) (.next h.upd.alertFollow.answer)
theorem MemWf.execLdgRecLoad {m} (h : MemWf s) : OutWf (execLdgRecLoad m s) := .ite (.next h.permissionError) (.next h.wrList.wr.answer)
theorem MemWf.execLdgDRecLoad {m d} (h : MemWf s) : OutWf (execLdgDRecLoad m d s) :=
  .ite (.next h.answer) (.next (.answer (by split; exacts [h.wrList.wrP, h.wrList])))
theorem MemWf.setSnap {k x} (h : MemWf s) : MemWf (s.setSnap k x) := h.upd
theorem MemWf.armSnap {k value} (h : MemWf s) : MemWf (s.armSnap k value) := h.setSnap.setFld.setFld.wr.armCmp
theorem MemWf.pushSnap {k sys} (h : MemWf s) : MemWf (s.pushSnap k sys) :=
  .ite h.setFld (.ite h.setFld.setFld (.ite h.armSnap h.armSnap.setSnap.upd))
theorem MemWf.execSnapshotPush {m sys} (h : MemWf s) : OutWf (execSnapshotPush m sys s) :=
  .ite (.next h.permissionError) (.next h.pushSnap.answer)
theorem MemWf.execDyeSnapshotPush {m d sys} (h : MemWf s) : OutWf (execDyeSnapshotPush m d sys s) :=
  .ite (.next h.permissionError) (.next h.pushSnap.answer)
theorem MemWf.shadowRgl {w d} (h : MemWf s) : MemWf (s.shadowRgl w d) := h.wrList.bump
theorem MemWf.captureMgmt (h : MemWf s) : MemWf s.captureMgmt := by
  unfold State.captureMgmt
  extract_lets s1 s2 s3 _ s5
  have hs1 : MemWf s1 := h.foldl fun _ _ ht => ht.shadow
  have hs2 : MemWf s2 := hs1.foldl fun _ _ ht => ht.shadow
  have hs3 : MemWf s3 := hs2.foldl fun _ _ ht => ht.shadow
  have hs5 : MemWf s5 := hs3.shadow.shadow.foldl fun _ _ ht => ht.shadow
  exact hs5.foldl fun _ _ ht => .bump (ht.foldl fun _ _ hu => hu.shadowRgl)
theorem MemWf.summary {r} (h : MemWf s) : MemWf (s.summary r) := h.wrList.bump
theorem MemWf.captureRegion {r} (h : MemWf s) : MemWf (s.captureRegion r) :=
  .summary (.shadow (.shadow (.upd (.bump (.wrList (h.foldl fun _ _ ht => ht.onCore))))))
theorem MemWf.captureDye {d} (h : MemWf s) : MemWf (s.captureDye d) := by
  unfold State.captureDye
  extract_lets _ s1 _ _ _ s4
  have hs1 : MemWf s1 := h.foldl fun _ _ ht => ht.captureRegion
  have hs4 : MemWf s4 := hs1.wr.shadow.shadow.foldl fun _ _ ht => ht.shadow
  exact hs4.shadow.foldl fun _ _ ht => ht.shadowRgl
theorem MemWf.snapHeard {k src} (h : MemWf s) : MemWf (s.snapHeard k src) := .ite h.setSnap h
theorem MemWf.execSnapshotDone {d} (h : MemWf s) : OutWf (execSnapshotDone d s) := by
  unfold Machine.execSnapshotDone
  extract_lets _ _ s1
  have hs1 : MemWf s1 := .ite h (.ite h.captureMgmt h.captureDye)
  split
  · exact .next h
  · split
    · exact .next hs1.setSnap
    · refine .next ?_
      split
      · exact hs1.setSnap.disarm.setFld.setFld.setFld.upd
      · exact hs1.setSnap.disarm.setFld.setFld.setFld
theorem MemWf.execArm {m} (h : MemWf s) : OutWf (execArm m s) :=
  .ite (.next h.permissionError) (.ite (.next h.setFld.answer) (.next h.setFld.setBit.setBit.upd.answer))
theorem MemWf.execDisarm {m} (h : MemWf s) : OutWf (execDisarm m s) := .ite (.next h.permissionError) (.next h.setBit.answer)
theorem MemWf.injEnable {on} (h : MemWf s) : MemWf (s.injEnable on) := .ite h (.ite h.setBit.ledger h.setBit.ledger.setBit)
theorem MemWf.execTmxSelWrite {m n v} (h : MemWf s) : OutWf (execTmxSelWrite m n v s) := by
  unfold Machine.execTmxSelWrite
  extract_lets
  split
  · exact .next h.permissionError
  · exact .ite (.next h.setFld.answer) (.ite (.next h.setFld.wr.upd.answer) (.next h.setFld.wr.tmxSwitch.answer))
theorem MemWf.execTmxSwitchDone {n} (h : MemWf s) : OutWf (execTmxSwitchDone n s) :=
  .ite (.next h) (by split; exacts [.next h.setFld.tmxSwitch, .next h.setFld.draw.upd])
theorem MemWf.tmxFollow (h : MemWf s) : MemWf s.tmxFollow := h.foldl fun _ _ ht => .ite ht.draw.upd ht
theorem MemWf.execPpsPulse (h : MemWf s) : OutWf (execPpsPulse s) := .ite (.next h) (.next h.upd)
theorem MemWf.execPwrWarnN (h : MemWf s) : OutWf (execPwrWarnN s) := by
  unfold Machine.execPwrWarnN
  extract_lets _ _ fails waits s1 s2
  have hfails : MemWf fails := h.setBit.admission.foldl fun _ _ ht => ht.failDye
  have hwaits : MemWf waits := hfails.foldl fun _ _ ht => ht.endPlan
  have hs1 : MemWf s1 := hwaits.foldl fun _ _ ht => ht.foldl fun _ _ hu => hu.rgnRequest
  have hs2 : MemWf s2 := hs1.foldl fun _ _ ht => .ite ht.stopLoad ht
  exact .ite (.next h) (.next hs2.foldAll.upd)
theorem MemWf.execPwrWarnNRelease (h : MemWf s) : OutWf (execPwrWarnNRelease s) := .ite (.next h) (.next h.setBit.admission.upd)
theorem MemWf.execFrozenClear (h : MemWf s) : OutWf (execFrozenClear s) := .ite (.next h) (.next h.upd.setBit)
/-! ### Links -/
theorem MemWf.setLink {l x} (h : MemWf s) : MemWf (s.setLink l x) := h.upd
theorem MemWf.setTlk {l st lanes spare half} (h : MemWf s) : MemWf (s.setTlk l st lanes spare half) :=
  h.setFld.setFld.setBit.setBit.setBit
theorem MemWf.setLight {l b} (h : MemWf s) : MemWf (s.setLight l b) := h.setBit
theorem MemWf.failSends {gone} (h : MemWf s) : MemWf (s.failSends gone) := .ite h (.settleAll (h.foldl fun _ _ ht => .ite ht ht.onCore))
theorem MemWf.loseLoads {hit} (h : MemWf s) : MemWf (s.loseLoads hit) :=
  .releaseMoves (h.foldl fun _ _ ht => .ite (.ite ht.stopLoad ht.refuseLoad) ht)
theorem MemWf.recompute {old : State} (h : MemWf s) : MemWf (s.recompute old) := by
  unfold State.recompute
  extract_lets _ _ _ s1 _ _ _ s3 s4 _ _ _ s6
  have hs1 : MemWf s1 := .ite h.upd.upd h.upd
  have hs3 : MemWf s3 := hs1.failSends.foldl fun _ _ ht => .ite ht.couPeerLost ht
  have hs4 : MemWf s4 := hs3.foldl fun _ _ ht => ht.failDye
  have hs6 : MemWf s6 := .ite hs4.loseLoads.loseDonors.upd hs4.loseLoads.loseDonors
  exact hs6.cntFollow.ppsOwner
theorem MemWf.failUsers {l} (h : MemWf s) : MemWf (s.failUsers l) := h.foldl fun _ _ ht => ht.foldl fun _ _ hu => hu.failStep
theorem MemWf.repriced (h : MemWf s) : MemWf s.repriced := h.foldl fun _ _ ht => ht.innFollow
theorem MemWf.takeDown {l st} (h : MemWf s) : MemWf (s.takeDown l st) := .ite (.repriced h.setTlk.wr.recompute) h.setTlk.wr
theorem MemWf.linkDown {l} (h : MemWf s) : MemWf (s.linkDown l) :=
  .repriced (.recompute (.wr (.ite h.upd.setTlk.setLink.upd h.upd.setTlk.setLink)))
theorem MemWf.train {l full} (h : MemWf s) : MemWf (s.train l full) := .takeDown (.setLink (.ite h.failUsers h))
theorem MemWf.tlkCtrl {m} {f : State → State} (h : MemWf s) (hf : ∀ t0, MemWf t0 → MemWf (f t0)) : OutWf (s.tlkCtrl m f) :=
  .ite (.next h.permissionError) (.next ((hf _ h).answer))
theorem MemWf.linkCommand {l} (h : MemWf s) : MemWf (s.linkCommand l) := .ite h.setLink h.setBit.train
theorem MemWf.execLinkEnable {m l} (h : MemWf s) : OutWf (execLinkEnable m l s) := h.tlkCtrl fun _ ht => ht.linkCommand
theorem MemWf.execLinkRetrain {m l} (h : MemWf s) : OutWf (execLinkRetrain m l s) := h.tlkCtrl fun _ ht => .ite ht ht.linkCommand
theorem MemWf.disableLink {l} (h : MemWf s) : MemWf (s.disableLink l) := .setLight (.setLink (.setTlk (.ite h.linkDown h)))
theorem MemWf.execLinkDisable {m l} (h : MemWf s) : OutWf (execLinkDisable m l s) := h.tlkCtrl fun _ ht => ht.disableLink
theorem MemWf.discover (h : MemWf s) : MemWf s.discover := by
  unfold State.discover
  split
  · exact h
  · extract_lets _ _ s2
    have hs2 : MemWf s2 := h.upd.foldl fun _ _ ht => .ite ht.takeDown ht
    exact .ite h (.ite h.upd (.ite hs2 hs2.info.report))
theorem MemWf.endRecable (h : MemWf s) : MemWf s.endRecable :=
  .ite h (.ite h.discover.upd.cntFollow h.discover.upd.electFrom.cntFollow.repriced)
theorem MemWf.beginRecable (h : MemWf s) : MemWf s.beginRecable := by
  unfold State.beginRecable
  extract_lets _ s2 s3 _ s5 s6
  have hs2 : MemWf s2 := .ite h.upd.upd h.upd
  have hs3 : MemWf s3 := hs2.foldl fun _ _ ht => ht.failDye
  have hs5 : MemWf s5 := by
    unfold s5
    split
    · exact hs3.loseLoads
    · exact hs3.loseLoads.upd.applyWiring.describe
  have hs6 : MemWf s6 := hs5.foldl fun _ _ ht => .ite ht.setLink.setTlk ht
  exact .ite h hs6.upd.failSends.endRecable.repriced
theorem MemWf.execRecable {m} (h : MemWf s) : OutWf (execRecable m s) := h.tlkCtrl fun _ ht => ht.beginRecable
theorem MemWf.execLinkTraining {l t} (h : MemWf s) : OutWf (execLinkTraining l t s) := by
  unfold Machine.execLinkTraining
  extract_lets
  split
  · exact .next h
  · split
    · exact .next (.ite h.setLight.wr.setLink.linkDown.train h.setLight.wr.setLink.linkDown.endRecable)
    · extract_lets _ _ s3 _ s4
      have hs3 : MemWf s3 := by
        unfold s3
        split
        · exact h.setLight.wr.setLink.wr.wr.setTlk.wr.upd.recompute.repriced
        · exact h.setLight.wr.setLink.wr.wr.setTlk.info.report
      have hs4 : MemWf s4 := by
        unfold s4
        split
        · exact .ite hs3.upd hs3
        · exact hs3
      exact .next (.ite hs4.discover.beginRecable (.ite hs4.discover.setBit.train hs4.discover.endRecable))
theorem MemWf.execSystemImageSync {img} (h : MemWf s) : OutWf (execSystemImageSync img s) :=
  .ite (.next h) (by split; exacts [.next h.draw.refuseLoad.info, .next h.installSystem.discover])
theorem MemWf.execLaneLoss {l lane} (h : MemWf s) : OutWf (execLaneLoss l lane s) := by
  unfold Machine.execLaneLoss
  extract_lets
  split
  · exact .next h.setLink
  · split
    · exact .next h
    · split
      · exact .next h.bump.detectUnit.setLink.wr.train
      · split
        · exact .next h.bump.detectUnit.setLink.wr
        · exact .ite (.next h.bump.detectUnit.setLink.wr.setTlk.setLink) (.next h.bump.detectUnit.setLink.wr.train)
theorem MemWf.execSpareLaneReady {l} (h : MemWf s) : OutWf (execSpareLaneReady l s) := by
  unfold Machine.execSpareLaneReady
  extract_lets
  split
  · exact .ite (.next h) (.next h.setLink.setTlk.wr)
  · exact .next h
theorem MemWf.execFrameUncorrectable {l replays} (h : MemWf s) : OutWf (execFrameUncorrectable l replays s) :=
  .ite (.next h) (.ite (.next h.bump.bump.detectUnit.train.setLink) (.next h.bump.bump.detectUnit))
theorem MemWf.execHeartbeatLoss {l} (h : MemWf s) : OutWf (execHeartbeatLoss l s) := .ite (.next h.detectUnit.linkDown) (.next h)
theorem MemWf.execLightLoss {l} (h : MemWf s) : OutWf (execLightLoss l s) := .ite (.next h.setLight.linkDown) (.next h.setLight)
theorem MemWf.execLossNotice {slot link} (h : MemWf s) : OutWf (execLossNotice slot link s) :=
  .ite (.next h) (.next (.repriced (.recompute (.ite h.upd.upd h.upd))))
theorem MemWf.execMasterTakeover (h : MemWf s) : OutWf (execMasterTakeover s) :=
  .ite (.next h) (.ite (.next h.electFrom.cntFollow.upd) (.next h.upd.takeSync.cntFollow.ppsOwner))
theorem MemWf.dropPacket {p} (h : MemWf s) : MemWf (s.dropPacket p) := h.bump
theorem MemWf.routed {p type} {f : State → Out} (h : MemWf s) (hf : ∀ t, MemWf t → OutWf (f t)) : OutWf (s.routed p type f) :=
  .ite (.next h.dropPacket) (.ite (.next (.ite h.upd h.sendPacket)) (hf _ h))
theorem MemWf.answerMessage {q p type} (h : MemWf s) : MemWf (s.answerMessage q p type) := h.sendPacket
theorem MemWf.execMessagePacket {p} (h : MemWf s) : OutWf (execMessagePacket p s) := by
  unfold Machine.execMessagePacket
  refine h.routed fun t ht => ?_
  split
  · exact .next ht
  · extract_lets
    split
    · exact .next (.ite ht.answerMessage ht)
    · split
      · exact .next (.ite ht.answerMessage ht)
      · extract_lets w s1 _ s2
        have hw : MemWf w.2 := ht.write
        have hs1 : MemWf s1 := hw.onCore
        have hs2 : MemWf s2 := hs1.onCore
        split
        · exact .next (.ite ht.answerMessage ht)
        · exact .ite (.next hw.fillFault.settleAll) (.ite (.next hs1) (.next hs2.answerMessage.settle))
theorem MemWf.execCreditPacket {p} (h : MemWf s) : OutWf (execCreditPacket p s) := by
  unfold Machine.execCreditPacket
  refine h.routed fun t ht => ?_
  split
  · exact .next ht
  · exact .next ht.onCore.retrySends.settle
theorem MemWf.execAckPacket {p} (h : MemWf s) : OutWf (execAckPacket p s) := by
  unfold Machine.execAckPacket
  refine h.routed fun t ht => ?_
  split
  · exact .next ht
  · split
    · exact .next ht
    · exact .next ht.onCore.settle
theorem MemWf.execRefusedPacket {p} (h : MemWf s) : OutWf (execRefusedPacket p s) := by
  unfold Machine.execRefusedPacket
  refine h.routed fun t ht => ?_
  split
  · exact .next ht
  · split
    · exact .next ht
    · exact .next ht.onCore.retrySends.settle
theorem MemWf.execBarrierPacket {p} (h : MemWf s) : OutWf (execBarrierPacket p s) := by
  unfold Machine.execBarrierPacket
  exact h.routed fun _ ht => .ite (.next ht) (.next ht.setBar)
/-! ### Governor -/
theorem MemWf.setBudgetCeil {d f} (h : MemWf s) : MemWf (s.setBudgetCeil d f) := h.setFld
theorem MemWf.setThermCeil {d f} (h : MemWf s) : MemWf (s.setThermCeil d f) := h.setFld
theorem MemWf.schedule {d f tsw} (h : MemWf s) : MemWf (s.schedule d f tsw) := h.disarm.upd.armCmp
theorem MemWf.takeCeiling {d slot mhz} (h : MemWf s) : MemWf (s.takeCeiling d slot mhz) :=
  .ite h (.ite h.upd (.ite (.schedule (.ite h.upd h.upd.draw)) (.upd (.schedule (.ite h.upd h.upd.draw)))))
theorem MemWf.tellCeiling {old : State} {d} (h : MemWf s) : MemWf (s.tellCeiling old d) :=
  .ite h (.ite h.takeCeiling h.upd)
theorem MemWf.beginStretch {d fast} (h : MemWf s) : MemWf (s.beginStretch d fast) :=
  .ite h (by split; exacts [h.upd, .tellCeiling (.ite h.upd.bumpP.setBudgetCeil h.upd.bumpP.setThermCeil)])
theorem MemWf.endStretch {d} (h : MemWf s) : MemWf (s.endStretch d) := by
  unfold State.endStretch
  split
  · exact h
  · exact h.upd.hist
theorem MemWf.divide (h : MemWf s) : MemWf s.divide := by
  unfold State.divide
  extract_lets _ s1
  have hs1 : MemWf s1 := h.foldl fun _ _ ht => .ite ht.setFld.setBudgetCeil.setThermCeil ht.setFld.setBudgetCeil
  exact hs1.setBit.foldl fun _ _ ht => ht.tellCeiling
theorem MemWf.powerFollow (h : MemWf s) : MemWf s.powerFollow := .ite h h.floorFollow.divide.upd
theorem MemWf.setPowerCap {watts} (h : MemWf s) : MemWf (s.setPowerCap watts).2 := by
  unfold State.setPowerCap
  split
  · exact h
  · exact h.setFld.floorFollow.divide
/-! ### Counter -/
theorem MemWf.setSync {v} (h : MemWf s) : MemWf (s.setSync v) := h.setFld
theorem MemWf.execSyncExchange {t1 t2 t3 t4 trim} (h : MemWf s) : OutWf (execSyncExchange t1 t2 t3 t4 trim s) :=
  .ite (.next h) (.ite (.next h.wr.wr.setSync) (.ite (.next h.wr.wr.setSync.upd) (.next h.wr.wr)))
theorem MemWf.execCounterFirstLock {v} (h : MemWf s) : OutWf (execCounterFirstLock v s) :=
  .ite (.next h) (.next h.upd.setSync.rearmAll.info)
theorem MemWf.enterHoldover (h : MemWf s) : MemWf s.enterHoldover := .ite h h.setSync.bump.detectUnit.upd
theorem MemWf.execHoldover (h : MemWf s) : OutWf (execHoldover s) := .ite (.next h) (.next h.enterHoldover.setFld)
theorem MemWf.execHoldoverTimeout (h : MemWf s) : OutWf (execHoldoverTimeout s) :=
  .ite (.next h) (.next (h.upd.foldl fun _ _ ht => ht.failDye))
theorem MemWf.readNow (h : MemWf s) : MemWf s.readNow := h.answer.upd
theorem MemWf.execCntNowLRead {m} (h : MemWf s) : OutWf (execCntNowLRead m s) := .next h.readNow
theorem MemWf.capture {k} (h : MemWf s) : MemWf (s.capture k) := .ite h (.setSnap (.ite h.captureMgmt h.captureDye))
theorem MemWf.execComparatorFire {n} (h : MemWf s) : OutWf (execComparatorFire n s) :=
  .ite (.next h) (.next (.pulse (.rearm (by split; exacts [h.upd.capture, h.upd.capture, h.upd]))))
theorem MemWf.switchTo {d f} (h : MemWf s) : MemWf (s.switchTo d f) :=
  .innFollow (.endStretch (h.setFld.foldl fun _ _ ht => ht.setRgnFreq.applyTrim))
theorem MemWf.execFreqPacket {d f tsw} (h : MemWf s) : OutWf (execFreqPacket d f tsw s) :=
  .ite (.next h) (.ite (.next h.switchTo.info) (.next (.ite h.schedule h.schedule.upd)))
theorem MemWf.execSwitchPoint {d} (h : MemWf s) : OutWf (execSwitchPoint d s) := by
  unfold Machine.execSwitchPoint
  extract_lets
  split
  · exact .next h
  · exact .next h.upd.disarm.switchTo
theorem MemWf.placeCtx {d slot c} (h : MemWf s) : MemWf (s.placeCtx d slot c) := h.setCtx
theorem MemWf.obey {src msg} (h : MemWf s) : MemWf (s.obey src msg) := by
  unfold State.obey
  split
  · exact .ite h h.armSnap.setSnap
  · exact h.snapHeard
  · exact .ite h (h.upd.wr64.setJob.armCmp.foldl fun _ _ ht => ht.rgnRequest)
  · exact .ite h.stopJobHere h
  · extract_lets s1
    have hs1 : MemWf s1 := .setJob (h.foldl fun _ _ ht => ht.stopRegion)
    exact .ite hs1.upd hs1
  · exact .ite h h.setLoad.setImg.armCmp
  · exact .ite h h.upd.armCmp
  · exact h.courierGen
  · exact h.placeCtx
  · exact h.freeTables.setCtx.upd
  · exact h.coldArrives
  · exact h.setLen.updMem.drainWeights
  · exact h.upd
  · exact h.hearWstate
  · exact h.stepEnds
  · exact .ite h h.wr64.setBit.upd
  · exact h.forkTables
  · exact h.takeHint
  · exact .ite h.refuseLoad.releaseMoves h
  · exact h.killHere
  · exact h.fixDrain
  · exact h.hearHalted.jobDone
  · exact .ite h.jobFaultHere h
  · exact h.filled
  · split
    · exact h.upd.applyLaneMoves
    · exact h
  · exact .ite h.releasePrefix h
  · exact h.exchangeEnds
  · exact h.upd
  · exact h.publishFails
  · split
    · exact .ite h.releasePrefix.tellAll h
    · exact h
  · exact h.updMem.claimPages
  · exact h.failNamed
theorem MemWf.execControlPacket {src msg} (h : MemWf s) : OutWf (execControlPacket src msg s) := .next h.obey
/-! ### Thermal -/
theorem MemWf.execIdleRetTimer {r} (h : MemWf s) : OutWf (execIdleRetTimer r s) := .ite (.next h.rgnRequest) (.next h)
theorem MemWf.execIdleOffTimer {r} (h : MemWf s) : OutWf (execIdleOffTimer r s) := by
  unfold Machine.execIdleOffTimer
  split
  · exact .next h
  · split
    · exact .next h.rgnRequest
    · exact .next (.ite (h.foldl fun _ _ ht => ht.startMove) (.pend (h.foldl fun _ _ ht => ht.startMove)))
theorem MemWf.faultJob {r} (h : MemWf s) : MemWf (s.faultJob r) := .ite h.jobFaultHere.tellAll h
theorem MemWf.dropSave {r} (h : MemWf s) : MemWf (s.dropSave r) := by
  unfold State.dropSave
  split
  · exact .ite h.setMove.setMv h
  · exact h
theorem MemWf.failWaking {r} (h : MemWf s) : MemWf (s.failWaking r) := by
  unfold State.failWaking
  extract_lets
  split
  · exact h.failStep
  · exact h
theorem MemWf.detectAimed {d r severity} (h : MemWf s) : MemWf (s.detectAimed d r severity) :=
  .ite (.ite h.injDue.injFired.ledger h.injDue.ledger) h.ledger
theorem MemWf.execIvrShort {r} (h : MemWf s) : OutWf (execIvrShort r s) := by
  unfold Machine.execIvrShort
  extract_lets _ _ _ _ s2
  have hs2 : MemWf s2 := .ite h.detectAimed.failWaking h.detectAimed.regionFault
  split
  · exact .next h
  · split
    · exact .next hs2.faultJob.dropSave.powerOff.setFld.upd.failRegion
    · exact .next hs2.faultJob.dropSave.powerOff.setFld.upd.foldAll
theorem MemWf.execHiccupRetry {r shorted} (h : MemWf s) : OutWf (execHiccupRetry r shorted s) := by
  unfold Machine.execHiccupRetry
  extract_lets
  split
  · exact .next h
  · split
    · exact .ite (.next h.setFld.upd) (.next h.setFld.upd.beginWake.setFld.pkgFollow)
    · exact .ite (.next h.setFld.detectAimed) (.next h.setFld.upd.failRegion.setBit.ledger.foldAll)
theorem MemWf.failRunning (h : MemWf s) : MemWf s.failRunning :=
  .foldl (h.foldl fun _ _ ht => ht.foldl fun _ _ hu => hu.failStep) fun _ _ ht => ht.regionFault
theorem MemWf.execReferenceClockLoss (h : MemWf s) : OutWf (execReferenceClockLoss s) :=
  .ite (.next h) (.next h.setBit.bump.detectUnit.failRunning.upd.enterHoldover.setSync.foldAll)
theorem MemWf.execRegionPllLossOfLock {r} (h : MemWf s) : OutWf (execRegionPllLossOfLock r s) :=
  .ite (.next h) (.next h.pll.detectAimed.regionFault.faultJob.foldAll)
theorem MemWf.execRgnControllerWatchdog {r} (h : MemWf s) : OutWf (execRgnControllerWatchdog r s) :=
  .ite (.next h) (.next h.detectAimed.regionFault.faultJob.foldAll)
theorem MemWf.packageFault (h : MemWf s) : MemWf s.packageFault := .admission (h.upd.foldl fun _ _ ht => ht.disableLink)
theorem MemWf.execHbmControllerFailed {ctl} (h : MemWf s) : OutWf (execHbmControllerFailed ctl s) :=
  .ite (.next h) (.next (.ite h.controllerFailed.foldAll.packageFault h.controllerFailed))
theorem MemWf.injAllows {e} (h : MemWf s) : MemWf (s.injAllows e).2 := by
  unfold State.injAllows
  extract_lets
  split
  · exact h
  · split
    · split
      · exact h.injDue.injFired
      · exact h.injDue
    · exact h
theorem MemWf.react {e} (h : MemWf s) : MemWf (s.react e) := by
  unfold State.react
  extract_lets _ _ s1
  have hs1 : MemWf s1 := by
    unfold s1
    exact .ite h (.ite (by split; exacts [.coreFault (.ite h h.ueMark), h]) (.ite h.regionFault.faultJob h))
  exact .ite hs1.packageFault hs1
theorem MemWf.execLedgerEvent {e} (h : MemWf s) : OutWf (execLedgerEvent e s) :=
  .ite (.next h.injAllows) (.next h.injAllows.react.ledger.foldAll)
theorem MemWf.execNightPorterWatchdog (h : MemWf s) : OutWf (execNightPorterWatchdog s) := .next h.detectUnit.foldAll.packageFault
theorem MemWf.execDieBridgeFailure (h : MemWf s) : OutWf (execDieBridgeFailure s) := .next h.setBit.ledger.foldAll.packageFault
theorem MemWf.throttle {r} (h : MemWf s) : MemWf (s.throttle r) := h.bump.beginStretch.upd
theorem MemWf.throttleAll (h : MemWf s) : MemWf s.throttleAll := .upd (h.bump.foldl fun _ _ ht => ht.beginStretch)
theorem MemWf.critical {r} (h : MemWf s) : MemWf (s.critical r) :=
  .foldl (h.setFld.ledger.failRunning.foldl fun _ _ ht => ht.faultJob.dropSave) fun _ _ ht => ht.powerOff
theorem MemWf.junctions {old : State} : ∀ {rs} {s : State}, MemWf s → MemWf (s.junctions old rs)
  | [], _, h => h
  | _ :: _, s, h => by
    unfold State.junctions
    extract_lets _ _ s1 s2 s3
    have hs1 : MemWf s1 := .ite h.ledger h
    have hs2 : MemWf s2 := .ite hs1.detectRgn.throttle hs1
    have hs3 : MemWf s3 := .ite hs2.critical hs2
    exact hs3.junctions
theorem MemWf.readings {t} (h : MemWf s) : MemWf (s.readings t) := .wr (.foldl (h.foldl fun _ _ ht => ht.wr) fun _ _ ht => ht.wr)
theorem MemWf.execThermalSample {t} (h : MemWf s) : OutWf (execThermalSample t s) := by
  unfold Machine.execThermalSample
  extract_lets _ _ _ s2 _ s3 s4 _ s5 _ _ s7
  have hs2 : MemWf s2 := h.readings.junctions
  have hs3 : MemWf s3 := hs2.foldl fun _ _ ht => ht.detectUnit.throttleAll
  have hs4 : MemWf s4 := .ite hs3.detectUnit.throttleAll hs3
  have hs5 : MemWf s5 := hs4.foldl fun _ _ ht => ht.disableLink
  have hs7 : MemWf s7 := .ite hs5.setBit.setBit.setBit hs5.setBit.setBit
  split
  · trivial
  · exact .next hs7.upd.foldAll.draw.wr
theorem MemWf.execThrottleRepeat {r} (h : MemWf s) : OutWf (execThrottleRepeat r s) :=
  .ite (.next h) (.ite (.next h.throttleAll) (.next h.throttle))
theorem MemWf.execThermalCeilingRise {d} (h : MemWf s) : OutWf (execThermalCeilingRise d s) :=
  .ite (.next h) (.next (h.setThermCeil.upd.tellCeiling))
theorem MemWf.execCritAck {m} (h : MemWf s) : OutWf (execCritAck m s) :=
  .ite (.next h.permissionError) (.ite (.next h.answer) (.next h.setBit.answer))
theorem MemWf.execCeilingChange {d slot mhz} (h : MemWf s) : OutWf (execCeilingChange d slot mhz s) := .next h.takeCeiling
theorem MemWf.execStretchTimeout {d} (h : MemWf s) : OutWf (execStretchTimeout d s) := by
  unfold Machine.execStretchTimeout
  split
  · exact .next h
  · exact .ite (.next h) (.next h.switchTo.ledger)
theorem MemWf.execBudgetTick (h : MemWf s) : OutWf (execBudgetTick s) :=
  .next (.divide (h.draw.setFld.foldl fun _ _ ht => .ite ht.draw.charge ht))
theorem MemWf.execFastPowerLimit {vin} (h : MemWf s) : OutWf (execFastPowerLimit vin s) :=
  .ite (.next (h.foldl fun _ _ ht => ht.beginStretch)) (.next h)
theorem MemWf.execAgeingSample {r monitor short} (h : MemWf s) : OutWf (execAgeingSample r monitor short s) :=
  .ite (.next h) (.ite (.next h.upd) (.next h.setFld.setFld.setFld.upd.ledger))
/-! ### Host -/
theorem MemWf.hostReadFailed {d n} (h : MemWf s) : MemWf (s.hostReadFailed d n) := h.detectUnit.answer
theorem MemWf.execHostWindowAccess {d a acc} (h : MemWf s) : OutWf (execHostWindowAccess d a acc s) := by
  unfold Machine.execHostWindowAccess
  split
  · split
    · exact .ite (.next h.hostReadFailed) (.next h.carry.upd.answer)
    · exact .ite (.next h.answer) (.next h.carry.upd.answer)
    · exact .next h.refuse
  · exact .next h.refuse
theorem MemWf.execHostReadCompletion {d e} (h : MemWf s) : OutWf (execHostReadCompletion d e s) := by
  unfold Machine.execHostReadCompletion
  split
  · exact .next h
  · extract_lets
    split
    · exact .next h.upd.answer
    · exact .next h.upd.hostReadFailed
theorem MemWf.msix {d v} (h : MemWf s) : MemWf (s.msix d v) := h.upd
theorem MemWf.answerInbox {d} (h : MemWf s) : MemWf (s.answerInbox d) := h.upd.foldl fun _ _ ht => ht.takeItem
theorem MemWf.execSqTailWrite {d v} (h : MemWf s) : OutWf (execSqTailWrite d v s) :=
  .ite (.next h.answer) (.ite (.next h.answerInbox.setW1c.setBit.msix.answer) (.next h.wr.answer))
theorem MemWf.execRingRead {d item} (h : MemWf s) : OutWf (execRingRead d item s) :=
  .ite (.next h) (.ite (.next h.bump.upd.upd) (.next h.bump.upd.takeItem))
theorem MemWf.execCqHeadWrite {d v} (h : MemWf s) : OutWf (execCqHeadWrite d v s) := .next h.wr.answer
theorem MemWf.execRecordPost {d} (h : MemWf s) : OutWf (execRecordPost d s) := by
  unfold Machine.execRecordPost
  extract_lets
  split
  · exact .next h
  · exact .ite (.next h.upd.wr.carry.upd.msix) (.ite (.next h.upd.wr.carry.upd.upd.msix) (.next h.upd.wr.carry.upd.upd))
theorem MemWf.execInterruptCoalesceTimer {d} (h : MemWf s) : OutWf (execInterruptCoalesceTimer d s) := .ite (.next h) (.next h.upd.msix)
theorem MemWf.execEnableRings {d} (h : MemWf s) : OutWf (execEnableRings d s) :=
  .next (.answer (.upd (.setBit (h.foldl fun _ _ ht => ht.wr))))
theorem MemWf.ringsOff {d} (h : MemWf s) : MemWf (s.ringsOff d) := h.setBit.bump.upd
theorem MemWf.execDisableRings {d} (h : MemWf s) : OutWf (execDisableRings d s) := .next h.ringsOff.answer
theorem MemWf.flr {d} (h : MemWf s) : MemWf (s.flr d) :=
  .updMem (.abortLoad (.losePages (.ringsOff (h.foldl fun _ _ ht => ht.hostReadFailed))))
theorem MemWf.execFlr {d} (h : MemWf s) : OutWf (execFlr d s) := .next h.flr
theorem MemWf.hostDown (h : MemWf s) : MemWf s.hostDown := h.upd.foldl fun _ _ ht => ht.flr
theorem MemWf.execSurpriseDown (h : MemWf s) : OutWf (execSurpriseDown s) := .next h.hostDown
theorem MemWf.execHostPortReduced {gtsLanes} (h : MemWf s) : OutWf (execHostPortReduced gtsLanes s) :=
  .next (.repriced (.upd (h.foldl fun _ _ ht => ht.setBit)))
theorem MemWf.setEth {p st} (h : MemWf s) : MemWf (s.setEth p st) := h.wr
theorem MemWf.moveInFlight {p} (h : MemWf s) : MemWf (s.moveInFlight p) :=
  .ite h (h.foldl fun _ _ ht => .ite ht (ht.upd.foldl fun _ _ hu => hu.fabSend.bump))
theorem MemWf.portDown {p} (h : MemWf s) : MemWf (s.portDown p) := .ite h.setEth.moveInFlight h.setEth
theorem MemWf.ethCtrl {m} {f : State → State} (h : MemWf s) (hf : ∀ t0, MemWf t0 → MemWf (f t0)) : OutWf (s.ethCtrl m f) :=
  .ite (.next h.permissionError) (.next ((hf _ h).answer))
theorem MemWf.execEthEnable {m p} (h : MemWf s) : OutWf (execEthEnable m p s) := h.ethCtrl fun _ ht => ht.setEth
theorem MemWf.execEthDisable {m p} (h : MemWf s) : OutWf (execEthDisable m p s) := h.ethCtrl fun _ ht => ht.portDown
theorem MemWf.execEthRetrain {m p} (h : MemWf s) : OutWf (execEthRetrain m p s) := h.ethCtrl fun _ ht => .ite ht ht.setEth
theorem MemWf.execEthPortDown {p} (h : MemWf s) : OutWf (execEthPortDown p s) := .next h.portDown
theorem MemWf.finishDesc {d a len stamp} (h : MemWf s) : MemWf (s.finishDesc d a len stamp) := h.draw.upd
theorem MemWf.execEthFrameReceive {p f} (h : MemWf s) : OutWf (execEthFrameReceive p f s) :=
  .ite (.next h) (by split; exacts [.next h.bump, .ite (.next h.bump) (.next h.draw.wr.upd.carry.finishDesc)])
theorem MemWf.execEthTxqTailWrite {d p v} (h : MemWf s) : OutWf (execEthTxqTailWrite d p v s) := by
  unfold Machine.execEthTxqTailWrite
  extract_lets
  split
  · exact .next h.wr.answer
  · exact .next h.wr.upd.answer
theorem MemWf.execEthFrameSent {d p event1588} (h : MemWf s) : OutWf (execEthFrameSent d p event1588 s) :=
  .ite (.next h) (by split; exacts [.next h, .next h.draw.upd.wr.carry.carry.finishDesc])
theorem MemWf.execEthWallOfsWrite {m p v} (h : MemWf s) : OutWf (execEthWallOfsWrite m p v s) :=
  h.ethCtrl fun _ ht => .ite ht (.ite ht.wr.wr.setBit.upd ht.wr.wr.setBit)
/-! ### Fabric -/
theorem MemWf.setSegment {n g} (h : MemWf s) : MemWf (s.setSegment n g) := h.upd
theorem MemWf.smfFollow (h : MemWf s) : MemWf s.smfFollow := h.wr
theorem MemWf.donatedFollow (h : MemWf s) : MemWf s.donatedFollow := h.wr
theorem MemWf.freeSegment {n} (h : MemWf s) : MemWf (s.freeSegment n) :=
  .smfFollow (.donatedFollow (.disarm (.setSegment (h.foldl fun _ _ ht => ht.freeFrame))))
theorem MemWf.expire {n} (h : MemWf s) : MemWf (s.expire n) := by
  unfold State.expire
  extract_lets
  split
  · exact h
  · exact .ite h (.ite h.bump.freeSegment h.bump.setSegment.disarm.smfFollow)
theorem MemWf.execLeaseExpiry {seg} (h : MemWf s) : OutWf (execLeaseExpiry seg s) := .next h.expire
theorem MemWf.donate {src n} (h : MemWf s) : MemWf (s.donate src n) :=
  .ite h (.donatedFollow (.setSegment (h.foldl fun _ _ ht => ht.setFrame)))
theorem MemWf.leaseOp {src p n g} (h : MemWf s) : MemWf (s.leaseOp src p n g).2 := by
  unfold State.leaseOp
  extract_lets
  split
  · split
    · exact h
    · split
      · exact h
      · split
        · exact h
        · exact h.setSegment.disarm.armCmp.smfFollow
  · split
    · exact h
    · split
      · exact h.setSegment.disarm.armCmp.smfFollow
      · exact h
  · split
    · split
      · exact h.freeSegment
      · exact h.setSegment.disarm.smfFollow
    · exact h
theorem MemWf.homeOp {s0 : State} {src p} (h : MemWf s0) : MemWf (s0.homeOp src p).2 := by
  unfold State.homeOp
  extract_lets _ _ _ s
  have hs : MemWf s := .ite h.expire.donate h.expire
  split
  · exact .snd hs
  · extract_lets
    split
    · exact .snd hs
    · split
      · split
        · exact .snd hs
        · exact .snd hs.hbmRead
      · split
        · exact .snd hs
        · split
          · exact .snd hs
          · exact .snd hs.hbmWrite
      · exact hs.leaseOp
      · exact hs.leaseOp
      · exact hs.leaseOp
      · split
        · exact .snd hs
        · split
          · exact .snd hs
          · split
            · exact .snd hs.hbmRead
            · exact .snd hs.hbmRead.hbmWrite
theorem MemWf.fabResend {q port} (h : MemWf s) : MemWf (s.fabResend q port) := h.upd
theorem MemWf.fabBare {op dst port} (h : MemWf s) : MemWf (s.fabBare op dst port) := h.fabResend
theorem MemWf.fabAcked {p} (h : MemWf s) : MemWf (s.fabAcked p) := h.upd
theorem MemWf.fabAccept {p op} {f : State → Out} (h : MemWf s) (hf : ∀ t, MemWf t → OutWf (f t)) : OutWf (s.fabAccept p op f) :=
  .ite (.next h) (.ite (.next h.bump) (hf _ h.upd.fabAcked))
theorem MemWf.fabReply {p r} (h : MemWf s) : MemWf (s.fabReply p r) := h.upd.carry.fabResend
theorem MemWf.fabInOrder {p} {fresh repeated : State → State} (h : MemWf s) (hfresh : ∀ t, MemWf t → MemWf (fresh t))
    (hrepeated : ∀ t, MemWf t → MemWf (repeated t)) : MemWf (s.fabInOrder p fresh repeated) :=
  .ite (hfresh _ h.upd) (.ite (hrepeated _ h) h)
theorem MemWf.fabServe {p op} (h : MemWf s) : OutWf (s.fabServe p op) := by
  unfold State.fabServe
  refine h.fabAccept fun _ ht => .next (ht.fabInOrder (fun _ hu => hu.homeOp.fabReply) fun _ hu => ?_)
  split
  · exact hu.fabResend
  · exact hu.fabBare
theorem MemWf.execFabricRead {p} (h : MemWf s) : OutWf (execFabricRead p s) := h.fabServe
theorem MemWf.execFabricWrite {p} (h : MemWf s) : OutWf (execFabricWrite p s) := h.fabServe
theorem MemWf.execFabricFetchAdd {p} (h : MemWf s) : OutWf (execFabricFetchAdd p s) := h.fabServe
theorem MemWf.execFabricCas {p} (h : MemWf s) : OutWf (execFabricCas p s) := h.fabServe
theorem MemWf.execFabricSwap {p} (h : MemWf s) : OutWf (execFabricSwap p s) := h.fabServe
theorem MemWf.execFabricAcquire {p} (h : MemWf s) : OutWf (execFabricAcquire p s) := h.fabServe
theorem MemWf.execFabricRenew {p} (h : MemWf s) : OutWf (execFabricRenew p s) := h.fabServe
theorem MemWf.execFabricRelease {p} (h : MemWf s) : OutWf (execFabricRelease p s) := h.fabServe
theorem MemWf.smfDone {d status v} (h : MemWf s) : MemWf (s.smfDone d status v) := h.wrP.wr64.upd
theorem MemWf.keepLease {dst q tier status v} (h : MemWf s) : MemWf (s.keepLease dst q tier status v) :=
  .ite h.upd (.ite h.upd h)
theorem MemWf.fabEnd {q status v data} (h : MemWf s) : MemWf (s.fabEnd q status v data) := by
  unfold State.fabEnd
  extract_lets _ s2
  have hs2 : MemWf s2 := .ite h.upd h.upd.keepLease
  split
  · exact .ite (.ite hs2.answer hs2.answer) (.ite hs2 hs2.smfDone)
  · exact hs2
theorem MemWf.execFabricResponse {p} (h : MemWf s) : OutWf (execFabricResponse p s) := by
  unfold Machine.execFabricResponse
  refine h.fabAccept fun _ ht => .next (.fabBare (ht.fabInOrder (fun _ hu => ?_) fun _ hu => hu))
  split
  · exact hu
  · exact .ite hu.wr.hist.upd.upd hu.wr.hist.upd.fabEnd
theorem MemWf.execFabricAck {p} (h : MemWf s) : OutWf (execFabricAck p s) := h.fabAccept fun _ ht => .next ht.upd
theorem MemWf.execFabricProbe {p} (h : MemWf s) : OutWf (execFabricProbe p s) := h.fabAccept fun _ ht => .next ht.fabBare
theorem MemWf.execFabricRetransmit {slot port} (h : MemWf s) : OutWf (execFabricRetransmit slot port s) :=
  .next (h.foldl fun _ _ ht => ht.fabResend.bump)
theorem MemWf.execFabricDead {tag} (h : MemWf s) : OutWf (execFabricDead tag s) := by
  unfold Machine.execFabricDead
  split
  · exact .next h
  · exact .ite (.next h) (.next (.ite h.bump.detectUnit.upd.fabEnd.loseDonors h.bump.detectUnit.upd.fabEnd))
theorem MemWf.execProbeTimer {slot} (h : MemWf s) : OutWf (execProbeTimer slot s) := .ite (.next h.fabBare) (.next h)
theorem MemWf.execLeaseRenewTimer {seg} (h : MemWf s) : OutWf (execLeaseRenewTimer seg s) := .next (h.foldl fun _ _ ht => ht.fabRequest)
theorem MemWf.smfCommand {d op a x y} (h : MemWf s) : MemWf (s.smfCommand d op a x y) := by
  unfold State.smfCommand
  extract_lets
  split
  · exact h.wrP
  · split
    · exact h.smfDone
    · exact .ite h.homeOp.keepLease.smfDone (.ite h.smfDone (.ite h.smfDone (.ite h.fabRequest.wrP.upd h.fabRequest.smfDone)))
theorem MemWf.execSmfAcquire {d a us} (h : MemWf s) : OutWf (execSmfAcquire d a us s) := .next h.smfCommand
theorem MemWf.execSmfRenew {d a us} (h : MemWf s) : OutWf (execSmfRenew d a us s) := .next h.smfCommand
theorem MemWf.execSmfRelease {d a} (h : MemWf s) : OutWf (execSmfRelease d a s) := .next h.smfCommand
theorem MemWf.execSmfFetchAdd {d a v} (h : MemWf s) : OutWf (execSmfFetchAdd d a v s) := .next h.smfCommand
theorem MemWf.execSmfCas {d a cmp v} (h : MemWf s) : OutWf (execSmfCas d a cmp v s) := .next h.smfCommand
theorem MemWf.execSmfSwap {d a v} (h : MemWf s) : OutWf (execSmfSwap d a v s) := .next h.smfCommand
theorem MemWf.execSegAlloc {d} (h : MemWf s) : OutWf (execSegAlloc d s) := by
  unfold Machine.execSegAlloc
  extract_lets
  split
  · exact .next h.wrP
  · split
    · exact .next h.draw.smfDone
    · exact .next (.smfDone (.setSegment (h.draw.foldl fun _ _ ht => ht.grantFrame)))
theorem MemWf.execSegFree {d a} (h : MemWf s) : OutWf (execSegFree d a s) :=
  .ite (.next h.wrP) (by split; exacts [.ite (.next h.freeSegment.smfDone) (.next h.smfDone), .next h.smfDone])
/-! ### Boot -/
/-- Whatever the memories held, a loss of the dies leaves them empty. -/
theorem memWf_dropDies {cause} : MemWf (s.dropDies cause) := memWf_reset.updBoth
theorem MemWf.stopPorter (h : MemWf s) : MemWf s.stopPorter :=
  .resetWin (.resetWin (by split; exacts [.ite h.upd.draw.upd h.upd, h.upd]))
theorem MemWf.setCopy {b f} (h : MemWf s) : MemWf (s.setCopy b f) := h.upd
theorem MemWf.setStage {n} (h : MemWf s) : MemWf (s.setStage n) := h.setFld.setBit
theorem MemWf.repairCore {r p} (h : MemWf s) : MemWf (s.repairCore r p) := .ite h.updTiles h.updTiles
theorem MemWf.fieldRepair (h : MemWf s) : MemWf s.fieldRepair :=
  .foldl (.updTiles (h.foldl fun _ _ ht => ht.repairCore)) fun _ _ ht => ht.setRgnState.updTiles
theorem MemWf.loadStored (h : MemWf s) : MemWf s.loadStored := by
  unfold State.loadStored
  extract_lets _ _ s1 s2
  have hs1 : MemWf s1 := by
    unfold s1
    split
    · exact h.draw.refuseLoad
    · exact h
  have hs2 : MemWf s2 := by
    unfold s2
    split
    · exact .ite h.installSystem.electFrom.upd h.installSystem
    · exact hs1.info.report
  exact hs2.foldl fun _ _ ht => ht.linkCommand
theorem MemWf.startDies {f} (h : MemWf s) : MemWf (s.startDies f) := by
  unfold State.startDies
  extract_lets _ _ _ s3 s4 _ s6
  have hs3 : MemWf s3 := h.upd.wr.wr.setBit.foldl fun _ _ ht => ht.setFld
  have hs4 : MemWf s4 := hs3.setBit.foldl fun _ _ ht => ht.wr.setBit
  have hs6 : MemWf s6 := .ite hs4.upd.wr.headFollow.alertFollow.setBit hs4.upd.wr.headFollow.alertFollow
  exact hs6.fieldRepair.loadStored.setBit.setStage
theorem MemWf.setCause {reentered} (h : MemWf s) : MemWf (s.setCause reentered) := h.wr
theorem MemWf.wakeDies (h : MemWf s) : MemWf s.wakeDies := .ite h (.ite h.upd (.ite h.upd.startDies.setCause h.upd.startDies))
theorem MemWf.wakeFollow (h : MemWf s) : MemWf s.wakeFollow := .ite h.wakeDies h
theorem MemWf.enterStandby (h : MemWf s) : MemWf s.enterStandby.2 := by
  unfold State.enterStandby
  extract_lets s1 s2
  have hs1 : MemWf s1 := h.foldl fun _ _ ht => ht.disableLink
  have hs2 : MemWf s2 := hs1.foldl fun _ _ ht => ht.portDown
  split
  · exact h
  · split
    · exact h
    · exact memWf_dropDies
theorem MemWf.releasePorter {slotId masterEn reentered} (h : MemWf s) : MemWf (s.releasePorter slotId masterEn reentered) :=
  h.upd.wr.setCause
theorem MemWf.bootCopy {b f} (h : MemWf s) : MemWf (s.bootCopy b f) := .ite h.upd.setStage.startDies h.upd.setStage
theorem MemWf.bootFailed (h : MemWf s) : MemWf s.bootFailed := h.upd.setStage
theorem MemWf.execBootChain {a b} (h : MemWf s) : OutWf (execBootChain a b s) := by
  unfold Machine.execBootChain
  extract_lets
  split
  · exact .next h
  · split
    · exact .next h.setCopy.setCopy.bootCopy
    · split
      · exact .next h.setCopy.setCopy.upd.setStage
      · exact .ite (.next h.setCopy.setCopy.upd.bootCopy) (.next h.setCopy.setCopy.bootFailed)
/-! ### Security -/
theorem MemWf.reply {p code data window} (h : MemWf s) : MemWf (s.reply p code data window) := .ite h.wr.wrList h.upd
theorem MemWf.porter {f : State → State} (h : MemWf s) (hf : ∀ t0, MemWf t0 → MemWf (f t0)) : OutWf (s.porter f) :=
  .ite (.next h) (.next (hf _ h))
theorem MemWf.inSession {p} {f : State → State} (h : MemWf s) (hf : ∀ t0, MemWf t0 → MemWf (f t0)) : OutWf (s.inSession p f) :=
  h.porter fun _ ht => .ite (hf _ ht) ht.reply
theorem MemWf.mgtFollow (h : MemWf s) : MemWf s.mgtFollow := h.wr.setBit
theorem MemWf.putAuthority {n x} (h : MemWf s) : MemWf (s.putAuthority n x) := h.upd.mgtFollow
theorem MemWf.rom {f : State → State} (h : MemWf s) (hf : ∀ t0, MemWf t0 → MemWf (f t0)) : OutWf (s.rom f) :=
  .ite (.next h) (.next (hf _ h))
theorem MemWf.execFirmwareUpdate {f} (h : MemWf s) : OutWf (execFirmwareUpdate f s) := h.rom fun _ ht => ht.setCopy.upd.setBit.reply
theorem MemWf.updFollow (h : MemWf s) : MemWf s.updFollow := .ite h h.upd.setBit.reply
theorem MemWf.execActivateFirmware (h : MemWf s) : OutWf (execActivateFirmware s) :=
  h.rom fun _ ht => .ite ht.reply (.ite ht.reply ht.upd.setBit.reply)
theorem MemWf.execGetFirmwareParameters (h : MemWf s) : OutWf (execGetFirmwareParameters s) := h.rom fun _ ht => ht.reply
theorem MemWf.execPldmGetSensor {id} (h : MemWf s) : OutWf (execPldmGetSensor id s) := h.porter fun _ ht => by split <;> exact ht.reply
theorem MemWf.capFor {p watts} (h : MemWf s) : MemWf (s.capFor p watts) := .ite h.setPowerCap.reply h.setPowerCap.reply
theorem MemWf.execCapEffecter {watts} (h : MemWf s) : OutWf (execCapEffecter watts s) := h.porter fun _ ht => ht.capFor
theorem MemWf.standbyFor {p} (h : MemWf s) : MemWf (s.standbyFor p) := h.enterStandby.reply
theorem MemWf.execStandbyEffecter {wake} (h : MemWf s) : OutWf (execStandbyEffecter wake s) :=
  h.porter fun _ ht => .ite ht.wakeDies.reply ht.standbyFor
theorem MemWf.execStandbyRequest (h : MemWf s) : OutWf (execStandbyRequest s) := h.porter fun _ ht => ht.standbyFor
theorem MemWf.execMctpControl {p cmd arg} (h : MemWf s) : OutWf (execMctpControl p cmd arg s) :=
  h.porter fun _ ht => .ite (.ite ht.reply ht.setFld.reply) (.ite ht.reply (.ite ht.reply ht.reply))
theorem MemWf.execDynamicAddressAssignment {a} (h : MemWf s) : OutWf (execDynamicAddressAssignment a s) :=
  .ite (.next h) (.next h.setFld.setBit)
theorem MemWf.spdmError {p e} (h : MemWf s) : MemWf (s.spdmError p e) := h.reply
theorem MemWf.spdmAt {p stage} {f : State → State} (h : MemWf s) (hf : ∀ t0, MemWf t0 → MemWf (f t0)) :
    OutWf (s.spdmAt p stage f) :=
  h.porter fun _ ht => .ite ht.spdmError (hf _ ht)
theorem MemWf.execGetVersion {p} (h : MemWf s) : OutWf (execGetVersion p s) := h.porter fun _ ht => ht.upd.reply
theorem MemWf.execGetCapabilities {p} (h : MemWf s) : OutWf (execGetCapabilities p s) := h.spdmAt fun _ ht => ht.upd.reply
theorem MemWf.execNegotiateAlgorithms {p baseAsym hash dhe aead} (h : MemWf s) :
    OutWf (execNegotiateAlgorithms p baseAsym hash dhe aead s) :=
  h.spdmAt fun _ ht => .ite ht.upd.reply ht.spdmError
theorem MemWf.execGetDigests {p} (h : MemWf s) : OutWf (execGetDigests p s) := h.spdmAt fun _ ht => ht.reply
theorem MemWf.execGetCertificate {p slot offset len} (h : MemWf s) : OutWf (execGetCertificate p slot offset len s) :=
  h.spdmAt fun _ ht => .ite ht.spdmError ht.reply
theorem MemWf.lotSign {bs} (h : MemWf s) : MemWf (s.lotSign bs).2 := h.draw
theorem MemWf.execChallenge {p slot nonce} (h : MemWf s) : OutWf (execChallenge p slot nonce s) :=
  h.spdmAt fun _ ht => .ite ht.spdmError ht.lotSign.reply
theorem MemWf.execGetMeasurements {p index nonce} (h : MemWf s) : OutWf (execGetMeasurements p index nonce s) := by
  unfold Machine.execGetMeasurements
  refine h.spdmAt fun t ht => ?_
  extract_lets body
  cases body with
  | none => exact ht.spdmError
  | some bs => exact ht.lotSign.reply
theorem MemWf.execKeyExchange {p slot sid} (h : MemWf s) : OutWf (execKeyExchange p slot sid s) :=
  h.spdmAt fun _ ht => .ite ht.spdmError ht.lotSign.upd.reply
theorem MemWf.execFinish {p sid requester macOk} (h : MemWf s) : OutWf (execFinish p sid requester macOk s) :=
  h.porter fun _ ht => .ite ht.spdmError (.ite ht.upd.spdmError ht.upd.mgtFollow.reply)
theorem MemWf.secured {p} {f : State → SpdmSession → State} (h : MemWf s) (hf : ∀ t0 t1, MemWf t0 → MemWf (f t0 t1)) :
    OutWf (s.secured p f) :=
  h.porter fun _ ht => by split; exacts [hf _ _ ht, ht.spdmError]
theorem MemWf.execKeyUpdate {p} (h : MemWf s) : OutWf (execKeyUpdate p s) := h.secured fun _ _ ht => ht.upd.reply
theorem MemWf.execHeartbeat {p} (h : MemWf s) : OutWf (execHeartbeat p s) := h.secured fun _ _ ht => ht.reply
theorem MemWf.endInjSession {id} (h : MemWf s) : MemWf (s.endInjSession id) := .ite h.upd.injEnable h
theorem MemWf.execEndSession {p} (h : MemWf s) : OutWf (execEndSession p s) :=
  h.secured fun _ _ ht => .reply (.mgtFollow (.endInjSession (by split; exacts [ht.upd.putAuthority, ht.upd])))
theorem MemWf.execGetBudget {p} (h : MemWf s) : OutWf (execGetBudget p s) := h.porter fun _ ht => ht.reply
theorem MemWf.execSetCap {p watts} (h : MemWf s) : OutWf (execSetCap p watts s) := h.inSession fun _ ht => ht.capFor
theorem MemWf.execSetShare {p d v} (h : MemWf s) : OutWf (execSetShare p d v s) := h.inSession fun _ ht => ht.setFld.reply
theorem MemWf.execGetPartitions {p} (h : MemWf s) : OutWf (execGetPartitions p s) := h.porter fun _ ht => ht.reply
theorem MemWf.execKill {p d} (h : MemWf s) : OutWf (execKill p d s) :=
  h.inSession fun _ ht => .ite ht.reply (.reply (.ite ht.killHere.upd ht))
theorem MemWf.execAdmissionCommand {p stop} (h : MemWf s) : OutWf (execAdmissionCommand p stop s) :=
  h.inSession fun _ ht => ht.admission.reply
theorem MemWf.execImageChunk {p data} (h : MemWf s) : OutWf (execImageChunk p data s) :=
  h.inSession fun _ ht => .ite ht.reply ht.upd.reply
theorem MemWf.execImageLoad {p img} (h : MemWf s) : OutWf (execImageLoad p img s) := by
  unfold Machine.execImageLoad
  exact h.inSession fun _ ht => .ite ht.reply (.ite ht.reply (.ite ht.upd.refuseLoad.reply ht.upd.setImg.setLoad.distribute.reply))
theorem MemWf.execInjectEnable {p} (h : MemWf s) : OutWf (execInjectEnable p s) := h.inSession fun _ ht => ht.upd.injEnable.reply
theorem MemWf.execInjectDisable {p} (h : MemWf s) : OutWf (execInjectDisable p s) := h.inSession fun _ ht => ht.upd.injEnable.reply
theorem MemWf.execSetAuthority {p n digest} (h : MemWf s) : OutWf (execSetAuthority p n digest s) := by
  unfold Machine.execSetAuthority
  refine h.porter fun _ ht => .ite (.ite ht.putAuthority.reply ht.reply) (.ite ht.reply ?_)
  split
  · exact ht.reply
  · exact .ite ht.upd.reply ht.putAuthority.reply
theorem MemWf.execStandby {p} (h : MemWf s) : OutWf (execStandby p s) := h.inSession fun _ ht => ht.standbyFor
theorem MemWf.newChallenge {d} (h : MemWf s) : MemWf (s.newChallenge d) := h.upd.wrList
theorem MemWf.present {t} (h : MemWf s) : MemWf (s.present t) := h.upd.setFld.setFld
theorem MemWf.execDebugChallenge {p d} (h : MemWf s) : OutWf (execDebugChallenge p d s) :=
  h.inSession fun _ ht => ht.newChallenge.reply
theorem MemWf.execDebugPresent {p t} (h : MemWf s) : OutWf (execDebugPresent p t s) :=
  h.inSession fun _ ht => .ite ht.reply ht.present.reply
theorem MemWf.execSecDbgChallenge {m d} (h : MemWf s) : OutWf (execSecDbgChallenge m d s) :=
  .ite (.next h.permissionError) (.next h.newChallenge.answer)
theorem MemWf.execSecDbgPresent {m t} (h : MemWf s) : OutWf (execSecDbgPresent m t s) :=
  .ite (.next h.permissionError) (.next (.answer (.ite h h.present)))
theorem MemWf.execSecDbgPush {m} (h : MemWf s) : OutWf (execSecDbgPush m s) := .ite (.next h.permissionError) h.read.execSecDbgPresent
theorem MemWf.execTokenCheckDone (h : MemWf s) : OutWf (execTokenCheckDone s) := by
  unfold Machine.execTokenCheckDone
  split
  · exact .next h
  · extract_lets _ _ _ s1 _ _ _ _ s2
    have hs1 : MemWf s1 := .ite h.upd.wrList h.upd
    have hs2 : MemWf s2 := .ite hs1.draw hs1
    split
    · exact .next (.ite hs2.upd.ledger.wr.tokenFollow.withdraw.dropToken hs2.upd.ledger.wr.tokenFollow.withdraw)
    · exact .next hs2.wr
theorem MemWf.execTokenEnd {d} (h : MemWf s) : OutWf (execTokenEnd d s) := by
  unfold Machine.execTokenEnd
  split
  · exact .next (.ite h.dropToken h)
  · exact .next h
theorem MemWf.execRevoke {m d} (h : MemWf s) : OutWf (execRevoke m d s) :=
  .ite (.next h.permissionError) (.next h.upd.dropToken.answer)
theorem MemWf.execQuote {m d} (h : MemWf s) : OutWf (execQuote m d s) :=
  .ite (.next h.permissionError) (.ite (.next h.answer) (.next h.upd.setBit.answer))
theorem MemWf.execQuoteDone {d sig} (h : MemWf s) : OutWf (execQuoteDone d sig s) := by
  unfold Machine.execQuoteDone
  extract_lets
  split
  · exact .next h
  · extract_lets _ _ s2
    have hs2 : MemWf s2 := by
      unfold s2
      split
      · exact .ite h.upd.carry.upd h.upd
      · exact h.upd.refuseRec
    exact .ite (.next h.upd) (.next hs2.setBit)
/-! ### Pins -/
theorem memWf_loseVaon : MemWf s.loseVaon := memWf_dropDies.stopPorter.upd
theorem MemWf.execVaonApplied {slotId masterEn} (h : MemWf s) : OutWf (execVaonApplied slotId masterEn s) :=
  .ite (.next h) (.next (.ite h.upd.releasePorter.elect h.upd))
theorem MemWf.execVaonBrownout (h : MemWf s) : OutWf (execVaonBrownout s) := .ite (.next h) (.next memWf_loseVaon)
theorem MemWf.execResetNAssert (h : MemWf s) : OutWf (execResetNAssert s) :=
  .ite (.next h.upd) (.next (.upd (.stopPorter (.ite memWf_dropDies h.upd))))
theorem MemWf.execResetNRelease {slotId masterEn} (h : MemWf s) : OutWf (execResetNRelease slotId masterEn s) :=
  .ite (.next h) (.ite (.next h.upd) (.next (.releasePorter (.upd (.ite h.draw h)))))
theorem MemWf.execPerstN (h : MemWf s) : OutWf (execPerstN s) := .ite (.next h) (.next (.ite h.upd.hostDown h.upd))
theorem MemWf.execPerstNRelease (h : MemWf s) : OutWf (execPerstNRelease s) := .ite (.next h) (.next h.upd)
theorem MemWf.execVinLoss (h : MemWf s) : OutWf (execVinLoss s) := .ite (.next h) (.next (.ite memWf_dropDies h.upd))
theorem MemWf.execVinApplied (h : MemWf s) : OutWf (execVinApplied s) := .ite (.next h) (.next h.upd)
theorem MemWf.execSysRefAppears (h : MemWf s) : OutWf (execSysRefAppears s) :=
  .ite (.next h) (.ite (.next h.upd) (.next (.ite h.upd.setBit.cntFollow.upd h.upd.setBit)))
theorem MemWf.execWakeN (h : MemWf s) : OutWf (execWakeN s) := .next h.wakeDies
/-! ### RegWrite -/
theorem MemWf.regRead {m w o} (h : MemWf s) : MemWf (s.regRead m w o) := by
  unfold State.regRead
  extract_lets plain of_
  have hplain : MemWf plain := h.answer
  have hof : ∀ x, OutWf x → MemWf (of_ x) := fun x hx => by
    cases x with
    | next t => exact hx
    | fault _ => exact h
    | refused _ => exact h
  split
  · exact .ite h.readNow hplain
  · refine .ite (hof _ h.execLdgRecLoad) ?_
    split
    · exact .ite (hof _ h.execLdgDRecLoad) hplain
    · exact hplain
  · split
    · exact hplain.upd
    · exact hplain
  · exact hplain
theorem MemWf.readReg {m v} (h : MemWf s) : MemWf (s.readReg m v) := by
  unfold State.readReg
  split
  · exact h.answer
  · exact h.permissionError
  · split
    · exact h.regRead
    · exact h.answer
    · exact h.permissionError
theorem MemWf.after {x} (h : MemWf s) (hx : OutWf x) : MemWf (s.after x) := by
  cases x with
  | next t => exact hx
  | fault _ => exact h
  | refused _ => exact h
theorem MemWf.onBits {v l} (h : MemWf s) (hl : l.Forall fun e => ∀ t, MemWf t → OutWf (e.2 t)) : MemWf (s.onBits v l) := by
  have hmem := List.forall_iff_forall_mem.1 hl
  clear hl
  unfold State.onBits
  induction l generalizing s with
  | nil => exact h
  | cons e l ih =>
    exact ih (.ite (h.after (hmem e (by simp) _ h)) h) fun e' he' => hmem e' (by simp [he'])
theorem MemWf.tierPush {d} (h : MemWf s) : MemWf (s.tierPush d) := by
  unfold State.tierPush
  extract_lets
  split
  · exact h.after h.execPublish
  · split
    · exact h.after h.execRelease
    · exact .ite (h.after h.execAddHostBuffer) (.ite (h.after h.execWithdrawHostBuffer) h.tierDone)
theorem MemWf.smfPush {d} (h : MemWf s) : MemWf (s.smfPush d) := by
  unfold State.smfPush
  extract_lets
  split
  · exact .ite h.wrP h.smfDone
  · split
    · exact h.after h.execSmfAcquire
    · split
      · exact h.after h.execSmfRenew
      · split
        · exact h.after h.execSmfRelease
        · split
          · exact h.after h.execSmfFetchAdd
          · split
            · exact h.after h.draw.execSmfCas
            · exact .ite (h.after h.execSmfSwap) (.ite (h.after h.execSegAlloc) (h.after h.execSegFree))
theorem MemWf.mailboxPush {cmd} (h : MemWf s) : MemWf (s.mailboxPush cmd) :=
  .ite (h.after h.execGetBudget) (.ite (h.after h.execGetPartitions) (h.after (h.porter fun _ ht => ht.reply)))
theorem MemWf.regCommand {m w o v} (h : MemWf s) : MemWf (s.regCommand m w o v) := by
  unfold State.regCommand
  split
  · exact .ite (h.onBits ⟨fun _ ht => ht.execCoreFaultAck, fun _ ht => ht.execCoreGo, fun _ ht => ht.execCoreStop⟩) h
  · exact .ite (h.after h.execSpdClearRequest) (.ite (h.after h.execSpdMaccWrite) (.ite (h.after h.execSpdWinWrite) h))
  · extract_lets
    split
    · exact h.onBits ⟨fun _ ht => ht.execAtpStop, fun _ ht => ht.execAtpGo, fun _ ht => ht.execAtpFlush, fun _ ht => ht.execAtpErrAck⟩
    · split
      · exact h.after h.execAtpPhaseWrite
      · split
        · exact h.wr
        · exact .ite (h.after h.execAtpDqPush) (.ite (h.after h.execAtpAqPush) (.ite (h.after h.execAtpTqPush) h))
  · split
    · exact h.onBits ⟨fun _ ht => ht.execCouStop, fun _ ht => ht.execCouGo, fun _ ht => ht.execCouFlush, fun _ ht => ht.execCouErrAck⟩
    · exact .ite (h.after h.execCouPhaseWrite) (.ite (h.after h.execRoutePush) h)
  · exact .ite (h.after h.execMove) h
  · split
    · exact h.onBits ⟨fun _ ht => ht.execLinkEnable, fun _ ht => ht.execLinkDisable, fun _ ht => ht.execLinkRetrain,
        fun _ ht => ht.execRecable⟩
    · exact h
  · exact .ite (h.onBits ⟨fun _ ht => ht.execStopAdmit, fun _ ht => ht.execResumeAdmit⟩) h
  · exact .ite (h.onBits (fun _ ht => ht.execCritAck)) h
  · exact .ite (h.onBits ⟨fun _ ht => ht.execArm, fun _ ht => ht.execDisarm⟩) h
  · exact .ite (h.after h.execTmxSelWrite) h
  · split
    · exact h.onBits ⟨fun _ ht => ht.execEnableRings, fun _ ht => ht.execDisableRings⟩
    · exact .ite (h.after h.execSqTailWrite) (.ite (h.after h.execCqHeadWrite) h)
  · split
    · exact .ite (h.after h.execPartCmdKill) h
    · split
      · split
        · exact h.onBits ⟨fun _ ht => ht.execLoad, fun _ ht => ht.execAbort⟩
        · exact .ite (h.onBits ⟨fun _ ht => ht.execJobStart, fun _ ht => ht.execJobStop⟩) h
      · exact h
  · split
    · exact .ite h.tierPush h
    · exact h
  · split
    · exact h.after h.execDrvShareWrite
    · split
      · split
        · exact h.onBits ⟨fun _ ht => ht.execDrvStop, fun _ ht => ht.execDrvGo (replay := bitOf v 2), fun _ ht => ht.execDrvErrAck⟩
        · exact .ite (h.after h.execDrvPlanWrite) (.ite (h.after h.execDrvPlanWrite) h)
      · exact h
  · split
    · exact h.onBits ⟨fun _ ht => ht.execEthEnable, fun _ ht => ht.execEthDisable, fun _ ht => ht.execEthRetrain⟩
    · split
      · exact h.upd
      · split
        · exact h.after h.execEthWallOfsWrite
        · split
          · exact .ite h.wr (.ite (h.after h.execEthTxqTailWrite) h)
          · exact h
  · exact .ite (h.after h.execRegionPowerRequest) h
  · split
    · exact h.onBits (fun _ ht => ht.execAlertAck)
    · split
      · exact h.onBits (fun _ ht => ht.execSnapshotPush)
      · split
        · exact .ite (h.onBits (fun _ ht => ht.execDyeSnapshotPush)) h
        · exact h
  · split
    · exact h.onBits ⟨fun _ ht => ht.execSecDbgChallenge, fun _ ht => ht.execSecDbgPush⟩
    · split
      · exact .ite (h.onBits ⟨fun _ ht => ht.execQuote, fun _ ht => ht.execRevoke⟩) h
      · exact h
  · split
    · exact .ite h.smfPush h
    · exact h
  · exact .ite h.mailboxPush h
  · exact h
theorem MemWf.regStore {m w o v} (h : MemWf s) : MemWf (s.regStore m w o v) :=
  .ite (h.foldl fun _ _ ht => ht.setBit) (by split; exacts [.ite h (.ite h.wr.alertFollow h.wr), h.regCommand])
theorem MemWf.writeReg {m x v} (h : MemWf s) : MemWf (s.writeReg m x v) := by
  unfold State.writeReg
  split
  · exact h.answer
  · exact h.permissionError
  · split
    · exact h.permissionError
    · exact h.answer.regStore
theorem MemWf.sizeError {m x a n} (h : MemWf s) : MemWf (s.sizeError m x a n) := h.refuseRec.upd
theorem MemWf.execRegisterWrite {m t size v} (h : MemWf s) : OutWf (execRegisterWrite m t size v s) := by
  unfold Machine.execRegisterWrite
  split
  · exact .ite (.next h.sizeError) (.next h.writeReg)
  · split
    · exact .ite (.next h.sizeError) (.next h.writeReg)
    · exact .next h.refuse
theorem MemWf.bar2Refused {d n} (h : MemWf s) : MemWf (s.bar2Refused d n) := h.bump.msix.answer
theorem MemWf.bar2Load {d a n} (h : MemWf s) : MemWf (s.bar2Load d a n) := by
  unfold State.bar2Load
  extract_lets
  split
  · exact .ite h.sizeError.bar2Refused (.ite h.readReg.bar2Refused h.readReg)
  · exact h.after h.execHostWindowAccess
  · exact h.ask.answer
  · exact .ite h.read.bar2Refused h.read.answer
theorem MemWf.bar2Store {d a bs} (h : MemWf s) : MemWf (s.bar2Store d a bs) := by
  unfold State.bar2Store
  extract_lets
  split
  · exact .ite h.sizeError.bar2Refused (.ite h.writeReg.bar2Refused h.writeReg)
  · exact .ite h.write.bar2Refused h.write.answer
theorem MemWf.bar0Load {d off n} (h : MemWf s) : MemWf (s.bar0Load d off n) := .ite h.sizeError h.readReg
theorem MemWf.pfLoad {off n} (h : MemWf s) : MemWf (s.pfLoad off n) := .ite h.sizeError h.answer
theorem MemWf.execBar2Access {d off acc} (h : MemWf s) : OutWf (execBar2Access d off acc s) := by
  unfold Machine.execBar2Access
  extract_lets
  split
  · exact .next h
  · split
    · exact .next h.bar0Load
    · split
      · exact .next h.pfLoad
      · split
        · exact .next (.bar2Refused (.ite h (by split; exacts [h.sizeError, h])))
        · split
          · exact .next h.bar2Store
          · exact .next h.bar2Load
/-! ### Tokens -/
theorem MemWf.endToken {r x code rec rest} (h : MemWf s) : MemWf (s.endToken r x code rec rest) := by
  unfold State.endToken
  extract_lets w _ s1 s2
  have hw : MemWf w.2 := by
    unfold w
    split
    · exact h
    · exact h.write
  have hs1 : MemWf s1 := .ite hw.atpFault hw
  have hs2 : MemWf s2 := by
    unfold s2
    split
    · exact hw.atpError
    · split
      · exact hs1.upd
      · exact hw.atpError
  exact hs2.bump.putQueue.settleAll
theorem MemWf.touchRows {r v} : ∀ {as} {s : State}, MemWf s → MemWf (s.touchRows r v as).2
  | [], _, h => h
  | _ :: _, _, h => by
    unfold State.touchRows
    extract_lets
    split
    · exact h.read
    · exact h.read.touchRows
theorem MemWf.execToken {r} (h : MemWf s) : OutWf (execToken r s) := by
  unfold Machine.execToken
  split
  · exact .next h
  · split
    · exact .next h
    · extract_lets _ _ ct
      have hct : MemWf ct.2 := by
        unfold ct
        split
        · exact h
        · exact h.read
      split
      · exact .next h.endToken
      · split
        · exact .next h.endToken
        · split
          · exact .next hct.endToken
          · split
            · exact .next hct.endToken
            · split
              · exact .next hct.touchRows.endToken
              · exact .ite (.next hct.touchRows.endToken) (.next hct.touchRows.endToken)
/-! ### Dispatch -/
/-- exec is unfolded first here: a check by definition would work out the pool of leases. -/
theorem MemWf.exec_segAlloc {d} (h : MemWf s) : OutWf (exec (.segAlloc d) s) := by
  delta Machine.exec
  exact h.execSegAlloc
theorem MemWf.exec (h : MemWf s) : ∀ i, OutWf (exec i s)
  | .registerWrite .. => h.execRegisterWrite | .cntNowLRead m => h.execCntNowLRead (m := m) | .nop .. => h.execNop
  | .add .. => h.execAdd | .sub .. => h.execSub | .mul .. => h.execMul | .logic .. => h.execLogic | .shift .. => h.execShift
  | .addi .. => h.execAddi | .movi .. => h.execMovi | .cmp .. => h.execCmp | .cmpi .. => h.execCmpi | .plog .. => h.execPlog
  | .lds .. => h.execLds | .sts .. => h.execSts | .rdsr .. => h.execRdsr | .amov .. => h.execAmov | .aadd .. => h.execAadd
  | .aaddi .. => h.execAaddi | .ard .. => h.execArd | .vld .. => h.execVld | .vst .. => h.execVst | .vop .. => h.execVop
  | .vfma .. => h.execVfma | .vfunc .. => h.execVfunc | .vred .. => h.execVred | .vcvt .. => h.execVcvt | .vqmx .. => h.execVqmx
  | .vbcast .. => h.execVbcast | .vtail .. => h.execVtail | .vacc .. => h.execVacc | .mload .. => h.execMload
  | .mloadComplete .. => h.execMloadComplete | .mma .. => h.execMma | .mmaRowWritten .. => h.execMmaRowWritten
  | .dma .. => h.execDma | .dmaComplete .. => h.execDmaComplete | .dwait .. => h.execDwait | .send .. => h.execSend
  | .sendComplete .. => h.execSendComplete | .recv .. => h.execRecv | .swait .. => h.execSwait | .rwait .. => h.execRwait
  | .semset .. => h.execSemset | .semclr .. => h.execSemclr | .semwait .. => h.execSemwait | .barrier .. => h.execBarrier
  | .barrierRelease .. => h.execBarrierRelease | .fence .. => h.execFence | .br .. => h.execBr | .loop .. => h.execLoop
  | .tbound .. => h.execTbound | .halt .. => h.execHalt | .tileGateOpen .. => h.execTileGateOpen
  | .tileOverrun .. => h.execTileOverrun | .coreGo .. => h.execCoreGo | .coreStop .. => h.execCoreStop
  | .coreFaultAck .. => h.execCoreFaultAck | .abandonComplete .. => h.execAbandonComplete
  | .scratchpadAccess .. => h.execScratchpadAccess | .bankGrant .. => h.execBankGrant | .eccWriteBack .. => h.execEccWriteBack
  | .spdWinWrite .. => h.execSpdWinWrite | .spdMaccWrite .. => h.execSpdMaccWrite | .spdClearRequest .. => h.execSpdClearRequest
  | .clearStart .. => h.execClearStart | .clearDone .. => h.execClearDone | .bistRowStart .. => h.execBistRowStart
  | .bistRowRelease .. => h.execBistRowRelease | .atpDqPush .. => h.execAtpDqPush | .atpAqPush .. => h.execAtpAqPush
  | .atpTqPush .. => h.execAtpTqPush | .atpPhaseWrite .. => h.execAtpPhaseWrite | .atpStop .. => h.execAtpStop
  | .atpGo .. => h.execAtpGo | .atpFlush .. => h.execAtpFlush | .atpErrAck .. => h.execAtpErrAck
  | .attentionJob .. => h.execAttentionJob | .merge .. => h.execMerge | .append .. => h.execAppend | .commit .. => h.execCommit
  | .token .. => h.execToken | .atpClearDone .. => h.execAtpClearDone | .hbmAccess .. => h.execHbmAccess
  | .hbmScrubTick .. => h.execHbmScrubTick | .hbmControllerFailed .. => h.execHbmControllerFailed
  | .hbmSelfRefreshEntry .. => h.execHbmSelfRefreshEntry | .hbmSelfRefreshExit .. => h.execHbmSelfRefreshExit
  | .publish .. => h.execPublish | .publishAtPackage .. => h.execPublishAtPackage | .publishResult .. => h.execPublishResult
  | .release .. => h.execRelease | .addHostBuffer .. => h.execAddHostBuffer | .withdrawHostBuffer .. => h.execWithdrawHostBuffer
  | .pageMoveComplete .. => h.execPageMoveComplete | .backgroundDemotion .. => h.execBackgroundDemotion
  | .promotionStart .. => h.execPromotionStart | .pinExpiry .. => h.execPinExpiry | .routePush .. => h.execRoutePush
  | .couPhaseWrite .. => h.execCouPhaseWrite | .couStop .. => h.execCouStop | .couGo .. => h.execCouGo
  | .couFlush .. => h.execCouFlush | .couErrAck .. => h.execCouErrAck | .select .. => h.execSelect
  | .countMessage .. => h.execCountMessage | .grantMessage .. => h.execGrantMessage | .dispatchRow .. => h.execDispatchRow
  | .returnRow .. => h.execReturnRow | .couClearDone .. => h.execCouClearDone | .streamStart .. => h.execStreamStart
  | .chunkFetch .. => h.execChunkFetch | .streamEnd .. => h.execStreamEnd | .streamReadyPoint .. => h.execStreamReadyPoint
  | .bufferRelease .. => h.execBufferRelease | .cancellation .. => h.execCancellation | .drvStop .. => h.execDrvStop
  | .drvGo _ _ _ r => h.execDrvGo (replay := r) | .drvErrAck .. => h.execDrvErrAck | .drvPlanWrite .. => h.execDrvPlanWrite
  | .drvShareWrite .. => h.execDrvShareWrite | .drvDyeClear .. => h.execDrvDyeClear | .manifestCheck .. => h.execManifestCheck
  | .loadUnit .. => h.execLoadUnit | .weightSetRepair .. => h.execWeightSetRepair
  | .weightReplacement .. => h.execWeightReplacement | .openSession .. => h.execOpenSession | .prefill .. => h.execPrefill
  | .decode .. => h.execDecode | .verify .. => h.execVerify | .suspend .. => h.execSuspend | .resume .. => h.execResume
  | .fork .. => h.execFork | .close .. => h.execClose | .stepSeal .. => h.execStepSeal | .stepPlan .. => h.execStepPlan
  | .stepStart .. => h.execStepStart | .phasePoint .. => h.execPhasePoint | .stepReport .. => h.execStepReport
  | .reshareTick .. => h.execReshareTick | .priceChange .. => h.execPriceChange | .freqAmend .. => h.execFreqAmend
  | .failGuardCheck .. => h.execFailGuardCheck | .itemFailure .. => h.execItemFailure | .stopAdmit .. => h.execStopAdmit
  | .resumeAdmit .. => h.execResumeAdmit | .load .. => h.execLoad | .abort .. => h.execAbort
  | .imageFetchDone .. => h.execImageFetchDone | .imageCopy .. => h.execImageCopy
  | .imageVerifyReport .. => h.execImageVerifyReport | .imageInstall .. => h.execImageInstall
  | .systemImageSync .. => h.execSystemImageSync | .move .. => h.execMove | .regionClaim .. => h.execRegionClaim
  | .drainPoint .. => h.execDrainPoint | .preemptSaveDone .. => h.execPreemptSaveDone | .redyeDone .. => h.execRedyeDone
  | .restore .. => h.execRestore | .jobResumePoint .. => h.execJobResumePoint | .partCmdKill .. => h.execPartCmdKill
  | .killArrival .. => h.execKillArrival | .killSweepDone .. => h.execKillSweepDone | .jobStart .. => h.execJobStart
  | .jobStop .. => h.execJobStop | .jobGoPoint .. => h.execJobGoPoint | .linkTraining .. => h.execLinkTraining
  | .laneLoss .. => h.execLaneLoss | .spareLaneReady .. => h.execSpareLaneReady
  | .frameUncorrectable .. => h.execFrameUncorrectable | .linkEnable .. => h.execLinkEnable
  | .linkDisable .. => h.execLinkDisable | .linkRetrain .. => h.execLinkRetrain | .recable .. => h.execRecable
  | .heartbeatLoss .. => h.execHeartbeatLoss | .lightLoss .. => h.execLightLoss | .lossNotice .. => h.execLossNotice
  | .masterTakeover => h.execMasterTakeover | .messagePacket .. => h.execMessagePacket | .creditPacket .. => h.execCreditPacket
  | .ackPacket .. => h.execAckPacket | .refusedPacket .. => h.execRefusedPacket | .barrierPacket .. => h.execBarrierPacket
  | .syncExchange .. => h.execSyncExchange | .counterFirstLock .. => h.execCounterFirstLock | .holdover => h.execHoldover
  | .holdoverTimeout => h.execHoldoverTimeout | .comparatorFire .. => h.execComparatorFire | .freqPacket .. => h.execFreqPacket
  | .switchPoint .. => h.execSwitchPoint | .hostWindowAccess .. => h.execHostWindowAccess
  | .hostReadCompletion .. => h.execHostReadCompletion | .bar2Access .. => h.execBar2Access
  | .sqTailWrite .. => h.execSqTailWrite | .ringRead .. => h.execRingRead | .cqHeadWrite .. => h.execCqHeadWrite
  | .recordPost .. => h.execRecordPost | .interruptCoalesceTimer .. => h.execInterruptCoalesceTimer
  | .enableRings .. => h.execEnableRings | .disableRings .. => h.execDisableRings | .flr .. => h.execFlr
  | .surpriseDown => h.execSurpriseDown | .hostPortReduced .. => h.execHostPortReduced
  | .ethFrameReceive .. => h.execEthFrameReceive | .ethTxqTailWrite .. => h.execEthTxqTailWrite
  | .ethEnable .. => h.execEthEnable | .ethDisable .. => h.execEthDisable | .ethRetrain .. => h.execEthRetrain
  | .ethWallOfsWrite .. => h.execEthWallOfsWrite | .fabricRead .. => h.execFabricRead | .fabricWrite .. => h.execFabricWrite
  | .fabricFetchAdd .. => h.execFabricFetchAdd | .fabricCas .. => h.execFabricCas | .fabricSwap .. => h.execFabricSwap
  | .fabricAcquire .. => h.execFabricAcquire | .fabricRenew .. => h.execFabricRenew | .fabricRelease .. => h.execFabricRelease
  | .fabricResponse .. => h.execFabricResponse | .fabricAck .. => h.execFabricAck | .fabricProbe .. => h.execFabricProbe
  | .leaseExpiry .. => h.execLeaseExpiry | .fabricRetransmit .. => h.execFabricRetransmit | .fabricDead .. => h.execFabricDead
  | .probeTimer .. => h.execProbeTimer | .smfAcquire .. => h.execSmfAcquire | .smfRenew .. => h.execSmfRenew
  | .smfRelease .. => h.execSmfRelease | .smfFetchAdd .. => h.execSmfFetchAdd | .smfCas .. => h.execSmfCas
  | .smfSwap .. => h.execSmfSwap | .segAlloc .. => h.exec_segAlloc | .segFree .. => h.execSegFree
  | .regionPowerRequest .. => h.execRegionPowerRequest | .regionEntryDone .. => h.execRegionEntryDone
  | .regionWakeDone .. => h.execRegionWakeDone | .idleRetTimer .. => h.execIdleRetTimer | .idleOffTimer .. => h.execIdleOffTimer
  | .ivrShort .. => h.execIvrShort | .hiccupRetry .. => h.execHiccupRetry | .referenceClockLoss => h.execReferenceClockLoss
  | .thermalSample .. => h.execThermalSample | .throttleRepeat .. => h.execThrottleRepeat
  | .thermalCeilingRise .. => h.execThermalCeilingRise | .ceilingChange .. => h.execCeilingChange
  | .stretchTimeout .. => h.execStretchTimeout | .budgetTick => h.execBudgetTick | .fastPowerLimit .. => h.execFastPowerLimit
  | .ageingSample .. => h.execAgeingSample | .critAck .. => h.execCritAck | .standbyRequest => h.execStandbyRequest
  | .wakeN => h.execWakeN | .pwrWarnN => h.execPwrWarnN | .frozenClear => h.execFrozenClear
  | .ledgerEvent .. => h.execLedgerEvent | .ledgerPeriod => h.execLedgerPeriod | .recordCommit .. => h.execRecordCommit
  | .alertAck .. => h.execAlertAck | .ldgRecLoad .. => h.execLdgRecLoad | .ldgDRecLoad .. => h.execLdgDRecLoad
  | .snapshotPush .. => h.execSnapshotPush | .dyeSnapshotPush .. => h.execDyeSnapshotPush
  | .snapshotDone .. => h.execSnapshotDone | .arm .. => h.execArm | .disarm .. => h.execDisarm
  | .tmxSelWrite .. => h.execTmxSelWrite | .tmxSwitchDone .. => h.execTmxSwitchDone | .ppsPulse => h.execPpsPulse
  | .bootChain .. => h.execBootChain | .firmwareUpdate .. => h.execFirmwareUpdate | .activateFirmware => h.execActivateFirmware
  | .pldmGetSensor .. => h.execPldmGetSensor | .capEffecter .. => h.execCapEffecter
  | .standbyEffecter .. => h.execStandbyEffecter | .getFirmwareParameters => h.execGetFirmwareParameters
  | .mctpControl .. => h.execMctpControl | .getVersion .. => h.execGetVersion | .getCapabilities .. => h.execGetCapabilities
  | .negotiateAlgorithms .. => h.execNegotiateAlgorithms | .getDigests .. => h.execGetDigests
  | .getCertificate .. => h.execGetCertificate | .challenge .. => h.execChallenge | .getMeasurements .. => h.execGetMeasurements
  | .keyExchange .. => h.execKeyExchange | .finish .. => h.execFinish | .keyUpdate .. => h.execKeyUpdate
  | .heartbeat .. => h.execHeartbeat | .endSession .. => h.execEndSession | .getBudget .. => h.execGetBudget
  | .setCap .. => h.execSetCap | .setShare .. => h.execSetShare | .getPartitions .. => h.execGetPartitions
  | .kill .. => h.execKill | .admissionCommand .. => h.execAdmissionCommand | .imageChunk .. => h.execImageChunk
  | .imageLoad .. => h.execImageLoad | .injectEnable .. => h.execInjectEnable | .injectDisable .. => h.execInjectDisable
  | .debugChallenge .. => h.execDebugChallenge | .debugPresent .. => h.execDebugPresent | .setAuthority .. => h.execSetAuthority
  | .standby .. => h.execStandby | .secDbgChallenge .. => h.execSecDbgChallenge | .secDbgPresent .. => h.execSecDbgPresent
  | .tokenCheckDone => h.execTokenCheckDone | .tokenEnd .. => h.execTokenEnd | .quote .. => h.execQuote
  | .revoke .. => h.execRevoke | .vaonApplied .. => h.execVaonApplied | .resetNAssert => h.execResetNAssert
  | .resetNRelease .. => h.execResetNRelease | .perstN => h.execPerstN | .vinLoss => h.execVinLoss
  | .vaonBrownout => h.execVaonBrownout | .vinApplied => h.execVinApplied | .sysRefAppears => h.execSysRefAppears
  | .pwrWarnNRelease => h.execPwrWarnNRelease | .perstNRelease => h.execPerstNRelease | .ethPortDown .. => h.execEthPortDown
  | .ethFrameSent .. => h.execEthFrameSent | .leaseRenewTimer .. => h.execLeaseRenewTimer | .restoreDone .. => h.execRestoreDone
  | .quoteDone .. => h.execQuoteDone | .controlPacket .. => h.execControlPacket
  | .regionPllLossOfLock .. => h.execRegionPllLossOfLock | .rgnControllerWatchdog .. => h.execRgnControllerWatchdog
  | .nightPorterWatchdog => h.execNightPorterWatchdog | .dieBridgeFailure => h.execDieBridgeFailure
  | .dynamicAddressAssignment .. => h.execDynamicAddressAssignment
/-! ### Tick -/
theorem MemWf.countTick (h : MemWf s) : MemWf s.countTick := h.upd
theorem MemWf.enterWaiting {r} (h : MemWf s) : MemWf (s.enterWaiting r) :=
  .ite h.beginEntry.pend.pkgFollow (.ite h.beginEntry.pend.pkgFollow h)
theorem MemWf.saveBegins {r} (h : MemWf s) : MemWf (s.saveBegins r) := .ite h.setMv h
theorem MemWf.countWaits {ns} (h : MemWf s) : MemWf (s.countWaits ns) := h.foldl fun _ _ ht => ht.bump
theorem MemWf.tick (h : MemWf s) : MemWf s.tick := by
  unfold State.tick
  extract_lets _ _ s2 s3 s4
  have hs2 : MemWf s2 := h.countTick.countWaits.foldl fun _ _ ht => ht.jobFollow
  have hs3 : MemWf s3 := hs2.foldl fun _ _ ht => ht.enterWaiting.saveBegins
  have hs4 : MemWf s4 := .ite hs3 (hs3.foldl fun _ _ ht => ht.summary)
  split
  · exact h
  · split
    · exact h.countTick.updFollow.wakeFollow
    · exact hs4.powerFollow.postFails.foldAll.freeze.alertFollow.withdraw.tmxFollow.hbmReady.ldgReady.tierFollow.smfFollow.updFollow
/-! ### Step -/
theorem MemWf.step (h : MemWf s) : OutWf (step s) := by
  unfold Machine.step
  split
  · exact .next h.tick
  · exact h.upd.exec _

end Sys2Proof.Machine
end

section
/-! The statements about the canonical form of the memories: after reset and after every step. -/

namespace Sys2Proof.Machine

/-- Settles O3: the three memories after reset are empty tables. -/
theorem resetMemoryWf : Obligations.ResetMemoryWf := memWf_iff.1 memWf_reset

/-- Settles O4: each of the 328 commands, and the tick of the empty queue, keeps the canonical form (MemWf.exec, MemWf.tick). -/
theorem stepKeepsMemoryWf : Obligations.StepKeepsMemoryWf := by
  unfold Obligations.StepKeepsMemoryWf
  intro s t hs hstep
  have h : OutWf (step s) := (memWf_iff.2 hs).step
  rw [hstep] at h
  exact memWf_iff.1 h

end Sys2Proof.Machine
end

section
/-! Windows and master access (R97, R98): what a write of either register comes to, and the statement about them. -/

namespace Sys2Proof.Machine

/-- The write of one register of the scratchpad's window and the region controller's answer to it. -/
theorem wr_answer_results (s : State) (w : Win) (o : Nat) (v : Word32) (data : List Byte) :
    let t := (s.wr w o v).answer data
    t.rd w o = v ∧ t.resp.permission = false ∧ SameRegsBut [regKey w o] s t ∧ t.cores = s.cores ∧ SameMemory s t :=
  ⟨State.rd_wr_self s w o v, rfl, (SameRegsBut.refl _ s).wr w o v List.mem_cons_self, rfl, .of_eq rfl rfl rfl⟩

theorem permissionError_results (s : State) (n : Nat) :
    s.permissionError n = { s with resp := (s.permissionError n).resp } ∧ (s.permissionError n).resp.permission = true := ⟨rfl, rfl⟩

section
variable {s : State} {r : RegionNo} {m : Master}

/-- A window is set where no core runs, the word is one that R97 takes, and no row changes class. -/
theorem State.winWrite_own {k : CorePos} {n : Fin 8} {v : Word32} (hstill : s.coresStill r = true) (hbad : winBad v = false)
    (hrows : s.classRows { region := r, pos := k } v = []) : s.winWrite (.regionController r) r k n v =
      (s.wr (.spd r) (SPD_WIN + k.val * 0x20 + n.val * 4) (v &&& winMask)).answer [] := by
  simp [State.winWrite, State.classWrite, hstill, hbad, hrows]

theorem State.winWrite_refused {k : CorePos} {n : Fin 8} {v : Word32} (h : m ≠ .regionController r ∨ s.coresStill r = false) :
    s.winWrite m r k n v = s.permissionError := by
  rw [State.winWrite, if_pos]
  simpa [or_assoc] using Or.inl h

theorem State.maccWrite_own {j : Fin 10} {v : Word32} (hstill : s.coresStill r = true) : s.maccWrite (.regionController r) r j v =
    (s.wr (.spd r) (SPD_MACC + 4 * j.val) (v &&& maccMask)).answer [] := by
  simp [State.maccWrite, hstill]

theorem State.maccWrite_refused {j : Fin 10} {v : Word32} (h : m ≠ .regionController r ∨ s.coresStill r = false) :
    s.maccWrite m r j v = s.permissionError := by
  rw [State.maccWrite, if_pos]
  simpa using h

end

/-- Settles O23, by what a write of a window and one of a master-access register come to: the register's defined bits, or a
permission error. -/
theorem windowResults : Obligations.WindowResults := by
  unfold Obligations.WindowResults
  intro s r k n j v m own win
  refine ⟨fun hstill hbad hrows => ⟨_, congrArg Host.Outcome.next (State.winWrite_own hstill hbad hrows), wr_answer_results ..⟩,
    fun hstill => ⟨_, congrArg Host.Outcome.next (State.maccWrite_own hstill), wr_answer_results ..⟩, fun h i hi => ?_⟩
  simp only [List.mem_cons, List.not_mem_nil, or_false] at hi
  rcases hi with rfl | rfl
  · exact ⟨_, congrArg Host.Outcome.next (State.winWrite_refused h), permissionError_results s 4⟩
  · exact ⟨_, congrArg Host.Outcome.next (State.maccWrite_refused h), permissionError_results s 4⟩

end Sys2Proof.Machine
end

section
/-! Clears (R108 to R110): a request, the start, and the rows that a clear leaves zero, and the statement about them. -/

namespace Sys2Proof.Machine

/-! ### Fields above the one that is written -/

/-- A field above the one written keeps its value. -/
theorem bitsOf_putBits_above {w : Nat} (x : BitVec w) (lo n v l m : Nat) (h : lo + n ≤ w) (hl : lo + n ≤ l) :
    bitsOf (putBits x lo n v) l m = bitsOf x l m := by
  have hlow : v % 2 ^ n * 2 ^ lo + x.toNat % 2 ^ lo < 2 ^ (lo + n) := by
    have hlo : x.toNat % 2 ^ lo < 2 ^ lo := Nat.mod_lt _ (by positivity)
    have hv : v % 2 ^ n < 2 ^ n := Nat.mod_lt _ (by positivity)
    calc v % 2 ^ n * 2 ^ lo + x.toNat % 2 ^ lo < (v % 2 ^ n + 1) * 2 ^ lo := by linarith
      _ ≤ 2 ^ n * 2 ^ lo := Nat.mul_le_mul_right _ hv
      _ = 2 ^ (lo + n) := by ring
  have hhigh : (putBits x lo n v).toNat / 2 ^ (lo + n) = x.toNat / 2 ^ (lo + n) := by
    rw [toNat_putBits x lo n v h, Nat.add_assoc, Nat.add_comm, Nat.add_mul_div_right _ _ (by positivity), Nat.div_eq_of_lt hlow,
      Nat.zero_add]
  have hsplit : ∀ y : Nat, y / 2 ^ l = y / 2 ^ (lo + n) / 2 ^ (l - (lo + n)) := fun y => by
    rw [Nat.div_div_eq_div_mul, ← pow_add, Nat.add_sub_cancel' hl]
  rw [bitsOf, bitsOf, hsplit, hsplit, hhigh]

theorem State.fld_setFld_above (s : State) (w : Win) (o lo n v l m : Nat) (h : lo + n ≤ 32) (hl : lo + n ≤ l) :
    (s.setFld w o lo n v).fld w o l m = s.fld w o l m := by
  rw [State.fld, State.setFld, State.rd_wr_self, bitsOf_putBits_above _ _ _ _ _ _ h hl, State.fld]

theorem regKey_ne {w : Win} {o p : Nat} (h : o ≠ p) : regKey w o ≠ regKey w p := fun e => h (Nat.add_left_cancel e)

/-! ### The clearing engine -/

section
variable {s : State} {r : RegionNo} {c : Clear}

theorem clrGet_clrSet (t : Tab (Option Clear)) (r : RegionNo) (x : Option Clear) : clrGet (clrSet t r x) r = x :=
  tabGet_tabSet_self _ _ _ _

theorem State.clearing_iff : s.clearing r = ((clrGet s.clrNow r).isSome || (clrGet s.clrPend r).isSome) := rfl

/-- The bits that follow the engine leave the STATE and CAUSE of its last clear. -/
theorem State.fld_clrBits (s : State) (r : RegionNo) (l m : Nat) (h : l + m ≤ 3 ∨ 4 ≤ l) :
    (s.clrBits r).fld (.spd r) SPD_CLR_STATUS l m = s.fld (.spd r) SPD_CLR_STATUS l m := by
  refine (State.fld_setFld_other _ _ _ _ _ _ _ _ _ _ (regKey_ne (by decide))).trans ?_
  obtain h | h := h
  · exact State.fld_setFld_below _ _ _ _ _ _ _ _ (by decide) h
  · exact State.fld_setFld_above _ _ _ _ _ _ _ _ (by decide) h

/-- An accepted request of one slice's rows becomes the pending clear (R108, R109). -/
theorem State.clearRequest_accepted {v : Word32} (hgo : bitOf v 0 = true) (hwhole : bitOf v 1 = false) (hall : bitOf v 26 = false)
    (hrows : bitsOf v 8 9 ≤ bitsOf v 17 9) (hpend : clrGet s.clrPend r = none) (hidle : s.coresIdle r = true) :
    s.clearRequest (.regionController r) r v =
      (s.clrPut r
        { whole := false, core := some (Fin.ofNat 64 (bitsOf v 2 6)), first := bitsOf v 8 9, last := bitsOf v 17 9,
          cause := .request }).answer [] := by
  simp [State.clearRequest, hgo, hwhole, hall, Nat.not_lt.2 hrows, hpend, hidle]

/-- No test is in progress on any slice: dropping tests changes nothing but where the testers stand. -/
theorem State.testDrops_idle {lo hi : Nat} : ∀ (l : List CoreId) {s : State}, (∀ q, (s.bistOf q).active = false) →
    ∃ b, l.foldl (fun t q => t.testDrop q lo hi) s = { s with bist := b }
  | [], _, _ => ⟨_, rfl⟩
  | q :: l, s, h => by
    have hdrop : s.testDrop q lo hi = s.setBist q { s.bistOf q with row := 0 } := by simp [State.testDrop, h q]
    have hidle : ∀ p, ((s.setBist q { s.bistOf q with row := 0 }).bistOf p).active = false := fun p => by
      rw [State.bistOf, State.setBist, tabGet_tabSet]
      split
      · exact h q
      · exact h p
    obtain ⟨b, hb⟩ := State.testDrops_idle l hidle
    rw [List.foldl_cons, hdrop, hb]
    exact ⟨_, rfl⟩

/-- The pending clear c becomes the one in progress. -/
def State.clearTaken (s : State) (r : RegionNo) (c : Clear) : State :=
  { s with clrNow := clrSet s.clrNow r (some { c with since := s.now }), clrPend := clrSet s.clrPend r none }
/-- Clear c of a region has begun, the testers at b. -/
def State.clearBegun (s : State) (r : RegionNo) (c : Clear) (b : Tab Bist) : State :=
  ((({ s.clearTaken r c with bist := b } : State).setFld (.spd r) SPD_CLR_STATUS 0 3 1).setFld (.spd r) SPD_CLR_STATUS 4 3
    (causeNo c.cause)).setFld (.spd r) SPD_BIST_STATUS 0 9 0

/-- Where the engine is free, no access waits and no test is in progress, the pending clear of one slice begins. -/
theorem execClearStart_idle (hnow : clrGet s.clrNow r = none) (hpend : clrGet s.clrPend r = some c) (hwhole : c.whole = false)
    (hq : s.bankQ = []) (hidle : ∀ q : CoreId, (s.bistOf q).active = false) :
    ∃ b l, execClearStart r s = .next ((({ s.clearBegun r c b with bankQ := l } : State).clrBits r).bistBits r) := by
  obtain ⟨b, hs2⟩ := State.testDrops_idle (lo := c.first) (hi := c.last + 1) (clearCores r c) (s := s.clearTaken r c) hidle
  refine ⟨b, (s.clearBegun r c b).bankQ.filter (fun q => q.core.region != r), ?_⟩
  unfold execClearStart
  rw [hnow, hpend]
  dsimp -zeta only
  extract_lets s1 s2 s3 gone s4 s5
  have hs3 : s3 = s.clearBegun r c b := by
    have hs2 : s2 = { s.clearTaken r c with bist := b } := hs2
    unfold s3
    rw [hs2]
    rfl
  have hgone : gone = [] := by
    have hbank : s3.bankQ = [] := by rw [hs3]; exact hq
    unfold gone
    rw [hbank, List.filter_nil]
  have hs5 : s5 = { s3 with bankQ := s3.bankQ.filter fun q => q.core.region != r } := by
    unfold s5 s4
    rw [hwhole, hgone]
    rfl
  rw [hs5, hs3]

theorem State.clearBegun_state (b : Tab Bist) : (s.clearBegun r c b).fld (.spd r) SPD_CLR_STATUS 0 3 = 1 := by
  rw [State.clearBegun, State.fld_setFld_other _ _ _ _ _ _ _ _ _ _ (regKey_ne (by decide)),
    State.fld_setFld_below _ _ _ _ _ _ _ _ (by decide) (by decide), State.fld_setFld_self _ _ _ _ _ _ (by decide)]
  rfl

theorem causeNo_mod (x : ClrCause) : causeNo x % 2 ^ 3 = causeNo x := by cases x <;> rfl

theorem State.clearBegun_cause (b : Tab Bist) : (s.clearBegun r c b).fld (.spd r) SPD_CLR_STATUS 4 3 = causeNo c.cause := by
  rw [State.clearBegun, State.fld_setFld_other _ _ _ _ _ _ _ _ _ _ (regKey_ne (by decide)),
    State.fld_setFld_self _ _ _ _ _ _ (by decide), causeNo_mod]

/-- SPD_STATUS is not SPD_CLR_STATUS. -/
theorem State.fld_bistBits (s : State) (r : RegionNo) (l m : Nat) :
    (s.bistBits r).fld (.spd r) SPD_CLR_STATUS l m = s.fld (.spd r) SPD_CLR_STATUS l m :=
  (State.fld_setFld_other _ _ _ _ _ _ _ _ _ _ (regKey_ne (by decide))).trans
    (State.fld_setFld_other _ _ _ _ _ _ _ _ _ _ (regKey_ne (by decide)))

theorem answers_clearStart (hnow : clrGet s.clrNow r = none) (hpend : clrGet s.clrPend r = some c) (hwhole : c.whole = false)
    (hq : s.bankQ = []) (hidle : ∀ q : CoreId, (s.bistOf q).active = false) :
    Answers (.clearStart r) s (fun t => clrGet t.clrNow r = some { c with since := s.now } ∧ clrGet t.clrPend r = none ∧
      t.fld (.spd r) SPD_CLR_STATUS 0 3 = 1 ∧ t.fld (.spd r) SPD_CLR_STATUS 4 3 = causeNo c.cause ∧ t.cores = s.cores ∧
      SameMemory s t) := by
  obtain ⟨b, l, hexec⟩ := execClearStart_idle hnow hpend hwhole hq hidle
  refine ⟨_, hexec, clrGet_clrSet .., clrGet_clrSet .., ?_, ?_, rfl, .of_eq rfl rfl rfl⟩
  · rw [State.fld_bistBits, State.fld_clrBits _ _ _ _ (by decide)]
    exact State.clearBegun_state b
  · rw [State.fld_bistBits, State.fld_clrBits _ _ _ _ (by decide)]
    exact State.clearBegun_cause b

/-! ### The end of a clear -/

/-- Rows of a slice that no test redirects are cleared where they stand, with what is kept about their words. -/
theorem State.zeroRows_plain {q : CoreId} {lo hi : Nat} (hredirect : (s.bistOf q).redirect = none) :
    ∃ e u w, s.zeroRows q lo hi = { s with sram := tabClear s.sram (sliceKey q (lo * 4096)) (sliceKey q (hi * 4096)),
                                           spdErr := e, ueSeen := u, writeBack := w } := by
  rw [State.zeroRows, hredirect]
  exact ⟨_, _, _, rfl⟩

theorem State.clearRows_one {p : CorePos} (hwhole : c.whole = false) (hcore : c.core = some p) :
    s.clearRows r c = s.zeroRows ⟨r, p⟩ c.first (c.last + 1) := by
  simp [State.clearRows, clearCores, hwhole, hcore]

theorem State.fld_clrEnd_state (s : State) (r : RegionNo) (st cause cycles : Nat) (again : Bool) :
    (s.clrEnd r st cause cycles again).fld (.spd r) SPD_CLR_STATUS 0 3 = st % 8 := by
  rw [State.clrEnd, State.fld_setFld_below _ _ _ _ _ _ _ _ (by decide) (by decide), State.setBit,
    State.fld_setFld_below _ _ _ _ _ _ _ _ (by decide) (by decide),
    State.fld_setFld_below _ _ _ _ _ _ _ _ (by decide) (by decide), State.fld_setFld_self _ _ _ _ _ _ (by decide)]
  rfl

/-- Where no window write of the region waits, none is made. -/
theorem State.heldRun_none (h : ∀ x ∈ s.heldWins, x.region ≠ r) : s.heldRun r = s := by
  have hnone : s.heldWins.any (fun x => x.region == r) = false := by simpa using h
  simp [State.heldRun, hnone]

/-- Clear c, requested and verified at once, has left its rows. -/
def State.clearEnded (s : State) (r : RegionNo) (c : Clear) : State :=
  ({ s.clearRows r c with clrNow := clrSet s.clrNow r none } : State).clrEnd r 3 0 (64 + 2 * (c.last + 1 - c.first)) false

theorem execClearDone_ok {ok2 : VerifyPass} (hnow : clrGet s.clrNow r = some c) (hwhole : c.whole = false) 
    (hcause : c.cause = .request) : execClearDone r true ok2 s = .next (((s.clearEnded r c).clrBits r).heldRun r) := by
  simp only [execClearDone, hnow]
  rw [hwhole, hcause]
  rfl

theorem answers_clearDone {p : CorePos} {ok2 : VerifyPass} (hnow : clrGet s.clrNow r = some c) (hwhole : c.whole = false)
    (hcore : c.core = some p) (hcause : c.cause = .request) (hredirect : (s.bistOf ⟨r, p⟩).redirect = none)
    (hheld : ∀ h ∈ s.heldWins, h.region ≠ r) :
    Answers (.clearDone r true ok2) s (fun t =>
      clrGet t.clrNow r = none ∧ t.fld (.spd r) SPD_CLR_STATUS 0 3 = 3 ∧
      (∀ j, sliceKey ⟨r, p⟩ (c.first * 4096) ≤ j → j < sliceKey ⟨r, p⟩ ((c.last + 1) * 4096) → tabGet byteReset t.sram j = 0) ∧
      (∀ j, j < sliceKey ⟨r, p⟩ (c.first * 4096) ∨ sliceKey ⟨r, p⟩ ((c.last + 1) * 4096) ≤ j →
        tabGet byteReset t.sram j = tabGet byteReset s.sram j) ∧ t.acc = s.acc ∧ t.hbm = s.hbm ∧ t.cores = s.cores) := by
  obtain ⟨e, u, w, hrows⟩ := s.zeroRows_plain (lo := c.first) (hi := c.last + 1) hredirect
  have hended : s.clearEnded r c = (({ s with
      sram := tabClear s.sram (sliceKey ⟨r, p⟩ (c.first * 4096)) (sliceKey ⟨r, p⟩ ((c.last + 1) * 4096)),
      spdErr := e, ueSeen := u, writeBack := w, clrNow := clrSet s.clrNow r none } : State).clrEnd r 3 0
      (64 + 2 * (c.last + 1 - c.first)) false) := by
    rw [State.clearEnded, State.clearRows_one hwhole hcore, hrows]
  have hkeep : ((s.clearEnded r c).clrBits r).heldRun r = (s.clearEnded r c).clrBits r :=
    State.heldRun_none (by rw [hended]; exact hheld)
  refine ⟨(s.clearEnded r c).clrBits r, (execClearDone_ok hnow hwhole hcause).trans (congrArg _ hkeep), ?_⟩
  have hstate : ((s.clearEnded r c).clrBits r).fld (.spd r) SPD_CLR_STATUS 0 3 = 3 :=
    (State.fld_clrBits _ _ _ _ (by decide)).trans (State.fld_clrEnd_state ..)
  refine ⟨?_, hstate, fun j hlo hhi => ?_, fun j hj => ?_, ?_, ?_, ?_⟩ <;> rw [hended]
  · exact clrGet_clrSet ..
  · exact (tabGet_tabClear ..).trans (if_pos ⟨hlo, hhi⟩)
  · exact (tabGet_tabClear ..).trans (if_neg (by omega))
  · rfl
  · rfl
  · rfl
end

/-- Settles O24: a request joins the engine (clearRequest_accepted), the pending clear begins (answers_clearStart) and ends with its
rows zero (answers_clearDone). -/
theorem clearResults : Obligations.ClearResults := by
  unfold Obligations.ClearResults
  intro s r v c
  refine ⟨fun hgo hwhole hall hrows hpend hidle => ?_, answers_clearStart, fun p ok2 hnow hwhole hcore hcause _ _ hredirect hheld =>
    answers_clearDone hnow hwhole hcore hcause hredirect hheld⟩
  refine ⟨_, congrArg Host.Outcome.next (State.clearRequest_accepted hgo hwhole hall hrows hpend hidle), clrGet_clrSet .., rfl, ?_, rfl,
    .of_eq rfl rfl rfl⟩
  rw [State.clearing_iff, Bool.or_eq_true]
  exact .inr (congrArg Option.isSome (clrGet_clrSet ..))

end Sys2Proof.Machine
end

section
/-! The background tester (R105, R106): what moving words to the test buffer and back changes, and the statement about it. -/

namespace Sys2Proof.Machine

/-! ### The rows of a slice and its test buffer -/

/-- The byte that stands at offset o of a slice's rows. -/
def State.rowByte (s : State) (c : CoreId) (o : Nat) : Byte := tabGet byteReset s.sram (sliceKey c o)
/-- The byte that stands at offset j of a slice's test buffer. -/
def State.bufByte (s : State) (c : CoreId) (j : Nat) : Byte := tabGet byteReset s.sram (bufKey c + j)

section
variable {s : State} {c : CoreId} {o w : Nat}

@[simp] theorem State.bistOf_setBist (s : State) (c : CoreId) (b : Bist) : (s.setBist c b).bistOf c = b := tabGet_tabSet_self _ _ _ _

/-- The masters see the buffer for a word that it holds, and else the row. -/
theorem State.liveByte_eq : s.liveByte c o = if (s.bistOf c).holds (o / 32) then s.bufByte c (o % 4096) else s.rowByte c o := by
  unfold State.liveByte State.byteKey
  split
  · rfl
  · rfl

theorem sliceKey_lt_bufKey (c d : CoreId) (h : o < 0x200000) : sliceKey c o < bufKey d := by
  have hregion := c.region.isLt
  have hpos := c.pos.isLt
  simp only [sliceKey, bufKey, coreKey]
  omega

/-- A copy of a run of bytes to another key, read there. -/
theorem tabGet_copy {t : Tab Byte} {k l n i : Nat} (h : i < n) :
    tabGet byteReset (tabSetList byteReset t k (tabGetList byteReset t l n)) (k + i) = tabGet byteReset t (l + i) := by
  rw [tabGet_tabSetList_inside _ _ _ _ _ (by rwa [length_tabGetList]), getElem_tabGetList]

/-! ### Back from the buffer -/

theorem State.sram_bufBack : (s.bufBack c w).sram =
    tabSetList byteReset s.sram (sliceKey c (32 * w)) (tabGetList byteReset s.sram (bufKey c + w % 128 * 32) 32) := by
  simp only [State.bufBack]

theorem State.bufByte_bufBack {j : Nat} (hw : w < 65536) : (s.bufBack c w).bufByte c j = s.bufByte c j := by
  have hkey := sliceKey_lt_bufKey (o := 32 * w + 31) c c (by omega)
  rw [State.bufByte, State.sram_bufBack, tabGet_tabSetList_outside, State.bufByte]
  rw [length_tabGetList]
  simp only [sliceKey] at hkey ⊢
  omega

theorem State.rowByte_bufBack : (s.bufBack c w).rowByte c o = if o / 32 = w then s.bufByte c (o % 4096) else s.rowByte c o := by
  rw [State.rowByte, State.sram_bufBack]
  split
  · next h =>
    have hslice : sliceKey c o = sliceKey c (32 * w) + o % 32 := by simp only [sliceKey]; omega
    have hbuf : bufKey c + o % 4096 = bufKey c + w % 128 * 32 + o % 32 := by omega
    rw [hslice, State.bufByte, hbuf]
    exact tabGet_copy (Nat.mod_lt _ (by decide))
  · next h =>
    rw [tabGet_tabSetList_outside, State.rowByte]
    rw [length_tabGetList]
    simp only [sliceKey]
    omega

/-- Words that come back stand in their row as they stood in the buffer, and no other byte of the rows changes. -/
theorem State.rowByte_bufBacks : ∀ (ws : List Nat) {s : State}, (∀ w ∈ ws, w < 65536) →
    (ws.foldl (fun t w => t.bufBack c w) s).rowByte c o = if o / 32 ∈ ws then s.bufByte c (o % 4096) else s.rowByte c o
  | [], s, _ => (if_neg List.not_mem_nil).symm
  | w :: ws, s, h => by
    obtain ⟨hw, hws⟩ := List.forall_mem_cons.1 h
    rw [List.foldl_cons, State.rowByte_bufBacks ws hws, State.bufByte_bufBack hw, State.rowByte_bufBack]
    by_cases h1 : o / 32 ∈ ws <;> by_cases h2 : o / 32 = w <;> simp [h1, h2]

/-! ### To the buffer -/

/-- A word of the row under test stands in the buffer and is marked. -/
def State.bufCopied (s : State) (c : CoreId) (w : Nat) : State :=
  ({ s with sram := tabSetList byteReset s.sram (bufKey c + w % 128 * 32) (tabGetList byteReset s.sram (sliceKey c (32 * w)) 32),
            spdErr := tabSet errReset s.spdErr (bufErrKey c + w % 128) (tabGet errReset s.spdErr (wordKey c w)) } : State).setBist c
    { s.bistOf c with marks := (s.bistOf c).marks ++ [w % 128] }

theorem State.bufTake_held (h : (s.bistOf c).holds w = true) : s.bufTake c w = s := by
  simp [State.bufTake, h]

theorem State.bufTake_new (hrow : (s.bistOf c).redirect = some (w / 128)) (h : (s.bistOf c).holds w = false) :
    s.bufTake c w = s.bufCopied c w := by
  rw [State.bufTake, if_pos (by simp [hrow, h])]
  rfl

theorem State.sram_bufCopied : (s.bufCopied c w).sram =
    tabSetList byteReset s.sram (bufKey c + w % 128 * 32) (tabGetList byteReset s.sram (sliceKey c (32 * w)) 32) := by
  simp only [State.bufCopied, State.setBist]

theorem State.bistOf_bufCopied : (s.bufCopied c w).bistOf c = { s.bistOf c with marks := (s.bistOf c).marks ++ [w % 128] } :=
  tabGet_tabSet_self _ _ _ _

theorem State.rowByte_bufCopied (ho : o < 0x200000) : (s.bufCopied c w).rowByte c o = s.rowByte c o := by
  have hkey := sliceKey_lt_bufKey c c ho
  rw [State.rowByte, State.sram_bufCopied, tabGet_tabSetList_outside, State.rowByte]
  omega

theorem State.bufByte_bufCopied {j : Nat} : (s.bufCopied c w).bufByte c j =
    if j / 32 = w % 128 then s.rowByte c (32 * w + j % 32) else s.bufByte c j := by
  rw [State.bufByte, State.sram_bufCopied]
  split
  · next h =>
    have hbuf : bufKey c + j = bufKey c + w % 128 * 32 + j % 32 := by omega
    rw [hbuf, tabGet_copy (Nat.mod_lt _ (by decide)), State.rowByte]
    simp only [sliceKey, Nat.add_assoc]
  · next h =>
    rw [tabGet_tabSetList_outside, State.bufByte]
    rw [length_tabGetList]
    omega

/-- A tester in progress holds the words of its row that are marked. -/
theorem Bist.holds_active {b : Bist} (h : b.active = true) : b.holds w = (b.row == w / 128 && b.marks.contains (w % 128)) := by
  simp [Bist.holds, Bist.redirect, h]

/-- Where word w of the row under test is marked besides, the buffer holds w and what it held before. -/
theorem Bist.holds_marked {b : Bist} {v : Nat} (hactive : b.active = true) (hrow : b.row = w / 128) :
    ({ b with marks := b.marks ++ [w % 128] } : Bist).holds v = (v == w || b.holds v) := by
  rw [Bist.holds_active (b := b) hactive, Bist.holds_active (b := { b with marks := b.marks ++ [w % 128] }) hactive, hrow,
    Bool.eq_iff_iff]
  simp only [Bool.and_eq_true, Bool.or_eq_true, beq_iff_eq, List.contains_iff_mem, List.mem_append, List.mem_singleton]
  constructor
  · rintro ⟨hv, hm | hm⟩
    · exact .inr ⟨hv, hm⟩
    · exact .inl (by omega)
  · rintro (rfl | ⟨hv, hm⟩)
    · exact ⟨rfl, .inr rfl⟩
    · exact ⟨hv, .inl hm⟩

/-- Taking a word of the row under test to the buffer changes nothing that the masters see. -/
theorem State.liveByte_bufTake (hactive : (s.bistOf c).active = true) (hrow : (s.bistOf c).row = w / 128) (ho : o < 0x200000) :
    (s.bufTake c w).liveByte c o = s.liveByte c o := by
  cases hheld : (s.bistOf c).holds w with
  | true => rw [State.bufTake_held hheld]
  | false =>
    rw [State.bufTake_new (by simp [Bist.redirect, hactive, hrow]) hheld, State.liveByte_eq, State.liveByte_eq, State.bistOf_bufCopied,
      State.rowByte_bufCopied ho, State.bufByte_bufCopied, Bist.holds_marked hactive hrow]
    by_cases hw : o / 32 = w
    · have hword : o % 4096 / 32 = w % 128 := by omega
      have hofs : 32 * w + o % 32 = o := by omega
      simp [hw, hheld, hword, hofs]
    · by_cases hv : (s.bistOf c).holds (o / 32) = true
      · have hsame : w / 128 = o / 32 / 128 := by
          rw [Bist.holds_active hactive, Bool.and_eq_true, beq_iff_eq] at hv
          rw [← hrow, hv.1]
        have hword : o % 4096 / 32 ≠ w % 128 := by omega
        simp [hv, hword]
      · simp [hw, hv]

/-- What taking a word leaves alone, and that it is held from then on. -/
theorem State.bufTake_frame (hactive : (s.bistOf c).active = true) (hrow : (s.bistOf c).row = w / 128) :
    (∃ a e b, s.bufTake c w = { s with sram := a, spdErr := e, bist := b }) ∧
    ∃ l, (s.bufTake c w).bistOf c = { s.bistOf c with marks := (s.bistOf c).marks ++ l } ∧ w % 128 ∈ (s.bistOf c).marks ++ l := by
  cases hheld : (s.bistOf c).holds w with
  | true =>
    rw [State.bufTake_held hheld]
    rw [Bist.holds_active hactive, Bool.and_eq_true, List.contains_iff_mem] at hheld
    exact ⟨⟨_, _, _, rfl⟩, [], by simp, by simpa using hheld.2⟩
  | false =>
    rw [State.bufTake_new (by simp [Bist.redirect, hactive, hrow]) hheld]
    exact ⟨⟨_, _, _, rfl⟩, [w % 128], State.bistOf_bufCopied, by simp⟩

/-- What is so after any number of words of the row under test have been taken: the masters see what they saw, and each of the words is
marked. -/
structure Taken (c : CoreId) (ws : List Nat) (s t : State) : Prop where
  live : ∀ o < 0x200000, t.liveByte c o = s.liveByte c o
  tester : ∃ l, t.bistOf c = { s.bistOf c with marks := (s.bistOf c).marks ++ l } ∧ ∀ w ∈ ws, w % 128 ∈ (s.bistOf c).marks ++ l
  frame : ∃ a e b, t = { s with sram := a, spdErr := e, bist := b }

theorem taken_bufTakes : ∀ (ws : List Nat) {s : State}, (s.bistOf c).active = true → (∀ w ∈ ws, (s.bistOf c).row = w / 128) →
    Taken c ws s (ws.foldl (fun t w => t.bufTake c w) s)
  | [], s, _, _ => ⟨fun _ _ => rfl, ⟨[], by simp, by simp⟩, ⟨_, _, _, rfl⟩⟩
  | w :: ws, s, hactive, h => by
    obtain ⟨hw, hws⟩ := List.forall_mem_cons.1 h
    obtain ⟨⟨a, e, b, hframe⟩, l, hbist, hmark⟩ := State.bufTake_frame hactive hw
    obtain ⟨hlive', ⟨l', hbist', hmark'⟩, a', e', b', hframe'⟩ := taken_bufTakes ws (s := s.bufTake c w) (by rw [hbist]; exact hactive)
      (by rw [hbist]; exact hws)
    refine ⟨fun o ho => (hlive' o ho).trans (State.liveByte_bufTake hactive hw ho), ⟨l ++ l', ?_, ?_⟩, a', e', b', ?_⟩
    · rw [List.foldl_cons, hbist', hbist, List.append_assoc]
    · rw [hbist] at hmark'
      rw [← List.append_assoc]
      exact List.forall_mem_cons.2 ⟨List.mem_append_left _ hmark, hmark'⟩
    · rw [List.foldl_cons, hframe', hframe]

theorem mem_rowWords {row : Nat} : w ∈ rowWords row ↔ w / 128 = row := by
  simp only [rowWords, List.mem_map, List.mem_range]
  constructor
  · rintro ⟨k, hk, rfl⟩
    omega
  · intro h
    exact ⟨w % 128, by omega, by omega⟩

/-! ### The march over a row, and what is done with its buffer -/

/-- The March test has left a row all zero. -/
def State.marched (s : State) (c : CoreId) (row : Nat) : State :=
  { s with sram := tabClear s.sram (sliceKey c (row * 4096)) (sliceKey c ((row + 1) * 4096)),
           spdErr := tabClear s.spdErr (wordKey c (row * 128)) (wordKey c ((row + 1) * 128)) }

theorem State.bufByte_marched {row j : Nat} (hrow : row < 512) : (s.marched c row).bufByte c j = s.bufByte c j := by
  have hkey := sliceKey_lt_bufKey (o := row * 4096 + 4095) c c (by omega)
  refine (tabGet_tabClear _ _ _ _ _).trans (if_neg fun h => ?_)
  simp only [sliceKey] at h hkey
  omega

theorem State.rowByte_marched {row : Nat} (h : o / 4096 ≠ row) : (s.marched c row).rowByte c o = s.rowByte c o := by
  refine (tabGet_tabClear _ _ _ _ _).trans (if_neg fun hj => ?_)
  simp only [sliceKey] at hj
  omega

/-- The buffer holds row of a slice as the masters of s see it, and the other rows stand as they see them. -/
structure Buffered (c : CoreId) (row : Nat) (s u : State) : Prop where
  buf : ∀ o < 0x200000, o / 4096 = row → u.bufByte c (o % 4096) = s.liveByte c o
  rows : ∀ o < 0x200000, o / 4096 ≠ row → u.rowByte c o = s.liveByte c o

theorem Taken.buffered {u : State} {row : Nat} (h : Taken c (rowWords row) s u) (hactive : (s.bistOf c).active = true)
    (hrow : (s.bistOf c).row = row) (hbound : row < 512) : Buffered c row s (u.marched c row) := by
  obtain ⟨hlive, ⟨l, hbist, hmark⟩, -⟩ := h
  have hholds : ∀ o, (u.bistOf c).holds (o / 32) = (o / 4096 == row) := fun o => by
    rw [hbist, Bist.holds_active (by exact hactive), Bool.eq_iff_iff]
    simp only [hrow, Bool.and_eq_true, beq_iff_eq, List.contains_iff_mem]
    constructor
    · rintro ⟨h, -⟩
      omega
    · intro h
      have hword : row = o / 32 / 128 := by omega
      exact ⟨hword, hmark _ (mem_rowWords.2 hword.symm)⟩
  have hu : ∀ o < 0x200000, s.liveByte c o = if o / 4096 = row then u.bufByte c (o % 4096) else u.rowByte c o := fun o ho => by
    rw [← hlive o ho, State.liveByte_eq, hholds]
    simp
  refine ⟨fun o ho h => ?_, fun o ho h => ?_⟩
  · rw [State.bufByte_marched hbound, hu o ho, if_pos h]
  · rw [State.rowByte_marched h, hu o ho, if_neg h]

/-! ### Restore and release -/

theorem State.bufBack_frame (s : State) (c : CoreId) (w : Nat) : ∃ a e, s.bufBack c w = { s with sram := a, spdErr := e } := by
  unfold State.bufBack
  exact ⟨_, _, rfl⟩

theorem State.bufBacks_frame : ∀ (ws : List Nat) (s : State),
    ∃ a e, ws.foldl (fun t w => t.bufBack c w) s = { s with sram := a, spdErr := e }
  | [], _ => ⟨_, _, rfl⟩
  | w :: ws, s => by
    obtain ⟨a, e, h⟩ := State.bufBack_frame s c w
    obtain ⟨a', e', h'⟩ := State.bufBacks_frame ws (s.bufBack c w)
    exact ⟨a', e', by rw [List.foldl_cons, h', h]⟩

theorem State.testRestore_frame (s : State) (c : CoreId) : ∃ a e, s.testRestore c = { s with sram := a, spdErr := e } := by
  obtain ⟨a, e, h⟩ := State.bufBacks_frame (c := c) ((rowWords (s.bistOf c).row).filter (s.bistOf c).holds) s
  rw [State.testRestore, h]
  exact ⟨_, _, rfl⟩

theorem State.rowByte_bufClear (ho : o < 0x200000) : (s.bufClear c).rowByte c o = s.rowByte c o := by
  have hkey := sliceKey_lt_bufKey c c ho
  exact (tabGet_tabClear _ _ _ _ _).trans (if_neg (by omega))

/-- A row that has its words back reads as its masters saw it, and so do the others. -/
theorem Buffered.restored {u : State} {row : Nat} (h : Buffered c row s u) (hactive : (u.bistOf c).active = true)
    (hrow : (u.bistOf c).row = row) (hmarks : ∀ k < 128, k ∈ (u.bistOf c).marks) (hbound : row < 512) (ho : o < 0x200000) :
    (u.testRestore c).rowByte c o = s.liveByte c o := by
  have hmem : ∀ w, w ∈ (rowWords (u.bistOf c).row).filter (u.bistOf c).holds ↔ w / 128 = row := fun w => by
    rw [List.mem_filter, mem_rowWords, hrow, Bist.holds_active hactive, hrow, Bool.and_eq_true, beq_iff_eq, List.contains_iff_mem]
    constructor
    · rintro ⟨hw, -⟩
      exact hw
    · intro hw
      exact ⟨hw, hw.symm, hmarks _ (Nat.mod_lt _ (by decide))⟩
  rw [State.testRestore, State.rowByte_bufClear ho, State.rowByte_bufBacks _ fun w hw => by have := (hmem w).1 hw; omega]
  by_cases hin : o / 4096 = row
  · rw [if_pos ((hmem _).2 (by omega)), h.buf o ho hin]
  · rw [if_neg (fun hw => hin (by have := (hmem _).1 hw; omega)), h.rows o ho hin]

/-- A row released: its tester goes on to the next. -/
def Bist.next (b : Bist) : Bist := { b with active := false, marks := [], row := (b.row + 1) % 512 }

theorem State.testRelease_frame (s : State) (c : CoreId) :
    ∃ g, s.testRelease c = { s.setBist c (s.bistOf c).next with regs := g } := by
  unfold State.testRelease
  extract_lets
  split
  · exact ⟨_, rfl⟩
  · exact ⟨_, rfl⟩

theorem Bist.holds_next {b : Bist} (hfailed : b.failed = none) (w : Nat) : b.next.holds w = false := by
  simp [Bist.holds, Bist.redirect, Bist.next, hfailed]

/-- The buffer that stands in for a row for good holds every word of it. -/
theorem Bist.holds_failed {b : Bist} (w row : Nat) :
    ({ b with active := false, failed := some row } : Bist).holds w = (row == w / 128) := by
  simp [Bist.holds, Bist.redirect]

end

/-! ### The two commands of the tester -/

section
variable {s : State} {c : CoreId}

/-- What a slice holds as its masters see it, the cores, the accumulators and local HBM are as before. -/
structure HeldSlice (c : CoreId) (s t : State) : Prop where
  live : ∀ o < 0x200000, t.liveByte c o = s.liveByte c o
  frame : ∃ a e b g i x, t = { s with sram := a, spdErr := e, bist := b, regs := g, ldgIngress := i, ldgOpen := x }

theorem HeldSlice.held {t : State} (h : HeldSlice c s t) :
    (∀ o < 0x200000, t.liveByte c o = s.liveByte c o) ∧ t.cores = s.cores ∧ t.acc = s.acc ∧ t.hbm = s.hbm := by
  obtain ⟨hlive, a, e, b, g, i, x, rfl⟩ := h
  exact ⟨hlive, rfl, rfl, rfl⟩

theorem execBistRowStart_enabled (hctrl : s.bit (.spd c.region) SPD_BIST_CTRL 0 = true) (hactive : s.rgnActive c.region = true)
    (hclear : s.clearing c.region = false) (hidle : (s.bistOf c).active = false) (hfailed : (s.bistOf c).failed = none) :
    execBistRowStart c s = .next (((s.setBist c { s.bistOf c with active := true, marks := [] }).setFld (.spd c.region)
      SPD_BIST_STATUS 0 9 (s.bistOf c).row).bistBits c.region) := by
  simp [execBistRowStart, hctrl, hactive, hclear, hidle, hfailed]

/-- A test that has just begun holds no word yet, and one that has not begun holds none. -/
theorem liveByte_testBegun (hidle : (s.bistOf c).active = false) (hfailed : (s.bistOf c).failed = none) (o : Nat) :
    (s.setBist c { s.bistOf c with active := true, marks := [] }).liveByte c o = s.liveByte c o := by
  have hnone : ∀ w, (s.bistOf c).holds w = false := fun w => by simp [Bist.holds, Bist.redirect, hidle, hfailed]
  have hnone' : ∀ w, ({ s.bistOf c with active := true, marks := [] } : Bist).holds w = false := fun w => by
    simp [Bist.holds]
  rw [State.liveByte_eq, State.liveByte_eq, State.bistOf_setBist, hnone, hnone']
  rfl

theorem bistRowStart_results (hctrl : s.bit (.spd c.region) SPD_BIST_CTRL 0 = true) (hactive : s.rgnActive c.region = true)
    (hclear : s.clearing c.region = false) (hidle : (s.bistOf c).active = false) (hfailed : (s.bistOf c).failed = none) :
    Answers (.bistRowStart c) s (fun t => (t.bistOf c).active = true ∧ (t.bistOf c).row = (s.bistOf c).row ∧ HeldSlice c s t) := by
  refine ⟨_, execBistRowStart_enabled hctrl hactive hclear hidle hfailed, ?_, ?_, fun o _ => liveByte_testBegun hidle hfailed o,
    ⟨_, _, _, _, _, _, rfl⟩⟩
  · exact (congrArg Bist.active (s.bistOf_setBist c _) :)
  · exact (congrArg Bist.row (s.bistOf_setBist c _) :)

/-- The buffer holds the whole row under test, and the row has been marched over. -/
theorem bufTakes_march (hactive : (s.bistOf c).active = true) (hbound : (s.bistOf c).row < 512) :
    ∃ a e b l, ((rowWords (s.bistOf c).row).foldl (fun t w => t.bufTake c w) s).marched c (s.bistOf c).row =
        { s with sram := a, spdErr := e, bist := b } ∧
      ({ s with sram := a, spdErr := e, bist := b } : State).bistOf c = { s.bistOf c with marks := (s.bistOf c).marks ++ l } ∧
      (∀ k < 128, k ∈ (s.bistOf c).marks ++ l) ∧ Buffered c (s.bistOf c).row s { s with sram := a, spdErr := e, bist := b } := by
  have htaken := taken_bufTakes (c := c) (rowWords (s.bistOf c).row) hactive fun w hw => (mem_rowWords.1 hw).symm
  have hbuf := htaken.buffered hactive rfl hbound
  obtain ⟨-, ⟨l, hbist, hmark⟩, a, e, b, hframe⟩ := htaken
  rw [hframe] at hbuf hbist ⊢
  refine ⟨_, _, b, l, rfl, hbist, fun k hk => ?_, hbuf⟩
  have hword : ((s.bistOf c).row * 128 + k) % 128 = k := by omega
  exact hword ▸ hmark _ (mem_rowWords.2 (by omega))

theorem execBistRowRelease_ok (hactive : (s.bistOf c).active = true) (hrgn : s.rgnActive c.region = true) :
    execBistRowRelease c true s = .next (((((rowWords (s.bistOf c).row).foldl (fun t w => t.bufTake c w) s).marched c
      (s.bistOf c).row |>.testRestore c).testRelease c).bistBits c.region) := by
  rw [execBistRowRelease, if_neg (by simp [hactive, hrgn])]
  rfl

/-- A slice whose rows stand as its masters saw them, released. -/
theorem heldSlice_released {u : State} (hframe : ∃ a e b, u = { s with sram := a, spdErr := e, bist := b })
    (hfailed : (u.bistOf c).failed = none) (hrow : ∀ o < 0x200000, u.rowByte c o = s.liveByte c o) :
    ((u.testRelease c).bistBits c.region).bistOf c = (u.bistOf c).next ∧ HeldSlice c s ((u.testRelease c).bistBits c.region) := by
  obtain ⟨g, hrelease⟩ := u.testRelease_frame c
  have hbist : ((u.testRelease c).bistBits c.region).bistOf c = (u.bistOf c).next := by
    rw [hrelease]
    exact u.bistOf_setBist c _
  refine ⟨hbist, fun o ho => ?_, ?_⟩
  · rw [State.liveByte_eq, hbist, Bist.holds_next hfailed, ← hrow o ho, hrelease]
    rfl
  · obtain ⟨a, e, b, rfl⟩ := hframe
    rw [hrelease]
    exact ⟨_, _, _, _, _, _, rfl⟩

theorem bistRowRelease_ok (hactive : (s.bistOf c).active = true) (hfailed : (s.bistOf c).failed = none)
    (hbound : (s.bistOf c).row < 512) (hrgn : s.rgnActive c.region = true) :
    Answers (.bistRowRelease c true) s (fun t => t.bistOf c = (s.bistOf c).next ∧ HeldSlice c s t) := by
  obtain ⟨a, e, b, l, hmarch, hbist, hmarks, hbuf⟩ := bufTakes_march hactive hbound
  have hexec := execBistRowRelease_ok hactive hrgn
  rw [hmarch] at hexec
  have hrow : ∀ o < 0x200000, (({ s with sram := a, spdErr := e, bist := b } : State).testRestore c).rowByte c o = s.liveByte c o :=
    fun o ho => hbuf.restored (by rw [hbist]; exact hactive) (by rw [hbist]) (by rw [hbist]; exact hmarks) hbound ho
  obtain ⟨a', e', hrestore⟩ := State.testRestore_frame { s with sram := a, spdErr := e, bist := b } c
  have hsame : (({ s with sram := a, spdErr := e, bist := b } : State).testRestore c).bistOf c =
      { s.bistOf c with marks := (s.bistOf c).marks ++ l } := by
    rw [hrestore]
    exact hbist
  obtain ⟨hnext, hheld⟩ := heldSlice_released (s := s) (c := c)
    (u := ({ s with sram := a, spdErr := e, bist := b } : State).testRestore c) ⟨a', e', b, hrestore⟩
    (by rw [hsame]; exact hfailed) hrow
  exact ⟨_, hexec, hnext.trans (congrArg Bist.next hsame :), hheld⟩

/-- A row fails: its tester stops there, and the buffer stands in for the row. -/
def Bist.fail (b : Bist) : Bist := { b with active := false, failed := some b.row }
/-- The row and its slice are named (R106). -/
def State.rowFailed (s : State) (c : CoreId) (b : Bist) : State :=
  (((s.setBist c b.fail).setFld (.spd c.region) SPD_BIST_STATUS 16 6 c.pos.val).setBit (.spd c.region) SPD_BIST_STATUS 22 true).bistBits
    c.region

theorem execBistRowRelease_failed (hactive : (s.bistOf c).active = true) (hrgn : s.rgnActive c.region = true) :
    execBistRowRelease c false s = .next ((((rowWords (s.bistOf c).row).foldl (fun t w => t.bufTake c w) s).marched c
      (s.bistOf c).row |>.rowFailed c (s.bistOf c)).detectCore 0x06 c [(s.bistOf c).row]) := by
  rw [execBistRowRelease, if_neg (by simp [hactive, hrgn])]
  rfl

theorem regKey_spd_ne_folded : ∀ r : RegionNo, regKey (.spd r) SPD_BIST_STATUS ≠ regKey .ldg LDG_FOLDED := by decide

/-- The event of a failed row and the bits of SPD_STATUS leave SPD_BIST_STATUS as it is. -/
theorem bit_bistStatus (u : State) (r : RegionNo) (e : LedgerEvent) :
    ((u.bistBits r).ledger e).bit (.spd r) SPD_BIST_STATUS 22 = u.bit (.spd r) SPD_BIST_STATUS 22 := by
  have hother : ∀ (t : State) i b, (t.setBit (.spd r) SPD_STATUS i b).rd (.spd r) SPD_BIST_STATUS = t.rd (.spd r) SPD_BIST_STATUS :=
    fun t i b => State.rd_wr_other _ _ _ _ _ _ (regKey_ne (by decide))
  rw [State.bit, State.rd_ledger _ _ _ _ (regKey_spd_ne_folded r), State.bistBits, hother, hother, State.bit]

/-- A slice whose buffer stands in for a row as its masters saw it, and the failed row's event. -/
theorem heldSlice_failed {v : State} {b : Bist} {row : Nat} (x : LedgerEvent)
    (hframe : ∃ a e b g, v = { s with sram := a, spdErr := e, bist := b, regs := g })
    (hbist : v.bistOf c = { b with active := false, failed := some row }) (hbuf : Buffered c row s v) :
    (v.ledger x).bistOf c = v.bistOf c ∧ HeldSlice c s (v.ledger x) := by
  obtain ⟨g, i, q, hledger, -⟩ := v.ledger_frame x
  have hsame : (v.ledger x).bistOf c = v.bistOf c := by
    rw [hledger]
    rfl
  refine ⟨hsame, fun o ho => ?_, ?_⟩
  · rw [State.liveByte_eq, hsame, hbist, Bist.holds_failed, hledger]
    by_cases h : o / 4096 = row
    · rw [if_pos (by simp only [beq_iff_eq]; omega), ← hbuf.buf o ho h]
      rfl
    · rw [if_neg (by simp only [beq_iff_eq]; omega), ← hbuf.rows o ho h]
      rfl
  · obtain ⟨a, e, b, r, rfl⟩ := hframe
    rw [hledger]
    exact ⟨_, _, _, _, _, _, rfl⟩

theorem bistRowRelease_failed (hactive : (s.bistOf c).active = true) (hbound : (s.bistOf c).row < 512)
    (hrgn : s.rgnActive c.region = true) :
    Answers (.bistRowRelease c false) s (fun t => t.bistOf c = (s.bistOf c).fail ∧
      t.bit (.spd c.region) SPD_BIST_STATUS 22 = true ∧ HeldSlice c s t) := by
  obtain ⟨a, e, b, l, hmarch, -, -, hbuf⟩ := bufTakes_march hactive hbound
  have hexec := execBistRowRelease_failed hactive hrgn
  rw [hmarch] at hexec
  have hbist := ({ s with sram := a, spdErr := e, bist := b } : State).bistOf_setBist c (s.bistOf c).fail
  obtain ⟨hsame, hheld⟩ := heldSlice_failed (s := s) (c := c) (b := s.bistOf c) (row := (s.bistOf c).row)
    (v := ({ s with sram := a, spdErr := e, bist := b } : State).rowFailed c (s.bistOf c)) _ ⟨a, e, _, _, rfl⟩ hbist
    ⟨hbuf.buf, hbuf.rows⟩
  exact ⟨_, hexec, hsame.trans hbist, (bit_bistStatus ..).trans (bit_setBit_self _ _ _ _ (by decide)), hheld⟩

end

/-- Settles O25: a test that begins holds no word (bistRowStart_results); at its end every word is in the buffer and goes back
(bistRowRelease_ok), or the buffer stands in for the row (bistRowRelease_failed). -/
theorem backgroundTestResults : Obligations.BackgroundTestResults := by
  unfold Obligations.BackgroundTestResults
  intro s c b held
  refine ⟨fun hctrl hrgn hclear hidle hfailed => ?_, fun hactive hfailed hbound hrgn => ⟨?_, ?_⟩⟩
  · obtain ⟨t, hexec, hact, hrow, hheld⟩ := bistRowStart_results hctrl hrgn hclear hidle hfailed
    exact ⟨t, hexec, hact, hrow, hheld.held⟩
  · obtain ⟨t, hexec, hbist, hheld⟩ := bistRowRelease_ok hactive hfailed hbound hrgn
    exact ⟨t, hexec, by rw [hbist]; rfl, by rw [hbist]; rfl, by rw [hbist]; exact hfailed, hheld.held⟩
  · obtain ⟨t, hexec, hbist, hbit, hheld⟩ := bistRowRelease_failed hactive hbound hrgn
    exact ⟨t, hexec, by rw [hbist]; rfl, by rw [hbist]; rfl, by rw [hbist]; rfl, hbit, hheld.held⟩

end Sys2Proof.Machine
end

section
/-! Accesses and bank grants (R93, R96, R101, R103): the requests of an access, a grant to the one that waits, and the statement about
them. -/

namespace Sys2Proof.Machine

/-! ### An access that reaches a slice -/

section
variable {s : State} {c : CoreId} {m : Master} {a : Addr} {acc : Access} {o i : Nat}

/-- All of an access is the access. -/
theorem accPart_all (acc : Access) : accPart acc 0 (accBytes acc) = acc := by
  cases acc with
  | read n => rfl
  | write bs => simp [accPart, accBytes]
  | bitSet v => rfl
  | bitClear v => rfl

/-- An access that touches no byte makes no request. -/
theorem bankReqs_empty (h : accBytes acc = 0) : bankReqs c o i m acc = [] := by
  simp [bankReqs, wordsOf, h]

/-- An allowed access lies in the slice. -/
theorem State.sliceOk_bounds {kind n : Nat} (h : s.sliceOk c i kind o n = true) (hn : n ≠ 0) : o + n ≤ 0x200000 := by
  simp only [State.sliceOk, State.winAllows, hn, decide_false, Bool.false_or, Bool.and_eq_true, decide_eq_true_eq] at h
  exact h.2.1

/-- Once every byte of an access has its request, none is left to make. -/
theorem State.sliceReqs_done (k a : Nat) {done : Nat} (h : accBytes acc ≤ done) : s.sliceReqs m acc (k + 1) a done = .inr [] := by
  rw [State.sliceReqs, if_pos h]

/-- The requests of an allowed access to one slice. -/
theorem State.sliceReqs_one (k : Nat) (hplace : s.place (s.dyeOf m) a.toNat = .slice c o) (hidx : masterIndex m c = some i)
    (hok : s.sliceOk c i (accKind acc) o (accBytes acc) = true) (halign : accKind acc = 2 → o % 8 = 0) :
    s.sliceReqs m acc (k + 2) a.toNat 0 = .inr (bankReqs c o i m acc) := by
  by_cases hn : accBytes acc = 0
  · rw [State.sliceReqs_done _ _ (by omega), bankReqs_empty hn]
  · have hlen : min (accBytes acc - 0) (0x200000 - o) = accBytes acc := by
      have := State.sliceOk_bounds hok hn
      omega
    have halign' : (accKind acc != 2 || o % 8 == 0) = true := by simpa [or_iff_not_imp_left] using halign
    rw [State.sliceReqs, if_neg (by omega), hplace]
    simp only [hlen, hidx, hok, halign', Bool.and_true, if_true, State.sliceReqs_done k _ (Nat.le_of_eq (Nat.zero_add _).symm),
      accPart_all, List.append_nil]

theorem execScratchpadAccess_allowed (hplace : s.place (s.dyeOf m) a.toNat = .slice c o) (hidx : masterIndex m c = some i)
    (hok : s.sliceOk c i (accKind acc) o (accBytes acc) = true) (halign : accKind acc = 2 → o % 8 = 0) :
    execScratchpadAccess m a acc s = .next { s with bankQ := s.bankQ ++ bankReqs c o i m acc } := by
  rw [execScratchpadAccess, State.sliceReqs_one _ hplace hidx hok halign]

end

/-! ### A grant to the one request that waits -/

section
variable {s : State} {r : BankReq}

/-- A register counted up by nothing reads as before. -/
theorem State.rd_bump_zero (w x : Win) (o p : Nat) : (s.bump w o 0).rd x p = s.rd x p := by
  rw [State.bump, State.rd_wr]
  split
  · next h => rw [State.rd, State.rd, h]; exact BitVec.add_zero _
  · rfl

/-- Nothing waits at another word: the grant counts no conflict. -/
theorem State.bankLose_one (hq : s.bankQ = [r]) (c : CoreId) (bank : Nat) :
    s.bankLose c bank r.word 0 = s.bump (.spd c.region) (SPD_CONF + c.pos.val * 0x80 + bank * 4) 0 := by
  have hsame : ({ s with bankQ := [r] } : State) = s := by rw [← hq]
  simp [State.bankLose, hq, hsame]

/-- The one request at its word leaves the queue and is served. -/
theorem State.serveWord_one (hq : s.bankQ = [r]) : s.serveWord r.core r.word 0 4 = ({ s with bankQ := [] } : State).serve r := by
  cases hacc : r.acc <;> simp [State.serveWord, hq, hacc, grantRank, List.range_succ]

/-- The bytes of a request touch its word only. -/
theorem wordsOf_within {w first n : Nat} (hn : 0 < n) (h : first + n ≤ 32) : wordsOf (32 * w + first) n = [w] := by
  have hlo : (32 * w + first) / 32 = w := by omega
  have hhi : (32 * w + first + n - 1) / 32 = w := by omega
  rw [wordsOf, if_neg (by omega), hlo, hhi]
  simp

/-- The one request that waited has left the queue, and no conflict has been counted. -/
def State.granted (s : State) (c : CoreId) (bank : Nat) : State :=
  { s.bump (.spd c.region) (SPD_CONF + c.pos.val * 0x80 + bank * 4) 0 with bankQ := [] }

theorem State.injAims_granted (c d : CoreId) (bank w : Nat) : (s.granted c bank).injAims d w = s.injAims d w := by
  have hrd : ∀ x p, (s.granted c bank).rd x p = s.rd x p := fun x p => State.rd_bump_zero ..
  simp only [State.injAims, State.fld, State.bit, State.rd64, hrd]
  rfl

theorem execBankGrant_one {c : CoreId} {bank : Fin 32} (hq : s.bankQ = [r]) (hcore : r.core = c)
    (hbank : bankOf (32 * r.word) = bank.val) :
    execBankGrant c bank 0 s = .next (((s.granted c bank.val).serve r).settle [c]) := by
  subst hcore
  have hwaits : s.bankQ.filter (waitsAt r.core bank.val) = [r] := by simp [hq, waitsAt, hbank]
  have hserve := State.serveWord_one
    (s := s.bump (.spd r.core.region) (SPD_CONF + r.core.pos.val * 0x80 + bank.val * 4) 0) (r := r) hq
  rw [execBankGrant, hwaits]
  simp only [bankWinner, if_true, State.bankLose_one hq, hserve]
  rfl

section
variable {c : CoreId} {n : Nat} {bs : List Byte} (hcore : r.core = c) (herr : s.errAt c r.word = 0) (haims : s.injAims c r.word = false)
include hcore herr haims

theorem State.serve_read_clean (hacc : r.acc = .read n) (hn : 0 < n) (hword : r.first + n ≤ 32) :
    s.serve r = s.answer (s.sliceRaw c (32 * r.word + r.first) n) := by
  subst hcore
  have hread := s.sliceRead_clean r.core (32 * r.word + r.first) n (by simp [wordsOf_within hn hword, herr, haims])
  simp [State.serve, hacc, hread]

theorem State.serve_write_clean (hacc : r.acc = .write bs) (hn : 0 < bs.length) (hword : r.first + bs.length ≤ 32)
    (hredirect : (s.bistOf c).redirect = none) (hfree : (s.core c).blocked = none) :
    ∃ u wb, s.serve r = s.wroteSlice c (32 * r.word + r.first) bs u wb := by
  subst hcore
  obtain ⟨u, wb, h⟩ := State.sliceWrite_clean (o := 32 * r.word + r.first) (bs := bs) hredirect
    (by simp [CleanWords, wordsOf_within hn hword, herr, haims])
  refine ⟨u, wb, ?_⟩
  simp only [State.serve, hacc, h, if_false, Bool.false_eq_true]
  exact State.semTouch_unblocked (by exact hfree) _

end
end

/-- Settles O22: an access's requests (sliceReqs_one), a grant to the one request (execBankGrant_one, serve_read_clean,
serve_write_clean), and the write-back. -/
theorem bankResults : Obligations.BankResults := by
  unfold Obligations.BankResults
  intro s c m a acc o i
  refine ⟨fun hplace hidx hok halign => ⟨_, execScratchpadAccess_allowed hplace hidx hok halign, rfl⟩,
    fun bank r hq hcore hbank herr haims hredirect hnone => ?_,
    fun word hword => ⟨_, if_pos hword, ?_, rfl, rfl, rfl, .of_eq rfl rfl rfl⟩⟩
  · have haims' : (s.granted c bank.val).injAims c r.word = false := (State.injAims_granted ..).trans haims
    have hexec := execBankGrant_one hq hcore hbank
    intro ofs
    refine ⟨fun n hacc hn hlen => ?_, fun bs hacc hn hlen => ?_⟩
    · rw [State.serve_read_clean (s := s.granted c bank.val) hcore herr haims' hacc hn hlen, State.settle_unblocked] at hexec
      · exact ⟨_, hexec, rfl, rfl, rfl, rfl, .of_eq rfl rfl rfl⟩
      · exact fun d _ => hnone d
    · obtain ⟨u, wb, hserve⟩ :=
        State.serve_write_clean (s := s.granted c bank.val) hcore herr haims' hacc hn hlen hredirect (hnone c)
      rw [hserve, State.settle_unblocked] at hexec
      · exact ⟨_, hexec, State.sliceRaw_wroteSlice _ _ _ _ _ _ _ rfl hredirect,
          fun j hj => State.sram_wroteSlice_outside _ _ _ _ _ _ j hj, rfl, rfl, rfl, rfl⟩
      · exact fun d _ => hnone d
  · exact tabGet_tabSet_self _ _ _ _

end Sys2Proof.Machine
end

section
/-! SUPPORT. The attention and token pipelines (R115, R119, R135): what the states of a pipeline's units and its queues read after
each operation that the pipeline's commands share. -/

namespace Sys2Proof.Machine

/-! ### Writes of few registers -/

/-- Only registers change, and only those whose keys are listed. -/
def OnlyRegsIn (ks : List Nat) (s t : State) : Prop := ∃ g, t = { s with regs := g } ∧ SameRegsBut ks s t

section
variable {ks : List Nat} {s t : State}

theorem OnlyRegsIn.refl (ks : List Nat) (s : State) : OnlyRegsIn ks s s := ⟨_, rfl, .refl ks s⟩

theorem OnlyRegsIn.wr (h : OnlyRegsIn ks s t) (w : Win) (o : Nat) (v : Word32) (hk : regKey w o ∈ ks) :
    OnlyRegsIn ks s (t.wr w o v) := by
  obtain ⟨g, rfl, hsame⟩ := h
  exact ⟨_, rfl, hsame.wr w o v hk⟩

theorem OnlyRegsIn.setFld (h : OnlyRegsIn ks s t) (w : Win) (o lo n v : Nat) (hk : regKey w o ∈ ks) :
    OnlyRegsIn ks s (t.setFld w o lo n v) := h.wr w o _ hk

theorem OnlyRegsIn.trans {js : List Nat} {u : State} (h : OnlyRegsIn ks s t) (h' : OnlyRegsIn js t u) (hsub : js ⊆ ks) :
    OnlyRegsIn ks s u := by
  obtain ⟨g, rfl, hsame⟩ := h
  obtain ⟨g', rfl, hsame'⟩ := h'
  exact ⟨g', rfl, fun k hk => (hsame' k fun hj => hk (hsub hj)).trans (hsame k hk)⟩

theorem OnlyRegsIn.fld (h : OnlyRegsIn ks s t) (w : Win) (o lo n : Nat) (hk : regKey w o ∉ ks) : t.fld w o lo n = s.fld w o lo n := by
  obtain ⟨g, -, hsame⟩ := h
  exact congrArg (bitsOf · lo n) (hsame _ hk)

theorem OnlyRegsIn.rd (h : OnlyRegsIn ks s t) (w : Win) (o : Nat) (hk : regKey w o ∉ ks) : t.rd w o = s.rd w o := by
  obtain ⟨g, -, hsame⟩ := h
  exact hsame _ hk

theorem OnlyRegsIn.atp (h : OnlyRegsIn ks s t) (r : RegionNo) : t.atp r = s.atp r := by
  obtain ⟨g, rfl, -⟩ := h
  rfl

/-- The master is told that its write was done. -/
theorem OnlyRegsIn.answer (h : OnlyRegsIn ks s t) (data : List Byte) :
    SameRegsBut ks s (t.answer data) ∧ OnlyRegs s (t.answer data) := by
  obtain ⟨g, rfl, hsame⟩ := h
  exact ⟨hsame, rfl⟩

end

theorem regKey_notMem_singleton {w : Win} {o p : Nat} (h : o ≠ p) : regKey w o ∉ [regKey w p] :=
  fun hmem => regKey_ne h (List.mem_singleton.1 hmem)

/-! ### The states of the units (Table 5-13) -/

theorem AtpUnit.mem_allUnits (u : AtpUnit) : u ∈ allUnits := by cases u <;> decide

section
variable {s t : State} {r : RegionNo}

/-- Each unit's state is a field of its own. -/
theorem State.unitState_setUnit (s : State) (r : RegionNo) (u w : AtpUnit) {v : Nat} (hv : v < 4) :
    (s.setUnit r u v).unitState r w = if w = u then v else s.unitState r w := by
  have hu : 2 * u.no + 2 ≤ 32 := by cases u <;> decide
  by_cases h : w = u
  · subst h
    rw [if_pos rfl]
    exact (State.fld_setFld_self s _ _ _ _ v hu).trans (Nat.mod_eq_of_lt hv)
  · rw [if_neg h]
    have hapart : 2 * w.no + 2 ≤ 2 * u.no ∨ 2 * u.no + 2 ≤ 2 * w.no := by revert h; cases u <;> cases w <;> decide
    obtain hbelow | habove := hapart
    · exact State.fld_setFld_below s _ _ _ _ _ _ _ hu hbelow
    · exact State.fld_setFld_above s _ _ _ _ _ _ _ hu habove

/-- The PHASE field of ATP_STATUS lies above the units' states. -/
theorem State.phaseField_setUnit (s : State) (r : RegionNo) (u : AtpUnit) (v : Nat) :
    (s.setUnit r u v).fld (.atp r) ATP_STATUS 6 2 = s.fld (.atp r) ATP_STATUS 6 2 :=
  State.fld_setFld_above s _ _ _ _ _ _ _ (by cases u <;> decide) (by cases u <;> decide)

theorem OnlyRegsIn.setUnit {ks : List Nat} (h : OnlyRegsIn ks s t) (u : AtpUnit) (v : Nat) (hk : regKey (.atp r) ATP_STATUS ∈ ks) :
    OnlyRegsIn ks s (t.setUnit r u v) := h.setFld _ _ _ _ _ hk

/-- A unit either keeps its state or takes a new one. -/
theorem State.unitFollow_cases (s : State) (r : RegionNo) (u : AtpUnit) :
    s.unitFollow r u = s ∨ ∃ v, s.unitFollow r u = s.setUnit r u v := by
  unfold State.unitFollow
  extract_lets
  split_ifs
  · exact .inl rfl
  · exact .inr ⟨1, rfl⟩
  · exact .inl rfl
  · exact .inr ⟨0, rfl⟩

theorem State.unitFollow_stopped {u : AtpUnit} (h : s.unitState r u = 3) : s.unitFollow r u = s := if_pos h

/-- The state that GO gives a unit: RUNNING while it holds work of the present phase, else IDLE. -/
def State.goState (s : State) (r : RegionNo) (u : AtpUnit) : Nat := if u.queue (s.atp r) ≠ [] ∧ s.atpPhase r = u.phase then 1 else 0

theorem State.goState_lt (s : State) (r : RegionNo) (u : AtpUnit) : s.goState r u < 4 := by unfold State.goState; split <;> decide

theorem State.unitFollow_idle {u : AtpUnit} (h : s.unitState r u = 0) : s.unitFollow r u = s.setUnit r u (s.goState r u) := by
  by_cases hgo : u.queue (s.atp r) ≠ [] ∧ s.atpPhase r = u.phase
  · obtain ⟨hwork, hhere⟩ := hgo
    simp [State.unitFollow, State.goState, h, hwork, hhere]
  · have hoff : (decide (u.queue (s.atp r) ≠ []) && s.atpPhase r == u.phase) = false := by simpa using hgo
    simp only [State.unitFollow, State.goState, h, hoff, if_neg hgo]
    simp

theorem OnlyRegsIn.unitFollow {ks : List Nat} (h : OnlyRegsIn ks s t) (u : AtpUnit) (hk : regKey (.atp r) ATP_STATUS ∈ ks) :
    OnlyRegsIn ks s (t.unitFollow r u) := by
  obtain hkeep | ⟨v, hset⟩ := t.unitFollow_cases r u
  · rwa [hkeep]
  · rw [hset]
    exact h.setUnit u v hk

theorem State.phaseField_unitFollow (s : State) (r : RegionNo) (u : AtpUnit) :
    (s.unitFollow r u).fld (.atp r) ATP_STATUS 6 2 = s.fld (.atp r) ATP_STATUS 6 2 := by
  obtain hkeep | ⟨v, hset⟩ := s.unitFollow_cases r u
  · rw [hkeep]
  · rw [hset, State.phaseField_setUnit]

theorem State.goState_congr (h : OnlyRegsIn [regKey (.atp r) ATP_STATUS] s t) (u : AtpUnit) : t.goState r u = s.goState r u := by
  have hphase : t.atpPhase r = s.atpPhase r := h.fld _ _ _ _ (regKey_notMem_singleton (by decide))
  rw [State.goState, State.goState, h.atp, hphase]

/-! ### All units in turn -/

/-- STOP reaches each unit of a list. -/
theorem State.stopUnits (r : RegionNo) : ∀ (l : List AtpUnit) (s : State),
    OnlyRegsIn [regKey (.atp r) ATP_STATUS] s (l.foldl (fun t u => t.setUnit r u 3) s) ∧
    ∀ w, (l.foldl (fun t u => t.setUnit r u 3) s).unitState r w = if w ∈ l then 3 else s.unitState r w
  | [], s => ⟨.refl _ s, fun _ => rfl⟩
  | u :: l, s => by
    obtain ⟨honly, hstate⟩ := State.stopUnits r l (s.setUnit r u 3)
    refine ⟨((OnlyRegsIn.refl _ s).setUnit u 3 (List.mem_singleton_self _)).trans honly (List.Subset.refl _), fun w => ?_⟩
    rw [List.foldl_cons, hstate, State.unitState_setUnit s r u w (by decide)]
    by_cases hw : w = u <;> simp [hw]

/-- GO of one unit. -/
def State.goUnit (s : State) (r : RegionNo) (u : AtpUnit) : State := if s.unitState r u = 3 then (s.setUnit r u 0).unitFollow r u else s

theorem State.atpGo_eq (s : State) (r : RegionNo) : s.atpGo r = allUnits.foldl (fun t u => t.goUnit r u) s := rfl

/-- GO gives a STOPPED unit the state that its queue and the phase ask for, and touches no other unit. -/
theorem State.goUnit_stopped {u : AtpUnit} (h : s.unitState r u = 3) :
    OnlyRegsIn [regKey (.atp r) ATP_STATUS] s (s.goUnit r u) ∧
    ∀ w, (s.goUnit r u).unitState r w = if w = u then s.goState r u else s.unitState r w := by
  have hidle : (s.setUnit r u 0).unitState r u = 0 := (s.unitState_setUnit r u u (by decide)).trans (if_pos rfl)
  have hzero : OnlyRegsIn [regKey (.atp r) ATP_STATUS] s (s.setUnit r u 0) := (OnlyRegsIn.refl _ s).setUnit u 0 (List.mem_singleton_self _)
  have hgo : s.goUnit r u = (s.setUnit r u 0).setUnit r u (s.goState r u) := by
    rw [State.goUnit, if_pos h, State.unitFollow_idle hidle, State.goState_congr hzero]
  rw [hgo]
  refine ⟨hzero.setUnit u _ (List.mem_singleton_self _), fun w => ?_⟩
  rw [State.unitState_setUnit _ r u w (s.goState_lt r u), State.unitState_setUnit s r u w (by decide)]
  by_cases hw : w = u <;> simp [hw]

/-- GO reaches each STOPPED unit of a list without repetitions. -/
theorem State.goUnits (r : RegionNo) : ∀ (l : List AtpUnit) (s : State), l.Nodup → (∀ u ∈ l, s.unitState r u = 3) →
    OnlyRegsIn [regKey (.atp r) ATP_STATUS] s (l.foldl (fun t u => t.goUnit r u) s) ∧
    ∀ w, (l.foldl (fun t u => t.goUnit r u) s).unitState r w = if w ∈ l then s.goState r w else s.unitState r w
  | [], s, _, _ => ⟨.refl _ s, fun _ => rfl⟩
  | u :: l, s, hnodup, hstop => by
    obtain ⟨hu, hl⟩ := List.nodup_cons.1 hnodup
    obtain ⟨honly, hstate⟩ := State.goUnit_stopped (hstop u List.mem_cons_self)
    have hrest : ∀ w ∈ l, (s.goUnit r u).unitState r w = 3 := fun w hw =>
      (hstate w).trans ((if_neg (ne_of_mem_of_not_mem hw hu)).trans (hstop w (List.mem_cons_of_mem u hw)))
    obtain ⟨honly', hstate'⟩ := State.goUnits r l (s.goUnit r u) hl hrest
    refine ⟨honly.trans honly' (List.Subset.refl _), fun w => ?_⟩
    rw [List.foldl_cons, hstate', hstate, State.goState_congr honly]
    by_cases hw : w = u
    · subst hw
      simp [hu]
    · simp [hw]

/-- Every unit follows the phase and its queue. -/
theorem State.unitsFollow (r : RegionNo) (l : List AtpUnit) (s : State) :
    OnlyRegsIn [regKey (.atp r) ATP_STATUS] s (l.foldl (fun t u => t.unitFollow r u) s) ∧
    (l.foldl (fun t u => t.unitFollow r u) s).fld (.atp r) ATP_STATUS 6 2 = s.fld (.atp r) ATP_STATUS 6 2 := by
  refine foldl_keeps (P := fun t => OnlyRegsIn [regKey (.atp r) ATP_STATUS] s t ∧
    t.fld (.atp r) ATP_STATUS 6 2 = s.fld (.atp r) ATP_STATUS 6 2) ?_ l s ⟨.refl _ s, rfl⟩
  rintro t u ⟨honly, hphase⟩
  exact ⟨honly.unitFollow u (List.mem_singleton_self _), (t.phaseField_unitFollow r u).trans hphase⟩

/-! ### Queues -/

@[simp] theorem AtpUnit.queue_setQueue (u w : AtpUnit) (a : AtpSt) (q : List Word256) :
    w.queue (u.setQueue a q) = if w = u then q else w.queue a := by cases u <;> cases w <;> rfl

@[simp] theorem AtpUnit.masks_setQueue (u : AtpUnit) (a : AtpSt) (q : List Word256) : (u.setQueue a q).masks = a.masks := by
  cases u <;> rfl

@[simp] theorem State.atp_setAtp_self (s : State) (r : RegionNo) (a : AtpSt) : (s.setAtp r a).atp r = a := tabGet_tabSet_self _ _ _ _

theorem State.atp_setAtp_other (s : State) {r p : RegionNo} (a : AtpSt) (h : p ≠ r) : (s.setAtp r a).atp p = s.atp p :=
  tabGet_tabSet_other _ _ _ (Fin.val_ne_of_ne h)

/-- A queue that is replaced is followed by its free count and by the state of its unit alone. -/
theorem State.putQueue_onlyRegs (s : State) (r : RegionNo) (u : AtpUnit) (q : List Word256) :
    OnlyRegsIn [regKey (.atp r) u.statusReg, regKey (.atp r) ATP_STATUS] (s.setAtp r (u.setQueue (s.atp r) q)) (s.putQueue r u q) :=
  ((OnlyRegsIn.refl _ _).setFld _ _ _ _ _ List.mem_cons_self).unitFollow u (by simp)

theorem AtpUnit.statusReg_ne (u : AtpUnit) : u.statusReg ≠ ATP_STATUS := by cases u <;> decide

@[simp] theorem State.atp_putQueue_self (s : State) (r : RegionNo) (u : AtpUnit) (q : List Word256) :
    (s.putQueue r u q).atp r = u.setQueue (s.atp r) q :=
  ((s.putQueue_onlyRegs r u q).atp r).trans (s.atp_setAtp_self r _)

theorem State.atp_putQueue_other (s : State) {r p : RegionNo} (u : AtpUnit) (q : List Word256) (h : p ≠ r) :
    (s.putQueue r u q).atp p = s.atp p := ((s.putQueue_onlyRegs r u q).atp p).trans (s.atp_setAtp_other _ h)

theorem State.putQueue_frame (s : State) (r : RegionNo) (u : AtpUnit) (q : List Word256) :
    ∃ g a, s.putQueue r u q = { s with regs := g, atps := a } := by
  obtain ⟨g, h, -⟩ := s.putQueue_onlyRegs r u q
  exact ⟨g, _, h⟩

/-- The free count of a queue (R119). -/
theorem State.free_putQueue (s : State) (r : RegionNo) (u : AtpUnit) (q : List Word256) :
    (s.putQueue r u q).fld (.atp r) u.statusReg 0 13 = u.size - q.length := by
  have hsize : u.size - q.length < 2 ^ 13 := lt_of_le_of_lt (Nat.sub_le _ _) (by cases u <;> decide)
  let s1 := s.setAtp r (u.setQueue (s.atp r) q)
  have hkeep : (s.putQueue r u q).fld (.atp r) u.statusReg 0 13 = (s1.freeFollow r u).fld (.atp r) u.statusReg 0 13 :=
    ((OnlyRegsIn.refl [regKey (.atp r) ATP_STATUS] _).unitFollow u (List.mem_singleton_self _)).fld _ _ _ _
      (regKey_notMem_singleton u.statusReg_ne)
  rw [hkeep, State.freeFollow, State.fld_setFld_self _ _ _ _ _ _ (by decide), State.atp_setAtp_self, AtpUnit.queue_setQueue, if_pos rfl,
    Nat.mod_eq_of_lt hsize]

/-- A STOPPED unit stays so when its queue is replaced, and so does every other unit's state. -/
theorem State.unitState_putQueue_stopped {u : AtpUnit} (h : s.unitState r u = 3) (q : List Word256) (w : AtpUnit) :
    (s.putQueue r u q).unitState r w = s.unitState r w := by
  have hfree : ∀ w, ((s.setAtp r (u.setQueue (s.atp r) q)).freeFollow r u).unitState r w = s.unitState r w := fun w =>
    State.fld_setFld_other _ _ _ _ _ _ _ _ _ _ (regKey_ne u.statusReg_ne.symm)
  rw [State.putQueue, State.unitFollow_stopped ((hfree u).trans h), hfree]

/-- FLUSH of the units of a list, all units STOPPED: their queues are empty, no unit's state and no mask changes. -/
theorem State.flushUnits (r : RegionNo) : ∀ (l : List AtpUnit) (s : State), (∀ u, s.unitState r u = 3) →
    let t := l.foldl (fun t u => t.putQueue r u []) s
    (∀ w : AtpUnit, w.queue (t.atp r) = if w ∈ l then [] else w.queue (s.atp r)) ∧ (∀ w, t.unitState r w = 3) ∧
    (t.atp r).masks = (s.atp r).masks ∧ ∃ g a, t = { s with regs := g, atps := a }
  | [], s, hstop => ⟨fun _ => rfl, hstop, rfl, _, _, rfl⟩
  | u :: l, s, hstop => by
    intro t
    have hstop' : ∀ w, (s.putQueue r u []).unitState r w = 3 := fun w =>
      (State.unitState_putQueue_stopped (hstop u) [] w).trans (hstop w)
    obtain ⟨hqueue, hstate, hmasks, g, a, ht⟩ := State.flushUnits r l (s.putQueue r u []) hstop'
    obtain ⟨g', a', hput⟩ := s.putQueue_frame r u []
    refine ⟨fun w => (hqueue w).trans ?_, hstate, hmasks.trans (by simp), g, a, ht.trans ?_⟩
    · by_cases hw : w = u <;> simp [hw]
    · rw [hput]

end

end Sys2Proof.Machine
end

section
/-! The register commands of a pipeline (R115, R119, R135 to R137), and the statement about them. -/

namespace Sys2Proof.Machine

section
variable {s : State} {r : RegionNo}

/-! ### Who writes the window (R137) -/

theorem State.atpCtrl_own {f : State → State} (hclear : s.bit (.atp r) ATP_STATUS 9 = false) :
    s.atpCtrl (.regionController r) r f = (f s).answer [] := by
  simp [State.atpCtrl, hclear]

theorem State.atpCtrl_other {n : Master} {f : State → State} (h : n ≠ .regionController r) : s.atpCtrl n r f = s.permissionError :=
  if_pos h

/-! ### Pushes (R119) -/

/-- The descriptor that unit u has staged may be pushed: it is no page that a move has in hand. -/
def State.MayPush (s : State) (r : RegionNo) (u : AtpUnit) : Prop :=
  u = .att → bitsOf (s.staged r u) 0 4 = 2 → bitOf (s.staged r u) 14 = true ∨ s.busyAt (s.owner r) (bitsOf (s.staged r u) 16 48) = false

theorem State.atpPush_room {u : AtpUnit} {v : Word32} (hpush : bitOf v 0 = true) (hroom : (u.queue (s.atp r)).length < u.size)
    (hmay : s.MayPush r u) : s.atpPush r u v = s.putQueue r u (u.queue (s.atp r) ++ [s.staged r u]) := by
  have hfree : ¬(u = .att ∧ bitsOf (s.staged r u) 0 4 = 2 ∧ (!bitOf (s.staged r u) 14) = true ∧
      s.busyAt (s.owner r) (bitsOf (s.staged r u) 16 48) = true) := by
    rintro ⟨hu, htype, hside, hbusy⟩
    obtain h | h := hmay hu htype
    · simp [h] at hside
    · simp [h] at hbusy
  rw [State.atpPush, hpush]
  exact (if_neg hfree).trans (if_neg (Nat.not_le.2 hroom))

/-- A push into a queue with room: the descriptor is its last, the free count follows, and nothing else changes. -/
theorem push_answers {i : Instr} {u : AtpUnit} {v : Word32} (hclear : s.bit (.atp r) ATP_STATUS 9 = false) (hpush : bitOf v 0 = true)
    (hroom : (u.queue (s.atp r)).length < u.size) (hmay : s.MayPush r u)
    (hi : exec i s = .next (s.atpCtrl (.regionController r) r fun s => s.atpPush r u v)) :
    Answers i s (fun t => u.queue (t.atp r) = u.queue (s.atp r) ++ [s.staged r u] ∧
      t.fld (.atp r) u.statusReg 0 13 = u.size - 1 - (u.queue (s.atp r)).length ∧
      SameRegsBut [regKey (.atp r) u.statusReg, regKey (.atp r) ATP_STATUS] s t ∧ (∀ q, q ≠ r → t.atp q = s.atp q) ∧
      t = { s with regs := t.regs, resp := t.resp, atps := t.atps }) := by
  let q := u.queue (s.atp r) ++ [s.staged r u]
  have ht : s.atpCtrl (.regionController r) r (fun s => s.atpPush r u v) = (s.putQueue r u q).answer [] := by
    rw [State.atpCtrl_own hclear, State.atpPush_room hpush hroom hmay]
  obtain ⟨g, hframe, hregs⟩ := s.putQueue_onlyRegs r u q
  refine ⟨_, hi.trans (congrArg _ ht), ?_, (s.free_putQueue r u q).trans ?_, hregs, fun p hp => s.atp_putQueue_other u q hp, ?_⟩
  · exact (congrArg u.queue (s.atp_putQueue_self r u q)).trans (by simp [q])
  · simp only [q, List.length_append, List.length_singleton]
    omega
  · rw [hframe]
    rfl

/-! ### The phase (R115) -/

/-- A phase that begins starts its done count again. -/
def State.restartDone (s : State) (r : RegionNo) (old new : Nat) : State :=
  if old = new then s
  else if new = 2 then s.wr (.atp r) ATP_JOBS_DONE 0
  else if new = 1 then s.wr (.atp r) ATP_APP_DONE 0
  else if new = 3 then s.wr (.atp r) ATP_TOK_DONE 0
  else s

/-- The phase as ATP_PHASE and ATP_STATUS show it. -/
def State.showPhase (s : State) (r : RegionNo) (new : Nat) : State :=
  (s.wr (.atp r) ATP_PHASE (BitVec.ofNat 32 new)).setFld (.atp r) ATP_STATUS 6 2 new

/-- A pipeline without work has no merge to end and no unit to hold. -/
theorem State.phaseWrite_empty {v : Word32} (h : s.atp r = {}) : s.phaseWrite r v =
    allUnits.foldl (fun t u => t.unitFollow r u) ((s.showPhase r (bitsOf v 0 2)).restartDone r (s.atpPhase r) (bitsOf v 0 2)) := by
  have hmerge : s.endMerge r = s := by simp [State.endMerge, h]
  have hqueue : ∀ u : AtpUnit, u.queue (s.atp r) = [] := fun u => by rw [h]; cases u <;> rfl
  have hhold : allUnits.foldl (fun t u => t.holdUnit r (s.atpPhase r) (bitsOf v 0 2) u) s = s :=
    foldl_keeps (P := (· = s)) (fun t u ht => by simp [State.holdUnit, ht, hqueue]) allUnits s rfl
  simp only [State.phaseWrite, hmerge, ite_self, hhold]
  rfl

/-- The registers that a write of ATP_PHASE may change. -/
abbrev phaseKeys (r : RegionNo) : List Nat := [regKey (.atp r) ATP_PHASE, regKey (.atp r) ATP_STATUS, regKey (.atp r) ATP_JOBS_DONE,
  regKey (.atp r) ATP_APP_DONE, regKey (.atp r) ATP_TOK_DONE]

theorem State.showPhase_results (s : State) (r : RegionNo) {new : Nat} (hnew : new < 4) :
    OnlyRegsIn (phaseKeys r) s (s.showPhase r new) ∧ (s.showPhase r new).atpPhase r = new ∧
    (s.showPhase r new).fld (.atp r) ATP_STATUS 6 2 = new := by
  refine ⟨((OnlyRegsIn.refl _ s).wr _ _ _ (by simp)).setFld _ _ _ _ _ (by simp), ?_, ?_⟩
  · rw [State.atpPhase, State.showPhase, State.fld_setFld_other _ _ _ _ _ _ _ _ _ _ (regKey_ne (by decide)), State.fld, State.rd_wr_self]
    simp only [bitsOf, BitVec.toNat_ofNat]
    omega
  · exact (State.fld_setFld_self _ _ _ _ _ _ (by decide)).trans (Nat.mod_eq_of_lt hnew)

theorem State.restartDone_results (s : State) (r : RegionNo) (old new : Nat) :
    OnlyRegsIn [regKey (.atp r) ATP_JOBS_DONE, regKey (.atp r) ATP_APP_DONE, regKey (.atp r) ATP_TOK_DONE] s (s.restartDone r old new) ∧
    (old ≠ 2 → new = 2 → (s.restartDone r old new).rd (.atp r) ATP_JOBS_DONE = 0) ∧
    (old ≠ 1 → new = 1 → (s.restartDone r old new).rd (.atp r) ATP_APP_DONE = 0) ∧
    (old ≠ 3 → new = 3 → (s.restartDone r old new).rd (.atp r) ATP_TOK_DONE = 0) := by
  refine ⟨?_, ?_, ?_, ?_⟩
  · unfold State.restartDone
    have hrefl := OnlyRegsIn.refl [regKey (.atp r) ATP_JOBS_DONE, regKey (.atp r) ATP_APP_DONE, regKey (.atp r) ATP_TOK_DONE] s
    split_ifs
    · exact hrefl
    · exact hrefl.wr _ _ _ (by simp)
    · exact hrefl.wr _ _ _ (by simp)
    · exact hrefl.wr _ _ _ (by simp)
    · exact hrefl
  all_goals
    rintro hold rfl
    simp [State.restartDone, hold]

theorem phaseWrite_answers {v : Word32} (hclear : s.bit (.atp r) ATP_STATUS 9 = false) (hempty : s.atp r = {}) :
    Answers (.atpPhaseWrite (.regionController r) r v) s (fun t => t.atpPhase r = bitsOf v 0 2 ∧
      t.fld (.atp r) ATP_STATUS 6 2 = bitsOf v 0 2 ∧
      (s.atpPhase r ≠ 2 → bitsOf v 0 2 = 2 → t.rd (.atp r) ATP_JOBS_DONE = 0) ∧
      (s.atpPhase r ≠ 1 → bitsOf v 0 2 = 1 → t.rd (.atp r) ATP_APP_DONE = 0) ∧
      (s.atpPhase r ≠ 3 → bitsOf v 0 2 = 3 → t.rd (.atp r) ATP_TOK_DONE = 0) ∧ SameRegsBut (phaseKeys r) s t ∧ OnlyRegs s t) := by
  obtain ⟨hshow, hphase, hfield⟩ := s.showPhase_results r (new := bitsOf v 0 2) (Nat.mod_lt _ (by decide))
  obtain ⟨hdone, hjobs, happ, htok⟩ := (s.showPhase r (bitsOf v 0 2)).restartDone_results r (s.atpPhase r) (bitsOf v 0 2)
  obtain ⟨hfollow, hkept⟩ := State.unitsFollow r allUnits ((s.showPhase r (bitsOf v 0 2)).restartDone r (s.atpPhase r) (bitsOf v 0 2))
  have hall : OnlyRegsIn (phaseKeys r) s (s.phaseWrite r v) := by
    rw [State.phaseWrite_empty hempty]
    exact (hshow.trans hdone (by simp)).trans hfollow (by simp)
  have hread : ∀ o, o ≠ ATP_STATUS → (s.phaseWrite r v).rd (.atp r) o =
      ((s.showPhase r (bitsOf v 0 2)).restartDone r (s.atpPhase r) (bitsOf v 0 2)).rd (.atp r) o := fun o ho => by
    rw [State.phaseWrite_empty hempty]
    exact hfollow.rd _ _ (regKey_notMem_singleton ho)
  refine ⟨_, congrArg Host.Outcome.next (State.atpCtrl_own hclear), ?_, ?_, fun h h' => (hread _ (by decide)).trans (hjobs h h'),
    fun h h' => (hread _ (by decide)).trans (happ h h'), fun h h' => (hread _ (by decide)).trans (htok h h'), hall.answer []⟩
  · exact (congrArg (bitsOf · 0 2) (hread ATP_PHASE (by decide))).trans
      ((hdone.fld (.atp r) ATP_PHASE 0 2 (by simp [regKey])).trans hphase)
  · refine Eq.trans ?_ ((hdone.fld (.atp r) ATP_STATUS 6 2 (by simp [regKey])).trans hfield)
    rw [← hkept, ← State.phaseWrite_empty hempty]
    rfl

/-! ### STOP, GO, FLUSH, ERR_ACK (R135, R137) -/

/-- A token unit that does not run has nothing to abandon. -/
theorem State.abandonToken_idle (h : s.unitState r .tok ≠ 1) : s.abandonToken r = s := by
  unfold State.abandonToken
  split
  · rfl
  · exact if_pos (.inl h)

theorem stop_answers (hclear : s.bit (.atp r) ATP_STATUS 9 = false) :
    Answers (.atpStop (.regionController r) r) s (fun t => (∀ u, t.unitState r u = 3) ∧
      SameRegsBut [regKey (.atp r) ATP_STATUS] (s.abandonToken r) t ∧ OnlyRegs (s.abandonToken r) t) := by
  obtain ⟨honly, hstate⟩ := State.stopUnits r allUnits (s.abandonToken r)
  exact ⟨_, congrArg Host.Outcome.next (State.atpCtrl_own hclear), fun u => (hstate u).trans (if_pos u.mem_allUnits), honly.answer []⟩

theorem go_answers (hclear : s.bit (.atp r) ATP_STATUS 9 = false) (hstop : ∀ u ∈ allUnits, s.unitState r u = 3) :
    Answers (.atpGo (.regionController r) r) s (fun t =>
      (∀ u, t.unitState r u = if u.queue (s.atp r) ≠ [] ∧ s.atpPhase r = u.phase then 1 else 0) ∧
      SameRegsBut [regKey (.atp r) ATP_STATUS] s t ∧ OnlyRegs s t) := by
  obtain ⟨honly, hstate⟩ := State.goUnits r allUnits s (by decide) hstop
  rw [← State.atpGo_eq] at honly hstate
  exact ⟨_, congrArg Host.Outcome.next (State.atpCtrl_own hclear), fun u => (hstate u).trans (if_pos u.mem_allUnits), honly.answer []⟩

theorem flush_answers (hclear : s.bit (.atp r) ATP_STATUS 9 = false) (hstop : ∀ u ∈ allUnits, s.unitState r u = 3) :
    Answers (.atpFlush (.regionController r) r) s (fun t => (∀ u : AtpUnit, u.queue (t.atp r) = []) ∧ (∀ u, t.unitState r u = 3) ∧
      (t.atp r).masks = (s.atp r).masks ∧ t = { s with regs := t.regs, resp := t.resp, atps := t.atps }) := by
  obtain ⟨hqueue, hstate, hmasks, g, a, hframe⟩ := State.flushUnits r allUnits s fun u => hstop u u.mem_allUnits
  have hflush : s.atpFlush r = allUnits.foldl (fun t u => t.putQueue r u []) s := if_pos (by simpa using hstop)
  have hexec : s.atpCtrl (.regionController r) r (fun s => s.atpFlush r) =
      (allUnits.foldl (fun t u => t.putQueue r u []) s).answer [] := by rw [State.atpCtrl_own hclear, hflush]
  refine ⟨_, congrArg Host.Outcome.next hexec, fun u => (hqueue u).trans (if_pos u.mem_allUnits), hstate, hmasks, ?_⟩
  rw [hframe]
  rfl

theorem errAck_answers (hclear : s.bit (.atp r) ATP_STATUS 9 = false) :
    Answers (.atpErrAck (.regionController r) r) s (fun t => t.bit (.atp r) ATP_STATUS 8 = false ∧
      SameRegsBut [regKey (.atp r) ATP_STATUS] s t ∧ OnlyRegs s t) :=
  ⟨_, congrArg Host.Outcome.next (State.atpCtrl_own hclear),
    congrArg (· == 1) (State.fld_setFld_self s (.atp r) ATP_STATUS 8 1 0 (by decide)),
    ((OnlyRegsIn.refl _ s).setFld _ _ _ _ _ (List.mem_singleton_self _)).answer []⟩

/-! ### The end of a clear (R136) -/

/-- A range of a window's registers that is reset reads its reset values; every other register reads as before. -/
theorem State.resetWin_results (s : State) (w : Win) (n : Nat) :
    (∀ o < n, (s.resetWin w 0 n).rd w o = regReset (regKey w o)) ∧
    ∀ k, k < regKey w 0 ∨ regKey w n ≤ k → tabGet regReset (s.resetWin w 0 n).regs k = tabGet regReset s.regs k := by
  refine ⟨fun o ho => (tabGet_tabClear ..).trans (if_pos ?_), fun k hk => (tabGet_tabClear ..).trans (if_neg (by omega))⟩
  simp only [regKey]
  omega

end

/-- Settles O26, command by command: a push (push_answers), the phase (phaseWrite_answers), STOP, GO, FLUSH and ERR_ACK, the end of a
clear, and what any other master is told. -/
theorem pipelineRegisterResults : Obligations.PipelineRegisterResults := by
  unfold Obligations.PipelineRegisterResults
  intro s r v m
  refine ⟨fun hclear => ⟨fun hpush => ⟨?_, ?_, ?_⟩, fun hempty => phaseWrite_answers hclear hempty, State.abandonToken_idle,
    stop_answers hclear, fun hstop => ⟨go_answers hclear hstop, flush_answers hclear hstop⟩, errAck_answers hclear⟩,
    fun hclear => ⟨_, if_pos hclear, (s.resetWin_results _ _).1, (s.resetWin_results _ _).2, rfl⟩, fun n hn i hi => ?_⟩
  · exact fun hroom hmay => push_answers (u := .att) hclear hpush hroom (fun _ => hmay) rfl
  · exact fun hroom => push_answers (u := .app) hclear hpush hroom nofun rfl
  · exact fun hroom => push_answers (u := .tok) hclear hpush hroom nofun rfl
  · simp only [List.mem_cons, List.not_mem_nil, or_false] at hi
    rcases hi with rfl | rfl | rfl | rfl | rfl | rfl | rfl | rfl <;>
      exact ⟨_, congrArg Host.Outcome.next (State.atpCtrl_other hn), permissionError_results s 4⟩

end Sys2Proof.Machine
end

section
/-! The work of a pipeline (R119, R123, R124, R126, R127, R130 to R132): a job, a merge, an append, a commit and a plain token, and the
statement about them. -/

namespace Sys2Proof.Machine

theorem settles_settleAll (u : State) : Settles u u.settleAll := ⟨rfl, State.settleAll_unblocked⟩

section
variable {s : State} {r : RegionNo} {d : Word256}

/-! ### The attention unit -/

/-- A job whose descriptors are all queued and pass the checks runs, and is counted. -/
theorem attentionJob_answers {ds run rest : List Word256} (htakes : s.unitTakes r .att = true) (hdq : (s.atp r).dq = d :: ds)
    (htype : descType d = 1) (hrun : jobRun ds = some (run, rest))
    (hcheck : (jobCheck (s.fld (.atp r) ATP_CFG 16 14) (s.sessionLens (s.owner r) (bitsOf d 32 16)) d run).1 = 0) :
    Answers (.attentionJob r) s (Settles (((s.putQueue r .att rest).runJob r
      (jobCheck (s.fld (.atp r) ATP_CFG 16 14) (s.sessionLens (s.owner r) (bitsOf d 32 16)) d run).2).bump (.atp r) ATP_JOBS_DONE)) := by
  refine ⟨_, ?_, settles_settleAll _⟩
  change execAttentionJob r s = _
  simp [execAttentionJob, htakes, hdq, htype, hrun, hcheck]

/-- The partials of merge n's splits, read once its mask is clear (R124). -/
def State.mergeReads (s : State) (r : RegionNo) (n : MergeD) : (List (List RowSt) × Nat) × State :=
  (s.setAtp r { (s.atp r) with masks := natSet (s.atp r).masks n.mergeId 0 }).readPartials r n (s.lclass r n.lclass).dv n.nsplit
/-- The output rows of merge n. -/
def State.mergeOuts (s : State) (r : RegionNo) (n : MergeD) : List (List Word32) :=
  (List.range n.rows).map (fun i => rowOut 1 (mergedRow (s.mergeReads r n).1.1 i))
/-- The output rows of merge n written. -/
def State.mergeWrites (s : State) (r : RegionNo) (n : MergeD) : WrRes × State :=
  (s.mergeReads r n).2.writeOutputs r n.o (s.lclass r n.lclass).dv (s.mergeOuts r n) []

/-- A merge whose splits have all arrived, whose class and addresses are good and whose reads and writes meet no error. -/
theorem merge_answers {q : List Word256} (htakes : s.unitTakes r .att = true) (hdq : (s.atp r).dq = d :: q) (htype : descType d = 3)
    (hreserved : mergeReserved d = false)
    (hmask : natGet (s.atp r).masks (mergeOf d).mergeId % 2 ^ (mergeOf d).nsplit = 2 ^ (mergeOf d).nsplit - 1)
    (hclass : (s.lclass r (mergeOf d).lclass).ok = true) (halignOut : (mergeOf d).o % 256 = 0) (halignPart : (mergeOf d).part % 256 = 0)
    (hnearOut : s.tier0 (s.owner r) (mergeOf d).o ((mergeOf d).rows * outStride (s.lclass r (mergeOf d).lclass).dv) = true)
    (hnearPart : s.tier0 (s.owner r) (mergeOf d).part (((mergeOf d).nsplit - 1) * (mergeOf d).stride * 256 +
      (mergeOf d).rows * (outStride (s.lclass r (mergeOf d).lclass).dv + 8)) = true)
    (hread : (s.mergeReads r (mergeOf d)).1.2 = 0) (hwrite : (s.mergeWrites r (mergeOf d)).1 = .ok) :
    Answers (.merge r) s (Settles ((((s.mergeWrites r (mergeOf d)).2.bump (.atp r) ATP_EVT_NANROW
      (((s.mergeOuts r (mergeOf d)).filter (fun o => o.any isNan32)).length)).bump (.atp r) ATP_JOBS_DONE).putQueue r .att q)) := by
  refine ⟨_, ?_, settles_settleAll _⟩
  change execMerge r s = _
  rw [execMerge, if_neg (by simp [htakes])]
  split
  · next hnil => simp [hnil] at hdq
  · next d' q' hcons =>
    obtain ⟨rfl, rfl⟩ := List.cons.inj (hdq.symm.trans hcons)
    have haddr : ¬((mergeOf d).o % 256 ≠ 0 ∨ (mergeOf d).part % 256 ≠ 0 ∨
        (!s.tier0 (s.owner r) (mergeOf d).o ((mergeOf d).rows * outStride (s.lclass r (mergeOf d).lclass).dv)) = true ∨
        (!s.tier0 (s.owner r) (mergeOf d).part (((mergeOf d).nsplit - 1) * (mergeOf d).stride * 256 +
          (mergeOf d).rows * (outStride (s.lclass r (mergeOf d).lclass).dv + 8))) = true) := by
      simp [halignOut, halignPart, hnearOut, hnearPart]
    calc _ = _ := if_neg (not_not.2 htype)
      _ = _ := if_neg (by simp [hreserved])
      _ = _ := if_neg (not_not.2 hmask)
      _ = _ := if_neg (by simp [hclass])
      _ = _ := if_neg haddr
      _ = _ := if_neg (not_not.2 hread)
      _ = _ := if_neg (not_not.2 hwrite)

/-! ### The append path -/

theorem append_answers {rest : List Word256} {u : State} (htakes : s.unitTakes r .app = true) (haq : (s.atp r).aq = d :: rest)
    (hreserved : appReserved d = false) (htype : descType d = 5) (halign : (appOf d).page % 65536 = 0)
    (hnear : s.nearPlace (s.owner r) (appOf d).page = true) (hown : s.sharedAt (s.owner r) (appOf d).page = false)
    (hfits : (appOf d).side = true ∨ (appOf d).pos % 256 + (appOf d).n ≤ 256)
    (hdone : s.appendTokens r (appOf d) (appOf d).n = (0, u)) :
    Answers (.append r) s (Settles (u.putQueue r .app rest)) := by
  have hall : (if (appOf d).side then (appOf d).n else min (appOf d).n (256 - (appOf d).pos % 256)) = (appOf d).n := by
    split
    · rfl
    · next hside => exact Nat.min_eq_left (Nat.le_sub_of_add_le' (hfits.resolve_left hside))
  refine ⟨_, ?_, settles_settleAll _⟩
  change execAppend r s = _
  simp [execAppend, htakes, haq, htype, hreserved, halign, hnear, hown, hall, hdone, State.endAppend]

theorem commit_answers {rest : List Word256} {u : State} (htakes : s.unitTakes r .app = true) (haq : (s.atp r).aq = d :: rest)
    (hreserved : appReserved d = false) (htype : descType d = 6) (halign : (appOf d).page % 65536 = 0)
    (hnear : s.nearPlace (s.owner r) (appOf d).page = true) (hown : s.sharedAt (s.owner r) (appOf d).page = false)
    (hsrc : (appOf d).src % 65536 = 0) (hsrcNear : s.nearPlace (s.owner r) (appOf d).src = true)
    (hdone : s.commitNode r (appOf d) = (.done, u)) :
    Answers (.commit r) s (Settles (u.putQueue r .app rest)) := by
  refine ⟨_, ?_, settles_settleAll _⟩
  change execCommit r s = _
  simp [execCommit, htakes, haq, htype, hreserved, halign, hnear, hown, hsrc, hsrcNear, hdone, State.endAppend]

/-! ### The token unit -/

section
variable {t : TokCtx}

theorem TokCtx.kids_plain (hcands : t.cands = [none]) : t.kids 0 = [] := by simp [TokCtx.kids, hcands]
theorem TokCtx.depth_plain (hcands : t.cands = [none]) : t.depth 0 = 0 := by simp [TokCtx.depth, hcands, depthsOf]

/-- A decision without candidates draws one token from the distribution of its row (R131). -/
theorem decide1_plain {p : Dist} (htree : t.tree = false) (hcands : t.cands = [none]) (htarget : t.target 0 = some p) :
    decide1 t 1 0 = { toks := [sampleOf p (drawU t.seed 0 (t.pos + 1) 1)] } := by
  simp [decide1, htarget, htree, t.kids_plain hcands, t.depth_plain hcands]

/-- A decision without candidates ends where it began. -/
theorem decide1_plain_path (htree : t.tree = false) (hcands : t.cands = [none]) : (decide1 t 1 0).path = [] := by
  unfold decide1
  cases t.target 0 <;> simp [htree, t.kids_plain hcands]

/-- A NaN logit stops a decision (R130). -/
theorem decide1_nan (htarget : t.target 0 = none) : decide1 t 1 0 = { nan := true } := by simp [decide1, htarget]

end

/-- The table of a plain descriptor, which has no candidates, is good (R129). -/
theorem candsOk_plain (vocab : Nat) : candsOk 0 vocab [none] = true := by simp [candsOk, depthsOf]

/-- What a plain descriptor decides from (R130). -/
def State.plainCtx (s : State) (r : RegionNo) (x : TokD) : TokCtx :=
  let c := (s.ctx (s.owner r) x.session).getD { id := 0 }
  let dist := fun (a : Nat) => distOf c.temp c.topP c.topK (s.logitRow r a x.vocab).1
  { tree := false, pos := x.pos, seed := c.seed, cands := [none],
    target := fun n => dist (x.logits + n * logitStride x.vocab), draft := fun n => dist (x.cand + 256 + n * logitStride x.vocab) }

/-- A plain descriptor whose row is read without error: the one node's decision, by its record (R130 to R132). -/
theorem execToken_plain {rest : List Word256} (htakes : s.unitTakes r .tok = true) (htq : (s.atp r).tq = d :: rest)
    (htype : descType d = 8) (hreserved : tokReserved d = false) (hkind : (tokOf d).kind = 0) (hnodes : (tokOf d).nodes = 1)
    (hout : (tokOf d).out % 32 = 0) (htouched : (s.touchRows r (tokOf d).vocab [(tokOf d).logits]).1 = 0) :
    execToken r s = .next (if (decide1 (s.plainCtx r (tokOf d)) 1 0).nan
      then (s.touchRows r (tokOf d).vocab [(tokOf d).logits]).2.endToken r (tokOf d) 0x0B (some (resultRecord (tokOf d) 1 [] [] [])) rest
      else (s.touchRows r (tokOf d).vocab [(tokOf d).logits]).2.endToken r (tokOf d) 0
        (some (resultRecord (tokOf d) 0 (decide1 (s.plainCtx r (tokOf d)) 1 0).toks [0] [])) rest) := by
  rw [execToken, if_neg (by simp [htakes]), htq]
  dsimp -zeta only
  extract_lets x _ ct cs _ _ t res path _ heads rows touched props
  rw [if_neg (by simp [htype, hreserved]), if_neg (not_not.2 hout)]
  have hct : ct = ({}, s) := if_pos hkind
  have hcs : cs = [none] := by simp [cs, x, hnodes]
  rw [if_neg (by rw [hct]; exact not_not.2 rfl), if_neg (by simp [hcs, x, hkind, hnodes, candsOk_plain])]
  have hres : res = decide1 (s.plainCtx r x) 1 0 := by
    have ht : t = s.plainCtx r x := by
      simp only [t, hcs, x, hkind]
      rfl
    rw [← ht, ← hnodes]
  have hpath : path = [0] := by simp only [path, hres, decide1_plain_path (t := s.plainCtx r x) rfl rfl]
  have hheads : heads = [] := if_neg (by simp [x, hkind])
  have hrows : rows = [x.logits] := by simp [rows, hpath, hheads, x, hkind]
  have htouch : touched = s.touchRows r x.vocab [x.logits] := by simp only [touched, hct, hrows]
  have hprops : props = [] := by simp only [props, hheads, List.map_nil]
  rw [if_neg (by rw [htouch]; exact not_not.2 htouched), htouch, hres, hpath, hprops]
  split <;> rfl

end

/-- Settles O27, command by command: attentionJob_answers, merge_answers, append_answers, commit_answers, and for a plain token
execToken_plain with its decision (decide1_plain, decide1_nan). -/
theorem pipelineWorkResults : Obligations.PipelineWorkResults := by
  unfold Obligations.PipelineWorkResults
  intro s r d
  refine ⟨fun ds run rest htakes hdq htype hrun => attentionJob_answers htakes hdq htype hrun, ?_, ?_, ?_⟩
  · intro q htakes hdq htype hreserved n c s0 p outs w hmask hclass halignOut halignPart hnearOut hnearPart hread hwrite
    exact merge_answers htakes hdq htype hreserved hmask hclass halignOut halignPart hnearOut hnearPart hread hwrite
  · intro rest u htakes haq hreserved x halign hnear hown
    exact ⟨fun htype hfits hdone => append_answers htakes haq hreserved htype halign hnear hown hfits hdone,
      fun htype hsrc hsrcNear hdone => commit_answers htakes haq hreserved htype halign hnear hown hsrc hsrcNear hdone⟩
  · intro rest htakes htq htype hreserved x c touched p hkind hnodes hout htouched
    have hexec := execToken_plain htakes htq htype hreserved hkind hnodes hout htouched
    have hrow : (s.plainCtx r x).target 0 = p := by simp [State.plainCtx, p, c]
    refine ⟨fun q hq => ⟨_, hexec, ?_⟩, fun hnan => ⟨_, hexec, ?_⟩⟩
    · rw [decide1_plain rfl rfl (hrow.trans hq)]
      rfl
    · rw [decide1_nan (hrow.trans hnan)]
      rfl

end Sys2Proof.Machine
end

section
/-! SUPPORT. Local HBM (R138 to R142, R246, R304, R318): what carrying an access changes, and what one granule's read and write come
to. -/

namespace Sys2Proof.Machine

/-! ### Counters and answers -/

theorem State.rd_bump_self (s : State) (w : Win) (o : Nat) : (s.bump w o).rd w o = s.rd w o + 1 := State.rd_wr_self _ _ _ _
theorem State.rd_bump_other (s : State) {w x : Win} {o p : Nat} (h : regKey x p ≠ regKey w o) : (s.bump w o).rd x p = s.rd x p :=
  State.rd_wr_other _ _ _ _ _ _ h
theorem State.rd_answer (s : State) (bs : List Byte) (p : Bool) (w : Win) (o : Nat) : (s.answer bs p).rd w o = s.rd w o := rfl

/-! ### An access is carried (R246, R304, R318) -/

/-- The registers that carrying an access of dye d by controller h may write: the states of the controller and the package, and what
the dye's bytes and energy are counted in. -/
def useKeys (d : Dye) (h : Fin 8) : List Nat :=
  [regKey (.hbm h) HBM_STATUS, regKey .pwr PWR_STATUS, regKey (.hbm h) (0xF000 + d.val * 0x20 + RGL_D_KIB),
   regKey .pwr (pageOff d PWR_D_ENERGY_L), regKey .pwr (pageOff d PWR_D_ENERGY_L + 4)]

/-- Nothing changes but registers, the regulators' buckets and remainders, the dyes' energy and the controllers' last use. -/
def OnlyCarried (s t : State) : Prop :=
  t = { s with regs := t.regs, energyRem := t.energyRem, rglRem := t.rglRem, rglTok := t.rglTok, hbmAt := t.hbmAt }

theorem State.hbmAwake_onlyRegs (s : State) (h : Fin 8) :
    OnlyRegsIn [regKey (.hbm h) HBM_STATUS, regKey .pwr PWR_STATUS] s (s.hbmAwake h) := by
  rw [State.hbmAwake]
  split
  · exact ((OnlyRegsIn.refl _ s).setFld _ _ _ _ _ (by simp)).setFld _ _ _ _ _ (by simp)
  · exact .refl _ s

theorem State.carry_frame (s : State) (w : Win) (d : Dye) (n : Nat) :
    ∃ g e r k, s.carry w d n = { s with regs := g, energyRem := e, rglRem := r, rglTok := k } := by
  dsimp only [State.carry, State.charge, State.wr64, State.bump, State.wr]
  exact ⟨_, _, _, _, rfl⟩

theorem State.hbmUse_onlyCarried (s : State) (d : Dye) (o n : Nat) : OnlyCarried s (s.hbmUse d o n) := by
  have hframe : ∃ g e r k a, s.hbmUse d o n = { s with regs := g, energyRem := e, rglRem := r, rglTok := k, hbmAt := a } := by
    obtain ⟨g, hawake, -⟩ := s.hbmAwake_onlyRegs (hbmCtl o)
    obtain ⟨g', e, r, k, hcarry⟩ := (s.hbmAwake (hbmCtl o)).carry_frame (.hbm (hbmCtl o)) d n
    rw [State.hbmUse, hcarry, hawake]
    exact ⟨_, _, _, _, _, rfl⟩
  obtain ⟨g, e, r, k, a, h⟩ := hframe
  rw [OnlyCarried, h]

theorem State.wr64_regs (s : State) (w : Win) (o : Nat) (v : Word64) :
    SameRegsBut [regKey w o, regKey w (o + 4)] s (s.wr64 w o v) :=
  ((SameRegsBut.refl _ s).wr _ _ _ (by simp)).wr _ _ _ (by simp)

theorem State.charge_regs (s : State) (d : Dye) (n : Nat) :
    SameRegsBut [regKey .pwr (pageOff d PWR_D_ENERGY_L), regKey .pwr (pageOff d PWR_D_ENERGY_L + 4)] s (s.charge d n) := fun k hk => by
  dsimp only [State.charge]
  exact State.wr64_regs _ _ _ _ k hk

theorem State.carry_regs (s : State) (w : Win) (d : Dye) (n : Nat) :
    SameRegsBut [regKey w (0xF000 + d.val * 0x20 + RGL_D_KIB), regKey .pwr (pageOff d PWR_D_ENERGY_L),
      regKey .pwr (pageOff d PWR_D_ENERGY_L + 4)] s (s.carry w d n) := fun k hk => by
  obtain ⟨hkib, henergy⟩ := not_or.1 (mt List.mem_cons.2 hk)
  dsimp only [State.carry]
  rw [State.charge_regs _ d _ k henergy]
  exact tabGet_tabSet_other _ _ _ hkib

theorem State.hbmUse_regs (s : State) (d : Dye) (o n : Nat) : SameRegsBut (useKeys d (hbmCtl o)) s (s.hbmUse d o n) := fun k hk => by
  obtain ⟨g, -, hawake⟩ := s.hbmAwake_onlyRegs (hbmCtl o)
  dsimp only [State.hbmUse]
  rw [State.carry_regs _ (.hbm (hbmCtl o)) d n k fun hmem => hk (List.mem_append_right [_, _] hmem)]
  exact hawake k fun hmem => hk (List.mem_append_left [_, _, _] hmem)

theorem State.rd_hbmUse (s : State) (d : Dye) (o n : Nat) {w : Win} {p : Nat} (h : regKey w p ∉ useKeys d (hbmCtl o)) :
    (s.hbmUse d o n).rd w p = s.rd w p := s.hbmUse_regs d o n _ h

/-- Where a controller's own registers lie, below those of its regulator. -/
theorem hbmReg_notMem_useKeys (d : Dye) (h k : Fin 8) {p : Nat} (hlow : p < 0xF000) (hne : p ≠ HBM_STATUS) :
    regKey (.hbm k) p ∉ useKeys d h := by
  simp only [useKeys, regKey, winIndex, pageOff, RGL_D_KIB, HBM_STATUS, PWR_STATUS, PWR_D_ENERGY_L, List.mem_cons, List.not_mem_nil,
    or_false] at hne ⊢
  omega

theorem tierReg_notMem_useKeys (d : Dye) (h : Fin 8) {p : Nat} (hlow : p < 0x10000) : regKey .tier p ∉ useKeys d h := by
  simp only [useKeys, regKey, winIndex, pageOff, RGL_D_KIB, HBM_STATUS, PWR_STATUS, PWR_D_ENERGY_L, List.mem_cons, List.not_mem_nil,
    or_false]
  omega

/-- A controller that wakes leaves self-refresh; no other state is left, and the failed one is not entered. -/
theorem State.failed_hbmAwake (s : State) (h k : Fin 8) :
    (s.hbmAwake h).fld (.hbm k) HBM_STATUS 0 2 = 3 ↔ s.fld (.hbm k) HBM_STATUS 0 2 = 3 := by
  rw [State.hbmAwake]
  split
  · next hrefresh =>
    rw [State.pkgFollow, State.fld_setFld_other _ _ _ _ _ _ _ _ _ _ (by simp only [regKey, winIndex, HBM_STATUS, PWR_STATUS]; omega)]
    by_cases hk : k = h
    · subst hk
      rw [State.fld_setFld_self _ _ _ _ _ _ (by decide), hrefresh]
      decide
    · have hval := Fin.val_ne_of_ne hk
      rw [State.fld_setFld_other _ _ _ _ _ _ _ _ _ _ (by simp only [regKey, winIndex, HBM_STATUS]; omega)]
  · rfl

/-- An access makes no controller fail, and none that has failed work. -/
theorem State.dieFailed_hbmUse (s : State) (d : Dye) (o n die : Nat) : (s.hbmUse d o n).dieFailed die = s.dieFailed die := by
  have hctl : ∀ k : Fin 8,
      (s.hbmUse d o n).fld (.hbm k) HBM_STATUS 0 2 = (s.hbmAwake (hbmCtl o)).fld (.hbm k) HBM_STATUS 0 2 := fun k => by
    dsimp only [State.hbmUse, State.fld, State.rd]
    rw [State.carry_regs _ (.hbm (hbmCtl o)) d n]
    simp only [regKey, winIndex, pageOff, RGL_D_KIB, HBM_STATUS, PWR_D_ENERGY_L, List.mem_cons, List.not_mem_nil, or_false]
    omega
  have hfailed : ∀ k : Fin 8, ((s.hbmUse d o n).fld (.hbm k) HBM_STATUS 0 2 == 3) = (s.fld (.hbm k) HBM_STATUS 0 2 == 3) := fun k => by
    rw [hctl, Bool.eq_iff_iff, beq_iff_eq, beq_iff_eq, State.failed_hbmAwake]
  simp only [State.dieFailed, hfailed]

theorem State.hbmFailed_hbmUse (s : State) (d : Dye) (o n p : Nat) : (s.hbmUse d o n).hbmFailed p = s.hbmFailed p :=
  s.dieFailed_hbmUse d o n _

section
variable {s t : State}

theorem OnlyCarried.frame (h : OnlyCarried s t) (f : Nat) : t.frame f = s.frame f := by rw [h]; rfl
theorem OnlyCarried.otherKey (h : OnlyCarried s t) (f : Frame) (g : Nat) : t.otherKey f g = s.otherKey f g := by rw [h]; rfl
theorem OnlyCarried.underKey (h : OnlyCarried s t) (f : Frame) (g : Nat) : t.underKey f g = s.underKey f g := by rw [h]; rfl
theorem OnlyCarried.hbm (h : OnlyCarried s t) : t.hbm = s.hbm := by rw [h]
theorem OnlyCarried.hbmBad (h : OnlyCarried s t) : t.hbmBad = s.hbmBad := by rw [h]
theorem OnlyCarried.wr (h : OnlyCarried s t) (w : Win) (o : Nat) (v : Word32) : OnlyCarried s (t.wr w o v) := by
  rw [h]; rfl
theorem OnlyCarried.bump (h : OnlyCarried s t) (w : Win) (o n : Nat) : OnlyCarried s (t.bump w o n) := h.wr w o _
theorem OnlyCarried.answer (h : OnlyCarried s t) (bs : List Byte) (p : Bool) :
    t.answer bs p = { s with regs := (t.answer bs p).regs, resp := (t.answer bs p).resp, energyRem := (t.answer bs p).energyRem,
                             rglRem := (t.answer bs p).rglRem, rglTok := (t.answer bs p).rglTok, hbmAt := (t.answer bs p).hbmAt } := by
  rw [h]
  rfl

end

/-! ### One granule (R139, R141, R142) -/

section
variable {s : State} {d : Dye} {o n : Nat} {bs : List Byte}

/-- A read of a granule that is still STALE answers zeros and is counted (R141). -/
theorem State.hbmReadG_stale (hstate : (s.frame (o / 65536)).state ≠ 4)
    (hstale : bitOf (s.frame (o / 65536)).stale (o / 4096 % 16) = true) :
    s.hbmReadG d o n = ((List.replicate n 0, false), (s.bump (.hbm (hbmCtl o)) HBM_STALE_RD).bumpP .tier d TIER_D_STALE_RD) :=
  if_pos ⟨hstate, hstale⟩

/-- A read of a granule that is not STALE, whose die is in service, whose key is loaded and none of whose units is beyond correction
answers what it decrypts to under the frame's key (R142). -/
theorem State.hbmReadG_clean (hn : 0 < n) (hstale : bitOf (s.frame (o / 65536)).stale (o / 4096 % 16) = false)
    (hworks : s.hbmFailed o = false) (hkey : s.bit (.hbm (hbmCtl o)) HBM_KEYSLOTS
      (if (s.frame (o / 65536)).state = 2 then 0 else (s.frame (o / 65536)).owner.val) = true)
    (hgood : ∀ u, o / 64 ≤ u → u ≤ (o + n - 1) / 64 → tabGet (fun _ => false) s.hbmBad u = false) :
    s.hbmReadG d o n = ((if s.otherKey (s.frame (o / 65536)) (o / 4096) = true
      then takePad 0 n ((s.underKey (s.frame (o / 65536)) (o / 4096)).drop (o % 4096)) else tabGetList byteReset s.hbm o n, false), s) := by
  have hbad : ((List.range ((o + n - 1) / 64 - o / 64 + 1)).map (· + o / 64)).filter (tabGet (fun _ => false) s.hbmBad) = [] := by
    simp only [List.filter_eq_nil_iff, List.mem_map, List.mem_range, Bool.not_eq_true]
    rintro u ⟨i, hi, rfl⟩
    exact hgood _ (by omega) (by omega)
  rw [State.hbmReadG, if_neg (by simp [hstale]), if_neg (by simp [hworks]), if_neg (by simp [hkey]), if_neg (by simpa using hbad)]
  split <;> rfl

theorem State.hbmReadF_none (k : Nat) : s.hbmReadF d k o 0 = (([], false), s) := by cases k <;> rfl

/-- A read inside one granule is carried and read in one piece. -/
theorem State.hbmRead_granule (hn : 0 < n) (hin : o % 4096 + n ≤ 4096) : s.hbmRead d o n = (s.hbmUse d o n).hbmReadG d o n := by
  have hmin : min n (4096 - o % 4096) = n := by omega
  rw [State.hbmRead, State.hbmReadF, if_neg hn.ne']
  simp only [hmin, Nat.sub_self, State.hbmReadF_none, List.append_nil, Bool.or_false]

theorem State.hbmWriteF_nil (k : Nat) : s.hbmWriteF k o [] = s := by cases k <;> rfl

/-- A write inside one granule is carried for the frame's owner and written in one piece. -/
theorem State.hbmWrite_granule (hbs : bs ≠ []) (hin : o % 4096 + bs.length ≤ 4096) :
    s.hbmWrite o bs = (s.hbmUse (s.frame (o / 65536)).owner o bs.length).hbmWriteG o bs := by
  have hmin : min bs.length (4096 - o % 4096) = bs.length := by omega
  rw [State.hbmWrite, State.hbmWriteF, if_neg hbs]
  simp only [hmin, List.take_length, List.drop_length, State.hbmWriteF_nil]

theorem bitOf_putBits_zero {w : Nat} (x : BitVec w) (i : Nat) (h : i < w) : bitOf (putBits x i 1 0) i = false := by
  have hfield := bitsOf_putBits_self x i 1 0 h
  rw [bitsOf, pow_one] at hfield
  rw [bitOf, hfield]
  rfl

/-- Before a write a granule that is STALE is cleared, and one under the frame's own key is taken as it is; then it is STALE no longer. -/
theorem State.hbmFresh_round {f g : Nat} (hstate : (s.frame f).state ≠ 4)
    (hfresh : bitOf (s.frame f).stale (g % 16) = true ∨ s.otherKey (s.frame f) g = false) :
    (∀ k, tabGet byteReset (s.hbmFresh f g).hbm k =
      if bitOf (s.frame f).stale (g % 16) = true ∧ k / 4096 = g then 0 else tabGet byteReset s.hbm k) ∧
    bitOf ((s.hbmFresh f g).frame f).stale (g % 16) = false := by
  rw [State.hbmFresh]
  cases hstale : bitOf (s.frame f).stale (g % 16) with
  | true =>
    rw [if_pos ⟨hstate, rfl⟩]
    refine ⟨fun k => (tabGet_tabClear _ _ _ _ _).trans (if_congr (by simp only [true_and]; omega) rfl rfl), ?_⟩
    refine (congrArg (fun x : Frame => bitOf x.stale (g % 16)) (tabGet_tabSet_self _ _ _ _)).trans ?_
    exact bitOf_putBits_zero _ _ (Nat.mod_lt _ (by decide))
  | false =>
    have hown : s.otherKey (s.frame f) g = false := hfresh.resolve_left (by simp [hstale])
    rw [if_neg (by simp), if_neg (by simp [hown])]
    exact ⟨fun k => (if_neg (by simp)).symm, hstale⟩

/-- A write to a granule of a die in service: what it writes reads as written, what is round it reads as before, or zero in a granule that
was STALE, and the granule is STALE no longer (R141). -/
theorem State.hbmWriteG_fresh (hstate : (s.frame (o / 65536)).state ≠ 4) (hworks : s.hbmFailed o = false)
    (hfresh : bitOf (s.frame (o / 65536)).stale (o / 4096 % 16) = true ∨ s.otherKey (s.frame (o / 65536)) (o / 4096) = false) :
    (∀ i (h : i < bs.length), tabGet byteReset (s.hbmWriteG o bs).hbm (o + i) = bs[i]) ∧
    (∀ k, k < o ∨ o + bs.length ≤ k → tabGet byteReset (s.hbmWriteG o bs).hbm k =
      if bitOf (s.frame (o / 65536)).stale (o / 4096 % 16) = true ∧ k / 4096 = o / 4096 then 0 else tabGet byteReset s.hbm k) ∧
    bitOf ((s.hbmWriteG o bs).frame (o / 65536)).stale (o / 4096 % 16) = false := by
  rw [State.hbmWriteG, if_neg (by simp [hworks])]
  obtain ⟨hround, hstale⟩ := State.hbmFresh_round hstate hfresh
  exact ⟨fun i h => tabGet_tabSetList_inside _ _ _ _ _ h, fun k hk => (tabGet_tabSetList_outside _ _ _ _ _ hk).trans (hround k), hstale⟩

end

end Sys2Proof.Machine
end

section
/-! SUPPORT. Traffic of local HBM: what reads, writes and entries of page tables leave alone. -/

namespace Sys2Proof.Machine

/-- The registers that traffic of local HBM may write: those of PWR, of the Ledger and of the controllers, and the counts of STALE
reads. -/
def trafficKey (k : Nat) : Prop :=
  k / 0x10000 = winIndex .pwr ∨ k / 0x10000 = winIndex .ldg ∨ (∃ h : Fin 8, k / 0x10000 = winIndex (.hbm h)) ∨
  ∃ d : Dye, k = regKey .tier (pageOff d TIER_D_STALE_RD)

/-- t is s after traffic of local HBM: of its bytes, frames and keys, of what carrying it counts, and of the Ledger's intake anything may
have changed, but no frame has another state or owner, and no session another context. -/
structure Traffic (s t : State) : Prop where
  rest : t = { s with regs := t.regs, energyRem := t.energyRem, rglRem := t.rglRem, rglTok := t.rglTok, hbmAt := t.hbmAt,
                      ldgIngress := t.ldgIngress, ldgOpen := t.ldgOpen, hbm := t.hbm, hbmBad := t.hbmBad, hbmKey := t.hbmKey,
                      frames := t.frames, ctxs := t.ctxs }
  regs : ∀ k, ¬trafficKey k → tabGet regReset t.regs k = tabGet regReset s.regs k
  state : ∀ f, (t.frame f).state = (s.frame f).state
  owner : ∀ f, (t.frame f).owner = (s.frame f).owner
  ctx : ∀ d n, t.ctx d n = s.ctx d n

section
variable {s t u : State}

theorem Traffic.refl (s : State) : Traffic s s := ⟨rfl, fun _ _ => rfl, fun _ => rfl, fun _ => rfl, fun _ _ => rfl⟩

theorem Traffic.trans (h : Traffic s t) (h' : Traffic t u) : Traffic s u where
  rest := by rw [h'.rest, h.rest]
  regs k hk := (h'.regs k hk).trans (h.regs k hk)
  state f := (h'.state f).trans (h.state f)
  owner f := (h'.owner f).trans (h.owner f)
  ctx d n := (h'.ctx d n).trans (h.ctx d n)

theorem trafficKey_hbm (h : Fin 8) {o : Nat} (ho : o < 0x10000) : trafficKey (regKey (.hbm h) o) :=
  .inr (.inr (.inl ⟨h, by simp only [regKey]; omega⟩))
theorem trafficKey_pwr {o : Nat} (ho : o < 0x10000) : trafficKey (regKey .pwr o) := .inl (by simp only [regKey]; omega)

/-- A write of a register that traffic may write. -/
theorem Traffic.wr {w : Win} {o : Nat} (hk : trafficKey (regKey w o)) (v : Word32) : Traffic s (s.wr w o v) :=
  ⟨rfl, fun _ hj => tabGet_tabSet_other _ _ _ fun h => hj (h ▸ hk), fun _ => rfl, fun _ => rfl, fun _ _ => rfl⟩

theorem Traffic.ledger (s : State) (e : LedgerEvent) : Traffic s (s.ledger e) := by
  obtain ⟨g, i, o, hledger, hregs⟩ := s.ledger_frame e
  rw [hledger]
  exact ⟨rfl, fun k hk => hregs k fun h => hk (h ▸ .inr (.inl (by decide))), fun _ => rfl, fun _ => rfl, fun _ _ => rfl⟩

theorem Traffic.hbmUse (s : State) (d : Dye) (o n : Nat) : Traffic s (s.hbmUse d o n) := by
  have honly := s.hbmUse_onlyCarried d o n
  have hkeys : ∀ k ∈ useKeys d (hbmCtl o), trafficKey k := by
    simp only [useKeys, List.mem_cons, List.not_mem_nil, or_false]
    rintro k (rfl | rfl | rfl | rfl | rfl)
    · exact trafficKey_hbm _ (by decide)
    · exact trafficKey_pwr (by decide)
    · exact trafficKey_hbm _ (by simp only [RGL_D_KIB]; omega)
    · exact trafficKey_pwr (by simp only [pageOff, PWR_D_ENERGY_L]; omega)
    · exact trafficKey_pwr (by simp only [pageOff, PWR_D_ENERGY_L]; omega)
  exact ⟨by rw [honly], fun k hk => s.hbmUse_regs d o n k fun hmem => hk (hkeys k hmem), fun f => by rw [honly.frame],
    fun f => by rw [honly.frame], fun d' n' => by rw [honly]; rfl⟩

theorem Traffic.foldl {α : Type} {f : State → α → State} (hf : ∀ t a, Traffic t (f t a)) (l : List α) (s : State) :
    Traffic s (l.foldl f s) := foldl_keeps (P := Traffic s) (fun t a h => h.trans (hf t a)) l s (.refl s)

theorem Traffic.hbmUe (s : State) (u : Nat) : Traffic s (s.hbmUe u) :=
  ((Traffic.wr (trafficKey_hbm _ (by decide)) _).trans (Traffic.wr (trafficKey_hbm _ (by decide)) _)).trans (Traffic.ledger _ _)

theorem Traffic.hbmReadG (s : State) (d : Dye) (o n : Nat) : Traffic s (s.hbmReadG d o n).2 := by
  unfold State.hbmReadG
  extract_lets f key bad
  split
  · exact (Traffic.wr (trafficKey_hbm _ (by decide)) _).trans (Traffic.wr (.inr (.inr (.inr ⟨d, rfl⟩))) _)
  · split
    · exact .refl s
    · split
      · exact Traffic.ledger _ _
      · split
        · exact .foldl Traffic.hbmUe _ s
        · split <;> exact .refl s

theorem Traffic.hbmReadF (d : Dye) : ∀ (k o n : Nat) (s : State), Traffic s (s.hbmReadF d k o n).2
  | 0, _, _, s => .refl s
  | k + 1, o, n, s => by
    rw [State.hbmReadF]
    split
    · exact .refl s
    · exact ((Traffic.hbmUse _ _ _ _).trans (Traffic.hbmReadG _ _ _ _)).trans (Traffic.hbmReadF d k _ _ _)

theorem Traffic.hbmRead (s : State) (d : Dye) (o n : Nat) : Traffic s (s.hbmRead d o n).2 := Traffic.hbmReadF _ _ _ _ _

/-- A granule's first write changes of its frame which granules are STALE. -/
theorem Traffic.hbmFresh (s : State) (f g : Nat) : Traffic s (s.hbmFresh f g) := by
  rw [State.hbmFresh]
  split
  · have hframe : ∀ (b : Tab Byte) (e : Tab Bool) (v : BitVec 16) (k : Nat),
        (({ s with hbm := b, hbmBad := e } : State).setFrame f { s.frame f with stale := v }).frame k =
          if k = f then { s.frame f with stale := v } else s.frame k := fun _ _ _ k => tabGet_tabSet _ _ _ _ _
    refine ⟨rfl, fun _ _ => rfl, fun k => ?_, fun k => ?_, fun _ _ => rfl⟩ <;>
    · rw [hframe]
      split
      · next hk => rw [hk]
      · rfl
  · split <;> exact ⟨rfl, fun _ _ => rfl, fun _ => rfl, fun _ => rfl, fun _ _ => rfl⟩

theorem Traffic.hbmWriteG (s : State) (o : Nat) (bs : List Byte) : Traffic s (s.hbmWriteG o bs) := by
  rw [State.hbmWriteG]
  split
  · exact .refl s
  · have hstore : ∀ (v : State) (a : Tab Byte) (b : Tab Bool) (c : Tab Nat), Traffic v { v with hbm := a, hbmBad := b, hbmKey := c } :=
      fun _ _ _ _ => ⟨rfl, fun _ _ => rfl, fun _ => rfl, fun _ => rfl, fun _ _ => rfl⟩
    exact (Traffic.hbmFresh s _ _).trans (hstore _ _ _ _)

theorem Traffic.hbmWriteF : ∀ (k o : Nat) (bs : List Byte) (s : State), Traffic s (s.hbmWriteF k o bs)
  | 0, _, _, s => .refl s
  | k + 1, o, bs, s => by
    rw [State.hbmWriteF]
    split
    · exact .refl s
    · exact ((Traffic.hbmUse _ _ _ _).trans (Traffic.hbmWriteG _ _ _)).trans (Traffic.hbmWriteF k _ _ _)

theorem Traffic.hbmWrite (s : State) (o : Nat) (bs : List Byte) : Traffic s (s.hbmWrite o bs) := Traffic.hbmWriteF _ _ _ _

end

end Sys2Proof.Machine
end

section
/-! HBM_ACCESS, HBM_SCRUB_TICK, HBM_CONTROLLER_FAILED and self-refresh (R138 to R142, R163), and the statement about them. -/

namespace Sys2Proof.Machine

section
variable {s : State} {d : Dye} {a : Addr} {o n : Nat} {bs : List Byte}

/-! ### Accesses (R138 to R142) -/

/-- A dye that reaches a byte reaches what follows it in the same granule. -/
theorem State.hbmRangeOk_granule {w : Bool} (hreach : s.hbmReach d w o = true) (ho : o < 2 ^ 40) (hn : 0 < n)
    (hin : o % 4096 + n ≤ 4096) : s.hbmRangeOk d w o n = true := by
  have hframe : (o + n - 1) / 65536 - o / 65536 + 1 = 1 := by omega
  have hmax : max o (o / 65536 * 65536) = o := max_eq_left (Nat.div_mul_le_self _ _)
  simp only [State.hbmRangeOk, hframe, List.range_one, List.all_cons, List.all_nil, Nat.add_zero, hmax, hreach, Bool.and_true,
    decide_eq_true_eq]
  omega

/-- A read that no injection aims at answers what local HBM answers (R139). -/
theorem execHbmAccess_read (hplace : s.place d a.toNat = .hbm o) (hrange : s.hbmRangeOk d false o n = true) (hn : 0 < n)
    (haim : s.hbmAimed a.toNat (.read n) = false) :
    execHbmAccess d a (.read n) [] s = .next ((s.hbmRead d o n).2.answer (s.hbmRead d o n).1.1 (s.hbmRead d o n).1.2) := by
  simp only [execHbmAccess, haim, State.hbmServe, hplace, if_neg hn.ne', hrange, List.take_nil, State.unitEccs]
  rfl

theorem execHbmAccess_write (hplace : s.place d a.toNat = .hbm o) (hrange : s.hbmRangeOk d true o bs.length = true) (hbs : bs ≠ []) :
    execHbmAccess d a (.write bs) [] s = .next ((s.hbmWrite o bs).answer []) := by
  have haim : s.hbmAimed a.toNat (.write bs) = false := by simp [State.hbmAimed]
  simp only [execHbmAccess, haim, State.hbmServe, hplace, if_neg hbs, hrange]
  rfl

/-- A read of a granule that is not STALE (R139, R142). -/
theorem hbmAccess_clean_answers (hplace : s.place d a.toNat = .hbm o) (hrange : s.hbmRangeOk d false o n = true) (hn : 0 < n)
    (hin : o % 4096 + n ≤ 4096) (haim : s.hbmAimed a.toNat (.read n) = false)
    (hstale : bitOf (s.frame (o / 65536)).stale (o / 4096 % 16) = false) (hworks : s.hbmFailed o = false)
    (hkey : s.bit (.hbm (hbmCtl o)) HBM_KEYSLOTS
      (if (s.frame (o / 65536)).state = 2 then 0 else (s.frame (o / 65536)).owner.val) = true)
    (hgood : ∀ u, o / 64 ≤ u → u ≤ (o + n - 1) / 64 → tabGet (fun _ => false) s.hbmBad u = false) :
    Answers (.hbmAccess d a (.read n) []) s (fun t =>
      t.resp.data = (if s.otherKey (s.frame (o / 65536)) (o / 4096) = true
        then takePad 0 n ((s.underKey (s.frame (o / 65536)) (o / 4096)).drop (o % 4096)) else tabGetList byteReset s.hbm o n) ∧
      t.resp.poison = false ∧ t = { s with regs := t.regs, resp := t.resp, energyRem := t.energyRem, rglRem := t.rglRem,
                                           rglTok := t.rglTok, hbmAt := t.hbmAt }) := by
  have honly := s.hbmUse_onlyCarried d o n
  have hkey' : (s.hbmUse d o n).bit (.hbm (hbmCtl o)) HBM_KEYSLOTS
      (if (s.frame (o / 65536)).state = 2 then 0 else (s.frame (o / 65536)).owner.val) = true :=
    (congrArg (bitOf · _) (s.rd_hbmUse d o n (hbmReg_notMem_useKeys _ _ _ (by decide) (by decide)))).trans hkey
  have hread : s.hbmRead d o n = ((if s.otherKey (s.frame (o / 65536)) (o / 4096) = true
      then takePad 0 n ((s.underKey (s.frame (o / 65536)) (o / 4096)).drop (o % 4096)) else tabGetList byteReset s.hbm o n, false),
      s.hbmUse d o n) := by
    rw [State.hbmRead_granule hn hin, State.hbmReadG_clean hn (by rwa [honly.frame]) (by rwa [State.hbmFailed_hbmUse])
      (by rwa [honly.frame]) (by rwa [honly.hbmBad]), honly.frame, honly.otherKey, honly.underKey, honly.hbm]
  have hexec := execHbmAccess_read hplace hrange hn haim
  rw [hread] at hexec
  exact ⟨_, hexec, rfl, rfl, honly.answer _ _⟩

/-- A read of a granule that is still STALE (R141). -/
theorem hbmAccess_stale_answers (hplace : s.place d a.toNat = .hbm o) (hrange : s.hbmRangeOk d false o n = true) (hn : 0 < n)
    (hin : o % 4096 + n ≤ 4096) (haim : s.hbmAimed a.toNat (.read n) = false) (hstate : (s.frame (o / 65536)).state ≠ 4)
    (hstale : bitOf (s.frame (o / 65536)).stale (o / 4096 % 16) = true) :
    Answers (.hbmAccess d a (.read n) []) s (fun t => t.resp.data = List.replicate n 0 ∧
      t.rd (.hbm (hbmCtl o)) HBM_STALE_RD = s.rd (.hbm (hbmCtl o)) HBM_STALE_RD + 1 ∧
      t.rdP .tier d TIER_D_STALE_RD = s.rdP .tier d TIER_D_STALE_RD + 1 ∧
      t = { s with regs := t.regs, resp := t.resp, energyRem := t.energyRem, rglRem := t.rglRem, rglTok := t.rglTok,
                   hbmAt := t.hbmAt }) := by
  have honly := s.hbmUse_onlyCarried d o n
  have hread : s.hbmRead d o n = ((List.replicate n 0, false),
      ((s.hbmUse d o n).bump (.hbm (hbmCtl o)) HBM_STALE_RD).bumpP .tier d TIER_D_STALE_RD) := by
    rw [State.hbmRead_granule hn hin, State.hbmReadG_stale (by rwa [honly.frame]) (by rwa [honly.frame])]
  have hctl : (s.hbmUse d o n).rd (.hbm (hbmCtl o)) HBM_STALE_RD = s.rd (.hbm (hbmCtl o)) HBM_STALE_RD :=
    s.rd_hbmUse d o n (hbmReg_notMem_useKeys _ _ _ (by decide) (by decide))
  have hdye : (s.hbmUse d o n).rdP .tier d TIER_D_STALE_RD = s.rdP .tier d TIER_D_STALE_RD :=
    s.rd_hbmUse d o n (tierReg_notMem_useKeys _ _ (by simp only [pageOff, TIER_D_STALE_RD]; omega))
  have hne : regKey (.hbm (hbmCtl o)) HBM_STALE_RD ≠ regKey .tier (pageOff d TIER_D_STALE_RD) := by
    simp only [regKey, winIndex, pageOff, HBM_STALE_RD, TIER_D_STALE_RD]
    omega
  have honly' : OnlyCarried s (((s.hbmUse d o n).bump (.hbm (hbmCtl o)) HBM_STALE_RD).bumpP .tier d TIER_D_STALE_RD) :=
    (honly.bump _ _ _).bump _ _ _
  have hexec := execHbmAccess_read hplace hrange hn haim
  rw [hread] at hexec
  refine ⟨_, hexec, rfl, ?_, ?_, honly'.answer _ _⟩
  · rw [State.rd_answer, State.bumpP, State.rd_bump_other _ hne, State.rd_bump_self, hctl]
  · rw [State.rdP, State.rd_answer, State.bumpP, State.rd_bump_self, State.rd_bump_other _ hne.symm, ← State.rdP, hdye, State.rdP]

/-- A write to one granule of a die in service (R141). -/
theorem hbmAccess_write_answers (hplace : s.place d a.toNat = .hbm o) (hrange : s.hbmRangeOk d true o bs.length = true) (hbs : bs ≠ [])
    (hin : o % 4096 + bs.length ≤ 4096) (hstate : (s.frame (o / 65536)).state ≠ 4) (hworks : s.hbmFailed o = false)
    (hfresh : bitOf (s.frame (o / 65536)).stale (o / 4096 % 16) = true ∨ s.otherKey (s.frame (o / 65536)) (o / 4096) = false) :
    Answers (.hbmAccess d a (.write bs) []) s (fun t =>
      (∀ i (h : i < bs.length), tabGet byteReset t.hbm (o + i) = bs[i]) ∧
      (∀ k, k < o ∨ o + bs.length ≤ k → tabGet byteReset t.hbm k =
        if bitOf (s.frame (o / 65536)).stale (o / 4096 % 16) = true ∧ k / 4096 = o / 4096 then 0 else tabGet byteReset s.hbm k) ∧
      bitOf (t.frame (o / 65536)).stale (o / 4096 % 16) = false ∧ t.sram = s.sram ∧ t.acc = s.acc ∧ t.cores = s.cores) := by
  have honly := s.hbmUse_onlyCarried (s.frame (o / 65536)).owner o bs.length
  obtain ⟨hwritten, hround, hnotStale⟩ := State.hbmWriteG_fresh (bs := bs)
    (s := s.hbmUse (s.frame (o / 65536)).owner o bs.length) (o := o) (by rwa [honly.frame]) (by rwa [State.hbmFailed_hbmUse])
    (by rwa [honly.frame, honly.otherKey])
  rw [honly.frame, honly.hbm, ← State.hbmWrite_granule hbs hin] at hround
  rw [← State.hbmWrite_granule hbs hin] at hwritten hnotStale
  have htraffic := Traffic.hbmWrite s o bs
  refine ⟨_, execHbmAccess_write hplace hrange hbs, hwritten, hround, hnotStale, ?_, ?_, s.hbmWrite_cores o bs⟩
  · rw [htraffic.rest]
    rfl
  · rw [htraffic.rest]
    rfl

end

/-! ### Scrubbing, self-refresh and failure (R139, R163, R304) -/

section
variable {s : State} {h : Fin 8}

/-- The scrubber of an ACTIVE controller that meets no error goes on to its next unit (R139). -/
theorem hbmScrubTick_answers (hactive : s.fld (.hbm h) HBM_STATUS 0 2 = 1) :
    Answers (.hbmScrubTick h .clean) s (fun t => natGet t.scrubAt h.val = (natGet s.scrubAt h.val + 1) % 2 ^ 31 ∧
      (∀ k, k ≠ h.val → natGet t.scrubAt k = natGet s.scrubAt k) ∧ t = { s with scrubAt := t.scrubAt }) :=
  ⟨_, if_neg (not_not.2 hactive), tabGet_tabSet_self _ _ _ _, fun _ hk => tabGet_tabSet_other _ _ _ hk, rfl⟩

/-- A controller put into a state, the package's own state brought up to date: that state shows, and only these two registers change. -/
theorem State.setStatus_pkgFollow (s : State) (h : Fin 8) (v : Nat) (hv : v < 4) :
    let t := (s.setFld (.hbm h) HBM_STATUS 0 2 v).pkgFollow
    t.fld (.hbm h) HBM_STATUS 0 2 = v ∧ SameRegsBut [regKey (.hbm h) HBM_STATUS, regKey .pwr PWR_STATUS] s t ∧ OnlyRegs s t := by
  refine ⟨?_, ((SameRegsBut.refl _ s).wr _ _ _ (by simp)).wr _ _ _ (by simp), rfl⟩
  refine (State.fld_setFld_other _ _ _ _ _ _ _ _ _ _ (by simp only [regKey, winIndex, HBM_STATUS, PWR_STATUS]; omega)).trans ?_
  exact (State.fld_setFld_self _ _ _ _ _ _ (by decide)).trans (Nat.mod_eq_of_lt hv)

theorem hbmSelfRefreshEntry_answers (hactive : s.fld (.hbm h) HBM_STATUS 0 2 = 1) (hquiet : s.hbmQuiet h = true) :
    Answers (.hbmSelfRefreshEntry h) s (fun t => t.fld (.hbm h) HBM_STATUS 0 2 = 2 ∧
      SameRegsBut [regKey (.hbm h) HBM_STATUS, regKey .pwr PWR_STATUS] s t ∧ OnlyRegs s t) :=
  ⟨_, if_pos ⟨hactive, hquiet⟩, s.setStatus_pkgFollow h 2 (by decide)⟩

theorem hbmSelfRefreshExit_answers (hrefresh : s.fld (.hbm h) HBM_STATUS 0 2 = 2) :
    Answers (.hbmSelfRefreshExit h) s (fun t => t.fld (.hbm h) HBM_STATUS 0 2 = 1 ∧
      SameRegsBut [regKey (.hbm h) HBM_STATUS, regKey .pwr PWR_STATUS] s t ∧ OnlyRegs s t) :=
  ⟨_, congrArg Host.Outcome.next (if_pos hrefresh), s.setStatus_pkgFollow h 1 (by decide)⟩

/-- Where no page is kept none is lost. -/
theorem State.losePages_none (hptes : s.ptes = []) (hshared : s.shared = []) (test : Dye → Pte → Bool) : s.losePages test = s := by
  simp [State.losePages, State.sessionsWith, hptes, hshared]

/-- A controller that fails says so in its state and in the Ledger. -/
theorem State.controllerFailed_none (hptes : s.ptes = []) (hshared : s.shared = []) :
    s.controllerFailed h = (s.setFld (.hbm h) HBM_STATUS 0 2 3).detectUnit 0x12 0 h.val := by
  obtain ⟨g, i, o, hrec, -⟩ := (s.setFld (.hbm h) HBM_STATUS 0 2 3).detectUnit_frame 0x12 0 h.val []
  rw [State.controllerFailed, hrec]
  refine State.losePages_none ?_ ?_ _
  · exact hptes
  · exact hshared

theorem hbmControllerFailed_answers (hworks : s.fld (.hbm h) HBM_STATUS 0 2 ≠ 3) (hptes : s.ptes = []) (hshared : s.shared = [])
    (hother : ∀ k : Fin 8, k.val / 4 ≠ h.val / 4 → s.fld (.hbm k) HBM_STATUS 0 2 ≠ 3) :
    Answers (.hbmControllerFailed h) s (fun t => t.fld (.hbm h) HBM_STATUS 0 2 = 3 ∧
      SameRegsBut [regKey (.hbm h) HBM_STATUS, regKey .ldg LDG_FOLDED] s t ∧ RegsAndLedger s t) := by
  obtain ⟨g, i, o, hrec, hsame⟩ := (s.setFld (.hbm h) HBM_STATUS 0 2 3).detectUnit_frame 0x12 0 h.val []
  have hfld : ∀ k : Fin 8, (s.controllerFailed h).fld (.hbm k) HBM_STATUS 0 2 =
      (s.setFld (.hbm h) HBM_STATUS 0 2 3).fld (.hbm k) HBM_STATUS 0 2 := fun k => by
    rw [State.controllerFailed_none hptes hshared]
    exact State.fld_ledger _ _ _ _ _ _ (by simp only [regKey, winIndex, HBM_STATUS, LDG_FOLDED]; omega)
  have hdie : (List.finRange 8).any (fun k => decide (k.val / 4 ≠ h.val / 4) && (s.controllerFailed h).fld (.hbm k) HBM_STATUS 0 2 == 3)
      = false := by
    simp only [List.any_eq_false, Bool.and_eq_true, decide_eq_true_eq, beq_iff_eq, not_and]
    intro k _ hk
    have hne : k.val ≠ h.val := fun e => hk (by rw [e])
    rw [hfld, State.fld_setFld_other _ _ _ _ _ _ _ _ _ _ (by simp only [regKey, winIndex, HBM_STATUS]; omega)]
    exact hother k hk
  refine ⟨s.controllerFailed h, ?_, ?_, ?_, ?_⟩
  · refine (if_neg hworks).trans ?_
    rw [hdie]
    rfl
  · rw [hfld]
    exact State.fld_setFld_self _ _ _ _ _ _ (by decide)
  · rw [State.controllerFailed_none hptes hshared, hrec]
    intro k hk
    obtain ⟨hstatus, hfolded⟩ : k ≠ regKey (.hbm h) HBM_STATUS ∧ k ≠ regKey .ldg LDG_FOLDED := by simpa using hk
    exact (hsame k hfolded).trans (tabGet_tabSet_other _ _ _ hstatus)
  · rw [State.controllerFailed_none hptes hshared, hrec]
    rfl

end

/-! ### The statement -/

/-- Settles O28, command by command. -/
theorem hbmResults : Obligations.HbmResults := by
  unfold Obligations.HbmResults
  intro s d a o n bs h f ctl
  refine ⟨fun hplace ho hstate => ⟨fun hreach hn hin haim => ?_, fun hreach hbs hin hworks hfresh => ?_⟩,
    fun hactive => ⟨hbmScrubTick_answers hactive, hbmSelfRefreshEntry_answers hactive⟩, hbmSelfRefreshExit_answers,
    hbmControllerFailed_answers⟩
  · have hrange := State.hbmRangeOk_granule hreach ho hn hin
    exact ⟨hbmAccess_clean_answers hplace hrange hn hin haim, hbmAccess_stale_answers hplace hrange hn hin haim hstate⟩
  · exact hbmAccess_write_answers hplace (State.hbmRangeOk_granule hreach ho (List.length_pos_iff.2 hbs) hin) hbs hin hstate hworks
      hfresh

end Sys2Proof.Machine
end

section
/-! SUPPORT. Paging: what frames, page tables, the shared-page array and pages on their way to donors and hosts leave alone. -/

namespace Sys2Proof.Machine

/-- The registers that paging may write: those of PWR, of the Ledger, of the fabric, of the tier manager and of the controllers. -/
def pagedKey (k : Nat) : Prop :=
  k / 0x10000 = winIndex .pwr ∨ k / 0x10000 = winIndex .ldg ∨ k / 0x10000 = winIndex .smf ∨ k / 0x10000 = winIndex .tier ∨
  ∃ h : Fin 8, k / 0x10000 = winIndex (.hbm h)

/-- t is s after paging: local HBM, its frames, the tables' places, what waits for the host and for the fabric, and counts may have
changed; the pages' entries, the moves, hints and pins, the scratchpads and what lies in tiers 2 and 3 have not. -/
structure Paged (s t : State) : Prop where
  rest : t = { s with regs := t.regs, energyRem := t.energyRem, rglRem := t.rglRem, rglTok := t.rglTok, hbmAt := t.hbmAt,
                      ldgIngress := t.ldgIngress, ldgOpen := t.ldgOpen, ldgHist := t.ldgHist, hbm := t.hbm, hbmBad := t.hbmBad,
                      hbmKey := t.hbmKey, frames := t.frames, freeCtr := t.freeCtr, kind5 := t.kind5, ctxs := t.ctxs,
                      hostTx := t.hostTx, hostBufs := t.hostBufs, fabTag := t.fabTag, fabReqs := t.fabReqs, fabTx := t.fabTx,
                      fabPairs := t.fabPairs, fabTxc := t.fabTxc }
  regs : ∀ k, ¬pagedKey k → tabGet regReset t.regs k = tabGet regReset s.regs k

section
variable {s t u : State}

theorem Paged.refl (s : State) : Paged s s := ⟨rfl, fun _ _ => rfl⟩

theorem Paged.trans (h : Paged s t) (h' : Paged t u) : Paged s u where
  rest := by rw [h'.rest, h.rest]
  regs k hk := (h'.regs k hk).trans (h.regs k hk)

/-! ### What is left alone -/

theorem Paged.sram (h : Paged s t) : t.sram = s.sram := by rw [h.rest]
theorem Paged.acc (h : Paged s t) : t.acc = s.acc := by rw [h.rest]
theorem Paged.ptes (h : Paged s t) : t.ptes = s.ptes := by rw [h.rest]
theorem Paged.shared (h : Paged s t) : t.shared = s.shared := by rw [h.rest]
theorem Paged.pageMoves (h : Paged s t) : t.pageMoves = s.pageMoves := by rw [h.rest]
theorem Paged.hints (h : Paged s t) : t.hints = s.hints := by rw [h.rest]
theorem Paged.pins (h : Paged s t) : t.pins = s.pins := by rw [h.rest]
theorem Paged.forkWait (h : Paged s t) : t.forkWait = s.forkWait := by rw [h.rest]
theorem Paged.farPages (h : Paged s t) : t.farPages = s.farPages := by rw [h.rest]
theorem Paged.checkRecs (h : Paged s t) : t.checkRecs = s.checkRecs := by rw [h.rest]
theorem Paged.movePte (h : Paged s t) (m : PageMove) : t.movePte m = s.movePte m := by rw [h.rest]; rfl

theorem Paged.rd (h : Paged s t) {w : Win} {o : Nat} (hk : ¬pagedKey (regKey w o)) : t.rd w o = s.rd w o := h.regs _ hk

theorem not_pagedKey_rgn (r : RegionNo) : ¬pagedKey (regKey (.rgn r) RGN_OWNER) := by
  simp only [pagedKey, regKey, winIndex, RGN_OWNER]
  omega
theorem not_pagedKey_straps : ¬pagedKey (regKey .pkg PKG_STRAPS) := by
  simp only [pagedKey, regKey, winIndex, PKG_STRAPS]
  omega
theorem not_pagedKey_win (c : CoreId) (n : Nat) (hn : n < 8) :
    ¬pagedKey (regKey (.spd c.region) (SPD_WIN + c.pos.val * 0x20 + n * 4)) := by
  simp only [pagedKey, regKey, winIndex, SPD_WIN]
  omega

/-- No window marked for KV comes or goes. -/
theorem Paged.kvWins (h : Paged s t) (d : Dye) (cls : Option Nat) (c : CoreId) : t.kvWins d cls c = s.kvWins d cls c := by
  have hslot : t.slot = s.slot := congrArg (fun v => Fin.ofNat 64 (bitsOf v 0 6)) (h.rd not_pagedKey_straps)
  have hord : t.ordinal c.region = s.ordinal c.region := congrArg (bitsOf · 4 4) (h.rd (not_pagedKey_rgn _))
  have himages : t.images = s.images := by rw [h.rest]
  have hpkg : t.pkgOrd d = s.pkgOrd d := by
    have hsys : t.sysImage = s.sysImage := by rw [h.rest]
    simp only [State.pkgOrd, State.pkgTable, State.partEntry, State.partEntries, hsys, hslot]
  refine List.filter_congr fun n hn => ?_
  have hwin : t.win c n = s.win c n := h.rd (not_pagedKey_win c n (List.mem_range.1 hn))
  rw [himages, hpkg, hord, hwin]

theorem Paged.kvClass (h : Paged s t) (d : Dye) (cls : Nat) : t.kvClass d cls = s.kvClass d cls := by
  have howner : ∀ r, t.owner r = s.owner r := fun r => congrArg (fun v => Fin.ofNat 16 (bitsOf v 0 4)) (h.rd (not_pagedKey_rgn r))
  simp only [State.kvClass, State.regionsOf, howner, h.kvWins]

/-! ### Operations of local HBM and frames -/

theorem Traffic.paged (h : Traffic s t) : Paged s t where
  rest := by rw [h.rest]
  regs k hk := h.regs k fun hmem => hk (by
    obtain hpwr | hldg | hhbm | ⟨d, rfl⟩ := hmem
    · exact .inl hpwr
    · exact .inr (.inl hldg)
    · exact .inr (.inr (.inr (.inr hhbm)))
    · exact .inr (.inr (.inr (.inl (by simp only [regKey, pageOff, TIER_D_STALE_RD]; omega)))))

theorem pagedKey_tier {o : Nat} (ho : o < 0x10000) : pagedKey (regKey .tier o) := .inr (.inr (.inr (.inl (by simp only [regKey]; omega))))

theorem Paged.wr {w : Win} {o : Nat} (hk : pagedKey (regKey w o)) (v : Word32) : Paged s (s.wr w o v) :=
  ⟨rfl, fun _ hj => tabGet_tabSet_other _ _ _ fun h => hj (h ▸ hk)⟩

theorem Paged.useFrames (s : State) (d : Dye) {tier : Nat} (htier : tier < 4) (up : Bool) (n : Nat) : Paged s (s.useFrames d tier up n) :=
  Paged.wr (pagedKey_tier (by simp only [pageOff, TIER_D_USED]; omega)) _

theorem Paged.setFrames (s : State) (x : Tab Frame) (b : Tab Byte) : Paged s { s with frames := x, hbm := b } := ⟨rfl, fun _ _ => rfl⟩

theorem Paged.grantFrame (s : State) (f : Nat) (d : Dye) (state kind : Nat) : Paged s (s.grantFrame f d state kind) :=
  (Paged.setFrames s _ s.hbm).trans (Paged.useFrames _ d (by decide) true 1)

theorem Paged.freeFrame (s : State) (f : Nat) : Paged s (s.freeFrame f) := by
  have hused : Paged s (if (s.frame f).held then s.useFrames (s.frame f).owner 1 false else s) := by
    split
    · exact .useFrames _ _ (by decide) _ _
    · exact .refl s
  exact hused.trans (Paged.setFrames _ _ _)

theorem Paged.takeFrame (s : State) (d : Dye) (die : Fin 2) (kind : Nat) : Paged s (s.takeFrame d die kind).2 := by
  have hdraw : Paged s s.draw.2 := ⟨rfl, fun _ _ => rfl⟩
  unfold State.takeFrame
  extract_lets t
  split
  · exact hdraw
  · split
    · exact hdraw
    · exact hdraw.trans (Paged.grantFrame _ _ _ _ _)

/-! ### Page tables (R144) -/

theorem Paged.setCtx (s : State) (d : Dye) (n : Nat) (c : Option Ctx) : Paged s (s.setCtx d n c) := ⟨rfl, fun _ _ => rfl⟩

theorem Paged.dirGrow (s : State) (d : Dye) (die : Fin 2) (x : TabDir) : Paged s (s.dirGrow d die x).2.2 := by
  unfold State.dirGrow
  split
  · exact .refl s
  · extract_lets t
    split <;> exact Paged.takeFrame s d die 1

theorem Paged.dirRoot (s : State) (d : Dye) (die : Fin 2) (x : TabDir) : Paged s (s.dirRoot d die x).2 := by
  unfold State.dirRoot
  split
  · exact .refl s
  · extract_lets t
    split <;> exact Paged.dirGrow s d die x

theorem Paged.dirL1 (s : State) (d : Dye) (die : Fin 2) (x : TabDir) (layer : Nat) : Paged s (s.dirL1 d die x layer).2 := by
  unfold State.dirL1
  split
  · exact .refl s
  · extract_lets t
    split
    · exact Paged.dirGrow s d die x
    · dsimp only
      exact (Paged.dirGrow s d die x).trans (Traffic.hbmWrite _ _ _).paged

theorem Paged.dirL2 (s : State) (d : Dye) (die : Fin 2) (x : TabDir) (layer i : Nat) : Paged s (s.dirL2 d die x layer i).2 := by
  unfold State.dirL2
  split
  · exact .refl s
  · extract_lets t
    split
    · exact Paged.dirGrow s d die x
    · dsimp only
      exact (Paged.dirGrow s d die x).trans (Traffic.hbmWrite _ _ _).paged

theorem Paged.dirSet (s : State) (d : Dye) (die : Fin 2) (x : TabDir) (layer page : Nat) (p : Option Pte) :
    Paged s (s.dirSet d die x layer page p).2 := by
  unfold State.dirSet
  extract_lets i a b c
  have ha : Paged s a.2 := by
    simp only [a]
    split
    · exact .refl s
    · exact .dirRoot s d die x
  have hb : Paged s b.2 := by
    simp only [b]
    split
    · exact ha
    · exact ha.trans (.dirL1 _ _ _ _ _)
  have hc : Paged s c.2 := by
    simp only [c]
    split
    · exact hb
    · exact hb.trans (.dirL2 _ _ _ _ _ _)
  split
  · exact hc
  · exact hc.trans (Traffic.hbmWrite _ _ _).paged

/-- An entry written: the entry, and what its tables in local HBM take. -/
theorem Paged.setPte (s : State) (k : Nat) (p : Option Pte) :
    Paged { s with ptes := tabSet (fun _ => none) s.ptes k p } (s.setPte k p) := by
  unfold State.setPte
  extract_lets s1
  split
  · exact .refl s1
  · exact (Paged.dirSet s1 _ _ _ _ _ _).trans (Paged.setCtx _ _ _ _)

theorem Paged.kind5Grow (s : State) (key : Nat) (d : Dye) : ∀ n, Paged s (s.kind5Grow key d n)
  | 0 => .refl s
  | n + 1 => by
    unfold State.kind5Grow
    split
    · exact .refl s
    · extract_lets s1 t
      have ht : Paged s t.2 := (Paged.kind5Grow s key d n).trans (Paged.takeFrame s1 _ _ _)
      split
      · exact ht
      · exact ht.trans ⟨rfl, fun _ _ => rfl⟩

theorem Paged.setShared (s : State) (k : Nat) (p : Option Pte) :
    Paged { s with shared := tabSet (fun _ => none) s.shared k p } (s.setShared k p) := by
  unfold State.setShared
  extract_lets d i s1 s2
  have hs2 : Paged s1 s2 := by
    simp only [s2]
    split
    · exact .refl s1
    · exact .kind5Grow s1 _ _ _
  split
  · exact hs2
  · exact hs2.trans (Traffic.hbmWrite _ _ _).paged

/-! ### Pages on their way to donors and hosts (R151) -/

theorem Paged.fabRequest (s : State) (p : FabricPacket) (who : FabIssuer) : Paged s (s.fabRequest p who).2 := by
  unfold State.fabRequest
  split
  · exact Paged.wr (.inr (.inr (.inl (by decide)))) _
  · exact ⟨rfl, fun _ _ => rfl⟩

theorem Paged.foldl {α : Type} {f : State → α → State} (hf : ∀ t a, Paged t (f t a)) (l : List α) (s : State) :
    Paged s (l.foldl f s) := foldl_keeps (P := Paged s) (fun t a h => h.trans (hf t a)) l s (.refl s)

theorem Paged.askPage (s : State) (d : Dye) (tier frame : Nat) : Paged s (s.askPage d tier frame) := by
  unfold State.askPage
  split
  · split
    · exact .refl s
    · exact .foldl (fun _ _ => .fabRequest _ _ _) _ s
  · split
    · split
      · exact .refl s
      · exact ⟨rfl, fun _ _ => rfl⟩
    · exact .refl s

end

end Sys2Proof.Machine
end

section
/-! The beginning of page moves and the end of pins (R143, R157 to R159): demotions, promotions and pins that expire. -/

namespace Sys2Proof.Machine

section
variable {s t : State} {m : PageMove} {p : Pte}

/-! ### A page's entry -/

/-- A page's entry reads as it was put back. -/
theorem State.movePte_setMovePte (s : State) (m : PageMove) (p : Pte) : (s.setMovePte m p).movePte m = some p := by
  unfold State.movePte State.setMovePte
  cases m.session with
  | none => exact (congrArg (tabGet _ · _) (Paged.setShared s _ _).shared).trans (tabGet_tabSet_self _ _ _ _)
  | some slot => exact (congrArg (tabGet _ · _) (Paged.setPte s _ _).ptes).trans (tabGet_tabSet_self _ _ _ _)

theorem State.setMovePte_paged (s : State) (m : PageMove) (p : Pte) :
    ∃ a b, Paged { s with ptes := a, shared := b } (s.setMovePte m p) := by
  unfold State.setMovePte
  cases m.session with
  | none => exact ⟨_, _, Paged.setShared s _ _⟩
  | some slot => exact ⟨_, _, Paged.setPte s _ _⟩

/-- Entries or moves put beside what paging does. -/
theorem Paged.withPtes (h : Paged s t) (a : Tab (Option Pte)) : Paged { s with ptes := a } { t with ptes := a } :=
  ⟨by rw [h.rest], h.regs⟩
theorem Paged.withShared (h : Paged s t) (a : Tab (Option Pte)) : Paged { s with shared := a } { t with shared := a } :=
  ⟨by rw [h.rest], h.regs⟩
theorem Paged.withMoves (h : Paged s t) (l : List PageMove) : Paged { s with pageMoves := l } { t with pageMoves := l } :=
  ⟨by rw [h.rest], h.regs⟩

/-! ### A move begins -/

/-- A page that is not busy, and that no session reads in its attention phase, begins to move and is busy from then on. -/
theorem State.startMove_begins (hpte : s.movePte m = some p) (hbusy : p.busy = false)
    (hattend : ∀ x ∈ s.moveSessions m, s.attending x.1 x.2 = false) :
    (s.startMove m).pageMoves = s.pageMoves ++ [m] ∧ (s.startMove m).movePte m = some { p with busy := true } := by
  have hnone : (s.moveSessions m).any (fun x => s.attending x.1 x.2) = false := by simpa using hattend
  obtain ⟨a, b, hput⟩ := s.setMovePte_paged m { p with busy := true }
  have hask := fun l => Paged.askPage { s.setMovePte m { p with busy := true } with pageMoves := l } m.dye m.fromTier p.frame.toNat
  simp only [State.startMove, hpte, hbusy, hnone, Bool.or_false, Bool.false_eq_true, if_false]
  rw [(hask _).pageMoves, (hask _).movePte]
  exact ⟨congrArg (· ++ [m]) hput.pageMoves, s.movePte_setMovePte m _⟩

/-- A move that is tried begins or does not; beside it only entries, and what paging touches, change. -/
theorem State.startMove_paged (s : State) (m : PageMove) :
    ∃ a b l, Paged { s with ptes := a, shared := b, pageMoves := l } (s.startMove m) ∧
      (l = s.pageMoves ∨ l = s.pageMoves ++ [m]) := by
  unfold State.startMove
  split
  · exact ⟨_, _, _, .refl s, .inl rfl⟩
  · next p _ =>
    split
    · exact ⟨_, _, _, .refl s, .inl rfl⟩
    · obtain ⟨a, b, hput⟩ := s.setMovePte_paged m { p with busy := true }
      refine ⟨a, b, s.pageMoves ++ [m], ?_, .inr rfl⟩
      have hmoves : (s.setMovePte m { p with busy := true }).pageMoves = s.pageMoves := hput.pageMoves
      dsimp only
      rw [hmoves]
      exact (hput.withMoves _).trans (Paged.askPage _ _ _ _)

/-- Of a list of moves those that begin are listed, last. -/
theorem State.startMoves_paged : ∀ (l : List PageMove) (s : State), ∃ a b ms,
    Paged { s with ptes := a, shared := b, pageMoves := s.pageMoves ++ ms } (l.foldl State.startMove s) ∧ ∀ x ∈ ms, x ∈ l
  | [], s => ⟨s.ptes, s.shared, [], by rw [List.append_nil]; exact .refl s, by simp⟩
  | m :: l, s => by
    obtain ⟨a, b, q, hstart, hq⟩ := s.startMove_paged m
    obtain ⟨a', b', ms, hrest, hms⟩ := State.startMoves_paged l (s.startMove m)
    have hfirst : ∃ ns, q = s.pageMoves ++ ns ∧ ∀ x ∈ ns, x ∈ m :: l := by
      obtain rfl | rfl := hq
      · exact ⟨[], by simp, by simp⟩
      · exact ⟨[m], rfl, by simp⟩
    obtain ⟨ns, rfl, hns⟩ := hfirst
    have hmoves : (s.startMove m).pageMoves = s.pageMoves ++ ns := hstart.pageMoves
    rw [hmoves, List.append_assoc] at hrest
    refine ⟨a', b', ns ++ ms, (((hstart.withPtes a').withShared b').withMoves _).trans hrest, fun x hx => ?_⟩
    obtain hx | hx := List.mem_append.1 hx
    · exact hns x hx
    · exact List.mem_cons_of_mem m (hms x hx)

/-! ### Demotion (R157, R158) -/

/-- A page that a suspend hint names begins to move one tier down, while no move of admitted work is in progress. -/
theorem backgroundDemotion_answers {mv : PageMove × Pte} {tier : Fin 4} (hidle : ∀ x ∈ s.pageMoves, x.cause ≠ 0)
    (htier : tier.val < 3) (hpage : s.endSuspends.suspendPage tier.val = some mv)
    (hroom : s.endSuspends.hasRoom s.endSuspends.freeTotal mv.1.toTier = true) (hpte : s.movePte mv.1 = some p) (hbusy : p.busy = false)
    (hattend : ∀ x ∈ s.moveSessions mv.1, s.attending x.1 x.2 = false) :
    Answers (.backgroundDemotion tier) s (fun t => t.pageMoves = s.pageMoves ++ [{ mv.1 with cause := 2 }] ∧
      t.movePte mv.1 = some { p with busy := true } ∧ t.sram = s.sram ∧ t.acc = s.acc) := by
  let m : PageMove := { mv.1 with cause := 2 }
  have hfree : s.endSuspends.pageMoves.any (fun x => x.cause == 0) = false := by simpa [State.endSuspends] using hidle
  have hexec : exec (.backgroundDemotion tier) s = .next (s.endSuspends.startMove m) := by
    refine (if_neg (by simp [hfree])).trans ?_
    rw [if_pos htier, hpage]
    exact congrArg Host.Outcome.next (if_pos hroom)
  obtain ⟨hmoves, hentry⟩ := State.startMove_begins (s := s.endSuspends) (m := m) hpte hbusy hattend
  obtain ⟨a, b, l, hpaged, -⟩ := s.endSuspends.startMove_paged m
  exact ⟨_, hexec, hmoves, hentry, hpaged.sram, hpaged.acc⟩

/-! ### Promotion (R159) -/

/-- The pages of a session below tier 1 come up from tiers 2 and 3. -/
theorem State.belowTier1_move (s : State) (d : Dye) (slot : Nat) {e : PageMove × Pte} (h : e ∈ s.belowTier1 d slot) :
    e.1.dye = d ∧ 1 < e.1.fromTier ∧ e.1.toTier = 1 := by
  simp only [State.belowTier1, List.mem_filterMap] at h
  obtain ⟨x, -, hx⟩ := h
  split_ifs at hx with hro hlow
  · obtain ⟨p, -, hp⟩ := Option.bind_eq_some_iff.1 hx
    split_ifs at hp with hlow
    obtain rfl := Option.some.inj hp
    exact ⟨rfl, hlow, rfl⟩
  · obtain rfl := Option.some.inj hx
    exact ⟨rfl, hlow, rfl⟩

/-- s where the promotion of a resume hint has started: the hint says so, and the session's pages below tier 1 are pinned. -/
def State.hintStarted (s : State) (d : Dye) (slot : Nat) (h : Hint) : State :=
  { s with
    hints := s.hints.map (fun x => if x = h then { x with started := true } else x),
    pins := s.pins ++ (s.belowTier1 d slot).map (fun e => { dye := d, session := slot, shared := e.1.session.isNone, key := pageKey e.1,
                                                            until_ := h.at_ + h.x * 1000 + s.promoMargin }) }

/-- The promotion of a resume hint tries the move of each page below tier 1. -/
theorem State.promote_eq {d : Dye} {slot : Nat} {h : Hint} (hhint : s.resumeHint d slot = some h) (cause : Nat) :
    s.promote d slot cause =
      ((s.belowTier1 d slot).map (fun e => { e.1 with cause := cause })).foldl State.startMove (s.hintStarted d slot h) := by
  rw [List.foldl_map, State.promote, hhint]
  rfl

theorem execPromotionStart_of_hint {d : Dye} {session : Nat} {h : Hint} (hhint : s.resumeHint d session = some h)
    (hwaits : h.started = false) (hdue : h.start ≤ s.now) (hpages : s.belowTier1 d session ≠ []) :
    execPromotionStart d session s = .next (s.promote d session 3) := by
  have hgo : (h.started || (decide (s.now < h.start) && !s.pinned d session)) = false := by
    simp [hwaits, not_lt.2 hdue]
  simp only [execPromotionStart, hhint, hgo, if_neg hpages]
  rfl

/-- A promotion that is due pins its session's pages below tier 1 and begins to bring them up. -/
theorem promotionStart_answers {d : Dye} {session : Nat} {h : Hint} (hhint : s.resumeHint d session = some h)
    (hwaits : h.started = false) (hdue : h.start ≤ s.now) (hpages : s.belowTier1 d session ≠ []) :
    Answers (.promotionStart d session) s (fun t =>
      (∀ e ∈ s.belowTier1 d session, PagePin.mk d session e.1.session.isNone (pageKey e.1)
        (h.at_ + h.x * 1000 + s.fld .tier TIER_CFG 0 16 * 1000) ∈ t.pins) ∧
      { h with started := true } ∈ t.hints ∧
      (∃ ms, t.pageMoves = s.pageMoves ++ ms ∧ ∀ m ∈ ms, m.dye = d ∧ 1 < m.fromTier ∧ m.toTier = 1 ∧ m.cause = 3) ∧
      (∀ e p, s.belowTier1 d session = [e] → s.movePte e.1 = some p → p.busy = false →
        (∀ x ∈ s.moveSessions e.1, s.attending x.1 x.2 = false) →
        t.pageMoves = s.pageMoves ++ [{ e.1 with cause := 3 }] ∧ t.movePte e.1 = some { p with busy := true }) ∧
      t.sram = s.sram ∧ t.acc = s.acc) := by
  obtain ⟨a, b, ms, hpaged, hms⟩ := State.startMoves_paged ((s.belowTier1 d session).map (fun e => { e.1 with cause := 3 }))
    (s.hintStarted d session h)
  rw [← State.promote_eq hhint] at hpaged
  refine ⟨s.promote d session 3, execPromotionStart_of_hint hhint hwaits hdue hpages, fun e he => ?_, ?_,
    ⟨ms, hpaged.pageMoves, fun m hm => ?_⟩, fun e p hone hpte hbusy hattend => ?_, hpaged.sram, hpaged.acc⟩
  · rw [hpaged.pins]
    exact List.mem_append_right _ (List.mem_map_of_mem he)
  · rw [hpaged.hints]
    exact List.mem_map.2 ⟨h, List.mem_of_find?_eq_some hhint, if_pos rfl⟩
  · obtain ⟨e, he, rfl⟩ := List.mem_map.1 (hms m hm)
    obtain ⟨hdye, hfrom, hto⟩ := s.belowTier1_move d session he
    exact ⟨hdye, hfrom, hto, rfl⟩
  · rw [State.promote_eq hhint, hone]
    exact State.startMove_begins (s := s.hintStarted d session h) (m := { e.1 with cause := 3 }) hpte hbusy hattend

/-! ### Pins (R159) -/

/-- The pins of a session whose counter value has come are gone, and no others. -/
theorem pinExpiry_answers (s : State) (d : Dye) (session : Nat) :
    Answers (.pinExpiry d session) s (fun t =>
      (∀ p ∈ t.pins, p.dye = d → p.session = session → s.now < p.until_) ∧
      (∀ p ∈ s.pins, ¬(p.dye = d ∧ p.session = session ∧ p.until_ ≤ s.now) → p ∈ t.pins) ∧ t = { s with pins := t.pins }) := by
  refine ⟨_, rfl, fun p hp hdye hsession => ?_, fun p hp hstays => ?_, rfl⟩
  · have hkept := (List.mem_filter.1 hp).2
    simpa [hdye, hsession] using hkept
  · by_contra hgone
    exact hstays (by simpa [hp, and_assoc] using hgone)

end

end Sys2Proof.Machine
end

section
/-! SUPPORT. PAGE_MOVE_COMPLETE (R143, R153, R157): entries in tables that hold a place for them, a page that goes from tier 1 to a host
buffer or comes back, and the end of its move. -/

namespace Sys2Proof.Machine

/-! ### Page tables whose places are laid (R144) -/

/-- An entry's key spells its dye, session, layer and page. -/
theorem pteKey_fields (d : Dye) {slot layer page : Nat} (hslot : slot < 65536) (hlayer : layer < 4096) (hpage : page < 16384) :
    pteDye (pteKey d slot layer page) = d ∧ pteSlot (pteKey d slot layer page) = slot ∧
    pteLayer (pteKey d slot layer page) = layer ∧ ptePage (pteKey d slot layer page) = page := by
  refine ⟨Fin.ext ?_, ?_, ?_, ?_⟩ <;>
  · simp only [pteDye, pteSlot, pteLayer, ptePage, pteKey, Fin.ofNat]
    omega

/-- The tables hold a place for the entry of a page of a layer. -/
def TabDir.holds (x : TabDir) (layer page : Nat) : Prop :=
  x.root ≠ 0 ∧ natGet x.l1 layer ≠ 0 ∧ natGet x.l2 (layer * 64 + page / 256) ≠ 0

section
variable {s t : State} {d : Dye} {m : PageMove} {p : Pte} {slot : Nat} {dest : Word32} {bytes : List Byte}

/-- Where the tables hold a place for it, an entry is written there and the tables do not grow. -/
theorem State.dirSet_holds (s : State) (d : Dye) (die : Fin 2) {x : TabDir} {layer page : Nat} (h : x.holds layer page) (p : Pte) :
    ∃ o, s.dirSet d die x layer page (some p) = (x, s.hbmWrite o (pteBytes (some p))) := by
  obtain ⟨hroot, hl1, hl2⟩ := h
  obtain ⟨o, ho⟩ := Nat.exists_eq_succ_of_ne_zero hl2
  have h0 : s.dirRoot d die x = (x, s) := if_pos hroot
  have h1 : s.dirL1 d die x layer = (x, s) := if_pos (.inr hl1)
  have h2 : s.dirL2 d die x layer (page / 256) = (x, s) := if_pos (.inr hl2)
  refine ⟨o + 16 * (page % 256), ?_⟩
  simp only [State.dirSet, Option.isNone_some, Bool.false_eq_true, if_false, h0, h1, h2, ho]

/-- A context written back as it was. -/
theorem Traffic.setCtx {n : Nat} {c : Ctx} (h : s.ctx d n = some c) : Traffic s (s.setCtx d n (some c)) := by
  refine ⟨rfl, fun _ _ => rfl, fun _ => rfl, fun _ => rfl, fun e k => (tabGet_tabSet _ _ _ _ _).trans ?_⟩
  split
  · next hkey =>
    rw [← h, State.ctx, State.ctx, hkey]
  · rfl

/-- An entry written to tables that hold a place for it is traffic of local HBM. -/
theorem Traffic.setPte {k : Nat} (h : ∀ c, s.ctx (pteDye k) (pteSlot k) = some c → c.dir.holds (pteLayer k) (ptePage k)) (p : Pte) :
    Traffic { s with ptes := tabSet (fun _ => none) s.ptes k (some p) } (s.setPte k (some p)) := by
  unfold State.setPte
  extract_lets s1
  split
  · exact .refl s1
  · next c hc =>
    obtain ⟨o, hput⟩ := s1.dirSet_holds (pteDye k) c.home (h c hc) p
    have hwrite := Traffic.hbmWrite s1 o (pteBytes (some p))
    rw [hput]
    exact hwrite.trans (.setCtx ((hwrite.ctx _ _).trans hc))

/-! ### A page leaves its place and arrives -/

/-- The scratchpads, the accumulators, the moves, the hints and the copies that wait are as before. -/
structure Unmoved (s t : State) : Prop where
  sram : t.sram = s.sram
  acc : t.acc = s.acc
  pageMoves : t.pageMoves = s.pageMoves
  hints : t.hints = s.hints
  forkWait : t.forkWait = s.forkWait

theorem Unmoved.trans {u : State} (h : Unmoved s t) (h' : Unmoved t u) : Unmoved s u :=
  ⟨h'.sram.trans h.sram, h'.acc.trans h.acc, h'.pageMoves.trans h.pageMoves, h'.hints.trans h.hints, h'.forkWait.trans h.forkWait⟩

theorem Paged.unmoved (h : Paged s t) : Unmoved s t := ⟨h.sram, h.acc, h.pageMoves, h.hints, h.forkWait⟩

theorem Unmoved.withPtes (s : State) (a : Tab (Option Pte)) : Unmoved s { s with ptes := a } := ⟨rfl, rfl, rfl, rfl, rfl⟩

/-- s where the bytes of page p of move m have gone to dest. -/
def State.pageArrived (s : State) (m : PageMove) (p : Pte) (dest : Word32) (bytes : List Byte) : State :=
  ((s.dropPage m.dye p).landPage m.dye m.toTier dest bytes).setMovePte m { p with tier := m.toTier, frame := dest, busy := false }
/-- The page's entry names its new place. -/
theorem State.movePte_pageArrived (s : State) (m : PageMove) (p : Pte) (dest : Word32) (bytes : List Byte) :
    (s.pageArrived m p dest bytes).movePte m = some { p with tier := m.toTier, frame := dest, busy := false } :=
  State.movePte_setMovePte _ _ _

/-- s where move m is counted, its promotion judged, and what waited for it goes on. -/
def State.moveEnds (s : State) (m : PageMove) : State :=
  let s3 := if m.cause ≤ 1 ∧ m.fromTier < m.toTier then s.bumpP .tier m.dye TIER_D_EVICT else s
  let s4 := if m.cause = 0 ∧ m.toTier = 1 ∧ 1 < m.fromTier then { s3 with reserved := useReserved m.dye s3.reserved } else s3
  let s5 := (s4.moveSessions m).foldl (fun (t : State) x => t.promoLate x.1 x.2) s4
  (s5.moveOn m).endSuspends.forkRetry

/-- s where move mv is taken off the list. -/
def State.takeMove (s : State) (mv : Nat) : State := { s with pageMoves := s.pageMoves.eraseIdx mv }

/-- A page that was read without poison, whose check words agree and whose place can take it arrives, and its move ends (R153). -/
theorem execPageMoveComplete_arrives {mv : Nat} (hmove : s.pageMoves[mv]? = some m) (horphan : m.orphan = none)
    (hpte : s.movePte m = some p) (hdest : s.destOk m dest = true) (hclean : ((s.takeMove mv).pageBytes m.dye p).1.2 = false)
    (hbytes : (if 1 < m.fromTier then takePad 0 65536 ((s.takeMove mv).pageBytes m.dye p).1.1
      else ((s.takeMove mv).pageBytes m.dye p).1.1) = bytes)
    (hmatch : m.fromTier ≤ 1 ∨ crcs bytes = tabGetList (fun _ => 0) s.checkRecs ((m.fromTier * 2 ^ 32 + p.frame.toNat) * 16) 16) :
    execPageMoveComplete mv ⟨false, none⟩ dest s =
      .next ((((s.takeMove mv).pageBytes m.dye p).2.pageArrived m p dest bytes).moveEnds m) := by
  have hcrc : (decide (m.fromTier ≤ 1) ||
      crcs bytes == tabGetList (fun _ => 0) s.checkRecs ((m.fromTier * 2 ^ 32 + p.frame.toNat) * 16) 16) = true := by
    simpa using hmatch
  rw [State.takeMove] at hclean hbytes ⊢
  simp only [execPageMoveComplete, hmove, horphan, hpte, Option.getD_none, hbytes, hclean, hcrc, hdest]
  rfl

theorem execPageMoveComplete_none {mv : Nat} {read : MoveRead} (h : s.pageMoves[mv]? = none) :
    execPageMoveComplete mv read dest s = .next s := by
  simp only [execPageMoveComplete, h]

/-- The entry of a session's page, in tables that hold a place for it, is put back as traffic of local HBM. -/
theorem Traffic.setMovePte (hsession : m.session = some slot) (hslot : slot < 65536) (hlayer : m.layer < 4096) (hpage : m.page < 16384)
    (h : ∀ c, s.ctx m.dye slot = some c → c.dir.holds m.layer m.page) (p : Pte) :
    Traffic { s with ptes := tabSet (fun _ => none) s.ptes (pteKey m.dye slot m.layer m.page) (some p) } (s.setMovePte m p) := by
  obtain ⟨hd, hs, hl, hp⟩ := pteKey_fields m.dye hslot hlayer hpage
  have hput : s.setMovePte m p = s.setPte (pteKey m.dye slot m.layer m.page) (some p) := by simp only [State.setMovePte, hsession]
  rw [hput]
  exact .setPte (by rwa [hd, hs, hl, hp]) p

/-! ### Frames given back and taken -/

theorem State.evict_useFrames (s : State) (d e : Dye) {tier : Nat} (htier : tier < 4) (up : Bool) (n : Nat) :
    (s.useFrames e tier up n).rdP .tier d TIER_D_EVICT = s.rdP .tier d TIER_D_EVICT := by
  refine State.rd_wr_other _ _ _ _ _ _ ?_
  simp only [regKey, pageOff, TIER_D_EVICT, TIER_D_USED]
  omega

/-- A frame given back is FREE. -/
theorem State.frame_freeFrame (s : State) (f : Nat) : (s.freeFrame f).frame f = {} := tabGet_tabSet_self _ _ _ _

theorem State.ctxs_freeFrame (s : State) (f : Nat) : (s.freeFrame f).ctxs = s.ctxs := by
  unfold State.freeFrame
  extract_lets s1
  have hs1 : s1.ctxs = s.ctxs := by
    simp only [s1]
    split <;> rfl
  exact hs1

theorem State.evict_freeFrame (s : State) (d : Dye) (f : Nat) :
    (s.freeFrame f).rdP .tier d TIER_D_EVICT = s.rdP .tier d TIER_D_EVICT := by
  unfold State.freeFrame
  extract_lets s1
  have hs1 : s1.rdP .tier d TIER_D_EVICT = s.rdP .tier d TIER_D_EVICT := by
    simp only [s1]
    split
    · exact State.evict_useFrames s d _ (by decide) _ _
    · rfl
  exact hs1

/-- A frame that is taken is its owner's. -/
theorem State.frame_grantFrame (s : State) (f : Nat) (d : Dye) (state kind : Nat) :
    (s.grantFrame f d state kind).frame f = { owner := d, state := state, stale := 0xFFFF, kind := kind } := tabGet_tabSet_self _ _ _ _

/-! ### From tier 1 to a host buffer -/

/-- s where a page's bytes stand in a host buffer, with their check words (R153). -/
def State.putFar (s : State) (dest : Word32) (bytes : List Byte) : State :=
  { s with farPages := tabSetList byteReset s.farPages (farKey 3 dest.toNat) bytes,
           checkRecs := tabSetList (fun _ => 0) s.checkRecs ((3 * 2 ^ 32 + dest.toNat) * 16) (crcs bytes) }

theorem State.putFar_unmoved (s : State) (dest : Word32) (bytes : List Byte) : Unmoved s (s.putFar dest bytes) := by
  constructor <;> dsimp only [State.putFar]

theorem State.rdP_putFar (s : State) (dest : Word32) (bytes : List Byte) (w : Win) (d : Dye) (o : Nat) :
    (s.putFar dest bytes).rdP w d o = s.rdP w d o := by
  dsimp only [State.rdP, State.rd, State.putFar]

theorem Paged.withFar (h : Paged s t) (a : Tab Byte) (b : Tab Word32) :
    Paged { s with farPages := a, checkRecs := b } { t with farPages := a, checkRecs := b } := ⟨by rw [h.rest], h.regs⟩

theorem Paged.putFar (h : Paged s t) (dest : Word32) (bytes : List Byte) : Paged (s.putFar dest bytes) (t.putFar dest bytes) := by
  rw [State.putFar, State.putFar, h.farPages, h.checkRecs]
  exact h.withFar _ _

/-- A page's bytes put into a host buffer stand there; no frame, no context and no count of evictions changes. -/
theorem State.landPage_host (s : State) (d : Dye) (dest : Word32) (bytes : List Byte) :
    Paged (s.putFar dest bytes) (s.landPage d 3 dest bytes) ∧
    (s.landPage d 3 dest bytes).frames = s.frames ∧ (s.landPage d 3 dest bytes).ctxs = s.ctxs ∧
    (s.landPage d 3 dest bytes).rdP .tier d TIER_D_EVICT = s.rdP .tier d TIER_D_EVICT := by
  have hsend : ∀ (u : State) (f : Nat), ∃ h, u.sendPage d 3 f bytes = { u with hostTx := h } := fun u f => by
    unfold State.sendPage
    extract_lets part
    rw [if_neg (by decide)]
    split
    · exact ⟨u.hostTx, rfl⟩
    · exact ⟨_, rfl⟩
  have hland : ∃ b h, s.landPage d 3 dest bytes = { (s.useFrames d 3 true).putFar dest bytes with hostBufs := b, hostTx := h } := by
    dsimp only [State.landPage, State.putFar]
    obtain ⟨h, hsend⟩ := hsend _ _
    exact ⟨_, h, hsend⟩
  have hhost : ∀ (u : State) b h, Paged u { u with hostBufs := b, hostTx := h } ∧
      ({ u with hostBufs := b, hostTx := h } : State).rdP .tier d TIER_D_EVICT = u.rdP .tier d TIER_D_EVICT :=
    fun _ _ _ => ⟨⟨rfl, fun _ _ => rfl⟩, rfl⟩
  obtain ⟨b, h, hland⟩ := hland
  rw [hland]
  refine ⟨((Paged.useFrames s d (by decide) true 1).putFar dest bytes).trans (hhost _ b h).1, ?_, ?_, ?_⟩
  · dsimp only [State.putFar, State.useFrames, State.wr]
  · dsimp only [State.putFar, State.useFrames, State.wr]
  · rw [(hhost _ b h).2, State.rdP_putFar, s.evict_useFrames d d (by decide)]

theorem not_trafficKey_evict (d : Dye) : ¬trafficKey (regKey .tier (pageOff d TIER_D_EVICT)) := by
  simp only [trafficKey, regKey, winIndex, pageOff, TIER_D_EVICT, TIER_D_STALE_RD]
  omega

/-- A page of tier 1 that arrives in a host buffer (R153, R157): its bytes and check words stand there, and the frame that it has left is
FREE. -/
theorem State.pageArrived_host (hsession : m.session = some slot) (hslot : slot < 65536) (hlayer : m.layer < 4096)
    (hpage : m.page < 16384) (htables : ∀ c, s.ctx m.dye slot = some c → c.dir.holds m.layer m.page) (htier : p.tier = 1)
    (hto : m.toTier = 3) :
    Unmoved s (s.pageArrived m p dest bytes) ∧
    (s.pageArrived m p dest bytes).farPages = (s.putFar dest bytes).farPages ∧
    (s.pageArrived m p dest bytes).checkRecs = (s.putFar dest bytes).checkRecs ∧
    ((s.pageArrived m p dest bytes).frame (p.frame.toNat % 2 ^ 24)).state = 0 ∧
    (s.pageArrived m p dest bytes).rdP .tier m.dye TIER_D_EVICT = s.rdP .tier m.dye TIER_D_EVICT := by
  let f := p.frame.toNat % 2 ^ 24
  let v := (s.freeFrame f).landPage m.dye 3 dest bytes
  obtain ⟨hland, hframes, hctxs, hevict⟩ := (s.freeFrame f).landPage_host m.dye dest bytes
  have hdrop : s.dropPage m.dye p = s.freeFrame f := by simp only [State.dropPage, htier]; rfl
  have harrived : s.pageArrived m p dest bytes = v.setMovePte m { p with tier := 3, frame := dest, busy := false } := by
    rw [State.pageArrived, hdrop, hto]
  have hctx : ∀ c, v.ctx m.dye slot = some c → c.dir.holds m.layer m.page := fun c hc => by
    rw [State.ctx, hctxs, State.ctxs_freeFrame] at hc
    exact htables c hc
  have hput := Traffic.setMovePte hsession hslot hlayer hpage hctx { p with tier := 3, frame := dest, busy := false }
  have hpages : Paged (s.putFar dest bytes) v := ((Paged.freeFrame s f).putFar dest bytes).trans hland
  rw [harrived]
  refine ⟨(s.putFar_unmoved dest bytes).trans (hpages.unmoved.trans ((Unmoved.withPtes v _).trans hput.paged.unmoved)),
    hput.paged.farPages.trans hpages.farPages, hput.paged.checkRecs.trans hpages.checkRecs, ?_, ?_⟩
  · refine (hput.state f).trans ?_
    have hframe : v.frame f = {} := by rw [State.frame, hframes]; exact s.frame_freeFrame f
    exact congrArg Frame.state hframe
  · exact (hput.regs _ (not_trafficKey_evict _)).trans (hevict.trans (s.evict_freeFrame m.dye f))

/-! ### The end of a move -/

theorem State.moveSessions_session (s : State) (hsession : m.session = some slot) : s.moveSessions m = [(m.dye, slot)] := by
  simp only [State.moveSessions, hsession]

/-- A promotion that no hint has started is not judged. -/
theorem State.promoLate_idle (h : ∀ x, s.resumeHint d slot = some x → x.started = false) : s.promoLate d slot = s := by
  unfold State.promoLate
  split
  · rfl
  · next x hx => simp [h x hx]

/-- With no copy of a fork waiting nothing is tried again. -/
theorem State.forkRetry_none (h : s.forkWait = []) : s.forkRetry = s := by
  rw [State.forkRetry, h, List.foldl_nil, ← h]

/-- A page that has gone down stays where no hint has started its promotion (Table 6-6). -/
theorem State.moveOn_down (hsession : m.session = some slot) (hto : m.toTier = 3)
    (h : ∀ x, s.resumeHint m.dye slot = some x → x.started = false) : s.moveOn m = s := by
  have hnone : (s.resumeHint m.dye slot).any (·.started) = false := by
    cases hx : s.resumeHint m.dye slot with
    | none => rfl
    | some x => exact h x hx
  simp [State.moveOn, s.moveSessions_session hsession, hto, hnone]

/-- A page that has come up to tier 1 stays where its image does not keep its class in scratchpad (R143). -/
theorem State.moveOn_up (hsession : m.session = some slot) (hto : m.toTier = 1)
    (h : ∀ c, s.ctx m.dye slot = some c → s.kvClass m.dye c.cls = false) : s.moveOn m = s := by
  have hnone : (s.ctx m.dye slot).any (fun c => s.kvClass m.dye c.cls) = false := by
    cases hc : s.ctx m.dye slot with
    | none => rfl
    | some c => exact h c hc
  simp [State.moveOn, s.moveSessions_session hsession, hto, hnone]

/-- A move of admitted work from tier 1 to tier 3 ends: it is counted, and nothing brings the page up again. -/
theorem State.moveEnds_evicted (hsession : m.session = some slot) (hcause : m.cause = 0) (hfrom : m.fromTier = 1) (hto : m.toTier = 3)
    (hwait : s.forkWait = []) (hhint : ∀ h, s.resumeHint m.dye slot = some h → h.started = false) :
    s.moveEnds m = (s.bumpP .tier m.dye TIER_D_EVICT).endSuspends := by
  have hcount : m.cause ≤ 1 ∧ m.fromTier < m.toTier := by omega
  have hnear : ¬(m.cause = 0 ∧ m.toTier = 1 ∧ 1 < m.fromTier) := by omega
  have hhint' : ∀ h, (s.bumpP .tier m.dye TIER_D_EVICT).resumeHint m.dye slot = some h → h.started = false := hhint
  simp only [State.moveEnds, if_pos hcount, if_neg hnear, State.moveSessions_session _ hsession, List.foldl_cons, List.foldl_nil,
    State.promoLate_idle hhint', State.moveOn_down hsession hto hhint']
  exact State.forkRetry_none hwait

/-- Judging a promotion may end its hint, count it as late and enter it in its histogram. -/
theorem State.promoLate_frame (s : State) (d : Dye) (slot : Nat) :
    ∃ h g l, s.promoLate d slot = { s with hints := h, regs := g, ldgHist := l } ∧
      ∀ k, ¬pagedKey k → tabGet regReset g k = tabGet regReset s.regs k := by
  have hhist : ∀ (u : State) k n v, ∃ l, u.hist k d n v = { u with ldgHist := l } := fun u k n v => by
    unfold State.hist
    split_ifs <;> exact ⟨_, rfl⟩
  have hlate : pagedKey (regKey .tier (pageOff d TIER_D_PROMO_LATE)) :=
    pagedKey_tier (by simp only [pageOff, TIER_D_PROMO_LATE]; omega)
  unfold State.promoLate
  split
  · exact ⟨_, _, _, rfl, fun _ _ => rfl⟩
  · next x _ =>
    extract_lets s1
    split_ifs
    · obtain ⟨l, hl⟩ := hhist (s1.bumpP .tier d TIER_D_PROMO_LATE) 5 0 (s.now + s.promoMargin - (x.at_ + x.x * 1000))
      rw [hl]
      exact ⟨_, _, _, rfl, fun k hk => tabGet_tabSet_other _ _ _ fun h => hk (h ▸ hlate)⟩
    · exact ⟨_, _, _, rfl, fun _ _ => rfl⟩
    · exact ⟨_, _, _, rfl, fun _ _ => rfl⟩

/-- A promotion ends: it is judged, and the page goes no further where its class stays out of scratchpad. -/
theorem State.moveEnds_promoted (hsession : m.session = some slot) (hcause : m.cause = 3) (hto : m.toTier = 1)
    (hwait : s.forkWait = []) (hclass : ∀ c, s.ctx m.dye slot = some c → s.kvClass m.dye c.cls = false) :
    ∃ h g l, s.moveEnds m = { s with hints := h, regs := g, ldgHist := l } := by
  have hcount : ¬(m.cause ≤ 1 ∧ m.fromTier < m.toTier) := by omega
  have hnear : ¬(m.cause = 0 ∧ m.toTier = 1 ∧ 1 < m.fromTier) := by omega
  obtain ⟨h, g, l, hlate, hregs⟩ := s.promoLate_frame m.dye slot
  have hpaged : Paged { s with hints := h } { s with hints := h, regs := g, ldgHist := l } := ⟨rfl, hregs⟩
  have hstays : ({ s with hints := h, regs := g, ldgHist := l } : State).moveOn m = { s with hints := h, regs := g, ldgHist := l } :=
    State.moveOn_up hsession hto fun c hc => (hpaged.kvClass _ _).trans (hclass c hc)
  simp only [State.moveEnds, if_neg hcount, if_neg hnear, s.moveSessions_session hsession, List.foldl_cons, List.foldl_nil, hlate, hstays]
  exact ⟨_, _, _, State.forkRetry_none hwait⟩

/-! ### From a host buffer to tier 1 -/

/-- A page that comes from a host buffer gives the buffer back. -/
theorem State.dropPage_host (s : State) (d : Dye) (htier : p.tier = 3) :
    Paged s (s.dropPage d p) ∧ (s.dropPage d p).ctxs = s.ctxs := by
  have hdrop : ∃ b, s.dropPage d p = { s.useFrames d 3 false with hostBufs := b } := by
    simp only [State.dropPage, htier]
    exact ⟨_, rfl⟩
  have hhost : ∀ (u : State) b, Paged u { u with hostBufs := b } := fun _ _ => ⟨rfl, fun _ _ => rfl⟩
  obtain ⟨b, hdrop⟩ := hdrop
  rw [hdrop]
  exact ⟨(Paged.useFrames s d (by decide) false 1).trans (hhost _ b), by dsimp only [State.useFrames, State.wr]⟩

/-- A page of a host buffer that arrives in tier 1 (R153, R159): the frame is its dye's. -/
theorem State.pageArrived_local (hsession : m.session = some slot) (hslot : slot < 65536) (hlayer : m.layer < 4096)
    (hpage : m.page < 16384) (htables : ∀ c, s.ctx m.dye slot = some c → c.dir.holds m.layer m.page) (htier : p.tier = 3)
    (hto : m.toTier = 1) :
    (∃ e, Paged { s with ptes := e } (s.pageArrived m p dest bytes)) ∧
    ((s.pageArrived m p dest bytes).frame (dest.toNat % 2 ^ 24)).state = 1 ∧
    ((s.pageArrived m p dest bytes).frame (dest.toNat % 2 ^ 24)).owner = m.dye ∧
    ∀ d n, (s.pageArrived m p dest bytes).ctx d n = s.ctx d n := by
  let f := dest.toNat % 2 ^ 24
  let u := (s.dropPage m.dye p).grantFrame f m.dye 1 0
  let v := u.hbmWrite (f * 65536) bytes
  obtain ⟨hdrop, hctxs⟩ := s.dropPage_host m.dye htier
  have hgrant : Paged s u := hdrop.trans (Paged.grantFrame _ f m.dye 1 0)
  have hwrite : Traffic u v := Traffic.hbmWrite u _ bytes
  have harrived : s.pageArrived m p dest bytes = v.setMovePte m { p with tier := 1, frame := dest, busy := false } := by
    rw [State.pageArrived, hto]
    rfl
  have hctx : ∀ d n, v.ctx d n = s.ctx d n := fun d n => (hwrite.ctx d n).trans (congrArg (tabGet _ · _) hctxs)
  have hput := Traffic.setMovePte (s := v) hsession hslot hlayer hpage (fun c hc => htables c ((hctx _ _).symm.trans hc))
    { p with tier := 1, frame := dest, busy := false }
  have hframe : u.frame f = { owner := m.dye, state := 1, stale := 0xFFFF, kind := 0 } := State.frame_grantFrame _ _ _ _ _
  rw [harrived]
  refine ⟨⟨_, ((hgrant.trans hwrite.paged).withPtes _).trans hput.paged⟩, ?_, ?_, fun d n => (hput.ctx d n).trans (hctx d n)⟩
  · exact (hput.state f).trans ((hwrite.state f).trans (congrArg Frame.state hframe))
  · exact (hput.owner f).trans ((hwrite.owner f).trans (congrArg Frame.owner hframe))

end

end Sys2Proof.Machine
end

section
/-! What PAGE_MOVE_COMPLETE answers (R143, R153, R157, R159), and the statement about page moves. -/

namespace Sys2Proof.Machine

section
variable {s : State} {m : PageMove} {p : Pte} {slot mv : Nat} {dest : Word32}

/-! ### A page that is read where it lies -/

theorem length_takePad {α : Type} (z : α) (n : Nat) (l : List α) : (takePad z n l).length = n := by
  simp only [takePad, List.length_append, List.length_take, List.length_replicate]
  omega

theorem length_hbmReadG (s : State) (d : Dye) (o n : Nat) : (s.hbmReadG d o n).1.1.length = n := by
  unfold State.hbmReadG
  extract_lets f key bad
  split_ifs
  · exact List.length_replicate
  · exact List.length_replicate
  · exact List.length_replicate
  · exact List.length_replicate
  · exact length_takePad _ _ _
  · exact length_tabGetList _ _ _ _

/-- A read answers as many bytes as were asked for. -/
theorem length_hbmReadF (d : Dye) : ∀ (k o n : Nat) (s : State), o % 4096 + n ≤ 4096 * k → (s.hbmReadF d k o n).1.1.length = n
  | 0, o, n, s, h => by
    rw [State.hbmReadF]
    exact (by omega : (0 : Nat) = n)
  | k + 1, o, n, s, h => by
    rw [State.hbmReadF]
    split
    · next hn => rw [hn]; rfl
    · dsimp only
      rw [List.length_append, length_hbmReadG]
      by_cases hlast : n ≤ 4096 - o % 4096
      · rw [Nat.min_eq_left hlast, Nat.sub_self, State.hbmReadF_none]
        rfl
      · rw [Nat.min_eq_right (by omega), length_hbmReadF d k _ _ _ (by omega)]
        omega

/-- A page of tier 1 is read from its frame: 64 KiB. -/
theorem State.pageBytes_local (s : State) (d : Dye) (htier : p.tier = 1) :
    Traffic s (s.pageBytes d p).2 ∧ (s.pageBytes d p).1.1.length = 65536 := by
  have hread : s.pageBytes d p = s.hbmRead d (p.frame.toNat % 2 ^ 24 * 65536) 65536 := by simp only [State.pageBytes, htier]
  rw [hread]
  exact ⟨.hbmRead _ _ _ _, length_hbmReadF _ _ _ _ _ (by omega)⟩

/-- A page of a host buffer is taken as this package sent it there, without traffic here. -/
theorem State.pageBytes_host (s : State) (d : Dye) (htier : p.tier = 3) : Traffic s (s.pageBytes d p).2 := by
  simp only [State.pageBytes, htier]
  exact .refl s

/-- A page put into a host buffer reads back, and so do its check words (R153). -/
theorem State.putFar_reads (s : State) (dest : Word32) {bytes : List Byte} (hlen : bytes.length = 65536) :
    tabGetList byteReset (s.putFar dest bytes).farPages (farKey 3 dest.toNat) 65536 = bytes ∧
    tabGetList (fun _ => 0) (s.putFar dest bytes).checkRecs ((3 * 2 ^ 32 + dest.toNat) * 16) 16 = crcs bytes := by
  dsimp only [State.putFar]
  exact ⟨tabGetList_tabSetList _ _ _ _ _ hlen, tabGetList_tabSetList _ _ _ _ _ (by rw [crcs, List.length_map, List.length_range])⟩

/-- Counting an eviction and dropping hints that are done. -/
theorem State.counted_keeps (s : State) (d : Dye) (m : PageMove) : let t := (s.bumpP .tier d TIER_D_EVICT).endSuspends
    t.movePte m = s.movePte m ∧ t.pageMoves = s.pageMoves ∧ (∀ f, t.frame f = s.frame f) ∧
    t.rdP .tier d TIER_D_EVICT = s.rdP .tier d TIER_D_EVICT + 1 ∧ t.farPages = s.farPages ∧ t.checkRecs = s.checkRecs ∧
    t.sram = s.sram ∧ t.acc = s.acc :=
  ⟨rfl, rfl, fun _ => rfl, State.rd_bump_self _ _ _, rfl, rfl, rfl, rfl⟩

/-! ### The two ends -/

section
variable (hmove : s.pageMoves[mv]? = some m) (horphan : m.orphan = none) (hsession : m.session = some slot) (hlayer : m.layer < 4096)
  (hpage : m.page < 16384) (hslot : slot < 65536) (hpte : s.movePte m = some p) (hdest : s.destOk m dest = true) (hwait : s.forkWait = [])
  (htables : ∀ c, s.ctx m.dye slot = some c → c.dir.holds m.layer m.page) (hclean : ((s.takeMove mv).pageBytes m.dye p).1.2 = false)
include hmove horphan hsession hlayer hpage hslot hpte hdest hwait htables hclean

/-- A page that admitted work moves from tier 1 to a host buffer (R153, R157). -/
theorem pageMoveComplete_evicted_answers (hcause : m.cause = 0) (hfrom : m.fromTier = 1) (hto : m.toTier = 3) (htier : p.tier = 1)
    (hhint : ∀ h, s.resumeHint m.dye slot = some h → h.started = false) :
    Answers (.pageMoveComplete mv ⟨false, none⟩ dest) s (fun t =>
      t.movePte m = some { p with tier := 3, frame := dest, busy := false } ∧ t.pageMoves = s.pageMoves.eraseIdx mv ∧
      (t.frame (p.frame.toNat % 2 ^ 24)).state = 0 ∧ t.rdP .tier m.dye TIER_D_EVICT = s.rdP .tier m.dye TIER_D_EVICT + 1 ∧
      tabGetList byteReset t.farPages (farKey 3 dest.toNat) 65536 = ((s.takeMove mv).pageBytes m.dye p).1.1 ∧
      tabGetList (fun _ => 0) t.checkRecs ((3 * 2 ^ 32 + dest.toNat) * 16) 16 = crcs ((s.takeMove mv).pageBytes m.dye p).1.1 ∧
      t.sram = s.sram ∧ t.acc = s.acc) := by
  obtain ⟨htraffic, hlen⟩ := (s.takeMove mv).pageBytes_local m.dye htier
  have hexec := execPageMoveComplete_arrives hmove horphan hpte hdest hclean (if_neg (by omega)) (.inl (by omega))
  generalize (s.takeMove mv).pageBytes m.dye p = b at htraffic hlen hexec ⊢
  have hentry := b.2.movePte_pageArrived m p dest b.1.1
  obtain ⟨hunmoved, hfar, hcrcs, hframe, hevict⟩ := State.pageArrived_host (s := b.2) (dest := dest) (bytes := b.1.1) hsession hslot
    hlayer hpage (fun c hc => htables c ((htraffic.ctx _ _).symm.trans hc)) htier hto
  obtain ⟨hfarReads, hcrcsRead⟩ := b.2.putFar_reads dest hlen
  generalize b.2.pageArrived m p dest b.1.1 = t at hexec hentry hunmoved hfar hcrcs hframe hevict
  have hall := htraffic.paged.unmoved.trans hunmoved
  have hends : t.moveEnds m = (t.bumpP .tier m.dye TIER_D_EVICT).endSuspends := by
    refine State.moveEnds_evicted hsession hcause hfrom hto (hall.forkWait.trans hwait) fun h hh => hhint h ?_
    rwa [State.resumeHint, hall.hints] at hh
  rw [hends] at hexec
  rw [hto] at hentry
  obtain ⟨hcEntry, hcMoves, hcFrame, hcEvict, hcFar, hcCrcs, hcSram, hcAcc⟩ := t.counted_keeps m.dye m
  refine ⟨_, hexec, hcEntry.trans hentry, hcMoves.trans hall.pageMoves, ?_, ?_, ?_, ?_, hcSram.trans hall.sram, hcAcc.trans hall.acc⟩
  · rw [hcFrame]
    exact hframe
  · rw [hcEvict, hevict]
    exact congrArg (· + 1) (htraffic.regs _ (not_trafficKey_evict _))
  · rw [hcFar, hfar]
    exact hfarReads
  · rw [hcCrcs, hcrcs]
    exact hcrcsRead

/-- A promoted page comes back from a host buffer to a frame of tier 1 (R153, R159). -/
theorem pageMoveComplete_promoted_answers (hcause : m.cause = 3) (hfrom : m.fromTier = 3) (hto : m.toTier = 1) (htier : p.tier = 3)
    (hclass : ∀ c, s.ctx m.dye slot = some c → s.kvClass m.dye c.cls = false)
    (hcheck : crcs (takePad 0 65536 ((s.takeMove mv).pageBytes m.dye p).1.1) =
      tabGetList (fun _ => 0) s.checkRecs ((3 * 2 ^ 32 + p.frame.toNat) * 16) 16) :
    Answers (.pageMoveComplete mv ⟨false, none⟩ dest) s (fun t =>
      t.movePte m = some { p with tier := 1, frame := dest, busy := false } ∧ t.pageMoves = s.pageMoves.eraseIdx mv ∧
      (t.frame (dest.toNat % 2 ^ 24)).state = 1 ∧ (t.frame (dest.toNat % 2 ^ 24)).owner = m.dye ∧ t.sram = s.sram ∧
      t.acc = s.acc) := by
  have htraffic := (s.takeMove mv).pageBytes_host m.dye htier
  rw [← hfrom] at hcheck
  have hexec := execPageMoveComplete_arrives hmove horphan hpte hdest hclean (if_pos (by omega)) (.inr hcheck)
  generalize (s.takeMove mv).pageBytes m.dye p = b at htraffic hexec
  have hentry := b.2.movePte_pageArrived m p dest (takePad 0 65536 b.1.1)
  obtain ⟨⟨e, hpaged⟩, hstate, howner, hctx⟩ := State.pageArrived_local (s := b.2) (dest := dest) (bytes := takePad 0 65536 b.1.1)
    hsession hslot hlayer hpage (fun c hc => htables c ((htraffic.ctx _ _).symm.trans hc)) htier hto
  generalize b.2.pageArrived m p dest (takePad 0 65536 b.1.1) = t at hexec hentry hpaged hstate howner hctx
  have hall := htraffic.paged.unmoved.trans ((Unmoved.withPtes b.2 e).trans hpaged.unmoved)
  have hkv : ∀ d cls, t.kvClass d cls = s.kvClass d cls := fun d cls => (hpaged.kvClass d cls).trans (htraffic.paged.kvClass d cls)
  obtain ⟨h, g, l, hends⟩ := State.moveEnds_promoted (s := t) hsession hcause hto (hall.forkWait.trans hwait) fun c hc =>
    (hkv _ _).trans (hclass c ((htraffic.ctx _ _).symm.trans ((hctx _ _).symm.trans hc)))
  rw [hends] at hexec
  rw [hto] at hentry
  exact ⟨_, hexec, hentry, hall.pageMoves, hstate, howner, hall.sram, hall.acc⟩

end

end

/-! ### The statement -/

/-- Settles O30, clause by clause. -/
theorem pageMoveResults : Obligations.PageMoveResults := by
  unfold Obligations.PageMoveResults
  intro s d session tier
  refine ⟨fun mv p => backgroundDemotion_answers, fun h => promotionStart_answers, fun mv m p dest => ?_, fun mv m p dest => ?_,
    fun mv read dest hnone => ⟨_, execPageMoveComplete_none hnone, rfl⟩, pinExpiry_answers s d session⟩
  · intro hmove horphan hcause hsession hfrom hto hlayer hpage hslot hpte htier hdest hwait hhint htables b hclean
    exact pageMoveComplete_evicted_answers hmove horphan hsession hlayer hpage hslot hpte hdest hwait htables hclean hcause hfrom hto
      htier hhint
  · intro hmove horphan hcause hsession hfrom hto hlayer hpage hslot hpte htier hdest hwait hctx b hclean hcheck
    have htables : ∀ c, s.ctx m.dye session = some c → c.dir.holds m.layer m.page := fun c hc => by
      obtain ⟨hroot, hl1, hl2, -⟩ := hctx c hc
      exact ⟨hroot, hl1, hl2⟩
    have hclass : ∀ c, s.ctx m.dye session = some c → s.kvClass m.dye c.cls = false := fun c hc => by
      obtain ⟨-, -, -, hkv⟩ := hctx c hc
      exact hkv
    exact pageMoveComplete_promoted_answers hmove horphan hsession hlayer hpage hslot hpte hdest hwait htables hclean hcause hfrom hto
      htier hclass hcheck

end Sys2Proof.Machine
end

section
/-! The Courier's exchange (R167 to R176): what its contents read after a change, its progress in DISPATCH, and the statement about
the descriptor it selects from and the messages it takes. -/

namespace Sys2Proof.Machine

section
variable {s : State} {r q : RegionNo}

/-! ### A Courier's contents -/

@[simp] theorem State.cou_setCou_self (s : State) (r : RegionNo) (c : CouSt) : (s.setCou r c).cou r = c := tabGet_tabSet_self _ _ _ _
theorem State.cou_setCou_other (s : State) (c : CouSt) (h : q ≠ r) : (s.setCou r c).cou q = s.cou q :=
  tabGet_tabSet_other _ _ _ fun e => h (Fin.ext e)

/-! ### Progress in DISPATCH (R172) -/

theorem State.couProgress_otherPhase (hphase : s.couPhase r ≠ 2) : s.couProgress r = s := if_pos (by simp [hphase])

/-- A home grants once: where its rows are placed, the grant round is over. -/
theorem State.grantRound_placed (hplaced : (s.cou r).placed.isSome = true) : s.grantRound r = s := by
  unfold State.grantRound
  dsimp only
  split
  · rfl
  · exact if_pos hplaced

section
variable {c e : CouSt} {d : Word512} {rr : RouteRecord} {pk rg : Nat} {l : List Grant}

/-- The one grant that has come is served: the home is noted, which leaves e, and the rows it grants are sent. -/
theorem State.takeGrants_one (hcou : s.cou r = c) (hcur : c.cur = some d) (hroute : c.route = some rr)
    (hgrant : c.grantQ = [(pk, rg, l)]) (hnoted : { c with grantQ := [], grants := c.grants ++ [(pk, rg)] } = e) :
    s.takeGrants r = l.foldl (fun u g => u.sendRows r (routeOf d) rr (pk, rg) g) (s.setCou r e) := by
  subst hcou hnoted
  simp only [State.takeGrants, hcur, hroute, hgrant, Option.map_some, List.map_cons, List.map_nil, List.foldl_cons, List.foldl_nil]

/-- A Courier whose rows are placed serves the one grant that has come, and shows how far its DISPATCH is. -/
theorem State.couProgress_grant {ps : List Placed} (hcou : s.cou r = c) (hruns : s.couRuns r = true) (hphase : s.couPhase r = 2)
    (hsel : c.selDone = true) (hactive : c.active = true) (hplaced : c.placed = some ps) (hcur : c.cur = some d)
    (hroute : c.route = some rr) (hgrant : c.grantQ = [(pk, rg, l)])
    (hnoted : { c with grantQ := [], grants := c.grants ++ [(pk, rg)] } = e) :
    let u := l.foldl (fun u g => u.sendRows r (routeOf d) rr (pk, rg) g) (s.setCou r e)
    s.couProgress r = if (u.cou r).active then u.setCouState r (u.dispatchState r) else u := by
  have hround : s.grantRound r = s := State.grantRound_placed (by rw [hcou, hplaced]; rfl)
  rw [State.couProgress, if_neg (by simp [hruns, hphase, hcou, hsel, hactive]), hround,
    State.takeGrants_one hcou hcur hroute hgrant hnoted]

end

/-! ### The messages that a Courier takes (R172) -/

theorem State.couOurs_active {x : ExTag} (h : s.couOurs r x = true) : (s.cou r).active = true := (Bool.and_eq_true_iff.1 h).2

theorem State.couOurs_of_not_couTakes {x : ExTag} (h : s.couTakes r x = false) : s.couOurs r x = false := by
  simp [State.couOurs, h]

end

section
variable {s : State} {r : RegionNo} {gen : ExTag}

/-! ### SELECT (R167 to R171) -/

/-- A descriptor at the head of the queue that passes every check is in service with its selections, and its tokens are counted. -/
theorem select_answers {d : Word512} {q : List Word512} {rd : (Nat × RouteRecord) × State}
    {e : (Nat × List (List SelEnt) × List Nat) × State} (hruns : s.couRuns r = true) (hphase : s.couPhase r = 1)
    (hidle : (s.cou r).active = false) (hqueue : (s.cou r).queue = d :: q) (hreserved : routeBad d = false)
    (hrecord : s.readRecord r (routeOf d).record = rd) (haddrs : s.routeAddrs r (routeOf d) = true) (hread : rd.1.1 = 0)
    (hmagic : rd.1.2.magic = 0x4F43) (hversion : rd.1.2.version = 1) (hlayer : rd.1.2.layer.toNat = (routeOf d).layer)
    (hselect : rd.2.selectTokens r (routeOf d) rd.1.2 (routeOf d).nTok = e) (hselected : e.1.1 = 0) :
    Answers (.select r) s (Settles (((((e.2.setCou r
      { queue := q, cur := some d, route := some rd.1.2, failed := false, selDone := true, sels := e.1.2.1, nans := e.1.2.2,
        counts := (s.cou r).counts, lastLayer := some (routeOf d).layer }).setFld (.cou r) COU_Q_STATUS 0 6 (32 - q.length)).bump
      (.cou r) COU_EVT_TOKENS (routeOf d).nTok).bump (.cou r) COU_EVT_NANTOKEN e.1.2.2.length).setCouState r cSELECT)) := by
  subst hrecord
  refine ⟨_, ?_, settles_settleAll _⟩
  change execSelect r s = _
  rw [execSelect, if_neg (by simp [hruns, hphase, hidle]), hqueue]
  dsimp -zeta only
  extract_lets x rd rr code t bad c1 s1 s2
  have hcode : code = 0 := by simp [code, x, rd, rr, hreserved, haddrs, hread, hmagic, hversion, hlayer]
  have ht : t = e := (if_pos hcode).trans hselect
  have hbad : bad = False := by simp only [bad, ht, hselected, ne_eq, not_true]
  simp only [s2, s1, c1, hbad, ht, if_false, decide_false]
  rfl

/-! ### Counts (R172, round 1) -/

/-- A count message whose source has none kept for its exchange is kept. -/
theorem countMessage_answers (htakes : s.couTakes r gen = true) {pk rg : Nat} {l : List (Nat × Nat)} (hphase : s.couPhase r ≠ 2)
    (hnew : ∀ y ∈ (s.cou r).counts, ¬(y.layer = gen.layer ∧ y.start = gen.start ∧ y.pkg = pk ∧ y.rgn = rg)) :
    Answers (.countMessage r pk rg gen l) s (fun t =>
      (t.cou r).counts = (s.cou r).counts ++ [{ layer := gen.layer, start := gen.start, pkg := pk, rgn := rg, counts := l }] ∧
      (∀ q, q ≠ r → t.cou q = s.cou q) ∧ t = { s with cous := t.cous }) := by
  have hkept : (s.cou r).counts.any
      (fun q => q.layer == gen.layer && q.start == gen.start && q.pkg == pk && q.rgn == rg) = false := by
    simpa [and_assoc] using hnew
  refine ⟨s.setCou r { s.cou r with
    counts := (s.cou r).counts ++ [{ layer := gen.layer, start := gen.start, pkg := pk, rgn := rg, counts := l }] }, ?_,
    congrArg CouSt.counts (s.cou_setCou_self r _), fun q hq => s.cou_setCou_other _ hq, rfl⟩
  change execCountMessage r pk rg gen l s = _
  rw [execCountMessage, if_neg (by simp [htakes]), if_neg (Bool.eq_false_iff.1 hkept)]
  exact congrArg Host.Outcome.next (State.couProgress_otherPhase hphase)

/-! ### Grants (R172, rounds 2 and 3) -/

/-- A grant of a home that has not granted yet: the home is noted, and the rows it grants are sent. -/
theorem grantMessage_answers (hours : s.couOurs r gen = true) {pk rg : Nat} {l : List Grant} {d : Word512} {rr : RouteRecord}
    {ps : List Placed} (hruns : s.couRuns r = true) (hphase : s.couPhase r = 2) (hsel : (s.cou r).selDone = true)
    (hnew : (pk, rg) ∉ (s.cou r).grants) (hnone : (s.cou r).grantQ = []) (hcur : (s.cou r).cur = some d)
    (hroute : (s.cou r).route = some rr) (hplaced : (s.cou r).placed = some ps) :
    let u := l.foldl (fun u g => u.sendRows r (routeOf d) rr (pk, rg) g)
      ((s.setCou r { s.cou r with grantQ := [(pk, rg, l)] }).setCou r { s.cou r with grants := (s.cou r).grants ++ [(pk, rg)] })
    Answers (.grantMessage r pk rg gen l) s (Settles (if (u.cou r).active = true then u.setCouState r (u.dispatchState r) else u)) := by
  intro u
  refine ⟨_, ?_, settles_settleAll _⟩
  change execGrantMessage r pk rg gen l s = _
  rw [execGrantMessage, if_neg (by simp [hours, hsel, hnew, hnone]), hnone, List.nil_append]
  have hprogress := State.couProgress_grant (s.cou_setCou_self r { s.cou r with grantQ := [(pk, rg, l)] }) hruns hphase hsel
    (State.couOurs_active hours) hplaced hcur hroute rfl
    (congrArg (fun w => { s.cou r with grantQ := w, grants := (s.cou r).grants ++ [(pk, rg)] }) hnone.symm)
  exact congrArg (fun v : State => Host.Outcome.next v.settleAll) hprogress

/-! ### Rows (R173 to R175) -/

/-- Where a row goes: its place in its expert's list, behind the list's header, or in the pool. -/
def State.rowAddr (s : State) (r : RegionNo) (rr : RouteRecord) (ex row : Nat) (pool : Bool) : Nat :=
  if pool then (s.rd64 (.cou r) COU_OVF_IN_L).toNat % 2 ^ 48 + row * (dispOf rr)
  else ((rr.experts[ex]?).map (fun e => e.inAddr.toNat)).getD 0 + 256 + row * (dispOf rr)

/-- A row written to its place is noted with its tag. -/
theorem dispatchRow_answers (hours : s.couOurs r gen = true) {ex row gid rank : Nat} {pool : Bool} {data : List Byte}
    {rr : RouteRecord} {ps : List Placed} {w : WrRes × State} (hroute : (s.cou r).route = some rr)
    (hplaced : (s.cou r).placed = some ps)
    (hwrite : s.write (.courier r) (s.rowAddr r rr ex row pool) (takePad 0 (dispOf rr) data) = w) (hok : w.1 = .ok) :
    Answers (.dispatchRow r gen ex row pool gid rank data true) s (Settles (((w.2.setCou r { (w.2.cou r) with
      tags := (s.cou r).tags ++ [{ expert := ex, row := row, pool := pool, gid := gid, rank := rank }] }).writeHeaders
      r).couProgress r)) := by
  subst hwrite
  refine ⟨_, ?_, settles_settleAll _⟩
  change execDispatchRow r gen ex row pool gid rank data true s = _
  rw [execDispatchRow, if_neg (by simp [hours]), hroute, hplaced]
  calc _ = _ := if_neg (by simp)
    _ = _ := if_neg (not_not.2 hok)

/-! ### Return rows (R176) -/

/-- The first return row of a selection goes to its slot of the return table and is noted, as is a token that it poisons. -/
theorem returnRow_answers (hours : s.couOurs r gen = true) {n rank : Nat} {data : List Byte} {ok : Bool} {d : Word512}
    {rr : RouteRecord} {w : WrRes × State} (hcur : (s.cou r).cur = some d) (hroute : (s.cou r).route = some rr)
    (hnew : (n, rank) ∉ (s.cou r).returned)
    (hwrite : s.write (.courier r) ((routeOf d).res + (n * rr.k + rank) * (combOf rr)) (takePad 0 (combOf rr) data) = w)
    (hok : w.1 = .ok) :
    Answers (.returnRow r gen n rank data ok) s (Settles ((w.2.setCou r { (w.2.cou r) with
      returned := (s.cou r).returned ++ [(n, rank)],
      poisoned := if ok then (s.cou r).poisoned else (s.cou r).poisoned ++ [n] }).combineReady r)) := by
  refine ⟨_, ?_, settles_settleAll _⟩
  change execReturnRow r gen n rank data ok s = _
  rw [execReturnRow, if_neg (by simp [hours]), hcur, hroute]
  dsimp only [Option.map_some]
  rw [if_neg (by simp [hnew]), hwrite]
  simp only [hok, reduceCtorEq, if_false, decide_true, Bool.and_true]

/-! ### Messages that are discarded (R172) -/

theorem countMessage_discarded (htakes : s.couTakes r gen = false) (a b : Nat) (l : List (Nat × Nat)) :
    Answers (.countMessage r a b gen l) s (fun t => t = s) := ⟨s, if_pos (by simp [htakes]), rfl⟩

/-- Grants and rows that are not of the exchange in service do nothing. -/
theorem grantsAndRows_discarded (hours : s.couOurs r gen = false) (a b : Nat) (h : List Grant) (ex row : Nat) (pool : Bool)
    (gid rank : Nat) (data : List Byte) (ok : Bool) : ∀ i ∈ [Instr.grantMessage r a b gen h,
      .dispatchRow r gen ex row pool gid rank data ok, .returnRow r gen a b data ok], Answers i s (fun t => t = s) := by
  simp only [List.forall_mem_cons]
  exact ⟨⟨s, if_pos (by simp [hours]), rfl⟩, ⟨s, if_pos (by simp [hours]), rfl⟩, ⟨s, if_pos (by simp [hours]), rfl⟩, nofun⟩

end

/-! ### The statement -/

/-- Settles O32, message by message. -/
theorem courierResults : Obligations.CourierResults := by
  unfold Obligations.CourierResults
  intro s r gen
  refine ⟨fun d q hruns hphase hidle hqueue hreserved => ?_, fun htakes pk rg l => countMessage_answers htakes,
    fun hours => ⟨fun pk rg l d rr ps => grantMessage_answers hours, fun ex row pool gid rank data rr ps hroute hplaced => ?_,
      fun n rank data ok d rr hcur hroute hnew => returnRow_answers hours hcur hroute hnew rfl⟩, fun htakes => ?_,
    grantsAndRows_discarded⟩
  · exact fun haddrs hread hmagic hversion hlayer =>
      select_answers hruns hphase hidle hqueue hreserved rfl haddrs hread hmagic hversion hlayer rfl
  · exact dispatchRow_answers hours hroute hplaced rfl
  · exact fun a b l h ex row pool gid rank data ok => List.forall_mem_cons.2 ⟨countMessage_discarded htakes a b l,
      grantsAndRows_discarded (State.couOurs_of_not_couTakes htakes) a b h ex row pool gid rank data ok⟩

end Sys2Proof.Machine
end

section
/-! SUPPORT. A Drover's contexts and their status (R182, R187, R199, Tables 8-8 and 8-9), and the weight sets' states (Table 8-2): what
the operations that the commands of chapter 8 share can change. -/

namespace Sys2Proof.Machine

/-! ### A context -/

@[simp] theorem State.drv_setDrv_self (s : State) (e : Fin 8) (d : Dye) (c : DrvCtx) : (s.setDrv e d c).drv e d = c :=
  tabGet_tabSet_self _ _ _ _

section
variable {ks : List Nat} {s t : State}

theorem OnlyRegsIn.drv (h : OnlyRegsIn ks s t) (e : Fin 8) (d : Dye) : t.drv e d = s.drv e d := by
  obtain ⟨g, rfl, -⟩ := h
  rfl

theorem OnlyRegsIn.wset (h : OnlyRegsIn ks s t) (d : Dye) (w : Nat) : t.wset d w = s.wset d w := by
  obtain ⟨g, rfl, -⟩ := h
  rfl

/-- Where a context is replaced and then only registers change, nothing else does. -/
theorem OnlyRegsIn.context {e : Fin 8} {d : Dye} {c : DrvCtx} (h : OnlyRegsIn ks (s.setDrv e d c) t) :
    t.drv e d = c ∧ SameRegsBut ks s t ∧ t = { s with regs := t.regs, drvs := t.drvs } := by
  refine ⟨(h.drv e d).trans (s.drv_setDrv_self e d c), ?_⟩
  obtain ⟨g, rfl, hsame⟩ := h
  exact ⟨hsame, rfl⟩

/-- A field of one bit, cleared. -/
theorem State.bit_setBit_false (s : State) (w : Win) (o : Nat) {i : Nat} (hi : i < 32) : (s.setBit w o i false).bit w o i = false :=
  congrArg (· == 1) (State.fld_setFld_self s w o i 1 0 hi)

end

/-! ### The status of a context and of its engine -/

section
variable (s : State) (e : Fin 8) (d : Dye)

/-- DRV_D_STATUS shows a state and the oldest active stream. -/
def State.showContext (st oldest : Nat) : State :=
  (s.setFld (.drv e) (pageOff d DRV_D_STATUS) 0 3 st).setFld (.drv e) (pageOff d DRV_D_STATUS) 16 16 oldest
/-- DRV_STATUS shows a state and the count of active streams. -/
def State.showEngine (st n : Nat) : State := (s.setFld (.drv e) DRV_STATUS 0 3 st).setFld (.drv e) DRV_STATUS 3 8 n

/-- The registers that show the state of a context and of its engine. -/
abbrev drvStatusKeys : List Nat := [regKey (.drv e) (pageOff d DRV_D_STATUS), regKey (.drv e) DRV_STATUS]

theorem regKey_notMem_drvStatusKeys {o : Nat} (ho : o ≠ DRV_D_STATUS) : regKey (.drv e) (pageOff d o) ∉ drvStatusKeys e d := by
  simpa using ⟨regKey_page_ne _ d ho, regKey_page_ne_low _ d (by decide)⟩

/-- What drvFollow can do: a context that is being cleared is not shown, a STOPPED one is shown as such and another is not, and then the
engine may be shown. -/
theorem State.drvFollow_cases : ∃ u,
    (u = s ∨ ∃ st oldest, st < 2 ^ 3 ∧ (st = 3 ↔ s.drvStopped e d = true) ∧ u = s.showContext e d st oldest) ∧
    (s.drvFollow e d = u ∨ ∃ st n, s.drvFollow e d = u.showEngine e st n) := by
  unfold State.drvFollow
  extract_lets c waits st oldest u n loading clears
  refine ⟨u, ?_, ?_⟩
  · by_cases hclear : c.clearing = true
    · exact .inl (if_pos hclear)
    · refine .inr ⟨st, oldest, ?_, ?_, if_neg hclear⟩
      · unfold st
        split_ifs <;> decide
      · unfold st
        split_ifs <;> simp_all
  · split
    · exact .inl rfl
    · exact .inr ⟨_, _, rfl⟩

theorem State.showContext_onlyRegs (st oldest : Nat) : OnlyRegsIn (drvStatusKeys e d) s (s.showContext e d st oldest) :=
  ((OnlyRegsIn.refl _ s).setFld _ _ _ _ _ (by simp)).setFld _ _ _ _ _ (by simp)

theorem State.showEngine_onlyRegs (st n : Nat) : OnlyRegsIn [regKey (.drv e) DRV_STATUS] s (s.showEngine e st n) :=
  ((OnlyRegsIn.refl _ s).setFld _ _ _ _ _ (by simp)).setFld _ _ _ _ _ (by simp)

theorem State.drvFollow_onlyRegs : OnlyRegsIn (drvStatusKeys e d) s (s.drvFollow e d) := by
  obtain ⟨u, hcontext, hengine⟩ := s.drvFollow_cases e d
  have hu : OnlyRegsIn (drvStatusKeys e d) s u := by
    obtain rfl | ⟨st, oldest, -, -, rfl⟩ := hcontext
    · exact .refl _ _
    · exact s.showContext_onlyRegs e d st oldest
  obtain h | ⟨st, n, h⟩ := hengine
  · rwa [h]
  · rw [h]
    exact hu.trans (u.showEngine_onlyRegs e st n) (by simp)

theorem State.drvStopped_showContext {st : Nat} (hst : st < 2 ^ 3) (oldest : Nat) :
    (s.showContext e d st oldest).drvStopped e d = (st == 3) := by
  rw [State.drvStopped, State.showContext, State.fld_setFld_below _ _ _ _ _ _ _ _ (by decide) (by decide),
    State.fld_setFld_self _ _ _ _ _ _ (by decide), Nat.mod_eq_of_lt hst]

/-- A context is STOPPED after its status has followed just where it was before. -/
theorem State.drvStopped_drvFollow : (s.drvFollow e d).drvStopped e d = s.drvStopped e d := by
  obtain ⟨u, hcontext, hengine⟩ := s.drvFollow_cases e d
  have hu : u.drvStopped e d = s.drvStopped e d := by
    obtain rfl | ⟨st, oldest, hst, hstop, rfl⟩ := hcontext
    · rfl
    · rw [State.drvStopped_showContext s e d hst, Bool.eq_iff_iff, ← hstop, beq_iff_eq]
  obtain h | ⟨st, n, h⟩ := hengine
  · rw [h, hu]
  · rw [h, ← hu]
    exact congrArg (· == 3) ((u.showEngine_onlyRegs e st n).fld _ _ _ _ fun hk =>
      regKey_page_ne_low (.drv e) d (by decide) (List.mem_singleton.1 hk))

/-- STATE of DRV_D_STATUS, set: a context is STOPPED from then on or is not. -/
theorem State.drvStopped_setState {v : Nat} (hv : v < 2 ^ 3) :
    (s.setFld (.drv e) (pageOff d DRV_D_STATUS) 0 3 v).drvStopped e d = (v == 3) := by
  rw [State.drvStopped, State.fld_setFld_self _ _ _ _ _ _ (by decide), Nat.mod_eq_of_lt hv]

end

/-! ### The states of weight sets -/

section
variable (s : State) (d : Dye) (w v : Nat)

/-- The registers that show a weight set's state, one on each engine. -/
abbrev wstateKeys : List Nat := (List.finRange 8).map fun e => regKey (.drv e) (pageOff d (DRV_D_WSTATE + 4 * (w / 8)))

theorem State.setWstate_onlyRegs : OnlyRegsIn (wstateKeys d w) s (s.setWstate d w v) :=
  foldl_keeps (P := OnlyRegsIn (wstateKeys d w) s) (fun _ e ht => ht.setFld _ _ _ _ _ (by simp)) _ s (.refl _ s)

theorem regKey_drv_page_ne {e q : Fin 8} (h : q ≠ e) (o : Nat) : regKey (.drv q) (pageOff d o) ≠ regKey (.drv e) (pageOff d o) := by
  have := Fin.val_ne_of_ne h
  simp only [regKey, winIndex, pageOff]
  omega

/-- A field of a dye's page, written on the engines of a list. -/
theorem State.fld_setEngines {o lo n : Nat} (hn : lo + n ≤ 32) (q : Fin 8) : ∀ (l : List (Fin 8)) (s : State),
    (l.foldl (fun t e => t.setFld (.drv e) (pageOff d o) lo n v) s).fld (.drv q) (pageOff d o) lo n =
      if q ∈ l then v % 2 ^ n else s.fld (.drv q) (pageOff d o) lo n
  | [], _ => rfl
  | e :: l, s => by
    rw [List.foldl_cons, State.fld_setEngines hn q l]
    by_cases hq : q = e
    · subst hq
      simp [State.fld_setFld_self s _ _ _ _ v hn]
    · rw [State.fld_setFld_other _ _ _ _ _ _ _ _ _ _ (regKey_drv_page_ne d hq o)]
      simp [hq]

/-- A set is in the state that it was given. -/
theorem State.wstate_setWstate (w : Nat) {v : Nat} (hv : v < 2 ^ 4) : (s.setWstate d w v).wstate d w = v :=
  (State.fld_setEngines d v (by omega) 0 _ s).trans
    ((if_pos (List.mem_finRange 0)).trans (Nat.mod_eq_of_lt hv))

@[simp] theorem State.wset_setWset_self (x : Option WsetSt) : (s.setWset d w x).wset d w = x := tabGet_tabSet_self _ _ _ _

theorem State.wset_setWset_none (h : ∀ v, s.wset d v = none) : (s.setWset d w none).wset d v = none := by
  by_cases hv : v = w
  · rw [hv, State.wset_setWset_self]
  · exact (tabGet_tabSet_other _ _ _ fun hk => hv (Nat.add_left_cancel hk)).trans (h v)

end

end Sys2Proof.Machine
end

section
/-! A Drover's control, plan and share registers and the clear of a dye (R187, R198 to R200, Tables 8-5 to 8-7), and the statement about
them. -/

namespace Sys2Proof.Machine

section
variable {s : State} {e : Fin 8} {d : Dye} {m : Master}

/-! ### DRV_D_CTRL (R198, R200) -/

/-- The dye's region controllers of the engine's die, controllers of regions without a tenant, and the management partition. -/
abbrev MayControl (s : State) (m : Master) (e : Fin 8) (d : Dye) : Prop :=
  m = .vf 0 ∨ ∃ r, m = .regionController r ∧ ((s.owner r = d ∧ regionDie r = engineDie e) ∨ s.owner r = 0)

theorem State.drvCtrl_allowed (hm : MayControl s m e d) (f : State → State) : s.drvCtrl m e d f = (f s).answer [] := by
  obtain rfl | ⟨r, rfl, ⟨howner, hdie⟩ | howner⟩ := hm
  · rfl
  · simp [State.drvCtrl, howner, hdie]
  · simp [State.drvCtrl, howner]

/-- An active stream that keeps its slot and starts again from its first chunk. -/
def ActiveStream.restart (a : ActiveStream) : ActiveStream := { idx := a.idx, entry := a.entry, start := a.start }

/-- A context whose active streams start again. -/
def DrvCtx.restart (c : DrvCtx) : DrvCtx := { c with active := c.active.map ActiveStream.restart }

theorem DrvCtx.active_restart (c : DrvCtx) :
    (∀ x ∈ c.restart.active, x.granule = 0 ∧ x.carry = [] ∧ x.written = 0 ∧ x.complete = false) ∧
    c.restart.active.map (·.key) = c.active.map (·.key) := by
  refine ⟨fun x hx => ?_, by simp [DrvCtx.restart, ActiveStream.restart, ActiveStream.key, Function.comp_def]⟩
  obtain ⟨a, -, rfl⟩ := List.mem_map.1 hx
  exact ⟨rfl, rfl, rfl, rfl⟩

theorem drvStop_answers (hm : MayControl s m e d) : Answers (.drvStop m e d) s (fun t => t.drvStopped e d = true ∧
    (∀ x ∈ (t.drv e d).active, x.granule = 0 ∧ x.carry = [] ∧ x.written = 0 ∧ x.complete = false) ∧
    (t.drv e d).active.map (·.key) = (s.drv e d).active.map (·.key) ∧ SameRegsBut (drvStatusKeys e d) s t ∧
    t = { s with regs := t.regs, resp := t.resp, drvs := t.drvs }) := by
  let u := (s.setDrv e d (s.drv e d).restart).setFld (.drv e) (pageOff d DRV_D_STATUS) 0 3 3
  have hu : OnlyRegsIn (drvStatusKeys e d) (s.setDrv e d (s.drv e d).restart) u := (OnlyRegsIn.refl _ _).setFld _ _ _ _ _ (by simp)
  have hstopped : (u.drvFollow e d).drvStopped e d = true :=
    (u.drvStopped_drvFollow e d).trans (State.drvStopped_setState _ e d (by decide))
  obtain ⟨hdrv, hsame, hframe⟩ := (hu.trans (u.drvFollow_onlyRegs e d) (List.Subset.refl _)).context
  obtain ⟨hactive, hkeys⟩ := (s.drv e d).active_restart
  refine ⟨(u.drvFollow e d).answer [], congrArg Host.Outcome.next (State.drvCtrl_allowed hm _), hstopped, ?_, ?_, hsame,
    congrArg (State.answer · []) hframe⟩
  · exact fun x hx => hactive x (hdrv ▸ hx)
  · exact (congrArg (fun c : DrvCtx => c.active.map (·.key)) hdrv).trans hkeys

theorem drvGo_answers (hm : MayControl s m e d) (hstopped : s.drvStopped e d = true) (replay : Bool) :
    Answers (.drvGo m e d replay) s (fun t => t.drvStopped e d = false ∧ SameRegsBut (drvStatusKeys e d) s t ∧ OnlyRegs s t) := by
  let u := s.setFld (.drv e) (pageOff d DRV_D_STATUS) 0 3 0
  have hu : OnlyRegsIn (drvStatusKeys e d) s u := (OnlyRegsIn.refl _ _).setFld _ _ _ _ _ (by simp)
  have hruns : (u.drvFollow e d).drvStopped e d = false :=
    (u.drvStopped_drvFollow e d).trans (State.drvStopped_setState _ e d (by decide))
  have hgo : s.drvGo e d = u.drvFollow e d := if_pos hstopped
  exact ⟨(u.drvFollow e d).answer [], congrArg Host.Outcome.next ((State.drvCtrl_allowed hm _).trans (congrArg (State.answer · []) hgo)),
    hruns, (hu.trans (u.drvFollow_onlyRegs e d) (List.Subset.refl _)).answer []⟩

theorem drvErrAck_answers (hm : MayControl s m e d) : Answers (.drvErrAck m e d) s (fun t =>
    t.bit (.drv e) (pageOff d DRV_D_STATUS) 4 = false ∧ SameRegsBut [regKey (.drv e) (pageOff d DRV_D_STATUS)] s t ∧ OnlyRegs s t) :=
  ⟨_, congrArg Host.Outcome.next (State.drvCtrl_allowed hm _), s.bit_setBit_false _ _ (by decide),
    ((OnlyRegsIn.refl _ s).setFld _ _ _ _ _ (List.mem_singleton_self _)).answer []⟩

/-! ### The plan (R184, R214) -/

/-- A context whose plan of a lane lies at an address. -/
def DrvCtx.setPlan (c : DrvCtx) (lane : Bool) (a : Nat) : DrvCtx := if lane then { c with planP := a } else { c with planD := a }

/-- A context that knows of the streams of the steps in a list alone. -/
def DrvCtx.keepSteps (c : DrvCtx) (known : List Nat) : DrvCtx :=
  let keep := fun (l : List (Nat × Nat)) => l.filter fun k => known.contains k.1
  { c with ended := keep c.ended, skipped := keep c.skipped, failed := keep c.failed, released := keep c.released }

/-- The STARTs of a context's plans and of the dye's other steps on the package. -/
def State.stepStarts (s : State) (e : Fin 8) (d : Dye) (c : DrvCtx) : List Nat :=
  [s.planStart e d c.planD, s.planStart e d c.planP] ++ (s.plans.filter fun q => q.plan.dye == d).map fun q => q.plan.start.toNat

/-- The context after a plan is written. -/
def State.planned (s : State) (e : Fin 8) (d : Dye) (a : Nat) : DrvCtx :=
  let c := (s.drv e d).setPlan (s.planLane e d a) a
  c.keepSteps (s.stepStarts e d c)

theorem State.drvPlan_eq (s : State) (e : Fin 8) (d : Dye) (a : Addr) : s.drvPlan e d a =
    ((s.wr64 (.drv e) (pageOff d DRV_D_PLAN_L) (BitVec.ofNat 64 a.toNat)).setDrv e d (s.planned e d a.toNat)).drvFollow e d := by
  unfold State.drvPlan State.planned DrvCtx.setPlan DrvCtx.keepSteps
  dsimp only
  cases s.planLane e d a.toNat <;> rfl

/-- The plan is its lane's; the other lane's plan, the active streams and the buffers held stay. -/
theorem State.planned_results (s : State) (e : Fin 8) (d : Dye) (a : Nat) :
    (if s.planLane e d a = true then (s.planned e d a).planP = a ∧ (s.planned e d a).planD = (s.drv e d).planD
      else (s.planned e d a).planD = a ∧ (s.planned e d a).planP = (s.drv e d).planP) ∧
    (s.planned e d a).active = (s.drv e d).active ∧ (s.planned e d a).held = (s.drv e d).held := by
  unfold State.planned DrvCtx.setPlan DrvCtx.keepSteps
  cases s.planLane e d a <;> exact ⟨⟨rfl, rfl⟩, rfl, rfl⟩

/-- An address of 48 bits reads back from DRV_D_PLAN. -/
theorem State.planAt_wr64 (s : State) (e : Fin 8) (d : Dye) (a : Addr) :
    (s.wr64 (.drv e) (pageOff d DRV_D_PLAN_L) (BitVec.ofNat 64 a.toNat)).planAt e d = a.toNat := by
  have := a.isLt
  rw [State.planAt, rd64_wr64 _ _ _ _ (regKey_ne (by omega)), BitVec.toNat_ofNat]
  omega

theorem State.planAt_drvFollow (s : State) (e : Fin 8) (d : Dye) : (s.drvFollow e d).planAt e d = s.planAt e d := by
  have hlow := (s.drvFollow_onlyRegs e d).rd (.drv e) (pageOff d DRV_D_PLAN_L) (regKey_notMem_drvStatusKeys e d (by decide))
  have hhigh := (s.drvFollow_onlyRegs e d).rd (.drv e) (pageOff d DRV_D_PLAN_L + 4)
    (regKey_notMem_drvStatusKeys e d (o := DRV_D_PLAN_L + 4) (by decide))
  rw [State.planAt, State.planAt, State.rd64, State.rd64, hlow, hhigh]

theorem drvPlanWrite_answers (s : State) (e : Fin 8) (d : Dye) (a : Addr) :
    Answers (.drvPlanWrite .innkeeper e d a) s (fun t => t.planAt e d = a.toNat ∧
      (if s.planLane e d a.toNat = true then (t.drv e d).planP = a.toNat ∧ (t.drv e d).planD = (s.drv e d).planD
        else (t.drv e d).planD = a.toNat ∧ (t.drv e d).planP = (s.drv e d).planP) ∧
      (t.drv e d).active = (s.drv e d).active ∧ (t.drv e d).held = (s.drv e d).held ∧
      SameRegsBut ([regKey (.drv e) (pageOff d DRV_D_PLAN_L), regKey (.drv e) (pageOff d (DRV_D_PLAN_L + 4))] ++ drvStatusKeys e d) s t ∧
      t = { s with regs := t.regs, resp := t.resp, drvs := t.drvs }) := by
  let u := (s.setDrv e d (s.planned e d a.toNat)).wr64 (.drv e) (pageOff d DRV_D_PLAN_L) (BitVec.ofNat 64 a.toNat)
  have hu : OnlyRegsIn ([regKey (.drv e) (pageOff d DRV_D_PLAN_L), regKey (.drv e) (pageOff d (DRV_D_PLAN_L + 4))] ++ drvStatusKeys e d)
      (s.setDrv e d (s.planned e d a.toNat)) u :=
    ((OnlyRegsIn.refl _ _).wr _ _ _ (by simp)).wr _ _ _ (by simp [pageOff, Nat.add_assoc])
  have hexec : execDrvPlanWrite .innkeeper e d a s = .next ((u.drvFollow e d).answer []) :=
    congrArg (fun t => Host.Outcome.next (State.answer t [])) (s.drvPlan_eq e d a)
  obtain ⟨hdrv, hsame, hframe⟩ := (hu.trans (u.drvFollow_onlyRegs e d) (List.subset_append_right _ _)).context
  obtain ⟨hlane, hactive, hheld⟩ := s.planned_results e d a.toNat
  rw [← hdrv] at hlane hactive hheld
  exact ⟨_, hexec, (u.planAt_drvFollow e d).trans (State.planAt_wr64 _ e d a), hlane, hactive, hheld, hsame,
    congrArg (State.answer · []) hframe⟩

/-! ### Shares (R187) -/

/-- What the shares of an engine come to where a dye's becomes the one written. -/
abbrev State.shareSum (s : State) (e : Fin 8) (d : Dye) (v : Word32) : Nat :=
  (((List.finRange 16).filter (· ≠ d)).map fun q => s.fld (.drv e) (DRV_SHARE + 4 * q.val) 0 9).sum + bitsOf v 0 9

theorem drvShareWrite_answers {v : Word32} (hdye : s.dyeOf m = 0) (hsum : s.shareSum e d v ≤ 256) :
    Answers (.drvShareWrite m e d v) s (fun t => t.rd (.drv e) (DRV_SHARE + 4 * d.val) = BitVec.ofNat 32 (bitsOf v 0 9) ∧
      SameRegsBut [regKey (.drv e) (DRV_SHARE + 4 * d.val)] s t ∧ OnlyRegs s t) :=
  ⟨_, if_neg (not_or.2 ⟨not_not.2 hdye, Nat.not_lt.2 hsum⟩), State.rd_wr_self s _ _ _,
    ((OnlyRegsIn.refl _ s).wr _ _ _ (List.mem_singleton_self _)).answer []⟩

theorem drvShareWrite_refused {v : Word32} (hsum : 256 < s.shareSum e d v) :
    Answers (.drvShareWrite m e d v) s (fun t => t = { s with resp := t.resp } ∧ t.resp.permission = true) :=
  ⟨_, if_pos (.inr hsum), permissionError_results s 4⟩

/-! ### The clear of a dye (R199) -/

/-- Only registers, the Drovers' contexts, the bytes that they count and the weight sets change. -/
def OnlyDrover (s t : State) : Prop := ∃ g a b x, t = { s with regs := g, drvs := a, drvRem := b, wsets := x }

theorem OnlyDrover.trans {t u : State} (h : OnlyDrover s t) (h' : OnlyDrover t u) : OnlyDrover s u := by
  obtain ⟨_, _, _, _, rfl⟩ := h
  obtain ⟨_, _, _, _, rfl⟩ := h'
  exact ⟨_, _, _, _, rfl⟩

theorem OnlyRegsIn.onlyDrover {ks : List Nat} {t : State} (h : OnlyRegsIn ks s t) : OnlyDrover s t := by
  obtain ⟨_, rfl, -⟩ := h
  exact ⟨_, _, _, _, rfl⟩

theorem OnlyDrover.setDrv (s : State) (e : Fin 8) (d : Dye) (c : DrvCtx) : OnlyDrover s (s.setDrv e d c) := ⟨_, _, _, _, rfl⟩
theorem OnlyDrover.setWset (s : State) (d : Dye) (w : Nat) (x : Option WsetSt) : OnlyDrover s (s.setWset d w x) := ⟨_, _, _, _, rfl⟩
theorem OnlyDrover.resetWin (s : State) (w : Win) (lo hi : Nat) : OnlyDrover s (s.resetWin w lo hi) := ⟨_, _, _, _, rfl⟩

theorem State.emptyWset_none {w : Nat} (h : s.wset d w = none) : s.emptyWset d w = (s.setWset d w none).setWstate d w wEMPTY := by
  rw [State.emptyWset, h]

/-- A dye without weight sets stays so when a set of it is emptied. -/
theorem OnlyDrover.emptyWset (hnone : ∀ w, s.wset d w = none) (w : Nat) :
    OnlyDrover s (s.emptyWset d w) ∧ ∀ v, (s.emptyWset d w).wset d v = none := by
  have hstate := (s.setWset d w none).setWstate_onlyRegs d w wEMPTY
  rw [State.emptyWset_none (hnone w)]
  exact ⟨(OnlyDrover.setWset s d w none).trans hstate.onlyDrover, fun v => (hstate.wset d v).trans (s.wset_setWset_none d w v hnone)⟩

theorem OnlyDrover.emptyWsets (hnone : ∀ w, s.wset d w = none) (ws : List Nat) :
    OnlyDrover s (ws.foldl (fun t w => t.emptyWset d w) s) :=
  (foldl_keeps (P := fun t => OnlyDrover s t ∧ ∀ w, t.wset d w = none)
    (fun _ w ht => (OnlyDrover.emptyWset ht.2 w).imp_left ht.1.trans) ws s ⟨⟨_, _, _, _, rfl⟩, hnone⟩).1

theorem OnlyDrover.drvClear (hnone : ∀ w, s.wset d w = none) : OnlyDrover s (s.drvClear e d) := by
  unfold State.drvClear
  extract_lets s1 s2
  have hcleared : OnlyDrover s s2 := ((OnlyDrover.emptyWsets hnone _).trans (.setDrv s1 e d _)).trans (.resetWin _ _ _ _)
  exact (hcleared.trans (s2.drvFollow_onlyRegs e d).onlyDrover).trans ⟨_, _, _, _, rfl⟩

/-- A page that is reset reads its reset values. -/
theorem State.rdP_resetPage (s : State) (w : Win) (d : Dye) {o : Nat} (ho : o < 0x100) :
    (s.resetWin w (pageOff d 0) (pageOff d 0x100)).rdP w d o = regReset (regKey w (pageOff d o)) :=
  (tabGet_tabClear ..).trans (if_pos (by simp only [regKey, pageOff]; omega))

theorem drvDyeClear_answers (hnone : ∀ w, s.wset d w = none) : Answers (.drvDyeClear e d) s (fun t => t.drv e d = {} ∧
    (∀ o < 0x100, t.rdP (.drv e) d o = regReset (regKey (.drv e) (pageOff d o))) ∧ SameMemory s t ∧
    t = { s with regs := t.regs, drvs := t.drvs, wsets := t.wsets, drvRem := t.drvRem }) := by
  let u := ((s.drvClear e d).setDrv e d {}).drvFollow e d
  let t := u.resetWin (.drv e) (pageOff d 0) (pageOff d 0x100)
  have hfollow := ((s.drvClear e d).setDrv e d {}).drvFollow_onlyRegs e d
  obtain ⟨g, a, b, x, hframe⟩ : OnlyDrover s t :=
    (((OnlyDrover.drvClear hnone).trans (.setDrv _ e d {})).trans hfollow.onlyDrover).trans (.resetWin u _ _ _)
  refine ⟨t, rfl, hfollow.context.1, fun o ho => u.rdP_resetPage _ d ho, ?_⟩
  rw [hframe]
  exact ⟨.of_eq rfl rfl rfl, rfl⟩

end

/-- Settles O34, command by command. -/
theorem droverControlResults : Obligations.DroverControlResults := by
  unfold Obligations.DroverControlResults
  intro s e d m a v replay
  exact ⟨fun hm => ⟨drvStop_answers hm, fun hstopped => drvGo_answers hm hstopped replay, drvErrAck_answers hm⟩,
    drvPlanWrite_answers s e d a, fun hm => ⟨_, if_neg hm, permissionError_results s 4⟩,
    fun hdye => ⟨drvShareWrite_answers hdye, drvShareWrite_refused⟩, drvDyeClear_answers⟩

end Sys2Proof.Machine
end

section
/-! Streams (R186, R187, R189 to R192): their start, granules, end, lateness, buffers and cancellation, and the statement about them. -/

namespace Sys2Proof.Machine

section
variable {s : State} {e : Fin 8} {d : Dye} {stream : BitVec 16}

/-! ### The start (R186) -/

/-- The context of a stream that starts from the table's entry x at place i: it holds its buffer and is active. -/
def State.started (s : State) (e : Fin 8) (d : Dye) (x : Word512) (i : Nat) : DrvCtx :=
  let y := streamOf x
  { s.drv e d with
    active := (s.drv e d).active ++ [{ idx := i, entry := x, start := s.startFor e d y }],
    held := (s.drv e d).held ++ [{ idx := i, buf := y.buf, layer := y.layer, start := s.startFor e d y }] }

/-- The table's entry x at place i is the first that may start, a slot is free for it, and it is right (R186, Table 8-4). -/
structure StartsNext (s : State) (e : Fin 8) (d : Dye) (x : Word512) (i : Nat) : Prop where
  runs : s.drvStopped e d = false
  open_ : (s.drv e d).clearing = false
  room : s.activeOn e < 8
  first : (s.table e d).zipIdx.find? (fun p => s.mayStart e d (s.table e d) p.2 p.1) = some (x, i)
  entry : s.entryBad e d x = false
  addr : streamAddrBad (streamOf x) = false
  verified : s.wstate (if (streamOf x).isShared then 0 else d) (streamOf x).wset = wVERIFIED
  raw : (streamOf x).mode = 1 → (streamOf x).len = (streamOf x).nCores * (streamOf x).perCore * 32

theorem execStreamStart_started {x : Word512} {i : Nat} (h : StartsNext s e d x i) : execStreamStart e d s = .next
    (((s.setDrv e d { s.drv e d with held := (s.started e d x i).held }).setDrv e d (s.started e d x i)).drvFollow e d) := by
  obtain ⟨hruns, hopen, hroom, hfind, hentry, haddr, hset, hraw⟩ := h
  delta execStreamStart
  rw [if_neg (by simp [hruns, hopen, hroom])]
  extract_lets -underBinder tab
  have hfind' : tab.zipIdx.find? (fun p => s.mayStart e d tab p.2 p.1) = some (x, i) := hfind
  rw [hfind']
  dsimp -zeta only
  extract_lets y start code h s1 a u
  have hcode : code = 0 := by
    unfold code
    rw [if_neg (by simp [hentry]), if_neg (by simp [y, haddr]), if_neg (not_not.2 hset), if_neg (fun h => h.2 (hraw h.1))]
  have hheld : u = { s.drv e d with held := (s.drv e d).held ++ [h] } := s.drv_setDrv_self e d _
  have hstarted : { u with active := u.active ++ [a] } = s.started e d x i := by rw [hheld]; rfl
  rw [if_neg (not_not.2 hcode)]
  exact congrArg (fun c => Host.Outcome.next ((s1.setDrv e d c).drvFollow e d)) hstarted

theorem streamStart_answers {x : Word512} {i : Nat} (h : StartsNext s e d x i) :
    Answers (.streamStart e d) s (fun t =>
      (t.drv e d).active = (s.drv e d).active ++ [{ idx := i, entry := x, start := s.startFor e d (streamOf x) }] ∧
      (t.drv e d).held = (s.drv e d).held ++
        [{ idx := i, buf := (streamOf x).buf, layer := (streamOf x).layer, start := s.startFor e d (streamOf x) }] ∧
      SameRegsBut (drvStatusKeys e d) s t ∧ t = { s with regs := t.regs, drvs := t.drvs }) := by
  obtain ⟨hdrv, hsame, hframe⟩ := (State.drvFollow_onlyRegs
    ((s.setDrv e d { s.drv e d with held := (s.started e d x i).held }).setDrv e d (s.started e d x i)) e d).context
  exact ⟨_, execStreamStart_started h, congrArg DrvCtx.active hdrv, congrArg DrvCtx.held hdrv,
    hsame, hframe⟩

/-! ### A granule (R187, R189, R190) -/

/-- A RAW stream after a granule's bytes are laid. -/
def ActiveStream.laid (a : ActiveStream) (bytes : List Byte) : ActiveStream :=
  { a with written := a.written + bytes.length, complete := decide ((streamOf a.entry).len ≤ 4096 * (a.granule + 1)),
           granule := a.granule + 1 }

/-- The granule of a RAW stream whose bytes all lie where they should ends its turn, and the stream goes on behind it. -/
theorem State.takeGranule_raw {r : RegionNo} {a : ActiveStream} {bytes : List Byte} {u : Nat × State} {v : State}
    (hmode : (streamOf a.entry).mode = 1) (hlay : s.layRaw e d r (streamOf a.entry) 65 a.written bytes = u) (hok : u.1 = 0)
    (hend : u.2.turnEnd e d = v) : s.takeGranule e d r a bytes = v.setDrv e d { v.drv e d with
      active := (v.drv e d).active.map fun z => if z.key = a.key then a.laid bytes else z } := by
  subst hlay hend
  delta State.takeGranule
  extract_lets y a1
  rw [if_pos hmode]
  exact if_neg (not_not.2 hok)

/-- Stream a of a VERIFIED set has the engine's turn, which its dye may take, and writes to region r. -/
structure HasTurn (s : State) (e : Fin 8) (d : Dye) (a : ActiveStream) (r : RegionNo) : Prop where
  runs : s.drvStopped e d = false
  next : (s.drv e d).nextTurn = some a
  may : (s.drv e d).midTurn = true ∨ s.mayTake e d = true
  verified : s.wstate (if (streamOf a.entry).isShared then 0 else d) (streamOf a.entry).wset = wVERIFIED
  region : s.streamRegion e d (streamOf a.entry) = some r

/-- The next granule of stream a reads as x and its check word as w, both from the engine's die and neither refused; the check word is
the granule's, and the first read came back as it was sent (R189). -/
structure RightGranule (s : State) (e : Fin 8) (d : Dye) (a : ActiveStream) (g : GranuleFetch) (x w : RdRes × State) : Prop where
  left : (streamOf a.entry).len - 4096 * a.granule ≠ 0
  read : (s.turnOn e d a.key).read (.drover e d) ((streamOf a.entry).src + 4096 * a.granule) 4096 = x
  readCrc : x.2.read (.drover e d) ((streamOf a.entry).crc + 4 * a.granule) 4 = w
  answered : x.1.refused = false
  clean : x.1.poison = false
  answeredCrc : w.1.refused = false
  near : s.onDie e d ((streamOf a.entry).src + 4096 * a.granule) (min ((streamOf a.entry).len - 4096 * a.granule) 4096) = true
  nearCrc : s.onDie e d ((streamOf a.entry).crc + 4 * a.granule) 4 = true
  right : (crc32c x.1.data).toNat = leNat w.1.data
  match1 : g.crc1 = true
  clean1 : g.poison1 = false

/-- A RAW granule that passes its check on the first read is laid. -/
theorem execChunkFetch_raw {a : ActiveStream} {r : RegionNo} {g : GranuleFetch} {x w : RdRes × State} (hturn : HasTurn s e d a r)
    (hstream : (streamOf a.entry).stream = stream.toNat) (hmode : (streamOf a.entry).mode = 1) (hright : RightGranule s e d a g x w) :
    execChunkFetch e d stream g s = .next
      (((w.2.bump (.drv e) DRV_EVT_KIB_STORED 4).bumpP (.drv e) d DRV_D_KIB_STORED 4).takeGranule e d r a
        (x.1.data.take (min ((streamOf a.entry).len - 4096 * a.granule) 4096))).settleAll := by
  obtain ⟨hruns, hnext, hmay, hset, hregion⟩ := hturn
  obtain ⟨hleft, hread, hcrc, hx, hpoison, hw, hdie, hdie', hcheck, hg, hg'⟩ := hright
  subst hcrc hread
  delta execChunkFetch
  extract_lets c m
  rw [show c.nextTurn = some a from hnext]
  dsimp -zeta only
  extract_lets y set s0 left at_ x w s1 good bad1 bad2 ok1 ok2 fails ev s2
  have hok1 : ok1 = true := by
    have hgood : good = true := decide_eq_true hcheck
    have hbad1 : bad1 = false := Bool.or_eq_false_iff.2 ⟨hpoison, hg'⟩
    simp [ok1, hg, hgood, hbad1]
  have hs2 : s2 = s1 := if_pos hok1
  have hhere : (x.1.refused || w.1.refused || !s.onDie e d at_ (min left 4096) || !s.onDie e d (y.crc + 4 * a.granule) 4) = false := by
    replace hx : x.1.refused = false := hx
    replace hw : w.1.refused = false := hw
    replace hdie : s.onDie e d at_ (min left 4096) = true := hdie
    replace hdie' : s.onDie e d (y.crc + 4 * a.granule) 4 = true := hdie'
    rw [hx, hw, hdie, hdie']
    rfl
  have hours : ¬(s.drvStopped e d = true ∨ y.stream ≠ stream.toNat ∨ (c.midTurn = false ∧ s.mayTake e d = false)) := by
    rintro (h | h | ⟨hmid, htake⟩)
    · simp [hruns] at h
    · exact h hstream
    · exact hmay.elim (fun h => Bool.false_ne_true (hmid.symm.trans h)) (fun h => Bool.false_ne_true (htake.symm.trans h))
  rw [if_neg hours, if_neg (not_not.2 hset), hregion]
  dsimp -zeta only
  rw [if_neg (by simp [y, hmode])]
  dsimp -zeta only
  rw [if_neg hleft, if_neg (by simp [hhere]), if_neg (by simp [hok1]), if_neg (by simp [hok1]), hs2]

/-! ### The end, and the ready point (R187) -/

theorem streamEnd_answers {a : ActiveStream}
    (hfind : (s.drv e d).active.find? (fun a => (streamOf a.entry).stream == stream.toNat && a.complete) = some a) :
    Answers (.streamEnd e d stream) s (fun t => (t.drv e d).active = (s.drv e d).active.filter (fun y => y.key != a.key) ∧
      (t.drv e d).ended = (s.drv e d).ended ++ [a.key] ∧ (t.drv e d).held = (s.drv e d).held ∧ SameRegsBut (drvStatusKeys e d) s t ∧
      t = { s with regs := t.regs, drvs := t.drvs }) := by
  let c : DrvCtx := { s.drv e d with
    active := (s.drv e d).active.filter (fun y => y.key != a.key), ended := (s.drv e d).ended ++ [a.key] }
  have hexec : execStreamEnd e d stream s = .next ((s.setDrv e d c).drvFollow e d) := by
    rw [execStreamEnd, hfind]
  obtain ⟨hdrv, hsame, hframe⟩ := ((s.setDrv e d c).drvFollow_onlyRegs e d).context
  exact ⟨_, hexec, congrArg DrvCtx.active hdrv, congrArg DrvCtx.ended hdrv, (congrArg DrvCtx.held hdrv :), hsame, hframe⟩

/-! In the next proof and in that of execCancellation_unstarted an instruction is unfolded by its constant and not by its equation: to check
the equation, the kernel would work out the table of streams. -/

theorem execStreamReadyPoint_late {x : Word512} {i : Nat}
    (hfind : (s.table e d).zipIdx.find? (fun p => (streamOf p.1).stream == stream.toNat) = some (x, i))
    (hover : (s.drv e d).over (s.startFor e d (streamOf x), i) = false) (hplan : s.planFor e d (streamOf x) ≠ 0)
    (hpoint : s.readyPoint e d (streamOf x) ≤ s.now) : execStreamReadyPoint e d stream s =
      .next ((s.bumpP (.drv e) d DRV_D_LATE).detectUnit 0x2A d e.val [stream.toNat]) := by
  generalize hf : @execStreamReadyPoint = f
  delta execStreamReadyPoint at hf
  subst hf
  beta_reduce
  extract_lets c
  rw [hfind]
  dsimp -zeta only
  extract_lets y
  refine if_neg ?_
  rintro (h | h | h)
  · exact Bool.false_ne_true (hover.symm.trans h)
  · exact hplan h
  · exact Nat.not_lt.2 hpoint h

theorem regKey_drv_ne_folded (e : Fin 8) (d : Dye) {o : Nat} (ho : o < 0x100) :
    regKey (.drv e) (pageOff d o) ≠ regKey .ldg LDG_FOLDED := by
  have := d.isLt
  simp only [regKey, winIndex, pageOff, LDG_FOLDED]
  omega

/-- A counter of the dye's page is raised, and an event of the engine enters the Ledger. -/
theorem State.bumpP_detectUnit (s : State) (e : Fin 8) (d : Dye) {o : Nat} (ho : o < 0x100) (n : Nat) (l : List Nat) :
    let t := (s.bumpP (.drv e) d o).detectUnit n d e.val l
    t.rdP (.drv e) d o = s.rdP (.drv e) d o + 1 ∧ SameRegsBut [regKey (.drv e) (pageOff d o), regKey .ldg LDG_FOLDED] s t ∧
    RegsAndLedger s t := by
  obtain ⟨g, i, x, hframe, hregs⟩ := (s.bumpP (.drv e) d o).detectUnit_frame n d e.val l
  intro t
  have ht : t = _ := hframe
  rw [ht]
  refine ⟨(hregs _ (regKey_drv_ne_folded e d ho)).trans (State.rd_wr_self s _ _ _), fun k hk => ?_, rfl⟩
  obtain ⟨hk, hfolded⟩ := not_or.1 (fun h => hk (List.mem_pair.2 h))
  exact (hregs k hfolded).trans ((s.regs_wr _ _ _ k).trans (if_neg hk))

/-! ### A cancellation (R192) -/

/-- The context after the cancellation of a stream that has not started. -/
def DrvCtx.cancelled (c : DrvCtx) (k : Nat × Nat) : DrvCtx :=
  { c with active := c.active.filter (fun a => a.key != k), held := c.held.filter (fun h => (h.start, h.idx) != k),
           skipped := c.skipped ++ [k], released := c.released ++ [k] }

/-- A stream's cancellation is no longer on its way to the engine. -/
def State.takeCancel (s : State) (e : Fin 8) (d : Dye) (stream : Nat) : State :=
  { s with cancels := s.cancels.filter fun x => !(s.owner x.1 == d && regionDie x.1 == engineDie e && x.2 == stream) }

theorem execCancellation_unstarted {x : Word512} {i : Nat} {start : Word64}
    (hfind : (s.table e d).zipIdx.find? (fun p => (streamOf p.1).stream == stream.toNat) = some (x, i))
    (hstart : start.toNat = s.startFor e d (streamOf x)) (hended : (start.toNat, i) ∉ (s.drv e d).ended)
    (hfailed : (start.toNat, i) ∉ (s.drv e d).failed) : execCancellation e d stream start s =
      .next ((((s.takeCancel e d stream.toNat).setDrv e d ((s.drv e d).cancelled (start.toNat, i))).bumpP (.drv e) d
        DRV_D_CANCELLED).drvFollow e d) := by
  generalize hf : @execCancellation = f
  delta execCancellation at hf
  subst hf
  beta_reduce
  extract_lets c s0
  rw [hfind]
  dsimp -zeta only
  extract_lets k past c1
  have hpast : past = false := by simp [past, c, k, hended, hfailed]
  have hc1 : c1 = (s.drv e d).cancelled k := by
    simp only [c1, hpast]
    rfl
  rw [if_neg (not_not.2 hstart), hc1]
  rfl

theorem cancellation_answers {x : Word512} {i : Nat} {start : Word64}
    (hfind : (s.table e d).zipIdx.find? (fun p => (streamOf p.1).stream == stream.toNat) = some (x, i))
    (hstart : start.toNat = s.startFor e d (streamOf x)) (hended : (s.startFor e d (streamOf x), i) ∉ (s.drv e d).ended)
    (hfailed : (s.startFor e d (streamOf x), i) ∉ (s.drv e d).failed) :
    let k := (s.startFor e d (streamOf x), i)
    Answers (.cancellation e d stream start) s (fun t => (t.drv e d).skipped = (s.drv e d).skipped ++ [k] ∧
      (t.drv e d).released = (s.drv e d).released ++ [k] ∧ t.rdP (.drv e) d DRV_D_CANCELLED = s.rdP (.drv e) d DRV_D_CANCELLED + 1 ∧
      SameRegsBut (regKey (.drv e) (pageOff d DRV_D_CANCELLED) :: drvStatusKeys e d) s t ∧
      t = { s with regs := t.regs, drvs := t.drvs, cancels := t.cancels }) := by
  intro k
  let s1 := (s.takeCancel e d stream.toNat).setDrv e d ((s.drv e d).cancelled k)
  let u := s1.bumpP (.drv e) d DRV_D_CANCELLED
  have hu : OnlyRegsIn (regKey (.drv e) (pageOff d DRV_D_CANCELLED) :: drvStatusKeys e d) s1 u :=
    (OnlyRegsIn.refl _ s1).wr _ _ _ List.mem_cons_self
  have hfollow := u.drvFollow_onlyRegs e d
  have hcount : (u.drvFollow e d).rdP (.drv e) d DRV_D_CANCELLED = s.rdP (.drv e) d DRV_D_CANCELLED + 1 :=
    (hfollow.rd _ _ (regKey_notMem_drvStatusKeys e d (by decide))).trans (State.rd_wr_self s1 _ _ _)
  have hexec : execCancellation e d stream start s = .next (u.drvFollow e d) := by
    rw [execCancellation_unstarted hfind hstart (hstart ▸ hended) (hstart ▸ hfailed), hstart]
  obtain ⟨hdrv, hsame, hframe⟩ := (hu.trans hfollow (List.subset_cons_self _ _)).context
  refine ⟨_, hexec, congrArg DrvCtx.skipped hdrv, congrArg DrvCtx.released hdrv, hcount, hsame, ?_⟩
  rw [hframe]
  rfl

/-! ### Buffers (R186, R192) -/

theorem bufferRelease_answers (s : State) (e : Fin 8) (d : Dye) (layer : BitVec 16) :
    Answers (.bufferRelease e d layer) s (fun t =>
      (∀ h ∈ (t.drv e d).held, ¬(h.layer = layer.toNat ∧ s.layerEnded d h.start h.layer = true)) ∧
      (∀ h ∈ (s.drv e d).held, h.layer ≠ layer.toNat ∨ s.layerEnded d h.start h.layer = false → h ∈ (t.drv e d).held) ∧
      (∀ h ∈ (s.drv e d).held, h.layer = layer.toNat → s.layerEnded d h.start h.layer = true →
        (h.start, h.idx) ∈ (t.drv e d).released) ∧
      t = { s with drvs := t.drvs }) := by
  refine ⟨_, rfl, ?_⟩
  beta_reduce
  rw [State.drv_setDrv_self]
  refine ⟨fun h hh => ?_, fun h hh hkeep => ?_, fun h hh hlayer hended => ?_, rfl⟩
  · simpa [imp_iff_not_or] using (List.mem_filter.1 hh).2
  · exact List.mem_filter.2 ⟨hh, by simpa using hkeep⟩
  · exact List.mem_append_right _ (List.mem_map.2 ⟨h, List.mem_filter.2 ⟨hh, by simp [← hlayer, hended]⟩, rfl⟩)

end

/-- Settles O33, command by command. -/
theorem streamResults : Obligations.StreamResults := by
  unfold Obligations.StreamResults
  intro s e d stream layer start
  refine ⟨fun x i hruns hopen hroom hfind hentry haddr hset hraw =>
      streamStart_answers ⟨hruns, hopen, hroom, hfind, hentry, haddr, hset, hraw⟩,
    fun a r g hruns hturn hmay hstream hset hregion hmode hleft hx hpoison hw hdie hdie' hcheck hg hg' hlay => ?_,
    fun a hfind => streamEnd_answers hfind, fun x i hfind => ⟨fun hover hplan hpoint => ?_, fun hstart _ hended hfailed => ?_⟩,
    bufferRelease_answers s e d layer⟩
  · refine ⟨_, execChunkFetch_raw ⟨hruns, hturn, hmay, hset, hregion⟩ hstream hmode
      ⟨hleft, rfl, rfl, hx, hpoison, hw, hdie, hdie', hcheck, hg, hg'⟩, ?_⟩
    rw [State.takeGranule_raw hmode rfl hlay rfl]
    exact settles_settleAll _
  · exact ⟨_, execStreamReadyPoint_late hfind hover hplan hpoint, s.bumpP_detectUnit e d (by decide) _ _⟩
  · exact cancellation_answers hfind hstart hended hfailed

end Sys2Proof.Machine
end

section
/-! Weight sets (R183, R191, R193, R194, R196, R197): their manifests, units, repair and replacement, and the statement about them. -/

namespace Sys2Proof.Machine

section
variable {s : State} {d : Dye}

/-! ### A manifest (R193) -/

/-- A set of a manifest as its load begins, in the frames that the image gives it. -/
def State.loadingSet (s : State) (d : Dye) (mf : Manifest) (x : ManifestSet) (bases : List Nat) : WsetSt :=
  { bases := bases, frames := ((s.weightEntry d x.wset.val).map (·.frames)).getD 0, set := x, units := mf.units }

section
variable {mf : Manifest} {x : ManifestSet} {bases : List Nat} {u : State}
  (hok : s.manifestOk d mf = true) (hone : mf.sets = [x]) (hempty : s.wstate d x.wset.val = wEMPTY)
  (htake : s.takeRuns d (((s.weightEntry d x.wset.val).map (·.frames)).getD 0) (if x.mode = 2 then 2 else 1)
    (((s.weightEntry d x.wset.val).map (·.dies)).getD []) [] = (some bases, u))
include hok hone hempty htake

/-- A manifest that names one EMPTY set for which frames are found begins to load it. -/
theorem execManifestCheck_loads : execManifestCheck d mf s =
    .next ((u.setWset d x.wset.val (some (s.loadingSet d mf x bases))).setWstate d x.wset.val wLOADING) := by
  rw [execManifestCheck, if_neg (by simp [hok]), hone, List.foldl_cons, List.foldl_nil, if_neg (not_not.2 hempty)]
  dsimp only
  rw [htake]
  rfl

theorem manifestCheck_answers : Answers (.manifestCheck d mf) s (fun t => t.wstate d x.wset.val = wLOADING ∧
    t.wset d x.wset.val = some (s.loadingSet d mf x bases) ∧ t = { u with regs := t.regs, wsets := t.wsets }) := by
  have hstate := (u.setWset d x.wset.val (some (s.loadingSet d mf x bases))).setWstate_onlyRegs d x.wset.val wLOADING
  refine ⟨_, execManifestCheck_loads hok hone hempty htake, State.wstate_setWstate _ _ _ (by decide),
    (hstate.wset _ _).trans (State.wset_setWset_self ..), ?_⟩
  obtain ⟨g, h, -⟩ := hstate
  rw [h]
  rfl

end

/-! ### A unit (R194, R196) -/

/-- A unit of set ws, which takes its units as they are, reaches the package as entry y says it, for the first time, and is the k-th of
those that the package stores. -/
structure UnitPasses (s : State) (d : Dye) (unit : Nat) (data : List Byte) (ws : Nat) (x : WsetSt) (y : ManifestUnit) (k : Nat) : Prop where
  loads : s.unitSet d unit = some (ws, x)
  entry : x.units[unit]? = some y
  place : (x.unitsOf (s.pkgOrd d)).findIdx? (· == unit) = some k
  new : unit ∉ x.passed
  length : data.length = y.len
  plain : x.set.mode ≠ 1

/-- A unit that passes while another is still to come is passed on and stored. -/
theorem execLoadUnit_stored {unit ws k v : Nat} {data : List Byte} {x : WsetSt} {y : ManifestUnit}
    (hunit : UnitPasses s d unit data ws x y k) (hv : v ∈ x.unitsOf (s.pkgOrd d)) (hopen : v ∉ x.passed) (hother : v ≠ unit) :
    execLoadUnit d unit data y.hash s = .next (((s.forwardUnit d unit y.dest data).writeSet d x 3 (k * 1048576) data).setWset d ws
      (some { x with passed := x.passed ++ [unit] })) := by
  obtain ⟨hset, hunit, hmine, hnew, hlen, hmode⟩ := hunit
  rw [execLoadUnit, hset]
  dsimp only
  rw [hunit]
  dsimp only
  rw [hmine]
  dsimp only
  rw [if_neg (by simp [hnew]), if_neg (by simp [hlen]), if_neg hmode, State.wset_setWset_self]
  refine if_neg fun hall => ?_
  have := List.all_eq_true.1 hall v hv
  simp [hopen, hother] at this

/-! ### Repair (R191) -/

/-- The set as its repair begins. -/
def State.repairing (s : State) (d : Dye) (w : Nat) (x : WsetSt) : WsetSt :=
  { x with passed := (x.unitsOf (s.pkgOrd d)).filter fun u => !(s.unitsNeeded d w x).contains u, fails := [] }

/-- The repair begins here, and the other packages hear of it. -/
def State.repairBegun (s : State) (d : Dye) (w : Fin 16) (x : WsetSt) : State :=
  ((s.tellAll d (.weightState d w wREPAIRING)).setWset d w.val (some (s.repairing d w.val x))).setWstate d w.val wREPAIRING

theorem State.repairBegun_results (s : State) (d : Dye) (w : Fin 16) (x : WsetSt) :
    (s.repairBegun d w x).wstate d w.val = wREPAIRING ∧ (s.repairBegun d w x).wset d w.val = some (s.repairing d w.val x) ∧
    ∃ g a tx, s.repairBegun d w x = { s with regs := g, wsets := a, linkTx := tx } := by
  have honly := ((s.tellAll d (.weightState d w wREPAIRING)).setWset d w.val
    (some (s.repairing d w.val x))).setWstate_onlyRegs d w.val wREPAIRING
  refine ⟨State.wstate_setWstate _ d _ (by decide), (honly.wset _ _).trans (State.wset_setWset_self ..), ?_⟩
  obtain ⟨g, h, -⟩ := honly
  exact ⟨g, _, _, h⟩

/-- Asking the other packages for units changes what the links send alone. -/
theorem State.askUnits_results (d : Dye) (w : Nat) (us : List Nat) (s : State) :
    let t := us.foldl (fun (t : State) u => t.tellPeers d 17 [w, u]) s
    t.wstate d w = s.wstate d w ∧ t.wset d w = s.wset d w ∧ ∃ tx, t = { s with linkTx := tx } := by
  obtain ⟨tx, h⟩ : ∃ tx, us.foldl (fun (t : State) u => t.tellPeers d 17 [w, u]) s = { s with linkTx := tx } := by
    refine foldl_keeps (P := fun t : State => ∃ tx, t = { s with linkTx := tx }) ?_ us s ⟨_, rfl⟩
    rintro _ u ⟨tx, rfl⟩
    exact ⟨_, rfl⟩
  rw [h]
  exact ⟨rfl, rfl, tx, rfl⟩

theorem execWeightSetRepair_damaged {w : Fin 16} {x : WsetSt} (hset : s.wset d w.val = some x) (hstate : s.wstate d w.val = wDAMAGED) :
    execWeightSetRepair d w s = .next (
      if s.unitsNeeded d w.val x = [] then (s.repairBegun d w x).wsetDone d w.val (s.repairing d w.val x)
      else (s.unitsNeeded d w.val x).foldl (fun (t : State) u => t.tellPeers d 17 [w.val, u]) (s.repairBegun d w x)) := by
  have hrepair : (s.tellAll d (.weightState d w wREPAIRING)).wset d w.val = some x := hset
  rw [execWeightSetRepair, if_neg (by simp [hset, hstate]), State.repairWset, hrepair]
  exact congrArg Host.Outcome.next (if_neg (not_not.2 hstate))

/-- The registers that say which dyes drain. -/
abbrev drainKeys : List Nat := (List.finRange 16).map fun q => regKey .inn (pageOff q INN_D_STATUS)

theorem State.drainFollow_onlyRegs (s : State) : OnlyRegsIn drainKeys s s.drainFollow :=
  foldl_keeps (P := OnlyRegsIn drainKeys s)
    (fun _ q ht => ht.setFld _ _ _ _ _ (List.mem_map.2 ⟨q, List.mem_finRange q, rfl⟩)) _ s (.refl _ s)

theorem OnlyRegsIn.wstate_of_drainKeys {t : State} (h : OnlyRegsIn drainKeys s t) (w : Nat) :
    t.wstate d w = s.wstate d w := by
  refine h.fld _ _ _ _ fun hk => ?_
  obtain ⟨q, -, hq⟩ := List.mem_map.1 hk
  have := d.isLt
  have := q.isLt
  simp only [regKey, winIndex, pageOff, INN_D_STATUS, DRV_D_WSTATE] at hq
  omega

theorem State.wstate_tellAll (s : State) (d : Dye) (m : ControlMsg) (w : Nat) : (s.tellAll d m).wstate d w = s.wstate d w := rfl

theorem State.wstate_withDraining (s : State) (l : List (Dye × Nat)) (d : Dye) (w : Nat) :
    ({ s with draining := l } : State).wstate d w = s.wstate d w := rfl

theorem State.wstate_tellWstate (s : State) (d : Dye) (w : Nat) {v : Nat} (hv : v < 2 ^ 4) : (s.tellWstate d w v).wstate d w = v :=
  ((s.setWstate d w v).wstate_tellAll d _ w).trans (s.wstate_setWstate d w hv)

/-- A set that is not converted, all its units here, is VERIFIED. -/
theorem State.wstate_wsetDone {w : Nat} {x : WsetSt} (hmode : x.set.mode ≠ 1) :
    (s.wsetDone d w x).wstate d w = wVERIFIED := by
  unfold State.wsetDone
  rw [if_neg hmode]
  extract_lets s1 s2
  have hs2 : s2.wstate d w = wVERIFIED := State.wstate_tellWstate _ d w (by decide)
  split
  · exact (OnlyRegsIn.wstate_of_drainKeys (State.drainFollow_onlyRegs _) w).trans ((s2.wstate_withDraining _ d w).trans hs2)
  · exact hs2

section
variable {w : Fin 16} {x : WsetSt} (hset : s.wset d w.val = some x) (hstate : s.wstate d w.val = wDAMAGED)
include hset hstate

theorem weightSetRepair_asks (hneed : s.unitsNeeded d w.val x ≠ []) : Answers (.weightSetRepair d w) s (fun t =>
    t.wstate d w.val = wREPAIRING ∧ t.wset d w.val = some (s.repairing d w.val x) ∧
    t = { s with regs := t.regs, wsets := t.wsets, linkTx := t.linkTx }) := by
  obtain ⟨hwstate, hwset, tx, htell⟩ := State.askUnits_results d w.val (s.unitsNeeded d w.val x) (s.repairBegun d w x)
  obtain ⟨hbegun, hset', g, a, tx', hframe⟩ := s.repairBegun_results d w x
  refine ⟨_, (execWeightSetRepair_damaged hset hstate).trans (congrArg Host.Outcome.next (if_neg hneed)), hwstate.trans hbegun,
    hwset.trans hset', ?_⟩
  rw [htell, hframe]

theorem weightSetRepair_whole (hneed : s.unitsNeeded d w.val x = []) (hmode : x.set.mode ≠ 1) :
    Answers (.weightSetRepair d w) s (fun t => t.wstate d w.val = wVERIFIED) :=
  ⟨_, (execWeightSetRepair_damaged hset hstate).trans (congrArg Host.Outcome.next (if_pos hneed)),
    State.wstate_wsetDone hmode⟩

end

/-! ### Replacement (R197) -/

theorem State.bit_setDyes (f : Dye → Bool) (d : Dye) : ∀ (l : List Dye) (s : State),
    (l.foldl (fun t q => t.setBit .inn (pageOff q INN_D_STATUS) 3 (f q)) s).bit .inn (pageOff d INN_D_STATUS) 3 =
      if d ∈ l then f d else s.bit .inn (pageOff d INN_D_STATUS) 3
  | [], _ => rfl
  | q :: l, s => by
    rw [List.foldl_cons, State.bit_setDyes f d l]
    by_cases hq : d = q
    · subst hq
      have hself : (s.setBit .inn (pageOff d INN_D_STATUS) 3 (f d)).bit .inn (pageOff d INN_D_STATUS) 3 = f d :=
        (congrArg (· == 1) (State.fld_setFld_self s _ _ 3 1 _ (by decide))).trans (by cases f d <;> rfl)
      simp [hself]
    · have hother : (s.setBit .inn (pageOff q INN_D_STATUS) 3 (f q)).bit .inn (pageOff d INN_D_STATUS) 3 =
          s.bit .inn (pageOff d INN_D_STATUS) 3 :=
        congrArg (· == 1) (State.fld_setFld_other s _ _ _ _ 3 1 _ 3 1
          (regKey_ne fun h => hq (Fin.ext (by simp only [pageOff] at h; omega))))
      simp [hother, hq]

/-- INN_D_STATUS.DRAINING says whether the dye drains. -/
theorem State.bit_drainFollow (s : State) (d : Dye) : s.drainFollow.bit .inn (pageOff d INN_D_STATUS) 3 = s.dyeDrains d :=
  (State.bit_setDyes s.dyeDrains d _ s).trans (if_pos (List.mem_finRange d))

/-- Where the one set that drains is of a dye with work on the package, nothing is freed yet. -/
theorem State.drainWeights_waits {w : Nat} {i : Item} (hdrain : s.draining = [(d, w)]) (hi : i ∈ s.items) (hdye : i.dye = d) :
    s.drainWeights = s := by
  have hbusy : s.drained d = false := by
    have : s.items.any (fun i => i.dye == d) = true := List.any_eq_true.2 ⟨i, hi, by simp [hdye]⟩
    simp [State.drained, this]
  rw [State.drainWeights, hdrain]
  refine if_neg fun h => ?_
  have := List.all_eq_true.1 h.1 d (List.mem_finRange d)
  simp [hbusy] at this

theorem weightReplacement_answers {w : Fin 16} {i : Item} (hset : s.wstate d w.val ≠ wEMPTY) (hdrain : s.draining = [])
    (hi : i ∈ s.items) (hdye : i.dye = d) : Answers (.weightReplacement d w) s (fun t => t.draining = [(d, w.val)] ∧
      t.bit .inn (pageOff d INN_D_STATUS) 3 = true ∧ SameRegsBut drainKeys s t ∧
      t = { s with regs := t.regs, draining := t.draining }) := by
  let u : State := { s with draining := [(d, w.val)] }
  have hdrains : u.dyeDrains d = true := by simp [State.dyeDrains, u]
  obtain ⟨g, hframe, hsame⟩ := u.drainFollow_onlyRegs
  have hwaits : u.drainFollow.drainWeights = u.drainFollow := by
    rw [hframe]
    exact State.drainWeights_waits rfl hi hdye
  have hexec : execWeightReplacement d w s = .next u.drainFollow := by
    rw [execWeightReplacement, if_neg (by simp [hset, hdrain]), hdrain]
    exact congrArg Host.Outcome.next hwaits
  refine ⟨_, hexec, ?_, (u.bit_drainFollow d).trans hdrains, hsame, ?_⟩ <;> rw [hframe]

end

/-- Settles O35, command by command. -/
theorem weightResults : Obligations.WeightResults := by
  unfold Obligations.WeightResults
  intro s d w
  refine ⟨fun mf x bases u hok hone hempty htake => manifestCheck_answers hok hone hempty htake, ?_,
    fun x hset hstate => ⟨weightSetRepair_asks hset hstate, weightSetRepair_whole hset hstate⟩,
    fun i hset hdrain hi hdye => weightReplacement_answers hset hdrain hi hdye⟩
  rintro unit data hash ws x y k v hset hunit hmine hnew rfl hlen hmode hv hopen hother
  exact ⟨_, execLoadUnit_stored ⟨hset, hunit, hmine, hnew, hlen, hmode⟩ hv hopen hother, rfl⟩

end Sys2Proof.Machine
end

section
/-! SUPPORT. What the ring handed over (R291) is a queue of the host port's own: no access to a memory looks at it, so reads, stream
tables and the weights that an image needs are the same with any other items in it. -/

namespace Sys2Proof.Machine

/-- A state with other items handed over. -/
def State.withInbox (s : State) (x : List (Dye × Word512)) : State := { s with inbox := x }

section
variable (s : State) (x : List (Dye × Word512))

theorem State.ite_withInbox {p : Prop} [Decidable p] (t u : State) :
    (if p then t.withInbox x else u.withInbox x) = (if p then t else u).withInbox x := (apply_ite (State.withInbox · x) _ _ _).symm

theorem State.foldl_withInbox {α : Type} {f : State → α → State} (hf : ∀ (t : State) a, f (t.withInbox x) a = (f t a).withInbox x)
    (l : List α) : l.foldl f (s.withInbox x) = (l.foldl f s).withInbox x := by
  induction l generalizing s with
  | nil => rfl
  | cons a l ih => rw [List.foldl_cons, List.foldl_cons, hf, ih]

/-! ### Registers, cores and the Ledger -/

@[simp] theorem State.rd_withInbox (w o) : (s.withInbox x).rd w o = s.rd w o := rfl
@[simp] theorem State.core_withInbox (c) : (s.withInbox x).core c = s.core c := rfl
@[simp] theorem State.wr_withInbox (w o v) : (s.withInbox x).wr w o v = (s.wr w o v).withInbox x := rfl
@[simp] theorem State.onCore_withInbox (c f) : (s.withInbox x).onCore c f = (s.onCore c f).withInbox x := rfl
@[simp] theorem State.bump_withInbox (w o n) : (s.withInbox x).bump w o n = (s.bump w o n).withInbox x := rfl
@[simp] theorem State.setBit_withInbox (w o i b) : (s.withInbox x).setBit w o i b = (s.setBit w o i b).withInbox x := rfl
@[simp] theorem State.fld_withInbox (w o lo n) : (s.withInbox x).fld w o lo n = s.fld w o lo n := rfl
@[simp] theorem State.bit_withInbox (w o i) : (s.withInbox x).bit w o i = s.bit w o i := rfl

@[simp] theorem State.ledger_withInbox (e : LedgerEvent) : (s.withInbox x).ledger e = (s.ledger e).withInbox x := by
  simp only [State.ledger, ← State.ite_withInbox]; rfl
@[simp] theorem State.detectCore_withInbox (d c l) : (s.withInbox x).detectCore d c l = (s.detectCore d c l).withInbox x :=
  s.ledger_withInbox x _
@[simp] theorem State.detectUnit_withInbox (d q u l) : (s.withInbox x).detectUnit d q u l = (s.detectUnit d q u l).withInbox x :=
  s.ledger_withInbox x _

/-! ### Faults -/

@[simp] theorem State.faultRec_withInbox (c code) : (s.withInbox x).faultRec c code = (s.faultRec c code).withInbox x :=
  s.ledger_withInbox x _
@[simp] theorem State.cutWait_withInbox (c) : (s.withInbox x).cutWait c = (s.cutWait c).withInbox x := by
  simp only [State.cutWait, ← State.ite_withInbox]; rfl
theorem State.mustAbandon_withInbox (c) : (s.withInbox x).mustAbandon c = s.mustAbandon c := rfl
theorem State.groupOf_withInbox (c) : (s.withInbox x).groupOf c = s.groupOf c := rfl
theorem State.checkAbandon_withInbox (c) : (s.withInbox x).checkAbandon c = (s.checkAbandon c).withInbox x := by
  simp [State.checkAbandon, State.mustAbandon_withInbox, State.ite_withInbox]
@[simp] theorem State.checkAbandons_withInbox (l) : (s.withInbox x).checkAbandons l = (s.checkAbandons l).withInbox x :=
  State.foldl_withInbox s x (fun t c => t.checkAbandon_withInbox x c) l
theorem State.askStops_withInbox (now : Nat) (l : List CoreId) : l.foldl (fun (t : State) q => t.onCore q (CoreSt.askStop now)) (s.withInbox x) =
    (l.foldl (fun (t : State) q => t.onCore q (CoreSt.askStop now)) s).withInbox x :=
  State.foldl_withInbox s x (fun t q => t.onCore_withInbox x q _) l
@[simp] theorem State.coreFault_withInbox (c code pc num op) :
    (s.withInbox x).coreFault c code pc num op = (s.coreFault c code pc num op).withInbox x := by
  have hnow : (s.withInbox x).now = s.now := rfl
  simp [State.coreFault, State.groupOf_withInbox, State.askStops_withInbox, State.ite_withInbox, hnow]
@[simp] theorem State.masterFault_withInbox (m c code) : (s.withInbox x).masterFault m c code = (s.masterFault m c code).withInbox x :=
  s.coreFault_withInbox x _ _ _ _ _

/-! ### The slices -/

@[simp] theorem State.pulse_withInbox (sel hit) : (s.withInbox x).pulse sel hit = (s.pulse sel hit).withInbox x :=
  State.foldl_withInbox s x (fun t n => by simp only [← State.ite_withInbox]; rfl) _
@[simp] theorem State.injFired_withInbox : (s.withInbox x).injFired = s.injFired.withInbox x := by
  simp [State.injFired, State.ite_withInbox]
@[simp] theorem State.injDue_withInbox : (s.withInbox x).injDue = (s.injDue.1, s.injDue.2.withInbox x) := by
  unfold State.injDue
  split <;> rename_i h <;> simp only [State.fld_withInbox] at h <;> simp only [h, if_true, if_false] <;> rfl
@[simp] theorem State.ueMark_withInbox (k) : (s.withInbox x).ueMark k = (s.ueMark k).withInbox x := rfl
@[simp] theorem State.eccSee_withInbox (c w e) : (s.withInbox x).eccSee c w e = ((s.eccSee c w e).1, (s.eccSee c w e).2.withInbox x) := by
  have hcls : (s.withInbox x).cls c (w / 128) = s.cls c (w / 128) := rfl
  unfold State.eccSee
  simp only [hcls, State.bump_withInbox, State.wr_withInbox, State.detectCore_withInbox, State.ueMark_withInbox]
  split
  · rfl
  · split <;> rfl
@[simp] theorem State.eccRead_withInbox (c w) : (s.withInbox x).eccRead c w = ((s.eccRead c w).1, (s.eccRead c w).2.withInbox x) := by
  have haims : (s.withInbox x).injAims c w = s.injAims c w := rfl
  have herr : (s.withInbox x).errAt c w = s.errAt c w := rfl
  simp only [State.eccRead, haims, herr, State.rd_withInbox, State.injDue_withInbox, State.eccSee_withInbox]
  split
  · split
    · exact congrArg (Prod.mk _) (State.injFired_withInbox
        (State.injMark { (s.injDue.2.eccSee c w _).2 with writeBack := s.writeBack, ueSeen := s.ueSeen } _) x)
    · rfl
  · rfl
@[simp] theorem State.eccReads_withInbox (c ws) : (s.withInbox x).eccReads c ws = ((s.eccReads c ws).1, (s.eccReads c ws).2.withInbox x) := by
  induction ws generalizing s with
  | nil => rfl
  | cons w ws ih => simp only [State.eccReads, State.eccRead_withInbox, ih]
@[simp] theorem State.sliceRead_withInbox (c o n) :
    (s.withInbox x).sliceRead c o n = ((s.sliceRead c o n).1, (s.sliceRead c o n).2.withInbox x) := by
  have hraw : (s.withInbox x).sliceRaw c o n = s.sliceRaw c o n := rfl
  simp only [State.sliceRead, State.eccReads_withInbox, hraw]
theorem State.bufTake_withInbox (c w) : (s.withInbox x).bufTake c w = (s.bufTake c w).withInbox x := by
  simp only [State.bufTake, ← State.ite_withInbox]; rfl
theorem State.sliceSet_withInbox (c o bs) : (s.withInbox x).sliceSet c o bs = (s.sliceSet c o bs).withInbox x := by
  simp only [State.sliceSet, ← State.ite_withInbox]; rfl
@[simp] theorem State.setErr_withInbox (c w e) : (s.withInbox x).setErr c w e = (s.setErr c w e).withInbox x := rfl
@[simp] theorem State.eccWrite_withInbox (c o n ws) :
    (s.withInbox x).eccWrite c o n ws = ((s.eccWrite c o n ws).1, (s.eccWrite c o n ws).2.withInbox x) := by
  induction ws generalizing s with
  | nil => rfl
  | cons w ws ih =>
    unfold State.eccWrite
    extract_lets cl merge u e0 e1 e2 e3 q v y cl' merge' s0 f0 f1 f2 f3 r t z
    have herr : ∀ t : State, (t.withInbox x).errAt c w = t.errAt c w := fun _ => rfl
    have hu : u = s0.withInbox x := by
      simp only [u, s0, ← State.ite_withInbox]; rfl
    have hq : q = (r.1, r.2.withInbox x) := by
      have hcl : cl' = cl := rfl
      have hmerge : merge' = merge := rfl
      simp only [q, r, hcl, hmerge, f3, f2, f1, f0, e3, e2, e1, e0, hu, State.eccRead_withInbox, herr, State.setErr_withInbox]
      split_ifs <;> rfl
    have hv : v = (t.1, t.2.withInbox x) := by
      simp only [v, t, hq, ih]
    simp only [y, z, hv, hq, Prod.mk.injEq, true_and, ← State.ite_withInbox]
    rfl
theorem State.sliceWrite_withInbox (c o bs) :
    (s.withInbox x).sliceWrite c o bs = ((s.sliceWrite c o bs).1, (s.sliceWrite c o bs).2.withInbox x) := by
  have hbist : (s.withInbox x).bistOf c = s.bistOf c := rfl
  have hbuf := State.foldl_withInbox s x (f := fun t w => t.bufTake c w) (fun t w => t.bufTake_withInbox x c w)
  simp only [State.sliceWrite, hbist, hbuf, State.ite_withInbox, State.eccWrite_withInbox]
  generalize State.eccWrite _ c o bs.length (wordsOf o bs.length) = r
  split
  · exact congrArg (Prod.mk _) (State.sliceSet_withInbox _ x _ _ _)
  · exact congrArg (Prod.mk _) (State.foldl_withInbox _ x
      (f := fun t w => t.sliceSet c (max o (32 * w)) ((bs.drop (max o (32 * w) - o)).take (min (o + bs.length) (32 * w + 32) - max o (32 * w))))
      (fun t w => t.sliceSet_withInbox x _ _ _) _)

/-! ### The banks of a slice -/

theorem State.semTouch_withInbox (c ws) : (s.withInbox x).semTouch c ws = (s.semTouch c ws).withInbox x := by
  have hword : (s.withInbox x).semWord c = s.semWord c := rfl
  simp only [State.semTouch, hword]
  split
  · simp only [State.onCore_withInbox, State.ite_withInbox]
  · rfl
theorem State.ueAnswer_withInbox (r n) : (s.withInbox x).ueAnswer r n = (s.ueAnswer r n).withInbox x := by
  have hresp : ({ s.withInbox x with resp := { poison := true, data := List.replicate n 0xFF } } : State) =
    ({ s with resp := { poison := true, data := List.replicate n 0xFF } } : State).withInbox x := rfl
  simp only [State.ueAnswer, hresp, State.masterFault_withInbox]
  split <;> rfl
theorem State.applyMask_withInbox (q o set mask) :
    (s.withInbox x).applyMask q o set mask = ((s.applyMask q o set mask).1, (s.applyMask q o set mask).2.withInbox x) :=
  s.sliceWrite_withInbox x _ _ _
theorem State.serve_withInbox (r : BankReq) : (s.withInbox x).serve r = (s.serve r).withInbox x := by
  have hanswer : ∀ (t : State) l p, (t.withInbox x).answer l p = (t.answer l p).withInbox x := fun _ _ _ => rfl
  unfold State.serve
  split
  · simp only [State.sliceRead_withInbox, hanswer]
    split
    · split
      · exact State.masterFault_withInbox _ x _ _ _
      · rfl
    · rfl
  all_goals simp only [State.sliceWrite_withInbox, State.applyMask_withInbox, State.semTouch_withInbox, State.ueAnswer_withInbox,
    State.ite_withInbox]
theorem State.serveWord_withInbox (c w lo hi) : (s.withInbox x).serveWord c w lo hi = (s.serveWord c w lo hi).withInbox x := by
  have hq : (s.withInbox x).bankQ = s.bankQ := rfl
  simp only [State.serveWord, hq, ← State.ite_withInbox]
  have hserved : ∀ (t : State) (l : Nat → List BankReq), (List.range 4).foldl (fun t k => (l k).foldl State.serve t) (t.withInbox x) =
      ((List.range 4).foldl (fun t k => (l k).foldl State.serve t) t).withInbox x := fun t l =>
    State.foldl_withInbox t x (f := fun t k => (l k).foldl State.serve t)
      (fun t k => State.foldl_withInbox t x (f := State.serve) (fun u r => u.serve_withInbox x r) (l k)) _
  exact congrArg (ite _ _) (hserved { s with bankQ := _ } fun k => List.filter _ _)
theorem State.bankLose_withInbox (c bank w n) : (s.withInbox x).bankLose c bank w n = (s.bankLose c bank w n).withInbox x := rfl
theorem State.bankWin1_withInbox (c i w rank n) : ∀ (age : Nat) (s : State),
    State.bankWin1 c i w rank n age (s.withInbox x) = (State.bankWin1 c i w rank n age s).withInbox x := by
  induction n with
  | zero => exact fun _ _ => rfl
  | succ n ih =>
    intro age s
    have hq : (s.withInbox x).bankQ = s.bankQ := rfl
    simp only [State.bankWin1, hq, State.bankLose_withInbox, State.serveWord_withInbox, ih]
    split
    · rfl
    · split
      · rfl
      · split <;> rfl
theorem State.bankWin_withInbox (c i rank ws) : (s.withInbox x).bankWin c i rank ws = (s.bankWin c i rank ws).withInbox x := by
  have hq : ∀ t : State, (t.withInbox x).bankQ = t.bankQ := fun _ => rfl
  simp only [State.bankWin, hq, ← State.ite_withInbox]
  exact congrArg (ite _ · _) (State.foldl_withInbox s x (f := fun t w => State.bankWin1 c i w rank (t.bankQ.length + 1) 0 t)
    (fun t w => State.bankWin1_withInbox x c i w rank _ 0 t) _)
theorem State.bankRest_withInbox (c ws) : (s.withInbox x).bankRest c ws = (s.bankRest c ws).withInbox x := by
  simp only [State.bankRest, ← State.ite_withInbox]
  exact congrArg (ite _ · _) (State.foldl_withInbox s x (f := fun t w => t.serveWord c w 0 4)
    (fun t w => t.serveWord_withInbox x c w 0 4) _)
theorem State.portRead_withInbox (c i o n) :
    (s.withInbox x).portRead c i o n = ((s.portRead c i o n).1, (s.portRead c i o n).2.withInbox x) := by
  simp only [State.portRead, State.bankWin_withInbox, State.sliceRead_withInbox, State.bankRest_withInbox]

/-! ### Local HBM -/

theorem State.charge_withInbox (d pj) : (s.withInbox x).charge d pj = (s.charge d pj).withInbox x := by
  have hrd : ∀ w o, (s.withInbox x).rd64 w o = s.rd64 w o := fun _ _ => rfl
  have hrem : (s.withInbox x).energyRem = s.energyRem := rfl
  simp only [State.charge, State.wr64, State.wr_withInbox, hrd, hrem]
  rfl
theorem State.bucket_withInbox (w d) : (s.withInbox x).bucket w d = s.bucket w d := by
  have hnow : (s.withInbox x).now = s.now := rfl
  have htok : (s.withInbox x).rglTok = s.rglTok := rfl
  simp only [State.bucket, State.rd_withInbox, hnow, htok]
theorem State.setRegulator_withInbox (a b) : ({ s.withInbox x with rglRem := a, rglTok := b } : State) =
    ({ s with rglRem := a, rglTok := b } : State).withInbox x := rfl
theorem State.carry_withInbox (w d n) : (s.withInbox x).carry w d n = (s.carry w d n).withInbox x := by
  have hrem : (s.withInbox x).rglRem = s.rglRem := rfl
  have hnow : (s.withInbox x).now = s.now := rfl
  have htok : (s.withInbox x).rglTok = s.rglTok := rfl
  simp only [State.carry, State.bump_withInbox, State.charge_withInbox, State.bucket_withInbox, hrem, hnow, htok]
  exact State.setRegulator_withInbox _ x _ _
theorem State.bridge_withInbox (m die write n) : (s.withInbox x).bridge m die write n = (s.bridge m die write n).withInbox x := by
  unfold State.bridge
  split
  · have hdye : (s.withInbox x).dyeOf m = s.dyeOf m := rfl
    simp only [hdye, State.carry_withInbox, State.ite_withInbox]
  · rfl
theorem State.hbmAwake_withInbox (h) : (s.withInbox x).hbmAwake h = (s.hbmAwake h).withInbox x := by
  have hset : ∀ (t : State) w o lo n v, (t.withInbox x).setFld w o lo n v = (t.setFld w o lo n v).withInbox x := fun _ _ _ _ _ _ => rfl
  have hstate : ∀ (t : State) r, (t.withInbox x).rgnState r = t.rgnState r := fun _ _ => rfl
  simp only [State.hbmAwake, State.pkgFollow, State.fld_withInbox, hset, hstate, State.ite_withInbox]
theorem State.hbmUse_withInbox (d o n) : (s.withInbox x).hbmUse d o n = (s.hbmUse d o n).withInbox x := by
  simp only [State.hbmUse, State.hbmAwake_withInbox, State.carry_withInbox]; rfl
theorem State.hbmUe_withInbox (u) : (s.withInbox x).hbmUe u = (s.hbmUe u).withInbox x := by
  have hframe : (s.withInbox x).frame (u / 1024) = s.frame (u / 1024) := rfl
  simp only [State.hbmUe, hframe, State.bump_withInbox, State.wr_withInbox, State.detectUnit_withInbox]
theorem State.hbmReadG_withInbox (d o n) :
    (s.withInbox x).hbmReadG d o n = ((s.hbmReadG d o n).1, (s.hbmReadG d o n).2.withInbox x) := by
  have hframe : (s.withInbox x).frame (o / 65536) = s.frame (o / 65536) := rfl
  have hfailed : (s.withInbox x).hbmFailed o = s.hbmFailed o := rfl
  have hbad : (s.withInbox x).hbmBad = s.hbmBad := rfl
  have hbytes : (s.withInbox x).hbm = s.hbm := rfl
  have hkey : ∀ f g, (s.withInbox x).otherKey f g = s.otherKey f g := fun _ _ => rfl
  have hunder : ∀ f g, (s.withInbox x).underKey f g = s.underKey f g := fun _ _ => rfl
  have hue := State.foldl_withInbox s x (f := fun t u => t.hbmUe u) (fun t u => t.hbmUe_withInbox x u)
  simp only [State.hbmReadG, hue, hframe, hfailed, hbad, hbytes, hkey, hunder, State.bit_withInbox, State.bump_withInbox, State.detectUnit_withInbox]
  split
  · rfl
  · split_ifs <;> rfl
theorem State.hbmReadF_withInbox (d k) : ∀ (o n : Nat) (s : State),
    (s.withInbox x).hbmReadF d k o n = ((s.hbmReadF d k o n).1, (s.hbmReadF d k o n).2.withInbox x) := by
  induction k with
  | zero => exact fun _ _ _ => rfl
  | succ k ih =>
    intro o n s
    simp only [State.hbmReadF, State.hbmUse_withInbox, State.hbmReadG_withInbox, ih]
    split <;> rfl

/-! ### Reads, stream tables, weights -/

theorem State.readPiece_withInbox (m a n far) :
    (s.withInbox x).readPiece m a n far = ((s.readPiece m a n far).1, (s.readPiece m a n far).2.withInbox x) := by
  have hplace : ∀ d, (s.withInbox x).place d a = s.place d a := fun _ => rfl
  have hdye : (s.withInbox x).dyeOf m = s.dyeOf m := rfl
  simp only [State.readPiece, hplace, hdye, State.bridge_withInbox, State.portRead_withInbox, State.hbmRead, State.hbmReadF_withInbox,
    State.carry_withInbox]
  split <;> rfl
theorem State.readF_withInbox (m k) : ∀ (a n : Nat) (far : List Byte) (s : State),
    (s.withInbox x).readF m k a n far = ((s.readF m k a n far).1, (s.readF m k a n far).2.withInbox x) := by
  induction k with
  | zero => exact fun _ _ _ _ => rfl
  | succ k ih =>
    intro a n far s
    simp only [State.readF, State.readPiece_withInbox, ih]
    split <;> rfl
theorem State.refusedAt_withInbox (m write a n) : (s.withInbox x).refusedAt m write a n = s.refusedAt m write a n := by
  suffices h : ∀ k a n, (s.withInbox x).firstBad m write k a n = s.firstBad m write k a n from h _ _ _
  intro k
  induction k with
  | zero => exact fun _ _ => rfl
  | succ k ih =>
    intro a n
    have hok : ∀ w, (s.withInbox x).pieceOk m write a w = s.pieceOk m write a w := fun _ => rfl
    simp only [State.firstBad, hok, ih]
/-- What a read answers. -/
theorem State.read_withInbox (m a n far) : ((s.withInbox x).read m a n far).1 = (s.read m a n far).1 := by
  unfold State.read
  rw [State.refusedAt_withInbox]
  split
  · rfl
  · rw [State.readF_withInbox]
theorem State.table_withInbox (e d) : (s.withInbox x).table e d = s.table e d := by
  have hwalk : ∀ n a, (s.withInbox x).tableF e d n a = s.tableF e d n a := fun n => by
    induction n with
    | zero => exact fun _ => rfl
    | succ n ih => exact fun a => by simp only [State.tableF, State.read_withInbox, ih]
  simp only [State.table, hwalk]
  rfl
theorem State.weightsBad_withInbox (d) : (s.withInbox x).weightsBad d = s.weightsBad d := by
  have hentries : (s.withInbox x).weightEntries d = s.weightEntries d := rfl
  have husable : ∀ q w, (s.withInbox x).usable d q w = s.usable d q w := fun _ _ => rfl
  simp only [State.weightsBad, State.usedSets, State.table_withInbox, hentries, husable]
  rfl

end

end Sys2Proof.Machine
end

section
/-! SUPPORT. Admission: an item that the ring handed over, past the checks that look at the partition alone (Table 9-8). -/

namespace Sys2Proof.Machine

section
variable {s : State} {d : Dye}

/-- The checks of the partition, as takeItem makes them. -/
theorem AdmissionOpen.checks (h : AdmissionOpen s d) :
    ((s.partEntry d).isNone || !s.isFront d) = false ∧ ((s.partEntry d).map (fun e => e.mode == 1)).getD false = false ∧
    s.bit .inn INN_STATUS 1 = false ∧ s.bit .inn INN_STATUS 2 = false ∧ (s.image d).isNone = false ∧
    ((s.pkgTable d).any (fun p => s.lostSlots.contains p.slot) || decide (s.fld .cnt CNT_STATUS 0 2 < 2) ||
      (s.treatedAsLost && decide (1 < (s.pkgTable d).length))) = false ∧
    (s.recabling && decide (1 < (s.pkgTable d).length)) = false := by
  obtain ⟨⟨p, hp, hmode⟩, hfront, hpower, hstop, himage, hlost, hsync, hcable⟩ := h
  have hlost' : (s.pkgTable d).any (fun p => s.lostSlots.contains p.slot) = false := by simpa using hlost
  refine ⟨by simp [hp, hfront], by simpa [hp] using hmode, hpower, hstop, by simpa using himage, ?_, ?_⟩
  · simp only [hlost', Bool.false_or, Bool.or_eq_false_iff, decide_eq_false_iff_not, not_lt, Bool.and_eq_false_imp]
    exact ⟨hsync, fun htreated => not_lt.1 fun hmany => by simp [(hcable hmany).1] at htreated⟩
  · simp only [Bool.and_eq_false_imp, decide_eq_false_iff_not]
    exact fun hrecabling hmany => by simp [(hcable hmany).2] at hrecabling

/-- An OPEN or a FORK in order is admitted as such (R204, R218). -/
theorem State.takeItem_new {i : Item} (h : AdmissionOpen s i.dye) (hformat : i.formatBad = false) (hkind : i.kind = 1 ∨ i.kind = 7)
    (hnew : s.sess i.dye i.session = none) (hload : s.imageLoading i.dye = false) (hlimit : i.limitBad = false)
    (hweights : s.weightsBad i.dye = false) : s.takeItem i = if i.kind = 1 then s.admitOpen i else s.admitFork i := by
  obtain ⟨hfront, hmode, hpower, hstop, himage, hlost, hcable⟩ := AdmissionOpen.checks h
  simp only [State.takeItem, hformat, hfront, hmode, hpower, hstop, himage, hlost, hcable, hkind, hnew, hload, hlimit, hweights,
    Bool.false_eq_true, if_false, if_true, Option.isSome_none, Bool.false_or]

/-- An item of a session that its checks let pass goes to its kind (R206, R207, R218). -/
theorem State.takeItem_session {i : Item} {x : Session} (h : AdmissionOpen s i.dye) (hformat : i.formatBad = false)
    (hkind : ¬(i.kind = 1 ∨ i.kind = 7)) (hsess : s.sess i.dye i.session = some x) (hstate : s.stateBad i x = false) :
    s.takeItem i = if i.kind = 8 then s.admitClose i x
      else if i.kind = 5 ∨ i.kind = 6 then s.admitHint i x
      else if i.limitBad || s.lengthBad i x then s.refuseItem i aLIMIT allOnes64
      else if s.weightsBad i.dye then s.refuseWeights i
      else s.admitStep i x := by
  obtain ⟨hfront, hmode, hpower, hstop, himage, hlost, hcable⟩ := AdmissionOpen.checks h
  simp only [State.takeItem, hformat, hfront, hmode, hpower, hstop, himage, hlost, hcable, hkind, hsess, hstate,
    Bool.false_eq_true, if_false]

/-- The item at the front of what was handed over is taken where it is of the command's kind. -/
theorem State.takeFromInbox_front {e : Dye × Word512} {k : Nat} (hfind : s.inbox.find? (fun x => x.1 == d) = some e)
    (hkind : (itemOf d e.2).kind = k) : s.takeFromInbox d k = ({ s with inbox := s.inbox.erase e } : State).takeItem (itemOf d e.2) := by
  simp only [State.takeFromInbox, hfind, ne_eq, hkind, not_true_eq_false, if_false]

/-- A command of what the ring handed over takes the item at its front. -/
theorem answers_takeFromInbox {e : Dye × Word512} {k : Nat} {ins : Instr} {Q : State → Prop}
    (hexec : exec ins s = .next (s.takeFromInbox d k)) (hfind : s.inbox.find? (fun x => x.1 == d) = some e)
    (hkind : (itemOf d e.2).kind = k) (h : Q (({ s with inbox := s.inbox.erase e } : State).takeItem (itemOf d e.2))) : Answers ins s Q :=
  ⟨_, hexec, (State.takeFromInbox_front hfind hkind).symm ▸ h⟩

/-- The three commands of step items, by their kinds. -/
theorem exec_stepItem {k : Nat × Instr} (hk : k ∈ [((2 : Nat), Instr.prefill d), (3, .decode d), (4, .verify d)]) :
    (k.1 = 2 ∨ k.1 = 3 ∨ k.1 = 4) ∧ exec k.2 s = .next (s.takeFromInbox d k.1) := by
  simp only [List.mem_cons, List.not_mem_nil, or_false] at hk
  obtain rfl | rfl | rfl := hk
  · exact ⟨.inl rfl, rfl⟩
  · exact ⟨.inr (.inl rfl), rfl⟩
  · exact ⟨.inr (.inr rfl), rfl⟩

end

/-! ### Registers that stay as they are -/

/-- Every register whose key K holds of reads as before. -/
def SameOn (K : Nat → Prop) (s t : State) : Prop := ∀ k, K k → tabGet regReset t.regs k = tabGet regReset s.regs k

/-- The keys of the Innkeeper's window. -/
def innKey (k : Nat) : Prop := k / 0x10000 = winIndex .inn
/-- The keys of INN_D_ACCEPTED and INN_D_STEPS, of every dye. -/
def innCountKey (k : Nat) : Prop := ∃ q : Dye, k = regKey .inn (pageOff q INN_D_ACCEPTED) ∨ k = regKey .inn (pageOff q INN_D_STEPS)

theorem innKey_regKey {o : Nat} (h : o < 0x10000) : innKey (regKey .inn o) := by
  simp only [innKey, regKey, winIndex]; omega
theorem innKey_page (d : Dye) {o : Nat} (h : o < 0x100) : innKey (regKey .inn (pageOff d o)) :=
  innKey_regKey (by have := d.isLt; simp only [pageOff]; omega)
theorem innKey_of_count {k : Nat} (h : innCountKey k) : innKey k := by
  obtain ⟨q, rfl | rfl⟩ := h <;> exact innKey_page q (by decide)
theorem innCountKey_accepted (d : Dye) : innCountKey (regKey .inn (pageOff d INN_D_ACCEPTED)) := ⟨d, .inl rfl⟩
theorem innCountKey_steps (d : Dye) : innCountKey (regKey .inn (pageOff d INN_D_STEPS)) := ⟨d, .inr rfl⟩

/-- Neither count is a register outside the pages or another register of them. -/
theorem not_innCountKey_low {o : Nat} (h : o < 0x1000) : ¬innCountKey (regKey .inn o) := by
  rintro ⟨q, hq | hq⟩ <;> simp only [regKey, pageOff] at hq <;> omega
theorem not_innCountKey_page (d : Dye) {o : Nat} (h : o < 0x100) (ha : o ≠ 0x18) (hs : o ≠ 0x2C) :
    ¬innCountKey (regKey .inn (pageOff d o)) := by
  rintro ⟨q, hq | hq⟩ <;> simp only [regKey, pageOff, INN_D_ACCEPTED, INN_D_STEPS] at hq <;> omega

section
variable {K L : Nat → Prop} {s t u : State}

theorem SameOn.refl (K : Nat → Prop) (s : State) : SameOn K s s := fun _ _ => rfl
theorem SameOn.trans (h : SameOn K s t) (h' : SameOn K t u) : SameOn K s u := fun k hk => (h' k hk).trans (h k hk)
theorem SameOn.mono (h : SameOn K s t) (hkl : ∀ k, L k → K k) : SameOn L s t := fun k hk => h k (hkl k hk)
theorem SameOn.ite {p : Prop} [Decidable p] (ht : SameOn K s t) (hu : SameOn K s u) : SameOn K s (if p then t else u) := by
  split
  · exact ht
  · exact hu
theorem SameOn.foldl {α : Type} {l : List α} {f : State → α → State} (h : SameOn K s t) (hf : ∀ u a, SameOn K s u → SameOn K s (f u a)) :
    SameOn K s (l.foldl f t) := foldl_keeps hf l t h
/-- A change of anything but the registers. -/
theorem SameOn.upd (h : SameOn K s t) (hregs : u.regs = t.regs) : SameOn K s u := fun k hk => hregs ▸ h k hk
theorem SameOn.rd (h : SameOn K s t) {w : Win} {o : Nat} (hk : K (regKey w o)) : t.rd w o = s.rd w o := h _ hk

theorem SameOn.wr {w o v} (h : SameOn K s t) (hk : ¬K (regKey w o)) : SameOn K s (t.wr w o v) := fun k hkk =>
  (tabGet_tabSet_other _ _ _ fun (e : k = regKey w o) => hk (e ▸ hkk)).trans (h k hkk)
theorem SameOn.bump {w o n} (h : SameOn K s t) (hk : ¬K (regKey w o)) : SameOn K s (t.bump w o n) := h.wr hk
theorem SameOn.bumpP {w d o n} (h : SameOn K s t) (hk : ¬K (regKey w (pageOff d o))) : SameOn K s (t.bumpP w d o n) := h.wr hk
theorem SameOn.wrP {w d o v} (h : SameOn K s t) (hk : ¬K (regKey w (pageOff d o))) : SameOn K s (t.wrP w d o v) := h.wr hk
theorem SameOn.setFld {w o lo n v} (h : SameOn K s t) (hk : ¬K (regKey w o)) : SameOn K s (t.setFld w o lo n v) := h.wr hk
theorem SameOn.setBit {w o i b} (h : SameOn K s t) (hk : ¬K (regKey w o)) : SameOn K s (t.setBit w o i b) := h.wr hk
theorem SameOn.setW1c {w o i} (h : SameOn K s t) (hk : ¬K (regKey w o)) : SameOn K s (t.setW1c w o i) := (h.setBit hk).upd rfl

end

/-! ### Records and answers -/

section
variable {s t : State}

theorem not_innKey_vf (d : Dye) (o : Nat) : ¬innKey (regKey (.vf d) o) := by
  simp only [innKey, regKey, winIndex]; omega

theorem State.postRec_frame (s : State) (p : PostRec) : ∃ g q, s.postRec p = { s with regs := g, postQ := q } := by
  unfold State.postRec
  split <;> exact ⟨_, _, rfl⟩
theorem SameOn.postRec {p} (h : SameOn innKey s t) : SameOn innKey s (t.postRec p) := .ite (h.upd rfl) (h.bump (not_innKey_vf _ _))
theorem SameOn.answerItem {i code time pricedEnd} (h : SameOn innKey s t) : SameOn innKey s (t.answerItem i code time pricedEnd) :=
  h.postRec
theorem State.rd_giveEntries (s : State) (d n w o) : (s.giveEntries d n).rd w o = s.rd w o := rfl
theorem SameOn.giveEntries {K d n} (h : SameOn K s t) : SameOn K s (t.giveEntries d n) := h.upd rfl
theorem SameOn.tellAll {K d m} (h : SameOn K s t) : SameOn K s (t.tellAll d m) := h.upd rfl
theorem SameOn.innFollow {d} (h : SameOn innCountKey s t) : SameOn innCountKey s (t.innFollow d) := by
  have hpage : ∀ o, o < 0x100 → o ≠ 0x18 → o ≠ 0x2C → ¬innCountKey (regKey .inn (pageOff d o)) := fun _ => not_innCountKey_page d
  simp only [State.innFollow, State.countSess]
  refine SameOn.wrP ?_ (hpage _ (by decide) (by decide) (by decide))
  refine SameOn.setBit ?_ (not_innCountKey_low (by decide))
  refine SameOn.wr ?_ (not_innCountKey_low (by decide))
  iterate 4 refine SameOn.wrP ?_ (hpage _ (by decide) (by decide) (by decide))
  exact h

/-- A refusal changes registers, what is posted and the reserved entries. -/
theorem State.refuseItem_frame (s : State) (i : Item) (code earliest : Nat) :
    ∃ g q c, s.refuseItem i code earliest = { s with regs := g, postQ := q, cqReserved := c } := by
  simp only [State.refuseItem, State.answerItem]
  obtain ⟨g, q, h⟩ := s.postRec_frame { dye := i.dye, data := _ }
  rw [h]
  exact ⟨_, _, _, rfl⟩

/-- A refusal is counted and named, and nothing is counted as accepted (R201, R208, Table 9-3). -/
theorem State.refuseItem_counts (s : State) (i : Item) (code earliest : Nat) :
    (s.refuseItem i code earliest).rdP .inn i.dye INN_D_REFUSED = s.rdP .inn i.dye INN_D_REFUSED + 1 ∧
    (s.refuseItem i code earliest).rdP .inn i.dye INN_D_REFUSE_LAST = BitVec.ofNat 32 (code + 2 ^ 31) ∧
    (s.refuseItem i code earliest).rdP .inn i.dye INN_D_ACCEPTED = s.rdP .inn i.dye INN_D_ACCEPTED := by
  have hposted : ∀ o < 0x100, (s.answerItem i code earliest 0).rdP .inn i.dye o = s.rdP .inn i.dye o := fun o ho =>
    ((SameOn.refl innKey s).answerItem).rd (innKey_page i.dye ho)
  have hgiven : ∀ o, (s.refuseItem i code earliest).rdP .inn i.dye o = (((s.answerItem i code earliest 0).bumpP .inn i.dye
      INN_D_REFUSED).wrP .inn i.dye INN_D_REFUSE_LAST (BitVec.ofNat 32 (code + 2 ^ 31))).rdP .inn i.dye o := fun _ =>
    State.rd_giveEntries _ _ _ _ _
  rw [hgiven, hgiven, hgiven]
  generalize BitVec.ofNat 32 (code + 2 ^ 31) = v
  unfold State.rdP State.wrP State.bumpP at *
  refine ⟨?_, State.rd_wr_self _ _ _ _, ?_⟩
  · rw [State.rd_wr_other _ _ _ _ _ _ (regKey_page_ne _ _ (by decide)), State.rd_bump_self, hposted _ (by decide)]
  · rw [State.rd_wr_other _ _ _ _ _ _ (regKey_page_ne _ _ (by decide)), State.rd_bump_other _ (regKey_page_ne _ _ (by decide)),
      hposted _ (by decide)]

end

end Sys2Proof.Machine
end

section
/-! SUPPORT. A deadline out of range: R208. -/

namespace Sys2Proof.Machine

section
variable {s : State} {i : Item}

/-- A step item is refused with DEADLINE_RANGE, whatever the search for a step finds. -/
theorem State.admitStep_outOfRange (x : Session) (h : i.deadline < s.now ∨ s.now + tenSeconds < i.deadline) :
    ∃ j earliest, j.dye = i.dye ∧ s.admitStep i x = s.refuseItem j aRANGE earliest := by
  unfold State.admitStep
  extract_lets base j
  have hrange : j.deadline < s.now ∨ s.now + tenSeconds < j.deadline := h
  rw [if_pos hrange]
  split <;> exact ⟨j, _, rfl, rfl⟩

theorem State.admitFork_outOfRange (h : i.deadline < s.now ∨ s.now + tenSeconds < i.deadline) :
    s.admitFork i = s.refuseItem i aRANGE (s.earliest s.now) := if_pos h

end

/-- Settles O40: past the checks before it, the deadline's refuses. -/
theorem deadlineOutOfRangeIsRefused : Obligations.DeadlineOutOfRangeIsRefused := by
  unfold Obligations.DeadlineOutOfRangeIsRefused
  intro s d e hfind hopen i refused hformat hlimit hweights hrange
  let u : State := { s with inbox := s.inbox.erase e }
  have hweightsU : u.weightsBad d = false := (s.weightsBad_withInbox _ d).trans hweights
  have hrefused : ∀ j earliest, j.dye = d → refused (u.refuseItem j aRANGE earliest) := by
    rintro j earliest rfl
    obtain ⟨hcount, hlast, haccepted⟩ := u.refuseItem_counts j aRANGE earliest
    obtain ⟨g, q, c, hframe⟩ := u.refuseItem_frame j aRANGE earliest
    exact ⟨hcount, hlast, haccepted, by rw [hframe], by rw [hframe], by rw [hframe], by rw [hframe], by
      rw [hframe]; exact .of_eq rfl rfl rfl⟩
  constructor
  · intro x hsess hstate hlength k hk hkind
    obtain ⟨hstep, hnext⟩ := exec_stepItem (s := s) hk
    have hadmit : u.takeItem i = u.admitStep i x := by
      rw [State.takeItem_session (s := u) (i := i) hopen hformat (by omega) hsess hstate, if_neg (by omega), if_neg (by omega),
        if_neg (by rw [hlimit, show u.lengthBad i x = false from hlength]; decide), if_neg (by rw [hweightsU]; decide)]
    obtain ⟨j, earliest, hdye, hrefuse⟩ := State.admitStep_outOfRange (s := u) x hrange
    refine answers_takeFromInbox hnext hfind hkind ?_
    rw [hadmit, hrefuse]
    exact hrefused j earliest hdye
  · intro hkind hnew hload
    have hadmit : u.takeItem i = u.admitFork i := by
      rw [State.takeItem_new (s := u) (i := i) hopen hformat (.inr hkind) hnew hload hlimit hweightsU, if_neg (by omega)]
    refine answers_takeFromInbox rfl hfind hkind ?_
    rw [hadmit, State.admitFork_outOfRange (s := u) hrange]
    exact hrefused i _ rfl

end Sys2Proof.Machine
end

section
/-! SUPPORT. What accesses to memories leave alone: the Innkeeper's state, what the ring handed over, and the registers of the Innkeeper,
the pipelines and the Couriers. -/

namespace Sys2Proof.Machine

/-- The Innkeeper's own state and what the ring handed over are as before, and so is every register whose key K holds of. -/
structure Kept (K : Nat → Prop) (s t : State) : Prop where
  units : t.toInnkeeperUnits = s.toInnkeeperUnits
  inbox : t.inbox = s.inbox
  regs : SameOn K s t

/-- The keys of the Innkeeper's window, of the pipelines' and of the Couriers'. -/
def quietKey (k : Nat) : Prop := k / 0x10000 = winIndex .inn ∨ (59 ≤ k / 0x10000 ∧ k / 0x10000 < 91)

theorem quietKey_of_inn {k : Nat} (h : innKey k) : quietKey k := .inl h

theorem pageOff_lt (d : Dye) {o : Nat} (h : o < 0x100) : pageOff d o < 0x10000 := by
  have := d.isLt; simp only [pageOff]; omega
/-- The registers of any other window are none of them. -/
theorem not_quietKey {w : Win} {o : Nat} (ho : o < 0x10000) (hinn : winIndex w ≠ 1) (hw : winIndex w < 59 ∨ 91 ≤ winIndex w) :
    ¬quietKey (regKey w o) := by
  simp only [quietKey, regKey, winIndex] at *; omega
theorem not_quietKey_spd (r : RegionNo) (o : Nat) : ¬quietKey (regKey (.spd r) o) := by
  simp only [quietKey, regKey, winIndex]; omega
theorem not_quietKey_inj {o : Nat} (ho : o < 0x10000) : ¬quietKey (regKey .inj o) := not_quietKey ho (by decide) (by decide)
theorem not_quietKey_pwr (d : Dye) {o : Nat} (ho : o < 0x100) : ¬quietKey (regKey .pwr (pageOff d o)) :=
  not_quietKey (pageOff_lt d ho) (by decide) (by decide)
theorem not_quietKey_of_traffic {k : Nat} (h : trafficKey k) : ¬quietKey k := by
  simp only [trafficKey, quietKey, winIndex] at *
  obtain h | h | ⟨c, h⟩ | ⟨d, rfl⟩ := h
  · omega
  · omega
  · omega
  · simp only [regKey, pageOff, winIndex, TIER_D_STALE_RD]; omega
theorem not_innKey_of_paged {k : Nat} (h : pagedKey k) : ¬innKey k := by
  simp only [pagedKey, innKey, winIndex] at *
  obtain h | h | h | h | ⟨c, h⟩ := h <;> omega

section
variable {K L : Nat → Prop} {s t u : State}

theorem Kept.refl (K : Nat → Prop) (s : State) : Kept K s s := ⟨rfl, rfl, .refl K s⟩
theorem Kept.trans (h : Kept K s t) (h' : Kept K t u) : Kept K s u := ⟨h'.units.trans h.units, h'.inbox.trans h.inbox, h.regs.trans h'.regs⟩
theorem Kept.mono (h : Kept K s t) (hkl : ∀ k, L k → K k) : Kept L s t := ⟨h.units, h.inbox, h.regs.mono hkl⟩
theorem Kept.ite {p : Prop} [Decidable p] (ht : Kept K s t) (hu : Kept K s u) : Kept K s (if p then t else u) := by
  split
  · exact ht
  · exact hu
theorem Kept.foldl {α : Type} {l : List α} {f : State → α → State} (h : Kept K s t) (hf : ∀ u a, Kept K s u → Kept K s (f u a)) :
    Kept K s (l.foldl f t) := foldl_keeps hf l t h
/-- A change of other units. -/
theorem Kept.upd (h : Kept K s t) (hunits : u.toInnkeeperUnits = t.toInnkeeperUnits) (hinbox : u.inbox = t.inbox)
    (hregs : u.regs = t.regs) : Kept K s u :=
  ⟨hunits.trans h.units, hinbox.trans h.inbox, h.regs.upd hregs⟩
theorem Kept.wr {w o v} (h : Kept K s t) (hk : ¬K (regKey w o)) : Kept K s (t.wr w o v) := ⟨h.units, h.inbox, h.regs.wr hk⟩
theorem Kept.setBit {w o i b} (h : Kept K s t) (hk : ¬K (regKey w o)) : Kept K s (t.setBit w o i b) := h.wr hk
theorem Kept.bump {w o n} (h : Kept K s t) (hk : ¬K (regKey w o)) : Kept K s (t.bump w o n) := h.wr hk

theorem Traffic.kept (h : Traffic s t) : Kept quietKey s t :=
  ⟨by rw [h.rest], by rw [h.rest], fun k hk => h.regs k fun ht => not_quietKey_of_traffic ht hk⟩
theorem Paged.kept (h : Paged s t) : Kept innKey s t :=
  ⟨by rw [h.rest], by rw [h.rest], fun k hk => h.regs k fun hp => not_innKey_of_paged hp hk⟩

/-! ### The Ledger, cores and faults -/

theorem Kept.ledger {e} (h : Kept quietKey s t) : Kept quietKey s (t.ledger e) := h.trans (Traffic.ledger t e).kept
theorem Kept.detectCore {d c l} (h : Kept quietKey s t) : Kept quietKey s (t.detectCore d c l) := h.ledger
theorem Kept.detectRgn {d r l} (h : Kept quietKey s t) : Kept quietKey s (t.detectRgn d r l) := h.ledger
theorem Kept.detectUnit {d q u l} (h : Kept quietKey s t) : Kept quietKey s (t.detectUnit d q u l) := h.ledger
theorem Kept.faultRec {c code} (h : Kept quietKey s t) : Kept quietKey s (t.faultRec c code) := h.ledger
theorem Kept.onCore {c f} (h : Kept K s t) : Kept K s (t.onCore c f) := h.upd rfl rfl rfl
theorem Kept.cutWait {c} (h : Kept K s t) : Kept K s (t.cutWait c) := by
  unfold State.cutWait State.countStall
  exact .ite h.onCore h
theorem Kept.checkAbandons {cs} (h : Kept K s t) : Kept K s (t.checkAbandons cs) := h.foldl fun _ _ hu => .ite hu.cutWait.onCore hu
theorem Kept.coreFault {c code pc num op} (h : Kept quietKey s t) : Kept quietKey s (t.coreFault c code pc num op) :=
  .ite h.faultRec (.checkAbandons (h.cutWait.onCore.faultRec.foldl fun _ _ hu => hu.onCore))
theorem Kept.masterFault {m c code} (h : Kept quietKey s t) : Kept quietKey s (t.masterFault m c code) := h.coreFault

/-! ### The slices -/

theorem Kept.answer {l p} (h : Kept K s t) : Kept K s (t.answer l p) := h.upd rfl rfl rfl
theorem Kept.pulse {sel hit} (h : Kept K s t) : Kept K s (t.pulse sel hit) := h.foldl fun _ _ hu => .ite (hu.upd rfl rfl rfl) hu
theorem Kept.injFired (h : Kept quietKey s t) : Kept quietKey s t.injFired :=
  have hstart := ((h.bump (not_quietKey_inj (by decide))).setBit (not_quietKey_inj (by decide))).pulse
  .ite (hstart.setBit (not_quietKey_inj (by decide))) hstart
theorem Kept.injDue (h : Kept K s t) : Kept K s t.injDue.2 := by
  unfold State.injDue
  split <;> exact h.upd rfl rfl rfl
theorem Kept.eccSee {c w e} (h : Kept quietKey s t) : Kept quietKey s (t.eccSee c w e).2 := by
  have hseen := fun v => (h.bump (n := 1) (not_quietKey_spd c.region SPD_ECC_CE)).wr (v := v) (not_quietKey_spd c.region SPD_ECC_LAST)
  have hlost := fun v => (h.bump (n := 1) (not_quietKey_spd c.region SPD_ECC_UE)).wr (v := v) (not_quietKey_spd c.region SPD_ECC_LAST)
  unfold State.eccSee
  split
  · exact h
  · dsimp only
    split
    · exact h
    · exact (hseen _).detectCore.upd rfl rfl rfl
    · exact (hlost _).detectCore.upd rfl rfl rfl
theorem Kept.eccRead {c w} (h : Kept quietKey s t) : Kept quietKey s (t.eccRead c w).2 := by
  unfold State.eccRead
  extract_lets
  split
  · split
    · exact Kept.injFired (h.injDue.eccSee.upd rfl rfl rfl)
    · exact h.injDue.eccSee
  · exact h.eccSee
theorem Kept.eccReads {c} : ∀ {ws} {t : State}, Kept quietKey s t → Kept quietKey s (t.eccReads c ws).2
  | [], _, h => h
  | _ :: _, _, h => h.eccRead.eccReads
theorem Kept.sliceRead {c o n} (h : Kept quietKey s t) : Kept quietKey s (t.sliceRead c o n).2 := h.eccReads
theorem Kept.setBist {c b} (h : Kept K s t) : Kept K s (t.setBist c b) := h.upd rfl rfl rfl
theorem Kept.bufTake {c w} (h : Kept K s t) : Kept K s (t.bufTake c w) := by
  unfold State.bufTake
  dsimp only
  split
  · exact Kept.setBist (h.upd rfl rfl rfl)
  · exact h
theorem Kept.sliceSet {c o bs} (h : Kept K s t) : Kept K s (t.sliceSet c o bs) := .ite (h.upd rfl rfl rfl) (h.upd rfl rfl rfl)
theorem Kept.setErr {c w e} (h : Kept K s t) : Kept K s (t.setErr c w e) := h.upd rfl rfl rfl
theorem Kept.eccWrite {c o n} : ∀ {ws} {t : State}, Kept quietKey s t → Kept quietKey s (t.eccWrite c o n ws).2
  | [], _, h => h
  | _ :: _, t, h => by
    unfold State.eccWrite
    extract_lets _ _ s0 _ _ _ _ r t
    have hs0 : Kept quietKey s s0 := .ite (h.upd rfl rfl rfl) h
    have hr : Kept quietKey s r.2 := by
      unfold r
      split
      · split
        · exact hs0.eccRead
        · split
          · exact hs0.eccRead
          · exact hs0.eccRead.setErr
      · split
        · exact hs0
        · split <;> exact hs0.setErr
    exact .ite hr.eccWrite (hr.eccWrite.upd rfl rfl rfl)
theorem Kept.sliceWrite {c o bs} (h : Kept quietKey s t) : Kept quietKey s (t.sliceWrite c o bs).2 := by
  unfold State.sliceWrite
  extract_lets _ s0
  have hs0 : Kept quietKey s s0 := .ite h (h.foldl fun _ _ hu => hu.bufTake)
  split
  · exact hs0.eccWrite.sliceSet
  · exact hs0.eccWrite.foldl fun _ _ hu => hu.sliceSet

/-! ### The banks of a slice -/

theorem Kept.applyMask {q o set mask} (h : Kept quietKey s t) : Kept quietKey s (t.applyMask q o set mask).2 := h.sliceWrite
theorem Kept.semTouch {c ws} (h : Kept K s t) : Kept K s (t.semTouch c ws) := by
  unfold State.semTouch
  split
  · exact .ite h.onCore h
  · exact h
theorem Kept.ueAnswer {r n} (h : Kept quietKey s t) : Kept quietKey s (t.ueAnswer r n) := by
  unfold State.ueAnswer
  split
  · exact Kept.masterFault (h.upd rfl rfl rfl)
  · exact h.upd rfl rfl rfl
theorem Kept.serve {r} (h : Kept quietKey s t) : Kept quietKey s (t.serve r) := by
  unfold State.serve
  dsimp only
  split
  · exact .ite (by split; exacts [h.sliceRead.answer.masterFault, h.sliceRead.answer]) h.sliceRead.answer
  · exact .ite h.sliceWrite.ueAnswer h.sliceWrite.semTouch
  · exact .ite h.applyMask.ueAnswer h.applyMask.semTouch
  · exact .ite h.applyMask.ueAnswer h.applyMask.semTouch
theorem Kept.bankLose {c bank w n} (h : Kept quietKey s t) : Kept quietKey s (t.bankLose c bank w n) :=
  Kept.bump (h.upd rfl rfl rfl) (not_quietKey_spd _ _)
theorem Kept.serveWord {c w lo hi} (h : Kept quietKey s t) : Kept quietKey s (t.serveWord c w lo hi) :=
  .ite h (Kept.foldl (h.upd rfl rfl rfl) fun _ _ hu => hu.foldl fun _ _ hv => hv.serve)
theorem Kept.bankWin1 {c i w rank} : ∀ {n age} {t : State}, Kept quietKey s t → Kept quietKey s (t.bankWin1 c i w rank n age)
  | 0, _, _, h => h
  | _ + 1, _, _, h => by
    unfold State.bankWin1
    dsimp only
    split
    · exact h
    · split
      · exact h
      · exact .ite h.bankLose.serveWord h.bankLose.serveWord.bankWin1
theorem Kept.bankWin {c i rank ws} (h : Kept quietKey s t) : Kept quietKey s (t.bankWin c i rank ws) :=
  .ite (h.foldl fun _ _ hu => hu.bankWin1) h
theorem Kept.bankRest {c ws} (h : Kept quietKey s t) : Kept quietKey s (t.bankRest c ws) := .ite (h.foldl fun _ _ hu => hu.serveWord) h
theorem Kept.portRead {c i o n} (h : Kept quietKey s t) : Kept quietKey s (t.portRead c i o n).2 := h.bankWin.sliceRead.bankRest
theorem Kept.portWrite {c i o bs} (h : Kept quietKey s t) : Kept quietKey s (t.portWrite c i o bs).2 :=
  h.bankWin.sliceWrite.semTouch.bankRest

/-! ### Local HBM, and reads and writes by device address -/

theorem Kept.hbmRead {d o n} (h : Kept quietKey s t) : Kept quietKey s (t.hbmRead d o n).2 := h.trans (Traffic.hbmRead t d o n).kept
theorem Kept.hbmWrite {o bs} (h : Kept quietKey s t) : Kept quietKey s (t.hbmWrite o bs) := h.trans (Traffic.hbmWrite t o bs).kept

end

end Sys2Proof.Machine
end

section
/-! SUPPORT. Pages of sessions that come and go: neither the Innkeeper's state nor its registers change (R144 to R160). -/

namespace Sys2Proof.Machine

section
variable {s t u : State}

theorem Kept.ofQuiet (h : Kept innKey s t) (h' : Kept quietKey t u) : Kept innKey s u := h.trans (h'.mono fun _ => quietKey_of_inn)
theorem Kept.ofPaged (h : Kept innKey s t) (h' : Paged t u) : Kept innKey s u := h.trans h'.kept

/-! ### Frames, tables and entries -/

theorem Kept.setCtx {K d n c} (h : Kept K s t) : Kept K s (t.setCtx d n c) := h.upd rfl rfl rfl
theorem Kept.takeFrame {d die k} (h : Kept innKey s t) : Kept innKey s (t.takeFrame d die k).2 := h.ofPaged (Paged.takeFrame t d die k)
theorem Kept.freeFrame {f} (h : Kept innKey s t) : Kept innKey s (t.freeFrame f) := h.ofPaged (Paged.freeFrame t f)
theorem Kept.putTables {K a b l} (h : Kept K s t) : Kept K s { t with ptes := a, shared := b, pageMoves := l } := h.upd rfl rfl rfl
theorem Kept.setPte {k p} (h : Kept innKey s t) : Kept innKey s (t.setPte k p) := h.putTables.ofPaged (Paged.setPte t k p)
theorem Kept.setShared {k p} (h : Kept innKey s t) : Kept innKey s (t.setShared k p) := h.putTables.ofPaged (Paged.setShared t k p)
theorem Kept.setMovePte {m p} (h : Kept innKey s t) : Kept innKey s (t.setMovePte m p) := by
  obtain ⟨a, b, hput⟩ := t.setMovePte_paged m p
  exact h.putTables.ofPaged hput
theorem Kept.useFrames {d tier up n} (h : Kept innKey s t) : Kept innKey s (t.useFrames d tier up n) :=
  h.wr (by simp only [innKey, regKey, winIndex]; omega)
theorem Kept.dropPage {d p} (h : Kept innKey s t) : Kept innKey s (t.dropPage d p) := by
  unfold State.dropPage
  split
  · exact h.freeFrame
  · exact h.useFrames.upd rfl rfl rfl
  · exact h.useFrames
theorem Kept.retirePage {d p mine} (h : Kept innKey s t) : Kept innKey s (t.retirePage d p mine) := .ite (h.upd rfl rfl rfl) h.dropPage
theorem Kept.dirFree {x} (h : Kept innKey s t) : Kept innKey s (t.dirFree x) := h.foldl fun _ _ hu => hu.freeFrame

/-! ### Moves -/

theorem Kept.startMove {m} (h : Kept innKey s t) : Kept innKey s (t.startMove m) := by
  obtain ⟨a, b, l, hmove, -⟩ := t.startMove_paged m
  exact h.putTables.ofPaged hmove
theorem Kept.fabRequest {p who} (h : Kept innKey s t) : Kept innKey s (t.fabRequest p who).2 := h.ofPaged (Paged.fabRequest t p who)
theorem Kept.borrow (h : Kept innKey s t) : Kept innKey s t.borrow := by
  unfold State.borrow
  split
  · exact h
  · exact h.foldl fun _ _ hu => .ite hu (Kept.fabRequest (hu.upd rfl rfl rfl))
theorem Kept.demote {m} (h : Kept innKey s t) : Kept innKey s (t.demote m) := .ite h.startMove (.ite h.borrow h)
theorem Kept.demoteFor {d n} (h : Kept innKey s t) : Kept innKey s (t.demoteFor d n) := h.foldl fun _ _ hu => hu.demote
theorem Kept.promote {d slot cause} (h : Kept innKey s t) : Kept innKey s (t.promote d slot cause) := by
  unfold State.promote
  refine Kept.foldl ?_ fun _ _ hu => hu.startMove
  split
  · exact h
  · exact h.upd rfl rfl rfl
theorem Kept.putReserved {K l} (h : Kept K s t) : Kept K s { t with reserved := l } := h.upd rfl rfl rfl
/-- The frames and pages of an accepted item are claimed. -/
theorem Kept.claimPages {d slot step layers base adds} (h : Kept innKey s t) :
    Kept innKey s (t.claimPages d slot step layers base adds) := by
  unfold State.claimPages
  exact Kept.promote (.ite h.demoteFor h.demoteFor.putReserved)

/-! ### Prefixes and forks (R147 to R150) -/

theorem Kept.setPrefix {d i p} (h : Kept innKey s t) : Kept innKey s (t.setPrefix d i p) :=
  Kept.upd (Kept.ite (h.ofPaged (Paged.kind5Grow t _ _ _)) h) rfl rfl rfl
theorem Kept.pageBytes {d p} (h : Kept quietKey s t) : Kept quietKey s (t.pageBytes d p).2 := by
  unfold State.pageBytes
  split
  · split
    · exact h.sliceRead
    · exact h
  · exact h.hbmRead
  · exact h
theorem Kept.putBad {K x} (h : Kept K s t) : Kept K s { t with hbmBad := x } := h.upd rfl rfl rfl
theorem Kept.copyPage {d p die valid} (h : Kept innKey s t) : Kept innKey s (t.copyPage d p die valid).2 := by
  unfold State.copyPage
  dsimp only
  split
  · exact h.takeFrame
  · have hcopied := fun o bs => h.takeFrame.ofQuiet (((Kept.refl _ (t.takeFrame d die 0).2).pageBytes (d := d) (p := p)).hbmWrite (o := o) (bs := bs))
    split
    · exact Kept.putBad (hcopied _ _)
    · exact hcopied _ _
theorem Kept.forkCopy {w} (h : Kept innKey s t) : Kept innKey s (t.forkCopy w) := by
  unfold State.forkCopy
  split
  · dsimp only
    split
    · exact h.copyPage.upd rfl rfl rfl
    · exact h.copyPage.setPte
  · exact h
theorem Kept.forkTables {d slot index} (h : Kept innKey s t) : Kept innKey s (t.forkTables d slot index) := by
  unfold State.forkTables
  extract_lets p copies s1
  have hs1 : Kept innKey s s1 := h.demoteFor.foldl fun _ _ hu => by split; exacts [hu, .ite hu.setPte hu.forkCopy]
  exact hs1.setPrefix.upd rfl rfl rfl
theorem Kept.freePrefix {d i} (h : Kept innKey s t) : Kept innKey s (t.freePrefix d i) :=
  .setPrefix (.dirFree (h.foldl fun _ _ hu => hu.retirePage.setShared))
theorem Kept.derefPrefix {d i} (h : Kept innKey s t) : Kept innKey s (t.derefPrefix d i) := .ite h.freePrefix h.setPrefix
theorem Kept.derefSession {d slot} (h : Kept innKey s t) : Kept innKey s (t.derefSession d slot) :=
  Kept.upd (h.foldl fun _ _ hu => hu.derefPrefix) rfl rfl rfl
/-- A session's tables and references are freed. -/
theorem Kept.freeTables {d slot} (h : Kept innKey s t) : Kept innKey s (t.freeTables d slot) := by
  unfold State.freeTables
  extract_lets s0 s1
  have hs0 : Kept innKey s s0 := h.foldl fun _ _ hu => .setPte (.ite hu hu.retirePage)
  have hs1 : Kept innKey s s1 := by
    unfold s1
    split
    · exact hs0
    · exact hs0.dirFree.setCtx
  exact hs1.derefSession.upd rfl rfl rfl

end

end Sys2Proof.Machine
end

section
/-! SUPPORT. Admission of an item: it is counted as accepted once, and what answers it leaves the counts and what is admitted alone. -/

namespace Sys2Proof.Machine

section
variable {s t : State}

theorem SameOn.toCounts (h : SameOn innKey s t) : SameOn innCountKey s t := h.mono fun _ => innKey_of_count

theorem Kept.tellAll {K d m} (h : Kept K s t) : Kept K s (t.tellAll d m) := h.upd rfl rfl rfl
/-- What answers leave alone, with the counts: records and entries, and registers that follow. -/
theorem State.answerItem_frame (s : State) (i : Item) (code time pricedEnd : Nat) :
    ∃ g q, s.answerItem i code time pricedEnd = { s with regs := g, postQ := q } := s.postRec_frame _
theorem State.items_answerItem (s : State) (i : Item) (code time pricedEnd : Nat) : (s.answerItem i code time pricedEnd).items = s.items := by
  obtain ⟨g, q, h⟩ := s.answerItem_frame i code time pricedEnd
  rw [h]
theorem State.items_innFollow (s : State) (d : Dye) : (s.innFollow d).items = s.items := by
  obtain ⟨g, h⟩ := s.innFollow_frame d
  rw [h]
/-- The count of accepted items is not among what follows. -/
theorem State.accepted_innFollow (s : State) (d q : Dye) : (s.innFollow d).rdP .inn q INN_D_ACCEPTED = s.rdP .inn q INN_D_ACCEPTED :=
  (SameOn.refl innCountKey s).innFollow.rd (innCountKey_accepted q)
theorem State.accepted_answerItem (s : State) (i : Item) (code time pricedEnd : Nat) (q : Dye) :
    (s.answerItem i code time pricedEnd).rdP .inn q INN_D_ACCEPTED = s.rdP .inn q INN_D_ACCEPTED :=
  (SameOn.refl innKey s).answerItem.toCounts.rd (innCountKey_accepted q)
theorem State.mem_admitItem (s : State) (i : Item) (entries : Nat) (step : Option Word32) (start : Nat) :
    ∃ j ∈ (s.admitItem i entries step start).items, j.uid = s.itemNo ∧ j.raw = i.raw ∧ j.step = step ∧ j.start = start :=
  ⟨_, List.mem_append_right _ (List.mem_singleton_self _), rfl, rfl, rfl, rfl⟩
theorem State.accepted_admitItem (s : State) (i : Item) (entries : Nat) (step : Option Word32) (start : Nat) :
    (s.admitItem i entries step start).rdP .inn i.dye INN_D_ACCEPTED = s.rdP .inn i.dye INN_D_ACCEPTED + 1 :=
  State.rd_bump_self _ _ _

end

end Sys2Proof.Machine
end

section
/-! SUPPORT. Items of steps: R206, R207, R212, R219. -/

namespace Sys2Proof.Machine

section
variable {s : State} {x : Session}

/-- An item that joins a step is counted as accepted and waits with it under the next number, to start when it starts. -/
theorem State.joinStep_results (s : State) (i : Item) (x : Session) (p : Step) (q : Quote) :
    (s.joinStep i x p q).rdP .inn i.dye INN_D_ACCEPTED = s.rdP .inn i.dye INN_D_ACCEPTED + 1 ∧
    ∃ j ∈ (s.joinStep i x p q).items, j.uid = s.itemNo ∧ j.raw = i.raw ∧ j.step = some p.number ∧ j.start = p.start := by
  unfold State.joinStep
  extract_lets layers s1 p' s2
  have hsent : Kept innKey s ((s.claimPages i.dye x.slot p.number layers i.base i.adds).tellAll i.dye
    (.admitted i.dye x.slot p.number layers i.base i.adds)) := (Kept.refl _ s).claimPages.tellAll
  have hcount : s1.rdP .inn i.dye INN_D_ACCEPTED = s.rdP .inn i.dye INN_D_ACCEPTED + 1 := by
    rw [State.accepted_admitItem]
    exact congrArg (· + 1) (hsent.regs.rd (innKey_page i.dye (by decide)))
  obtain ⟨j, hj, huid, hraw, hstep, hstart⟩ := State.mem_admitItem ((s.claimPages i.dye x.slot p.number layers i.base i.adds).tellAll
    i.dye (.admitted i.dye x.slot p.number layers i.base i.adds)) i (i.entries - 1) (some p.number) p.start
  constructor
  · rw [State.accepted_innFollow, State.accepted_answerItem]
    exact hcount
  · rw [State.items_innFollow, State.items_answerItem]
    exact ⟨j, hj, huid.trans (congrArg InnkeeperUnits.itemNo hsent.units), hraw, hstep, hstart⟩

/-- So does one that opens a step, which takes the dye's next number and starts where the search put it. -/
theorem State.openStep_results (s : State) (i : Item) (x : Session) (start : Nat) (q : Quote) :
    (s.openStep i x start q).rdP .inn i.dye INN_D_ACCEPTED = s.rdP .inn i.dye INN_D_ACCEPTED + 1 ∧
    ∃ j ∈ (s.openStep i x start q).items, j.uid = s.itemNo ∧ j.raw = i.raw ∧
      j.step = some (BitVec.ofNat 32 (natGet s.stepNo i.dye.val)) ∧ j.start = start := by
  unfold State.openStep
  extract_lets no p s1
  exact s1.joinStep_results i x p q

/-- A step item as pricing sees it: its rows, the length before it, what it adds, and its bucket (R207, R217). -/
def State.readied (s : State) (i : Item) (x : Session) : Item :=
  { i with rows := s.itemRows i, base := s.projected i.dye x, adds := max i.fewest (s.itemRows i),
           bucket := cfgBucket (s.cfg i.dye) (s.projected i.dye x) }

/-- What a search for a step leads to (R219). -/
def State.follow (s : State) (i : Item) (x : Session) : Found → State
  | .joins p f => s.joinStep i x p f.quote
  | .opens st q => s.openStep i x st q
  | .refused c b => s.refuseItem i c b

/-- A step item whose deadline is in range and whose lane holds every die goes where the search says (R219). -/
theorem State.admitStep_inRange {i : Item} (hlate : s.now ≤ i.deadline) (hearly : i.deadline ≤ s.now + tenSeconds)
    (hlane : s.laneOk i.dye i.prefill = true) : s.admitStep i x = s.follow (s.readied i x) x (s.findStep (s.readied i x) x none) := by
  unfold State.admitStep
  extract_lets base j
  have hready : s.readied i x = j := rfl
  have hdeadline : j.deadline = i.deadline := rfl
  have hok : s.laneOk j.dye j.prefill = true := hlane
  rw [hready, if_neg (by rw [hdeadline]; omega), if_neg (by rw [hok]; decide)]
  cases s.findStep j x none <;> rfl

end

/-- Settles O37: past its checks the item goes where the search says, and joinStep_results says what that leaves. -/
theorem stepItemResults : Obligations.StepItemResults := by
  unfold Obligations.StepItemResults
  intro s d e x hfind hopen i0 u base i hformat hlimit hsess hstate hlength hweights hlate hearly hlane k hk hkind
  obtain ⟨hstep, hnext⟩ := exec_stepItem (s := s) hk
  have hweightsU : u.weightsBad d = false := (s.weightsBad_withInbox _ d).trans hweights
  have hadmit : u.takeItem i0 = u.follow i x (u.findStep i x none) := by
    rw [State.takeItem_session (s := u) (i := i0) hopen hformat (by omega) hsess hstate,
      if_neg (by omega), if_neg (by omega), if_neg (by rw [hlimit, show u.lengthBad i0 x = false from hlength]; decide),
      if_neg (by rw [hweightsU]; decide)]
    exact State.admitStep_inRange hlate hearly hlane
  constructor
  · intro p f hjoins
    obtain ⟨hcount, hitem⟩ := u.joinStep_results i x p f.quote
    refine answers_takeFromInbox hnext hfind hkind ?_
    rw [hadmit, hjoins]
    exact ⟨rfl, hcount, hitem⟩
  · intro st q hopens
    obtain ⟨hcount, hitem⟩ := u.openStep_results i x st q
    refine answers_takeFromInbox hnext hfind hkind ?_
    rw [hadmit, hopens]
    exact ⟨rfl, hcount, hitem⟩

end Sys2Proof.Machine
end

section
/-! SUPPORT. Backlog and lanes of different sizes: R203 compares backlog per region, so a lane with more than twice the other's backlog
gives nothing up where it has the more regions. -/

namespace Sys2Proof.Machine

/-- A step of dye 1 that has not started. -/
def waitingStep (prefill : Bool) (price : Nat) : Step :=
  { dye := 1, prefill := prefill, number := b2n prefill, cls := 0, start := 100000, price := price }

/-- Dye 1 holds regions 0 to 4 of this package (slot 63), its only one: 0 and 1 decode with a backlog of 2 ns, 2 to 4 prefill with one of
5 ns, and its image lists the shape with four prefill regions. -/
def unevenLanes : State :=
  let section_ := fun (b : SectionBody) => ({ type := 0, offset := 0, len := 0, body := b } : Section)
  let image := fun (d : Dye) (bs : List SectionBody) =>
    ({ kind := 1, dye := d, generation := 1, length := 0, keyDigest := 0, digest := 0, sections := bs.map section_ } : Image)
  let entry : PartEntry := { dye := 1, mode := 0, elastic := false, rgnMin := 5, rgnMax := 5, priority := 0, share := 1, minT := [],
                             imageKey := 0, packages := [{ slot := 63, regions := [0, 1, 2, 3, 4] }] }
  { State.reset with
    sysImage := some (image 0 [.partitions [entry]]),
    images := [(1, some (image 1 [.partcfg { prefillMax := 4, shapes := [{ regions := 5, prefillRgn := 4 }] }]))],
    regs := (List.finRange 5).map (fun r => (regKey (.rgn (r.castLE (by decide))) RGN_OWNER, BitVec.ofNat 32 (1 + 16 * r.val))),
    prefillLane := [(2, true), (3, true), (4, true)],
    steps := [waitingStep false 2, waitingStep true 5] }

/-- The prefill lane's backlog is more than twice the decode lane's, but not per region. -/
theorem unevenLanes_backlog : unevenLanes.backlog 1 false = 2 ∧ unevenLanes.backlog 1 true = 5 ∧
    (unevenLanes.laneRegs 1 false).length = 2 ∧ (unevenLanes.laneRegs 1 true).length = 3 := by decide +kernel

/-- RESHARE_TICK leaves lanes alone neither of which has more than twice the other's backlog per region (R203). -/
theorem reshareTick_balanced {s : State} {d : Dye} (hmoves : s.laneMoves = [])
    (hdecode : ¬2 * s.backlog d false * max 1 (s.laneRegs d true).length < s.backlog d true * max 1 (s.laneRegs d false).length)
    (hprefill : ¬2 * s.backlog d true * max 1 (s.laneRegs d false).length < s.backlog d false * max 1 (s.laneRegs d true).length) :
    exec (.reshareTick d) s = .next s := by
  change execReshareTick d s = .next s
  have hlanes : s.applyLaneMoves = s := by rw [State.applyLaneMoves, hmoves, List.foldl_nil]
  simp only [execReshareTick, hlanes, hdecode, hprefill, decide_false, Bool.not_false, Bool.and_self, if_true, ite_self]

/-- Refutes O39: the statement compares the lanes' whole backlogs, R203 and the model their backlogs per region. -/
theorem not_admittedWorkResults : ¬ Obligations.AdmittedWorkResults := by
  unfold Obligations.AdmittedWorkResults
  intro h
  obtain ⟨hreshare, -⟩ := h unevenLanes 1 0 0 0 0
  obtain ⟨t, ht, hmoves, -⟩ := hreshare 1 (by decide +kernel) (by decide +kernel) rfl (by decide +kernel) (by decide +kernel)
    (by decide +kernel) (by decide +kernel) (by decide +kernel) (by decide +kernel)
  obtain ⟨hd, hp, hnd, hnp⟩ := unevenLanes_backlog
  have hsame : exec (.reshareTick 1) unevenLanes = .next unevenLanes :=
    reshareTick_balanced rfl (by rw [hd, hp, hnd, hnp]; decide) (by rw [hd, hp, hnd, hnp]; decide)
  obtain rfl : unevenLanes = t := by injection hsame.symm.trans ht
  exact absurd hmoves (by decide +kernel)

end Sys2Proof.Machine
end

section
/-! SUPPORT. Sessions that open, fork, close, or are hinted at: R204 to R206 and R218. -/

namespace Sys2Proof.Machine

/-- t is s but for registers, records on their way, reserved entries and messages to the other packages. -/
structure Told (s t : State) : Prop where
  rest : t = { s with regs := t.regs, postQ := t.postQ, cqReserved := t.cqReserved, linkTx := t.linkTx }

section
variable {s t u : State}

theorem Told.refl (s : State) : Told s s := ⟨rfl⟩
theorem Told.trans (h : Told s t) (h' : Told t u) : Told s u := ⟨by rw [h'.rest, h.rest]⟩

theorem Told.sess (h : Told s t) (d : Dye) (id : Nat) : t.sess d id = s.sess d id := by rw [h.rest]; rfl
theorem Told.ctx (h : Told s t) (d : Dye) (n : Nat) : t.ctx d n = s.ctx d n := by rw [h.rest]; rfl
theorem Told.prefixRec (h : Told s t) (d : Dye) (n : Nat) : t.prefixRec d n = s.prefixRec d n := by rw [h.rest]; rfl
theorem Told.inbox (h : Told s t) : t.inbox = s.inbox := by rw [h.rest]
theorem Told.items (h : Told s t) : t.items = s.items := by rw [h.rest]
theorem Told.hints (h : Told s t) : t.hints = s.hints := by rw [h.rest]
theorem Told.sram (h : Told s t) : t.sram = s.sram := by rw [h.rest]
theorem Told.acc (h : Told s t) : t.acc = s.acc := by rw [h.rest]
theorem Told.memory (h : Told s t) : SameMemory s t := .of_eq h.sram h.acc (by rw [h.rest])

theorem Told.postRec (h : Told s t) (p : PostRec) : Told s (t.postRec p) := by
  obtain ⟨g, q, hpost⟩ := t.postRec_frame p
  exact h.trans ⟨by rw [hpost]⟩
theorem Told.answerItem (h : Told s t) (i : Item) (code time pricedEnd : Nat) : Told s (t.answerItem i code time pricedEnd) := h.postRec _
theorem Told.reportPlain (h : Told s t) (i : Item) (n : Nat) : Told s (t.reportPlain i n) := h.postRec _
theorem Told.tellAll (h : Told s t) (d : Dye) (m : ControlMsg) : Told s (t.tellAll d m) := h.trans ⟨rfl⟩
theorem Told.giveEntries (h : Told s t) (d : Dye) (n : Nat) : Told s (t.giveEntries d n) := h.trans ⟨rfl⟩
theorem Told.wr (h : Told s t) (w : Win) (o : Nat) (v : Word32) : Told s (t.wr w o v) := h.trans ⟨rfl⟩
theorem Told.innFollow (h : Told s t) (d : Dye) : Told s (t.innFollow d) := by
  obtain ⟨g, hfollow⟩ := t.innFollow_frame d
  exact h.trans ⟨by rw [hfollow]⟩

/-! ### The end of an admission outside steps: the item is counted, and the entries that it will not use are given back -/

/-- An item counted as accepted, its spare entries given back, and the registers that follow. -/
def State.countAccepted (s : State) (d : Dye) (n : Nat) : State := ((s.bumpP .inn d INN_D_ACCEPTED).giveEntries d n).innFollow d

theorem Told.countAccepted (h : Told s t) (d : Dye) (n : Nat) : Told s (t.countAccepted d n) := ((h.wr _ _ _).giveEntries d n).innFollow d
theorem State.accepted_countAccepted (s : State) (d : Dye) (n : Nat) :
    (s.countAccepted d n).rdP .inn d INN_D_ACCEPTED = s.rdP .inn d INN_D_ACCEPTED + 1 := by
  unfold State.countAccepted
  rw [State.accepted_innFollow, State.rdP, State.rd_giveEntries]
  exact State.rd_bump_self _ _ _

/-! ### OPEN (R204) -/

theorem not_innCountKey_sessions (d : Dye) : ¬innCountKey (regKey .inn (pageOff d INN_D_SESSIONS)) :=
  not_innCountKey_page d (by decide) (by decide) (by decide)

/-- A session placed: its record, its context, and nothing in a memory. -/
theorem State.placeSession_results (s : State) (i : Item) (len g : Nat) : let t := s.placeSession i len g
    (∃ x, t.sess i.dye i.session = some x ∧ x.slot = s.freeSlot i.dye ∧ x.group = g ∧ x.cls = i.cls ∧ x.maxLen = i.arg ∧ x.len = len) ∧
    (∃ c, t.ctx i.dye (s.freeSlot i.dye) = some c ∧ c.id = i.session ∧ c.temp = i.temp ∧ c.topK = i.topK ∧ c.topP = i.topP ∧
      c.seed = i.seed ∧ c.len = len) ∧
    t.inbox = s.inbox ∧ SameMemory s t ∧ SameOn innCountKey s t ∧ t.prefixes = s.prefixes := by
  intro t
  refine ⟨⟨_, tabGet_tabSet_self _ _ _ _, rfl, rfl, rfl, rfl, rfl⟩, ⟨_, tabGet_tabSet_self _ _ _ _, rfl, rfl, rfl, rfl, rfl, rfl⟩, rfl,
    .of_eq rfl rfl rfl, ?_, rfl⟩
  exact (((SameOn.refl _ s).upd (by rfl)).wrP (not_innCountKey_sessions i.dye)).upd rfl

/-- An OPEN in order places its session (R204). -/
theorem State.admitOpen_results {i : Item} {g : Nat} (hgroup : s.pickGroup i.dye = some g) : let t := s.admitOpen i
    t.rdP .inn i.dye INN_D_ACCEPTED = s.rdP .inn i.dye INN_D_ACCEPTED + 1 ∧ Told (s.placeSession i 0 g) t := by
  intro t
  have ht : t = ((s.placeSession i 0 g).answerItem i 0 s.now s.now).countAccepted i.dye (i.entries - 1) := by
    simp only [t, State.admitOpen, hgroup]
    rfl
  obtain ⟨-, -, -, -, hcounts, -⟩ := s.placeSession_results i 0 g
  rw [ht]
  refine ⟨?_, ((Told.refl _).answerItem _ _ _ _).countAccepted _ _⟩
  rw [State.accepted_countAccepted, State.accepted_answerItem]
  exact congrArg (· + 1) (hcounts.rd (innCountKey_accepted i.dye))

/-! ### FORK (R149, R218) -/

/-- A fork's tables: the prefix has one reference more. -/
theorem State.prefixRec_forkTables (s : State) (d : Dye) (slot index : Nat) :
    ((s.forkTables d slot index).prefixRec d index).count = (s.prefixRec d index).count + 1 :=
  congrArg PrefixRec.count (tabGet_tabSet_self prefixReset _ _ _)

/-- A FORK whose handle, frames and time are in order builds its session from the prefix. -/
theorem State.admitFork_results {i : Item} {index g f : Nat} (hlate : s.now ≤ i.deadline) (hearly : i.deadline ≤ s.now + tenSeconds)
    (hhandle : s.handleIndex i.dye i.addr = some index) (hlost : (s.prefixRec i.dye index).lost = false)
    (hwhole : (s.prefixRec i.dye index).len % 256 = 0) (hgroup : s.pickGroup i.dye = some g) (hframes : s.framesReady i.dye 0 = some f)
    (hready : f ≤ i.deadline)
    (htime : s.now + movesNs (s.pageMoves.length + ((s.prefixRec i.dye index).table.map (·.1)).dedup.length) s.tier0Rate ≤ i.deadline) :
    let t := s.admitFork i
    let len := (s.prefixRec i.dye index).len
    t.rdP .inn i.dye INN_D_ACCEPTED = s.rdP .inn i.dye INN_D_ACCEPTED + 1 ∧
    Told ((s.placeSession i len g).forkTables i.dye (s.freeSlot i.dye) index) t := by
  intro t len
  let e := s.now + movesNs (s.pageMoves.length + ((s.prefixRec i.dye index).table.map (·.1)).dedup.length) s.tier0Rate
  let u := (s.placeSession i len g).forkTables i.dye (s.freeSlot i.dye) index
  let v := ((u.answerItem i 0 s.now (max e f)).reportPlain i len).tellAll i.dye (.fork i.dye (s.freeSlot i.dye) index)
  have ht : t = v.countAccepted i.dye (i.entries - 2) := by
    have hin : ¬(i.deadline < s.now ∨ s.now + tenSeconds < i.deadline) := by omega
    have hdue : ¬i.deadline < max e f := by simp only [e]; omega
    simp only [t, State.admitFork, if_neg hin, hhandle, hlost, hwhole, hgroup, hframes, if_true, Bool.false_eq_true, if_false]
    rw [if_neg hdue]
    rfl
  obtain ⟨-, -, -, -, hcounts, -⟩ := s.placeSession_results i len g
  have htables : SameOn innCountKey s u := hcounts.trans (Kept.refl _ _).forkTables.regs.toCounts
  rw [ht]
  refine ⟨?_, ((((Told.refl _).answerItem _ _ _ _).reportPlain _ _).tellAll _ _).countAccepted _ _⟩
  rw [State.accepted_countAccepted]
  refine congrArg (· + 1) ((SameOn.toCounts ?_).rd (innCountKey_accepted i.dye) |>.trans (htables.rd (innCountKey_accepted i.dye)))
  exact (SameOn.refl innKey u).answerItem.postRec.tellAll

/-! ### SUSPEND and RESUME (R158, R159) -/

/-- The end of a session's promotion: entries and moves, and what paging touches. -/
theorem State.stopPromotion_paged (s : State) (d : Dye) (slot : Nat) :
    ∃ a b l, Paged { s with ptes := a, shared := b, pageMoves := l } (s.stopPromotion d slot) := by
  unfold State.stopPromotion
  refine foldl_keeps (P := fun t => ∃ a b l, Paged { s with ptes := a, shared := b, pageMoves := l } t) (fun t m ht => ?_) _ s
    ⟨_, _, _, .refl s⟩
  obtain ⟨a, b, l, hpaged⟩ := ht
  split
  · exact ⟨a, b, l, hpaged⟩
  · next p _ =>
    obtain ⟨a', b', hput⟩ := t.setMovePte_paged m { p with busy := false }
    exact ⟨a', b', _, (((hpaged.withPtes a').withShared b').trans hput).withMoves _⟩

/-- A suspend hint taken: it is listed, and no byte of a scratchpad or an accumulator changes. -/
theorem State.takeHint_suspend (s : State) (d : Dye) (slot tier x : Nat) : let t := s.takeHint d slot false tier x
    (∃ h ∈ t.hints, h.dye = d ∧ h.session = slot ∧ h.resume = false ∧ h.tier = tier) ∧ Kept innKey s t ∧ t.sram = s.sram ∧ t.acc = s.acc := by
  intro t
  obtain ⟨a, b, l, hpaged⟩ := s.stopPromotion_paged d slot
  have hkept : Kept innKey s (s.stopPromotion d slot) := (Kept.refl _ s).putTables.ofPaged hpaged
  exact ⟨⟨_, List.mem_append_right _ (List.mem_singleton_self _), rfl, rfl, rfl, rfl⟩, hkept.upd rfl rfl rfl, hpaged.sram, hpaged.acc⟩

/-- A resume hint taken: it is listed, and no memory changes. -/
theorem State.takeHint_resume (s : State) (d : Dye) (slot tier x : Nat) : let t := s.takeHint d slot true tier x
    (∃ h ∈ t.hints, h.dye = d ∧ h.session = slot ∧ h.resume = true ∧ h.x = x) ∧ Kept innKey s t ∧ SameMemory s t :=
  ⟨⟨_, List.mem_append_right _ (List.mem_singleton_self _), rfl, rfl, rfl, rfl⟩, (Kept.refl _ s).upd rfl rfl rfl, .of_eq rfl rfl rfl⟩

/-- A hint that is passed on is counted as accepted, and beside what taking it does only answers and messages change. -/
theorem State.admitHint_results (s : State) (i : Item) (x : Session)
    (hkept : Kept innKey s (s.takeHint i.dye x.slot (i.kind == 6) (if i.kind == 6 then 0 else i.arg) (if i.kind == 6 then i.arg else 0))) :
    (s.admitHint i x).rdP .inn i.dye INN_D_ACCEPTED = s.rdP .inn i.dye INN_D_ACCEPTED + 1 ∧
    Told (s.takeHint i.dye x.slot (i.kind == 6) (if i.kind == 6 then 0 else i.arg) (if i.kind == 6 then i.arg else 0)) (s.admitHint i x) := by
  refine ⟨?_, (((Told.refl _).tellAll _ _).answerItem _ _ _ _).countAccepted _ _⟩
  refine (State.accepted_countAccepted _ _ _).trans (congrArg (· + 1) ?_)
  rw [State.accepted_answerItem]
  exact hkept.tellAll.regs.toCounts.rd (innCountKey_accepted i.dye)

/-! ### CLOSE (R141, R150, R218) -/

/-- A session freed is gone with its context. -/
theorem State.freeSession_results (s : State) (d : Dye) (x : Session) : let t := s.freeSession d x
    t.sess d x.id = none ∧ t.ctx d x.slot = none ∧ t.inbox = s.inbox ∧ SameOn innCountKey s t := by
  intro t
  have htables : Kept innKey s (s.freeTables d x.slot) := (Kept.refl _ s).freeTables
  refine ⟨tabGet_tabSet_self _ _ _ _, tabGet_tabSet_self _ _ _ _, htables.inbox, ?_⟩
  have hfreed : SameOn innCountKey s (((s.freeTables d x.slot).setCtx d x.slot none).setSess d x.id none) :=
    htables.regs.toCounts.upd rfl
  exact (hfreed.wrP (not_innCountKey_sessions d)).upd rfl

/-- The CLOSE of a session without another item posts its report and frees it. -/
theorem State.closeIfDone_results {d : Dye} {id : Nat} {x : Session} (hsess : s.sess d id = some x) (hclosing : x.closing = true)
    (hitems : ∀ j ∈ s.sessItems d id, j.kind = 8) : let t := s.closeIfDone d id
    t.sess d x.id = none ∧ t.ctx d x.slot = none ∧ t.inbox = s.inbox ∧ SameOn innCountKey s t := by
  intro t
  have hall : (x.closing && (s.sessItems d id).all (fun j => j.kind == 8)) = true := by
    simpa [hclosing] using hitems
  let u := (s.sessItems d id).foldl (fun (t : State) j => (t.reportPlain j x.len).giveEntries d (j.entries - 1)) s
  let v : State := { u with items := u.items.filter (fun j => !(s.sessItems d id).any (fun q => q.uid == j.uid)) }
  have ht : t = (v.freeSession d x).innFollow d := by
    simp only [t, State.closeIfDone, hsess, hall, if_true]
    rfl
  have hposted : Told s u ∧ SameOn innKey s u := foldl_keeps (P := fun t => Told s t ∧ SameOn innKey s t)
    (fun t j h => ⟨(h.1.reportPlain _ _).giveEntries _ _, h.2.postRec.giveEntries⟩) _ s ⟨.refl s, .refl _ s⟩
  obtain ⟨htold, hregs⟩ := hposted
  obtain ⟨hgone, hctx, hinbox, hcounts⟩ := v.freeSession_results d x
  have hfollow : Told (v.freeSession d x) t := ht ▸ (Told.refl _).innFollow d
  refine ⟨(hfollow.sess _ _).trans hgone, (hfollow.ctx _ _).trans hctx, hfollow.inbox.trans (hinbox.trans htold.inbox), ?_⟩
  rw [ht]
  exact ((hregs.toCounts.upd rfl : SameOn innCountKey s v).trans hcounts).innFollow

/-- A CLOSE of a session without an admitted item is counted as accepted and ends the session. -/
theorem State.admitClose_results {i : Item} {x : Session} (hkind : i.kind = 8) (hnone : s.sessItems i.dye i.session = []) :
    let t := s.admitClose i x
    t.rdP .inn i.dye INN_D_ACCEPTED = s.rdP .inn i.dye INN_D_ACCEPTED + 1 ∧ t.inbox = s.inbox ∧
    t.sess i.dye x.id = none ∧ t.ctx i.dye x.slot = none := by
  intro t
  let e := max s.now (s.afterItems i)
  let u := (s.answerItem i 0 e e).admitItem i (i.entries - 1) none s.now
  let v := u.setSess i.dye i.session (some { x with closing := true })
  have hanswered : Told s (s.answerItem i 0 e e) := (Told.refl s).answerItem _ _ _ _
  have hitems : ∀ j ∈ v.sessItems i.dye i.session, j.kind = 8 := by
    intro j hj
    obtain ⟨hmem, hof⟩ := List.mem_filter.1 hj
    obtain hold | hnew := List.mem_append.1 hmem
    · rw [hanswered.items] at hold
      exact absurd (List.mem_filter.2 ⟨hold, hof⟩) (by rw [State.sessItems] at hnone; rw [hnone]; exact List.not_mem_nil)
    · rw [List.mem_singleton.1 hnew]
      exact hkind
  obtain ⟨hgone, hctx, hinbox, hcounts⟩ := State.closeIfDone_results (s := v) (x := { x with closing := true })
    (tabGet_tabSet_self _ _ _ _) rfl hitems
  have hfollow : Told (v.closeIfDone i.dye i.session) t := (Told.refl _).innFollow i.dye
  refine ⟨?_, hfollow.inbox.trans (hinbox.trans hanswered.inbox), (hfollow.sess _ _).trans hgone, (hfollow.ctx _ _).trans hctx⟩
  refine (State.accepted_innFollow _ _ _).trans ((hcounts.rd (innCountKey_accepted i.dye)).trans ?_)
  have hcount : u.rdP .inn i.dye INN_D_ACCEPTED = s.rdP .inn i.dye INN_D_ACCEPTED + 1 := by
    rw [State.accepted_admitItem, State.accepted_answerItem]
  exact hcount

end

/-- Settles O36: takeItem sends each item to its kind, whose results are those above. -/
theorem sessionResults : Obligations.SessionResults := by
  unfold Obligations.SessionResults
  intro s d e hfind hopen i u counted hformat
  constructor
  · intro g hnew hload hlimit hweights hgroup
    have hadmit : i.kind = 1 ∨ i.kind = 7 → u.takeItem i = if i.kind = 1 then u.admitOpen i else u.admitFork i := fun hkind =>
      State.takeItem_new (s := u) (i := i) hopen hformat hkind hnew hload hlimit ((s.weightsBad_withInbox _ d).trans hweights)
    constructor
    · intro hkind
      obtain ⟨hcount, htold⟩ := State.admitOpen_results (s := u) (i := i) (g := g) hgroup
      obtain ⟨⟨x, hsess, hx⟩, ⟨c, hctx, hc⟩, hinbox, hmemory, -, -⟩ := u.placeSession_results i 0 g
      refine answers_takeFromInbox rfl hfind hkind ?_
      rw [hadmit (.inl hkind), if_pos hkind]
      exact ⟨rfl, ⟨hcount, htold.inbox.trans hinbox⟩, ⟨x, (htold.sess _ _).trans hsess, hx⟩, ⟨c, (htold.ctx _ _).trans hctx, hc⟩,
        SameMemory.trans hmemory htold.memory⟩
    · intro ix f hkind hlate hearly hhandle hlost hwhole hframes hready htime
      let p := u.placeSession i (s.prefixRec d ix).len g
      obtain ⟨hcount, htold⟩ := State.admitFork_results (s := u) (i := i) hlate hearly hhandle hlost hwhole hgroup hframes hready htime
      obtain ⟨⟨x, hsess, -, hgrp, -, -, hlen⟩, -, hinbox, -, -, hprefixes⟩ := u.placeSession_results i (s.prefixRec d ix).len g
      have htables : Kept innKey p (p.forkTables d (u.freeSlot d) ix) := (Kept.refl _ p).forkTables
      have hkeeps : (p.forkTables d (u.freeSlot d) ix).sess d i.session = p.sess d i.session :=
        congrArg (fun n : InnkeeperUnits => tabGet (fun _ => none) n.sessions (sessKey d i.session)) htables.units
      have hprefix : p.prefixRec d ix = s.prefixRec d ix := congrArg (tabGet prefixReset · _) hprefixes
      refine answers_takeFromInbox rfl hfind hkind ?_
      rw [hadmit (.inr hkind), if_neg (by omega)]
      refine ⟨rfl, ⟨hcount, htold.inbox.trans (htables.inbox.trans hinbox)⟩, ⟨x, ?_, hlen, hgrp⟩, ?_⟩
      · exact (htold.sess _ _).trans (hkeeps.trans hsess)
      · rw [htold.prefixRec]
        exact (p.prefixRec_forkTables d _ ix).trans (by rw [hprefix])
  · intro x hsess hstate
    have hadmit : i.kind ≠ 1 → i.kind ≠ 7 → _ := fun h1 h7 =>
      State.takeItem_session (s := u) (i := i) hopen hformat (by omega) hsess hstate
    refine ⟨fun hkind hnone => ?_, fun hkind => ?_, fun hkind => ?_⟩
    · refine answers_takeFromInbox rfl hfind hkind ?_
      rw [hadmit (by omega) (by omega), if_pos hkind]
      obtain ⟨hcount, hinbox, hgone, hctx⟩ := State.admitClose_results (s := u) (x := x) hkind hnone
      exact ⟨rfl, ⟨hcount, hinbox⟩, hgone, hctx⟩
    · have hsuspend : (i.kind == 6) = false := by rw [hkind]; rfl
      obtain ⟨hhint, hkept, hsram, hacc⟩ := u.takeHint_suspend d x.slot i.arg 0
      have hresults := u.admitHint_results i x
      simp only [hsuspend] at hresults
      obtain ⟨hcount, htold⟩ := hresults hkept
      refine answers_takeFromInbox rfl hfind hkind ?_
      rw [hadmit (by omega) (by omega), if_neg (by omega), if_pos (.inl hkind)]
      exact ⟨rfl, ⟨hcount, htold.inbox.trans hkept.inbox⟩, htold.hints ▸ hhint, htold.sram.trans hsram, htold.acc.trans hacc⟩
    · have hresume : (i.kind == 6) = true := by rw [hkind]; rfl
      obtain ⟨hhint, hkept, hmemory⟩ := u.takeHint_resume d x.slot 0 i.arg
      have hresults := u.admitHint_results i x
      simp only [hresume] at hresults
      obtain ⟨hcount, htold⟩ := hresults hkept
      refine answers_takeFromInbox rfl hfind hkind ?_
      rw [hadmit (by omega) (by omega), if_neg (by omega), if_pos (.inr hkind)]
      exact ⟨rfl, ⟨hcount, htold.inbox.trans hkept.inbox⟩, htold.hints ▸ hhint, hmemory.trans htold.memory⟩

end Sys2Proof.Machine
end

section
/-! SUPPORT. What the power of regions, the plans in HBM and the cores of a region leave alone: the Innkeeper's plans and steps. -/

namespace Sys2Proof.Machine

/-- The registers of any window but the Innkeeper's are none of its. -/
theorem not_innKey {w : Win} {o : Nat} (ho : o < 0x10000) (hw : winIndex w ≠ 1) : ¬innKey (regKey w o) := by
  simp only [innKey, regKey, show winIndex .inn = 1 from rfl]; omega
theorem rgnReg_lt (r : RegionNo) : rgnReg r < 0x10000 := by
  have := r.isLt; simp only [rgnReg, PWR_RGN_STATUS]; omega
theorem not_innKey_rgnReg (r : RegionNo) : ¬innKey (regKey .pwr (rgnReg r)) := not_innKey (rgnReg_lt r) (by decide)

section
variable {K : Nat → Prop} {s t u : State}

theorem SameOn.resetWin {w : Win} {lo hi : Nat} (h : SameOn K s t) (hk : ∀ k, K k → ¬(regKey w lo ≤ k ∧ k < regKey w hi)) :
    SameOn K s (t.resetWin w lo hi) := fun k hkk =>
  ((tabGet_tabClear _ _ _ _ _).trans (if_neg (hk k hkk))).trans (h k hkk)
theorem Kept.resetWin {w : Win} (h : Kept innKey s t) (hw : winIndex w ≠ 1) : Kept innKey s (t.resetWin w 0 0x10000) := by
  refine ⟨h.units, h.inbox, h.regs.resetWin fun k hk => ?_⟩
  simp only [innKey, regKey, show winIndex .inn = 1 from rfl] at hk ⊢
  omega
theorem Kept.setFld {w o lo n v} (h : Kept K s t) (hk : ¬K (regKey w o)) : Kept K s (t.setFld w o lo n v) := h.wr hk
theorem Kept.permissionError {n} (h : Kept K s t) : Kept K s (t.permissionError n) := h.upd rfl rfl rfl

/-! ### The tests of a region's slices, and its windows -/

theorem Kept.putBytes {a e} (h : Kept K s t) : Kept K s { t with sram := a, spdErr := e } := h.upd rfl rfl rfl
theorem Kept.putUeSeen {x} (h : Kept K s t) : Kept K s { t with ueSeen := x } := h.upd rfl rfl rfl
theorem Kept.bufClear {c} (h : Kept K s t) : Kept K s (t.bufClear c) := h.putBytes
theorem Kept.bufBack {c w} (h : Kept K s t) : Kept K s (t.bufBack c w) := h.putBytes
theorem Kept.testRestore {c} (h : Kept K s t) : Kept K s (t.testRestore c) := .bufClear (h.foldl fun _ _ hu => hu.bufBack)
theorem Kept.testRelease {c} (h : Kept quietKey s t) : Kept quietKey s (t.testRelease c) :=
  .ite (h.setBist.setFld (not_quietKey_spd _ _)) h.setBist
theorem Kept.bistBits {r} (h : Kept quietKey s t) : Kept quietKey s (t.bistBits r) :=
  (h.setBit (not_quietKey_spd _ _)).setBit (not_quietKey_spd _ _)
theorem Kept.testsEnd {r} (h : Kept quietKey s t) : Kept quietKey s (t.testsEnd r) :=
  .ite (.bistBits (h.foldl fun _ _ hu => .ite hu.testRestore.testRelease hu)) h
theorem Kept.testDrop {c first last} (h : Kept K s t) : Kept K s (t.testDrop c first last) :=
  .ite (.setBist (.ite h.bufClear h.testRestore)) h.setBist
theorem Kept.zeroRows {c first last} (h : Kept K s t) : Kept K s (t.zeroRows c first last) := by
  unfold State.zeroRows
  extract_lets s0
  have hs0 : Kept K s s0 := by
    unfold s0
    split
    · exact .ite h.bufClear h
    · exact h
  exact hs0.upd rfl rfl rfl
theorem Kept.flipRow {c act r} (h : Kept K s t) : Kept K s (t.flipRow c act r) := Kept.upd (Kept.zeroRows (.ite h.testDrop h)) rfl rfl rfl
theorem Kept.clrEnd {r st cause cycles retried} (h : Kept quietKey s t) : Kept quietKey s (t.clrEnd r st cause cycles retried) :=
  (((h.setFld (not_quietKey_spd _ _)).setFld (not_quietKey_spd _ _)).setBit (not_quietKey_spd _ _)).setFld (not_quietKey_spd _ _)
theorem Kept.classWrite {c n v} (h : Kept quietKey s t) : Kept quietKey s (t.classWrite c n v) :=
  .ite (h.wr (not_quietKey_spd _ _)).answer
    (.answer (.wr (.clrEnd (.bistBits (.setFld (h.foldl fun _ _ hu => hu.flipRow) (not_quietKey_spd _ _)))) (not_quietKey_spd _ _)))
theorem Kept.winWrite {m r k n v} (h : Kept quietKey s t) : Kept quietKey s (t.winWrite m r k n v) :=
  .ite h.permissionError (.ite (h.upd rfl rfl rfl) h.classWrite)
theorem Kept.maccWrite {m r i v} (h : Kept quietKey s t) : Kept quietKey s (t.maccWrite m r i v) :=
  .ite h.permissionError (h.wr (not_quietKey_spd _ _)).answer

/-! ### The cores of a region (R89, R232) -/

theorem Kept.loadSet {r macc progs cores} (h : Kept quietKey s t) : Kept quietKey s (t.loadSet r macc progs cores) :=
  .foldl (h.foldl fun _ _ hu => hu.maccWrite) fun _ _ hu => Kept.putUeSeen (Kept.onCore (hu.foldl fun _ _ hv => hv.winWrite))
theorem Kept.startBarriers {c} (h : Kept K s t) : Kept K s (t.startBarriers c) := h.foldl fun _ _ hu => .ite (hu.upd rfl rfl rfl) hu
theorem Kept.coreGo {c} (h : Kept K s t) : Kept K s (t.coreGo c) := by
  unfold State.coreGo
  split
  · exact h.startBarriers.onCore
  · exact h.onCore
  · exact h.onCore
  · exact h

/-! ### The power of a region (R306 to R309) -/

theorem Kept.pend {r n} (h : Kept K s t) : Kept K s (t.pend r n) := h.upd rfl rfl rfl
theorem Kept.setRgnState {r v} (h : Kept innKey s t) : Kept innKey s (t.setRgnState r v) := h.setFld (not_innKey_rgnReg r)
theorem Kept.setRgnTarget {r v} (h : Kept innKey s t) : Kept innKey s (t.setRgnTarget r v) := h.setFld (not_innKey_rgnReg r)
theorem Kept.setRgnFreq {r v} (h : Kept innKey s t) : Kept innKey s (t.setRgnFreq r v) := h.setFld (not_innKey_rgnReg r)
theorem Kept.pkgFollow (h : Kept innKey s t) : Kept innKey s t.pkgFollow := h.setFld (not_innKey (by decide) (by decide))
theorem Kept.hbmAwake {ctl} (h : Kept innKey s t) : Kept innKey s (t.hbmAwake ctl) :=
  .ite (h.setFld (not_innKey (by decide) (by simp only [winIndex]; omega))).pkgFollow h
theorem Kept.atpClearStart {r} (h : Kept innKey s t) : Kept innKey s (t.atpClearStart r) :=
  have hwin : winIndex (.atp r) ≠ 1 := by simp only [winIndex]; omega
  (Kept.resetWin (t := t.setAtp r {}) (h.upd rfl rfl rfl) hwin).setBit (not_innKey (by decide) hwin)
theorem Kept.couClearStart {r} (h : Kept innKey s t) : Kept innKey s (t.couClearStart r) :=
  have hwin : winIndex (.cou r) ≠ 1 := by simp only [winIndex]; omega
  (Kept.resetWin (t := t.setCou r {}) (h.upd rfl rfl rfl) hwin).setBit (not_innKey (by decide) hwin)
theorem Kept.wakeClearing {r} (h : Kept innKey s t) : Kept innKey s (t.wakeClearing r) := by
  have hspd := fun o => mt (quietKey_of_inn (k := regKey (.spd r) o)) (not_quietKey_spd r o)
  exact ((h.atpClearStart.couClearStart.setFld (hspd _)).setFld (hspd _)).setBit (hspd _)
theorem Kept.dieAwake {die} (h : Kept innKey s t) : Kept innKey s (t.dieAwake die) := h.foldl fun _ _ hu => hu.hbmAwake
theorem Kept.putWakeFrom {x} (h : Kept K s t) : Kept K s { t with wakeFrom := x } := h.upd rfl rfl rfl
theorem Kept.beginWake {r from_ target} (h : Kept innKey s t) : Kept innKey s (t.beginWake r from_ target) :=
  Kept.putWakeFrom (Kept.setRgnTarget (Kept.setRgnState (.ite (h.wakeClearing.dieAwake.setFld (not_innKey_rgnReg r)) h)))
theorem Kept.beginEntry {r target} (h : Kept innKey s t) : Kept innKey s (t.beginEntry r target) :=
  .setRgnFreq (.setRgnTarget (.setRgnState (.ite (h.ofQuiet (Kept.refl _ t).testsEnd) h)))
theorem Kept.rgnRequest {r target} (h : Kept innKey s t) : Kept innKey s (t.rgnRequest r target) := by
  have hflag := fun n v => h.setFld (lo := n) (n := 1) (v := v) (not_innKey_rgnReg r)
  unfold State.rgnRequest
  extract_lets
  refine .ite h (.ite h (.ite h.pend (.ite (.ite h.setRgnTarget.pend h.pend) (.ite (.ite (hflag _ _).pend h.pend) (.ite h.pend ?_)))))
  exact .ite (hflag _ _).pend.beginWake (.ite (.ite h.beginEntry.pend.pkgFollow h.pend) (.ite h.beginEntry.pend h.beginWake.pend))

end

end Sys2Proof.Machine
end

section
/-! SUPPORT. Plans and steps as lists: what finds and replaces a step, what leaves the lists alone. -/

namespace Sys2Proof.Machine

/-- No plan and no step has come, gone or changed. -/
structure SamePlans (s t : State) : Prop where
  plans : t.plans = s.plans
  steps : t.steps = s.steps

/-- No byte of a scratchpad or an accumulator has changed. -/
structure SameTiles (s t : State) : Prop where
  sram : t.sram = s.sram
  acc : t.acc = s.acc

section
variable {K : Nat → Prop} {s t u : State}

theorem SamePlans.refl (s : State) : SamePlans s s := ⟨rfl, rfl⟩
theorem SamePlans.trans (h : SamePlans s t) (h' : SamePlans t u) : SamePlans s u := ⟨h'.plans.trans h.plans, h'.steps.trans h.steps⟩
theorem SamePlans.foldl {α : Type} {l : List α} {f : State → α → State} (h : SamePlans s t)
    (hf : ∀ u a, SamePlans s u → SamePlans s (f u a)) : SamePlans s (l.foldl f t) := foldl_keeps hf l t h
theorem Kept.samePlans (h : Kept K s t) : SamePlans s t :=
  ⟨congrArg InnkeeperUnits.plans h.units, congrArg InnkeeperUnits.steps h.units⟩
theorem SamePlans.keep (h : SamePlans s t) (h' : Kept K t u) : SamePlans s u := h.trans h'.samePlans
theorem SamePlans.innFollow {d} (h : SamePlans s t) : SamePlans s (t.innFollow d) := by
  obtain ⟨g, hfollow⟩ := t.innFollow_frame d
  exact h.trans ⟨by rw [hfollow], by rw [hfollow]⟩
theorem SamePlans.stepNamed (h : SamePlans s t) (d : Dye) (no : Word32) : t.stepNamed d no = s.stepNamed d no :=
  congrArg (List.find? _) h.steps

theorem SameTiles.refl (s : State) : SameTiles s s := ⟨rfl, rfl⟩
theorem SameTiles.trans (h : SameTiles s t) (h' : SameTiles t u) : SameTiles s u := ⟨h'.sram.trans h.sram, h'.acc.trans h.acc⟩
theorem SameTiles.ite {p : Prop} [Decidable p] (ht : SameTiles s t) (hu : SameTiles s u) : SameTiles s (if p then t else u) := by
  split
  · exact ht
  · exact hu
theorem SameTiles.foldl {α : Type} {l : List α} {f : State → α → State} (h : SameTiles s t)
    (hf : ∀ u a, SameTiles s u → SameTiles s (f u a)) : SameTiles s (l.foldl f t) := foldl_keeps hf l t h
theorem SameTiles.wr {w o v} (h : SameTiles s t) : SameTiles s (t.wr w o v) := h.trans ⟨rfl, rfl⟩
theorem SameTiles.setFld {w o lo n v} (h : SameTiles s t) : SameTiles s (t.setFld w o lo n v) := h.wr
theorem SameTiles.setBit {w o i b} (h : SameTiles s t) : SameTiles s (t.setBit w o i b) := h.wr

/-! ### Steps by their number -/

/-- A step replaced is the one found under its number. -/
theorem State.stepNamed_setStep {d : Dye} {no : Word32} {p p' : Step} (h : s.stepNamed d no = some p) (hdye : p'.dye = p.dye)
    (hnumber : p'.number = p.number) : (s.setStep p').stepNamed d no = some p' := by
  have hp := List.find?_some h
  simp only [Bool.and_eq_true, beq_iff_eq] at hp
  have hsame : ((fun p : Step => p.dye == d && p.number == no) ∘ fun w : Step => if w.dye = p'.dye ∧ w.number = p'.number then p' else w) =
      fun p => p.dye == d && p.number == no := by
    funext w
    simp only [Function.comp_apply]
    split
    · next hw => rw [hw.1, hw.2]
    · rfl
  rw [State.stepNamed, State.setStep, List.find?_map, hsame]
  rw [State.stepNamed] at h
  rw [h, Option.map_some, if_pos ⟨hdye.symm, hnumber.symm⟩]
/-- A step dropped is found no more. -/
theorem State.stepNamed_of_filter {d : Dye} {no : Word32} (h : t.steps = s.steps.filter fun p => !(p.dye == d && p.number == no)) :
    t.stepNamed d no = none := by
  rw [State.stepNamed, h, List.find?_filter, List.find?_eq_none]
  rintro p - hp
  obtain ⟨hkept, hnamed⟩ := of_decide_eq_true hp
  rw [hnamed] at hkept
  exact absurd hkept (by decide)

/-! ### A plan laid, and its regions woken (R214, R307) -/

theorem SameTiles.hbmWrite {o bs} (h : SameTiles s t) : SameTiles s (t.hbmWrite o bs) :=
  have hrest := (Traffic.hbmWrite t o bs).rest
  h.trans ⟨by rw [hrest], by rw [hrest]⟩
theorem SameTiles.drvFollow {e d} (h : SameTiles s t) : SameTiles s (t.drvFollow e d) := by
  obtain ⟨g, hfollow, -⟩ := t.drvFollow_onlyRegs e d
  exact h.trans ⟨by rw [hfollow], by rw [hfollow]⟩
theorem SameTiles.drvPlan {e d a} (h : SameTiles s t) : SameTiles s (t.drvPlan e d a) := by
  rw [State.drvPlan_eq]
  exact .drvFollow (h.trans ⟨rfl, rfl⟩)
theorem SameTiles.layPlan {p} (h : SameTiles s t) : SameTiles s (t.layPlan p) := .ite h (h.hbmWrite.foldl fun _ _ hu => hu.drvPlan)

theorem SameTiles.hbmAwake {ctl} (h : SameTiles s t) : SameTiles s (t.hbmAwake ctl) := .ite h.setFld.setFld h
theorem SameTiles.atpClearStart {r} (h : SameTiles s t) : SameTiles s (t.atpClearStart r) :=
  .setBit (h.trans ⟨rfl, rfl⟩ : SameTiles s ((t.setAtp r {}).resetWin (.atp r) 0 0x10000))
theorem SameTiles.couClearStart {r} (h : SameTiles s t) : SameTiles s (t.couClearStart r) :=
  .setBit (h.trans ⟨rfl, rfl⟩ : SameTiles s ((t.setCou r {}).resetWin (.cou r) 0 0x10000))
theorem SameTiles.wakeClearing {r} (h : SameTiles s t) : SameTiles s (t.wakeClearing r) :=
  h.atpClearStart.couClearStart.setFld.setFld.setBit
theorem SameTiles.dieAwake {die} (h : SameTiles s t) : SameTiles s (t.dieAwake die) := h.foldl fun _ _ hu => hu.hbmAwake
theorem SameTiles.putWakeFrom {x} (h : SameTiles s t) : SameTiles s { t with wakeFrom := x } := h.trans ⟨rfl, rfl⟩
theorem SameTiles.beginWake {r from_ target} (h : SameTiles s t) : SameTiles s (t.beginWake r from_ target) :=
  .putWakeFrom (.setFld (.setFld (.ite h.wakeClearing.dieAwake.setFld h)))
theorem SameTiles.pend {r n} (h : SameTiles s t) : SameTiles s (t.pend r n) := h.trans ⟨rfl, rfl⟩
/-- A region asked for ACTIVE: it wakes at most, and no scratchpad row under test is given back. -/
theorem SameTiles.rgnRequest {r} (h : SameTiles s t) : SameTiles s (t.rgnRequest r 0) := by
  unfold State.rgnRequest
  extract_lets st
  rw [if_pos rfl, if_pos rfl, if_pos rfl]
  exact .ite h (.ite h (.ite h.pend (.ite h.setFld.pend (.ite h.setFld.pend (.ite h.pend h.setFld.pend.beginWake)))))

theorem Kept.onlyRegs {ks : List Nat} (h : Kept K s t) (h' : OnlyRegsIn ks t u) (hks : ∀ k ∈ ks, ¬K k) : Kept K s u := by
  obtain ⟨g, hu, hsame⟩ := h'
  exact h.trans ⟨by rw [hu], by rw [hu], fun k hk => hsame k fun hmem => hks k hmem hk⟩
theorem not_innKey_drv (e : Fin 8) {o : Nat} (ho : o < 0x10000) : ¬innKey (regKey (.drv e) o) :=
  not_innKey ho (by simp only [winIndex]; omega)
theorem Kept.drvFollow {e d} (h : Kept innKey s t) : Kept innKey s (t.drvFollow e d) := by
  refine h.onlyRegs (t.drvFollow_onlyRegs e d) fun k hk => ?_
  simp only [drvStatusKeys, List.mem_cons, List.not_mem_nil, or_false] at hk
  obtain rfl | rfl := hk
  · exact not_innKey_drv e (pageOff_lt d (by decide))
  · exact not_innKey_drv e (by decide)
theorem Kept.drvPlan {e d a} (h : Kept innKey s t) : Kept innKey s (t.drvPlan e d a) := by
  rw [State.drvPlan_eq]
  refine Kept.drvFollow (Kept.upd (t := t.wr64 (.drv e) (pageOff d DRV_D_PLAN_L) (BitVec.ofNat 64 a.toNat)) ?_ rfl rfl rfl)
  exact (h.wr (not_innKey_drv e (pageOff_lt d (by decide)))).wr (not_innKey_drv e (pageOff_lt d (o := DRV_D_PLAN_L + 4) (by decide)))
theorem Kept.layPlan {p} (h : Kept innKey s t) : Kept innKey s (t.layPlan p) :=
  .ite h ((h.ofQuiet (Kept.refl _ t).hbmWrite).foldl fun _ _ hu => hu.drvPlan)

/-! ### The regions of a step start (R145, R155, R213, R232) -/

theorem Kept.startPage {d no slot layer page home start} (h : Kept innKey s t) :
    Kept innKey s (t.startPage d no slot layer page home start) := by
  unfold State.startPage
  extract_lets f
  split
  · exact h
  · split
    · exact h.takeFrame
    · exact h.takeFrame.setPte.putReserved
theorem Kept.startPages {p} (h : Kept innKey s t) : Kept innKey s (t.startPages p) := by
  refine h.foldl fun u w hu => ?_
  split
  · exact hu
  · exact hu.foldl fun _ _ hv => hv.foldl fun _ _ hw => hw.startPage
theorem SamePlans.needSet {r prefill cls bucket} (h : SamePlans s t) : SamePlans s (t.needSet r prefill cls bucket) := by
  unfold State.needSet
  extract_lets d
  split
  · exact h
  · split
    · exact h
    · exact (h.keep (Kept.refl quietKey t).loadSet).trans ⟨rfl, rfl⟩
theorem SamePlans.startRegion {p r} (h : SamePlans s t) : SamePlans s (t.startRegion p r) := by
  unfold State.startRegion
  extract_lets s1 s2
  have hs1 : Kept quietKey t s1 := (Kept.refl _ t).foldl fun _ _ hu => .ite hu.onCore hu
  have hs2 : SamePlans s s2 := (h.keep hs1).needSet
  split
  · exact h
  · exact hs2.foldl fun u _ hu => hu.keep (Kept.refl quietKey u).coreGo

end

end Sys2Proof.Machine
end

section
/-! SUPPORT. Reads and writes by device address leave the registers of the Innkeeper, the pipelines and the Couriers alone. -/

namespace Sys2Proof.Machine

theorem not_quietKey_of_paged {k : Nat} (h : pagedKey k) : ¬quietKey k := by
  simp only [pagedKey, quietKey, winIndex] at *
  obtain h | h | h | h | ⟨c, h⟩ := h <;> omega

section
variable {K : Nat → Prop} {s t u : State}

theorem Paged.keptQuiet (h : Paged s t) : Kept quietKey s t :=
  ⟨by rw [h.rest], by rw [h.rest], fun k hk => h.regs k fun hp => not_quietKey_of_paged hp hk⟩

theorem Kept.putAcc {a x} (h : Kept K s t) : Kept K s { t with acc := a, ueSeen := x } := h.upd rfl rfl rfl
theorem Kept.putRegulators {a b} (h : Kept K s t) : Kept K s { t with rglRem := a, rglTok := b } := h.upd rfl rfl rfl
theorem Kept.putEnergy {a} (h : Kept K s t) : Kept K s { t with energyRem := a } := h.upd rfl rfl rfl
theorem Kept.putHostTx {l} (h : Kept K s t) : Kept K s { t with hostTx := l } := h.upd rfl rfl rfl
theorem Kept.putLinkTx {l} (h : Kept K s t) : Kept K s { t with linkTx := l } := h.upd rfl rfl rfl

/-! ### What carrying bytes counts (R246, R318) -/

theorem Kept.charge {d pj} (h : Kept quietKey s t) : Kept quietKey s (t.charge d pj) :=
  .putEnergy ((h.wr (not_quietKey_pwr d (by decide))).wr (not_quietKey_pwr d (o := PWR_D_ENERGY_L + 4) (by decide)))
theorem Kept.carry {w d n} (h : Kept quietKey s t) (hinn : winIndex w ≠ 1) (hw : winIndex w < 59) : Kept quietKey s (t.carry w d n) :=
  .putRegulators (Kept.charge (h.bump (not_quietKey (by simp only [RGL_D_KIB]; omega) hinn (.inl hw))))
theorem Kept.bridge {m die write n} (h : Kept quietKey s t) : Kept quietKey s (t.bridge m die write n) := by
  unfold State.bridge
  split
  · exact .ite h (h.carry (by simp only [winIndex]; omega) (by simp only [winIndex]; omega))
  · exact h
theorem Kept.overLink {dst d n} (h : Kept quietKey s t) : Kept quietKey s (t.overLink dst d n) := by
  unfold State.overLink
  split
  · exact h.carry (by simp only [winIndex]; omega) (by simp only [winIndex]; omega)
  · exact h

/-! ### Pieces (R27) -/

theorem Kept.refusedRec {m b} (h : Kept quietKey s t) : Kept quietKey s (t.refusedRec m b) := by
  unfold State.refusedRec
  split
  · exact (h.bump (not_quietKey_spd _ _)).ledger
  · exact h.ledger
  · exact h.ledger
  · exact h.ledger
theorem Kept.readPiece {m a n far} (h : Kept quietKey s t) : Kept quietKey s (t.readPiece m a n far).2 := by
  unfold State.readPiece
  dsimp only
  split
  · exact h.bridge.portRead
  · exact h
  · exact h.bridge.hbmRead
  · exact h
  · exact h.carry (by decide) (by decide)
  · exact h
theorem Kept.readF {m} : ∀ {k a n far} {t : State}, Kept quietKey s t → Kept quietKey s (t.readF m k a n far).2
  | 0, _, _, _, _, h => h
  | _ + 1, _, _, _, _, h => by
    unfold State.readF
    split
    · exact h
    · exact h.readPiece.readF
theorem Kept.read {m a n far} (h : Kept quietKey s t) : Kept quietKey s (t.read m a n far).2 := by
  unfold State.read
  split
  · exact h.refusedRec
  · exact h.readF
theorem Kept.writePiece {m a bs} (h : Kept quietKey s t) : Kept quietKey s (t.writePiece m a bs).2 := by
  unfold State.writePiece
  dsimp only
  split
  · exact h.bridge.portWrite
  · exact h.putAcc
  · exact h.bridge.hbmWrite
  · split
    · exact h
    · exact (h.carry (by simp only [winIndex]; omega) (by simp only [winIndex]; omega)).trans (Paged.fabRequest _ _ _).keptQuiet
  · exact (h.carry (by decide) (by decide)).putHostTx
  · exact h
theorem Kept.writeF {m} : ∀ {k a bs} {t : State}, Kept quietKey s t → Kept quietKey s (t.writeF m k a bs).2
  | 0, _, _, _, h => h
  | _ + 1, _, _, _, h => by
    unfold State.writeF
    split
    · exact h
    · exact h.writePiece.writeF
theorem Kept.write {m a bs} (h : Kept quietKey s t) : Kept quietKey s (t.write m a bs).2 := by
  unfold State.write
  split
  · exact h.refusedRec
  · exact h.writeF

end

end Sys2Proof.Machine
end

section
/-! SUPPORT. Phases: what opens or goes on in a Courier's phase writes no unit's phase register (R115, R165). -/

namespace Sys2Proof.Machine

/-- The keys of ATP_PHASE and COU_PHASE, of every region. -/
def phaseKey (k : Nat) : Prop := ∃ r : RegionNo, k = regKey (.atp r) ATP_PHASE ∨ k = regKey (.cou r) COU_PHASE

theorem phaseKey_atp (r : RegionNo) : phaseKey (regKey (.atp r) ATP_PHASE) := ⟨r, .inl rfl⟩
theorem phaseKey_cou (r : RegionNo) : phaseKey (regKey (.cou r) COU_PHASE) := ⟨r, .inr rfl⟩
theorem quietKey_of_phase {k : Nat} (h : phaseKey k) : quietKey k := by
  obtain ⟨r, rfl | rfl⟩ := h <;> simp only [quietKey, regKey, winIndex, ATP_PHASE, COU_PHASE] <;> omega
/-- Another register of a Courier is none of them. -/
theorem not_phaseKey_cou (r : RegionNo) {o : Nat} (ho : o < 0x10000) (hne : o ≠ COU_PHASE) : ¬phaseKey (regKey (.cou r) o) := by
  rintro ⟨q, hq | hq⟩ <;> simp only [regKey, winIndex, ATP_PHASE, COU_PHASE] at hq hne <;> omega

section
variable {s t u : State} {r : RegionNo}

theorem SameOn.quiet (h : SameOn phaseKey s t) (h' : Kept quietKey t u) : SameOn phaseKey s u :=
  h.trans (h'.regs.mono fun _ => quietKey_of_phase)
theorem SameOn.read {m a n far} (h : SameOn phaseKey s t) : SameOn phaseKey s (t.read m a n far).2 := h.quiet (Kept.refl _ t).read
theorem SameOn.write {m a bs} (h : SameOn phaseKey s t) : SameOn phaseKey s (t.write m a bs).2 := h.quiet (Kept.refl _ t).write
theorem SameOn.ledger {e} (h : SameOn phaseKey s t) : SameOn phaseKey s (t.ledger e) := h.quiet (Kept.refl _ t).ledger
/-! ### Descriptors that fail (R178) -/

theorem SameOn.setCou {K q c} (h : SameOn K s t) : SameOn K s (t.setCou q c) := h.upd rfl
theorem SameOn.setCouState {v} (h : SameOn phaseKey s t) : SameOn phaseKey s (t.setCouState r v) :=
  h.setFld (not_phaseKey_cou r (by decide) (by decide))
theorem SameOn.couBit {i b} (h : SameOn phaseKey s t) : SameOn phaseKey s (t.setBit (.cou r) COU_STATUS i b) :=
  h.setBit (not_phaseKey_cou r (by decide) (by decide))
theorem SameOn.reportFail {K session code} (h : SameOn K s t) : SameOn K s (t.reportFail r session code) := by
  unfold State.reportFail
  dsimp only
  split
  · exact h.upd rfl
  · exact h
theorem SameOn.couError {code layer} (h : SameOn phaseKey s t) : SameOn phaseKey s (t.couError r code layer) :=
  .reportFail (.ledger (.couBit ((h.wr (not_phaseKey_cou r (by decide) (by decide))).bump (not_phaseKey_cou r (by decide) (by decide)))))
theorem SameOn.couFail {code} (h : SameOn phaseKey s t) : SameOn phaseKey s (t.couFail r code) := .ite h h.couError.setCou
theorem SameOn.exchangeEnds {d prefill code} (h : SameOn phaseKey s t) : SameOn phaseKey s (t.exchangeEnds d prefill code) :=
  h.foldl fun _ _ hu => .ite (.ite hu.couFail.setCou hu.couFail.setCou.setCouState) hu
theorem SameOn.putLinkTx {K l} (h : SameOn K s t) : SameOn K s { t with linkTx := l } := h.upd rfl
theorem SameOn.exchangeFail {code} (h : SameOn phaseKey s t) : SameOn phaseKey s (t.exchangeFail r code) := h.exchangeEnds.putLinkTx

/-! ### The exchange (R172 to R176) -/

theorem SameOn.couTell {pkg rgn kind data} (h : SameOn phaseKey s t) : SameOn phaseKey s (t.couTell r pkg rgn kind data) := by
  unfold State.couTell
  split
  · exact h
  · exact (h.quiet (Kept.refl _ t).overLink).putLinkTx
theorem SameOn.sendCounts (h : SameOn phaseKey s t) : SameOn phaseKey s (t.sendCounts r) := by
  unfold State.sendCounts
  split
  · exact h
  · exact h.foldl fun _ _ hu => hu.couTell
theorem SameOn.writeHeaders (h : SameOn phaseKey s t) : SameOn phaseKey s (t.writeHeaders r) := by
  unfold State.writeHeaders
  extract_lets
  split
  · extract_lets _ s1
    have hs1 : SameOn phaseKey s s1 := h.foldl fun _ _ hu => .ite hu.write hu.write.couFail.setCou
    exact .ite hs1.setCou.couBit hs1.setCou
  · exact h
theorem SameOn.putCancels {K l} (h : SameOn K s t) : SameOn K s { t with cancels := l } := h.upd rfl
theorem SameOn.couBump {o n} (h : SameOn phaseKey s t) (ho : o < 0x10000) (hne : o ≠ COU_PHASE) :
    SameOn phaseKey s (t.bump (.cou r) o n) := h.bump (not_phaseKey_cou r ho hne)
theorem SameOn.grantRound (h : SameOn phaseKey s t) : SameOn phaseKey s (t.grantRound r) := by
  unfold State.grantRound
  extract_lets
  split
  · exact h
  · extract_lets _ _ _ _ _ s3
    have hs3 : SameOn phaseKey s s3 :=
      (((h.setCou.couBump (o := COU_EVT_DROPS) (by decide) (by decide)).couBump (o := COU_EVT_POOL) (by decide) (by decide)).couBump
        (o := COU_EVT_EMPTY) (by decide) (by decide)).foldl fun _ _ hu => hu.couTell
    exact .ite h (.ite h.setCou.writeHeaders (.ite h (.ite h.exchangeFail hs3.putCancels.writeHeaders)))
theorem SameOn.sendRows {x rr home g} (h : SameOn phaseKey s t) : SameOn phaseKey s (t.sendRows r x rr home g) := by
  unfold State.sendRows
  extract_lets _ _ _ s1 _ _ _ _ s3
  have hs1 : SameOn phaseKey s s1 := h.foldl fun _ _ hu => .couTell (.ite hu.read.couFail hu.read)
  have hs3 : SameOn phaseKey s s3 :=
    (hs1.setCou.couBump (by decide) (by decide)).foldl fun _ _ hu => .ite hu.write hu.write.couFail
  exact hs3.couBump (by decide) (by decide)
theorem SameOn.takeGrants (h : SameOn phaseKey s t) : SameOn phaseKey s (t.takeGrants r) := by
  unfold State.takeGrants
  extract_lets
  split
  · exact h.setCou.foldl fun _ _ hu => hu.foldl fun _ _ hv => hv.sendRows
  · exact h
theorem SameOn.couProgress (h : SameOn phaseKey s t) : SameOn phaseKey s (t.couProgress r) :=
  .ite h (.ite h.grantRound.takeGrants.setCouState h.grantRound.takeGrants)
theorem SameOn.outputRow {x g} (h : SameOn phaseKey s t) : SameOn phaseKey s (t.outputRow r x g).2 := h.read
theorem SameOn.sendReturns (h : SameOn phaseKey s t) : SameOn phaseKey s (t.sendReturns r) := by
  unfold State.sendReturns
  extract_lets
  split
  · exact h
  · exact h.foldl fun _ _ hu => .couTell (.ite hu.outputRow.couFail hu.outputRow)
theorem SameOn.combineToken {x rr k} (h : SameOn phaseKey s t) : SameOn phaseKey s (t.combineToken r x rr k) := by
  unfold State.combineToken
  extract_lets _ _ _ _ sh _ rows _ _ _ _ _ s2
  have hsh : SameOn phaseKey s sh.2 := by
    unfold sh
    split
    · exact h.read
    · exact h
  have hrows : SameOn phaseKey s rows.2.2 := foldl_keeps (P := fun q : List (Word32 × List Word32) × Bool × State => SameOn phaseKey s q.2.2)
    (fun _ _ hu => .ite hu.read.couFail hu.read) _ _ (.ite hsh.couFail hsh)
  have hs2 : SameOn phaseKey s s2 := .ite hrows.write.setCou.couFail hrows.write.setCou
  exact .ite hs2 hs2.couFail
theorem SameOn.combineReady (h : SameOn phaseKey s t) : SameOn phaseKey s (t.combineReady r) := by
  unfold State.combineReady
  extract_lets
  split
  · extract_lets _ _ s1
    have hs1 : SameOn phaseKey s s1 := h.foldl fun _ _ hu => hu.combineToken
    exact .ite h (.ite hs1.setCou.setCouState.couBit hs1.setCouState)
  · exact h

/-! ### A phase of the Courier opens or goes on (R165) -/

theorem SameOn.couEnter {p} (h : SameOn phaseKey s t) : SameOn phaseKey s (t.couEnter r p) := by
  unfold State.couEnter
  extract_lets _ _ _ _ s2
  have hs2 : SameOn phaseKey s s2 := .ite (h.couBit.couBit.wr (not_phaseKey_cou r (by decide) (by decide))) h.couBit.couBit
  refine .ite hs2.setCouState (.ite (.ite h.setCouState.sendCounts.couProgress h) (.ite (.ite h.setCouState h.setCouState) ?_))
  exact .ite (.ite h.setCouState.sendReturns.combineReady h) (.ite h h.setCouState)
theorem SameOn.couResume {p} (h : SameOn phaseKey s t) : SameOn phaseKey s (t.couResume r p) :=
  .ite h.setCou.setCouState (.ite h.setCou.setCouState.couProgress h.setCou.setCouState.combineReady)

/-- COU_PHASE and the phase in COU_STATUS as a write of the phase leaves them first. -/
def State.showCouPhase (s : State) (r : RegionNo) (new : Nat) : State :=
  (s.wr (.cou r) COU_PHASE (BitVec.ofNat 32 new)).setFld (.cou r) COU_STATUS 4 3 new
/-- What follows in the Courier writes no phase. -/
theorem State.couPhaseWrite_shown (s : State) (r : RegionNo) {v : Word32} (hv : bitsOf v 0 3 < 5) :
    SameOn phaseKey (s.showCouPhase r (bitsOf v 0 3)) (s.couPhaseWrite r v) := by
  have h := SameOn.refl phaseKey (s.showCouPhase r (bitsOf v 0 3))
  unfold State.couPhaseWrite
  extract_lets old new s1 st
  refine (if_neg (show ¬5 ≤ new by omega)) ▸ ?_
  exact .ite h (.ite (.ite h.couResume h) (.ite (h.setCou.setCouState.quiet (Kept.refl _ _).detectRgn) (.ite h h.couEnter)))

/-! ### Both phases of a region (R115, R165) -/

/-- ATP_PHASE holds the phase written, whatever the units did with their work. -/
theorem State.atpPhase_phaseWrite (s : State) (r : RegionNo) (v : Word32) : (s.phaseWrite r v).atpPhase r = bitsOf v 0 2 := by
  let u := allUnits.foldl (fun (t : State) x => t.holdUnit r (s.atpPhase r) (bitsOf v 0 2) x)
    (if s.atpPhase r = 2 ∧ bitsOf v 0 2 ≠ 2 ∧ s.unitState r .att ≠ 3 then s.endMerge r else s)
  have hwrite : s.phaseWrite r v = allUnits.foldl (fun (t : State) x => t.unitFollow r x)
      ((u.showPhase r (bitsOf v 0 2)).restartDone r (s.atpPhase r) (bitsOf v 0 2)) := rfl
  obtain ⟨-, hshown, -⟩ := u.showPhase_results r (new := bitsOf v 0 2) (Nat.mod_lt _ (by decide))
  obtain ⟨hdone, -⟩ := (u.showPhase r (bitsOf v 0 2)).restartDone_results r (s.atpPhase r) (bitsOf v 0 2)
  obtain ⟨hfollow, -⟩ := State.unitsFollow r allUnits ((u.showPhase r (bitsOf v 0 2)).restartDone r (s.atpPhase r) (bitsOf v 0 2))
  rw [hwrite, State.atpPhase, hfollow.fld _ _ _ _ (by simp [regKey]), hdone.fld _ _ _ _ (by simp [regKey])]
  exact hshown
theorem SameOn.atpPhase {t u : State} (h : SameOn phaseKey t u) : u.atpPhase r = t.atpPhase r :=
  congrArg (bitsOf · 0 2) (h.rd (phaseKey_atp r))
theorem SameOn.couPhase {t u : State} (h : SameOn phaseKey t u) : u.couPhase r = t.couPhase r :=
  congrArg (bitsOf · 0 3) (h.rd (phaseKey_cou r))
theorem State.showCouPhase_results (s : State) (r : RegionNo) {new : Nat} (hnew : new < 5) :
    (s.showCouPhase r new).couPhase r = new ∧ (s.showCouPhase r new).atpPhase r = s.atpPhase r := by
  constructor
  · rw [State.couPhase, State.showCouPhase, State.fld_setFld_other _ _ _ _ _ _ _ _ _ _ (by simp [regKey]), State.fld, State.rd_wr_self]
    simp only [bitsOf, BitVec.toNat_ofNat]
    omega
  · have hkey : ∀ o, o < 0x10000 → regKey (.atp r) ATP_PHASE ≠ regKey (.cou r) o := fun o ho => by
      simp only [regKey, winIndex, ATP_PHASE]; omega
    rw [State.atpPhase, State.showCouPhase, State.fld_setFld_other _ _ _ _ _ _ _ _ _ _ (hkey _ (by decide)),
      State.fld_wr_other _ _ _ _ _ _ _ _ (hkey _ (by decide)), State.atpPhase]
/-- Both phases are the ones written. -/
theorem State.writePhases_results (s : State) (r : RegionNo) {a c : Nat} (ha : a < 4) (hc : c < 5) :
    (s.writePhases r a c).atpPhase r = a ∧ (s.writePhases r a c).couPhase r = c := by
  let u := s.phaseWrite r (BitVec.ofNat 32 a)
  have hatp : bitsOf (BitVec.ofNat 32 a : Word32) 0 2 = a := by simp only [bitsOf, BitVec.toNat_ofNat]; omega
  have hcou : bitsOf (BitVec.ofNat 32 c : Word32) 0 3 = c := by simp only [bitsOf, BitVec.toNat_ofNat]; omega
  have hsame := u.couPhaseWrite_shown r (v := BitVec.ofNat 32 c) (by omega)
  rw [hcou] at hsame
  obtain ⟨hshown, hkept⟩ := u.showCouPhase_results r hc
  exact ⟨hsame.atpPhase.trans (hkept.trans ((s.atpPhase_phaseWrite r _).trans hatp)), hsame.couPhase.trans hshown⟩

end

end Sys2Proof.Machine
end

section
/-! SUPPORT. The end of items and steps counts no step and accepts no item (R211, R215, R224). -/

namespace Sys2Proof.Machine

section
variable {s t u : State} {d : Dye}

theorem SameOn.kept (h : SameOn innCountKey s t) (h' : Kept innKey t u) : SameOn innCountKey s u := h.trans h'.regs.toCounts
theorem SameOn.countPost {p} (h : SameOn innCountKey s t) : SameOn innCountKey s (t.postRec p) :=
  h.trans (SameOn.refl innKey t).postRec.toCounts
/-- Another count of a dye. -/
theorem SameOn.countOther {o n} (h : SameOn innCountKey s t) (ho : o < 0x100) (ha : o ≠ 0x18) (hs : o ≠ 0x2C) :
    SameOn innCountKey s (t.bumpP .inn d o n) := h.bumpP (not_innCountKey_page d ho ha hs)

/-! ### Sessions and their tables -/

theorem Kept.tellLen {K slot len rollback} (h : Kept K s t) : Kept K s (t.tellLen d slot len rollback) := h.putLinkTx
theorem Kept.lowerValid {p v} (h : Kept quietKey s t) : Kept quietKey s (t.lowerValid d p v) := by
  refine .ite (.ite h.hbmRead.hbmWrite h.hbmRead) (.ite ?_ h)
  split
  · exact .ite h.sliceRead.sliceWrite h.sliceRead
  · exact h
theorem Kept.setLen {slot len rollback} (h : Kept innKey s t) : Kept innKey s (t.setLen d slot len rollback) := by
  unfold State.setLen
  extract_lets s1 _ _ s2
  have hs1 : Kept innKey s s1 := by
    unfold s1
    split
    · exact h
    · exact h.setCtx
  have hs2 : Kept innKey s s2 := hs1.foldl fun _ _ hu => hu.dropPage.setPte
  exact .ite hs1 (hs2.foldl fun u _ hu => hu.ofQuiet (Kept.refl _ u).lowerValid)

/-! ### Weight sets that drain (R197) -/

theorem Kept.setWstate {w v} (h : Kept innKey s t) : Kept innKey s (t.setWstate d w v) :=
  h.foldl fun _ e hu => hu.setFld (by
    have := d.isLt
    simp only [innKey, regKey, winIndex]
    omega)
theorem Kept.emptyWset {w} (h : Kept innKey s t) : Kept innKey s (t.emptyWset d w) := by
  have hfreed : Kept innKey s (match t.wset d w with
      | none => t
      | some x => x.bases.foldl (fun t b => (List.range x.frames).foldl (fun u i => u.freeFrame (b + i)) t) t) := by
    split
    · exact h
    · exact h.foldl fun _ _ hu => hu.foldl fun _ _ hv => hv.freeFrame
  exact Kept.setWstate (hfreed.upd rfl rfl rfl)
theorem Kept.tellWstate {w v} (h : Kept innKey s t) : Kept innKey s (t.tellWstate d w v) := h.setWstate.tellAll
theorem Kept.drainWeights (h : Kept innKey s t) : Kept innKey s t.drainWeights := h.foldl fun _ _ hu => .ite hu.emptyWset.tellWstate hu

/-! ### Items that end -/

theorem SameOn.putItems {K l} (h : SameOn K s t) : SameOn K s { t with items := l } := h.upd rfl
theorem SameOn.putTokenRecs {K l} (h : SameOn K s t) : SameOn K s { t with tokenRecs := l } := h.upd rfl
theorem SameOn.setSess {K id x} (h : SameOn K s t) : SameOn K s (t.setSess d id x) := h.upd rfl
theorem SameOn.freeSession {x} (h : SameOn innCountKey s t) : SameOn innCountKey s (t.freeSession d x) :=
  h.trans (t.freeSession_results d x).2.2.2
theorem SameOn.closeIfDone {id} (h : SameOn innCountKey s t) : SameOn innCountKey s (t.closeIfDone d id) := by
  unfold State.closeIfDone
  split
  · exact h
  · extract_lets closes s1
    have hs1 : SameOn innCountKey s s1 := h.foldl fun _ _ hu => hu.countPost.giveEntries
    exact .ite hs1.putItems.freeSession.innFollow h
theorem SameOn.finishItem {i} (h : SameOn innCountKey s t) : SameOn innCountKey s (t.finishItem i) := by
  unfold State.finishItem
  extract_lets s1 _ s2
  have hs1 : SameOn innCountKey s s1 := h.upd rfl
  have hs2 : SameOn innCountKey s s2 := .ite hs1 hs1.closeIfDone
  exact hs2.closeIfDone.kept (Kept.refl _ _).drainWeights
theorem SameOn.postFailure {i code fate} (h : SameOn innCountKey s t) : SameOn innCountKey s (t.postFailure i code fate) := by
  unfold State.postFailure
  extract_lets s1
  have hs1 : SameOn innCountKey s s1 := h.countPost.countOther (by decide) (by decide) (by decide)
  exact .ite (hs1.countOther (by decide) (by decide) (by decide)) hs1
theorem SameOn.failItem {i code} (h : SameOn innCountKey s t) : SameOn innCountKey s (t.failItem i code 0) := by
  unfold State.failItem
  extract_lets _ s2 s3
  have hs2 : SameOn innCountKey s s2 := h.postFailure.giveEntries
  have hs3 : SameOn innCountKey s s3 := by
    unfold s3
    split
    · exact .ite hs2 (hs2.kept (Kept.refl _ _).setLen.tellLen)
    · exact hs2
  exact hs3.finishItem
theorem SameOn.hist {K kind q unit v} (h : SameOn K s t) : SameOn K s (t.hist kind q unit v) := by
  obtain ⟨l, hhist⟩ := t.hist_frame kind q unit v
  exact h.upd (by rw [hhist])
theorem SameOn.reportItem {p i alone} (h : SameOn innCountKey s t) : SameOn innCountKey s (t.reportItem p i alone) := by
  unfold State.reportItem
  extract_lets _ _ _ s0
  have hs0 : SameOn innCountKey s s0 := .hist (.ite h (h.upd rfl))
  split
  · exact h.finishItem
  · exact (hs0.countPost.giveEntries.setSess.putTokenRecs.kept (Kept.refl _ _).setLen.tellLen).finishItem

/-! ### Steps that end, and regions that change lanes (R203, R211) -/

theorem SameOn.disarm {K p} (h : SameOn K s t) : SameOn K s (t.disarm p) := h.upd rfl
theorem Kept.putIdleAt {K l} (h : Kept K s t) : Kept K s { t with idleAt := l } := h.upd rfl rfl rfl
theorem SameOn.endPlan {no} (h : SameOn innCountKey s t) : SameOn innCountKey s (t.endPlan d no) := by
  unfold State.endPlan
  extract_lets s1 _ _ s2
  have hs1 : SameOn innCountKey s s1 := h.disarm
  have hs2 : SameOn innCountKey s s2 := hs1.upd rfl
  exact hs2.foldl fun _ _ hu => hu.foldl fun v _ hv => hv.kept (Kept.refl _ v).rgnRequest.putIdleAt
/-- A step ended is found no more, and is not counted. -/
theorem State.endStep_results (s : State) (d : Dye) (no : Word32) :
    (s.endStep d no).stepNamed d no = none ∧ SameOn innCountKey s (s.endStep d no) := by
  unfold State.endStep
  extract_lets s1
  have hs1 : SameOn innCountKey s s1 := (SameOn.refl _ s).endPlan.kept (Kept.refl _ _).drainWeights
  obtain ⟨g, hfollow⟩ := State.innFollow_frame { s1 with steps := s1.steps.filter fun p => !(p.dye == d && p.number == no) } d
  refine ⟨State.stepNamed_of_filter (s := s1) (by rw [hfollow]), SameOn.innFollow (hs1.upd rfl)⟩
theorem not_innKey_cou (r : RegionNo) {o : Nat} (ho : o < 0x10000) : ¬innKey (regKey (.cou r) o) :=
  not_innKey ho (by simp only [winIndex]; omega)
theorem Kept.wr64 {w o v} (h : Kept innKey s t) (hlow : ¬innKey (regKey w o)) (hhigh : ¬innKey (regKey w (o + 4))) :
    Kept innKey s (t.wr64 w o v) := (h.wr hlow).wr hhigh
theorem Kept.loadPools (h : Kept innKey s t) : Kept innKey s (t.loadPools d) := by
  refine h.foldl fun u r hu => ?_
  extract_lets
  split
  · exact hu
  · have hkey := fun {o} ho => not_innKey_cou r (o := o) ho
    exact ((hu.wr64 (hkey (by decide)) (hkey (by decide))).wr64 (hkey (by decide)) (hkey (by decide))).wr (hkey (by decide))
theorem Kept.pointTables (h : Kept innKey s t) : Kept innKey s (t.pointTables d) := by
  unfold State.pointTables
  split
  · exact h
  · exact h.foldl fun _ e hu => hu.wr64 (not_innKey_drv e (pageOff_lt d (by decide)))
      (not_innKey_drv e (pageOff_lt d (o := DRV_D_TABLE_L + 4) (by decide)))
/-- Regions that change lanes leave the steps and their count alone. -/
theorem State.applyLaneMoves_results (s : State) : s.applyLaneMoves.steps = s.steps ∧ SameOn innCountKey s s.applyLaneMoves := by
  refine foldl_keeps (P := fun t => t.steps = s.steps ∧ SameOn innCountKey s t) (fun t m ht => ?_) _ s ⟨rfl, .refl _ s⟩
  obtain ⟨hsteps, hregs⟩ := ht
  split
  · let v : State := { t with prefillLane := tabSet (fun _ => false) t.prefillLane m.1.val m.2.1, progSet := natSet t.progSet m.1.val 0,
                              laneMoves := t.laneMoves.filter (fun x => x ≠ m) }
    have hfollow : Kept innKey v (v.shapeFollow (t.owner m.1)) := (Kept.refl _ v).loadPools.pointTables
    exact ⟨hfollow.samePlans.steps.trans hsteps, (SameOn.upd (u := v) hregs rfl).kept hfollow⟩
  · exact ⟨hsteps, hregs⟩

end

end Sys2Proof.Machine
end

section
/-! SUPPORT. The life of a step: each of its commands (R211, R213 to R215, R221). -/

namespace Sys2Proof.Machine
section
variable {s : State} {d : Dye} {r : RegionNo} {step : Word32}

/-! ### The seal and the plan (R211, R213, R214) -/

/-- A step at its time is sealed, and its plan leaves (R211). -/
theorem stepSeal_answers {p : Step} {q : Quote} (hstep : s.stepNamed d step = some p) (hopen : p.state = .isOpen)
    (hdue : p.start ≤ s.now + cfgSeal (s.cfg d))
    (hquote : s.quoteStep d p.prefill p.cls p.start ((s.stepItems p).map s.priced) p.load = some q) :
    Answers (.stepSeal d step) s (fun t => t.stepNamed d step = some { p with state := .sealed } ∧
      t.linkTx = s.linkTx ++ [LinkOut.plan (s.planOf p q)] ∧ t = { s with regs := t.regs, steps := t.steps, linkTx := t.linkTx }) := by
  let v : State := { s.setStep { p with state := .sealed } with linkTx := s.linkTx ++ [LinkOut.plan (s.planOf p q)] }
  have hexec : exec (.stepSeal d step) s = .next (v.innFollow d) := by
    show execStepSeal d step s = _
    have hgo : ¬(p.state ≠ .isOpen ∨ s.now + cfgSeal (s.cfg d) < p.start) := by
      rintro (h | h)
      · exact h hopen
      · omega
    simp only [execStepSeal, hstep, if_neg hgo, hquote]
    rfl
  obtain ⟨g, hfollow⟩ := v.innFollow_frame d
  refine ⟨_, hexec, ?_, ?_, ?_⟩
  · rw [hfollow]
    exact State.stepNamed_setStep hstep rfl rfl
  · rw [hfollow]
  · rw [hfollow]
    rfl

/-- A new plan is kept and laid, the regions of its lane are woken, and its start is armed (R213, R214). -/
theorem stepPlan_answers (pl : StepPlan) (hnew : ∀ q ∈ s.plans, ¬(q.plan.dye = pl.dye ∧ q.plan.step = pl.step)) :
    Answers (.stepPlan pl) s (fun t => { plan := pl } ∈ t.plans ∧
      t = (((({ s with plans := s.plans ++ [{ plan := pl }] } : State).layPlan pl).laneRegs pl.dye
        pl.lane).foldl (fun (t : State) r => t.rgnRequest r 0)
          (({ s with plans := s.plans ++ [{ plan := pl }] } : State).layPlan pl)).armCmp 0 pl.start.toNat
            (.stepStart pl.dye pl.step) ∧ t.sram = s.sram ∧ t.acc = s.acc) := by
  let s0 : State := { s with plans := s.plans ++ [{ plan := pl }] }
  let u := ((s0.layPlan pl).laneRegs pl.dye pl.lane).foldl (fun (t : State) r => t.rgnRequest r 0) (s0.layPlan pl)
  have hexec : exec (.stepPlan pl) s = .next (u.armCmp 0 pl.start.toNat (.stepStart pl.dye pl.step)) := by
    show execStepPlan pl s = _
    have hfind : s.plans.find? (fun q => q.plan.dye == pl.dye && q.plan.step == pl.step) = none := by
      simpa [List.find?_eq_none] using hnew
    simp only [execStepPlan, hfind]
    rfl
  have hkept : Kept innKey s0 u := (Kept.refl _ s0).layPlan.foldl fun _ _ hu => hu.rgnRequest
  have htiles : SameTiles s0 u := (SameTiles.refl s0).layPlan.foldl fun _ _ hu => hu.rgnRequest
  obtain ⟨c, l, harm⟩ := u.armCmp_frame 0 pl.start.toNat (.stepStart pl.dye pl.step)
  refine ⟨_, hexec, ?_, rfl, ?_, ?_⟩
  · rw [harm]
    exact hkept.samePlans.plans ▸ List.mem_append_right _ (List.mem_singleton_self _)
  · rw [harm]
    exact htiles.sram
  · rw [harm]
    exact htiles.acc

/-! ### The start of a step (R145, R213, R232) -/

/-- A plan that starts to run, as its first visit writes it. -/
def PlanSt.started (q w : PlanSt) : PlanSt := if w = q then { w with running := true } else w
/-- The regions of a step that wait for its first streams, noted in its plan. -/
def PlanSt.noted (d : Dye) (step : Word32) (late : List RegionNo) (w : PlanSt) : PlanSt :=
  if w.plan.dye = d ∧ w.plan.step = step then { w with waits := late } else w

theorem PlanSt.noted_kept (d : Dye) (step : Word32) (late : List RegionNo) (w : PlanSt) :
    (w.noted d step late).plan = w.plan ∧ (w.noted d step late).running = w.running := by
  unfold PlanSt.noted
  split <;> exact ⟨rfl, rfl⟩

/-- The step that starts is RUNNING where this package fronts it. -/
def State.stepRuns (s : State) (d : Dye) (step : Word32) : State :=
  match s.stepNamed d step with
  | some p => s.setStep { p with state := .running }
  | none => s
theorem State.plans_stepRuns (s : State) (d : Dye) (step : Word32) : (s.stepRuns d step).plans = s.plans := by
  unfold State.stepRuns
  split <;> rfl
theorem State.stepNamed_stepRuns {p : Step} (h : s.stepNamed d step = some p) :
    (s.stepRuns d step).stepNamed d step = some { p with state := .running } := by
  simp only [State.stepRuns, h]
  exact State.stepNamed_setStep h rfl rfl

/-- At its start a step runs, with its items (R213). -/
theorem stepStart_answers {q : PlanSt} (hplan : s.plans.find? (fun q => q.plan.dye == d && q.plan.step == step) = some q)
    (hwaiting : q.running = false) (hdue : q.plan.start.toNat ≤ s.now) : Answers (.stepStart d step) s (fun t =>
      (∃ w ∈ t.plans, w.plan = q.plan ∧ w.running = true) ∧
      (∀ p, s.stepNamed d step = some p → ∃ p', t.stepNamed d step = some p' ∧ p'.state = .running ∧ p'.items = p.items)) := by
  let s0 : State := { s with plans := s.plans.map q.started }
  let s1 := s0.startPages q.plan
  let late := (s1.laneRegs d q.plan.lane).filter fun r => s1.streamsOpen q.plan r 0 .layerStart
  let s1' : State := { s1 with plans := s1.plans.map (PlanSt.noted d step late) }
  let s2 := ((s1.laneRegs d q.plan.lane).filter fun r => !late.contains r).foldl (fun (t : State) r => t.startRegion q.plan r) s1'
  let s3 := s2.stepRuns d step
  let t := ((s3.disarm fun w => w == .stepStart d step).innFollow d).pulse 5 fun arg => arg == d.val
  have hexec : exec (.stepStart d step) s = .next t := by
    show execStepStart d step s = _
    have hgo : (q.running || decide (s.now < q.plan.start.toNat)) = false := by
      simp only [hwaiting, Bool.false_or, decide_eq_false_iff_not]
      omega
    simp only [execStepStart, hplan, hgo, Bool.false_eq_true, if_false]
    rfl
  have hpages : SamePlans s0 s1 := (Kept.refl innKey s0).startPages.samePlans
  have hregions : SamePlans s1' s2 := (SamePlans.refl s1').foldl fun _ _ hu => hu.startRegion
  have hdisarm : Kept quietKey s3 (s3.disarm fun w => w == .stepStart d step) := (Kept.refl _ s3).upd rfl rfl rfl
  have hend : SamePlans s3 t := hdisarm.samePlans.innFollow.keep (Kept.refl quietKey _).pulse
  refine ⟨t, hexec, ⟨(q.started q).noted d step late, ?_, ?_, ?_⟩, fun p hp => ⟨{ p with state := .running }, ?_, rfl, rfl⟩⟩
  · have hmem : q ∈ s.plans := List.mem_of_find?_eq_some hplan
    rw [hend.plans, State.plans_stepRuns, hregions.plans]
    exact List.mem_map_of_mem (hpages.plans ▸ List.mem_map_of_mem hmem)
  · rw [(PlanSt.noted_kept d step late _).1, PlanSt.started, if_pos rfl]
  · rw [(PlanSt.noted_kept d step late _).2, PlanSt.started, if_pos rfl]
  · have hstep2 : s2.stepNamed d step = some p := by
      rw [hregions.stepNamed]
      exact (hpages.stepNamed d step).trans hp
    rw [hend.stepNamed]
    exact State.stepNamed_stepRuns hstep2

/-! ### A point of a plan (R214, R215) -/

/-- A point opens its phases in a region that waits for nothing (R214, R215). -/
theorem phasePoint_answers {step : Word32} {layer : Nat} {pt : PlanPoint} {q : PlanSt}
    (hplan : s.plans.find? (fun q => q.plan.dye == s.owner r && q.plan.step == step && q.plan.lane == s.inPrefill r) = some q)
    (hrunning : q.running = true) (hdue : q.plan.start.toNat + pointOfs q.plan layer pt ≤ s.now) (hwaits : r ∉ q.waits)
    (hheld : tabGet heldReset s.held r.val = none) (hfree : s.phaseHeld q.plan r layer pt = false) :
    Answers (.phasePoint r step layer pt) s (fun t => t.atpPhase r = atpAt pt ∧ t.couPhase r = couAt pt ∧ (pt ≠ .attention → t =
      (if s.atpPhase r ≠ atpAt pt then s.setBit (.atp r) ATP_CFG 1 false else s).writePhases r (atpAt pt) (couAt pt))) := by
  have hexec : exec (.phasePoint r step layer pt) s = .next (s.openPhase q.plan r layer pt) := by
    show execPhasePoint r step layer pt s = _
    have hgo : (!q.running || decide (s.now < q.plan.start.toNat + pointOfs q.plan layer pt)) = false := by
      simp only [hrunning, Bool.not_true, Bool.false_or, decide_eq_false_iff_not]
      omega
    have hlate : s.startLate q r = s := if_neg (by simp [hwaits])
    simp only [execPhasePoint, hplan, hgo, hlate, hheld, hfree, Bool.false_eq_true, if_false]
  have hopened := fun u : State => u.writePhases_results r (a := atpAt pt) (c := couAt pt) (by cases pt <;> decide) (by cases pt <;> decide)
  refine ⟨_, hexec, (hopened _).1, (hopened _).2, fun hpt => ?_⟩
  simp only [State.openPhase, if_neg hpt]

/-! ### The report of a step (R211) -/

/-- The reports end the step, which is counted once (R211). -/
theorem stepReport_answers {q : PlanSt} {p : Step} (hplan : s.plans.find? (fun q => q.plan.dye == d && q.plan.step == step) = some q)
    (hrunning : q.running = true) (hfront : s.isFront d = true) (hstep : s.stepNamed d step = some p) (hstate : p.state = .running)
    (hitems : ∀ i ∈ s.stepItems p, i.needsToken = false) (hdegraded : (s.cfg d).degraded = false) :
    Answers (.stepReport d step) s (fun t => t.stepNamed d step = none ∧
      t.rdP .inn d INN_D_STEPS = s.rdP .inn d INN_D_STEPS + 1) := by
  let xs := s.stepItems p
  let f := s.takeFails d step
  let s1 := f.2.bumpP .inn d INN_D_DROPS (s.stepDrops p)
  let s2 := xs.foldl (fun (t : State) i => match s.itemFail f.1 i with
    | some code => t.failItem i code 0
    | none => t.reportItem p i (xs.length == 1)) s1
  let s3 := (s2.bumpP .inn d INN_D_STEPS).endStep d step
  have hexec : exec (.stepReport d step) s = .next s3.applyLaneMoves := by
    show execStepReport d step s = _
    simp only [execStepReport, hplan, hrunning, hfront, hstep, Bool.not_true, Bool.false_eq_true, if_false]
    refine (if_neg ?_).trans rfl
    rintro (h | h | h)
    · exact h hstate
    · obtain ⟨i, hi, hneeds⟩ := List.any_eq_true.1 h
      simp [hitems i hi] at hneeds
    · simp [hdegraded] at h
  have hs1 : SameOn innCountKey s s1 := ((SameOn.refl _ s).upd rfl : SameOn innCountKey s f.2).countOther (by decide) (by decide) (by decide)
  have hs2 : SameOn innCountKey s s2 := hs1.foldl fun u i hu => by
    split
    · exact hu.failItem
    · exact hu.reportItem
  obtain ⟨hgone, hended⟩ := (s2.bumpP .inn d INN_D_STEPS).endStep_results d step
  obtain ⟨hsteps, hmoved⟩ := s3.applyLaneMoves_results
  refine ⟨_, hexec, ?_, ?_⟩
  · exact (congrArg (List.find? _) hsteps).trans hgone
  · calc s3.applyLaneMoves.rdP .inn d INN_D_STEPS
      _ = (s2.bumpP .inn d INN_D_STEPS).rdP .inn d INN_D_STEPS := (hended.trans hmoved).rd (innCountKey_steps d)
      _ = s2.rdP .inn d INN_D_STEPS + 1 := State.rd_bump_self _ _ _
      _ = s.rdP .inn d INN_D_STEPS + 1 := congrArg (· + 1) (hs2.rd (innCountKey_steps d))

end

/-- Settles O38, one command at a time: the seal, the plan, the start, a point and the report. -/
theorem stepLifeResults : Obligations.StepLifeResults := by
  unfold Obligations.StepLifeResults
  intro s d step
  exact ⟨fun _ _ hstep hopen hdue hquote => stepSeal_answers hstep hopen hdue hquote, fun pl hnew => stepPlan_answers pl hnew,
    fun _ hplan hwaiting hdue => stepStart_answers hplan hwaiting hdue,
    fun _ _ _ _ hplan hrunning hdue hwaits hheld hfree => phasePoint_answers hplan hrunning hdue hwaits hheld hfree,
    fun _ _ hplan hrunning hfront hstep hstate hitems hdegraded =>
      stepReport_answers hplan hrunning hfront hstep hstate hitems hdegraded⟩

end Sys2Proof.Machine
end
